-- ==== Sys2Proof/Word.lean ====
section
/-!
DEFINITION. The word types of the BX7224: registers and memory windows are 32 bits wide (R8, R464), bytes travel in
frames, ticks and fine steps are counts (R6).
-/
namespace Sys2Proof

/-- A register or a memory-window word (R8). -/
abbrev Word := BitVec 32

/-- A byte of a frame, a flash page or a key. -/
abbrev Byte := BitVec 8

/-- A count of CLK_TIME periods (R6): the model's own clock since reset release, which no TIME_STEP moves. -/
abbrev Tick := Nat

/-- A count of fine steps, 12.5 ps each (R6). -/
abbrev Fine := Nat

end Sys2Proof
end

