-- ==== Sys2Proof/Machine/RegMap.lean ====
section
/-!
DEFINITION. The register map (R461, R476): every register entry of the spec's field tables, with its address formula,
the masks of its access codes (R9) and its reset word, then one address function A.X and one field reference F.X_Y per
entry.  The numbers are transcribed from the field tables; each block's table cites its section file.
-/
namespace Sys2Proof.Machine

/-- One register entry (R8, R476): the byte address of its first instance, the (stride, count) of each index, largest
stride first, the masks of its access codes and its reset word. -/
structure RegDef where
  /-- byte address of instance 0, which is also the entry's key -/
  base : Nat
  /-- (stride in bytes, number of instances) of each index -/
  dims : List (Nat × Nat)
  /-- reset word of an instance whose reset value does not depend on the instance -/
  reset : Nat
  /-- bits coded RW -/
  rw : Nat
  /-- bits coded RWL -/
  rwl : Nat
  /-- bits coded SH -/
  sh : Nat
  /-- bits coded W1C -/
  w1c : Nat
  /-- bits coded WO -/
  wo : Nat
  /-- position in an SNP group and the number of words of the group, for a word coded SNP -/
  snp : Option (Nat × Nat)
  deriving DecidableEq, Repr

/-- A reference to one field of one register instance: the word's byte address, the field's lowest bit, its width. -/
structure Fld where
  /-- byte address of the word -/
  addr : Nat
  /-- lowest bit -/
  lo : Nat
  /-- number of bits -/
  width : Nat
  deriving DecidableEq, Repr

/-- Index of the instance that address `off` (relative to the entry's first instance) names, over the given indices. -/
def dimsMatch : List (Nat × Nat) → Nat → Option (List Nat)
  | [], off => if off = 0 then some [] else none
  | (stride, count) :: rest, off =>
    let i := off / stride
    if i < count then
      match dimsMatch rest (off - i * stride) with
      | some l => some (i :: l)
      | none => none
    else none

/-- The IDG entries: spec/01_architecture.md, spec/04_start_up.md, spec/17_registers.md. -/
def regsIdg : List RegDef :=
  [⟨0x40, [], 0, 0, 0, 0, 0, 0, none⟩,
   ⟨0x80, [], 0, 0, 0, 0, 0, 0xFFFF0001, none⟩,
   ⟨0x84, [], 1, 0, 0, 0, 0, 0, none⟩,
   ⟨0x88, [], 0, 0, 0, 0, 0, 0, none⟩,
   ⟨0x8C, [], 0, 0, 0, 0, 0, 0, none⟩,
   ⟨0x90, [], 0, 0, 0, 0, 0, 0, none⟩,
   ⟨0x94, [], 0x10, 0, 0, 0, 0, 0, none⟩,
   ⟨0x98, [], 0, 0, 0, 0, 0, 0, none⟩,
   ⟨0x9C, [], 0x3EFF, 0, 0, 0, 0, 0, none⟩,
   ⟨0, [], 0x7224, 0, 0, 0, 0, 0, none⟩,
   ⟨4, [], 0, 0, 0, 0, 0, 0, none⟩,
   ⟨0xA0, [], 0, 0, 0, 0, 0, 0, none⟩,
   ⟨0xA4, [], 0, 0, 0, 0, 0, 0, none⟩,
   ⟨0x400, [(4, 768)], 0, 0, 0x33, 0, 0, 0, none⟩]

/-- The CLK entries: spec/02_clocks_time.md. -/
def regsClk : List RegDef :=
  [⟨0x10000, [], 0, 0, 0, 0, 0, 0, none⟩,
   ⟨0x10004, [], 5, 0, 0xF, 0, 0, 0, none⟩]

/-- The TIM entries: spec/02_clocks_time.md. -/
def regsTim : List RegDef :=
  [⟨0x10100, [], 0x6401, 0, 0xFF07, 0, 0, 0, none⟩,
   ⟨0x10104, [], 0, 0, 0, 0, 0, 0, some (0, 3)⟩,
   ⟨0x10108, [], 0, 0, 0, 0, 0, 0, some (1, 3)⟩,
   ⟨0x1010C, [], 0, 0, 0, 0, 0, 0, some (2, 3)⟩,
   ⟨0x10110, [], 0, 0xFFFFFFFF, 0, 0, 0, 0, none⟩,
   ⟨0x10114, [], 0, 0xFFFFFFFF, 0, 0, 0, 0, none⟩,
   ⟨0x10118, [], 0x64, 0x3FF, 0, 0, 0, 0, none⟩,
   ⟨0x1011C, [], 0, 0, 0, 0, 0x38, 0, none⟩,
   ⟨0x10120, [], 0, 0xFFFFFFFF, 0, 0, 0, 0, none⟩,
   ⟨0x10124, [], 0, 0xFFFFFFFF, 0, 0, 0, 0, none⟩,
   ⟨0x10128, [], 0, 0xFFFFFFFF, 0, 0, 0, 0, none⟩,
   ⟨0x1012C, [], 0, 0, 0, 0, 0, 1, none⟩,
   ⟨0x10130, [], 0, 0, 0, 0, 0, 0, some (0, 3)⟩,
   ⟨0x10134, [], 0, 0, 0, 0, 0, 0, some (1, 3)⟩,
   ⟨0x10138, [], 0, 0, 0, 0, 0, 0, some (2, 3)⟩]

/-- The DLC entries: spec/02_clocks_time.md. -/
def regsDlc : List RegDef :=
  [⟨0x10200, [], 1, 0, 1, 0, 0, 0, none⟩,
   ⟨0x10204, [], 0, 0, 0, 0, 0, 0, none⟩]

/-- The BOOT entries: spec/03_image.md. -/
def regsBoot : List RegDef :=
  [⟨0x20100, [], 0, 0, 0, 0, 0, 0, none⟩,
   ⟨0x20104, [], 0, 0, 0, 0, 0, 0, none⟩,
   ⟨0x20108, [(4, 4)], 0, 0, 0, 0, 0, 0, none⟩,
   ⟨0x20118, [(4, 4)], 0, 0, 0, 0, 0, 0, none⟩,
   ⟨0x20128, [(4, 4)], 0, 0, 0, 0, 0, 0, none⟩,
   ⟨0x20138, [], 0, 0, 0, 0, 0, 0, none⟩]

/-- The PDK entries: spec/03_image.md, spec/12_protection.md. -/
def regsPdk : List RegDef :=
  [⟨0x21000, [(4, 960)], 0, 0, 0, 0, 0, 0, none⟩,
   ⟨0x21F00, [], 0, 0, 0, 0, 0, 0, none⟩,
   ⟨0x21F04, [(4, 9)], 0, 0, 0, 0, 0, 0, none⟩,
   ⟨0x21F40, [], 0, 0, 0, 0, 0, 0, some (0, 3)⟩,
   ⟨0x21F44, [], 0, 0, 0, 0, 0, 0, some (1, 3)⟩,
   ⟨0x21F48, [], 0, 0, 0, 0, 0, 0, some (2, 3)⟩]

/-- The LEG entries: spec/05_leg_carrier.md, spec/06_leg_edges.md, spec/12_protection.md. -/
def regsLeg : List RegDef :=
  [⟨0x40000, [(0x400, 72)], 0, 0, 0x303, 0, 0, 0, none⟩,
   ⟨0x40004, [(0x400, 72)], 0, 0, 0, 0, 0xC0, 0, none⟩,
   ⟨0x40008, [(0x400, 72)], 0, 0, 0, 0xFFFF, 0, 0, none⟩,
   ⟨0x4000C, [(0x400, 72)], 0, 0, 0, 0, 0, 0, none⟩,
   ⟨0x40010, [(0x400, 72)], 0, 0, 0, 0, 0, 0, some (0, 2)⟩,
   ⟨0x40014, [(0x400, 72)], 0, 0, 0, 0, 0, 0, some (1, 2)⟩,
   ⟨0x40040, [(0x400, 72)], 0xFFFFFFFF, 0, 0, 0xFFFFFFFF, 0, 0, none⟩,
   ⟨0x40044, [(0x400, 72)], 0xFFFFFFFF, 0, 0, 0xFFFFFFFF, 0, 0, none⟩,
   ⟨0x40048, [(0x400, 72)], 0xFFFFFFFF, 0, 0, 0xFFFFFFFF, 0, 0, none⟩,
   ⟨0x4004C, [(0x400, 72)], 0xFFFFFFFF, 0, 0, 0xFFFFFFFF, 0, 0, none⟩,
   ⟨0x40060, [(0x400, 72)], 0, 0, 0, 0, 0, 0, none⟩,
   ⟨0x40064, [(0x400, 72)], 0, 0, 0, 0, 0, 0, some (0, 2)⟩,
   ⟨0x40068, [(0x400, 72)], 0, 0, 0, 0, 0, 0, some (1, 2)⟩,
   ⟨0x40100, [(0x400, 72)], 0xFFFFFFFF, 0, 0, 0xFFFFFFFF, 0, 0, none⟩,
   ⟨0x40104, [(0x400, 72)], 0xFFFF, 0, 0, 0xFFFF, 0, 0, none⟩,
   ⟨0x40108, [(0x400, 72)], 2, 0xE00, 0x130, 3, 0, 0, none⟩,
   ⟨0x4010C, [(0x400, 72)], 0, 0xFFFF00FF, 0, 0, 0, 0, none⟩,
   ⟨0x40110, [(0x400, 72)], 0, 0xFFFFFFFF, 0, 0, 0, 0, none⟩,
   ⟨0x40114, [(0x400, 72)], 0x10000FF, 0xFFFF00FF, 0, 0, 0, 0, none⟩,
   ⟨0x40118, [(0x400, 72)], 0x1F40, 0xFFFF, 0, 0, 0, 0, none⟩,
   ⟨0x4011C, [(0x400, 72)], 0, 0, 0, 0, 0, 0, none⟩,
   ⟨0x40120, [(0x400, 72)], 0, 0, 0, 0, 0, 0, none⟩,
   ⟨0x40124, [(0x400, 72)], 0x7A12, 0, 0xFFFFFF, 0, 0, 0, none⟩,
   ⟨0x40128, [(0x400, 72)], 0x7D00, 0, 0xFFFF, 0, 0, 0, none⟩,
   ⟨0x4012C, [(0x400, 72)], 0x80007A12, 0, 0, 0, 0, 0, none⟩,
   ⟨0x40130, [(0x400, 72)], 0, 7, 0, 0, 0, 0, none⟩,
   ⟨0x40134, [(0x400, 72)], 0, 0, 0, 0, 0, 0, none⟩,
   ⟨0x40138, [(0x400, 72)], 0x1800, 0, 0, 0, 0xFF, 0, none⟩,
   ⟨0x4013C, [(0x400, 72)], 0, 0, 0, 0, 0, 0, none⟩,
   ⟨0x40140, [(0x400, 72)], 0, 0, 0, 0, 0, 0, none⟩,
   ⟨0x40144, [(0x400, 72)], 0, 0, 0, 0, 0, 0, none⟩,
   ⟨0x40148, [(0x400, 72)], 0, 0, 0, 0, 0, 0, none⟩,
   ⟨0x4014C, [(0x400, 72)], 0, 0xFFFFFF, 0, 0, 0, 0, none⟩,
   ⟨0x40200, [(0x400, 72)], 0x80000, 0, 0x807F0FFF, 0, 0, 0, none⟩,
   ⟨0x40204, [(0x400, 72)], 0, 0, 0, 0, 0, 1, none⟩,
   ⟨0x40208, [(0x400, 72)], 0, 0, 0, 0, 0x8000000, 0, none⟩,
   ⟨0x4020C, [(0x400, 72)], 0, 0, 0, 0, 0, 0, some (0, 2)⟩,
   ⟨0x40210, [(0x400, 72)], 0, 0, 0, 0, 0, 0, some (1, 2)⟩,
   ⟨0x40214, [(0x400, 72)], 0, 0, 0, 0, 0xFE, 0, none⟩,
   ⟨0x40218, [(0x400, 72)], 0, 0, 0, 0, 0, 0, none⟩]

/-- The TEAM entries: spec/05_leg_carrier.md, spec/07_teams.md. -/
def regsTeam : List RegDef :=
  [⟨0x60000, [(0x400, 24)], 0x107F00, 0, 0xF07FC7, 0, 0, 0, none⟩,
   ⟨0x60004, [(0x400, 24)], 0x100, 0, 0, 0x1FFFFFF, 0, 0, none⟩,
   ⟨0x60008, [(0x400, 24)], 0, 0, 0, 0, 0, 0, none⟩,
   ⟨0x6000C, [(0x400, 24)], 0x400, 0, 0, 0xFFFF, 0, 0, none⟩,
   ⟨0x60010, [(0x400, 24)], 0, 0, 0x80FF0FFF, 0, 0, 0, none⟩,
   ⟨0x60014, [(0x400, 24)], 0, 0, 0, 0, 0, 0, none⟩,
   ⟨0x60018, [(0x400, 24)], 0, 0, 0, 0, 0, 0, none⟩,
   ⟨0x6001C, [(0x400, 24)], 0, 1, 0, 0, 2, 0, none⟩,
   ⟨0x60020, [(0x400, 24)], 0, 0, 0, 0, 0, 0, none⟩,
   ⟨0x60024, [(0x400, 24)], 3, 0, 0, 0, 4, 0, none⟩,
   ⟨0x60040, [(0x400, 24)], 0, 0, 0x73, 0, 0, 0, none⟩,
   ⟨0x60044, [(0x400, 24)], 0x7F7F7F7F, 0, 0x7F7F7F7F, 0, 0, 0, none⟩,
   ⟨0x60048, [(0x400, 24)], 0x7F7F, 0, 0x7F7F, 0, 0, 0, none⟩,
   ⟨0x6004C, [(0x400, 24)], 1, 0, 3, 0, 0, 0, none⟩,
   ⟨0x60050, [(0x400, 24)], 0, 1, 0, 0, 0, 2, none⟩,
   ⟨0x60054, [(0x400, 24)], 0x1000, 0, 0, 0, 0x14000, 0, none⟩,
   ⟨0x60058, [(0x400, 24)], 0, 0, 0, 0, 0, 0, none⟩,
   ⟨0x60060, [(0x400, 24)], 0, 0, 1, 0, 0, 0, none⟩,
   ⟨0x60064, [(0x400, 24)], 0x1000000, 0, 0x1FFFFFF, 0, 0, 0, none⟩,
   ⟨0x60068, [(0x400, 24)], 0, 0, 0xFFFFFFFF, 0, 0, 0, none⟩,
   ⟨0x6006C, [(0x400, 24)], 0, 0, 0, 0, 0, 0, some (0, 2)⟩,
   ⟨0x60070, [(0x400, 24)], 0, 0, 0, 0, 0, 0, some (1, 2)⟩,
   ⟨0x60074, [(0x400, 24)], 0, 0, 0, 0, 8, 0, none⟩,
   ⟨0x60080, [(0x400, 24)], 0, 0xFFFFFFFF, 0, 0, 0, 0, none⟩,
   ⟨0x60084, [(0x400, 24)], 0xF0, 0, 0, 0, 8, 0, none⟩]

/-- The MGRP entries: spec/07_teams.md. -/
def regsMgrp : List RegDef :=
  [⟨0x68000, [(0x200, 8)], 0x1F00, 0, 0x801F1F00, 0, 0, 0, none⟩,
   ⟨0x68004, [(0x200, 8)], 0, 0xFFFFFFFF, 0, 0, 0, 0, none⟩,
   ⟨0x68008, [(0x200, 8)], 0, 0, 0, 0, 0, 0, none⟩,
   ⟨0x6800C, [(0x200, 8)], 0, 0, 0, 0, 0, 0, none⟩,
   ⟨0x68010, [(0x200, 8)], 0, 0, 0, 0, 0, 0, none⟩,
   ⟨0x68014, [(0x200, 8)], 0, 0, 0, 0, 0, 0, none⟩,
   ⟨0x68080, [(0x200, 8), (4, 16)], 0, 0, 0, 0, 0, 0, none⟩,
   ⟨0x68100, [(0x200, 8), (8, 16)], 0, 0, 0xCFFF001F, 0, 0, 0, none⟩,
   ⟨0x68104, [(0x200, 8), (8, 16)], 0, 0, 0xFFFFFFFF, 0, 0, 0, none⟩]

/-- The SDM entries: spec/08_sigma_delta.md. -/
def regsSdm : List RegDef :=
  [⟨0x70000, [(0x80, 144)], 0x4010C020, 0, 0xFF1FE7F3, 0, 0, 0, none⟩,
   ⟨0x70004, [(0x80, 144)], 0x300, 0, 0xC37F, 0, 0, 0, none⟩,
   ⟨0x70008, [(0x80, 144)], 0x100040, 0x1FF, 0x3F3F0000, 0, 0, 0, none⟩,
   ⟨0x7000C, [(0x80, 144)], 0x40000000, 0, 0xFFFFFFFF, 0, 0, 0, none⟩,
   ⟨0x70010, [(0x80, 144)], 1, 0, 0x1F, 0, 0, 0, none⟩,
   ⟨0x70014, [(0x80, 144)], 0, 0, 0xFFFFFFFF, 0, 0, 0, none⟩,
   ⟨0x70018, [(0x80, 144)], 0x7FFFFFFF, 0xFFFFFFFF, 0, 0, 0, 0, none⟩,
   ⟨0x7001C, [(0x80, 144)], 0x80000000, 0xFFFFFFFF, 0, 0, 0, 0, none⟩,
   ⟨0x70020, [(0x80, 144)], 0x30000, 0, 0, 0, 0xF0, 0, none⟩,
   ⟨0x70024, [(0x80, 144)], 0, 0, 0, 0, 0, 0, some (0, 3)⟩,
   ⟨0x70028, [(0x80, 144)], 0, 0, 0, 0, 0, 0, some (1, 3)⟩,
   ⟨0x7002C, [(0x80, 144)], 0, 0, 0, 0, 0, 0, some (2, 3)⟩,
   ⟨0x70030, [(0x80, 144)], 0, 0, 0, 0, 0, 0, none⟩,
   ⟨0x70034, [(0x80, 144)], 0, 0, 0, 0, 0, 0, none⟩,
   ⟨0x70038, [(0x80, 144)], 0, 0, 0, 0, 0, 0, none⟩,
   ⟨0x7003C, [(0x80, 144)], 0, 0, 0, 0, 0, 0, none⟩,
   ⟨0x70040, [(0x80, 144)], 0, 0, 0, 0, 0xFFFF, 0, none⟩,
   ⟨0x70044, [(0x80, 144)], 0x80000000, 0xFFFFFFFF, 0, 0, 0, 0, none⟩,
   ⟨0x70048, [(0x80, 144)], 0x7FFFFFFF, 0xFFFFFFFF, 0, 0, 0, 0, none⟩,
   ⟨0x78000, [(4, 8)], 0, 0, 0x1F, 0, 0, 0, none⟩,
   ⟨0x78100, [(4, 24)], 0, 0, 0, 0, 0, 0, none⟩]

/-- The CE entries: spec/09_ce_arithmetic.md, spec/10_ce_functions.md. -/
def regsCe : List RegDef :=
  [⟨0xA0000, [], 0x203, 0, 0xF03, 0, 0, 0, none⟩,
   ⟨0xA0004, [], 0, 0, 0, 0, 0, 0, none⟩,
   ⟨0xA0008, [], 0, 3, 0, 0, 0, 0, none⟩,
   ⟨0xA000C, [], 0, 0x3F, 0, 0, 0, 0, none⟩,
   ⟨0xA0010, [], 0, 0, 0, 0, 0, 0, none⟩,
   ⟨0xA0014, [], 0, 0, 0, 0, 0, 0, none⟩,
   ⟨0xA0018, [], 0, 0xFFFF0000, 0, 0, 0, 0, none⟩,
   ⟨0xA0020, [(4, 4)], 0, 0xFFFFFF, 0, 0, 0, 0x80000000, none⟩,
   ⟨0xA1000, [(0x20, 36)], 0, 1, 0, 0, 0x20000000, 0, none⟩,
   ⟨0xA1004, [(0x20, 36)], 0, 0, 0, 0, 0, 0, none⟩,
   ⟨0xA1008, [(0x20, 36)], 0, 0, 0, 0, 0, 0, none⟩,
   ⟨0xA100C, [(0x20, 36)], 0, 0, 0, 0, 0, 0, none⟩,
   ⟨0xA1010, [(0x20, 36)], 0, 0xFFFFFFFF, 0, 0, 0, 0, none⟩,
   ⟨0xA1014, [(0x20, 36)], 0, 0xFFFFFFFF, 0, 0, 0, 0, none⟩,
   ⟨0xA1018, [(0x20, 36)], 0, 0, 0, 0, 0, 0, none⟩,
   ⟨0xA101C, [(0x20, 36)], 0, 0, 0, 0, 0, 0, none⟩,
   ⟨0xA0400, [(0x40, 4)], 0x1013F00, 0xFF1F3F07, 0, 0, 0, 0, none⟩,
   ⟨0xA0404, [(0x40, 4)], 0, 0xFFFFFFFF, 0, 0, 0, 0, none⟩,
   ⟨0xA0408, [(0x40, 4)], 0, 0xFFFFFFFF, 0, 0, 0, 0, none⟩,
   ⟨0xA040C, [(0x40, 4)], 0, 0xFFFFFFFF, 0, 0, 0, 0, none⟩,
   ⟨0xA0410, [(0x40, 4)], 0, 0xFFFFFFFF, 0, 0, 0, 0, none⟩,
   ⟨0xA0414, [(0x40, 4)], 1, 0xFFFFFFFF, 0, 0, 0, 0, none⟩,
   ⟨0xA0418, [(0x40, 4)], 0, 0xFFFFFFFF, 0, 0, 0, 0, none⟩,
   ⟨0xA041C, [(0x40, 4)], 0, 0xFF, 0, 0, 0, 0, none⟩,
   ⟨0xA0420, [(0x40, 4)], 0, 0, 0, 0, 0, 3, none⟩,
   ⟨0xA0424, [(0x40, 4)], 0, 0, 0, 0, 0x30000000, 0, none⟩,
   ⟨0xA0428, [(0x40, 4)], 0, 0, 0, 0, 0, 0, none⟩,
   ⟨0xA0600, [(0x20, 4)], 0, 0xE6000000, 0, 0, 0, 0, none⟩,
   ⟨0xA0604, [(0x20, 4)], 0x3FFF0000, 0xFFFFFFFF, 0, 0, 0, 0, none⟩,
   ⟨0xA0608, [(0x20, 4)], 0, 0, 0, 0, 0, 3, none⟩,
   ⟨0xA060C, [(0x20, 4)], 0, 0, 0, 0, 2, 0, none⟩,
   ⟨0xA0610, [(0x20, 4)], 0, 0, 0, 0, 0, 0, none⟩,
   ⟨0xA0614, [(0x20, 4)], 0, 0, 0, 0, 0, 0, none⟩,
   ⟨0xA0800, [(4, 24)], 0x3E8, 0, 0x3000FFFF, 0, 0, 0, none⟩,
   ⟨0xA0880, [(4, 24)], 0, 0, 0, 0, 0, 0, none⟩,
   ⟨0xA0900, [(4, 8)], 0, 0, 0x80000000, 0, 0x40000000, 0, none⟩]

/-- The FBK entries: spec/11_feedback.md. -/
def regsFbk : List RegDef :=
  [⟨0x90000, [(0x1000, 8)], 0x1F5100, 0, 0x1F7FCF, 0, 0, 0, none⟩,
   ⟨0x90004, [(0x1000, 8)], 0x10000000, 0, 0, 0, 0xFFFC, 0, none⟩,
   ⟨0x90008, [(0x1000, 8)], 0, 0xFFFFC, 0, 0, 0, 0, none⟩,
   ⟨0x90010, [(0x1000, 8)], 0, 0, 0, 0, 0, 0, some (0, 2)⟩,
   ⟨0x90014, [(0x1000, 8)], 0, 0, 0, 0, 0, 0, some (1, 2)⟩,
   ⟨0x90018, [(0x1000, 8)], 0, 0, 0, 0, 0, 0xFFFFFFFF, none⟩,
   ⟨0x9001C, [(0x1000, 8)], 0, 0, 0, 0, 0, 0, none⟩,
   ⟨0x90020, [(0x1000, 8)], 0, 0, 0, 0, 0, 0, none⟩,
   ⟨0x90024, [(0x1000, 8)], 0x100, 0, 0xFFFFFFFF, 0, 0, 0, none⟩,
   ⟨0x90028, [(0x1000, 8)], 4, 0, 0xFF, 0, 0, 0, none⟩,
   ⟨0x9002C, [(0x1000, 8)], 0x10624E, 0xFFFFFFFF, 0, 0, 0, 0, none⟩,
   ⟨0x90030, [(0x1000, 8)], 0x3332300, 0, 0xFFFFF700, 0, 0, 0, none⟩,
   ⟨0x90034, [(0x1000, 8)], 0x2000000, 0, 0xFFFFFFFF, 0, 0, 0, none⟩,
   ⟨0x90038, [(0x1000, 8)], 0, 0, 0x80001FFF, 0, 0, 0, none⟩,
   ⟨0x90040, [(0x1000, 8)], 0x61B147B, 0, 0xFFFFFFFF, 0, 0, 0, none⟩,
   ⟨0x90044, [(0x1000, 8)], 0x40000000, 0, 0xFFFFFFFF, 0, 0, 0, none⟩,
   ⟨0x90048, [(0x1000, 8)], 0x10000, 0, 0, 0, 0, 0, none⟩,
   ⟨0x90050, [(0x1000, 8)], 0, 0, 0xFFFFFFFF, 0, 0, 0, none⟩,
   ⟨0x90054, [(0x1000, 8)], 0, 0, 0xFFFFFFFF, 0, 0, 0, none⟩,
   ⟨0x90058, [(0x1000, 8)], 4, 0, 0xFFFF, 0, 0, 0, none⟩,
   ⟨0x9005C, [(0x1000, 8)], 0, 0, 0, 0, 0, 0, none⟩,
   ⟨0x90060, [(0x1000, 8)], 0, 0, 0, 0, 0, 0, none⟩,
   ⟨0x90064, [(0x1000, 8)], 0, 0, 0, 0, 0, 0, none⟩,
   ⟨0x90070, [(0x1000, 8)], 0xEC280, 0, 0x1FFFF8, 0, 0, 0, none⟩,
   ⟨0x90080, [(0x1000, 8)], 0x40001800, 0, 0xE0F73F00, 0, 0, 0, none⟩,
   ⟨0x90084, [(0x1000, 8)], 0x9C00000, 0, 0xFFFFFFFF, 0, 0, 0, none⟩,
   ⟨0x90088, [(0x1000, 8)], 0, 0, 0xFFFF, 0, 0, 0, none⟩,
   ⟨0x9008C, [(0x1000, 8)], 0x47F0000, 0, 0xDC7FFFFF, 0, 0, 0x20000000, none⟩,
   ⟨0x90090, [(0x1000, 8)], 0, 0, 0xFFFFFF, 0, 0, 0, none⟩,
   ⟨0x90094, [(0x1000, 8)], 0, 0, 0, 0, 0, 0, some (0, 2)⟩,
   ⟨0x90098, [(0x1000, 8)], 0, 0, 0, 0, 0, 0, some (1, 2)⟩,
   ⟨0x9009C, [(0x1000, 8)], 0, 0, 0, 0, 0, 0, none⟩,
   ⟨0x900A0, [(0x1000, 8)], 0, 0, 0, 0, 0, 0, none⟩,
   ⟨0x900B0, [(0x1000, 8)], 0x10000400, 0xF0003F00, 0, 0, 0, 0, none⟩,
   ⟨0x900B4, [(0x1000, 8)], 0, 0, 0, 0, 0, 0, some (0, 3)⟩,
   ⟨0x900B8, [(0x1000, 8)], 0, 0, 0, 0, 0, 0, some (1, 3)⟩,
   ⟨0x900BC, [(0x1000, 8)], 0, 0, 0, 0, 0, 0, some (2, 3)⟩,
   ⟨0x90100, [(0x1000, 8), (0x10, 4)], 0x10001000, 0xFC00FF00, 0, 0, 0, 0, none⟩,
   ⟨0x90104, [(0x1000, 8), (0x10, 4)], 0, 0xFFFFFFFF, 0, 0, 0, 0, none⟩,
   ⟨0x90108, [(0x1000, 8), (0x10, 4)], 0, 0xFFFFFFFF, 0, 0, 0, 0, none⟩,
   ⟨0x9010C, [(0x1000, 8), (0x10, 4)], 0, 0, 0, 0, 0xE0000000, 0, none⟩,
   ⟨0x90140, [(0x1000, 8), (4, 4)], 0, 0, 0, 0, 0, 0, none⟩]

/-- The FBO entries: spec/11_feedback.md. -/
def regsFbo : List RegDef :=
  [⟨0x90800, [(0x1000, 2)], 0xC0060000, 0, 0xC0FF1703, 0, 0, 0, none⟩,
   ⟨0x90804, [(0x1000, 2)], 0x10001, 0, 0xFFFFFFFF, 0, 0, 0, none⟩,
   ⟨0x90808, [(0x1000, 2)], 0, 0, 0xFFFFFFFF, 0, 0, 0, none⟩,
   ⟨0x9080C, [(0x1000, 2)], 0, 0, 0x1FFF, 0, 0, 0, none⟩,
   ⟨0x90810, [(0x1000, 2)], 0, 0, 0, 0, 0, 0, none⟩,
   ⟨0x90814, [(0x1000, 2)], 0, 0, 0, 0, 0, 0, none⟩]

/-- The CMP entries: spec/12_protection.md. -/
def regsCmp : List RegDef :=
  [⟨0x80000, [(0x80, 96)], 0x310, 0, 0x1F37, 0, 0, 0, none⟩,
   ⟨0x80004, [(0x80, 96)], 0, 0, 0x3FF, 0, 0, 0, none⟩,
   ⟨0x80008, [(0x80, 96)], 0x3FF, 0, 0x3FF, 0, 0, 0, none⟩,
   ⟨0x8000C, [(0x80, 96)], 0x7F, 0, 0xFCFF007F, 0, 0, 0, none⟩,
   ⟨0x80010, [(0x80, 96)], 0, 0, 0xFFFFFF, 0, 0, 0, none⟩,
   ⟨0x80014, [(0x80, 96)], 0x30000000, 0, 0, 0, 0x30000, 0, none⟩,
   ⟨0x80018, [(0x80, 96)], 0, 0, 0, 0, 0, 0, some (0, 2)⟩,
   ⟨0x8001C, [(0x80, 96)], 0, 0, 0, 0, 0, 0, some (1, 2)⟩,
   ⟨0x80020, [(0x80, 96)], 0, 0, 0, 0, 0, 0, none⟩]

/-- The PRT entries: spec/12_protection.md. -/
def regsPrt : List RegDef :=
  [⟨0x84000, [(8, 144)], 0x7F, 0, 0xC0FF007F, 0, 0, 0, none⟩,
   ⟨0x84004, [(8, 144)], 0, 0, 0xFFFFFF, 0, 0, 0, none⟩,
   ⟨0x85000, [(8, 8)], 0x10007F, 0, 0xE0FF007F, 0, 0, 0, none⟩,
   ⟨0x85004, [(8, 8)], 0, 0, 0xFFFFFF, 0, 0, 0, none⟩,
   ⟨0x85100, [], 0x80000000, 0, 0, 0, 0, 0, none⟩,
   ⟨0x85104, [], 0, 0, 0, 0, 0, 0, none⟩]

/-- The YOK entries: spec/13_yoke.md. -/
def regsYok : List RegDef :=
  [⟨0xF0000, [], 0x200A40C8, 0, 0x60FFFFFF, 0, 0, 0, none⟩,
   ⟨0xF0004, [], 0, 0, 0, 0, 0, 1, none⟩,
   ⟨0xF0008, [], 0, 0, 0xFFFF, 0, 0, 0, none⟩,
   ⟨0xF000C, [], 0, 0, 0, 0, 0, 1, none⟩,
   ⟨0xF0010, [], 0x800000, 0, 0, 0, 0xFE, 0, none⟩,
   ⟨0xF0014, [], 0, 0, 0, 0, 0, 0, some (0, 2)⟩,
   ⟨0xF0018, [], 0, 0, 0, 0, 0, 0, some (1, 2)⟩,
   ⟨0xF001C, [], 0, 0, 0, 0, 0, 0, none⟩,
   ⟨0xF0020, [], 0, 0, 0, 0, 0, 0, none⟩,
   ⟨0xF0024, [], 0, 0xFFFF0000, 0, 0, 0, 0, none⟩,
   ⟨0xF0028, [], 0, 0, 0, 0, 0, 0, none⟩,
   ⟨0xF002C, [], 0, 0, 0, 0, 0, 0, none⟩,
   ⟨0xF0030, [], 0x8000100, 0, 0xFFFFFFFF, 0, 0, 0, none⟩,
   ⟨0xF0034, [], 0, 0, 0, 0, 0, 0, none⟩,
   ⟨0xF0038, [], 0, 0, 0, 0, 0, 0, none⟩,
   ⟨0xF0040, [], 0, 0, 0xFFFFFF, 0, 0, 0, none⟩,
   ⟨0xF0050, [(4, 4)], 0, 0, 0, 0, 0, 0, none⟩,
   ⟨0xF0100, [(4, 36)], 0, 0, 0x801FFFFF, 0, 0, 0, none⟩]

/-- The SUP entries: spec/13_yoke.md. -/
def regsSup : List RegDef :=
  [⟨0x130100, [(0x40, 2)], 0x64, 0, 0x3FF, 0, 0, 0, none⟩,
   ⟨0x130104, [(0x40, 2)], 0, 0xFF0000, 0, 0, 0, 0, none⟩,
   ⟨0x130108, [(0x40, 2)], 0, 0, 0, 0, 0, 0, none⟩]

/-- The NET entries: spec/14_network.md. -/
def regsNet : List RegDef :=
  [⟨0xE0000, [], 2, 0, 0xFF03, 0, 0, 0, none⟩,
   ⟨0xE0004, [], 0, 0, 0, 0, 0, 0, none⟩,
   ⟨0xE0008, [], 0, 0, 0, 0, 0, 0, none⟩,
   ⟨0xE0010, [], 4, 0, 0x7F, 0, 0, 0, none⟩,
   ⟨0xE0014, [], 0, 0, 0xFFFFFFFF, 0, 0, 0, none⟩,
   ⟨0xE0018, [], 0, 0, 0xFFFFFFFF, 0, 0, 0, none⟩,
   ⟨0xE001C, [], 0x30D400, 0, 0xFFFFFFFF, 0, 0, 0, none⟩,
   ⟨0xE0020, [], 0xFFF, 0, 0xFFF, 0, 0, 0, none⟩,
   ⟨0xE0024, [], 0, 0, 0x1FFF1FFF, 0, 0, 0, none⟩,
   ⟨0xE0028, [], 0, 0, 0, 0, 0, 0, none⟩,
   ⟨0xE002C, [], 0, 0, 0, 0, 0, 0, none⟩,
   ⟨0xE0030, [], 0, 0xFF00, 0, 0, 0x80000000, 0, none⟩,
   ⟨0xE0034, [], 0, 0xFFFF0000, 0, 0, 0, 0, none⟩,
   ⟨0xE0038, [], 0, 0, 0xFFFFFFFF, 0, 0, 0, none⟩,
   ⟨0xE003C, [], 0, 0, 0xFFFFFFFF, 0, 0, 0, none⟩,
   ⟨0xE0040, [], 0, 0, 0, 0, 0, 0, none⟩,
   ⟨0xE0050, [], 0, 3, 0, 0, 0, 0, none⟩,
   ⟨0xE0054, [], 0, 0, 0, 0, 0, 0, none⟩,
   ⟨0xE0058, [], 0, 0, 0, 0, 0, 0, none⟩,
   ⟨0xE005C, [], 0, 0, 0, 0, 0, 1, none⟩,
   ⟨0xE0060, [], 0, 0, 0, 0, 0, 0xBC0007FF, none⟩,
   ⟨0xE0064, [], 0, 0, 0, 0, 0xFF0, 0, none⟩,
   ⟨0xE0100, [], 0x30EC90, 0, 0xFFF0FFF0, 0, 0, 0, none⟩,
   ⟨0xE0104, [], 0x400A7D60, 0, 0xFFFFFFF0, 0, 0, 0, none⟩,
   ⟨0xE0108, [], 0x1800F800, 0, 0, 0, 0x6000000, 0, none⟩,
   ⟨0xE010C, [], 0, 0, 0, 0, 0, 0, none⟩,
   ⟨0xE0110, [], 0, 0, 0, 0, 0, 0, none⟩,
   ⟨0xE0114, [], 0, 0, 0, 0, 0, 0, some (0, 2)⟩,
   ⟨0xE0118, [], 0, 0, 0, 0, 0, 0, some (1, 2)⟩,
   ⟨0xE0400, [(0x80, 3)], 0x40000000, 0, 0xF0000000, 0, 0, 0, none⟩,
   ⟨0xE0404, [(0x80, 3)], 0, 0, 0, 0, 0, 0, none⟩,
   ⟨0xE0408, [(0x80, 3)], 0, 0, 0, 0, 0, 0, none⟩,
   ⟨0xE040C, [(0x80, 3)], 0, 0xFFFFFFFF, 0, 0, 0, 0, none⟩,
   ⟨0xE0410, [(0x80, 3)], 0, 0, 0, 0, 0, 0, none⟩,
   ⟨0xE0414, [(0x80, 3)], 0, 0, 0, 0, 0, 0, none⟩,
   ⟨0xE0418, [(0x80, 3)], 0, 0, 0, 0, 0, 0, none⟩,
   ⟨0xE041C, [(0x80, 3)], 0, 0xFF0000, 0, 0, 0, 0, none⟩,
   ⟨0xE1000, [(4, 240)], 0, 0, 0xFFFFFF, 0, 0, 0, none⟩]

/-- The SER entries: spec/15_serial.md. -/
def regsSer : List RegDef :=
  [⟨0x100000, [], 0x3B404010, 0, 0, 0, 0, 0, none⟩,
   ⟨0x100004, [], 0xA0402, 0, 0xFF0F07, 0, 0, 0, none⟩,
   ⟨0x100008, [], 0x19001F4, 0, 0xFFFFFFFF, 0, 0, 0, none⟩,
   ⟨0x10000C, [], 0x2200605, 0, 0xFFFFFFFF, 0, 0, 0, none⟩,
   ⟨0x100010, [], 0x100, 0, 0x100, 0, 0, 1, none⟩,
   ⟨0x100014, [], 0, 0xFFFFFF, 0, 0, 0, 0, none⟩,
   ⟨0x100018, [], 0, 0, 0, 0, 0, 0xFFFFFFFF, none⟩,
   ⟨0x10001C, [], 0, 0, 0, 0, 0, 0, none⟩,
   ⟨0x100020, [], 0, 0, 0, 0, 0, 0xFFFFFF, none⟩,
   ⟨0x100024, [], 0, 0, 0, 0, 0x1F, 0, none⟩,
   ⟨0x100028, [], 0, 0, 0, 0, 0, 0, none⟩,
   ⟨0x100400, [], 0, 0, 0, 0, 0, 0, none⟩,
   ⟨0x100404, [], 0, 0, 0, 0, 0, 0, none⟩,
   ⟨0x100F00, [], 0, 0, 0, 0, 0, 0x80003F33, none⟩,
   ⟨0x100F04, [], 0, 0, 0, 0, 0x60000000, 0, none⟩,
   ⟨0x100F10, [(4, 8)], 0, 0, 0, 0, 0, 0xFFFFFFFF, none⟩,
   ⟨0x100800, [(0x100, 4)], 0x8021F, 0xFCFFFFFF, 0, 0, 0, 0, none⟩,
   ⟨0x100804, [(0x100, 4)], 0, 0, 0, 0, 0, 0xFFFFFFE0, none⟩,
   ⟨0x100808, [(0x100, 4)], 0, 0, 0, 0, 0, 0xFFFFFFFF, none⟩,
   ⟨0x10080C, [(0x100, 4)], 0, 0, 0, 0, 0, 0, none⟩,
   ⟨0x100810, [(0x100, 4)], 0, 0, 0, 0, 0x7E, 0, none⟩,
   ⟨0x100814, [(0x100, 4)], 0, 0, 0, 0, 0, 0, none⟩]

/-- The HKP entries: spec/16_housekeeping.md. -/
def regsHkp : List RegDef :=
  [⟨0x110000, [], 0, 0, 0, 0, 0, 0, none⟩,
   ⟨0x110004, [], 0, 0, 0, 0, 0, 0, none⟩,
   ⟨0x110008, [], 0x6E0, 0, 0xFFFF, 0, 0, 0, none⟩,
   ⟨0x11000C, [], 0x780, 0, 0xFFFF, 0, 0, 0, none⟩,
   ⟨0x110010, [], 0x8C0, 0, 0xFFFF, 0, 0, 0, none⟩,
   ⟨0x110014, [], 0x5050, 0, 0xFFFF, 0, 0, 0, none⟩,
   ⟨0x110018, [], 0x10401432, 0, 0x1FFFFFFF, 0, 0, 0, none⟩,
   ⟨0x11001C, [], 0, 0, 0, 0, 0, 0, none⟩,
   ⟨0x110020, [], 0, 0, 0, 0, 0, 0, none⟩,
   ⟨0x110024, [], 0x10, 0, 0x1F, 0, 0, 0, none⟩,
   ⟨0x110028, [], 0, 0, 0, 0, 0, 0, some (0, 3)⟩,
   ⟨0x11002C, [], 0, 0, 0, 0, 0, 0, some (1, 3)⟩,
   ⟨0x110030, [], 0, 0, 0, 0, 0, 0, some (2, 3)⟩,
   ⟨0x110040, [(4, 8)], 0xC000, 0, 0x1FFFF, 0, 0, 0, none⟩,
   ⟨0x110060, [], 0x140A0000, 0, 0xFFFF0003, 0, 0, 0, none⟩,
   ⟨0x110064, [], 0xC800708, 0, 0xFFFFFFFF, 0, 0, 0, none⟩,
   ⟨0x110068, [], 0, 0, 0, 0, 0, 0, none⟩,
   ⟨0x11006C, [], 0, 0, 0, 0, 0, 0, none⟩,
   ⟨0x110100, [(4, 16)], 0, 0, 0, 0, 0, 0, none⟩,
   ⟨0x110200, [(4, 64)], 0, 0, 0, 0, 0, 0, none⟩,
   ⟨0x110300, [(4, 40)], 0x7F, 0, 0x7F, 0, 0, 0, none⟩]

/-- The EVT entries: spec/16_housekeeping.md. -/
def regsEvt : List RegDef :=
  [⟨0x120000, [], 0, 0xFF, 0, 0, 0, 0, none⟩,
   ⟨0x120004, [], 0, 0xFFFFFFFF, 0, 0, 0, 0, none⟩,
   ⟨0x120008, [], 0, 0, 0, 0, 0, 0, none⟩,
   ⟨0x12000C, [], 0, 0, 0, 0, 0, 0, none⟩,
   ⟨0x120010, [], 0, 0, 0, 0, 0, 0, some (0, 2)⟩,
   ⟨0x120014, [], 0, 0, 0, 0, 0, 0, some (1, 2)⟩,
   ⟨0x120020, [], 0, 0, 0, 0, 0, 0, none⟩,
   ⟨0x120024, [], 0, 0, 0, 0, 0, 0, none⟩,
   ⟨0x120028, [], 0, 0, 0, 0, 0, 0, none⟩,
   ⟨0x120030, [], 0, 0xFFFFFFFF, 0, 0, 0, 0, none⟩,
   ⟨0x120034, [], 0, 0, 0, 0, 0, 0xFFFFFFFF, none⟩,
   ⟨0x120040, [], 0, 0xFFFF, 0, 0, 0, 0, none⟩,
   ⟨0x120080, [(4, 8)], 0, 0, 0, 0, 0, 0, none⟩]

/-- Every register entry of the spec (R476). -/
def regTable : List RegDef :=
  regsIdg ++ regsClk ++ regsTim ++ regsDlc ++ regsBoot ++ regsPdk ++ regsLeg ++ regsTeam ++ regsMgrp ++ regsSdm ++ regsCe ++ regsFbk ++ regsFbo ++ regsCmp ++ regsPrt ++ regsYok ++ regsSup ++ regsNet ++ regsSer ++ regsHkp ++ regsEvt

/-! ## Addresses -/

/-- Capacity use (spec/01_architecture.md) -/
def A.IDG_CAPUSE : Nat := 0x40
/-- Restart request (spec/04_start_up.md) -/
def A.IDG_RESTART : Nat := 0x80
/-- Reset cause (spec/04_start_up.md) -/
def A.IDG_RSTCAUSE : Nat := 0x84
/-- Load status (spec/04_start_up.md) -/
def A.IDG_LOADSTAT : Nat := 0x88
/-- Load faults (spec/04_start_up.md) -/
def A.IDG_LOADFLT : Nat := 0x8C
/-- Load duration (spec/04_start_up.md) -/
def A.IDG_LOADTIME : Nat := 0x90
/-- Device warm-up status (spec/04_start_up.md) -/
def A.IDG_WARMSTAT : Nat := 0x94
/-- Team readiness (spec/04_start_up.md) -/
def A.IDG_TEAMRDY : Nat := 0x98
/-- Inputs held in band (spec/04_start_up.md) -/
def A.IDG_INBAND : Nat := 0x9C
/-- Device identity (spec/17_registers.md) -/
def A.IDG_DEVID : Nat := 0
/-- Silicon stepping (spec/17_registers.md) -/
def A.IDG_SILID : Nat := 4
/-- Access errors (spec/17_registers.md) -/
def A.IDG_ACCERR : Nat := 0xA0
/-- Last access error (spec/17_registers.md) -/
def A.IDG_ACCADDR : Nat := 0xA4
/-- Pin configuration (spec/17_registers.md) -/
def A.IDG_PINCFG (i : Nat) : Nat := 0x400 + 4 * i

/-- PLL status (spec/02_clocks_time.md) -/
def A.CLK_PLLSTAT : Nat := 0x10000
/-- Spread configuration (spec/02_clocks_time.md) -/
def A.CLK_SSCFG : Nat := 0x10004

/-- Time control (spec/02_clocks_time.md) -/
def A.TIM_CTL : Nat := 0x10100
/-- Device time (spec/02_clocks_time.md) -/
def A.TIM_NOW0 : Nat := 0x10104
/-- Device time (spec/02_clocks_time.md) -/
def A.TIM_NOW1 : Nat := 0x10108
/-- Device time (spec/02_clocks_time.md) -/
def A.TIM_NOW2 : Nat := 0x1010C
/-- Rate steer (spec/02_clocks_time.md) -/
def A.TIM_RATE : Nat := 0x10110
/-- Phase offset to slew (spec/02_clocks_time.md) -/
def A.TIM_SLEW : Nat := 0x10114
/-- Slew limit (spec/02_clocks_time.md) -/
def A.TIM_SLEWCFG : Nat := 0x10118
/-- Time status (spec/02_clocks_time.md) -/
def A.TIM_STAT : Nat := 0x1011C
/-- Step value (spec/02_clocks_time.md) -/
def A.TIM_STEP0 : Nat := 0x10120
/-- Step value (spec/02_clocks_time.md) -/
def A.TIM_STEP1 : Nat := 0x10124
/-- Step value (spec/02_clocks_time.md) -/
def A.TIM_STEP2 : Nat := 0x10128
/-- Step control (spec/02_clocks_time.md) -/
def A.TIM_STEPCTL : Nat := 0x1012C
/-- PPS_IN stamp (spec/02_clocks_time.md) -/
def A.TIM_PPSIN0 : Nat := 0x10130
/-- PPS_IN stamp (spec/02_clocks_time.md) -/
def A.TIM_PPSIN1 : Nat := 0x10134
/-- PPS_IN stamp (spec/02_clocks_time.md) -/
def A.TIM_PPSIN2 : Nat := 0x10138

/-- Delay-line calibration control (spec/02_clocks_time.md) -/
def A.DLC_CTL : Nat := 0x10200
/-- Delay-line calibration status (spec/02_clocks_time.md) -/
def A.DLC_STAT : Nat := 0x10204

/-- Loaded image identity (spec/03_image.md) -/
def A.BOOT_IMGID : Nat := 0x20100
/-- Image version (spec/03_image.md) -/
def A.BOOT_IMGVER : Nat := 0x20104
/-- Configuration identity (spec/03_image.md) -/
def A.BOOT_CFGID (i : Nat) : Nat := 0x20108 + 4 * i
/-- State-layout identity (spec/03_image.md) -/
def A.BOOT_STATEID (i : Nat) : Nat := 0x20118 + 4 * i
/-- Paddock identity (spec/03_image.md) -/
def A.BOOT_PDKID (i : Nat) : Nat := 0x20128 + 4 * i
/-- Fuse security state (spec/03_image.md) -/
def A.BOOT_FUSESEC : Nat := 0x20138

/-- Paddock read-back window (spec/03_image.md) -/
def A.PDK_WIN (i : Nat) : Nat := 0x21000 + 4 * i
/-- Paddock status (spec/03_image.md) -/
def A.PDK_STAT : Nat := 0x21F00
/-- Clip count (spec/12_protection.md) -/
def A.PDK_CLIPCNT (d : Nat) : Nat := 0x21F04 + 4 * d
/-- Last clip (spec/12_protection.md) -/
def A.PDK_LASTCLIP0 : Nat := 0x21F40
/-- Last clip (spec/12_protection.md) -/
def A.PDK_LASTCLIP1 : Nat := 0x21F44
/-- Last clip (spec/12_protection.md) -/
def A.PDK_LASTCLIP2 : Nat := 0x21F48

/-- Leg carrier control (spec/05_leg_carrier.md) -/
def A.LEG_CTL (n : Nat) : Nat := 0x40000 + 0x400 * n
/-- Leg carrier status (spec/05_leg_carrier.md) -/
def A.LEG_STAT (n : Nat) : Nat := 0x40004 + 0x400 * n
/-- Leg phase offset (spec/05_leg_carrier.md) -/
def A.LEG_PHASE (n : Nat) : Nat := 0x40008 + 0x400 * n
/-- Leg position (spec/05_leg_carrier.md) -/
def A.LEG_POS (n : Nat) : Nat := 0x4000C + 0x400 * n
/-- Period start (spec/05_leg_carrier.md) -/
def A.LEG_PSTART0 (n : Nat) : Nat := 0x40010 + 0x400 * n
/-- Period start (spec/05_leg_carrier.md) -/
def A.LEG_PSTART1 (n : Nat) : Nat := 0x40014 + 0x400 * n
/-- Compares A to D (spec/05_leg_carrier.md) -/
def A.LEG_CMPA (n : Nat) : Nat := 0x40040 + 0x400 * n
/-- Compares A to D (spec/05_leg_carrier.md) -/
def A.LEG_CMPB (n : Nat) : Nat := 0x40044 + 0x400 * n
/-- Compares A to D (spec/05_leg_carrier.md) -/
def A.LEG_CMPC (n : Nat) : Nat := 0x40048 + 0x400 * n
/-- Compares A to D (spec/05_leg_carrier.md) -/
def A.LEG_CMPD (n : Nat) : Nat := 0x4004C + 0x400 * n
/-- Trigger count (spec/05_leg_carrier.md) -/
def A.LEG_TRGCNT (n : Nat) : Nat := 0x40060 + 0x400 * n
/-- Last trigger (spec/05_leg_carrier.md) -/
def A.LEG_TRGLAST0 (n : Nat) : Nat := 0x40064 + 0x400 * n
/-- Last trigger (spec/05_leg_carrier.md) -/
def A.LEG_TRGLAST1 (n : Nat) : Nat := 0x40068 + 0x400 * n
/-- Dead time (spec/06_leg_edges.md) -/
def A.LEG_DT (n : Nat) : Nat := 0x40100 + 0x400 * n
/-- Minimum pulse (spec/06_leg_edges.md) -/
def A.LEG_MINP (n : Nat) : Nat := 0x40104 + 0x400 * n
/-- Edge-shaping configuration (spec/06_leg_edges.md) -/
def A.LEG_EDGECFG (n : Nat) : Nat := 0x40108 + 0x400 * n
/-- Interlock configuration (spec/06_leg_edges.md) -/
def A.LEG_ILKCFG (n : Nat) : Nat := 0x4010C + 0x400 * n
/-- Report delay (spec/06_leg_edges.md) -/
def A.LEG_RPTDLY (n : Nat) : Nat := 0x40110 + 0x400 * n
/-- Edge-true configuration (spec/06_leg_edges.md) -/
def A.LEG_ETCCFG (n : Nat) : Nat := 0x40114 + 0x400 * n
/-- Correction limit (spec/06_leg_edges.md) -/
def A.LEG_ETCLIM (n : Nat) : Nat := 0x40118 + 0x400 * n
/-- Corrections in force (spec/06_leg_edges.md) -/
def A.LEG_ETCCOR (n : Nat) : Nat := 0x4011C + 0x400 * n
/-- Carried on-time (spec/06_leg_edges.md) -/
def A.LEG_CARRY (n : Nat) : Nat := 0x40120 + 0x400 * n
/-- Refresh limit (spec/06_leg_edges.md) -/
def A.LEG_BSCFG (n : Nat) : Nat := 0x40124 + 0x400 * n
/-- Refresh width (spec/06_leg_edges.md) -/
def A.LEG_BSWID (n : Nat) : Nat := 0x40128 + 0x400 * n
/-- Refresh count (spec/06_leg_edges.md) -/
def A.LEG_BSCNT (n : Nat) : Nat := 0x4012C + 0x400 * n
/-- Override request (spec/06_leg_edges.md) -/
def A.LEG_OVR (n : Nat) : Nat := 0x40130 + 0x400 * n
/-- Override in effect (spec/06_leg_edges.md) -/
def A.LEG_OVRSTAT (n : Nat) : Nat := 0x40134 + 0x400 * n
/-- Edge-shaping status (spec/06_leg_edges.md) -/
def A.LEG_EDGESTAT (n : Nat) : Nat := 0x40138 + 0x400 * n
/-- Minimum-pulse counts (spec/06_leg_edges.md) -/
def A.LEG_MPCNT (n : Nat) : Nat := 0x4013C + 0x400 * n
/-- Refresh insertions (spec/06_leg_edges.md) -/
def A.LEG_BSRCNT (n : Nat) : Nat := 0x40140 + 0x400 * n
/-- Last report stamps (spec/06_leg_edges.md) -/
def A.LEG_RPTLASTH (n : Nat) : Nat := 0x40144 + 0x400 * n
/-- Last report stamps (spec/06_leg_edges.md) -/
def A.LEG_RPTLASTL (n : Nat) : Nat := 0x40148 + 0x400 * n
/-- Longest turn-off report delay (spec/06_leg_edges.md) -/
def A.LEG_ILKMAX (n : Nat) : Nat := 0x4014C + 0x400 * n
/-- Protection configuration (spec/12_protection.md) -/
def A.LEG_PROTCFG (n : Nat) : Nat := 0x40200 + 0x400 * n
/-- Trip clear (spec/12_protection.md) -/
def A.LEG_TRIPCLR (n : Nat) : Nat := 0x40204 + 0x400 * n
/-- Trip status (spec/12_protection.md) -/
def A.LEG_TRIPSTAT (n : Nat) : Nat := 0x40208 + 0x400 * n
/-- Trip stamp (spec/12_protection.md) -/
def A.LEG_TRIPSTAMP0 (n : Nat) : Nat := 0x4020C + 0x400 * n
/-- Trip stamp (spec/12_protection.md) -/
def A.LEG_TRIPSTAMP1 (n : Nat) : Nat := 0x40210 + 0x400 * n
/-- Sources seen (spec/12_protection.md) -/
def A.LEG_TRIPSRC (n : Nat) : Nat := 0x40214 + 0x400 * n
/-- Trip counts (spec/12_protection.md) -/
def A.LEG_TRIPCNT (n : Nat) : Nat := 0x40218 + 0x400 * n

/-- Carrier configuration (spec/05_leg_carrier.md) -/
def A.TEAM_CARCFG (t : Nat) : Nat := 0x60000 + 0x400 * t
/-- Carrier period (spec/05_leg_carrier.md) -/
def A.TEAM_PER (t : Nat) : Nat := 0x60004 + 0x400 * t
/-- Period in effect (spec/05_leg_carrier.md) -/
def A.TEAM_PERACT (t : Nat) : Nat := 0x60008 + 0x400 * t
/-- Restart delay (spec/05_leg_carrier.md) -/
def A.TEAM_RSTDLY (t : Nat) : Nat := 0x6000C + 0x400 * t
/-- Dither configuration (spec/05_leg_carrier.md) -/
def A.TEAM_DITHCFG (t : Nat) : Nat := 0x60010 + 0x400 * t
/-- Dither status (spec/05_leg_carrier.md) -/
def A.TEAM_DITHSTAT (t : Nat) : Nat := 0x60014 + 0x400 * t
/-- Dither register (spec/05_leg_carrier.md) -/
def A.TEAM_LFSR (t : Nat) : Nat := 0x60018 + 0x400 * t
/-- Shadow control (spec/05_leg_carrier.md) -/
def A.TEAM_SHCTL (t : Nat) : Nat := 0x6001C + 0x400 * t
/-- Period count (spec/05_leg_carrier.md) -/
def A.TEAM_PCNT (t : Nat) : Nat := 0x60020 + 0x400 * t
/-- Variable-period status (spec/05_leg_carrier.md) -/
def A.TEAM_VARSTAT (t : Nat) : Nat := 0x60024 + 0x400 * t
/-- Team configuration (spec/07_teams.md) -/
def A.TEAM_CFG (t : Nat) : Nat := 0x60040 + 0x400 * t
/-- Leg binding (spec/07_teams.md) -/
def A.TEAM_LEGMAP0 (t : Nat) : Nat := 0x60044 + 0x400 * t
/-- Leg binding (spec/07_teams.md) -/
def A.TEAM_LEGMAP1 (t : Nat) : Nat := 0x60048 + 0x400 * t
/-- Update mode (spec/07_teams.md) -/
def A.TEAM_UPDMODE (t : Nat) : Nat := 0x6004C + 0x400 * t
/-- Team control (spec/07_teams.md) -/
def A.TEAM_CTL (t : Nat) : Nat := 0x60050 + 0x400 * t
/-- Team status (spec/07_teams.md) -/
def A.TEAM_STAT (t : Nat) : Nat := 0x60054 + 0x400 * t
/-- Halting fault (spec/07_teams.md) -/
def A.TEAM_SAFEFLT (t : Nat) : Nat := 0x60058 + 0x400 * t
/-- Alignment configuration (spec/07_teams.md) -/
def A.TEAM_ALNCFG (t : Nat) : Nat := 0x60060 + 0x400 * t
/-- Epoch interval (spec/07_teams.md) -/
def A.TEAM_EPOCHINT (t : Nat) : Nat := 0x60064 + 0x400 * t
/-- Epoch offset (spec/07_teams.md) -/
def A.TEAM_EPOCHOFS (t : Nat) : Nat := 0x60068 + 0x400 * t
/-- Epoch index (spec/07_teams.md) -/
def A.TEAM_EPOCHIDX0 (t : Nat) : Nat := 0x6006C + 0x400 * t
/-- Epoch index (spec/07_teams.md) -/
def A.TEAM_EPOCHIDX1 (t : Nat) : Nat := 0x60070 + 0x400 * t
/-- Alignment status (spec/07_teams.md) -/
def A.TEAM_ALNSTAT (t : Nat) : Nat := 0x60074 + 0x400 * t
/-- Team set-point (spec/07_teams.md) -/
def A.TEAM_SP (t : Nat) : Nat := 0x60080 + 0x400 * t
/-- Set-point status (spec/07_teams.md) -/
def A.TEAM_SPSTAT (t : Nat) : Nat := 0x60084 + 0x400 * t

/-- Group configuration (spec/07_teams.md) -/
def A.MGRP_CFG (g : Nat) : Nat := 0x68000 + 0x200 * g
/-- Group torque command (spec/07_teams.md) -/
def A.MGRP_TQCMD (g : Nat) : Nat := 0x68004 + 0x200 * g
/-- Group status (spec/07_teams.md) -/
def A.MGRP_STAT (g : Nat) : Nat := 0x68008 + 0x200 * g
/-- Allocated torque (spec/07_teams.md) -/
def A.MGRP_TQALLOC (g : Nat) : Nat := 0x6800C + 0x200 * g
/-- Shortfall (spec/07_teams.md) -/
def A.MGRP_SHORT (g : Nat) : Nat := 0x68010 + 0x200 * g
/-- Group counters (spec/07_teams.md) -/
def A.MGRP_CNT (g : Nat) : Nat := 0x68014 + 0x200 * g
/-- Member share (spec/07_teams.md) -/
def A.MGRP_SHARE (g m : Nat) : Nat := 0x68080 + 0x200 * g + 4 * m
/-- Member identity (spec/07_teams.md) -/
def A.MGRP_MEMA (g m : Nat) : Nat := 0x68100 + 0x200 * g + 8 * m
/-- Member weight and capability (spec/07_teams.md) -/
def A.MGRP_MEMB (g m : Nat) : Nat := 0x68104 + 0x200 * g + 8 * m

/-- Channel configuration (spec/08_sigma_delta.md) -/
def A.SDM_CFG (c : Nat) : Nat := 0x70000 + 0x80 * c
/-- Trigger binding (spec/08_sigma_delta.md) -/
def A.SDM_TRG (c : Nat) : Nat := 0x70004 + 0x80 * c
/-- Filter ratios (spec/08_sigma_delta.md) -/
def A.SDM_OSR (c : Nat) : Nat := 0x70008 + 0x80 * c
/-- Scale factor (spec/08_sigma_delta.md) -/
def A.SDM_GAIN (c : Nat) : Nat := 0x7000C + 0x80 * c
/-- Scale shift (spec/08_sigma_delta.md) -/
def A.SDM_SCALE (c : Nat) : Nat := 0x70010 + 0x80 * c
/-- Offset (spec/08_sigma_delta.md) -/
def A.SDM_OFS (c : Nat) : Nat := 0x70014 + 0x80 * c
/-- Over-current thresholds (spec/08_sigma_delta.md) -/
def A.SDM_OCHI (c : Nat) : Nat := 0x70018 + 0x80 * c
/-- Over-current thresholds (spec/08_sigma_delta.md) -/
def A.SDM_OCLO (c : Nat) : Nat := 0x7001C + 0x80 * c
/-- Channel status (spec/08_sigma_delta.md) -/
def A.SDM_STAT (c : Nat) : Nat := 0x70020 + 0x80 * c
/-- Latest sample (spec/08_sigma_delta.md) -/
def A.SDM_RES (c : Nat) : Nat := 0x70024 + 0x80 * c
/-- Latest sample (spec/08_sigma_delta.md) -/
def A.SDM_RESSTAMP0 (c : Nat) : Nat := 0x70028 + 0x80 * c
/-- Latest sample (spec/08_sigma_delta.md) -/
def A.SDM_RESSTAMP1 (c : Nat) : Nat := 0x7002C + 0x80 * c
/-- Over-current result (spec/08_sigma_delta.md) -/
def A.SDM_OCRES (c : Nat) : Nat := 0x70030 + 0x80 * c
/-- Channel counters (spec/08_sigma_delta.md) -/
def A.SDM_CNT (c : Nat) : Nat := 0x70034 + 0x80 * c
/-- Error counters (spec/08_sigma_delta.md) -/
def A.SDM_ERRCNT (c : Nat) : Nat := 0x70038 + 0x80 * c
/-- Manchester bit period (spec/08_sigma_delta.md) -/
def A.SDM_MANPER (c : Nat) : Nat := 0x7003C + 0x80 * c
/-- Transition phases (spec/08_sigma_delta.md) -/
def A.SDM_EYE (c : Nat) : Nat := 0x70040 + 0x80 * c
/-- Over-current peaks (spec/08_sigma_delta.md) -/
def A.SDM_PKHI (c : Nat) : Nat := 0x70044 + 0x80 * c
/-- Over-current peaks (spec/08_sigma_delta.md) -/
def A.SDM_PKLO (c : Nat) : Nat := 0x70048 + 0x80 * c
/-- Clock output configuration (spec/08_sigma_delta.md) -/
def A.SDM_CKCFG (g : Nat) : Nat := 0x78000 + 4 * g
/-- Team sense delay (spec/08_sigma_delta.md) -/
def A.SDM_TEAMDLY (t : Nat) : Nat := 0x78100 + 4 * t

/-- Engine control (spec/09_ce_arithmetic.md) -/
def A.CE_CTL : Nat := 0xA0000
/-- Engine status (spec/09_ce_arithmetic.md) -/
def A.CE_STAT : Nat := 0xA0004
/-- Table window bank (spec/09_ce_arithmetic.md) -/
def A.CE_TBLBANK : Nat := 0xA0008
/-- Capture window page (spec/09_ce_arithmetic.md) -/
def A.CE_CAPPAGE : Nat := 0xA000C
/-- ECC counts (spec/09_ce_arithmetic.md) -/
def A.CE_ECCCNT : Nat := 0xA0010
/-- Last ECC error (spec/09_ce_arithmetic.md) -/
def A.CE_ECCADDR : Nat := 0xA0014
/-- Pool load (spec/09_ce_arithmetic.md) -/
def A.CE_LOAD : Nat := 0xA0018
/-- Background release (spec/09_ce_arithmetic.md) -/
def A.CE_BGCFG (b : Nat) : Nat := 0xA0020 + 4 * b
/-- Task status (spec/09_ce_arithmetic.md) -/
def A.CE_TSTAT (k : Nat) : Nat := 0xA1000 + 0x20 * k
/-- Overrun counts (spec/09_ce_arithmetic.md) -/
def A.CE_TOVR (k : Nat) : Nat := 0xA1004 + 0x20 * k
/-- Discard and skip counts (spec/09_ce_arithmetic.md) -/
def A.CE_TDISC (k : Nat) : Nat := 0xA1008 + 0x20 * k
/-- Saturation count (spec/09_ce_arithmetic.md) -/
def A.CE_TSAT (k : Nat) : Nat := 0xA100C + 0x20 * k
/-- Longest run (spec/09_ce_arithmetic.md) -/
def A.CE_TCYC (k : Nat) : Nat := 0xA1010 + 0x20 * k
/-- Longest response (spec/09_ce_arithmetic.md) -/
def A.CE_TRESP (k : Nat) : Nat := 0xA1014 + 0x20 * k
/-- Last release (spec/09_ce_arithmetic.md) -/
def A.CE_TREL (k : Nat) : Nat := 0xA1018 + 0x20 * k
/-- Last accepted commit (spec/09_ce_arithmetic.md) -/
def A.CE_TCOMMIT (k : Nat) : Nat := 0xA101C + 0x20 * k
/-- Generator configuration (spec/10_ce_functions.md) -/
def A.CE_GENCFG (g : Nat) : Nat := 0xA0400 + 0x40 * g
/-- Amplitude and offset (spec/10_ce_functions.md) -/
def A.CE_GENAMP (g : Nat) : Nat := 0xA0404 + 0x40 * g
/-- Amplitude and offset (spec/10_ce_functions.md) -/
def A.CE_GENOFS (g : Nat) : Nat := 0xA0408 + 0x40 * g
/-- Frequency and sweep (spec/10_ce_functions.md) -/
def A.CE_GENF0 (g : Nat) : Nat := 0xA040C + 0x40 * g
/-- Frequency and sweep (spec/10_ce_functions.md) -/
def A.CE_GENDF (g : Nat) : Nat := 0xA0410 + 0x40 * g
/-- Step count (spec/10_ce_functions.md) -/
def A.CE_GENNSTEP (g : Nat) : Nat := 0xA0414 + 0x40 * g
/-- Start stamp (spec/10_ce_functions.md) -/
def A.CE_GENSTART0 (g : Nat) : Nat := 0xA0418 + 0x40 * g
/-- Start stamp (spec/10_ce_functions.md) -/
def A.CE_GENSTART1 (g : Nat) : Nat := 0xA041C + 0x40 * g
/-- Generator control (spec/10_ce_functions.md) -/
def A.CE_GENCTL (g : Nat) : Nat := 0xA0420 + 0x40 * g
/-- Generator status (spec/10_ce_functions.md) -/
def A.CE_GENSTAT (g : Nat) : Nat := 0xA0424 + 0x40 * g
/-- Generator value (spec/10_ce_functions.md) -/
def A.CE_GENOUT (g : Nat) : Nat := 0xA0428 + 0x40 * g
/-- Capture configuration (spec/10_ce_functions.md) -/
def A.CE_CAPCFG (s : Nat) : Nat := 0xA0600 + 0x20 * s
/-- Capture range (spec/10_ce_functions.md) -/
def A.CE_CAPRANGE (s : Nat) : Nat := 0xA0604 + 0x20 * s
/-- Capture control (spec/10_ce_functions.md) -/
def A.CE_CAPCTL (s : Nat) : Nat := 0xA0608 + 0x20 * s
/-- Capture status (spec/10_ce_functions.md) -/
def A.CE_CAPSTAT (s : Nat) : Nat := 0xA060C + 0x20 * s
/-- Next word (spec/10_ce_functions.md) -/
def A.CE_CAPPTR (s : Nat) : Nat := 0xA0610 + 0x20 * s
/-- Dropped words (spec/10_ce_functions.md) -/
def A.CE_CAPDROP (s : Nat) : Nat := 0xA0614 + 0x20 * s
/-- Observer configuration (spec/10_ce_functions.md) -/
def A.CE_OBS (t : Nat) : Nat := 0xA0800 + 4 * t
/-- Observer count (spec/10_ce_functions.md) -/
def A.CE_OBSCNT (t : Nat) : Nat := 0xA0880 + 4 * t
/-- Group output control (spec/10_ce_functions.md) -/
def A.CE_GRPCTL (g : Nat) : Nat := 0xA0900 + 4 * g

/-- Port configuration (spec/11_feedback.md) -/
def A.FBK_CFG (p : Nat) : Nat := 0x90000 + 0x1000 * p
/-- Port status (spec/11_feedback.md) -/
def A.FBK_STAT (p : Nat) : Nat := 0x90004 + 0x1000 * p
/-- Interrupt enable (spec/11_feedback.md) -/
def A.FBK_IEN (p : Nat) : Nat := 0x90008 + 0x1000 * p
/-- Position (spec/11_feedback.md) -/
def A.FBK_POS0 (p : Nat) : Nat := 0x90010 + 0x1000 * p
/-- Position (spec/11_feedback.md) -/
def A.FBK_POS1 (p : Nat) : Nat := 0x90014 + 0x1000 * p
/-- Position set (spec/11_feedback.md) -/
def A.FBK_POSSET (p : Nat) : Nat := 0x90018 + 0x1000 * p
/-- Position stamp (spec/11_feedback.md) -/
def A.FBK_POSSTAMP (p : Nat) : Nat := 0x9001C + 0x1000 * p
/-- Speed (spec/11_feedback.md) -/
def A.FBK_SPD (p : Nat) : Nat := 0x90020 + 0x1000 * p
/-- Speed scale (spec/11_feedback.md) -/
def A.FBK_SPDK (p : Nat) : Nat := 0x90024 + 0x1000 * p
/-- Speed span (spec/11_feedback.md) -/
def A.FBK_SPDCFG (p : Nat) : Nat := 0x90028 + 0x1000 * p
/-- Zero-speed level (spec/11_feedback.md) -/
def A.FBK_SPDMIN (p : Nat) : Nat := 0x9002C + 0x1000 * p
/-- Loss detection (spec/11_feedback.md) -/
def A.FBK_LOSSCFG (p : Nat) : Nat := 0x90030 + 0x1000 * p
/-- Freeze detection (spec/11_feedback.md) -/
def A.FBK_FRZCFG (p : Nat) : Nat := 0x90034 + 0x1000 * p
/-- Motion estimate (spec/11_feedback.md) -/
def A.FBK_MOTWORD (p : Nat) : Nat := 0x90038 + 0x1000 * p
/-- Ladder configuration (spec/11_feedback.md) -/
def A.FBK_LADCFG (p : Nat) : Nat := 0x90040 + 0x1000 * p
/-- Rated speed (spec/11_feedback.md) -/
def A.FBK_RATED (p : Nat) : Nat := 0x90044 + 0x1000 * p
/-- Ramp factor (spec/11_feedback.md) -/
def A.FBK_RAMPF (p : Nat) : Nat := 0x90048 + 0x1000 * p
/-- Index line count and reference (spec/11_feedback.md) -/
def A.FBK_IDXN (p : Nat) : Nat := 0x90050 + 0x1000 * p
/-- Index line count and reference (spec/11_feedback.md) -/
def A.FBK_IDXREF (p : Nat) : Nat := 0x90054 + 0x1000 * p
/-- Index tolerance (spec/11_feedback.md) -/
def A.FBK_IDXTOL (p : Nat) : Nat := 0x90058 + 0x1000 * p
/-- Last index (spec/11_feedback.md) -/
def A.FBK_IDXPOS (p : Nat) : Nat := 0x9005C + 0x1000 * p
/-- Last index (spec/11_feedback.md) -/
def A.FBK_IDXCOR (p : Nat) : Nat := 0x90060 + 0x1000 * p
/-- Index counts (spec/11_feedback.md) -/
def A.FBK_IDXCNT (p : Nat) : Nat := 0x90064 + 0x1000 * p
/-- Hall sector map (spec/11_feedback.md) -/
def A.FBK_HALLMAP (p : Nat) : Nat := 0x90070 + 0x1000 * p
/-- SSI frame format (spec/11_feedback.md) -/
def A.FBK_SSIFMT (p : Nat) : Nat := 0x90080 + 0x1000 * p
/-- SSI timing (spec/11_feedback.md) -/
def A.FBK_SSITIM (p : Nat) : Nat := 0x90084 + 0x1000 * p
/-- SSI check (spec/11_feedback.md) -/
def A.FBK_SSICRC (p : Nat) : Nat := 0x90088 + 0x1000 * p
/-- SSI requests (spec/11_feedback.md) -/
def A.FBK_SSIREQ (p : Nat) : Nat := 0x9008C + 0x1000 * p
/-- SSI period (spec/11_feedback.md) -/
def A.FBK_SSIPER (p : Nat) : Nat := 0x90090 + 0x1000 * p
/-- Last frame (spec/11_feedback.md) -/
def A.FBK_SSIRAW0 (p : Nat) : Nat := 0x90094 + 0x1000 * p
/-- Last frame (spec/11_feedback.md) -/
def A.FBK_SSIRAW1 (p : Nat) : Nat := 0x90098 + 0x1000 * p
/-- SSI counts (spec/11_feedback.md) -/
def A.FBK_SSICNT (p : Nat) : Nat := 0x9009C + 0x1000 * p
/-- Edge counts (spec/11_feedback.md) -/
def A.FBK_CNT (p : Nat) : Nat := 0x900A0 + 0x1000 * p
/-- Probe configuration (spec/11_feedback.md) -/
def A.FBK_PRBCFG (p : Nat) : Nat := 0x900B0 + 0x1000 * p
/-- Probe latch (spec/11_feedback.md) -/
def A.FBK_PRBPOS (p : Nat) : Nat := 0x900B4 + 0x1000 * p
/-- Probe latch (spec/11_feedback.md) -/
def A.FBK_PRBSTAMP0 (p : Nat) : Nat := 0x900B8 + 0x1000 * p
/-- Probe latch (spec/11_feedback.md) -/
def A.FBK_PRBSTAMP1 (p : Nat) : Nat := 0x900BC + 0x1000 * p
/-- Compare configuration (spec/11_feedback.md) -/
def A.FBK_CMPCFG (p k : Nat) : Nat := 0x90100 + 0x1000 * p + 0x10 * k
/-- Target and increment (spec/11_feedback.md) -/
def A.FBK_CMPTGT (p k : Nat) : Nat := 0x90104 + 0x1000 * p + 0x10 * k
/-- Target and increment (spec/11_feedback.md) -/
def A.FBK_CMPINC (p k : Nat) : Nat := 0x90108 + 0x1000 * p + 0x10 * k
/-- Compare status (spec/11_feedback.md) -/
def A.FBK_CMPSTAT (p k : Nat) : Nat := 0x9010C + 0x1000 * p + 0x10 * k
/-- Compare stamp (spec/11_feedback.md) -/
def A.FBK_CMPSTAMP (p k : Nat) : Nat := 0x90140 + 0x1000 * p + 4 * k

/-- Emulation configuration (spec/11_feedback.md) -/
def A.FBO_CFG (m : Nat) : Nat := 0x90800 + 0x1000 * m
/-- Division ratio (spec/11_feedback.md) -/
def A.FBO_RATIO (m : Nat) : Nat := 0x90804 + 0x1000 * m
/-- Output counts per Z (spec/11_feedback.md) -/
def A.FBO_ZN (m : Nat) : Nat := 0x90808 + 0x1000 * m
/-- Estimate word (spec/11_feedback.md) -/
def A.FBO_ESTW (m : Nat) : Nat := 0x9080C + 0x1000 * m
/-- Emulation status (spec/11_feedback.md) -/
def A.FBO_STAT (m : Nat) : Nat := 0x90810 + 0x1000 * m
/-- Output count (spec/11_feedback.md) -/
def A.FBO_OUTCNT (m : Nat) : Nat := 0x90814 + 0x1000 * m

/-- Comparator configuration (spec/12_protection.md) -/
def A.CMP_CFG (k : Nat) : Nat := 0x80000 + 0x80 * k
/-- Thresholds (spec/12_protection.md) -/
def A.CMP_THRLO (k : Nat) : Nat := 0x80004 + 0x80 * k
/-- Thresholds (spec/12_protection.md) -/
def A.CMP_THRHI (k : Nat) : Nat := 0x80008 + 0x80 * k
/-- Trip assignment (spec/12_protection.md) -/
def A.CMP_MAP (k : Nat) : Nat := 0x8000C + 0x80 * k
/-- Team scope (spec/12_protection.md) -/
def A.CMP_TEAMS (k : Nat) : Nat := 0x80010 + 0x80 * k
/-- Comparator status (spec/12_protection.md) -/
def A.CMP_STAT (k : Nat) : Nat := 0x80014 + 0x80 * k
/-- Last change (spec/12_protection.md) -/
def A.CMP_STAMP0 (k : Nat) : Nat := 0x80018 + 0x80 * k
/-- Last change (spec/12_protection.md) -/
def A.CMP_STAMP1 (k : Nat) : Nat := 0x8001C + 0x80 * k
/-- Assertion counts (spec/12_protection.md) -/
def A.CMP_CNT (k : Nat) : Nat := 0x80020 + 0x80 * k

/-- Channel trip assignment (spec/12_protection.md) -/
def A.PRT_SDMMAP (c : Nat) : Nat := 0x84000 + 8 * c
/-- Channel team scope (spec/12_protection.md) -/
def A.PRT_SDMTEAMS (c : Nat) : Nat := 0x84004 + 8 * c
/-- Trip input configuration (spec/12_protection.md) -/
def A.PRT_TINCFG (i : Nat) : Nat := 0x85000 + 8 * i
/-- Trip input team scope (spec/12_protection.md) -/
def A.PRT_TINTEAMS (i : Nat) : Nat := 0x85004 + 8 * i
/-- Protection input status (spec/12_protection.md) -/
def A.PRT_STAT : Nat := 0x85100
/-- SAFE_N count (spec/12_protection.md) -/
def A.PRT_SAFECNT : Nat := 0x85104

/-- Yoke configuration (spec/13_yoke.md) -/
def A.YOK_CFG : Nat := 0xF0000
/-- Yoke control (spec/13_yoke.md) -/
def A.YOK_CTL : Nat := 0xF0004
/-- Watchdog configuration (spec/13_yoke.md) -/
def A.YOK_WDCFG : Nat := 0xF0008
/-- Watchdog kick (spec/13_yoke.md) -/
def A.YOK_WDKICK : Nat := 0xF000C
/-- Yoke status (spec/13_yoke.md) -/
def A.YOK_STAT : Nat := 0xF0010
/-- Last claim (spec/13_yoke.md) -/
def A.YOK_TAKE0 : Nat := 0xF0014
/-- Last claim (spec/13_yoke.md) -/
def A.YOK_TAKE1 : Nat := 0xF0018
/-- Last release (spec/13_yoke.md) -/
def A.YOK_RELCAUSE : Nat := 0xF001C
/-- Partner time offset (spec/13_yoke.md) -/
def A.YOK_OFS : Nat := 0xF0020
/-- Link load (spec/13_yoke.md) -/
def A.YOK_LOAD : Nat := 0xF0024
/-- Commit counts (spec/13_yoke.md) -/
def A.YOK_CNT : Nat := 0xF0028
/-- Error counts (spec/13_yoke.md) -/
def A.YOK_ERR : Nat := 0xF002C
/-- Divergence check (spec/13_yoke.md) -/
def A.YOK_DIVCFG : Nat := 0xF0030
/-- Divergent samples (spec/13_yoke.md) -/
def A.YOK_DIVCNT : Nat := 0xF0034
/-- Takeover holds (spec/13_yoke.md) -/
def A.YOK_HOLDCNT : Nat := 0xF0038
/-- Yoked teams (spec/13_yoke.md) -/
def A.YOK_TEAMS : Nat := 0xF0040
/-- Partner state identity (spec/13_yoke.md) -/
def A.YOK_PSTATE (i : Nat) : Nat := 0xF0050 + 4 * i
/-- Committed state range (spec/13_yoke.md) -/
def A.YOK_SMAP (k : Nat) : Nat := 0xF0100 + 4 * k

/-- Checkpoint interval (spec/13_yoke.md) -/
def A.SUP_CKCFG (r : Nat) : Nat := 0x130100 + 0x40 * r
/-- Checkpoint status (spec/13_yoke.md) -/
def A.SUP_CKSTAT (r : Nat) : Nat := 0x130104 + 0x40 * r
/-- Last reload (spec/13_yoke.md) -/
def A.SUP_CKLAST (r : Nat) : Nat := 0x130108 + 0x40 * r

/-- Network configuration (spec/14_network.md) -/
def A.NET_CFG : Nat := 0xE0000
/-- Addresses (spec/14_network.md) -/
def A.NET_ADDR : Nat := 0xE0004
/-- Join status (spec/14_network.md) -/
def A.NET_JOIN : Nat := 0xE0008
/-- Cycle length (spec/14_network.md) -/
def A.NET_CYC : Nat := 0xE0010
/-- Transmit offsets (spec/14_network.md) -/
def A.NET_TXOFS : Nat := 0xE0014
/-- Transmit offsets (spec/14_network.md) -/
def A.NET_TXOFSHI : Nat := 0xE0018
/-- Receive deadline (spec/14_network.md) -/
def A.NET_RXDL : Nat := 0xE001C
/-- Transmit destination (spec/14_network.md) -/
def A.NET_TXDST : Nat := 0xE0020
/-- Writable state words (spec/14_network.md) -/
def A.NET_RXSTATE : Nat := 0xE0024
/-- Receive counts (spec/14_network.md) -/
def A.NET_RXCNT : Nat := 0xE0028
/-- Repair counts (spec/14_network.md) -/
def A.NET_RPRCNT : Nat := 0xE002C
/-- Source windows (spec/14_network.md) -/
def A.NET_SRCUSE : Nat := 0xE0030
/-- Window use (spec/14_network.md) -/
def A.NET_WINUSE : Nat := 0xE0034
/-- Segments through NET2 (spec/14_network.md) -/
def A.NET_SEGMAP0 : Nat := 0xE0038
/-- Segments through NET2 (spec/14_network.md) -/
def A.NET_SEGMAP1 : Nat := 0xE003C
/-- Publish status (spec/14_network.md) -/
def A.NET_PUBCFG : Nat := 0xE0040
/-- Mailbox configuration (spec/14_network.md) -/
def A.NET_MBXCFG : Nat := 0xE0050
/-- Mailbox receive status (spec/14_network.md) -/
def A.NET_MBXRXSTAT : Nat := 0xE0054
/-- Mailbox receive stamp (spec/14_network.md) -/
def A.NET_MBXRXT : Nat := 0xE0058
/-- Mailbox receive pop (spec/14_network.md) -/
def A.NET_MBXRXPOP : Nat := 0xE005C
/-- Mailbox transmit control (spec/14_network.md) -/
def A.NET_MBXTXCTL : Nat := 0xE0060
/-- Mailbox transmit status (spec/14_network.md) -/
def A.NET_MBXTXSTAT : Nat := 0xE0064
/-- PTP configuration (spec/14_network.md) -/
def A.NET_PTPCFG : Nat := 0xE0100
/-- Servo configuration (spec/14_network.md) -/
def A.NET_SERVOCFG : Nat := 0xE0104
/-- Time status (spec/14_network.md) -/
def A.NET_TSTAT : Nat := 0xE0108
/-- Last offset (spec/14_network.md) -/
def A.NET_OFS : Nat := 0xE010C
/-- Last correction (spec/14_network.md) -/
def A.NET_CORR : Nat := 0xE0110
/-- Grandmaster identity (spec/14_network.md) -/
def A.NET_GMID0 : Nat := 0xE0114
/-- Grandmaster identity (spec/14_network.md) -/
def A.NET_GMID1 : Nat := 0xE0118
/-- Port configuration (spec/14_network.md) -/
def A.NET_PCFG (x : Nat) : Nat := 0xE0400 + 0x80 * x
/-- Port status (spec/14_network.md) -/
def A.NET_PSTAT (x : Nat) : Nat := 0xE0404 + 0x80 * x
/-- Link delay (spec/14_network.md) -/
def A.NET_PDELAY (x : Nat) : Nat := 0xE0408 + 0x80 * x
/-- Link asymmetry (spec/14_network.md) -/
def A.NET_ASYM (x : Nat) : Nat := 0xE040C + 0x80 * x
/-- Factory latency (spec/14_network.md) -/
def A.NET_LAT (x : Nat) : Nat := 0xE0410 + 0x80 * x
/-- Frame counts (spec/14_network.md) -/
def A.NET_FRMCNT (x : Nat) : Nat := 0xE0414 + 0x80 * x
/-- Error counts (spec/14_network.md) -/
def A.NET_ERRCNT (x : Nat) : Nat := 0xE0418 + 0x80 * x
/-- Forwarding counts (spec/14_network.md) -/
def A.NET_FWDCNT (x : Nat) : Nat := 0xE041C + 0x80 * x
/-- Publish list (spec/14_network.md) -/
def A.NET_PUBLIST (i : Nat) : Nat := 0xE1000 + 4 * i

/-- Read profile in force (spec/15_serial.md) -/
def A.SER_FLSRD : Nat := 0x100000
/-- Flash port timing (spec/15_serial.md) -/
def A.SER_FLSTIM : Nat := 0x100004
/-- Operation timeouts (spec/15_serial.md) -/
def A.SER_FLSTMO : Nat := 0x100008
/-- Operation codes (spec/15_serial.md) -/
def A.SER_FLSOPC : Nat := 0x10000C
/-- Flash write control (spec/15_serial.md) -/
def A.SER_FLSCTL : Nat := 0x100010
/-- Register-path address (spec/15_serial.md) -/
def A.SER_FLSADDR : Nat := 0x100014
/-- Register-path data (spec/15_serial.md) -/
def A.SER_FLSWDATA : Nat := 0x100018
/-- Register-path data (spec/15_serial.md) -/
def A.SER_FLSRDATA : Nat := 0x10001C
/-- Register-path erase (spec/15_serial.md) -/
def A.SER_FLSERASE : Nat := 0x100020
/-- Flash port status (spec/15_serial.md) -/
def A.SER_FLSSTAT : Nat := 0x100024
/-- Flash operation counts (spec/15_serial.md) -/
def A.SER_FLSCNT : Nat := 0x100028
/-- Service port status (spec/15_serial.md) -/
def A.SER_SVCSTAT : Nat := 0x100400
/-- Service port counts (spec/15_serial.md) -/
def A.SER_SVCCNT : Nat := 0x100404
/-- Fuse operation (spec/15_serial.md) -/
def A.SER_FUSECTL : Nat := 0x100F00
/-- Fuse status (spec/15_serial.md) -/
def A.SER_FUSESTAT : Nat := 0x100F04
/-- Key hash (spec/15_serial.md) -/
def A.SER_FUSEKEY (i : Nat) : Nat := 0x100F10 + 4 * i
/-- Port configuration (spec/15_serial.md) -/
def A.SER_PMSCFG (q : Nat) : Nat := 0x100800 + 0x100 * q
/-- Queue entry (spec/15_serial.md) -/
def A.SER_PMSQ (q : Nat) : Nat := 0x100804 + 0x100 * q
/-- Data FIFOs (spec/15_serial.md) -/
def A.SER_PMSTX (q : Nat) : Nat := 0x100808 + 0x100 * q
/-- Data FIFOs (spec/15_serial.md) -/
def A.SER_PMSRX (q : Nat) : Nat := 0x10080C + 0x100 * q
/-- Port status (spec/15_serial.md) -/
def A.SER_PMSSTAT (q : Nat) : Nat := 0x100810 + 0x100 * q
/-- Odd release (spec/15_serial.md) -/
def A.SER_PMSODD (q : Nat) : Nat := 0x100814 + 0x100 * q

/-- Housekeeping status (spec/16_housekeeping.md) -/
def A.HKP_STAT : Nat := 0x110000
/-- Reported die temperature (spec/16_housekeeping.md) -/
def A.HKP_TMAX : Nat := 0x110004
/-- Thresholds (spec/16_housekeeping.md) -/
def A.HKP_THWARN : Nat := 0x110008
/-- Thresholds (spec/16_housekeeping.md) -/
def A.HKP_THTHR : Nat := 0x11000C
/-- Thresholds (spec/16_housekeeping.md) -/
def A.HKP_THSHD : Nat := 0x110010
/-- Throttle configuration (spec/16_housekeeping.md) -/
def A.HKP_THCFG : Nat := 0x110014
/-- Sensor failure configuration (spec/16_housekeeping.md) -/
def A.HKP_TSCFG : Nat := 0x110018
/-- Sensor status (spec/16_housekeeping.md) -/
def A.HKP_TSSTAT : Nat := 0x11001C
/-- Throttle status (spec/16_housekeeping.md) -/
def A.HKP_THSTAT : Nat := 0x110020
/-- Shut-down configuration (spec/16_housekeeping.md) -/
def A.HKP_SHDCFG : Nat := 0x110024
/-- Retained shut-down (spec/16_housekeeping.md) -/
def A.HKP_SHDREC0 : Nat := 0x110028
/-- Retained shut-down (spec/16_housekeeping.md) -/
def A.HKP_SHDREC1 : Nat := 0x11002C
/-- Retained shut-down (spec/16_housekeeping.md) -/
def A.HKP_SHDREC2 : Nat := 0x110030
/-- Group derate (spec/16_housekeeping.md) -/
def A.HKP_DERATE (g : Nat) : Nat := 0x110040 + 4 * g
/-- Feed configuration (spec/16_housekeeping.md) -/
def A.HKP_FEEDCFG : Nat := 0x110060
/-- Feed thresholds (spec/16_housekeeping.md) -/
def A.HKP_FEEDTHR : Nat := 0x110064
/-- Feed voltages (spec/16_housekeeping.md) -/
def A.HKP_FEEDV : Nat := 0x110068
/-- Feed status (spec/16_housekeeping.md) -/
def A.HKP_FEEDSTAT : Nat := 0x11006C
/-- Die sensor (spec/16_housekeeping.md) -/
def A.HKP_TS (s : Nat) : Nat := 0x110100 + 4 * s
/-- Channel result (spec/16_housekeeping.md) -/
def A.HKP_CH (i : Nat) : Nat := 0x110200 + 4 * i
/-- External channel source (spec/16_housekeeping.md) -/
def A.HKP_EXTSEL (j : Nat) : Nat := 0x110300 + 4 * j

/-- General tag use (spec/16_housekeeping.md) -/
def A.EVT_TAGHWM : Nat := 0x120000
/-- Back-pressure count (spec/16_housekeeping.md) -/
def A.EVT_BPCNT : Nat := 0x120004
/-- Newest fault (spec/16_housekeeping.md) -/
def A.EVT_LAST : Nat := 0x120008
/-- Newest fault (spec/16_housekeeping.md) -/
def A.EVT_LASTCTX : Nat := 0x12000C
/-- Newest fault stamp (spec/16_housekeeping.md) -/
def A.EVT_LASTT0 : Nat := 0x120010
/-- Newest fault stamp (spec/16_housekeeping.md) -/
def A.EVT_LASTT1 : Nat := 0x120014
/-- Journal status (spec/16_housekeeping.md) -/
def A.EVT_LOGSTAT : Nat := 0x120020
/-- Journal counts (spec/16_housekeeping.md) -/
def A.EVT_LOGCNT : Nat := 0x120024
/-- Next sequence (spec/16_housekeeping.md) -/
def A.EVT_LOGSEQ : Nat := 0x120028
/-- Firmware record (spec/16_housekeeping.md) -/
def A.EVT_LOGWRCTX : Nat := 0x120030
/-- Firmware record (spec/16_housekeeping.md) -/
def A.EVT_LOGWR : Nat := 0x120034
/-- Record selector (spec/16_housekeeping.md) -/
def A.EVT_LOGIDX : Nat := 0x120040
/-- Record window (spec/16_housekeeping.md) -/
def A.EVT_LOGRD (i : Nat) : Nat := 0x120080 + 4 * i

/-! ## Fields -/

def F.IDG_CAPUSE_MGRP_MAXMEM : Fld := ⟨A.IDG_CAPUSE, 16, 5⟩
def F.IDG_CAPUSE_MGRP_USED : Fld := ⟨A.IDG_CAPUSE, 8, 4⟩
def F.IDG_CAPUSE_RTT_USED : Fld := ⟨A.IDG_CAPUSE, 0, 7⟩
def F.IDG_RESTART_KEY : Fld := ⟨A.IDG_RESTART, 16, 16⟩
def F.IDG_RESTART_GO : Fld := ⟨A.IDG_RESTART, 0, 1⟩
def F.IDG_RSTCAUSE_SVC : Fld := ⟨A.IDG_RSTCAUSE, 4, 1⟩
def F.IDG_RSTCAUSE_FW : Fld := ⟨A.IDG_RSTCAUSE, 3, 1⟩
def F.IDG_RSTCAUSE_PGOOD : Fld := ⟨A.IDG_RSTCAUSE, 2, 1⟩
def F.IDG_RSTCAUSE_PIN : Fld := ⟨A.IDG_RSTCAUSE, 1, 1⟩
def F.IDG_RSTCAUSE_POR : Fld := ⟨A.IDG_RSTCAUSE, 0, 1⟩
def F.IDG_LOADSTAT_PHASE : Fld := ⟨A.IDG_LOADSTAT, 28, 4⟩
def F.IDG_LOADSTAT_SLOT1_TRIED : Fld := ⟨A.IDG_LOADSTAT, 27, 1⟩
def F.IDG_LOADSTAT_SLOT0_TRIED : Fld := ⟨A.IDG_LOADSTAT, 26, 1⟩
def F.IDG_LOADSTAT_BLOCK : Fld := ⟨A.IDG_LOADSTAT, 13, 11⟩
def F.IDG_LOADSTAT_REREADS : Fld := ⟨A.IDG_LOADSTAT, 0, 8⟩
def F.IDG_LOADFLT_FLT_SLOT1 : Fld := ⟨A.IDG_LOADFLT, 16, 16⟩
def F.IDG_LOADFLT_FLT_SLOT0 : Fld := ⟨A.IDG_LOADFLT, 0, 16⟩
def F.IDG_LOADTIME_LOAD_US : Fld := ⟨A.IDG_LOADTIME, 0, 32⟩
def F.IDG_WARMSTAT_INBAND_ANY : Fld := ⟨A.IDG_WARMSTAT, 4, 1⟩
def F.IDG_WARMSTAT_TEMP : Fld := ⟨A.IDG_WARMSTAT, 3, 1⟩
def F.IDG_WARMSTAT_DLC : Fld := ⟨A.IDG_WARMSTAT, 2, 1⟩
def F.IDG_WARMSTAT_NETLOCK : Fld := ⟨A.IDG_WARMSTAT, 1, 1⟩
def F.IDG_WARMSTAT_EPOCH : Fld := ⟨A.IDG_WARMSTAT, 0, 1⟩
def F.IDG_TEAMRDY_RDY : Fld := ⟨A.IDG_TEAMRDY, 0, 24⟩
def F.IDG_INBAND_GSR_ANY : Fld := ⟨A.IDG_INBAND, 13, 1⟩
def F.IDG_INBAND_CMP_ANY : Fld := ⟨A.IDG_INBAND, 12, 1⟩
def F.IDG_INBAND_ACT_IN : Fld := ⟨A.IDG_INBAND, 11, 1⟩
def F.IDG_INBAND_PGOOD : Fld := ⟨A.IDG_INBAND, 10, 1⟩
def F.IDG_INBAND_SAFE_N : Fld := ⟨A.IDG_INBAND, 9, 1⟩
def F.IDG_INBAND_TRIP_IN : Fld := ⟨A.IDG_INBAND, 0, 8⟩
def F.IDG_DEVID_DEVICE : Fld := ⟨A.IDG_DEVID, 0, 32⟩
def F.IDG_SILID_STEP : Fld := ⟨A.IDG_SILID, 0, 16⟩
def F.IDG_ACCERR_UNMAP : Fld := ⟨A.IDG_ACCERR, 24, 8⟩
def F.IDG_ACCERR_RESWR : Fld := ⟨A.IDG_ACCERR, 16, 8⟩
def F.IDG_ACCERR_WIDTH : Fld := ⟨A.IDG_ACCERR, 8, 8⟩
def F.IDG_ACCADDR_WRITER : Fld := ⟨A.IDG_ACCADDR, 29, 3⟩
def F.IDG_ACCADDR_WR : Fld := ⟨A.IDG_ACCADDR, 28, 1⟩
def F.IDG_ACCADDR_KIND : Fld := ⟨A.IDG_ACCADDR, 26, 2⟩
def F.IDG_ACCADDR_ADDR : Fld := ⟨A.IDG_ACCADDR, 0, 24⟩
def F.IDG_PINCFG_CFG (i : Nat) : Fld := ⟨A.IDG_PINCFG i, 0, 32⟩

def F.CLK_PLLSTAT_DLL_ALL : Fld := ⟨A.CLK_PLLSTAT, 2, 1⟩
def F.CLK_PLLSTAT_REFLOSS : Fld := ⟨A.CLK_PLLSTAT, 1, 1⟩
def F.CLK_PLLSTAT_LOCK : Fld := ⟨A.CLK_PLLSTAT, 0, 1⟩
def F.CLK_SSCFG_DEPTH : Fld := ⟨A.CLK_SSCFG, 1, 3⟩
def F.CLK_SSCFG_EN : Fld := ⟨A.CLK_SSCFG, 0, 1⟩

def F.TIM_CTL_PPSO_WIDTH : Fld := ⟨A.TIM_CTL, 8, 8⟩
def F.TIM_CTL_PPSO_EN : Fld := ⟨A.TIM_CTL, 2, 1⟩
def F.TIM_CTL_SRC : Fld := ⟨A.TIM_CTL, 0, 2⟩
def F.TIM_NOW0_NOW : Fld := ⟨A.TIM_NOW0, 0, 32⟩
def F.TIM_NOW1_NOW : Fld := ⟨A.TIM_NOW1, 0, 32⟩
def F.TIM_NOW2_NOW : Fld := ⟨A.TIM_NOW2, 0, 32⟩
def F.TIM_RATE_RATE : Fld := ⟨A.TIM_RATE, 0, 32⟩
def F.TIM_SLEW_REMAIN : Fld := ⟨A.TIM_SLEW, 0, 32⟩
def F.TIM_SLEWCFG_MAXPPM : Fld := ⟨A.TIM_SLEWCFG, 0, 10⟩
def F.TIM_STAT_WR_IGN : Fld := ⟨A.TIM_STAT, 5, 1⟩
def F.TIM_STAT_STEP_REFUSED : Fld := ⟨A.TIM_STAT, 4, 1⟩
def F.TIM_STAT_RATE_CLAMP : Fld := ⟨A.TIM_STAT, 3, 1⟩
def F.TIM_STAT_SLEWING : Fld := ⟨A.TIM_STAT, 2, 1⟩
def F.TIM_STAT_HOLDOVER : Fld := ⟨A.TIM_STAT, 1, 1⟩
def F.TIM_STAT_NETLOCK : Fld := ⟨A.TIM_STAT, 0, 1⟩
def F.TIM_STEP0_VALUE : Fld := ⟨A.TIM_STEP0, 0, 32⟩
def F.TIM_STEP1_VALUE : Fld := ⟨A.TIM_STEP1, 0, 32⟩
def F.TIM_STEP2_VALUE : Fld := ⟨A.TIM_STEP2, 0, 32⟩
def F.TIM_STEPCTL_GO : Fld := ⟨A.TIM_STEPCTL, 0, 1⟩
def F.TIM_PPSIN0_STAMP : Fld := ⟨A.TIM_PPSIN0, 0, 32⟩
def F.TIM_PPSIN1_STAMP : Fld := ⟨A.TIM_PPSIN1, 0, 32⟩
def F.TIM_PPSIN2_STAMP : Fld := ⟨A.TIM_PPSIN2, 0, 32⟩

def F.DLC_CTL_EN : Fld := ⟨A.DLC_CTL, 0, 1⟩
def F.DLC_STAT_ROUNDS : Fld := ⟨A.DLC_STAT, 16, 16⟩
def F.DLC_STAT_LINE : Fld := ⟨A.DLC_STAT, 0, 9⟩

def F.BOOT_IMGID_OVL_APPL : Fld := ⟨A.BOOT_IMGID, 16, 5⟩
def F.BOOT_IMGID_OVL_SKIP : Fld := ⟨A.BOOT_IMGID, 11, 5⟩
def F.BOOT_IMGID_XIP : Fld := ⟨A.BOOT_IMGID, 10, 1⟩
def F.BOOT_IMGID_FALLBACK : Fld := ⟨A.BOOT_IMGID, 9, 1⟩
def F.BOOT_IMGID_SLOT : Fld := ⟨A.BOOT_IMGID, 8, 1⟩
def F.BOOT_IMGID_KEY_SLOT : Fld := ⟨A.BOOT_IMGID, 6, 2⟩
def F.BOOT_IMGID_SEC_VER : Fld := ⟨A.BOOT_IMGID, 0, 6⟩
def F.BOOT_IMGVER_IMG_VER : Fld := ⟨A.BOOT_IMGVER, 0, 32⟩
def F.BOOT_CFGID_CFG_ID (i : Nat) : Fld := ⟨A.BOOT_CFGID i, 0, 32⟩
def F.BOOT_STATEID_STATE_ID (i : Nat) : Fld := ⟨A.BOOT_STATEID i, 0, 32⟩
def F.BOOT_PDKID_PDK_ID (i : Nat) : Fld := ⟨A.BOOT_PDKID i, 0, 32⟩
def F.BOOT_FUSESEC_SEC_FLOOR : Fld := ⟨A.BOOT_FUSESEC, 8, 6⟩
def F.BOOT_FUSESEC_KEY_REVOKED : Fld := ⟨A.BOOT_FUSESEC, 4, 4⟩
def F.BOOT_FUSESEC_KEY_PROG : Fld := ⟨A.BOOT_FUSESEC, 0, 4⟩

def F.PDK_WIN_DATA (i : Nat) : Fld := ⟨A.PDK_WIN i, 0, 32⟩
def F.PDK_STAT_LOCK_CNT : Fld := ⟨A.PDK_STAT, 8, 8⟩
def F.PDK_STAT_LOCKED : Fld := ⟨A.PDK_STAT, 0, 1⟩
def F.PDK_CLIPCNT_COUNT (d : Nat) : Fld := ⟨A.PDK_CLIPCNT d, 0, 32⟩
def F.PDK_LASTCLIP0_DATA : Fld := ⟨A.PDK_LASTCLIP0, 0, 32⟩
def F.PDK_LASTCLIP1_DATA : Fld := ⟨A.PDK_LASTCLIP1, 0, 32⟩
def F.PDK_LASTCLIP2_DATA : Fld := ⟨A.PDK_LASTCLIP2, 0, 32⟩

def F.LEG_CTL_TRGD_SEL (n : Nat) : Fld := ⟨A.LEG_CTL n, 8, 2⟩
def F.LEG_CTL_TRGC_SEL (n : Nat) : Fld := ⟨A.LEG_CTL n, 0, 2⟩
def F.LEG_STAT_STAGED (n : Nat) : Fld := ⟨A.LEG_STAT n, 31, 1⟩
def F.LEG_STAT_PEND (n : Nat) : Fld := ⟨A.LEG_STAT n, 30, 1⟩
def F.LEG_STAT_DUTY_LIM (n : Nat) : Fld := ⟨A.LEG_STAT n, 7, 1⟩
def F.LEG_STAT_ALW_CLIP (n : Nat) : Fld := ⟨A.LEG_STAT n, 6, 1⟩
def F.LEG_STAT_HALF (n : Nat) : Fld := ⟨A.LEG_STAT n, 1, 1⟩
def F.LEG_STAT_RUN (n : Nat) : Fld := ⟨A.LEG_STAT n, 0, 1⟩
def F.LEG_PHASE_PHASE (n : Nat) : Fld := ⟨A.LEG_PHASE n, 0, 16⟩
def F.LEG_POS_POS (n : Nat) : Fld := ⟨A.LEG_POS n, 0, 32⟩
def F.LEG_PSTART0_PSTART (n : Nat) : Fld := ⟨A.LEG_PSTART0 n, 0, 32⟩
def F.LEG_PSTART1_PSTART (n : Nat) : Fld := ⟨A.LEG_PSTART1 n, 0, 32⟩
def F.LEG_CMPA_CMP (n : Nat) : Fld := ⟨A.LEG_CMPA n, 0, 32⟩
def F.LEG_CMPB_CMP (n : Nat) : Fld := ⟨A.LEG_CMPB n, 0, 32⟩
def F.LEG_CMPC_CMP (n : Nat) : Fld := ⟨A.LEG_CMPC n, 0, 32⟩
def F.LEG_CMPD_CMP (n : Nat) : Fld := ⟨A.LEG_CMPD n, 0, 32⟩
def F.LEG_TRGCNT_COUNT (n : Nat) : Fld := ⟨A.LEG_TRGCNT n, 0, 32⟩
def F.LEG_TRGLAST0_STAMP (n : Nat) : Fld := ⟨A.LEG_TRGLAST0 n, 0, 32⟩
def F.LEG_TRGLAST1_STAMP (n : Nat) : Fld := ⟨A.LEG_TRGLAST1 n, 0, 32⟩
def F.LEG_DT_DTH (n : Nat) : Fld := ⟨A.LEG_DT n, 16, 16⟩
def F.LEG_DT_DTL (n : Nat) : Fld := ⟨A.LEG_DT n, 0, 16⟩
def F.LEG_MINP_MINP (n : Nat) : Fld := ⟨A.LEG_MINP n, 0, 16⟩
def F.LEG_EDGECFG_ETC_GAIN (n : Nat) : Fld := ⟨A.LEG_EDGECFG n, 10, 2⟩
def F.LEG_EDGECFG_ETC_EN (n : Nat) : Fld := ⟨A.LEG_EDGECFG n, 9, 1⟩
def F.LEG_EDGECFG_RPT_POL (n : Nat) : Fld := ⟨A.LEG_EDGECFG n, 8, 1⟩
def F.LEG_EDGECFG_ILK_EN (n : Nat) : Fld := ⟨A.LEG_EDGECFG n, 5, 1⟩
def F.LEG_EDGECFG_GSR_EN (n : Nat) : Fld := ⟨A.LEG_EDGECFG n, 4, 1⟩
def F.LEG_EDGECFG_POLICY (n : Nat) : Fld := ⟨A.LEG_EDGECFG n, 0, 2⟩
def F.LEG_ILKCFG_GUARD (n : Nat) : Fld := ⟨A.LEG_ILKCFG n, 16, 16⟩
def F.LEG_ILKCFG_TMO (n : Nat) : Fld := ⟨A.LEG_ILKCFG n, 0, 8⟩
def F.LEG_RPTDLY_DLY_H (n : Nat) : Fld := ⟨A.LEG_RPTDLY n, 16, 16⟩
def F.LEG_RPTDLY_DLY_L (n : Nat) : Fld := ⟨A.LEG_RPTDLY n, 0, 16⟩
def F.LEG_ETCCFG_IBAND (n : Nat) : Fld := ⟨A.LEG_ETCCFG n, 16, 16⟩
def F.LEG_ETCCFG_ISRC (n : Nat) : Fld := ⟨A.LEG_ETCCFG n, 0, 8⟩
def F.LEG_ETCLIM_LIM (n : Nat) : Fld := ⟨A.LEG_ETCLIM n, 0, 16⟩
def F.LEG_ETCCOR_C_ON (n : Nat) : Fld := ⟨A.LEG_ETCCOR n, 16, 16⟩
def F.LEG_ETCCOR_C_OFF (n : Nat) : Fld := ⟨A.LEG_ETCCOR n, 0, 16⟩
def F.LEG_CARRY_CARRY (n : Nat) : Fld := ⟨A.LEG_CARRY n, 0, 32⟩
def F.LEG_BSCFG_LIMIT (n : Nat) : Fld := ⟨A.LEG_BSCFG n, 0, 24⟩
def F.LEG_BSWID_WIDTH (n : Nat) : Fld := ⟨A.LEG_BSWID n, 0, 16⟩
def F.LEG_BSCNT_DUE (n : Nat) : Fld := ⟨A.LEG_BSCNT n, 31, 1⟩
def F.LEG_BSCNT_COUNT (n : Nat) : Fld := ⟨A.LEG_BSCNT n, 0, 24⟩
def F.LEG_OVR_FORCE (n : Nat) : Fld := ⟨A.LEG_OVR n, 2, 1⟩
def F.LEG_OVR_INV (n : Nat) : Fld := ⟨A.LEG_OVR n, 1, 1⟩
def F.LEG_OVR_SWAP (n : Nat) : Fld := ⟨A.LEG_OVR n, 0, 1⟩
def F.LEG_OVRSTAT_FORCE_HOLD (n : Nat) : Fld := ⟨A.LEG_OVRSTAT n, 3, 1⟩
def F.LEG_OVRSTAT_FORCE (n : Nat) : Fld := ⟨A.LEG_OVRSTAT n, 2, 1⟩
def F.LEG_OVRSTAT_INV (n : Nat) : Fld := ⟨A.LEG_OVRSTAT n, 1, 1⟩
def F.LEG_OVRSTAT_SWAP (n : Nat) : Fld := ⟨A.LEG_OVRSTAT n, 0, 1⟩
def F.LEG_EDGESTAT_ETC_VALID (n : Nat) : Fld := ⟨A.LEG_EDGESTAT n, 15, 1⟩
def F.LEG_EDGESTAT_HEALTHY_H (n : Nat) : Fld := ⟨A.LEG_EDGESTAT n, 14, 1⟩
def F.LEG_EDGESTAT_HEALTHY_L (n : Nat) : Fld := ⟨A.LEG_EDGESTAT n, 13, 1⟩
def F.LEG_EDGESTAT_INBAND_H (n : Nat) : Fld := ⟨A.LEG_EDGESTAT n, 12, 1⟩
def F.LEG_EDGESTAT_INBAND_L (n : Nat) : Fld := ⟨A.LEG_EDGESTAT n, 11, 1⟩
def F.LEG_EDGESTAT_OVR_CLIP (n : Nat) : Fld := ⟨A.LEG_EDGESTAT n, 7, 1⟩
def F.LEG_EDGESTAT_ETC_CLIP (n : Nat) : Fld := ⟨A.LEG_EDGESTAT n, 6, 1⟩
def F.LEG_EDGESTAT_ILK_DROP (n : Nat) : Fld := ⟨A.LEG_EDGESTAT n, 5, 1⟩
def F.LEG_EDGESTAT_ILK_HOLD (n : Nat) : Fld := ⟨A.LEG_EDGESTAT n, 4, 1⟩
def F.LEG_EDGESTAT_REFRESH (n : Nat) : Fld := ⟨A.LEG_EDGESTAT n, 3, 1⟩
def F.LEG_EDGESTAT_CARRY_CLAMP (n : Nat) : Fld := ⟨A.LEG_EDGESTAT n, 2, 1⟩
def F.LEG_EDGESTAT_STRETCHED (n : Nat) : Fld := ⟨A.LEG_EDGESTAT n, 1, 1⟩
def F.LEG_EDGESTAT_DROPPED (n : Nat) : Fld := ⟨A.LEG_EDGESTAT n, 0, 1⟩
def F.LEG_MPCNT_DROPS (n : Nat) : Fld := ⟨A.LEG_MPCNT n, 16, 16⟩
def F.LEG_MPCNT_STRETCHES (n : Nat) : Fld := ⟨A.LEG_MPCNT n, 0, 16⟩
def F.LEG_BSRCNT_COUNT (n : Nat) : Fld := ⟨A.LEG_BSRCNT n, 0, 32⟩
def F.LEG_RPTLASTH_STAMP (n : Nat) : Fld := ⟨A.LEG_RPTLASTH n, 0, 32⟩
def F.LEG_RPTLASTL_STAMP (n : Nat) : Fld := ⟨A.LEG_RPTLASTL n, 0, 32⟩
def F.LEG_ILKMAX_MAX (n : Nat) : Fld := ⟨A.LEG_ILKMAX n, 0, 24⟩
def F.LEG_PROTCFG_AUTOREARM (n : Nat) : Fld := ⟨A.LEG_PROTCFG n, 31, 1⟩
def F.LEG_PROTCFG_SOFT (n : Nat) : Fld := ⟨A.LEG_PROTCFG n, 16, 7⟩
def F.LEG_PROTCFG_BLANK (n : Nat) : Fld := ⟨A.LEG_PROTCFG n, 0, 12⟩
def F.LEG_TRIPCLR_CLR (n : Nat) : Fld := ⟨A.LEG_TRIPCLR n, 0, 1⟩
def F.LEG_TRIPSTAT_LATCHED (n : Nat) : Fld := ⟨A.LEG_TRIPSTAT n, 31, 1⟩
def F.LEG_TRIPSTAT_SEQ (n : Nat) : Fld := ⟨A.LEG_TRIPSTAT n, 30, 1⟩
def F.LEG_TRIPSTAT_ACTIVE (n : Nat) : Fld := ⟨A.LEG_TRIPSTAT n, 29, 1⟩
def F.LEG_TRIPSTAT_CLR_PEND (n : Nat) : Fld := ⟨A.LEG_TRIPSTAT n, 28, 1⟩
def F.LEG_TRIPSTAT_CLR_REFUSED (n : Nat) : Fld := ⟨A.LEG_TRIPSTAT n, 27, 1⟩
def F.LEG_TRIPSTAT_KIND (n : Nat) : Fld := ⟨A.LEG_TRIPSTAT n, 16, 3⟩
def F.LEG_TRIPSTAT_SRCIDX (n : Nat) : Fld := ⟨A.LEG_TRIPSTAT n, 8, 8⟩
def F.LEG_TRIPSTAT_COND (n : Nat) : Fld := ⟨A.LEG_TRIPSTAT n, 0, 1⟩
def F.LEG_TRIPSTAMP0_STAMP (n : Nat) : Fld := ⟨A.LEG_TRIPSTAMP0 n, 0, 32⟩
def F.LEG_TRIPSTAMP1_STAMP (n : Nat) : Fld := ⟨A.LEG_TRIPSTAMP1 n, 0, 32⟩
def F.LEG_TRIPSRC_KINDS (n : Nat) : Fld := ⟨A.LEG_TRIPSRC n, 1, 7⟩
def F.LEG_TRIPCNT_REFUSED (n : Nat) : Fld := ⟨A.LEG_TRIPCNT n, 16, 16⟩
def F.LEG_TRIPCNT_TRIPS (n : Nat) : Fld := ⟨A.LEG_TRIPCNT n, 0, 16⟩

def F.TEAM_CARCFG_VALLEY (t : Nat) : Fld := ⟨A.TEAM_CARCFG t, 20, 4⟩
def F.TEAM_CARCFG_RSTSRC (t : Nat) : Fld := ⟨A.TEAM_CARCFG t, 8, 7⟩
def F.TEAM_CARCFG_RSTEDGE (t : Nat) : Fld := ⟨A.TEAM_CARCFG t, 6, 2⟩
def F.TEAM_CARCFG_CMPREF (t : Nat) : Fld := ⟨A.TEAM_CARCFG t, 2, 1⟩
def F.TEAM_CARCFG_FORM (t : Nat) : Fld := ⟨A.TEAM_CARCFG t, 0, 2⟩
def F.TEAM_PER_PER (t : Nat) : Fld := ⟨A.TEAM_PER t, 0, 25⟩
def F.TEAM_PERACT_PERACT (t : Nat) : Fld := ⟨A.TEAM_PERACT t, 0, 25⟩
def F.TEAM_RSTDLY_DLY (t : Nat) : Fld := ⟨A.TEAM_RSTDLY t, 0, 16⟩
def F.TEAM_DITHCFG_EN (t : Nat) : Fld := ⟨A.TEAM_DITHCFG t, 31, 1⟩
def F.TEAM_DITHCFG_SALT (t : Nat) : Fld := ⟨A.TEAM_DITHCFG t, 16, 8⟩
def F.TEAM_DITHCFG_DEPTH (t : Nat) : Fld := ⟨A.TEAM_DITHCFG t, 0, 12⟩
def F.TEAM_DITHSTAT_VALID (t : Nat) : Fld := ⟨A.TEAM_DITHSTAT t, 31, 1⟩
def F.TEAM_DITHSTAT_NOEPOCH (t : Nat) : Fld := ⟨A.TEAM_DITHSTAT t, 30, 1⟩
def F.TEAM_DITHSTAT_PAIR (t : Nat) : Fld := ⟨A.TEAM_DITHSTAT t, 29, 1⟩
def F.TEAM_DITHSTAT_EFFDEPTH (t : Nat) : Fld := ⟨A.TEAM_DITHSTAT t, 0, 12⟩
def F.TEAM_LFSR_LFSR (t : Nat) : Fld := ⟨A.TEAM_LFSR t, 0, 23⟩
def F.TEAM_SHCTL_UPDCNT (t : Nat) : Fld := ⟨A.TEAM_SHCTL t, 16, 16⟩
def F.TEAM_SHCTL_HOLD_EXP (t : Nat) : Fld := ⟨A.TEAM_SHCTL t, 1, 1⟩
def F.TEAM_SHCTL_HOLD (t : Nat) : Fld := ⟨A.TEAM_SHCTL t, 0, 1⟩
def F.TEAM_PCNT_PCNT (t : Nat) : Fld := ⟨A.TEAM_PCNT t, 0, 32⟩
def F.TEAM_VARSTAT_TMOCNT (t : Nat) : Fld := ⟨A.TEAM_VARSTAT t, 16, 16⟩
def F.TEAM_VARSTAT_FORM_REF (t : Nat) : Fld := ⟨A.TEAM_VARSTAT t, 2, 1⟩
def F.TEAM_VARSTAT_LASTEND (t : Nat) : Fld := ⟨A.TEAM_VARSTAT t, 0, 2⟩
def F.TEAM_CFG_NLEG (t : Nat) : Fld := ⟨A.TEAM_CFG t, 4, 3⟩
def F.TEAM_CFG_KIND (t : Nat) : Fld := ⟨A.TEAM_CFG t, 0, 2⟩
def F.TEAM_LEGMAP0_S3 (t : Nat) : Fld := ⟨A.TEAM_LEGMAP0 t, 24, 7⟩
def F.TEAM_LEGMAP0_S2 (t : Nat) : Fld := ⟨A.TEAM_LEGMAP0 t, 16, 7⟩
def F.TEAM_LEGMAP0_S1 (t : Nat) : Fld := ⟨A.TEAM_LEGMAP0 t, 8, 7⟩
def F.TEAM_LEGMAP0_S0 (t : Nat) : Fld := ⟨A.TEAM_LEGMAP0 t, 0, 7⟩
def F.TEAM_LEGMAP1_S3 (t : Nat) : Fld := ⟨A.TEAM_LEGMAP1 t, 24, 7⟩
def F.TEAM_LEGMAP1_S2 (t : Nat) : Fld := ⟨A.TEAM_LEGMAP1 t, 16, 7⟩
def F.TEAM_LEGMAP1_S1 (t : Nat) : Fld := ⟨A.TEAM_LEGMAP1 t, 8, 7⟩
def F.TEAM_LEGMAP1_S0 (t : Nat) : Fld := ⟨A.TEAM_LEGMAP1 t, 0, 7⟩
def F.TEAM_UPDMODE_MODE (t : Nat) : Fld := ⟨A.TEAM_UPDMODE t, 0, 2⟩
def F.TEAM_CTL_RESUME (t : Nat) : Fld := ⟨A.TEAM_CTL t, 1, 1⟩
def F.TEAM_CTL_EN (t : Nat) : Fld := ⟨A.TEAM_CTL t, 0, 1⟩
def F.TEAM_STAT_EN_REF (t : Nat) : Fld := ⟨A.TEAM_STAT t, 16, 1⟩
def F.TEAM_STAT_CFGERR (t : Nat) : Fld := ⟨A.TEAM_STAT t, 15, 1⟩
def F.TEAM_STAT_RES_REF (t : Nat) : Fld := ⟨A.TEAM_STAT t, 14, 1⟩
def F.TEAM_STAT_ASC_WAIT (t : Nat) : Fld := ⟨A.TEAM_STAT t, 13, 1⟩
def F.TEAM_STAT_DROPPED (t : Nat) : Fld := ⟨A.TEAM_STAT t, 12, 1⟩
def F.TEAM_STAT_SAFEKIND (t : Nat) : Fld := ⟨A.TEAM_STAT t, 10, 2⟩
def F.TEAM_STAT_CAUSE (t : Nat) : Fld := ⟨A.TEAM_STAT t, 4, 3⟩
def F.TEAM_STAT_STATE (t : Nat) : Fld := ⟨A.TEAM_STAT t, 0, 3⟩
def F.TEAM_SAFEFLT_FLT (t : Nat) : Fld := ⟨A.TEAM_SAFEFLT t, 0, 16⟩
def F.TEAM_ALNCFG_ALIGN (t : Nat) : Fld := ⟨A.TEAM_ALNCFG t, 0, 1⟩
def F.TEAM_EPOCHINT_INT (t : Nat) : Fld := ⟨A.TEAM_EPOCHINT t, 0, 25⟩
def F.TEAM_EPOCHOFS_OFS (t : Nat) : Fld := ⟨A.TEAM_EPOCHOFS t, 0, 32⟩
def F.TEAM_EPOCHIDX0_IDX (t : Nat) : Fld := ⟨A.TEAM_EPOCHIDX0 t, 0, 32⟩
def F.TEAM_EPOCHIDX1_IDX (t : Nat) : Fld := ⟨A.TEAM_EPOCHIDX1 t, 0, 32⟩
def F.TEAM_ALNSTAT_PER_REF (t : Nat) : Fld := ⟨A.TEAM_ALNSTAT t, 3, 1⟩
def F.TEAM_ALNSTAT_HOLDOVER (t : Nat) : Fld := ⟨A.TEAM_ALNSTAT t, 2, 1⟩
def F.TEAM_ALNSTAT_WAIT_LOCK (t : Nat) : Fld := ⟨A.TEAM_ALNSTAT t, 1, 1⟩
def F.TEAM_ALNSTAT_ALIGNED (t : Nat) : Fld := ⟨A.TEAM_ALNSTAT t, 0, 1⟩
def F.TEAM_SP_SP (t : Nat) : Fld := ⟨A.TEAM_SP t, 0, 32⟩
def F.TEAM_SPSTAT_GROUP (t : Nat) : Fld := ⟨A.TEAM_SPSTAT t, 4, 4⟩
def F.TEAM_SPSTAT_WR_IGN (t : Nat) : Fld := ⟨A.TEAM_SPSTAT t, 3, 1⟩
def F.TEAM_SPSTAT_SRC (t : Nat) : Fld := ⟨A.TEAM_SPSTAT t, 1, 2⟩
def F.TEAM_SPSTAT_VALID (t : Nat) : Fld := ⟨A.TEAM_SPSTAT t, 0, 1⟩

def F.MGRP_CFG_EN (g : Nat) : Fld := ⟨A.MGRP_CFG g, 31, 1⟩
def F.MGRP_CFG_NMEM (g : Nat) : Fld := ⟨A.MGRP_CFG g, 16, 5⟩
def F.MGRP_CFG_LEAD (g : Nat) : Fld := ⟨A.MGRP_CFG g, 8, 5⟩
def F.MGRP_TQCMD_TQ (g : Nat) : Fld := ⟨A.MGRP_TQCMD g, 0, 32⟩
def F.MGRP_STAT_VALID (g : Nat) : Fld := ⟨A.MGRP_STAT g, 31, 1⟩
def F.MGRP_STAT_DEV_OVF (g : Nat) : Fld := ⟨A.MGRP_STAT g, 30, 1⟩
def F.MGRP_STAT_RTT_MISS (g : Nat) : Fld := ⟨A.MGRP_STAT g, 29, 1⟩
def F.MGRP_STAT_SHORT (g : Nat) : Fld := ⟨A.MGRP_STAT g, 28, 1⟩
def F.MGRP_STAT_CFGERR (g : Nat) : Fld := ⟨A.MGRP_STAT g, 27, 1⟩
def F.MGRP_STAT_LIVE (g : Nat) : Fld := ⟨A.MGRP_STAT g, 0, 16⟩
def F.MGRP_TQALLOC_TQ (g : Nat) : Fld := ⟨A.MGRP_TQALLOC g, 0, 32⟩
def F.MGRP_SHORT_SHORT (g : Nat) : Fld := ⟨A.MGRP_SHORT g, 0, 32⟩
def F.MGRP_CNT_RESC (g : Nat) : Fld := ⟨A.MGRP_CNT g, 16, 16⟩
def F.MGRP_CNT_UNK (g : Nat) : Fld := ⟨A.MGRP_CNT g, 0, 16⟩
def F.MGRP_SHARE_SHARE (g m : Nat) : Fld := ⟨A.MGRP_SHARE g m, 0, 32⟩
def F.MGRP_MEMA_USED (g m : Nat) : Fld := ⟨A.MGRP_MEMA g m, 31, 1⟩
def F.MGRP_MEMA_LOC (g m : Nat) : Fld := ⟨A.MGRP_MEMA g m, 30, 1⟩
def F.MGRP_MEMA_DEV (g m : Nat) : Fld := ⟨A.MGRP_MEMA g m, 16, 12⟩
def F.MGRP_MEMA_TEAM (g m : Nat) : Fld := ⟨A.MGRP_MEMA g m, 0, 5⟩
def F.MGRP_MEMB_CAP (g m : Nat) : Fld := ⟨A.MGRP_MEMB g m, 16, 16⟩
def F.MGRP_MEMB_WEIGHT (g m : Nat) : Fld := ⟨A.MGRP_MEMB g m, 0, 16⟩

def F.SDM_CFG_RUNMAX (c : Nat) : Fld := ⟨A.SDM_CFG c, 24, 8⟩
def F.SDM_CFG_CAPDLY (c : Nat) : Fld := ⟨A.SDM_CFG c, 16, 5⟩
def F.SDM_CFG_LOSSTRIP (c : Nat) : Fld := ⟨A.SDM_CFG c, 15, 1⟩
def F.SDM_CFG_OCEN (c : Nat) : Fld := ⟨A.SDM_CFG c, 14, 1⟩
def F.SDM_CFG_POL (c : Nat) : Fld := ⟨A.SDM_CFG c, 13, 1⟩
def F.SDM_CFG_CKSEL (c : Nat) : Fld := ⟨A.SDM_CFG c, 8, 3⟩
def F.SDM_CFG_ERRMAX (c : Nat) : Fld := ⟨A.SDM_CFG c, 4, 4⟩
def F.SDM_CFG_MODE (c : Nat) : Fld := ⟨A.SDM_CFG c, 0, 2⟩
def F.SDM_TRG_KIND (c : Nat) : Fld := ⟨A.SDM_TRG c, 14, 2⟩
def F.SDM_TRG_SRC (c : Nat) : Fld := ⟨A.SDM_TRG c, 8, 2⟩
def F.SDM_TRG_LEG (c : Nat) : Fld := ⟨A.SDM_TRG c, 0, 7⟩
def F.SDM_OSR_TADJ (c : Nat) : Fld := ⟨A.SDM_OSR c, 24, 6⟩
def F.SDM_OSR_OCOSR (c : Nat) : Fld := ⟨A.SDM_OSR c, 16, 6⟩
def F.SDM_OSR_OSR (c : Nat) : Fld := ⟨A.SDM_OSR c, 0, 9⟩
def F.SDM_GAIN_GAIN (c : Nat) : Fld := ⟨A.SDM_GAIN c, 0, 32⟩
def F.SDM_SCALE_SHIFT (c : Nat) : Fld := ⟨A.SDM_SCALE c, 0, 5⟩
def F.SDM_OFS_OFS (c : Nat) : Fld := ⟨A.SDM_OFS c, 0, 32⟩
def F.SDM_OCHI_THR (c : Nat) : Fld := ⟨A.SDM_OCHI c, 0, 32⟩
def F.SDM_OCLO_THR (c : Nat) : Fld := ⟨A.SDM_OCLO c, 0, 32⟩
def F.SDM_STAT_VALID (c : Nat) : Fld := ⟨A.SDM_STAT c, 31, 1⟩
def F.SDM_STAT_OCVALID (c : Nat) : Fld := ⟨A.SDM_STAT c, 30, 1⟩
def F.SDM_STAT_OCHI_ACT (c : Nat) : Fld := ⟨A.SDM_STAT c, 29, 1⟩
def F.SDM_STAT_OCLO_ACT (c : Nat) : Fld := ⟨A.SDM_STAT c, 28, 1⟩
def F.SDM_STAT_LOCK (c : Nat) : Fld := ⟨A.SDM_STAT c, 27, 1⟩
def F.SDM_STAT_WARM (c : Nat) : Fld := ⟨A.SDM_STAT c, 16, 2⟩
def F.SDM_STAT_WR_REF (c : Nat) : Fld := ⟨A.SDM_STAT c, 7, 1⟩
def F.SDM_STAT_SAT (c : Nat) : Fld := ⟨A.SDM_STAT c, 6, 1⟩
def F.SDM_STAT_TRG_SKIP (c : Nat) : Fld := ⟨A.SDM_STAT c, 5, 1⟩
def F.SDM_STAT_LOSS (c : Nat) : Fld := ⟨A.SDM_STAT c, 4, 1⟩
def F.SDM_RES_DATA (c : Nat) : Fld := ⟨A.SDM_RES c, 0, 32⟩
def F.SDM_RESSTAMP0_DATA (c : Nat) : Fld := ⟨A.SDM_RESSTAMP0 c, 0, 32⟩
def F.SDM_RESSTAMP1_DATA (c : Nat) : Fld := ⟨A.SDM_RESSTAMP1 c, 0, 32⟩
def F.SDM_OCRES_RES (c : Nat) : Fld := ⟨A.SDM_OCRES c, 0, 32⟩
def F.SDM_CNT_SATCNT (c : Nat) : Fld := ⟨A.SDM_CNT c, 16, 16⟩
def F.SDM_CNT_SKIPCNT (c : Nat) : Fld := ⟨A.SDM_CNT c, 0, 16⟩
def F.SDM_ERRCNT_DECERR (c : Nat) : Fld := ⟨A.SDM_ERRCNT c, 16, 16⟩
def F.SDM_ERRCNT_LOSSCNT (c : Nat) : Fld := ⟨A.SDM_ERRCNT c, 0, 16⟩
def F.SDM_MANPER_PER (c : Nat) : Fld := ⟨A.SDM_MANPER c, 0, 16⟩
def F.SDM_EYE_MASK (c : Nat) : Fld := ⟨A.SDM_EYE c, 0, 16⟩
def F.SDM_PKHI_PEAK (c : Nat) : Fld := ⟨A.SDM_PKHI c, 0, 32⟩
def F.SDM_PKLO_PEAK (c : Nat) : Fld := ⟨A.SDM_PKLO c, 0, 32⟩
def F.SDM_CKCFG_EN (g : Nat) : Fld := ⟨A.SDM_CKCFG g, 4, 1⟩
def F.SDM_CKCFG_PH (g : Nat) : Fld := ⟨A.SDM_CKCFG g, 0, 4⟩
def F.SDM_TEAMDLY_DLY (t : Nat) : Fld := ⟨A.SDM_TEAMDLY t, 0, 16⟩

def F.CE_CTL_BGLANES : Fld := ⟨A.CE_CTL, 8, 4⟩
def F.CE_CTL_SCRUB : Fld := ⟨A.CE_CTL, 1, 1⟩
def F.CE_CTL_EN : Fld := ⟨A.CE_CTL, 0, 1⟩
def F.CE_STAT_READY : Fld := ⟨A.CE_STAT, 8, 6⟩
def F.CE_STAT_BUSY : Fld := ⟨A.CE_STAT, 0, 5⟩
def F.CE_TBLBANK_BANK : Fld := ⟨A.CE_TBLBANK, 0, 2⟩
def F.CE_CAPPAGE_PAGE : Fld := ⟨A.CE_CAPPAGE, 0, 6⟩
def F.CE_ECCCNT_CORR : Fld := ⟨A.CE_ECCCNT, 16, 16⟩
def F.CE_ECCCNT_DED : Fld := ⟨A.CE_ECCCNT, 0, 16⟩
def F.CE_ECCADDR_MEM : Fld := ⟨A.CE_ECCADDR, 28, 4⟩
def F.CE_ECCADDR_WORD : Fld := ⟨A.CE_ECCADDR, 0, 18⟩
def F.CE_LOAD_PEAK : Fld := ⟨A.CE_LOAD, 16, 16⟩
def F.CE_LOAD_MEAN : Fld := ⟨A.CE_LOAD, 0, 16⟩
def F.CE_BGCFG_GO (b : Nat) : Fld := ⟨A.CE_BGCFG b, 31, 1⟩
def F.CE_BGCFG_PER (b : Nat) : Fld := ⟨A.CE_BGCFG b, 0, 24⟩
def F.CE_TSTAT_RUNNING (k : Nat) : Fld := ⟨A.CE_TSTAT k, 31, 1⟩
def F.CE_TSTAT_PEND (k : Nat) : Fld := ⟨A.CE_TSTAT k, 30, 1⟩
def F.CE_TSTAT_WCET_EXC (k : Nat) : Fld := ⟨A.CE_TSTAT k, 29, 1⟩
def F.CE_TSTAT_MAPERR (k : Nat) : Fld := ⟨A.CE_TSTAT k, 28, 1⟩
def F.CE_TSTAT_SAT_ANY (k : Nat) : Fld := ⟨A.CE_TSTAT k, 27, 1⟩
def F.CE_TSTAT_UFLAG (k : Nat) : Fld := ⟨A.CE_TSTAT k, 16, 8⟩
def F.CE_TSTAT_CONSEC (k : Nat) : Fld := ⟨A.CE_TSTAT k, 8, 8⟩
def F.CE_TSTAT_CSEL (k : Nat) : Fld := ⟨A.CE_TSTAT k, 0, 1⟩
def F.CE_TOVR_OVRCNT (k : Nat) : Fld := ⟨A.CE_TOVR k, 16, 16⟩
def F.CE_TOVR_LATECNT (k : Nat) : Fld := ⟨A.CE_TOVR k, 0, 16⟩
def F.CE_TDISC_DISCNT (k : Nat) : Fld := ⟨A.CE_TDISC k, 16, 16⟩
def F.CE_TDISC_SKIPCNT (k : Nat) : Fld := ⟨A.CE_TDISC k, 0, 16⟩
def F.CE_TSAT_SATCNT (k : Nat) : Fld := ⟨A.CE_TSAT k, 0, 32⟩
def F.CE_TCYC_MAXCYC (k : Nat) : Fld := ⟨A.CE_TCYC k, 0, 32⟩
def F.CE_TRESP_MAXRESP (k : Nat) : Fld := ⟨A.CE_TRESP k, 0, 32⟩
def F.CE_TREL_STAMP (k : Nat) : Fld := ⟨A.CE_TREL k, 0, 32⟩
def F.CE_TCOMMIT_STAMP (k : Nat) : Fld := ⟨A.CE_TCOMMIT k, 0, 32⟩
def F.CE_GENCFG_HOLD (g : Nat) : Fld := ⟨A.CE_GENCFG g, 24, 8⟩
def F.CE_GENCFG_NTONE (g : Nat) : Fld := ⟨A.CE_GENCFG g, 16, 5⟩
def F.CE_GENCFG_TASK (g : Nat) : Fld := ⟨A.CE_GENCFG g, 8, 6⟩
def F.CE_GENCFG_MODE (g : Nat) : Fld := ⟨A.CE_GENCFG g, 0, 3⟩
def F.CE_GENAMP_VAL (g : Nat) : Fld := ⟨A.CE_GENAMP g, 0, 32⟩
def F.CE_GENOFS_VAL (g : Nat) : Fld := ⟨A.CE_GENOFS g, 0, 32⟩
def F.CE_GENF0_VAL (g : Nat) : Fld := ⟨A.CE_GENF0 g, 0, 32⟩
def F.CE_GENDF_VAL (g : Nat) : Fld := ⟨A.CE_GENDF g, 0, 32⟩
def F.CE_GENNSTEP_N (g : Nat) : Fld := ⟨A.CE_GENNSTEP g, 0, 32⟩
def F.CE_GENSTART0_STAMP (g : Nat) : Fld := ⟨A.CE_GENSTART0 g, 0, 32⟩
def F.CE_GENSTART1_STAMP (g : Nat) : Fld := ⟨A.CE_GENSTART1 g, 0, 32⟩
def F.CE_GENCTL_ABORT (g : Nat) : Fld := ⟨A.CE_GENCTL g, 1, 1⟩
def F.CE_GENCTL_GO (g : Nat) : Fld := ⟨A.CE_GENCTL g, 0, 1⟩
def F.CE_GENSTAT_RUN (g : Nat) : Fld := ⟨A.CE_GENSTAT g, 31, 1⟩
def F.CE_GENSTAT_WAIT (g : Nat) : Fld := ⟨A.CE_GENSTAT g, 30, 1⟩
def F.CE_GENSTAT_DONE (g : Nat) : Fld := ⟨A.CE_GENSTAT g, 29, 1⟩
def F.CE_GENSTAT_ABORTED (g : Nat) : Fld := ⟨A.CE_GENSTAT g, 28, 1⟩
def F.CE_GENSTAT_STEP (g : Nat) : Fld := ⟨A.CE_GENSTAT g, 0, 28⟩
def F.CE_GENOUT_OUT (g : Nat) : Fld := ⟨A.CE_GENOUT g, 0, 32⟩
def F.CE_CAPCFG_RING (s : Nat) : Fld := ⟨A.CE_CAPCFG s, 31, 1⟩
def F.CE_CAPCFG_STAMP (s : Nat) : Fld := ⟨A.CE_CAPCFG s, 30, 1⟩
def F.CE_CAPCFG_ARMSRC (s : Nat) : Fld := ⟨A.CE_CAPCFG s, 29, 1⟩
def F.CE_CAPCFG_GEN (s : Nat) : Fld := ⟨A.CE_CAPCFG s, 25, 2⟩
def F.CE_CAPRANGE_LENM1 (s : Nat) : Fld := ⟨A.CE_CAPRANGE s, 16, 16⟩
def F.CE_CAPRANGE_BASE (s : Nat) : Fld := ⟨A.CE_CAPRANGE s, 0, 16⟩
def F.CE_CAPCTL_STOP (s : Nat) : Fld := ⟨A.CE_CAPCTL s, 1, 1⟩
def F.CE_CAPCTL_ARM (s : Nat) : Fld := ⟨A.CE_CAPCTL s, 0, 1⟩
def F.CE_CAPSTAT_WRAP (s : Nat) : Fld := ⟨A.CE_CAPSTAT s, 2, 1⟩
def F.CE_CAPSTAT_DONE (s : Nat) : Fld := ⟨A.CE_CAPSTAT s, 1, 1⟩
def F.CE_CAPSTAT_ARMED (s : Nat) : Fld := ⟨A.CE_CAPSTAT s, 0, 1⟩
def F.CE_CAPPTR_PTR (s : Nat) : Fld := ⟨A.CE_CAPPTR s, 0, 16⟩
def F.CE_CAPDROP_DROP (s : Nat) : Fld := ⟨A.CE_CAPDROP s, 0, 32⟩
def F.CE_OBS_VALID (t : Nat) : Fld := ⟨A.CE_OBS t, 31, 1⟩
def F.CE_OBS_MODE (t : Nat) : Fld := ⟨A.CE_OBS t, 28, 2⟩
def F.CE_OBS_SETTLE (t : Nat) : Fld := ⟨A.CE_OBS t, 0, 16⟩
def F.CE_OBSCNT_RSTCNT (t : Nat) : Fld := ⟨A.CE_OBSCNT t, 16, 16⟩
def F.CE_OBSCNT_COUNT (t : Nat) : Fld := ⟨A.CE_OBSCNT t, 0, 16⟩
def F.CE_GRPCTL_TQOUT (g : Nat) : Fld := ⟨A.CE_GRPCTL g, 31, 1⟩
def F.CE_GRPCTL_WR_IGN (g : Nat) : Fld := ⟨A.CE_GRPCTL g, 30, 1⟩

def F.FBK_CFG_TEAM (p : Nat) : Fld := ⟨A.FBK_CFG p, 16, 5⟩
def F.FBK_CFG_LADEN (p : Nat) : Fld := ⟨A.FBK_CFG p, 14, 1⟩
def F.FBK_CFG_ZPOL (p : Nat) : Fld := ⟨A.FBK_CFG p, 13, 1⟩
def F.FBK_CFG_IDXGATE (p : Nat) : Fld := ⟨A.FBK_CFG p, 12, 1⟩
def F.FBK_CFG_FILT (p : Nat) : Fld := ⟨A.FBK_CFG p, 6, 6⟩
def F.FBK_CFG_DIRINV (p : Nat) : Fld := ⟨A.FBK_CFG p, 3, 1⟩
def F.FBK_CFG_MODE (p : Nat) : Fld := ⟨A.FBK_CFG p, 0, 3⟩
def F.FBK_STAT_POSVALID (p : Nat) : Fld := ⟨A.FBK_STAT p, 31, 1⟩
def F.FBK_STAT_SPDVALID (p : Nat) : Fld := ⟨A.FBK_STAT p, 30, 1⟩
def F.FBK_STAT_DIR (p : Nat) : Fld := ⟨A.FBK_STAT p, 29, 1⟩
def F.FBK_STAT_ZERO (p : Nat) : Fld := ⟨A.FBK_STAT p, 28, 1⟩
def F.FBK_STAT_LOST (p : Nat) : Fld := ⟨A.FBK_STAT p, 27, 1⟩
def F.FBK_STAT_LADDER (p : Nat) : Fld := ⟨A.FBK_STAT p, 24, 3⟩
def F.FBK_STAT_CFGERR (p : Nat) : Fld := ⟨A.FBK_STAT p, 17, 1⟩
def F.FBK_STAT_SSIBUSY (p : Nat) : Fld := ⟨A.FBK_STAT p, 16, 1⟩
def F.FBK_STAT_LOSS (p : Nat) : Fld := ⟨A.FBK_STAT p, 15, 1⟩
def F.FBK_STAT_IDXERR (p : Nat) : Fld := ⟨A.FBK_STAT p, 14, 1⟩
def F.FBK_STAT_IDXCOR (p : Nat) : Fld := ⟨A.FBK_STAT p, 13, 1⟩
def F.FBK_STAT_DIRCHG (p : Nat) : Fld := ⟨A.FBK_STAT p, 12, 1⟩
def F.FBK_STAT_HALLBAD (p : Nat) : Fld := ⟨A.FBK_STAT p, 11, 1⟩
def F.FBK_STAT_SSIERR (p : Nat) : Fld := ⟨A.FBK_STAT p, 10, 1⟩
def F.FBK_STAT_FROZEN (p : Nat) : Fld := ⟨A.FBK_STAT p, 9, 1⟩
def F.FBK_STAT_QERR (p : Nat) : Fld := ⟨A.FBK_STAT p, 8, 1⟩
def F.FBK_STAT_GLITCH (p : Nat) : Fld := ⟨A.FBK_STAT p, 7, 1⟩
def F.FBK_STAT_HSKIP (p : Nat) : Fld := ⟨A.FBK_STAT p, 6, 1⟩
def F.FBK_STAT_SPDSAT (p : Nat) : Fld := ⟨A.FBK_STAT p, 5, 1⟩
def F.FBK_STAT_PRB (p : Nat) : Fld := ⟨A.FBK_STAT p, 4, 1⟩
def F.FBK_STAT_PRBOVR (p : Nat) : Fld := ⟨A.FBK_STAT p, 3, 1⟩
def F.FBK_STAT_CMPSKIP (p : Nat) : Fld := ⟨A.FBK_STAT p, 2, 1⟩
def F.FBK_IEN_CMP (p : Nat) : Fld := ⟨A.FBK_IEN p, 16, 4⟩
def F.FBK_IEN_STAT (p : Nat) : Fld := ⟨A.FBK_IEN p, 2, 14⟩
def F.FBK_POS0_POS (p : Nat) : Fld := ⟨A.FBK_POS0 p, 0, 32⟩
def F.FBK_POS1_POS (p : Nat) : Fld := ⟨A.FBK_POS1 p, 0, 32⟩
def F.FBK_POSSET_VALUE (p : Nat) : Fld := ⟨A.FBK_POSSET p, 0, 32⟩
def F.FBK_POSSTAMP_STAMP (p : Nat) : Fld := ⟨A.FBK_POSSTAMP p, 0, 32⟩
def F.FBK_SPD_SPD (p : Nat) : Fld := ⟨A.FBK_SPD p, 0, 32⟩
def F.FBK_SPDK_K (p : Nat) : Fld := ⟨A.FBK_SPDK p, 0, 32⟩
def F.FBK_SPDCFG_SPAN (p : Nat) : Fld := ⟨A.FBK_SPDCFG p, 0, 8⟩
def F.FBK_SPDMIN_MIN (p : Nat) : Fld := ⟨A.FBK_SPDMIN p, 0, 32⟩
def F.FBK_LOSSCFG_LOSSSPD (p : Nat) : Fld := ⟨A.FBK_LOSSCFG p, 16, 16⟩
def F.FBK_LOSSCFG_CRCMAX (p : Nat) : Fld := ⟨A.FBK_LOSSCFG p, 12, 4⟩
def F.FBK_LOSSCFG_LOSSSH (p : Nat) : Fld := ⟨A.FBK_LOSSCFG p, 8, 3⟩
def F.FBK_FRZCFG_FRZSPD (p : Nat) : Fld := ⟨A.FBK_FRZCFG p, 16, 16⟩
def F.FBK_FRZCFG_FRZT (p : Nat) : Fld := ⟨A.FBK_FRZCFG p, 0, 16⟩
def F.FBK_MOTWORD_EN (p : Nat) : Fld := ⟨A.FBK_MOTWORD p, 31, 1⟩
def F.FBK_MOTWORD_SWORD (p : Nat) : Fld := ⟨A.FBK_MOTWORD p, 0, 13⟩
def F.FBK_LADCFG_RAMPT (p : Nat) : Fld := ⟨A.FBK_LADCFG p, 16, 16⟩
def F.FBK_LADCFG_XOVER (p : Nat) : Fld := ⟨A.FBK_LADCFG p, 0, 16⟩
def F.FBK_RATED_RATED (p : Nat) : Fld := ⟨A.FBK_RATED p, 0, 32⟩
def F.FBK_RAMPF_F (p : Nat) : Fld := ⟨A.FBK_RAMPF p, 0, 17⟩
def F.FBK_IDXN_VALUE (p : Nat) : Fld := ⟨A.FBK_IDXN p, 0, 32⟩
def F.FBK_IDXREF_VALUE (p : Nat) : Fld := ⟨A.FBK_IDXREF p, 0, 32⟩
def F.FBK_IDXTOL_TOL (p : Nat) : Fld := ⟨A.FBK_IDXTOL p, 0, 16⟩
def F.FBK_IDXPOS_VALUE (p : Nat) : Fld := ⟨A.FBK_IDXPOS p, 0, 32⟩
def F.FBK_IDXCOR_VALUE (p : Nat) : Fld := ⟨A.FBK_IDXCOR p, 0, 32⟩
def F.FBK_IDXCNT_ERRS (p : Nat) : Fld := ⟨A.FBK_IDXCNT p, 16, 16⟩
def F.FBK_IDXCNT_EVENTS (p : Nat) : Fld := ⟨A.FBK_IDXCNT p, 0, 16⟩
def F.FBK_HALLMAP_MAP (p : Nat) : Fld := ⟨A.FBK_HALLMAP p, 3, 18⟩
def F.FBK_SSIFMT_GRAY (p : Nat) : Fld := ⟨A.FBK_SSIFMT p, 31, 1⟩
def F.FBK_SSIFMT_ERRPOL (p : Nat) : Fld := ⟨A.FBK_SSIFMT p, 30, 1⟩
def F.FBK_SSIFMT_CRCINV (p : Nat) : Fld := ⟨A.FBK_SSIFMT p, 29, 1⟩
def F.FBK_SSIFMT_CRCW (p : Nat) : Fld := ⟨A.FBK_SSIFMT p, 20, 4⟩
def F.FBK_SSIFMT_ERRW (p : Nat) : Fld := ⟨A.FBK_SSIFMT p, 16, 3⟩
def F.FBK_SSIFMT_POSW (p : Nat) : Fld := ⟨A.FBK_SSIFMT p, 8, 6⟩
def F.FBK_SSITIM_HALF (p : Nat) : Fld := ⟨A.FBK_SSITIM p, 20, 12⟩
def F.FBK_SSITIM_SMPDLY (p : Nat) : Fld := ⟨A.FBK_SSITIM p, 12, 8⟩
def F.FBK_SSITIM_LATDLY (p : Nat) : Fld := ⟨A.FBK_SSITIM p, 0, 12⟩
def F.FBK_SSICRC_INIT (p : Nat) : Fld := ⟨A.FBK_SSICRC p, 8, 8⟩
def F.FBK_SSICRC_POLY (p : Nat) : Fld := ⟨A.FBK_SSICRC p, 0, 8⟩
def F.FBK_SSIREQ_SRC (p : Nat) : Fld := ⟨A.FBK_SSIREQ p, 30, 2⟩
def F.FBK_SSIREQ_GO (p : Nat) : Fld := ⟨A.FBK_SSIREQ p, 29, 1⟩
def F.FBK_SSIREQ_YOKSHARE (p : Nat) : Fld := ⟨A.FBK_SSIREQ p, 28, 1⟩
def F.FBK_SSIREQ_TRGSEL (p : Nat) : Fld := ⟨A.FBK_SSIREQ p, 26, 2⟩
def F.FBK_SSIREQ_LEG (p : Nat) : Fld := ⟨A.FBK_SSIREQ p, 16, 7⟩
def F.FBK_SSIREQ_RECOV (p : Nat) : Fld := ⟨A.FBK_SSIREQ p, 0, 16⟩
def F.FBK_SSIPER_PER (p : Nat) : Fld := ⟨A.FBK_SSIPER p, 0, 24⟩
def F.FBK_SSIRAW0_RAW (p : Nat) : Fld := ⟨A.FBK_SSIRAW0 p, 0, 32⟩
def F.FBK_SSIRAW1_RAW (p : Nat) : Fld := ⟨A.FBK_SSIRAW1 p, 0, 32⟩
def F.FBK_SSICNT_ERR (p : Nat) : Fld := ⟨A.FBK_SSICNT p, 16, 16⟩
def F.FBK_SSICNT_SKIP (p : Nat) : Fld := ⟨A.FBK_SSICNT p, 0, 16⟩
def F.FBK_CNT_GLITCH (p : Nat) : Fld := ⟨A.FBK_CNT p, 16, 16⟩
def F.FBK_CNT_HSKIP (p : Nat) : Fld := ⟨A.FBK_CNT p, 0, 16⟩
def F.FBK_PRBCFG_ARM (p : Nat) : Fld := ⟨A.FBK_PRBCFG p, 31, 1⟩
def F.FBK_PRBCFG_CONT (p : Nat) : Fld := ⟨A.FBK_PRBCFG p, 30, 1⟩
def F.FBK_PRBCFG_EDGE (p : Nat) : Fld := ⟨A.FBK_PRBCFG p, 28, 2⟩
def F.FBK_PRBCFG_FILT (p : Nat) : Fld := ⟨A.FBK_PRBCFG p, 8, 6⟩
def F.FBK_PRBPOS_DATA (p : Nat) : Fld := ⟨A.FBK_PRBPOS p, 0, 32⟩
def F.FBK_PRBSTAMP0_DATA (p : Nat) : Fld := ⟨A.FBK_PRBSTAMP0 p, 0, 32⟩
def F.FBK_PRBSTAMP1_DATA (p : Nat) : Fld := ⟨A.FBK_PRBSTAMP1 p, 0, 32⟩
def F.FBK_CMPCFG_EN (p k : Nat) : Fld := ⟨A.FBK_CMPCFG p k, 31, 1⟩
def F.FBK_CMPCFG_POLICY (p k : Nat) : Fld := ⟨A.FBK_CMPCFG p k, 30, 1⟩
def F.FBK_CMPCFG_RELOAD (p k : Nat) : Fld := ⟨A.FBK_CMPCFG p k, 29, 1⟩
def F.FBK_CMPCFG_EVT (p k : Nat) : Fld := ⟨A.FBK_CMPCFG p k, 28, 1⟩
def F.FBK_CMPCFG_OUT (p k : Nat) : Fld := ⟨A.FBK_CMPCFG p k, 26, 2⟩
def F.FBK_CMPCFG_WIDTH (p k : Nat) : Fld := ⟨A.FBK_CMPCFG p k, 8, 8⟩
def F.FBK_CMPTGT_VALUE (p k : Nat) : Fld := ⟨A.FBK_CMPTGT p k, 0, 32⟩
def F.FBK_CMPINC_VALUE (p k : Nat) : Fld := ⟨A.FBK_CMPINC p k, 0, 32⟩
def F.FBK_CMPSTAT_FIRED (p k : Nat) : Fld := ⟨A.FBK_CMPSTAT p k, 31, 1⟩
def F.FBK_CMPSTAT_BEHIND (p k : Nat) : Fld := ⟨A.FBK_CMPSTAT p k, 30, 1⟩
def F.FBK_CMPSTAT_SKIP (p k : Nat) : Fld := ⟨A.FBK_CMPSTAT p k, 29, 1⟩
def F.FBK_CMPSTAT_FIRECNT (p k : Nat) : Fld := ⟨A.FBK_CMPSTAT p k, 0, 16⟩
def F.FBK_CMPSTAMP_STAMP (p k : Nat) : Fld := ⟨A.FBK_CMPSTAMP p k, 0, 32⟩

def F.FBO_CFG_ACTONLY (m : Nat) : Fld := ⟨A.FBO_CFG m, 31, 1⟩
def F.FBO_CFG_FALLBK (m : Nat) : Fld := ⟨A.FBO_CFG m, 30, 1⟩
def F.FBO_CFG_SPACE (m : Nat) : Fld := ⟨A.FBO_CFG m, 16, 8⟩
def F.FBO_CFG_ESTSRC (m : Nat) : Fld := ⟨A.FBO_CFG m, 12, 1⟩
def F.FBO_CFG_SRC (m : Nat) : Fld := ⟨A.FBO_CFG m, 8, 3⟩
def F.FBO_CFG_MODE (m : Nat) : Fld := ⟨A.FBO_CFG m, 0, 2⟩
def F.FBO_RATIO_M (m : Nat) : Fld := ⟨A.FBO_RATIO m, 16, 16⟩
def F.FBO_RATIO_N (m : Nat) : Fld := ⟨A.FBO_RATIO m, 0, 16⟩
def F.FBO_ZN_ZN (m : Nat) : Fld := ⟨A.FBO_ZN m, 0, 32⟩
def F.FBO_ESTW_SWORD (m : Nat) : Fld := ⟨A.FBO_ESTW m, 0, 13⟩
def F.FBO_STAT_DRIVEN (m : Nat) : Fld := ⟨A.FBO_STAT m, 31, 1⟩
def F.FBO_STAT_SYNTH (m : Nat) : Fld := ⟨A.FBO_STAT m, 30, 1⟩
def F.FBO_STAT_EST (m : Nat) : Fld := ⟨A.FBO_STAT m, 29, 1⟩
def F.FBO_STAT_CATCH (m : Nat) : Fld := ⟨A.FBO_STAT m, 28, 1⟩
def F.FBO_OUTCNT_OUT (m : Nat) : Fld := ⟨A.FBO_OUTCNT m, 0, 32⟩

def F.CMP_CFG_SPER (k : Nat) : Fld := ⟨A.CMP_CFG k, 8, 5⟩
def F.CMP_CFG_HYS (k : Nat) : Fld := ⟨A.CMP_CFG k, 4, 2⟩
def F.CMP_CFG_FUNC (k : Nat) : Fld := ⟨A.CMP_CFG k, 2, 1⟩
def F.CMP_CFG_MODE (k : Nat) : Fld := ⟨A.CMP_CFG k, 0, 2⟩
def F.CMP_THRLO_THR (k : Nat) : Fld := ⟨A.CMP_THRLO k, 0, 10⟩
def F.CMP_THRHI_THR (k : Nat) : Fld := ⟨A.CMP_THRHI k, 0, 10⟩
def F.CMP_MAP_SCOPE (k : Nat) : Fld := ⟨A.CMP_MAP k, 30, 2⟩
def F.CMP_MAP_PATH_H (k : Nat) : Fld := ⟨A.CMP_MAP k, 28, 2⟩
def F.CMP_MAP_PATH_L (k : Nat) : Fld := ⟨A.CMP_MAP k, 26, 2⟩
def F.CMP_MAP_FILTN (k : Nat) : Fld := ⟨A.CMP_MAP k, 16, 8⟩
def F.CMP_MAP_LEG (k : Nat) : Fld := ⟨A.CMP_MAP k, 0, 7⟩
def F.CMP_TEAMS_TEAMS (k : Nat) : Fld := ⟨A.CMP_TEAMS k, 0, 24⟩
def F.CMP_STAT_H (k : Nat) : Fld := ⟨A.CMP_STAT k, 31, 1⟩
def F.CMP_STAT_L (k : Nat) : Fld := ⟨A.CMP_STAT k, 30, 1⟩
def F.CMP_STAT_INBAND_H (k : Nat) : Fld := ⟨A.CMP_STAT k, 29, 1⟩
def F.CMP_STAT_INBAND_L (k : Nat) : Fld := ⟨A.CMP_STAT k, 28, 1⟩
def F.CMP_STAT_SVALID (k : Nat) : Fld := ⟨A.CMP_STAT k, 27, 1⟩
def F.CMP_STAT_CFGERR (k : Nat) : Fld := ⟨A.CMP_STAT k, 26, 1⟩
def F.CMP_STAT_H_SEEN (k : Nat) : Fld := ⟨A.CMP_STAT k, 17, 1⟩
def F.CMP_STAT_L_SEEN (k : Nat) : Fld := ⟨A.CMP_STAT k, 16, 1⟩
def F.CMP_STAMP0_STAMP (k : Nat) : Fld := ⟨A.CMP_STAMP0 k, 0, 32⟩
def F.CMP_STAMP1_STAMP (k : Nat) : Fld := ⟨A.CMP_STAMP1 k, 0, 32⟩
def F.CMP_CNT_HCNT (k : Nat) : Fld := ⟨A.CMP_CNT k, 16, 16⟩
def F.CMP_CNT_LCNT (k : Nat) : Fld := ⟨A.CMP_CNT k, 0, 16⟩

def F.PRT_SDMMAP_SCOPE (c : Nat) : Fld := ⟨A.PRT_SDMMAP c, 30, 2⟩
def F.PRT_SDMMAP_FILTN (c : Nat) : Fld := ⟨A.PRT_SDMMAP c, 16, 8⟩
def F.PRT_SDMMAP_LEG (c : Nat) : Fld := ⟨A.PRT_SDMMAP c, 0, 7⟩
def F.PRT_SDMTEAMS_TEAMS (c : Nat) : Fld := ⟨A.PRT_SDMTEAMS c, 0, 24⟩
def F.PRT_TINCFG_SCOPE (i : Nat) : Fld := ⟨A.PRT_TINCFG i, 30, 2⟩
def F.PRT_TINCFG_POL (i : Nat) : Fld := ⟨A.PRT_TINCFG i, 29, 1⟩
def F.PRT_TINCFG_FILTN (i : Nat) : Fld := ⟨A.PRT_TINCFG i, 16, 8⟩
def F.PRT_TINCFG_LEG (i : Nat) : Fld := ⟨A.PRT_TINCFG i, 0, 7⟩
def F.PRT_TINTEAMS_TEAMS (i : Nat) : Fld := ⟨A.PRT_TINTEAMS i, 0, 24⟩
def F.PRT_STAT_SAFE : Fld := ⟨A.PRT_STAT, 31, 1⟩
def F.PRT_STAT_TIN : Fld := ⟨A.PRT_STAT, 0, 8⟩
def F.PRT_SAFECNT_COUNT : Fld := ⟨A.PRT_SAFECNT, 0, 16⟩

def F.YOK_CFG_YOKED : Fld := ⟨A.YOK_CFG, 31, 1⟩
def F.YOK_CFG_PREF : Fld := ⟨A.YOK_CFG, 30, 1⟩
def F.YOK_CFG_COLDTAKE : Fld := ⟨A.YOK_CFG, 29, 1⟩
def F.YOK_CFG_HBPER : Fld := ⟨A.YOK_CFG, 16, 8⟩
def F.YOK_CFG_HBTMO : Fld := ⟨A.YOK_CFG, 12, 4⟩
def F.YOK_CFG_JOINTMO : Fld := ⟨A.YOK_CFG, 0, 12⟩
def F.YOK_CTL_RELEASE : Fld := ⟨A.YOK_CTL, 0, 1⟩
def F.YOK_WDCFG_WDT : Fld := ⟨A.YOK_WDCFG, 0, 16⟩
def F.YOK_WDKICK_KICK : Fld := ⟨A.YOK_WDKICK, 0, 1⟩
def F.YOK_STAT_ROLE : Fld := ⟨A.YOK_STAT, 29, 3⟩
def F.YOK_STAT_READY : Fld := ⟨A.YOK_STAT, 28, 1⟩
def F.YOK_STAT_PREADY : Fld := ⟨A.YOK_STAT, 27, 1⟩
def F.YOK_STAT_VIEW : Fld := ⟨A.YOK_STAT, 26, 1⟩
def F.YOK_STAT_PVIEW : Fld := ⟨A.YOK_STAT, 25, 1⟩
def F.YOK_STAT_ACTOUT : Fld := ⟨A.YOK_STAT, 24, 1⟩
def F.YOK_STAT_ACTIN : Fld := ⟨A.YOK_STAT, 23, 1⟩
def F.YOK_STAT_LANE1 : Fld := ⟨A.YOK_STAT, 22, 1⟩
def F.YOK_STAT_LANE0 : Fld := ⟨A.YOK_STAT, 21, 1⟩
def F.YOK_STAT_LINK : Fld := ⟨A.YOK_STAT, 20, 1⟩
def F.YOK_STAT_IDMATCH : Fld := ⟨A.YOK_STAT, 19, 1⟩
def F.YOK_STAT_CONFLICT : Fld := ⟨A.YOK_STAT, 7, 1⟩
def F.YOK_STAT_REL_REF : Fld := ⟨A.YOK_STAT, 6, 1⟩
def F.YOK_STAT_DIVERGE : Fld := ⟨A.YOK_STAT, 5, 1⟩
def F.YOK_STAT_LATE : Fld := ⟨A.YOK_STAT, 4, 1⟩
def F.YOK_STAT_TAKEOVER : Fld := ⟨A.YOK_STAT, 3, 1⟩
def F.YOK_STAT_HBLOSS : Fld := ⟨A.YOK_STAT, 2, 1⟩
def F.YOK_STAT_LINKLOSS : Fld := ⟨A.YOK_STAT, 1, 1⟩
def F.YOK_TAKE0_DATA : Fld := ⟨A.YOK_TAKE0, 0, 32⟩
def F.YOK_TAKE1_DATA : Fld := ⟨A.YOK_TAKE1, 0, 32⟩
def F.YOK_RELCAUSE_CAUSE : Fld := ⟨A.YOK_RELCAUSE, 0, 3⟩
def F.YOK_OFS_OFS : Fld := ⟨A.YOK_OFS, 0, 32⟩
def F.YOK_LOAD_PEAK : Fld := ⟨A.YOK_LOAD, 16, 16⟩
def F.YOK_LOAD_MEAN : Fld := ⟨A.YOK_LOAD, 0, 16⟩
def F.YOK_CNT_SENT : Fld := ⟨A.YOK_CNT, 16, 16⟩
def F.YOK_CNT_ADOPTED : Fld := ⟨A.YOK_CNT, 0, 16⟩
def F.YOK_ERR_CRCERR : Fld := ⟨A.YOK_ERR, 22, 10⟩
def F.YOK_ERR_LATE : Fld := ⟨A.YOK_ERR, 11, 11⟩
def F.YOK_ERR_UNEXP : Fld := ⟨A.YOK_ERR, 0, 11⟩
def F.YOK_DIVCFG_DIVMAX : Fld := ⟨A.YOK_DIVCFG, 24, 8⟩
def F.YOK_DIVCFG_DIVTOL : Fld := ⟨A.YOK_DIVCFG, 0, 24⟩
def F.YOK_DIVCNT_COUNT : Fld := ⟨A.YOK_DIVCNT, 0, 32⟩
def F.YOK_HOLDCNT_COUNT : Fld := ⟨A.YOK_HOLDCNT, 0, 32⟩
def F.YOK_TEAMS_TEAMS : Fld := ⟨A.YOK_TEAMS, 0, 24⟩
def F.YOK_PSTATE_STATE_ID (i : Nat) : Fld := ⟨A.YOK_PSTATE i, 0, 32⟩
def F.YOK_SMAP_EN (k : Nat) : Fld := ⟨A.YOK_SMAP k, 31, 1⟩
def F.YOK_SMAP_LENM1 (k : Nat) : Fld := ⟨A.YOK_SMAP k, 13, 8⟩
def F.YOK_SMAP_BASE (k : Nat) : Fld := ⟨A.YOK_SMAP k, 0, 13⟩

def F.SUP_CKCFG_INT (r : Nat) : Fld := ⟨A.SUP_CKCFG r, 0, 10⟩
def F.SUP_CKSTAT_UNRECOV (r : Nat) : Fld := ⟨A.SUP_CKSTAT r, 31, 1⟩
def F.SUP_CKSTAT_EGRHWM (r : Nat) : Fld := ⟨A.SUP_CKSTAT r, 16, 8⟩
def F.SUP_CKSTAT_RELOADS (r : Nat) : Fld := ⟨A.SUP_CKSTAT r, 0, 16⟩
def F.SUP_CKLAST_STAMP (r : Nat) : Fld := ⟨A.SUP_CKLAST r, 0, 32⟩

def F.NET_CFG_PUBN : Fld := ⟨A.NET_CFG, 8, 8⟩
def F.NET_CFG_BW_EN : Fld := ⟨A.NET_CFG, 1, 1⟩
def F.NET_CFG_ICEND_EN : Fld := ⟨A.NET_CFG, 0, 1⟩
def F.NET_ADDR_HI : Fld := ⟨A.NET_ADDR, 31, 1⟩
def F.NET_ADDR_YADDR : Fld := ⟨A.NET_ADDR, 16, 12⟩
def F.NET_ADDR_ADDR : Fld := ⟨A.NET_ADDR, 0, 12⟩
def F.NET_JOIN_REFUSED : Fld := ⟨A.NET_JOIN, 31, 1⟩
def F.NET_JOIN_SEGREF : Fld := ⟨A.NET_JOIN, 30, 1⟩
def F.NET_JOIN_JOINED : Fld := ⟨A.NET_JOIN, 29, 1⟩
def F.NET_JOIN_SEGS : Fld := ⟨A.NET_JOIN, 8, 6⟩
def F.NET_JOIN_STATIONS : Fld := ⟨A.NET_JOIN, 0, 6⟩
def F.NET_CYC_CYCM : Fld := ⟨A.NET_CYC, 0, 7⟩
def F.NET_TXOFS_OFS : Fld := ⟨A.NET_TXOFS, 0, 32⟩
def F.NET_TXOFSHI_OFS : Fld := ⟨A.NET_TXOFSHI, 0, 32⟩
def F.NET_RXDL_DL : Fld := ⟨A.NET_RXDL, 0, 32⟩
def F.NET_TXDST_DST : Fld := ⟨A.NET_TXDST, 0, 12⟩
def F.NET_RXSTATE_LEN : Fld := ⟨A.NET_RXSTATE, 16, 13⟩
def F.NET_RXSTATE_BASE : Fld := ⟨A.NET_RXSTATE, 0, 13⟩
def F.NET_RXCNT_LATE : Fld := ⟨A.NET_RXCNT, 24, 8⟩
def F.NET_RXCNT_REJ : Fld := ⟨A.NET_RXCNT, 16, 8⟩
def F.NET_RXCNT_UNKITEM : Fld := ⟨A.NET_RXCNT, 8, 8⟩
def F.NET_RXCNT_DUP : Fld := ⟨A.NET_RXCNT, 0, 8⟩
def F.NET_RPRCNT_REQ : Fld := ⟨A.NET_RPRCNT, 16, 16⟩
def F.NET_RPRCNT_SERVED : Fld := ⟨A.NET_RPRCNT, 0, 16⟩
def F.NET_SRCUSE_OVF : Fld := ⟨A.NET_SRCUSE, 31, 1⟩
def F.NET_SRCUSE_HWM : Fld := ⟨A.NET_SRCUSE, 8, 8⟩
def F.NET_SRCUSE_NOW : Fld := ⟨A.NET_SRCUSE, 0, 8⟩
def F.NET_WINUSE_PEAK : Fld := ⟨A.NET_WINUSE, 16, 16⟩
def F.NET_WINUSE_LAST : Fld := ⟨A.NET_WINUSE, 0, 16⟩
def F.NET_SEGMAP0_MAP : Fld := ⟨A.NET_SEGMAP0, 0, 32⟩
def F.NET_SEGMAP1_MAP : Fld := ⟨A.NET_SEGMAP1, 0, 32⟩
def F.NET_PUBCFG_BLOCKS : Fld := ⟨A.NET_PUBCFG, 0, 3⟩
def F.NET_MBXCFG_IETX : Fld := ⟨A.NET_MBXCFG, 1, 1⟩
def F.NET_MBXCFG_IERX : Fld := ⟨A.NET_MBXCFG, 0, 1⟩
def F.NET_MBXRXSTAT_HEAD : Fld := ⟨A.NET_MBXRXSTAT, 28, 4⟩
def F.NET_MBXRXSTAT_LVL : Fld := ⟨A.NET_MBXRXSTAT, 23, 5⟩
def F.NET_MBXRXSTAT_PORT : Fld := ⟨A.NET_MBXRXSTAT, 20, 2⟩
def F.NET_MBXRXSTAT_LEN : Fld := ⟨A.NET_MBXRXSTAT, 0, 11⟩
def F.NET_MBXRXT_STAMP : Fld := ⟨A.NET_MBXRXT, 0, 32⟩
def F.NET_MBXRXPOP_DROPS : Fld := ⟨A.NET_MBXRXPOP, 16, 16⟩
def F.NET_MBXRXPOP_POP : Fld := ⟨A.NET_MBXRXPOP, 0, 1⟩
def F.NET_MBXTXCTL_GO : Fld := ⟨A.NET_MBXTXCTL, 31, 1⟩
def F.NET_MBXTXCTL_PORT : Fld := ⟨A.NET_MBXTXCTL, 28, 2⟩
def F.NET_MBXTXCTL_SLOT : Fld := ⟨A.NET_MBXTXCTL, 26, 2⟩
def F.NET_MBXTXCTL_LEN : Fld := ⟨A.NET_MBXTXCTL, 0, 11⟩
def F.NET_MBXTXSTAT_ERR : Fld := ⟨A.NET_MBXTXSTAT, 8, 4⟩
def F.NET_MBXTXSTAT_DONE : Fld := ⟨A.NET_MBXTXSTAT, 4, 4⟩
def F.NET_MBXTXSTAT_BUSY : Fld := ⟨A.NET_MBXTXSTAT, 0, 4⟩
def F.NET_PTPCFG_DOMAIN : Fld := ⟨A.NET_PTPCFG, 24, 8⟩
def F.NET_PTPCFG_ARTMO : Fld := ⟨A.NET_PTPCFG, 20, 4⟩
def F.NET_PTPCFG_LOGANN : Fld := ⟨A.NET_PTPCFG, 12, 4⟩
def F.NET_PTPCFG_LOGPD : Fld := ⟨A.NET_PTPCFG, 8, 4⟩
def F.NET_PTPCFG_LOGSYNC : Fld := ⟨A.NET_PTPCFG, 4, 4⟩
def F.NET_SERVOCFG_SETTLE : Fld := ⟨A.NET_SERVOCFG, 24, 8⟩
def F.NET_SERVOCFG_LOCKTHR : Fld := ⟨A.NET_SERVOCFG, 16, 8⟩
def F.NET_SERVOCFG_HOLDMAX : Fld := ⟨A.NET_SERVOCFG, 8, 8⟩
def F.NET_SERVOCFG_KISH : Fld := ⟨A.NET_SERVOCFG, 4, 4⟩
def F.NET_TSTAT_STAGE : Fld := ⟨A.NET_TSTAT, 29, 3⟩
def F.NET_TSTAT_TPORT : Fld := ⟨A.NET_TSTAT, 27, 2⟩
def F.NET_TSTAT_HOPWARN : Fld := ⟨A.NET_TSTAT, 26, 1⟩
def F.NET_TSTAT_REROUTE : Fld := ⟨A.NET_TSTAT, 25, 1⟩
def F.NET_TSTAT_HOPS : Fld := ⟨A.NET_TSTAT, 16, 8⟩
def F.NET_TSTAT_CLASS : Fld := ⟨A.NET_TSTAT, 8, 8⟩
def F.NET_TSTAT_NLEFT : Fld := ⟨A.NET_TSTAT, 0, 8⟩
def F.NET_OFS_OFS : Fld := ⟨A.NET_OFS, 0, 32⟩
def F.NET_CORR_CORR : Fld := ⟨A.NET_CORR, 0, 32⟩
def F.NET_GMID0_ID : Fld := ⟨A.NET_GMID0, 0, 32⟩
def F.NET_GMID1_ID : Fld := ⟨A.NET_GMID1, 0, 32⟩
def F.NET_PCFG_EN (x : Nat) : Fld := ⟨A.NET_PCFG x, 31, 1⟩
def F.NET_PCFG_AN (x : Nat) : Fld := ⟨A.NET_PCFG x, 30, 1⟩
def F.NET_PCFG_ROLE (x : Nat) : Fld := ⟨A.NET_PCFG x, 28, 2⟩
def F.NET_PSTAT_LINK (x : Nat) : Fld := ⟨A.NET_PSTAT x, 31, 1⟩
def F.NET_PSTAT_SYNC (x : Nat) : Fld := ⟨A.NET_PSTAT x, 30, 1⟩
def F.NET_PSTAT_ANDONE (x : Nat) : Fld := ⟨A.NET_PSTAT x, 29, 1⟩
def F.NET_PSTAT_RFAULT (x : Nat) : Fld := ⟨A.NET_PSTAT x, 28, 1⟩
def F.NET_PSTAT_PDVALID (x : Nat) : Fld := ⟨A.NET_PSTAT x, 27, 1⟩
def F.NET_PSTAT_PEERBX (x : Nat) : Fld := ⟨A.NET_PSTAT x, 26, 1⟩
def F.NET_PSTAT_DOWNCNT (x : Nat) : Fld := ⟨A.NET_PSTAT x, 0, 16⟩
def F.NET_PDELAY_DLY (x : Nat) : Fld := ⟨A.NET_PDELAY x, 0, 32⟩
def F.NET_ASYM_ASYM (x : Nat) : Fld := ⟨A.NET_ASYM x, 0, 32⟩
def F.NET_LAT_TX (x : Nat) : Fld := ⟨A.NET_LAT x, 16, 16⟩
def F.NET_LAT_RX (x : Nat) : Fld := ⟨A.NET_LAT x, 0, 16⟩
def F.NET_FRMCNT_RX (x : Nat) : Fld := ⟨A.NET_FRMCNT x, 16, 16⟩
def F.NET_FRMCNT_TX (x : Nat) : Fld := ⟨A.NET_FRMCNT x, 0, 16⟩
def F.NET_ERRCNT_FCSERR (x : Nat) : Fld := ⟨A.NET_ERRCNT x, 24, 8⟩
def F.NET_ERRCNT_BLKERR (x : Nat) : Fld := ⟨A.NET_ERRCNT x, 16, 8⟩
def F.NET_ERRCNT_DISC (x : Nat) : Fld := ⟨A.NET_ERRCNT x, 8, 8⟩
def F.NET_ERRCNT_HDRERR (x : Nat) : Fld := ⟨A.NET_ERRCNT x, 0, 8⟩
def F.NET_FWDCNT_HOPDROP (x : Nat) : Fld := ⟨A.NET_FWDCNT x, 24, 8⟩
def F.NET_FWDCNT_MAXHOPS (x : Nat) : Fld := ⟨A.NET_FWDCNT x, 16, 8⟩
def F.NET_FWDCNT_QUEUED (x : Nat) : Fld := ⟨A.NET_FWDCNT x, 0, 16⟩
def F.NET_PUBLIST_ADDR (i : Nat) : Fld := ⟨A.NET_PUBLIST i, 0, 24⟩

def F.SER_FLSRD_CMD : Fld := ⟨A.SER_FLSRD, 24, 8⟩
def F.SER_FLSRD_DUMMY : Fld := ⟨A.SER_FLSRD, 19, 5⟩
def F.SER_FLSRD_ABYTES4 : Fld := ⟨A.SER_FLSRD, 18, 1⟩
def F.SER_FLSRD_SCKDIV : Fld := ⟨A.SER_FLSRD, 13, 5⟩
def F.SER_FLSRD_FAST : Fld := ⟨A.SER_FLSRD, 12, 1⟩
def F.SER_FLSRD_DLANES : Fld := ⟨A.SER_FLSRD, 4, 2⟩
def F.SER_FLSRD_ALANES : Fld := ⟨A.SER_FLSRD, 2, 2⟩
def F.SER_FLSRD_CLANES : Fld := ⟨A.SER_FLSRD, 0, 2⟩
def F.SER_FLSTIM_POLL : Fld := ⟨A.SER_FLSTIM, 16, 8⟩
def F.SER_FLSTIM_CSHI : Fld := ⟨A.SER_FLSTIM, 8, 4⟩
def F.SER_FLSTIM_SMPDLY : Fld := ⟨A.SER_FLSTIM, 0, 3⟩
def F.SER_FLSTMO_ERASE : Fld := ⟨A.SER_FLSTMO, 16, 16⟩
def F.SER_FLSTMO_PROG : Fld := ⟨A.SER_FLSTMO, 0, 16⟩
def F.SER_FLSOPC_PP : Fld := ⟨A.SER_FLSOPC, 24, 8⟩
def F.SER_FLSOPC_SE : Fld := ⟨A.SER_FLSOPC, 16, 8⟩
def F.SER_FLSOPC_WREN : Fld := ⟨A.SER_FLSOPC, 8, 8⟩
def F.SER_FLSOPC_RDSR : Fld := ⟨A.SER_FLSOPC, 0, 8⟩
def F.SER_FLSCTL_VERIFY : Fld := ⟨A.SER_FLSCTL, 8, 1⟩
def F.SER_FLSCTL_FLUSH : Fld := ⟨A.SER_FLSCTL, 0, 1⟩
def F.SER_FLSADDR_ADDR : Fld := ⟨A.SER_FLSADDR, 0, 24⟩
def F.SER_FLSWDATA_DATA : Fld := ⟨A.SER_FLSWDATA, 0, 32⟩
def F.SER_FLSRDATA_DATA : Fld := ⟨A.SER_FLSRDATA, 0, 32⟩
def F.SER_FLSERASE_ADDR : Fld := ⟨A.SER_FLSERASE, 0, 24⟩
def F.SER_FLSSTAT_BUSY : Fld := ⟨A.SER_FLSSTAT, 31, 1⟩
def F.SER_FLSSTAT_GATHER : Fld := ⟨A.SER_FLSSTAT, 30, 1⟩
def F.SER_FLSSTAT_QLVL : Fld := ⟨A.SER_FLSSTAT, 16, 7⟩
def F.SER_FLSSTAT_ABORT : Fld := ⟨A.SER_FLSSTAT, 4, 1⟩
def F.SER_FLSSTAT_VERIFY : Fld := ⟨A.SER_FLSSTAT, 3, 1⟩
def F.SER_FLSSTAT_TMO : Fld := ⟨A.SER_FLSSTAT, 2, 1⟩
def F.SER_FLSSTAT_PROT : Fld := ⟨A.SER_FLSSTAT, 1, 1⟩
def F.SER_FLSSTAT_RETRY : Fld := ⟨A.SER_FLSSTAT, 0, 1⟩
def F.SER_FLSCNT_PROGS : Fld := ⟨A.SER_FLSCNT, 16, 16⟩
def F.SER_FLSCNT_ERASES : Fld := ⟨A.SER_FLSCNT, 0, 16⟩
def F.SER_SVCSTAT_MODE : Fld := ⟨A.SER_SVCSTAT, 30, 2⟩
def F.SER_SVCSTAT_ARMED : Fld := ⟨A.SER_SVCSTAT, 29, 1⟩
def F.SER_SVCSTAT_SAT : Fld := ⟨A.SER_SVCSTAT, 24, 1⟩
def F.SER_SVCSTAT_PTR : Fld := ⟨A.SER_SVCSTAT, 0, 24⟩
def F.SER_SVCCNT_CRCERR : Fld := ⟨A.SER_SVCCNT, 24, 8⟩
def F.SER_SVCCNT_WAIT : Fld := ⟨A.SER_SVCCNT, 16, 8⟩
def F.SER_SVCCNT_PRIV : Fld := ⟨A.SER_SVCCNT, 8, 8⟩
def F.SER_SVCCNT_OVR : Fld := ⟨A.SER_SVCCNT, 0, 8⟩
def F.SER_FUSECTL_GO : Fld := ⟨A.SER_FUSECTL, 31, 1⟩
def F.SER_FUSECTL_FLOOR : Fld := ⟨A.SER_FUSECTL, 8, 6⟩
def F.SER_FUSECTL_SLOT : Fld := ⟨A.SER_FUSECTL, 4, 2⟩
def F.SER_FUSECTL_OP : Fld := ⟨A.SER_FUSECTL, 0, 2⟩
def F.SER_FUSESTAT_BUSY : Fld := ⟨A.SER_FUSESTAT, 31, 1⟩
def F.SER_FUSESTAT_DONE : Fld := ⟨A.SER_FUSESTAT, 30, 1⟩
def F.SER_FUSESTAT_ERR : Fld := ⟨A.SER_FUSESTAT, 29, 1⟩
def F.SER_FUSESTAT_CODE : Fld := ⟨A.SER_FUSESTAT, 0, 3⟩
def F.SER_FUSEKEY_HASH (i : Nat) : Fld := ⟨A.SER_FUSEKEY i, 0, 32⟩
def F.SER_PMSCFG_ROLE (q : Nat) : Fld := ⟨A.SER_PMSCFG q, 31, 1⟩
def F.SER_PMSCFG_PAIR (q : Nat) : Fld := ⟨A.SER_PMSCFG q, 30, 1⟩
def F.SER_PMSCFG_CPOL (q : Nat) : Fld := ⟨A.SER_PMSCFG q, 29, 1⟩
def F.SER_PMSCFG_CPHA (q : Nat) : Fld := ⟨A.SER_PMSCFG q, 28, 1⟩
def F.SER_PMSCFG_LSBF (q : Nat) : Fld := ⟨A.SER_PMSCFG q, 27, 1⟩
def F.SER_PMSCFG_EN (q : Nat) : Fld := ⟨A.SER_PMSCFG q, 26, 1⟩
def F.SER_PMSCFG_DIV (q : Nat) : Fld := ⟨A.SER_PMSCFG q, 16, 8⟩
def F.SER_PMSCFG_CSHI (q : Nat) : Fld := ⟨A.SER_PMSCFG q, 8, 8⟩
def F.SER_PMSCFG_IEDONE (q : Nat) : Fld := ⟨A.SER_PMSCFG q, 7, 1⟩
def F.SER_PMSCFG_IERX (q : Nat) : Fld := ⟨A.SER_PMSCFG q, 6, 1⟩
def F.SER_PMSCFG_IEERR (q : Nat) : Fld := ⟨A.SER_PMSCFG q, 5, 1⟩
def F.SER_PMSCFG_SWLEN (q : Nat) : Fld := ⟨A.SER_PMSCFG q, 0, 5⟩
def F.SER_PMSQ_CONT (q : Nat) : Fld := ⟨A.SER_PMSQ q, 31, 1⟩
def F.SER_PMSQ_CS (q : Nat) : Fld := ⟨A.SER_PMSQ q, 30, 1⟩
def F.SER_PMSQ_LANES (q : Nat) : Fld := ⟨A.SER_PMSQ q, 28, 2⟩
def F.SER_PMSQ_DUMMY (q : Nat) : Fld := ⟨A.SER_PMSQ q, 24, 4⟩
def F.SER_PMSQ_WLEN (q : Nat) : Fld := ⟨A.SER_PMSQ q, 19, 5⟩
def F.SER_PMSQ_NTX (q : Nat) : Fld := ⟨A.SER_PMSQ q, 12, 7⟩
def F.SER_PMSQ_NRX (q : Nat) : Fld := ⟨A.SER_PMSQ q, 5, 7⟩
def F.SER_PMSTX_DATA (q : Nat) : Fld := ⟨A.SER_PMSTX q, 0, 32⟩
def F.SER_PMSRX_DATA (q : Nat) : Fld := ⟨A.SER_PMSRX q, 0, 32⟩
def F.SER_PMSSTAT_BUSY (q : Nat) : Fld := ⟨A.SER_PMSSTAT q, 31, 1⟩
def F.SER_PMSSTAT_SLVSEL (q : Nat) : Fld := ⟨A.SER_PMSSTAT q, 30, 1⟩
def F.SER_PMSSTAT_QLVL (q : Nat) : Fld := ⟨A.SER_PMSSTAT q, 24, 5⟩
def F.SER_PMSSTAT_TXLVL (q : Nat) : Fld := ⟨A.SER_PMSSTAT q, 16, 7⟩
def F.SER_PMSSTAT_RXLVL (q : Nat) : Fld := ⟨A.SER_PMSSTAT q, 8, 7⟩
def F.SER_PMSSTAT_DONE (q : Nat) : Fld := ⟨A.SER_PMSSTAT q, 6, 1⟩
def F.SER_PMSSTAT_ODDREL (q : Nat) : Fld := ⟨A.SER_PMSSTAT q, 5, 1⟩
def F.SER_PMSSTAT_QERR (q : Nat) : Fld := ⟨A.SER_PMSSTAT q, 4, 1⟩
def F.SER_PMSSTAT_TXUNF (q : Nat) : Fld := ⟨A.SER_PMSSTAT q, 3, 1⟩
def F.SER_PMSSTAT_RXOVF (q : Nat) : Fld := ⟨A.SER_PMSSTAT q, 2, 1⟩
def F.SER_PMSSTAT_RXUNF (q : Nat) : Fld := ⟨A.SER_PMSSTAT q, 1, 1⟩
def F.SER_PMSODD_BITS (q : Nat) : Fld := ⟨A.SER_PMSODD q, 0, 6⟩

def F.HKP_STAT_VALID : Fld := ⟨A.HKP_STAT, 31, 1⟩
def F.HKP_STAT_ROUNDS : Fld := ⟨A.HKP_STAT, 0, 16⟩
def F.HKP_TMAX_SUBST : Fld := ⟨A.HKP_TMAX, 20, 1⟩
def F.HKP_TMAX_SENSOR : Fld := ⟨A.HKP_TMAX, 16, 4⟩
def F.HKP_TMAX_TEMP : Fld := ⟨A.HKP_TMAX, 0, 16⟩
def F.HKP_THWARN_TEMP : Fld := ⟨A.HKP_THWARN, 0, 16⟩
def F.HKP_THTHR_TEMP : Fld := ⟨A.HKP_THTHR, 0, 16⟩
def F.HKP_THSHD_TEMP : Fld := ⟨A.HKP_THSHD, 0, 16⟩
def F.HKP_THCFG_STEP : Fld := ⟨A.HKP_THCFG, 8, 8⟩
def F.HKP_THCFG_HYS : Fld := ⟨A.HKP_THCFG, 0, 8⟩
def F.HKP_TSCFG_RECN : Fld := ⟨A.HKP_TSCFG, 24, 5⟩
def F.HKP_TSCFG_JUMP : Fld := ⟨A.HKP_TSCFG, 16, 8⟩
def F.HKP_TSCFG_SPAN : Fld := ⟨A.HKP_TSCFG, 8, 8⟩
def F.HKP_TSCFG_RATE : Fld := ⟨A.HKP_TSCFG, 0, 8⟩
def F.HKP_TSSTAT_REG2 : Fld := ⟨A.HKP_TSSTAT, 28, 4⟩
def F.HKP_TSSTAT_NVALID : Fld := ⟨A.HKP_TSSTAT, 16, 5⟩
def F.HKP_TSSTAT_LOST : Fld := ⟨A.HKP_TSSTAT, 0, 16⟩
def F.HKP_THSTAT_HOLD : Fld := ⟨A.HKP_THSTAT, 4, 1⟩
def F.HKP_THSTAT_DREQ : Fld := ⟨A.HKP_THSTAT, 3, 1⟩
def F.HKP_THSTAT_WARN : Fld := ⟨A.HKP_THSTAT, 2, 1⟩
def F.HKP_THSTAT_LEVEL : Fld := ⟨A.HKP_THSTAT, 0, 2⟩
def F.HKP_SHDCFG_GRACE : Fld := ⟨A.HKP_SHDCFG, 0, 5⟩
def F.HKP_SHDREC0_DATA : Fld := ⟨A.HKP_SHDREC0, 0, 32⟩
def F.HKP_SHDREC1_DATA : Fld := ⟨A.HKP_SHDREC1, 0, 32⟩
def F.HKP_SHDREC2_DATA : Fld := ⟨A.HKP_SHDREC2, 0, 32⟩
def F.HKP_DERATE_F (g : Nat) : Fld := ⟨A.HKP_DERATE g, 0, 17⟩
def F.HKP_FEEDCFG_OVL : Fld := ⟨A.HKP_FEEDCFG, 24, 8⟩
def F.HKP_FEEDCFG_FILT : Fld := ⟨A.HKP_FEEDCFG, 16, 8⟩
def F.HKP_FEEDCFG_REVERT : Fld := ⟨A.HKP_FEEDCFG, 1, 1⟩
def F.HKP_FEEDCFG_PREF : Fld := ⟨A.HKP_FEEDCFG, 0, 1⟩
def F.HKP_FEEDTHR_OV : Fld := ⟨A.HKP_FEEDTHR, 16, 16⟩
def F.HKP_FEEDTHR_UV : Fld := ⟨A.HKP_FEEDTHR, 0, 16⟩
def F.HKP_FEEDV_VB : Fld := ⟨A.HKP_FEEDV, 16, 16⟩
def F.HKP_FEEDV_VA : Fld := ⟨A.HKP_FEEDV, 0, 16⟩
def F.HKP_FEEDSTAT_CHGCNT : Fld := ⟨A.HKP_FEEDSTAT, 16, 16⟩
def F.HKP_FEEDSTAT_LIVE : Fld := ⟨A.HKP_FEEDSTAT, 12, 1⟩
def F.HKP_FEEDSTAT_EN_B : Fld := ⟨A.HKP_FEEDSTAT, 11, 1⟩
def F.HKP_FEEDSTAT_EN_A : Fld := ⟨A.HKP_FEEDSTAT, 10, 1⟩
def F.HKP_FEEDSTAT_COND_B : Fld := ⟨A.HKP_FEEDSTAT, 4, 4⟩
def F.HKP_FEEDSTAT_COND_A : Fld := ⟨A.HKP_FEEDSTAT, 0, 4⟩
def F.HKP_TS_VALID (s : Nat) : Fld := ⟨A.HKP_TS s, 31, 1⟩
def F.HKP_TS_SUB (s : Nat) : Fld := ⟨A.HKP_TS s, 30, 1⟩
def F.HKP_TS_TEMP (s : Nat) : Fld := ⟨A.HKP_TS s, 0, 16⟩
def F.HKP_CH_DONE (i : Nat) : Fld := ⟨A.HKP_CH i, 31, 1⟩
def F.HKP_CH_CODE (i : Nat) : Fld := ⟨A.HKP_CH i, 0, 12⟩
def F.HKP_EXTSEL_CMP (j : Nat) : Fld := ⟨A.HKP_EXTSEL j, 0, 7⟩

def F.EVT_TAGHWM_NOW : Fld := ⟨A.EVT_TAGHWM, 16, 8⟩
def F.EVT_TAGHWM_HWM : Fld := ⟨A.EVT_TAGHWM, 0, 8⟩
def F.EVT_BPCNT_COUNT : Fld := ⟨A.EVT_BPCNT, 0, 32⟩
def F.EVT_LAST_DATA : Fld := ⟨A.EVT_LAST, 0, 32⟩
def F.EVT_LASTCTX_DATA : Fld := ⟨A.EVT_LASTCTX, 0, 32⟩
def F.EVT_LASTT0_STAMP : Fld := ⟨A.EVT_LASTT0, 0, 32⟩
def F.EVT_LASTT1_STAMP : Fld := ⟨A.EVT_LASTT1, 0, 32⟩
def F.EVT_LOGSTAT_SCAN : Fld := ⟨A.EVT_LOGSTAT, 31, 1⟩
def F.EVT_LOGSTAT_BUSY : Fld := ⟨A.EVT_LOGSTAT, 30, 1⟩
def F.EVT_LOGSTAT_QLVL : Fld := ⟨A.EVT_LOGSTAT, 16, 7⟩
def F.EVT_LOGSTAT_SECTOR : Fld := ⟨A.EVT_LOGSTAT, 8, 8⟩
def F.EVT_LOGSTAT_SLOT : Fld := ⟨A.EVT_LOGSTAT, 0, 7⟩
def F.EVT_LOGCNT_DROP : Fld := ⟨A.EVT_LOGCNT, 16, 16⟩
def F.EVT_LOGCNT_RETRY : Fld := ⟨A.EVT_LOGCNT, 0, 16⟩
def F.EVT_LOGSEQ_SEQ : Fld := ⟨A.EVT_LOGSEQ, 0, 32⟩
def F.EVT_LOGWRCTX_DATA : Fld := ⟨A.EVT_LOGWRCTX, 0, 32⟩
def F.EVT_LOGWR_DATA : Fld := ⟨A.EVT_LOGWR, 0, 32⟩
def F.EVT_LOGIDX_AGE : Fld := ⟨A.EVT_LOGIDX, 0, 16⟩
def F.EVT_LOGRD_DATA (i : Nat) : Fld := ⟨A.EVT_LOGRD i, 0, 32⟩

end Sys2Proof.Machine
end

