-- ==== Sys2Proof/Machine/Cells.lean ====
section
/-!
DEFINITION. The sparse store of 32-bit words: the register file and the memory windows (R8, R464).  A store is a list
of (key, word) pairs in one canonical form: keys strictly rising, no word equal to what an unlisted key reads as.
Also the bit-field helpers of a word.
-/
namespace Sys2Proof.Machine

/-- A sparse store of words. -/
abbrev Cells := List (Nat × Word)

/-- The word at key `a`; an unlisted key reads as `d a`. -/
def cellsGet (d : Nat → Word) : Cells → Nat → Word
  | [], a => d a
  | (k, w) :: r, a => if k = a then w else cellsGet d r a

/-- Insert or replace the word at key `a`. -/
def cellsPut : Cells → Nat → Word → Cells
  | [], a, w => [(a, w)]
  | (k, v) :: r, a, w =>
    if k = a then (a, w) :: r
    else if a < k then (a, w) :: (k, v) :: r
    else (k, v) :: cellsPut r a w

/-- Write the word at key `a`, keeping the canonical form. -/
def cellsSet (d : Nat → Word) (c : Cells) (a : Nat) (w : Word) : Cells :=
  if w = d a then c.filter (fun p => p.1 ≠ a) else cellsPut c a w

/-- The canonical form: keys strictly rising, and no entry equal to what its unlisted key reads as. -/
def cellsWf (d : Nat → Word) : Cells → Bool
  | [] => true
  | (k, w) :: r => w != d k && (match r with | [] => true | (k', _) :: _ => decide (k < k')) && cellsWf d r

/-- The default of a memory window: every word reads 0 (R85, R115). -/
def zeroWord (_ : Nat) : Word := 0

/-! ## Bit fields of a word -/

/-- Bits `lo` to `lo + width - 1` of a word, as a count. -/
def bitsGet (w : Word) (lo width : Nat) : Nat := (w.toNat >>> lo) % 2 ^ width

/-- A word with its bits `lo` to `lo + width - 1` replaced by the low bits of `v`. -/
def bitsSet (w : Word) (lo width v : Nat) : Word :=
  BitVec.ofNat 32 (w.toNat % 2 ^ lo + (v % 2 ^ width) * 2 ^ lo + (w.toNat / 2 ^ (lo + width)) * 2 ^ (lo + width))

/-- The two's complement value of the low `width` bits of a count. -/
def toSigned (width v : Nat) : Int :=
  let m := v % 2 ^ width
  if m < 2 ^ (width - 1) then (m : Int) else (m : Int) - (2 ^ width : Nat)

/-- The `width`-bit two's complement code of an integer. -/
def ofSigned (width : Nat) (v : Int) : Nat := (v % ((2 ^ width : Nat) : Int)).toNat

/-- A word as a signed integer. -/
def wInt (w : Word) : Int := w.toInt

/-- The word of a signed integer, modulo 2^32. -/
def wOfInt (v : Int) : Word := BitVec.ofInt 32 v

/-- The nearer bound of a range, for an integer. -/
def clampI (lo hi v : Int) : Int := if v < lo then lo else if v > hi then hi else v

/-- The nearer bound of a range, for a count. -/
def clampN (lo hi v : Nat) : Nat := if v < lo then lo else if v > hi then hi else v

/-- A counter that stops at `top` (R499). -/
def satAdd (top v n : Nat) : Nat := min top (v + n)

/-- Division rounded towards zero. -/
def tdiv (a b : Int) : Int := Int.tdiv a b

/-- A Bool as a one-bit count. -/
def b2n (b : Bool) : Nat := if b then 1 else 0

/-! ## The reset word of each register address -/

/-- The entries whose addresses lie in the 64 KiB block of an address. -/
def regsOfBlock (b : Nat) : List RegDef :=
  match b with
  | 0 => regsIdg
  | 1 => regsClk ++ regsTim ++ regsDlc
  | 2 => regsBoot ++ regsPdk
  | 4 => regsLeg
  | 5 => regsLeg
  | 6 => regsTeam ++ regsMgrp
  | 7 => regsSdm
  | 8 => regsCmp ++ regsPrt
  | 9 => regsFbk ++ regsFbo
  | 10 => regsCe
  | 14 => regsNet
  | 15 => regsYok
  | 16 => regsSer
  | 17 => regsHkp
  | 18 => regsEvt
  | 19 => regsSup
  | _ => []

/-- Find the entry of an address, and the indices of its instance. -/
def findReg : List RegDef → Nat → Option (RegDef × List Nat)
  | [], _ => none
  | r :: rest, a =>
    if a < r.base then findReg rest a
    else match dimsMatch r.dims (a - r.base) with
      | some idx => some (r, idx)
      | none => findReg rest a

/-- The register entry at an aligned byte address (R461), with the indices of its instance. -/
def regAt (a : Nat) : Option (RegDef × List Nat) := findReg (regsOfBlock (a / 0x10000)) a

/-- The reset value of word `i` of IDG_PINCFG (R481). -/
def pinResetWord (i : Nat) : Nat :=
  if i < 360 then (if i % 5 < 3 then 0x12 else 0)
  else if i < 504 then 0
  else if i < 512 then 0x2
  else if i < 584 then (if (i - 512) % 9 = 6 then 0x2 else 0)
  else if i < 590 then 0x2
  else if i = 590 then 0x12
  else if i = 591 then 0
  else if i = 592 then 0x2
  else if i = 593 then 0x22
  else if i < 602 then 0x2
  else if i = 602 then 0
  else if i = 603 then 0x20
  else if i = 604 then 0
  else if i = 605 then 0x2
  else if i < 634 then
    (let j := (i - 606) % 7
     if j = 0 then 0x2 else if j < 3 then 0x22 else 0x2)
  else if i < 643 then 0
  else if i = 643 then 0x2
  else if i = 645 then 0x2
  else if i = 649 then 0x2
  else if i = 650 then 0x2
  else 0

/-- Reset words that depend on the instance: SDM_CFG.CKSEL = c ÷ 18, SDM_TRG (R228), CE_CAPRANGE.BASE, FBO_CFG.SRC = m,
IDG_PINCFG (R481), IDG_SILID (R498). -/
def instReset (r : RegDef) (idx : List Nat) : Nat :=
  let i := idx.headD 0
  if r.base = A.SDM_CFG 0 then r.reset + (i / 18) * 2 ^ (F.SDM_CFG_CKSEL 0).lo
  else if r.base = A.SDM_TRG 0 then
    r.reset + (if i % 2 = 0 then 1 else 2) * 2 ^ (F.SDM_TRG_KIND 0).lo + (i / 2) * 2 ^ (F.SDM_TRG_LEG 0).lo
  else if r.base = A.CE_CAPRANGE 0 then r.reset + (i * 0x4000) * 2 ^ (F.CE_CAPRANGE_BASE 0).lo
  else if r.base = A.FBO_CFG 0 then r.reset + i * 2 ^ (F.FBO_CFG_SRC 0).lo
  else if r.base = A.IDG_PINCFG 0 then pinResetWord i
  else if r.base = A.IDG_SILID then 1
  else r.reset

/-- What an unlisted register address reads as: its reset word; a reserved or unmapped address reads 0 (R462). -/
def regReset (a : Nat) : Word :=
  match regAt a with
  | some (r, idx) => BitVec.ofNat 32 (instReset r idx)
  | none => 0

end Sys2Proof.Machine
end

