-- ==== Sys2Proof/Machine/LegTypes.lean ====
section
/-!
DEFINITION. The state a leg, a team, a machine group and the protection stage hold beside their registers (chapters 05,
06, 07 and 12 of the spec).  Instants are counted in fine steps of the model's own clock: 256 times a tick of
`State.now`, plus the position within the tick (R6, R127).
-/
namespace Sys2Proof.Machine

/-- The two switches of a half-bridge leg. -/
inductive Sw where
  | high
  | low
  deriving DecidableEq, Repr

/-- The two conditions of a source (R314, R333): H, S or OCHI; and L, D or OCLO. -/
inductive Cond where
  | h
  | l
  deriving DecidableEq, Repr

/-- The commanded pulse of one leg period (R130 to R132, R137), relative to the period's start. -/
inductive Plan where
  /-- inactive for the whole period -/
  | never
  /-- active for the whole period -/
  | always
  /-- active from the first instant to the second; instants before the edge-true correction -/
  | edges (on off : Int)
  deriving DecidableEq, Repr

/-- An open report expectation (R159): the emitted instant, its direction, and the edge-true record it serves. -/
structure Expect where
  stamp : Fine
  turnOn : Bool
  etcId : Option Nat
  deriving DecidableEq, Repr

/-- A stage-7 turn-on not yet emitted (R154, R161): the switch, the planned instant, the instant of R154, whether the
interlock holds it, and the edge-true record it serves. -/
structure PendOn where
  sw : Sw
  at_ : Fine
  due : Fine
  held : Bool
  etcId : Option Nat
  deriving DecidableEq, Repr

/-- One commanded edge under edge-true measurement (R164): its kind, whether it updates the correction (R166), its
commanded instant, period, and the actual switching instants known so far. -/
structure EtcRec where
  id : Nat
  toActive : Bool
  upd : Bool
  tc : Fine
  period : Fine
  hAt : Option Int
  lAt : Option Int
  deriving DecidableEq, Repr

/-- A leg period under the edge-true warm-up rule (R122): its start, edges still open, whether one failed, whether the
period has ended, and whether it held an edge. -/
structure EtcPer where
  start : Fine
  openCnt : Nat
  bad : Bool
  ended : Bool
  deriving DecidableEq, Repr

/-- A drop or stretch decided by the policy and not yet counted (R171). -/
inductive MpMark where
  | none
  | dropH
  | stretchH
  | dropL
  | stretchL
  deriving DecidableEq, Repr

/-- A running two-step soft turn-off (R322): the conducting switch and the instant of step 2. -/
structure SoftSeq where
  sw : Sw
  endAt : Fine
  deriving DecidableEq, Repr

/-- A trip source (R316, R333). -/
inductive TripSrc where
  | cmp (k : Fin 96)
  | sdm (c : Fin 144)
  | tin (i : Fin 8)
  | ilk
  deriving DecidableEq, Repr

/-- A FAST latch that the leg logic has not yet seen (R318). -/
structure FastHit where
  k : Fin 96
  cond : Cond
  stamp : Tick
  deriving DecidableEq, Repr

/-- A coming period of a leg with LEG_PHASE other than 0 (R142): its start, its length in fine steps, the start of the
team's period that it follows, and the phase that placed it. -/
structure NextStart where
  start : Fine
  len : Nat
  team : Fine
  phase : Nat
  deriving DecidableEq, Repr

/-- The hidden state of one leg. -/
structure LegSt where
  /-- the leg is bound to this configured team (R182) -/
  team : Option (Fin 24)
  /-- GH, GL, GM at the ball -/
  gh : Bool
  gl : Bool
  gm : Bool
  /-- present period: start instant, length in fine steps of the up half's period and of the down half's (R142, R145) -/
  pstart : Fine
  up : Nat
  down : Nat
  /-- the carrier has started -/
  running : Bool
  /-- later periods of a leg with LEG_PHASE other than 0, the next first (R134, R142) -/
  nexts : List NextStart
  /-- commanded pulse of the period, before edge-true correction -/
  plan : Plan
  onDone : Bool
  offDone : Bool
  /-- turn-on request before the duty bound and the policy, and the turn-on they gave, both relative and corrected (R168) -/
  onReq : Int
  onAt : Int
  /-- the compares A and B and the down half's length that the last evaluation used (R168, R170) -/
  aGov : Word
  bGov : Word
  downGov : Nat
  /-- instant of the update point that made the compares active (R165), tick of the leg's last own update point -/
  updAt : Fine
  updTick : Option Tick
  /-- carry before the period's first evaluation (R168) -/
  carry0 : Int
  /-- policy of the last evaluation (R170) -/
  polLast : Nat
  /-- drops and stretches waiting for their tick, and those already counted in the period (R171) -/
  mpH : MpMark
  mpL : MpMark
  mpHCnt : Bool
  mpLCnt : Bool
  /-- stage-4 level: the commanded pulse -/
  cmd : Bool
  /-- a bootstrap refresh holds stage 5 inactive (R173), and its extension to the next inactive interval -/
  refresh : Bool
  refExt : Bool
  /-- the pending or held turn-on of stage 7 -/
  pend : Option PendOn
  /-- instant each switch was last turned off at the ball, and GL last turned on -/
  ghOffAt : Fine
  glOffAt : Fine
  glOnAt : Fine
  /-- instant at which the count was last set to LIMIT by an exit from the protection stage (R172) -/
  bsSetAt : Fine
  /-- tick at which LEG_BSCNT.COUNT was last brought up to date (R172) -/
  bsAt : Tick
  /-- open expectations, oldest first, at most 4 per switch (R159) -/
  expH : List Expect
  expL : List Expect
  /-- stamps at which the reports last became healthy (R161), and at which each last became not healthy (R160) -/
  healH : Fine
  healL : Fine
  unhealH : Fine
  unhealL : Fine
  /-- tick at which the leg came to know each report's present state, and the state before it (R161) -/
  knowH : Tick
  knowL : Tick
  wasH : Bool
  wasL : Bool
  /-- edge-true corrections, each with the value before its last change and the tick of that change (R165) -/
  cOn : Int
  cOnPrev : Int
  cOnAt : Tick
  cOff : Int
  cOffPrev : Int
  cOffAt : Tick
  etcRecs : List EtcRec
  etcPers : List EtcPer
  etcNext : Nat
  /-- the next commanded edge follows from an interlock cancellation or a delayed restart: no correction (R166) -/
  etcSkip : Bool
  /-- protection: the gate latch, its running sequence, FAST hits not yet seen -/
  latched : Bool
  /-- tick of the last trip of the leg at rank 1 (R329) -/
  seenAt : Tick
  seq : Option SoftSeq
  fast : List FastHit
  /-- end of the desaturation blanking window (R319); 0 none -/
  blankEnd : Fine
  /-- the leg's share of an ASC entry has been placed (R194) -/
  ascPlaced : Bool
  /-- released from a trip: GH, GL and GM low until the team next enters RUN (R327) -/
  noAsc : Bool
  /-- code of the first trip recorded since the team last entered WAIT, and its tick (R185) -/
  tripCode : Nat
  tripAt : Tick
  /-- a cleared FORCE waits for the leg's update point, a SWAP or INV change likewise (R177) -/
  ovrPend : Bool
  deriving DecidableEq, Repr

/-- The hidden state of one team. -/
structure TeamSt where
  /-- a configured team (R182), its legs in slot order, its lead leg -/
  legs : List (Fin 72)
  /-- carrier: started, start instant, lengths in fine steps as for a leg, next start -/
  started : Bool
  pstart : Fine
  up : Nat
  down : Nat
  next : Option Fine
  /-- tick of the last update point served -/
  updTick : Option Tick
  /-- update points held in a row by TEAM_SHCTL.HOLD (R144) -/
  held : Nat
  /-- dither deviation of the pair (R147) -/
  dith : Int
  /-- instant of the last epoch served (R189) -/
  epochAt : Option Fine
  /-- the commit waiting for an update point came from a release with the ready bit set (R124); none when none waits -/
  readyCommit : Option Bool
  /-- variable forms: counted crossings, scheduled restart, previous period length in fine steps (R133, R134) -/
  valley : Nat
  restartAt : Option Fine
  prevLen : Nat
  /-- the scheduled restart was delayed so that the interval it closes is not too short (R171) -/
  delayed : Bool
  /-- re-entry of a local member waits for a cycle boundary (R203): the cycle whose frame first reported it live -/
  liveSeen : Bool
  /-- sample releases that are to come: the tick of each trigger of the lead leg plus the sense delay (R216) -/
  rels : List (Tick × Bool)
  /-- triggers of the lead leg in the present period; each release keeps whether its trigger was the first (R253) -/
  trgSeen : Nat
  /-- the last entry into HALTED bars EN and RESUME until a reset (R186, R187) -/
  barred : Bool
  deriving DecidableEq, Repr

/-- A condition of a FILTERED source (R321): the raw level, the tick from which the leg logic sees it, and the filtered
level. -/
structure FiltSt where
  raw : Bool
  since : Tick
  /-- the ticks from which the logic saw the levels before this one, the latest first -/
  prev : List Tick
  filt : Bool
  /-- consecutive samples at this level, for a sampled comparator -/
  samples : Nat
  deriving DecidableEq, Repr

/-- The hidden state of one comparator. -/
structure CmpSt where
  h : FiltSt
  l : FiltSt
  /-- legs in scope, fixed at Paddock lock (R316) -/
  scope : List (Fin 72)
  deriving DecidableEq, Repr

/-- The hidden state of one trip input. -/
structure TinSt where
  ball : Bool
  f : FiltSt
  scope : List (Fin 72)
  deriving DecidableEq, Repr

/-- The over-current trip conditions of one channel. -/
structure SdmTripSt where
  h : FiltSt
  l : FiltSt
  scope : List (Fin 72)
  deriving DecidableEq, Repr

/-- SAFE_N (R328): its level after the fixed filter, the tick of the ball edge that last moved it, and the tick at which the
input left its band. -/
structure SafeSt where
  filtLow : Bool
  edge : Tick
  outAt : Tick
  deriving DecidableEq, Repr

/-- The hidden state of one machine group. -/
structure GroupSt where
  /-- the group passed the check of R197 -/
  enabled : Bool
  /-- slots that failed individually (R197) -/
  badSlots : List Nat
  /-- remote slots last reported live, and slots counted live (R198, R202, R203) -/
  remoteLive : List Nat
  liveView : List Nat
  /-- slots whose re-entry waits for the next cycle boundary (R203) -/
  reentry : List Nat
  /-- the ticks at which a drop or a re-entry makes a release due (R199) -/
  relDue : List Tick
  /-- tick of the last release, its latched command and live set (R199) -/
  relAt : Option Tick
  latTq : Int
  latLive : List Nat
  /-- the allocation of the last release (R200), by slot, and what it left -/
  shares : List Int
  short : Nat
  deriving DecidableEq, Repr

def LegSt.reset : LegSt :=
  { team := none, gh := false, gl := false, gm := false, pstart := 0, up := 0, down := 0, running := false, nexts := [],
    plan := .never, onDone := false, offDone := false, onReq := 0, onAt := 0, aGov := 0xFFFFFFFF, bGov := 0xFFFFFFFF,
    downGov := 0, updAt := 0, updTick := none, carry0 := 0,
    polLast := 2, mpH := .none, mpL := .none, mpHCnt := false, mpLCnt := false, cmd := false, refresh := false,
    refExt := false, pend := none, ghOffAt := 0, glOffAt := 0, glOnAt := 0, bsSetAt := 0,
    bsAt := 0, expH := [], expL := [],
    healH := 0, healL := 0, unhealH := 0, unhealL := 0, knowH := 0, knowL := 0, wasH := false, wasL := false,
    cOn := 0, cOnPrev := 0, cOnAt := 0, cOff := 0, cOffPrev := 0,
    cOffAt := 0, etcRecs := [], etcPers := [], etcNext := 0, etcSkip := false, latched := false, seenAt := 0, seq := none, fast := [], blankEnd := 0,
    ascPlaced := false, noAsc := false, tripCode := 0, tripAt := 0, ovrPend := false }

def TeamSt.reset : TeamSt :=
  { legs := [], started := false, pstart := 0, up := 0, down := 0, next := none, updTick := none, held := 0, dith := 0,
    epochAt := none, readyCommit := none, valley := 0, restartAt := none, prevLen := 0, delayed := false,
    liveSeen := false, rels := [], trgSeen := 0, barred := false }

def FiltSt.reset : FiltSt := { raw := false, since := 0, prev := [], filt := false, samples := 0 }

def GroupSt.reset : GroupSt :=
  { enabled := false, badSlots := [], remoteLive := [], liveView := [], reentry := [], relDue := [],
    relAt := none, latTq := 0, latLive := [], shares := [], short := 0 }

end Sys2Proof.Machine
end

