-- ==== Sys2Proof/Machine/CeTypes.lean ====
section
/-!
DEFINITION. The state the control engine holds beside its registers and memories (chapters 09 and 10 of the spec).
-/
namespace Sys2Proof.Machine

/-- An accumulator of a lane: 72 bits (R231). -/
abbrev Acc := BitVec 72

/-- One journal entry of a run (R246): a state word by absolute index, or an append to a capture stream. -/
inductive JWrite where
  | state (i : Nat) (w : Word)
  | cap (stream : Fin 4) (w : Word)
  deriving DecidableEq, Repr

/-- The memories of R255. -/
inductive CeMem where
  | program
  | coef
  | shift
  | state
  | table
  | capture
  | desc
  deriving DecidableEq, Repr

/-- What has gone wrong by the time of an operation or a scrub read (R254, R255): nothing; an upset of one bit of a
memory word; a residue mismatch in the value path; a disagreement of the two copies of a function unit; an upset that
leaves a memory word uncorrectable.  The reads of the word, whatever makes them, find its upset. -/
inductive Chk where
  | ok
  | corr (mem : CeMem) (word : Nat)
  | mac
  | func
  | ded (mem : CeMem) (word : Nat)
  deriving DecidableEq, Repr

/-- One run of a task, from its release to its commit (R246, R248). -/
structure RunSt where
  task : Fin 36
  /-- tick of the release and its stamp in device time -/
  relTick : Tick
  relStamp : Nat
  /-- the deadline tick: of R251 for a group task, the ordering deadline of R249 for a team task -/
  deadline : Tick
  /-- input frame, its VALID mask, and IDG_TEAMRDY of the team at the release -/
  input : List Word
  valid : Nat
  ready : Bool
  csel : Bool
  /-- a group release's latched allocation (R199) -/
  shares : List Int
  /-- generators of which this release took step 0 (R276) -/
  genStart : List Nat
  /-- program counter, operations still to skip, lane cycles used -/
  pc : Nat
  skip : Nat
  cycles : Nat
  accs : Vector Acc 4
  out : Vector Word 32
  scratch : Vector Word 32
  journal : List JWrite
  /-- journal entries counted under R246, stamps included, and the streams stamped so far -/
  entries : Nat
  stamped : List Nat
  flags : Nat
  sats : Nat
  /-- marked for discard by a skipped release (R250) -/
  discard : Bool
  /-- tick of END; the commit is waiting -/
  ended : Option Tick
  deriving DecidableEq, Repr

/-- A test-signal generator (R274, R275). -/
structure GenSt where
  /-- start stamp, 40 bits, as the write of GO took it (R467) -/
  start : Nat
  /-- steps taken, chirp phase and frequency, PRBS register and the steps left before it advances -/
  n : Nat
  phi : Nat
  freq : Nat
  lfsr : Nat
  hold : Nat
  /-- latched value and its VALID at the last release of its task -/
  val : Word
  valid : Bool
  deriving DecidableEq, Repr

/-- The control engine. -/
structure CeSt where
  lanes : Vector (Option RunSt) 16
  /-- the accumulators each lane holds between runs (R231): no rule clears them -/
  accs : Vector (Vector Acc 4) 16
  /-- released runs that wait for a lane, in order of release -/
  ready : List RunSt
  /-- ended runs whose commit has not arrived -/
  ended : List RunSt
  /-- group releases that wait for the running group run to end (R251), by group -/
  gpend : Vector (Option RunSt) 8
  /-- ticks of the last two releases of each task, newest first (R249) -/
  rel1 : Vector (Option Tick) 36
  rel2 : Vector (Option Tick) 36
  gens : Vector GenSt 4
  /-- streams that arm at the next commit stamped after the tick given (R276) -/
  armAt : Vector (Option Tick) 4
  /-- tick of the last ECC:CORR record of each memory (R255) -/
  corrAt : Vector (Option Tick) 7
  /-- next word the scrubber reads -/
  scrub : Nat
  /-- busy control-pool lane cycles of the present load window of 320,000 ticks, and the window's index (CE_LOAD) -/
  busyCyc : Nat
  busyWin : Nat
  deriving DecidableEq, Repr

def GenSt.reset : GenSt := { start := 0, n := 0, phi := 0, freq := 0, lfsr := 0x7FFF, hold := 0, val := 0, valid := false }

def CeSt.reset : CeSt :=
  { lanes := Vector.replicate 16 none, accs := Vector.replicate 16 (Vector.replicate 4 0), ready := [], ended := [], gpend := Vector.replicate 8 none,
    rel1 := Vector.replicate 36 none, rel2 := Vector.replicate 36 none, gens := Vector.replicate 4 GenSt.reset,
    armAt := Vector.replicate 4 none, corrAt := Vector.replicate 7 none, scrub := 0, busyCyc := 0, busyWin := 0 }

def RunSt.blank (k : Fin 36) : RunSt :=
  { task := k, relTick := 0, relStamp := 0, deadline := 0, input := [], valid := 0, ready := false, csel := false,
    shares := [], genStart := [], pc := 0, skip := 0, cycles := 0, accs := Vector.replicate 4 0,
    out := Vector.replicate 32 0, scratch := Vector.replicate 32 0, journal := [], entries := 0, stamped := [],
    flags := 0, sats := 0, discard := false, ended := none }

end Sys2Proof.Machine
end

