-- ==== Sys2Proof/Machine/CoreTypes.lean ====
section
/-!
DEFINITION. The state of clocks and device time, reset and image load, fuses, housekeeping, the fault log and the event
fabric beside their registers (chapters 01, 02, 03, 04, 15 and 16 of the spec).
-/
namespace Sys2Proof.Machine

/-- Who writes a register: the writer codes of PDK_LASTCLIP2 (R337), and the device's own image apply. -/
inductive Writer where
  | supA
  | supB
  | ce
  | svc
  | icend
  | yoke
  | image
  deriving DecidableEq, Repr

/-- Three levels of a feedback port: A, B, Z, or U, V, W (R282). -/
structure Abz where
  a : Bool
  b : Bool
  z : Bool
  deriving DecidableEq, Repr

/-- What the device did to a register field in one tick that a write of the same tick comes before (R470). -/
inductive TickUp where
  /-- it raised a recorded maximum to at least this value -/
  | most (f : Fld) (v : Nat)
  /-- it advanced an occurrence counter -/
  | count (f : Fld)
  deriving DecidableEq, Repr

/-- The W1C bits that the device has set in a tick, by address and bit, and its updates of counters and maxima that a
write sets (R470).  The model's own record: what it holds of an earlier tick has no effect. -/
structure SameTick where
  tick : Tick
  bits : List (Nat × Nat)
  ups : List TickUp
  /-- trips of this tick are still to come: no team halts before the last of them (R324) -/
  hold : Bool
  deriving DecidableEq, Repr

/-- The record of tick t: empty where the record kept is of an earlier tick. -/
def SameTick.of (r : SameTick) (t : Tick) : SameTick := if r.tick = t then r else { tick := t, bits := [], ups := [], hold := false }

/-- The four readers that hold snapshots (R466). -/
inductive Reader where
  | supA
  | supB
  | svc
  | publish
  deriving DecidableEq, Repr

/-- Reset sources of R110. -/
inductive RstSrc where
  | por
  | pin
  | pgood
  | fw
  | svc
  deriving DecidableEq, Repr

/-- A fault record (R13, R453): code, context, device time of detection, WRITER field. -/
structure FaultRec where
  code : Nat
  ctx : Word
  time : Nat
  writer : Nat
  deriving DecidableEq, Repr

/-- A committed journal record (R453): sector and slot, SEQ, the record. -/
structure JEntry where
  sector : Nat
  slot : Nat
  seq : Nat
  fault : FaultRec
  deriving DecidableEq, Repr

/-- The fault-log journal engine (R453 to R456). -/
structure JrnSt where
  /-- waiting records, oldest first, at most 64 -/
  queue : List FaultRec
  /-- committed records in flash, oldest first -/
  log : List JEntry
  /-- the scan of R455 has fixed the next SEQ and slot -/
  ready : Bool
  /-- next slot: sector and slot in it -/
  sector : Nat
  slot : Nat
  /-- device ticks at which each PADDOCK detail was last written to the log (R332), detail 1 first -/
  pdkAt : Vector (Option Tick) 10
  deriving DecidableEq, Repr

/-- Device time and the clock tree. -/
structure TimSt where
  /-- VDD_CORE, VDD_IO or VDD_GATE stands below its threshold (R110, R112) -/
  under : Bool
  /-- boot logic runs; the PLL has locked; CLK_TIME counts -/
  booting : Bool
  pll : Bool
  run : Bool
  /-- every clock but CLK_HK and the boot oscillator has stopped (R449) -/
  stopped : Bool
  /-- device time, 72 bits (R54) -/
  dev : Nat
  /-- tick of the PLL lock, of the DLL lock, of reset release -/
  pllAt : Tick
  dllAt : Tick
  relAt : Tick
  /-- remaining slew in fine steps × 2^32 × 10^7 (R58) -/
  slew : Int
  /-- tick of the reference fault, the PLL control word frozen there as a total rate in units of 2^-40 × 10^-7, and
  electrical idle of the links (R46) -/
  refAt : Option Tick
  frozen : Option Int
  linksIdle : Bool
  /-- PPS_OUT level and the tick of its rise (R63) -/
  pps : Bool
  ppsAt : Tick
  ppsStamp : Nat
  /-- delay lines whose DLL lost lock (R67) -/
  deadLines : List Nat
  /-- tick of the last calibration step, and each line's correction table (R64) -/
  calAt : Tick
  tables : List (Nat × List Int)
  calDone : Bool
  /-- tick at which NETLOCK was last set, and of the last device-time step (R61, R190) -/
  netAt : Tick
  stepAt : Tick
  deriving DecidableEq, Repr

/-- A section table entry of an image (R80). -/
structure Sect where
  type : Nat
  fmt : Nat
  flags : Nat
  offset : Nat
  length : Nat
  dest : Nat
  deriving DecidableEq, Repr

/-- What a flash re-read replaces (R116). -/
inductive Reread where
  | none
  | selector (copy : Nat)
  | header
  | crcTable
  | block
  | signature
  | overlay
  deriving DecidableEq, Repr

/-- A table overlay that passed its checks (R105): table, sequence, its entries. -/
structure Overlay where
  table : Nat
  seq : Nat
  entries : List Word
  deriving DecidableEq, Repr

/-- The image load in progress (R115 to R118). -/
structure LoadSt where
  /-- a reset hold-off runs, since when, and its source (R111) -/
  holdoff : Option (Tick × RstSrc)
  /-- RESET_N released with TEST_EN high: factory test mode (R480) -/
  testMode : Bool
  /-- slot being loaded, slot the selector named, FALLBACK of the selector -/
  slot : Nat
  named : Nat
  fallback : Bool
  /-- this is the second slot of the load (R73) -/
  second : Bool
  /-- memory clear ended -/
  cleared : Bool
  /-- the read that awaits a re-read, and how many have been made -/
  reread : Reread
  rereads : Nat
  /-- selector copies read so far (R71), as bytes; a copy that stays unreadable is empty -/
  sel0 : List Byte
  sel1 : List Byte
  /-- header bytes, CRC table bytes, body bytes and signature block of the slot -/
  header : List Byte
  crcTab : List Byte
  body : List Byte
  sig : List Byte
  sects : List Sect
  /-- overlays found, and records read of the overlay area -/
  ovl : List Overlay
  ovlRead : Nat
  /-- register-list writes were accepted; the image is the loaded one -/
  accepted : Bool
  locked : Bool
  failed : Bool
  /-- supervisor pairs released (R102) -/
  supRun : Bool
  /-- ticks of the faults held in IDG_LOADFLT, as device time (R120) -/
  fltTime0 : Nat
  fltTime1 : Nat
  fltCtx0 : Word
  fltCtx1 : Word
  fallbackTime : Nat
  /-- the Paddock section in force, as bytes (R90), and the remote-team table (R88) -/
  pdk : List Byte
  rtt : List (Nat × Nat × Nat)
  /-- journal range, overlay range, XIP range of the loaded image -/
  jrnBase : Nat
  jrnLen : Nat
  ovlBase : Nat
  ovlLen : Nat
  xipLo : Nat
  xipHi : Nat
  yoked : Bool
  partner : Nat
  /-- image identities as bytes (R96) -/
  cfgId : List Byte
  stateId : List Byte
  pdkId : List Byte
  prio1 : Nat
  prio2 : Nat
  mac : Nat
  /-- flash window fetch enabled -/
  xip : Bool
  deriving DecidableEq, Repr

/-- One fuse key slot (R99). -/
structure KeySlot where
  hash : List Byte
  prog : Bool
  rev : Bool
  deriving DecidableEq, Repr

/-- The fuses (R99): key slots and security floor; the stepping and the port latencies read from their registers. -/
structure FuseSt where
  keys : Vector KeySlot 4
  floor : Nat
  deriving DecidableEq, Repr

/-- One die sensor (R443, R444), temperatures in 1/16 °C. -/
structure TsSt where
  reading : Option Int
  flagged : Bool
  lost : Bool
  prev : Option Int
  lastGood : Int
  tLost : Tick
  recCnt : Nat
  sub : Int
  deriving DecidableEq, Repr

/-- A thermal shut-down (R448, R449). -/
structure ShutSt where
  td : Tick
  dev : Nat
  cause : Nat
  flashDone : Bool
  flashEnd : Tick
  aborted : Bool
  deriving DecidableEq, Repr

/-- One cabinet feed's filtered conditions (R451): the tick since which it is free of all. -/
structure FeedSt where
  uv : Bool
  ov : Bool
  rev : Bool
  freeAt : Tick
  healthy : Bool
  healthyAt : Tick
  deriving DecidableEq, Repr

/-- Which feed is live (R452). -/
inductive Live where
  | none
  | a
  | b
  | both
  deriving DecidableEq, Repr

/-- Housekeeping (chapter 16). -/
structure HkSt where
  roundAt : Tick
  ts : Vector TsSt 16
  want : Vector Bool 3
  tRecov : Option Tick
  warnOn : Bool
  shut : Option ShutSt
  feedA : FeedSt
  feedB : FeedSt
  live : Live
  /-- end of an under-voltage overlap, and the feed switched off there -/
  ovlEnd : Option (Tick × Bool)
  enA : Bool
  enB : Bool
  feedsOn : Bool
  /-- tick at which SUPPLY:VDD_RANGE was last recorded, per supply (R442) -/
  vddAt : Vector (Option Tick) 5
  deriving DecidableEq, Repr

/-- The retained shut-down record (R450), kept across every reset but power-on. -/
structure ShutRec where
  valid : Bool
  aborted : Bool
  cause : Nat
  td : Nat
  abortAt : Nat
  abortAddr : Nat
  deriving DecidableEq, Repr

/-- An effect that falls due at a later tick. -/
inductive Deferred where
  /-- EN = 0 takes the team to OFF (R185) -/
  | teamOff (t : Fin 24)
  /-- FORCE takes effect (R177) -/
  | force (n : Fin 72)
  /-- a drop or stretch is counted (R171) -/
  | mpCount (n : Fin 72) (m : MpMark)
  /-- the tick after Paddock lock: an EN written by the image is judged (R187) -/
  | imageEn
  /-- a continuous comparator's change is known to the logic (R315): condition, level, tick of the crossing -/
  | cmpKnown (k : Fin 96) (c : Cond) (lvl : Bool) (stamp : Tick)
  /-- the tick of a comparator's set-up is over (R113, R314) -/
  | cmpHold (k : Fin 96) (c : Cond)
  /-- the filter of a source condition has run its released count (R321) -/
  | filtRel (src : TripSrc) (c : Cond)
  /-- the over-current conditions of a channel under a threshold written in the tick before (R219, R469) -/
  | ocEval (c : Fin 144)
  /-- a housekeeping round ends (R440) -/
  | hkRound
  /-- a SHADOW device claims the selector (R350) -/
  | claim
  /-- general tags are free again, and what waits for one is issued (R27) -/
  | tagDrain
  deriving DecidableEq, Repr

def JrnSt.reset : JrnSt :=
  { queue := [], log := [], ready := false, sector := 0, slot := 0, pdkAt := Vector.replicate 10 none }

def TimSt.reset : TimSt :=
  { under := true, booting := false, pll := false, run := false, stopped := false, dev := 0, pllAt := 0, dllAt := 0, relAt := 0,
    slew := 0, refAt := none, frozen := none, linksIdle := true, pps := false, ppsAt := 0, ppsStamp := 0, deadLines := [], calAt := 0,
    tables := [], calDone := false, netAt := 0, stepAt := 0 }

def LoadSt.reset : LoadSt :=
  { holdoff := none, testMode := false, slot := 0, named := 0, fallback := false, second := false, cleared := false,
    reread := .none, rereads := 0, sel0 := [], sel1 := [], header := [], crcTab := [], body := [], sig := [],
    sects := [], ovl := [], ovlRead := 0, accepted := false, locked := false, failed := false, supRun := false,
    fltTime0 := 0, fltTime1 := 0, fltCtx0 := 0, fltCtx1 := 0, fallbackTime := 0, pdk := [], rtt := [], jrnBase := 0,
    jrnLen := 0, ovlBase := 0, ovlLen := 0, xipLo := 0, xipHi := 0, yoked := false, partner := 0, cfgId := [],
    stateId := [], pdkId := [], prio1 := 0, prio2 := 0, mac := 0, xip := false }

def KeySlot.blank : KeySlot := { hash := List.replicate 32 0, prog := false, rev := false }

def FuseSt.reset : FuseSt := { keys := Vector.replicate 4 KeySlot.blank, floor := 0 }

def TsSt.reset : TsSt :=
  { reading := none, flagged := false, lost := false, prev := none, lastGood := 0, tLost := 0, recCnt := 0, sub := 0 }

def FeedSt.reset : FeedSt :=
  { uv := false, ov := false, rev := false, freeAt := 0, healthy := false, healthyAt := 0 }

def HkSt.reset : HkSt :=
  { roundAt := 0, ts := Vector.replicate 16 TsSt.reset, want := Vector.replicate 3 false, tRecov := none,
    warnOn := false, shut := none, feedA := FeedSt.reset, feedB := FeedSt.reset, live := .none, ovlEnd := none,
    enA := false, enB := false, feedsOn := false, vddAt := Vector.replicate 5 none }

def ShutRec.reset : ShutRec := { valid := false, aborted := false, cause := 0, td := 0, abortAt := 0, abortAddr := 0 }

end Sys2Proof.Machine
end

