-- ==== Sys2Proof/Machine/NetTypes.lean ====
section
/-!
DEFINITION. The state of the network ports, the PTP servo and the Icend cycle beside their registers (chapter 14 of the
spec).  PTP times are in ps of device or network time.
-/
namespace Sys2Proof.Machine

/-- sourcePortIdentity: clockIdentity and port number. -/
structure PtpId where
  clk : Nat
  port : Nat
  deriving DecidableEq, Repr

/-- The data set an Announce carries (R374). -/
structure GmData where
  prio1 : Nat
  cls : Nat
  acc : Nat
  var : Nat
  prio2 : Nat
  id : Nat
  deriving DecidableEq, Repr

/-- A PTP message of the supported types (R370). -/
inductive PtpMsg where
  | sync (src : PtpId) (seq dom : Nat) (twoStep : Bool) (origin corr : Int) (hops : Nat)
  | followUp (src : PtpId) (seq dom : Nat) (origin corr : Int)
  | announce (src : PtpId) (seq dom : Nat) (gm : GmData)
  | pdReq (src : PtpId) (seq : Nat)
  | pdResp (req : PtpId) (seq : Nat) (corr : Int)
  deriving DecidableEq, Repr

/-- A frame that waits at an egress port or has been sent. -/
inductive OutFrame where
  /-- the payload of an Icend frame (R388) -/
  | icend (payload : List Byte)
  /-- a PTP message; `base`: the ingress stamp less link delay and asymmetry, to which the egress stamp is compared -/
  | ptp (m : PtpMsg) (base : Option Int)
  /-- a frame of a mailbox transmit slot (R368) -/
  | mail (slot : Fin 4) (octets : List Byte)
  deriving DecidableEq, Repr

/-- A copy of the Bellwether's Sync on one port (R373). -/
structure SyncCopy where
  seq : Nat
  hops : Nat
  total : Int
  o : Int
  deriving DecidableEq, Repr

/-- A two-step Sync that awaits its Follow_Up. -/
structure TwoStep where
  src : PtpId
  seq : Nat
  rx : Int
  corr : Int
  hops : Nat
  deriving DecidableEq, Repr

/-- One network port. -/
structure NetPort where
  /-- egress queues of R385 and the tick at which the egress is free -/
  qFwd : List OutFrame
  qOwn : List OutFrame
  qPtp : List OutFrame
  qOther : List OutFrame
  busyTill : Tick
  /-- the last frame that left the port -/
  last : Option OutFrame
  /-- PTP messages sent or received here: source, type, sequenceId, tick (R371) -/
  seen : List (PtpId × Nat × Nat × Tick)
  two : List TwoStep
  /-- residence sums of two-step Syncs forwarded out of this port (R372) -/
  resid : List (PtpId × Nat × Int)
  copy : Option SyncCopy
  /-- peer delay: sequenceId and egress stamp of the open request, a first part of a two-step response, tick of the last
  request, missed and good exchanges in a row, twice the delays of the last 8 exchanges -/
  pdSeq : Nat
  pdT1 : Option Int
  pdOpen : Bool
  pdPart : Option (Int × Int × Int)
  pdAt : Tick
  pdMiss : Nat
  pdGood : Nat
  pdHist : List Int
  /-- tick of the last NET:BLK_CRC record (R390) -/
  blkAt : Option Tick
  /-- address of the HELLO frames that the link partner sends -/
  far : Option Nat
  deriving DecidableEq, Repr

/-- The ordinary clock and its servo (R373 to R380). -/
structure ServoSt where
  gm : Option GmData
  foreign : List (GmData × Tick)
  /-- identity of the grandmaster of the copy in use; sequenceId used last -/
  copyGm : Option Nat
  used : Option Nat
  lastSync : Tick
  annAt : Tick
  /-- Syncs in a row below the lock threshold -/
  good : Nat
  sum : Int
  n : Nat
  /-- PPS discipline as Bellwether: last edge, edges in a row below the threshold, when the hold began (R375) -/
  ppsAt : Tick
  ppsGood : Nat
  ppsHold : Option Tick
  syncAt : Tick
  annTxAt : Tick
  syncSeq : Nat
  annSeq : Nat
  deriving DecidableEq, Repr

/-- An item accepted for delivery (R391). -/
inductive NetItem where
  | sp (t : Fin 24) (w : Word)
  | tq (g : Fin 8) (w : Word)
  | state (base : Nat) (ws : List Word)
  deriving DecidableEq, Repr

/-- A held item and the cycle that its frame names. -/
structure HeldItem where
  cyc : Nat
  item : NetItem
  deriving DecidableEq, Repr

/-- A TEAMSTAT word as received: cycle, source, ACTIVE flag, the word. -/
structure HeldStat where
  cyc : Nat
  src : Nat
  active : Bool
  w : Word
  deriving DecidableEq, Repr

/-- A sequence window (R396): source and PARTNER_HI, h, m, cycle of the last frame. -/
structure SeqWin where
  src : Nat
  hi : Bool
  h : Nat
  m : Nat
  cyc : Nat
  deriving DecidableEq, Repr

/-- A frame this device put on the ring, kept for repair (R395): cycle, payload, SEQs already served. -/
structure KeptFrame where
  cyc : Nat
  payload : List Byte
  served : List Nat
  deriving DecidableEq, Repr

/-- A repair request that awaits its block: cycle, source, PARTNER_HI, SEQ, port. -/
structure RepairReq where
  cyc : Nat
  src : Nat
  hi : Bool
  seq : Nat
  port : Nat
  deriving DecidableEq, Repr

/-- A frame held in the receive mailbox (R368). -/
structure MailIn where
  slot : Nat
  port : Nat
  len : Nat
  stamp : Nat
  deriving DecidableEq, Repr

structure NetSt where
  ports : Vector NetPort 3
  servo : ServoSt
  /-- tick of Paddock lock; start of the HELLO frames, last HELLO frame (R399) -/
  lockAt : Tick
  hello0 : Option Tick
  helloAt : Option Tick
  stations : List (Nat × Tick)
  segs : List (Nat × Tick)
  /-- the cycles whose boundary, own DATA frame and receive deadline have been served -/
  bnd : Option Nat
  sentCyc : Option Nat
  dlCyc : Option Nat
  /-- ticks from the boundary to the last completion of the present cycle -/
  lastDone : Nat
  held : List HeldItem
  stats : List HeldStat
  wins : List SeqWin
  kept : List KeptFrame
  reqs : List RepairReq
  lateAt : Option Tick
  seq : Nat
  /-- held mailbox frames, oldest first; the slot the next one takes -/
  rx : List MailIn
  rxNext : Nat
  /-- tick at which a sent mailbox frame ends, by slot -/
  txEnd : Vector (Option Tick) 4
  deriving DecidableEq, Repr

def NetPort.reset : NetPort :=
  { qFwd := [], qOwn := [], qPtp := [], qOther := [], busyTill := 0, last := none, seen := [], two := [], resid := [],
    copy := none, pdSeq := 0, pdT1 := none, pdOpen := false, pdPart := none, pdAt := 0, pdMiss := 0, pdGood := 0,
    pdHist := [], blkAt := none, far := none }

def ServoSt.reset : ServoSt :=
  { gm := none, foreign := [], copyGm := none, used := none, lastSync := 0, annAt := 0, good := 0, sum := 0, n := 0,
    ppsAt := 0, ppsGood := 0, ppsHold := none, syncAt := 0, annTxAt := 0, syncSeq := 0, annSeq := 0 }

def NetSt.reset : NetSt :=
  { ports := Vector.replicate 3 NetPort.reset, servo := ServoSt.reset, lockAt := 0, hello0 := none, helloAt := none,
    stations := [], segs := [], bnd := none, sentCyc := none, dlCyc := none, lastDone := 0, held := [], stats := [],
    wins := [], kept := [], reqs := [], lateAt := none, seq := 0, rx := [], rxNext := 0,
    txEnd := Vector.replicate 4 none }

end Sys2Proof.Machine
end

