-- ==== Sys2Proof/Machine/SerTypes.lean ====
section
/-!
DEFINITION. The state of the clocked serial ports beside their registers (chapter 15 of the spec).
-/
namespace Sys2Proof.Machine

/-- An entry of the flash write queue (R410): bytes to program from an address, or a sector to erase, and the writer. -/
inductive FlsEntry where
  | prog (a : Nat) (bytes : List Byte) (w : Writer)
  | erase (a : Nat) (w : Writer)
  deriving DecidableEq, Repr

/-- A read profile (R408): command, lane codes of the three phases (0b00 one lane, 0b01 two, 0b10 four, 0b11 eight),
address bytes, dummy cycles, divider. -/
structure RdProfile where
  cmd : Nat
  cl : Nat
  al : Nat
  dl : Nat
  abytes : Nat
  dummy : Nat
  div : Nat
  fast : Bool
  deriving DecidableEq, Repr

/-- The boot profile. -/
def RdProfile.boot : RdProfile :=
  { cmd := 0x3B, cl := 0, al := 0, dl := 1, abytes := 3, dummy := 8, div := 2, fast := false }

/-- A transaction on the flash port (R407): its phases with their lane codes, the divider of FLS_SCK and the sample delay. -/
structure FlsTxn where
  cmd : Nat
  addr : Option Nat
  abytes : Nat
  dummy : Nat
  /-- bytes to the flash, and the number of bytes from it -/
  out : List Byte
  inp : Nat
  cl : Nat
  al : Nat
  dl : Nat
  div : Nat
  smp : Nat
  deriving DecidableEq, Repr

/-- Gathered program bytes of one page (R411): offsets with their bytes, the writer, tick of the last byte. -/
structure FlsGather where
  page : Nat
  bytes : List (Nat × Byte)
  w : Writer
  at_ : Tick
  deriving DecidableEq, Repr

/-- The operation in the flash: a program or an erase, repeated after a failed read-back, or the wait after a software
reset (R411 to R413). -/
structure FlsRun where
  op : FlsEntry
  start : Tick
  again : Bool
  resetWait : Bool
  deriving DecidableEq, Repr

/-- A decoded PMS queue entry (R431). -/
structure PmsEntry where
  cont : Bool
  cs : Bool
  lanes : Nat
  dummy : Nat
  wbits : Nat
  ntx : Nat
  nrx : Nat
  deriving DecidableEq, Repr

/-- A PMS entry in progress: words sent so far, words received so far, and what the partner has yet to send. -/
structure PmsRun where
  e : PmsEntry
  sent : List Word
  got : Nat
  answer : List Word
  deriving DecidableEq, Repr

/-- One PMS port. -/
structure PmsSt where
  queue : List PmsEntry
  run : Option PmsRun
  tx : List Word
  rx : List Word
  /-- the word a slave has begun to send -/
  cur : Option Word
  deriving DecidableEq, Repr

/-- A fuse operation (R429). -/
inductive FuseOp where
  | program (slot : Fin 4)
  | revoke (slot : Fin 4)
  | floor (v : Nat)
  deriving DecidableEq, Repr

/-- The service port (R418 to R427). -/
structure SvcSt where
  /-- SVC_CS_N is low -/
  sel : Bool
  /-- this device took a SELECT frame: it is selected in the next select -/
  selNext : Bool
  /-- reply to the last frame: STAT bits 7:3, ADDR, DATA -/
  stat : Nat
  addr : Nat
  data : Word
  /-- the 72-bit shift register as loaded last (R420) -/
  shift : Nat
  /-- a pointer has been set since reset -/
  ptrSet : Bool
  /-- a write that waits for a general tag (R426) -/
  pend : Option (Nat × Word)
  deriving DecidableEq, Repr

structure SerSt where
  queue : List FlsEntry
  /-- entries whose writers stall on a full queue -/
  blocked : List FlsEntry
  gather : Option FlsGather
  run : Option FlsRun
  /-- the transactions that the port last put on the flash, in order (R406, R407) -/
  bus : List FlsTxn
  /-- the thermal shut-down has closed the queue (R416) -/
  closed : Bool
  /-- filled lines of the cache, oldest first (R409) -/
  lines : List (Nat × List Byte)
  pms : Vector PmsSt 4
  fuseOp : Option FuseOp
  svc : SvcSt
  deriving DecidableEq, Repr

def PmsSt.reset : PmsSt := { queue := [], run := none, tx := [], rx := [], cur := none }

def SvcSt.reset : SvcSt :=
  { sel := false, selNext := false, stat := 0, addr := 0, data := 0, shift := 0, ptrSet := false, pend := none }

def SerSt.reset : SerSt :=
  { queue := [], blocked := [], gather := none, run := none, bus := [], closed := false, lines := [],
    pms := Vector.replicate 4 PmsSt.reset, fuseOp := none, svc := SvcSt.reset }

end Sys2Proof.Machine
end

