-- ==== Sys2Proof/Machine/YokTypes.lean ====
section
/-!
DEFINITION. The state of the yoke link beside its registers (chapter 13 of the spec).
-/
namespace Sys2Proof.Machine

/-- What a partner's last good heartbeat carried (R347). -/
structure HbSt where
  role : Nat
  ready : Bool
  view : Bool
  netlock : Bool
  pref : Bool
  runMask : Nat
  tripMask : Nat
  deriving DecidableEq, Repr

/-- A link frame handed to the lanes (R347): its sequence and its payload. -/
inductive YokFrame where
  | heartbeat (seq : Nat) (stamp : Nat) (h : HbSt)
  | commit (seq : Nat) (task : Fin 36) (rel : Nat) (consec : Nat) (words range : List Word) (obs : Option Nat)
  | ident (seq : Nat) (stateId pdkId cfgId : List Byte) (addr : Nat)
  deriving DecidableEq, Repr

/-- The yoke. -/
structure YokSt where
  /-- tick of Paddock lock, and of the last good heartbeat or link-up -/
  lockAt : Tick
  hbAt : Tick
  hb : Option HbSt
  /-- filtered level of ACT_IN outside its band -/
  actIn : Bool
  /-- partner identity: STATE_ID, PDK_ID, device address -/
  ident : Option (List Byte × List Byte × Nat)
  /-- own runs whose outputs are held as pending, by task (R348) -/
  pend : Vector (Option RunSt) 36
  /-- tasks with an adopted commit, and tasks with an unmended commit failure (R346) -/
  adopted : List (Fin 36)
  failed : List (Fin 36)
  /-- divergent samples in a row, tick of the last LATE record (R348, R362) -/
  divRun : Nat
  lateAt : Option Tick
  /-- detection tick of the last takeover, and the teams whose first update point after it is to come (R351, R352) -/
  td : Tick
  window : List (Fin 24)
  /-- tick of the last planned release: runs released before it commit and are sent (R351) -/
  relAt : Tick
  /-- last watchdog kick; since when VIEW is 0; since when ACT_IN and ACT_OUT are both high -/
  wdAt : Tick
  view0 : Option Tick
  both : Option Tick
  /-- tick in which a SHADOW device last left its role for a lost link (R361) -/
  lostAt : Option Tick
  /-- a device-level fault of R349 is present -/
  fault : Bool
  /-- frames sent: next sequence, bytes of the last 1,024 µs, the last frame -/
  seq : Nat
  sent : List (Tick × Nat)
  last : Option YokFrame
  /-- ticks of the last heartbeat and of the last IDENT sent -/
  hbTx : Option Tick
  idTx : Option Tick
  deriving DecidableEq, Repr

def YokSt.reset : YokSt :=
  { lockAt := 0, hbAt := 0, hb := none, actIn := true, ident := none, pend := Vector.replicate 36 none, adopted := [],
    failed := [], divRun := 0, lateAt := none, td := 0, window := [], relAt := 0, wdAt := 0, view0 := none, both := none, lostAt := none,
    fault := false, seq := 0, sent := [], last := none, hbTx := none, idTx := none }

end Sys2Proof.Machine
end

