-- ==== Sys2Proof/Machine/CmdTypes.lean ====
section
/-!
DEFINITION. The operand types of the commands: who sends a write or a read, the inputs with a hysteresis band, what a
supervisor pair's checkpoint issues, and the like.
-/
namespace Sys2Proof.Machine

/-- Who sends a register write or read as a command: a supervisor pair's firmware or the service port (R475).  Every
other writer of R475 acts inside the block. -/
inductive Master where
  | supA
  | supB
  | svc
  deriving DecidableEq, Repr

/-- The writer that a master is (R337). -/
def Master.writer : Master → Writer
  | .supA => .supA
  | .supB => .supB
  | .svc => .svc

/-- The reader that a master is, in the order of `State.snaps` (R466). -/
def Master.reader : Master → Fin 4
  | .supA => 0
  | .supB => 1
  | .svc => 2

/-- The supervisor pair that a master is. -/
def Master.pair : Master → Option (Fin 2)
  | .supA => some 0
  | .supB => some 1
  | .svc => none

/-- The master that a pair is. -/
def pairMaster (r : Fin 2) : Master := if r = 0 then .supA else .supB

/-- Width of a core access (R464). -/
inductive Width where
  | byte
  | half
  | word
  deriving DecidableEq, Repr

/-- An input with a band detector (R113). -/
inductive BandInput where
  | safeN
  | pgood
  | tripIn (i : Fin 8)
  | cmp (k : Fin 96) (c : Cond)
  | report (n : Fin 72) (sw : Sw)
  | actIn
  deriving DecidableEq, Repr

/-- The carrier of a team, or that of one leg of a team with its own phase (R141, R142). -/
inductive Carr where
  | team (t : Fin 24)
  | leg (n : Fin 72)
  deriving DecidableEq, Repr

/-- A history whose warm-up count reaches zero (R122): the over-current filter of a channel, whose count runs on the
clock, or one that is counted by the events that feed it. -/
inductive WarmUnit where
  | overCurrent (c : Fin 144)
  | byEvent
  deriving DecidableEq, Repr

/-- A captured bit (R210, R211): clocked, with the ticks since the last capture, counted from the rising edge, in which
the input moved; or decoded from a mid-bit transition, with its direction and its position in its tick. -/
inductive Capture where
  | clocked (level : Bool) (moved : List (Fin 16))
  | manchester (rising : Bool) (fine : Fin 256)
  deriving DecidableEq, Repr

/-- A store that a checkpoint issues (R355, R410): a register write, or a program or erase of the flash. -/
inductive EgStore where
  | reg (a : BitVec 24) (v : Word)
  | prog (a : BitVec 24) (bytes : List Byte)
  | erase (a : BitVec 24)
  deriving DecidableEq, Repr

/-- A supervisor pair beside its registers (R356): it has reloaded, and no checkpoint has completed since. -/
structure SupSt where
  reloaded : Bool
  deriving DecidableEq, Repr

/-- A filtered feed condition (R451). -/
inductive FeedCond where
  | uv
  | ov
  | rev
  deriving DecidableEq, Repr

/-- A filtered level of SAFE_N (R328): the tick of the command, and the tick at which the ball changed. -/
structure BallEdge where
  tick : Tick
  ball : Tick
  deriving DecidableEq, Repr

/-- A core's read of the flash window: which core's, and whether it fetches an instruction (R86, R409). -/
structure CoreRead where
  core : Fin 2
  fetch : Bool
  deriving DecidableEq, Repr

end Sys2Proof.Machine
end

