-- ==== Sys2Proof/Syntax.lean ====
section
/-!
DEFINITION. The commands of the block: one constructor for each row of spec/opcode_table.json, in the table's order.

A command carries the tick `t` at which it reaches the block (log entry 1), what its sender gives it (a value, an index),
and what the outside gives the block at that instant (a ball's level, a received frame, the position `fine` of an instant in
its tick in units of 1/256 tick).  The operations of a control-engine program (R239) carry the lane or shadow `l` that runs them, the fields of
the program word and the outcome `chk` of the memory check; they happen inside their run, so they carry no tick.
-/
namespace Sys2Proof
open Sys2Proof.Machine

/-- A command of the block. -/
inductive Instr where
  /-- POWER_ON_RESET (R110): The internal monitor sees VDD_CORE, VDD_IO or VDD_GATE below its threshold and resets the
  whole device at once, with no hold-off. -/
  | powerOnReset (t : Tick)
  /-- RESET_N_LOW (R110): RESET_N is held low for at least 1 µs, which requests a whole-device reset through the hold-
  off of R111. -/
  | resetNLow (t : Tick)
  /-- PGOOD_LOW (R110): PGOOD is held low for at least 1 µs, which requests a whole-device reset through the hold-off
  of R111. -/
  | pgoodLow (t : Tick)
  /-- RESTART_REQUEST (R111): A keyed write of GO to IDG_RESTART, from firmware or from the service port in pipelined
  mode, brings every team to its safe state and starts the reset hold-off. -/
  | restartRequest (t : Tick) (m : Master) (v : Word)
  /-- RESET_HOLDOFF_EXPIRY (R111): The 4,096-tick hold-off ends, and the device resets and drives every gate command
  low. -/
  | resetHoldoffExpiry (t : Tick)
  /-- RESET_RELEASE (R45): RESET_N is released with PGOOD high, and the boot logic starts clock bring-up on the boot
  oscillator. -/
  | resetRelease (t : Tick) (test : Bool)
  /-- PLL_LOCK (R45): The root PLL locks; device time starts counting and the housekeeping rounds begin. -/
  | pllLock (t : Tick)
  /-- PLL_LOCK_TIMEOUT (R45): The PLL has not locked within 2 ms of reset release; the device records
  SUPPLY:PLL_UNLOCK, holds its outputs safe and retries the lock. -/
  | pllLockTimeout (t : Tick)
  /-- DLL_LOCK (R45): The delay-line DLLs lock; CLK_CORE starts with spread, and image load begins. -/
  | dllLock (t : Tick)
  /-- REFERENCE_FAULT (R46): REFCLK is missing for 200 ns or the PLL loses lock; the device freezes the PLL control
  word, brings every team to its safe state and clears NETLOCK. -/
  | referenceFault (t : Tick) (lost : Bool)
  /-- REFERENCE_HOLD_EXPIRY (R46): 10 ms after a reference fault, the device places every network port and yoke lane
  in electrical idle. -/
  | referenceHoldExpiry (t : Tick)
  /-- DLL_UNLOCK (R67): A delay line's DLL loses lock; the device records SUPPLY:DLL_UNLOCK, brings the leg's team to
  its safe state and disables the line. -/
  | dllUnlock (t : Tick) (line : Fin 362)
  /-- CALIBRATION_STEP (R64): Every 256 µs the calibration engine measures one delay line and renews that line's
  correction table. -/
  | calibrationStep (t : Tick) (table : List Int)
  /-- TIM_RATE_WRITE (R59): A write to TIM_RATE sets the rate steer; a value beyond ±60 ppm is clamped, and a write by
  a non-owner is discarded. -/
  | timRateWrite (t : Tick) (m : Master) (v : Word)
  /-- TIM_SLEW_WRITE (R58): A write to TIM_SLEW replaces the remaining phase offset that the discipline loop slews
  out. -/
  | timSlewWrite (t : Tick) (m : Master) (v : Word)
  /-- SLEW_COMPLETE (R58): The remaining slew offset reaches zero, and SLEWING clears. -/
  | slewComplete (t : Tick)
  /-- TIME_STEP (R60): A write of 1 to TIM_STEPCTL.GO steps device time when no team runs; otherwise the step is
  refused. -/
  | timeStep (t : Tick) (m : Master)
  /-- PPS_OUT_RISE (R63): PPS_OUT rises at a whole second of device time. -/
  | ppsOutRise (t : Tick)
  /-- PPS_OUT_FALL (R63): PPS_OUT falls once its configured PPSO_WIDTH high time has ended. -/
  | ppsOutFall (t : Tick)
  /-- PPS_IN_EDGE (R63): A rising edge on PPS_IN is stamped to 12.5 ps into TIM_PPSIN. -/
  | ppsInEdge (t : Tick) (fine : Fin 256)
  /-- FLASH_INIT (R115): The load sends the flash software reset, waits, and polls the flash status until it reports
  not busy. -/
  | flashInit (t : Tick)
  /-- FLASH_INIT_TIMEOUT (R115): The flash stays busy beyond the 500 ms polling bound, and the load fails with class
  NVM. -/
  | flashInitTimeout (t : Tick)
  /-- MEMORY_CLEAR (R115): The clear of the control-engine memories, the capture buffer and both supervisor SRAMs to
  zero with matching ECC completes. -/
  | memoryClear (t : Tick)
  /-- SELECTOR (R72): Both selector copies have been read, and the slot to load is chosen. -/
  | selector (t : Tick) (copy0 copy1 : List Byte)
  /-- HEADER (R77): The image header has been read and checked, and the fast read profile is selected. -/
  | header (t : Tick) (bytes : List Byte)
  /-- CRC_TABLE (R79): The block CRC table has been read at the fast profile and checked against TBL_CRC. -/
  | crcTable (t : Tick) (bytes : List Byte)
  /-- BODY_BLOCK_READ (R115): One 4 KiB body block arrives; it is CRC-checked, fed to the digests, and copied or
  buffered. -/
  | bodyBlockRead (t : Tick) (bytes : List Byte)
  /-- BLOCK_REREAD (R116): A re-read of a flash structure that failed its CRC completes, at the profile that the re-
  read count selects. -/
  | blockReread (t : Tick) (bytes : List Byte)
  /-- SIGNATURE (R115): The signature block has been read and its SCRC checked. -/
  | signature (t : Tick) (bytes : List Byte)
  /-- VERIFY (R98): The digest, the identities and the ECDSA signature are checked, and the image is accepted or
  refused. -/
  | verify (t : Tick)
  /-- APPLY (R102): The buffered sections are applied in order: CLOCK, PINS, PADDOCK, LEGTEAM, NETID and REGINIT. -/
  | apply (t : Tick)
  /-- OVERLAY (R105): Overlay records are read, checked, and applied to tables or skipped. -/
  | overlay (t : Tick) (bytes : List Byte)
  /-- PADDOCK_LOCK (R472): The Paddock locks in one tick; shadows are copied to active, bounds are adjusted, and teams
  take their safe state. -/
  | paddockLock (t : Tick)
  /-- INPUT_BAND_EXIT (R113): An input seen outside its hysteresis band for its filter time leaves the band and is
  read normally from then on. -/
  | inputBandExit (t : Tick) (b : BandInput) (fault : Bool)
  /-- WARMUP_COMPLETE (R122): A history-dependent block's warm-up count reaches zero, and its VALID bit is set. -/
  | warmupComplete (t : Tick) (u : WarmUnit)
  /-- UPDATE_POINT (R141): At a team update point, every shadow of the team and its legs is copied to the staged
  copies, and staged values take effect. -/
  | updatePoint (t : Tick) (c : Carr)
  /-- PERIOD_START (R142): A team or leg carrier period starts, and its length, including dither, is fixed. -/
  | periodStart (t : Tick) (c : Carr) (fine : Fin 256)
  /-- EPOCH (R189): A carrier epoch of an aligned team arrives; it starts a period, reseeds dither, and a new period
  length may be applied or refused. -/
  | epoch (t : Tick) (tm : Fin 24) (fine : Fin 256)
  /-- COMPARE_EDGE (R130): The commanded pulse changes level at a compare instant, as a rank-6 event, and passes the
  edge-shaping stages. -/
  | compareEdge (t : Tick) (n : Fin 72) (fine : Fin 256)
  /-- CONVERTER_TRIGGER (R140): Compare C or D reaches its position and raises a stamped converter trigger that marks
  sample instants. -/
  | converterTrigger (t : Tick) (n : Fin 72) (c d : Option (Fin 256))
  /-- RESTART_CROSSING (R133): The restart comparator crosses in a variable period; the crossing is counted, and the
  restart is scheduled at the VALLEY count. -/
  | restartCrossing (t : Tick) (tm : Fin 24) (rising : Bool)
  /-- PERIOD_RESTART (R133): The scheduled restart instant arrives, and the variable period ends and a new one starts.
  -/
  | periodRestart (t : Tick) (tm : Fin 24) (fine : Fin 256)
  /-- VARIABLE_PERIOD_TIMEOUT (R133): No restart has been scheduled by position X; the period ends there and TMOCNT
  increments. -/
  | variablePeriodTimeout (t : Tick) (tm : Fin 24) (fine : Fin 256)
  /-- DEAD_TIME_END (R154): The dead time before a turn-on ends, and the switch turns on unless the interlock holds
  it. -/
  | deadTimeEnd (t : Tick) (n : Fin 72) (fine : Fin 256)
  /-- REPORT_CHANGE (R159): A gate-state report changes; it is stamped, matched against the open expectations, and may
  release a held turn-on.  `level`: the new level of LEGn_SH or LEGn_SL. -/
  | reportChange (t : Tick) (n : Fin 72) (sw : Sw) (level : Bool) (fine : Fin 256)
  /-- REPORT_TIMEOUT (R159): An expectation is not closed within TMO and is declared missing. -/
  | reportTimeout (t : Tick) (n : Fin 72) (sw : Sw)
  /-- BOTH_ON (R160): Both gates have been reported on for one tick; the leg latches a trip with INTERLOCK:BOTH_ON. -/
  | bothOn (t : Tick) (n : Fin 72)
  /-- INTERLOCK_CANCEL (R162): A held turn-on is cancelled when its on-interval would fall below MINP, or at the
  switch's next turn-off. -/
  | interlockCancel (t : Tick) (n : Fin 72) (fine : Fin 256)
  /-- BOOTSTRAP_REFRESH (R173): The bootstrap count reaches LIMIT with GH high, and a refresh forces the output
  inactive. -/
  | bootstrapRefresh (t : Tick) (n : Fin 72)
  /-- REFRESH_END (R173): GL has been high at the ball for W fine steps; the refresh ends and the count returns to 0.
  -/
  | refreshEnd (t : Tick) (n : Fin 72) (fine : Fin 256)
  /-- LEG_OVR_WRITE (R176): A write to LEG_OVR requests overrides; overrides that are not permitted are clipped, and
  FORCE takes effect in the next tick. -/
  | legOvrWrite (t : Tick) (m : Master) (n : Fin 72) (v : Word)
  /-- TEAM_ENABLE (R187): A write of 1 to TEAM_CTL.EN moves a team from OFF to WAIT, or is refused. -/
  | teamEnable (t : Tick) (m : Master) (tm : Fin 24)
  /-- TEAM_DISABLE (R185): A write of 0 to TEAM_CTL.EN moves the team to OFF at its safe level. -/
  | teamDisable (t : Tick) (m : Master) (tm : Fin 24)
  /-- TEAM_RESUME (R186): A write of 1 to TEAM_CTL.RESUME moves a HALTED team to WAIT when permitted, or is refused.
  -/
  | teamResume (t : Tick) (m : Master) (tm : Fin 24)
  /-- GROUP_RELEASE (R199): A machine-group task is released; the command and the live set are latched and the shares
  are allocated. -/
  | groupRelease (t : Tick) (g : Fin 8)
  /-- SAMPLE_DELIVERY (R214): A channel's sinc3 sample for a marked centre is delivered to SDM_RES and to the holding
  register. -/
  | sampleDelivery (t : Tick) (c : Fin 144)
  /-- BITSTREAM_LOSS (R222): A stuck bitstream or a Manchester decode failure is declared a loss; the channel's VALID
  bits drop and its histories restart. -/
  | bitstreamLoss (t : Tick) (c : Fin 144) (det : Fin 4)
  /-- OSR_WRITE (R224): A write to SDM_OSR.OSR restarts the main filter's history, or is refused while the bound team
  is in RUN. -/
  | osrWrite (t : Tick) (m : Master) (c : Fin 144) (v : Word)
  /-- SAMPLE_RELEASE (R248): A team task is released at rank 9, and its input frame and set-points are latched. -/
  | sampleRelease (t : Tick) (tm : Fin 24)
  /-- TASK_START (R249): The dispatcher starts a released task on a free lane of its pool. -/
  | taskStart (t : Tick) (l : Fin 16)
  /-- COMMIT_ARRIVAL (R246): A run's commit arrives in CLK_TIME; output words, shares, journal and flags are applied
  in one tick, or discarded. -/
  | commitArrival (t : Tick) (k : Fin 36)
  /-- GROUP_DEADLINE (R251): A group run has not committed by release + DL; it is discarded as an overrun. -/
  | groupDeadline (t : Tick) (g : Fin 8)
  /-- BACKGROUND_RELEASE (R248): A background task is released every PER ticks, or skipped while it runs. -/
  | backgroundRelease (t : Tick) (b : Fin 4)
  /-- BACKGROUND_GO (R248): A write of 1 to CE_BGCFG.GO releases a background task. -/
  | backgroundGo (t : Tick) (m : Master) (b : Fin 4) (v : Word)
  /-- SCRUB_STEP (R255): The scrubber reads one memory word, corrects a single error or records an uncorrectable one.
  -/
  | scrubStep (t : Tick) (chk : Chk)
  /-- NOP (R239): Operation NOP does nothing for one cycle. -/
  | ceNop (l : Fin 16) (chk : Chk)
  /-- END (R246): Operation END ends the task and requests its commit. -/
  | ceEnd (l : Fin 16) (chk : Chk)
  /-- CLR (R239): Operation CLR clears an accumulator. -/
  | ceClr (l : Fin 16) (a : Fin 4) (chk : Chk)
  /-- LD (R239): Operation LD loads a signal word into an accumulator. -/
  | ceLd (l : Fin 16) (a : Fin 4) (x : Fin 1024) (chk : Chk)
  /-- ADD (R239): Operation ADD adds a signal word to an accumulator. -/
  | ceAdd (l : Fin 16) (a : Fin 4) (x : Fin 1024) (chk : Chk)
  /-- SUB (R239): Operation SUB subtracts a signal word from an accumulator. -/
  | ceSub (l : Fin 16) (a : Fin 4) (x : Fin 1024) (chk : Chk)
  /-- LDC (R239): Operation LDC loads a coefficient into an accumulator. -/
  | ceLdc (l : Fin 16) (a : Fin 4) (y : Fin 1024) (chk : Chk)
  /-- MUL (R239): Operation MUL sets an accumulator to a signal times a coefficient. -/
  | ceMul (l : Fin 16) (a : Fin 4) (x : Fin 1024) (y : Fin 1024) (chk : Chk)
  /-- MAC (R239): Operation MAC adds a signal times a coefficient to an accumulator. -/
  | ceMac (l : Fin 16) (a : Fin 4) (x : Fin 1024) (y : Fin 1024) (chk : Chk)
  /-- MSU (R239): Operation MSU subtracts a signal times a coefficient from an accumulator. -/
  | ceMsu (l : Fin 16) (a : Fin 4) (x : Fin 1024) (y : Fin 1024) (chk : Chk)
  /-- MACS (R239): Operation MACS adds the product of two signals to an accumulator. -/
  | ceMacs (l : Fin 16) (a : Fin 4) (x : Fin 1024) (y : Fin 1024) (chk : Chk)
  /-- MSUS (R239): Operation MSUS subtracts the product of two signals from an accumulator. -/
  | ceMsus (l : Fin 16) (a : Fin 4) (x : Fin 1024) (y : Fin 1024) (chk : Chk)
  /-- STS (R237): Operation STS stores an accumulator, rounded and saturated, to a signal word. -/
  | ceSts (l : Fin 16) (a : Fin 4) (x : Fin 1024) (m : Fin 4) (chk : Chk)
  /-- SHA (R239): Operation SHA shifts an accumulator by a signed amount. -/
  | ceSha (l : Fin 16) (a : Fin 4) (y : Fin 32) (chk : Chk)
  /-- NEG (R239): Operation NEG negates an accumulator. -/
  | ceNeg (l : Fin 16) (a : Fin 4) (chk : Chk)
  /-- ABS (R239): Operation ABS takes an accumulator's absolute value. -/
  | ceAbs (l : Fin 16) (a : Fin 4) (chk : Chk)
  /-- MIN (R239): Operation MIN takes the minimum of an accumulator and a signal. -/
  | ceMin (l : Fin 16) (a : Fin 4) (x : Fin 1024) (chk : Chk)
  /-- MAX (R239): Operation MAX takes the maximum of an accumulator and a signal. -/
  | ceMax (l : Fin 16) (a : Fin 4) (x : Fin 1024) (chk : Chk)
  /-- LIM (R239): Operation LIM clamps an accumulator between two coefficient limits. -/
  | ceLim (l : Fin 16) (a : Fin 4) (y : Fin 1024) (chk : Chk)
  /-- LIMS (R239): Operation LIMS clamps an accumulator to plus or minus the magnitude of a signal. -/
  | ceLims (l : Fin 16) (a : Fin 4) (x : Fin 1024) (chk : Chk)
  /-- VLIM (R242): Operation VLIM scales two accumulators so that their vector magnitude is at most a limit. -/
  | ceVlim (l : Fin 16) (a : Fin 4) (x : Fin 1024) (chk : Chk)
  /-- LDW (R239): Operation LDW loads a raw signal word into accumulator bits 31:0. -/
  | ceLdw (l : Fin 16) (a : Fin 4) (x : Fin 1024) (chk : Chk)
  /-- LDCW (R239): Operation LDCW loads a raw coefficient word into accumulator bits 31:0. -/
  | ceLdcw (l : Fin 16) (a : Fin 4) (y : Fin 1024) (chk : Chk)
  /-- ADDW (R239): Operation ADDW adds a raw word to an accumulator modulo 2^32. -/
  | ceAddw (l : Fin 16) (a : Fin 4) (x : Fin 1024) (chk : Chk)
  /-- BIQ (R241): Operation BIQ runs one second-order section with an optional clamp. -/
  | ceBiq (l : Fin 16) (a : Fin 4) (x : Fin 1024) (y : Fin 1024) (m : Fin 2) (chk : Chk)
  /-- AMUL (R239): Operation AMUL multiplies an angle by a shifted coefficient, modulo 2^32. -/
  | ceAmul (l : Fin 16) (a : Fin 4) (y : Fin 1024) (chk : Chk)
  /-- STW (R239): Operation STW stores accumulator bits 31:0 raw to a signal word. -/
  | ceStw (l : Fin 16) (a : Fin 4) (x : Fin 1024) (chk : Chk)
  /-- TLU (R242): Operation TLU adds an interpolated table entry, read at an angle, to an accumulator. -/
  | ceTlu (l : Fin 16) (a : Fin 4) (x : Fin 1024) (y : Fin 16) (chk : Chk)
  /-- SINCOS (R242): Operation SINCOS computes the sine and cosine of an angle into two accumulators. -/
  | ceSincos (l : Fin 16) (a : Fin 4) (x : Fin 1024) (chk : Chk)
  /-- ATAN2 (R242): Operation ATAN2 computes the angle of the vector held in two accumulators. -/
  | ceAtan2 (l : Fin 16) (a : Fin 4) (chk : Chk)
  /-- DIV (R242): Operation DIV divides an accumulator by a signal, correctly rounded. -/
  | ceDiv (l : Fin 16) (a : Fin 4) (x : Fin 1024) (chk : Chk)
  /-- SQRT (R242): Operation SQRT takes the square root of an accumulator. -/
  | ceSqrt (l : Fin 16) (a : Fin 4) (chk : Chk)
  /-- TOCMP (R239): Operation TOCMP converts an accumulator to a compare value, with the reserved extremes. -/
  | ceTocmp (l : Fin 16) (a : Fin 4) (x : Fin 1024) (m : Fin 4) (chk : Chk)
  /-- SKZ (R240): Operation SKZ skips the following operations when a selected bit is 0. -/
  | ceSkz (l : Fin 16) (x : Fin 1024) (y : Fin 32) (m : Fin 16) (chk : Chk)
  /-- SKS (R240): Operation SKS skips the following operations when a selected bit is 1. -/
  | ceSks (l : Fin 16) (x : Fin 1024) (y : Fin 32) (m : Fin 16) (chk : Chk)
  /-- SKN (R240): Operation SKN skips the following operations when the accumulator is negative. -/
  | ceSkn (l : Fin 16) (a : Fin 4) (m : Fin 16) (chk : Chk)
  /-- SKNN (R240): Operation SKNN skips the following operations when the accumulator is non-negative. -/
  | ceSknn (l : Fin 16) (a : Fin 4) (m : Fin 16) (chk : Chk)
  /-- CAP (R276): Operation CAP appends a signal word to a capture stream through the journal. -/
  | ceCap (l : Fin 16) (x : Fin 1024) (y : Fin 4) (chk : Chk)
  /-- SETF (R246): Operation SETF sets a user flag of the run. -/
  | ceSetf (l : Fin 16) (y : Fin 8) (chk : Chk)
  /-- GENERATOR_GO (R275): A write of 1 to CE_GENCTL.GO starts a generator at the first release of its task stamped at
  or after CE_GENSTART. -/
  | generatorGo (t : Tick) (m : Master) (g : Fin 4)
  /-- GENERATOR_ABORT (R275): A write of 1 to CE_GENCTL.ABORT stops a generator, which sets ABORTED. -/
  | generatorAbort (t : Tick) (m : Master) (g : Fin 4)
  /-- CAPTURE_ARM (R276): A write of 1 to CE_CAPCTL.ARM arms a stream from the next commit and resets its pointer. -/
  | captureArm (t : Tick) (m : Master) (c : Fin 4)
  /-- CAPTURE_STOP (R277): A write of 1 to CE_CAPCTL.STOP disarms a capture stream. -/
  | captureStop (t : Tick) (m : Master) (c : Fin 4)
  /-- EDGE_ACCEPT (R284): A feedback input level passes its filter, is stamped, and updates the count, speed,
  direction and compares.  `acc`: the accepted levels; `raw`: the synchronised, unfiltered ones; `rej`: on how many inputs
  a level has returned before its acceptance in this tick. -/
  | edgeAccept (t : Tick) (p : Fin 8) (acc raw : Abz) (rej : Fin 4)
  /-- POSITION_SET (R287): A write to FBK_POSSET sets the count, makes position VALID and clears the index reference.
  -/
  | positionSet (t : Tick) (m : Master) (p : Fin 8) (v : Word)
  /-- HALL_CODE_TIMEOUT (R288): A Hall code of 000 or 111 is still held 32 ticks later, and HALL_BAD is declared. -/
  | hallCodeTimeout (t : Tick) (p : Fin 8)
  /-- SSI_REQUEST (R289): A trigger or a periodic request starts an SSI frame, or is skipped. -/
  | ssiRequest (t : Tick) (p : Fin 8) (dat : Bool)
  /-- SSI_GO (R289): A write of 1 to FBK_SSIREQ.GO requests an SSI frame. -/
  | ssiGo (t : Tick) (m : Master) (p : Fin 8) (v : Word) (dat : Bool)
  /-- SSI_FRAME_END (R290): An SSI frame's result is known; its CRC and status are checked and the position is
  updated. -/
  | ssiFrameEnd (t : Tick) (p : Fin 8) (bits : Nat) (lost : Bool)
  /-- SPEED_ZERO (R293): The decayed speed falls below SPDMIN, and the speed reads 0 with ZERO set. -/
  | speedZero (t : Tick) (p : Fin 8)
  /-- PROBE_LATCH (R297): An accepted probe edge latches the stamp and the position. -/
  | probeLatch (t : Tick) (p : Fin 8) (level : Bool)
  /-- COMPARE_TARGET_WRITE (R299): A write to FBK_CMPTGT sets a compare target, which is evaluated as armed or behind.
  -/
  | compareTargetWrite (t : Tick) (m : Master) (p : Fin 8) (k : Fin 4) (v : Word)
  /-- COMPARE_ENABLE (R299): A write that sets FBK_CMPCFG.EN from 0 to 1 arms a unit and evaluates it. -/
  | compareEnable (t : Tick) (m : Master) (p : Fin 8) (k : Fin 4) (v : Word)
  /-- COMPARE_PULSE_END (R298): The WIDTH-tick pulse on FBOm_Z from a compare firing ends. -/
  | comparePulseEnd (t : Tick) (p : Fin 8) (k : Fin 4)
  /-- EMULATION_STEP (R302): A synthesised emulation output steps its count toward its target once SPACE has elapsed.
  -/
  | emulationStep (t : Tick) (o : Fin 2)
  /-- EDGE_TIMEOUT (R303): No qualifying event arrives within the edge timeout, and EDGE_TMO is declared. -/
  | edgeTimeout (t : Tick) (p : Fin 8)
  /-- FREEZE_DETECT (R303): The count has not changed for FRZT × 256 ticks while the motion estimate shows speed, and
  FROZEN is declared. -/
  | freezeDetect (t : Tick) (p : Fin 8)
  /-- LADDER_RAMP_END (R307): The torque ramp time ends; the ladder goes to ENDED and the team enters HALTED. -/
  | ladderRampEnd (t : Tick) (p : Fin 8)
  /-- COMPARATOR_CROSSING (R315): A continuous comparator's condition changes, drives the FAST path, and is stamped.
  `mv` and `fr`: the level to which its input moves, in millivolts and sixteenths of one (R314). -/
  | comparatorCrossing (t : Tick) (k : Fin 96) (mv : BitVec 12) (fr : Fin 16) (fine : Fin 256)
  /-- COMPARATOR_SAMPLE (R315): A sampled comparator is powered and evaluated, and its conditions are held.  `mv` and
  `fr`: the level of its input, in millivolts and sixteenths of one (R314). -/
  | comparatorSample (t : Tick) (k : Fin 96) (mv : BitVec 12) (fr : Fin 16)
  /-- TRIP_SEEN (R318): The leg logic sees a FAST latch 2 ticks later and acts at rank 1: it cancels turn-ons, zeroes
  the carry and drops the team from its group. -/
  | tripSeen (t : Tick) (n : Fin 72)
  /-- BLANKING_END (R319): A blanking window ends, and a D condition still asserted sets the latch. -/
  | blankingEnd (t : Tick) (n : Fin 72) (fine : Fin 256)
  /-- TRIP_IN_EDGE (R321): A TRIP_IN ball changes level and starts its filter. -/
  | tripInEdge (t : Tick) (i : Fin 8) (lvl : Bool)
  /-- FILTERED_TRIP (R321): A FILTERED condition stays asserted through its filter, and the latches of its scope set.
  -/
  | filteredTrip (t : Tick) (src : TripSrc) (c : Cond)
  /-- SOFT_OFF_STEP2 (R322): At stamp + SOFT × 0.2 µs, the conducting switch and GM go low, and the sequence ends. -/
  | softOffStep2 (t : Tick) (n : Fin 72) (fine : Fin 256)
  /-- TRIP_CLEAR (R325): A write of 1 to LEG_TRIPCLR.CLR releases the latch, or refuses the clear or keeps it pending.
  -/
  | tripClear (t : Tick) (m : Master) (n : Fin 72)
  /-- AUTO_REARM_RELEASE (R325): A pending clear releases the latch at the first tick in which all clear conditions
  hold. -/
  | autoRearmRelease (t : Tick) (n : Fin 72)
  /-- SAFE_N_LOW (R328): The filtered SAFE_N becomes low; every team takes its safe level, and teams in WAIT or RUN
  enter HALTED. -/
  | safeNLow (t : BallEdge)
  /-- SAFE_N_HIGH (R328): The filtered SAFE_N returns high after 17 high ticks; nothing starts on its own. -/
  | safeNHigh (t : BallEdge)
  /-- IDENT_SEND (R347): A yoked device sends an IDENT frame at INIT and once per second. -/
  | identSend (t : Tick)
  /-- IDENT_RECEIVE (R345): The partner's IDENT frame arrives; identities are compared and a role is taken. -/
  | identReceive (t : Tick) (good : Bool) (stateId pdkId : List Byte) (addr : BitVec 12)
  /-- JOIN_TIMEOUT (R345): No heartbeat arrives within JOINTMO of Paddock lock, and the device becomes ACTIVE alone.
  -/
  | joinTimeout (t : Tick)
  /-- HEARTBEAT_SEND (R347): A HEARTBEAT frame is sent every HBPER × 64 ticks. -/
  | heartbeatSend (t : Tick)
  /-- HEARTBEAT_RECEIVE (R347): A partner heartbeat arrives, carrying its stamp, role and status bits, which feed the
  time servo. -/
  | heartbeatReceive (t : Tick) (good : Bool) (ofs : Int) (h : HbSt)
  /-- HEARTBEAT_TIMEOUT (R362): HBTMO heartbeat periods pass without a good heartbeat; the link is lost. -/
  | heartbeatTimeout (t : Tick)
  /-- LANE_SYNC_LOSS (R362): A yoke lane loses sync, and the link runs on one lane or is lost. -/
  | laneSyncLoss (t : Tick) (j : Fin 2)
  /-- COMMIT_FRAME_RECEIVE (R348): A complete COMMIT frame is adopted at rank 10 on a SHADOW or SYNC device, or counts
  as a failure. -/
  | commitFrameReceive (t : Tick) (good : Bool) (k : Fin 36) (rel consec : Nat) (words range : List Word) (obs : Option Nat)
  /-- ACT_IN_FALL (R350): The filtered ACT_IN falls, and a SHADOW device claims the selector in the next tick. -/
  | actInFall (t : Tick)
  /-- ACT_IN_RISE (R344): The filtered ACT_IN rises, and an ACTIVE device's claim conditions are re-evaluated. -/
  | actInRise (t : Tick)
  /-- ACT_CONFLICT (R344): ACT_IN and ACT_OUT are both high for 4 ticks; the higher-addressed device releases and
  takes STANDBY. -/
  | actConflict (t : Tick)
  /-- WATCHDOG_KICK (R344): A write of 1 to YOK_WDKICK restarts the yoke watchdog. -/
  | watchdogKick (t : Tick) (m : Master)
  /-- WATCHDOG_EXPIRY (R349): The yoke watchdog expires; an ACTIVE device drops ACT_OUT and takes STANDBY. -/
  | watchdogExpiry (t : Tick)
  /-- VIEW_RULE_EXPIRY (R349): The device's VIEW has been 0 for 64 ticks while the partner is READY; it releases
  ACT_OUT. -/
  | viewRuleExpiry (t : Tick)
  /-- ACT_RELEASE (R360): A write of 1 to YOK_CTL.RELEASE makes a planned release when the partner is READY, or is
  refused. -/
  | actRelease (t : Tick) (m : Master)
  /-- CHECKPOINT (R355): A supervisor pair takes a checkpoint and issues its egress queue to the fabric. -/
  | checkpoint (t : Tick) (q : Fin 2) (stores : List EgStore)
  /-- LOCKSTEP_MISMATCH (R356): The cores of a pair disagree; the pair discards its egress queue and reloads its last
  checkpoint. -/
  | lockstepMismatch (t : Tick) (q : Fin 2)
  /-- LINK_UP (R366): A network port's PCS synchronises, auto-negotiation completes, and the link comes up. -/
  | linkUp (t : Tick) (p : Fin 3) (rf : Bool)
  /-- LINK_DOWN (R366): Loss of synchronisation lasts 1 ms, and the link goes down with NET:LINK_DOWN. -/
  | linkDown (t : Tick) (p : Fin 3)
  /-- SYNC_RECEIVE (R373): A Sync message is received, forwarded with correction, and, when chosen, used by the servo.
  -/
  | syncReceive (t : Tick) (p : Fin 3) (ps : Nat) (src : PtpId) (seq dom : Nat) (two : Bool) (origin corr : Int) (hops : Nat)
  /-- FOLLOW_UP_RECEIVE (R372): A Follow_Up of a two-step Sync is received, corrected and forwarded. -/
  | followUpReceive (t : Tick) (p : Fin 3) (src : PtpId) (seq dom : Nat) (origin corr : Int)
  /-- ANNOUNCE_RECEIVE (R374): An Announce is received, forwarded, and used in best-master selection. -/
  | announceReceive (t : Tick) (p : Fin 3) (src : PtpId) (seq dom : Nat) (gm : GmData)
  /-- ANNOUNCE_SEND (R375): As Bellwether, the device sends Announce at its configured interval. -/
  | announceSend (t : Tick)
  /-- SYNC_SEND (R375): As Bellwether, the device sends a one-step Sync at its configured interval. -/
  | syncSend (t : Tick)
  /-- PDELAY_REQ_SEND (R370): A port sends a Pdelay_Req at its peer-delay interval. -/
  | pdelayReqSend (t : Tick) (p : Fin 3)
  /-- PDELAY_REQ_RECEIVE (R370): A Pdelay_Req is received and answered with a one-step Pdelay_Resp. -/
  | pdelayReqReceive (t : Tick) (p : Fin 3) (ps : Nat) (src : PtpId) (seq : Nat)
  /-- PDELAY_RESP_RECEIVE (R370): A peer-delay response completes an exchange and updates meanLinkDelay and PDVALID.
  -/
  | pdelayRespReceive (t : Tick) (p : Fin 3) (ps : Nat) (fup two : Bool) (req : PtpId) (seq : Nat) (ts corr : Int)
  /-- SYNC_TIMEOUT (R379): No usable Sync arrives for 3 intervals; the servo enters holdover. -/
  | syncTimeout (t : Tick)
  /-- HOLDMAX_EXPIRY (R379): Holdover exceeds HOLDMAX; NETLOCK clears and NET:TIME_LOSS is recorded. -/
  | holdmaxExpiry (t : Tick)
  /-- PPS_LOSS (R375): As Bellwether, no PPS_IN edge arrives for 2 s; the rate is held and clockClass becomes 7. -/
  | ppsLoss (t : Tick)
  /-- ICEND_CYCLE_BOUNDARY (R384): An Icend cycle begins and the Icend window opens. -/
  | icendCycleBoundary (t : Tick)
  /-- DATA_FRAME_SEND (R394): At boundary + NET_TXOFS, the device sends its DATA frame with team status and published
  values. -/
  | dataFrameSend (t : Tick)
  /-- RECEIVE_DEADLINE (R386): At the receive deadline, the held Icend items of the cycle are delivered and team
  status is applied. -/
  | receiveDeadline (t : Tick)
  /-- ICEND_FRAME_RECEIVE (R392): An Icend frame arrives; it is checked, forwarded or removed, and its good new blocks
  are held for delivery. -/
  | icendFrameReceive (t : Tick) (p : Fin 3) (bytes : List Byte) (good tagged : Bool)
  /-- REPAIR_REQ_RECEIVE (R395): A REPAIR_REQ addressed to the device makes it re-send the block in a REPAIR_DATA
  frame. -/
  | repairReqReceive (t : Tick) (p : Fin 3) (bytes : List Byte) (good tagged : Bool)
  /-- HELLO_SEND (R399): Once per second, the device sends a HELLO frame with its address and age. -/
  | helloSend (t : Tick)
  /-- HELLO_RECEIVE (R399): A HELLO frame is received and checked for an address or segment conflict. -/
  | helloReceive (t : Tick) (p : Fin 3) (mac : BitVec 48) (bytes : List Byte) (good tagged : Bool)
  /-- JOIN_COMPLETE (R399): After 2 s of HELLO frames without a conflict, the device sets JOINED and begins DATA
  frames. -/
  | joinComplete (t : Tick)
  /-- OTHER_FRAME_RECEIVE (R367): A non-Icend, non-PTP frame for the device is written to a mailbox receive slot, or
  dropped. -/
  | otherFrameReceive (t : Tick) (p : Fin 3) (bytes : List Byte) (good : Bool) (ps : Nat)
  /-- MAILBOX_POP (R368): A write of 1 to NET_MBXRXPOP.POP frees the head receive slot. -/
  | mailboxPop (t : Tick) (m : Master)
  /-- MAILBOX_SEND (R368): A write of GO to NET_MBXTXCTL queues a transmit slot, or sets ERR. -/
  | mailboxSend (t : Tick) (m : Master) (port : Fin 4) (u : Fin 4) (len : BitVec 11)
  /-- MAILBOX_SENT (R368): A mailbox frame has been sent; BUSY clears and DONE is set. -/
  | mailboxSent (t : Tick) (u : Fin 4)
  /-- EGRESS_FRAME_START (R385): An egress port becomes free, and the next queued frame starts in priority order under
  the window rule. -/
  | egressFrameStart (t : Tick) (p : Fin 3) (ps : Nat)
  /-- FLASH_WINDOW_READ (R409): A core read of the flash window is served from the line cache, or fills a line after
  pending writes end. -/
  | flashWindowRead (t : Tick) (q : CoreRead) (a : BitVec 24) (line : List Byte)
  /-- FLASH_PROGRAM_STORE (R410): A core store to the program window queues a program of those bytes. -/
  | flashProgramStore (t : Tick) (q : Fin 2) (a : BitVec 24) (bytes : List Byte)
  /-- FLASH_ERASE_STORE (R410): A core store to the erase window queues an erase of the 4 KiB sector. -/
  | flashEraseStore (t : Tick) (q : Fin 2) (a : BitVec 24)
  /-- FLSWDATA_WRITE (R410): A write to SER_FLSWDATA queues a program of 4 bytes at SER_FLSADDR and advances the
  address. -/
  | flswdataWrite (t : Tick) (m : Master) (v : Word)
  /-- FLSERASE_WRITE (R410): A write to SER_FLSERASE queues an erase of the sector that holds the address. -/
  | flseraseWrite (t : Tick) (m : Master) (v : Word)
  /-- FLSRDATA_READ (R415): A read of SER_FLSRDATA reads 4 flash bytes at SER_FLSADDR after pending writes, and
  advances the address. -/
  | flsrdataRead (t : Tick) (m : Master) (data : Word)
  /-- FLASH_FLUSH (R411): A write of 1 to SER_FLSCTL.FLUSH programs the gathered bytes. -/
  | flashFlush (t : Tick) (m : Master) (v : Word)
  /-- GATHER_TIMEOUT (R411): 2 µs pass without a program byte, and the gathered page is programmed. -/
  | gatherTimeout (t : Tick)
  /-- FLASH_OPERATION_END (R411): The status poll shows a program or erase complete; lines are invalidated and the
  next queue entry proceeds. -/
  | flashOperationEnd (t : Tick) (good : Bool)
  /-- FLASH_OPERATION_TIMEOUT (R413): A flash operation exceeds its timeout; the port records it and resets the flash.
  -/
  | flashOperationTimeout (t : Tick)
  /-- SVC_SELECT_START (R420): SVC_CS_N falls, and the device loads the reply to its last frame into its shift
  register. -/
  | svcSelectStart (t : Tick) (bypass : Bool)
  /-- SVC_SELECT_END (R420): SVC_CS_N rises; the device takes its command frame, checks its CRC and returns to chain
  mode. -/
  | svcSelectEnd (t : Tick) (k : Nat) (bits : BitVec 72) (ext : Word)
  /-- SVC_NOP (R423): Service command NOP does nothing. -/
  | svcNop (t : Tick)
  /-- SVC_READ (R423): Service command READ reads ADDR and sets the pointer. -/
  | svcRead (t : Tick) (a : BitVec 24) (ext : Word)
  /-- SVC_READ_NEXT (R424): Service command READ_NEXT advances the pointer and reads there, or saturates at the page
  end. -/
  | svcReadNext (t : Tick) (ext : Word)
  /-- SVC_WRITE (R423): Service command WRITE writes DATA to ADDR at rank 11 and sets the pointer. -/
  | svcWrite (t : Tick) (a : BitVec 24) (v : Word)
  /-- SVC_WRITE_NEXT (R424): Service command WRITE_NEXT advances the pointer and writes there, or is discarded at
  saturation. -/
  | svcWriteNext (t : Tick) (v : Word)
  /-- SVC_SELECT (R422): Service command SELECT makes the device the selected device for pipelined mode. -/
  | svcSelect (t : Tick)
  /-- SVC_ARM (R427): Service command ARM arms privileged access for the select when its key matches. -/
  | svcArm (t : Tick) (v : Word)
  /-- FUSE_PROGRAM (R429): A fuse operation programs a key hash into a slot, or is refused. -/
  | fuseProgram (t : Tick) (m : Master) (slot : Fin 4)
  /-- FUSE_REVOKE (R429): A fuse operation revokes a key slot, or is refused. -/
  | fuseRevoke (t : Tick) (m : Master) (slot : Fin 4)
  /-- FUSE_RAISE_FLOOR (R429): A fuse operation raises the anti-rollback floor, or is refused. -/
  | fuseRaiseFloor (t : Tick) (m : Master) (f : BitVec 6)
  /-- FUSE_OPERATION_DONE (R429): A fuse operation ends and shows DONE or ERR. -/
  | fuseOperationDone (t : Tick) (good : Bool)
  /-- PMS_QUEUE_ENTRY (R431): A write to SER_PMSQ appends a transfer entry to the queue, or is discarded with QERR. -/
  | pmsQueueEntry (t : Tick) (m : Master) (q : Fin 4) (v : Word)
  /-- PMS_ENTRY_START (R431): A queued master entry starts and asserts its select. -/
  | pmsEntryStart (t : Tick) (q : Fin 4) (answer : List Word)
  /-- PMS_ENTRY_DONE (R431): A master entry completes and sets DONE. -/
  | pmsEntryDone (t : Tick) (q : Fin 4)
  /-- PMS_TX_WRITE (R432): A write to SER_PMSTX appends a word, and may let a stalled master continue. -/
  | pmsTxWrite (t : Tick) (m : Master) (q : Fin 4) (v : Word)
  /-- PMS_RX_READ (R432): A read of SER_PMSRX pops the oldest word, or sets RXUNF. -/
  | pmsRxRead (t : Tick) (m : Master) (q : Fin 4)
  /-- PMS_SLAVE_WORD (R433): A slave port completes a word; it pushes the received word and starts the next transmit
  word. -/
  | pmsSlaveWord (t : Tick) (q : Fin 4) (w : Word)
  /-- PMS_SLAVE_RELEASE (R433): A slave select rises mid-word; the partial word is pushed and ODDREL is set. -/
  | pmsSlaveRelease (t : Tick) (q : Fin 4) (b : Fin 33) (w : Word)
  /-- HK_SLOT (R440): A housekeeping channel's slot samples its ball or sensor and writes HKP_CH. -/
  | hkSlot (t : Tick) (ch : Fin 64) (code : BitVec 12) (temp : Int) (flag out : Bool)
  /-- HK_EVALUATION (R441): The once-per-round sensor evaluation forms HKP_TMAX and applies the thresholds. -/
  | hkEvaluation (t : Tick)
  /-- SHUTDOWN_GRACE_EXPIRY (R449): The flash grace expires during shut-down; the flash is reset and NVM:ABORT is
  recorded. -/
  | shutdownGraceExpiry (t : Tick)
  /-- SHUTDOWN_CLOCK_STOP (R449): After the soft-off and flash handling, every clock except CLK_HK and the boot
  oscillator stops. -/
  | shutdownClockStop (t : Tick)
  /-- FEED_CONDITION (R452): A filtered feed condition on the live feed causes a changeover or both-bad handling. -/
  | feedCondition (t : Tick) (b : Bool) (c : FeedCond) (lvl : Bool)
  /-- FEED_OVERLAP_END (R452): After the OVL overlap of an under-voltage changeover, the old feed's EN goes low. -/
  | feedOverlapEnd (t : Tick)
  /-- FEED_HEALTHY (R451): A feed has been free of every condition for 10 ms and becomes healthy. -/
  | feedHealthy (t : Tick) (b : Bool)
  /-- FEED_REVERT (R452): With REVERT = 1, PREF has been healthy for 1 s and the device changes back to it. -/
  | feedRevert (t : Tick)
  /-- JOURNAL_COMMIT (R454): The journal engine writes the next queued fault record into a slot and commits it. -/
  | journalCommit (t : Tick) (good : Bool)
  /-- JOURNAL_SCAN (R455): The journal scan after Paddock lock finishes and fixes the next SEQ and slot. -/
  | journalScan (t : Tick) (recs : List JEntry) (blank : Option (Fin 128))
  /-- LOG_WRITE (R460): A write to EVT_LOGWR queues a firmware fault record with EVT_LOGWRCTX. -/
  | logWrite (t : Tick) (m : Master) (v : Word)
  /-- SNAPSHOT_CAPTURE_READ (R466): A read of the capturing word of an SNP group copies the group into the reader's
  snapshot. -/
  | snapshotCaptureRead (t : Tick) (m : Master) (a : BitVec 24) (width : Width)
  /-- REGISTER_WRITE (R469): A write to a register with no behaviour of its own takes effect at its arrival tick,
  subject to the Paddock checks. -/
  | registerWrite (t : Tick) (m : Master) (a : BitVec 24) (v : Word) (width : Width)
  /-- GENERAL_TAG_FREE (R27): A general tag frees, and a source stalled for want of one issues its event. -/
  | generalTagFree (t : Tick)
  /-- BIT_CAPTURE (R210): A sigma-delta channel captures one bit, clocked at CAPDLY after SDM_CK or decoded from a
  Manchester mid-bit transition, and extends its held waveform, run count, eye mask and decoder lock. -/
  | bitCapture (t : Tick) (c : Fin 144) (b : Capture)
  /-- DECODE_ERROR (R211): A Manchester bit's mid-bit transition does not arrive within 0.75 bit periods of its
  expected instant, so the previous value is substituted and DECERR counted. -/
  | decodeError (t : Tick) (c : Fin 144)
  /-- OVER_CURRENT_CONDITION (R219): A channel's sinc2 result crosses SDM_OCHI or SDM_OCLO, so its high or low over-
  current condition asserts or releases and starts or ends its FILTERED filter. -/
  | overCurrentCondition (t : Tick) (c : Fin 144) (cond : Cond)
  /-- LANE_IN_SYNC (R345): A yoke link lane gains sync, so the link comes up or returns to two-lane operation and
  identities can be exchanged. -/
  | laneInSync (t : Tick) (j : Fin 2)
  /-- ANNOUNCE_RECEIPT_TIMEOUT (R374): No Announce arrives within announceReceiptTimeout, so best-master selection
  runs again and may elect a new Bellwether or make this device Bellwether. -/
  | announceReceiptTimeout (t : Tick)
  /-- UNSUPPORTED_PTP_MESSAGE (R370): A PTP message of an unsupported kind, such as Delay_Req or Signaling, is
  received and discarded and counted in NET_ERRCNT.DISC. -/
  | unsupportedPtpMessage (t : Tick) (p : Fin 3)
  /-- PARTNER_CLOCKED_SSI_FRAME (R291): With YOKSHARE = 1 and the device not ACTIVE, a falling edge of FBp_CLK after 2
  × H ticks high starts a frame that the port decodes on the partner's clock edges. -/
  | partnerClockedSsiFrame (t : Tick) (p : Fin 8)
  deriving DecidableEq, Repr

end Sys2Proof
end

