-- ==== Sys2Proof/Decode.lean ====
section
/-!
DEFINITION. Decoding of command words.  spec/opcode_table.json gives no row any bits, so no word spells a command; the
words of a control-engine program (R238) are memory words, read where the engine runs them (`Machine.opOf`).
-/
namespace Sys2Proof

/-- The command that a word spells by the table's bits: none. -/
def decodeTableWord (_nbits _w : Nat) : Option Instr := none

end Sys2Proof
end

