-- ==== Sys2Proof/Machine/CeMath.lean ====
section
/-!
DEFINITION. The arithmetic of the control engine (R234 to R242): numbers are integers in units of the accumulator LSB,
2^−61, and results are narrowed to 72, 64 or 32 bits at the end.
-/
namespace Sys2Proof.Machine

/-- Nearest integer to num/2^k, ties away from zero (R235). -/
def rndShift (num : Int) (k : Nat) : Int :=
  let q : Int := ((num.natAbs * 2 + 2 ^ k) / 2 ^ (k + 1) : Nat)
  if num < 0 then -q else q

/-- An exact value times 2^k, rounded under R235 when k is negative. -/
def scaleRnd (v : Int) (k : Int) : Int := if 0 ≤ k then v * 2 ^ k.toNat else rndShift v (-k).toNat

/-- Nearest quotient, ties away from zero (R239 DIV). -/
def divAway (a b : Int) : Int :=
  let q : Int := ((2 * a.natAbs + b.natAbs) / (2 * b.natAbs) : Nat)
  if (a < 0) = (b < 0) then q else -q

def accMin : Int := -(2 ^ 71)
def accMax : Int := 2 ^ 71 - 1

/-- A value narrowed to a range, and whether it saturated. -/
def narrow (lo hi v : Int) : Int × Nat := if v < lo then (lo, 1) else if v > hi then (hi, 1) else (v, 0)

/-- The accumulator takes the nearer end of its range (R236). -/
def accSat (v : Int) : Int × Nat := narrow accMin accMax v

/-- A biquad state element saturates to 64 bits (R234, R241). -/
def stateSat (v : Int) : Int × Nat := narrow (-(2 ^ 63)) (2 ^ 63 - 1) v

/-- Rounding modes of R237: an accumulator to a multiple of 2^−30, as a count of them. -/
def stsRound (mode : Nat) (a : Int) : Int :=
  let fl := a / 2 ^ 31
  let rem := a - fl * 2 ^ 31
  if mode = 0 then rndShift a 31
  else if mode = 1 then
    (if rem < 2 ^ 30 then fl else if rem > 2 ^ 30 then fl + 1 else if fl % 2 = 0 then fl else fl + 1)
  else if mode = 2 then tdiv a (2 ^ 31)
  else fl

/-- Rounded and saturated to a signal word (R237). -/
def toSignal (mode : Nat) (a : Int) : Int × Nat := narrow (-(2 ^ 31)) (2 ^ 31 - 1) (stsRound mode a)

/-- A signal word in accumulator units. -/
def sigAcc (w : Word) : Int := w.toInt * 2 ^ 31

/-- A coefficient with its shift in accumulator units; exact for every shift from −8 up. -/
def coefAcc (w : Word) (sh : Int) : Int := w.toInt * 2 ^ (30 + sh).toNat

/-- A signal times a coefficient at the accumulator LSB (R235). -/
def mulCoef (x w : Word) (sh : Int) : Int := scaleRnd (x.toInt * w.toInt) sh

/-- A signal times a signal. -/
def mulSig (x y : Word) : Int := x.toInt * y.toInt * 2

/-! ## Integer square root -/

/-- The largest r with r² ≤ n, built from its highest bit down. -/
def isqrtGo (n : Nat) : Nat → Nat → Nat
  | 0, r => r
  | k + 1, r => isqrtGo n k (if (r + 2 ^ k) * (r + 2 ^ k) ≤ n then r + 2 ^ k else r)

def isqrt (n : Nat) : Nat := isqrtGo n (n.log2 / 2 + 1) 0

/-- The nearest integer to the square root; no square root of an integer lies half way (R242). -/
def isqrtNear (n : Nat) : Nat :=
  let r := isqrt n
  if r * r + r < n then r + 1 else r

/-! ## Sine, cosine and angle (R242) -/

/-- Fraction bits of the working precision. -/
def fxP : Nat := 250

/-- π × 2^250, rounded down. -/
def piFx : Int := 5683930888933848816878670980902029103959271520756131718105814861217795226034

/-- Taylor series from one term on: each next term is the last times −x²/((n+1)(n+2)). -/
def taylor (x2 : Int) : Nat → Nat → Int → Int
  | 0, _, _ => 0
  | k + 1, n, term => term + taylor x2 k (n + 2) (tdiv (-(term * x2)) (2 ^ fxP * ((n + 1) * (n + 2) : Nat)))

/-- sin x and cos x for x in radians × 2^250 between 0 and π/2; the error lies far below 2^−230. -/
def sinFx (x : Int) : Int := taylor (x * x / 2 ^ fxP) 48 1 x
def cosFx (x : Int) : Int := taylor (x * x / 2 ^ fxP) 48 0 (2 ^ fxP)

/-- Rounded to a multiple of 2^−30, ties away from zero; no value but a multiple itself comes near a tie (R242). -/
def fxRound (v : Int) : Int := rndShift v (fxP - 30)

/-- sin and cos of the angle within its first quarter turn, r of 2^30. -/
def quarter (r : Nat) : Int × Int :=
  if r = 0 then (0, 2 ^ 30)
  else
    let x := piFx * r / 2 ^ 31
    (fxRound (sinFx x), fxRound (cosFx x))

/-- sin and cos of an A32 angle, in units of 2^−30 (R242). -/
def sinCos (a : Nat) : Int × Int :=
  let q := a / 2 ^ 30 % 4
  let (sn, cs) := quarter (a % 2 ^ 30)
  if q = 0 then (sn, cs)
  else if q = 1 then (cs, -sn)
  else if q = 2 then (-sn, -cs)
  else (-cs, sn)

/-- The vector lies at or beyond the angle r/2^33 of a turn, in its first quarter. -/
def beyond (x y : Int) (r : Nat) : Bool :=
  let t := piFx * r / 2 ^ 32
  decide (x * sinFx t ≤ y * cosFx t)

/-- Number of rounding bounds at or below the angle, by its bits from the highest down: bound j lies half a step below
step j. -/
def angleGo (x y : Int) : Nat → Nat → Nat
  | 0, r => r
  | k + 1, r => angleGo x y k (if beyond x y (2 * (r + 2 ^ k) - 1) then r + 2 ^ k else r)

/-- The angle of a vector in its first quarter, to the nearest 2^−32 of a turn. -/
def angleQ (x y : Int) : Nat := if y = 0 then 0 else angleGo x y 31 0

/-- The A32 angle of a vector (R242); 0 for the zero vector. -/
def atan2 (x y : Int) : Nat :=
  (if x = 0 ∧ y = 0 then 0
   else if 0 < x ∧ 0 ≤ y then angleQ x y
   else if x ≤ 0 ∧ 0 < y then 2 ^ 30 + angleQ y (-x)
   else if x < 0 then 2 ^ 31 + angleQ (-x) (-y)
   else 3 * 2 ^ 30 + angleQ (-y) x) % 2 ^ 32

/-! ## Vector limit, compare conversion -/

/-- One component of a vector scaled to magnitude L, rounded towards zero (R242). -/
def vlimOne (a l : Int) (n : Nat) : Int :=
  let q : Int := isqrt (a.natAbs * a.natAbs * (l.natAbs * l.natAbs) / n)
  if a < 0 then -q else q

/-- Both components; unchanged when the magnitude is at most L. -/
def vlim (a b l : Int) : Int × Int :=
  let n := a.natAbs * a.natAbs + b.natAbs * b.natAbs
  if n ≤ l.natAbs * l.natAbs then (a, b) else (vlimOne a l n, vlimOne b l n)

/-- TOCMP (R239). -/
def toCmp (m : Nat) (a : Int) : Nat :=
  if m % 2 = 1 ∧ a ≤ 0 then 0xFFFFFFFF
  else if m / 2 % 2 = 1 ∧ 2 ^ 61 ≤ a then 0xFFFFFFFE
  else (clampI 0 0xFFFFFFFD (a / 2 ^ 29)).toNat

/-- Quotient of an accumulator by a signal, saturated (R239). -/
def divAcc (a : Int) (w : Word) : Int × Nat :=
  if w.toInt = 0 then (if a = 0 then 0 else if a < 0 then accMin else accMax, 1)
  else accSat (divAway (a * 2 ^ 30) w.toInt)

/-- Square root of an accumulator (R239, R242). -/
def sqrtAcc (a : Int) : Int × Nat := if a < 0 then (0, 1) else ((isqrtNear (a.toNat * 2 ^ 61) : Nat), 0)

/-- Interpolated table entry, in accumulator units; exact (R242). -/
def tluAcc (t0 t1 : Word) (f : Nat) : Int := t0.toInt * 2 ^ 31 + (t1.toInt - t0.toInt) * f * 2 ^ 11

/-- Raw bits 31:0 of an accumulator. -/
def accRaw (a : Int) : Nat := (a % 2 ^ 32).toNat

end Sys2Proof.Machine
end

