-- ==== Sys2Proof/Config.lean ====
section
/-!
DEFINITION. What an implementation fixes and what the spec leaves open: the free values.  None has a body, so no proof
can see a value of one.
-/
namespace Sys2Proof.Config

/-- The value a step stores where the spec gives the step but not the value (log entry 3): the n-th value drawn.
The counter n is `State.freeCnt`. -/
opaque freeWord : Nat → Word

end Sys2Proof.Config
end

