-- ==== Sys2Proof/Machine/FbkTypes.lean ====
section
/-!
DEFINITION. The state a feedback port and an emulation output hold beside their registers (chapter 11 of the spec).
-/
namespace Sys2Proof.Machine

/-- One feedback port. -/
structure PortSt where
  /-- accepted levels: A, B, Z, or U, V, W; and PROBE (R284, R288, R297) -/
  a : Bool
  b : Bool
  z : Bool
  prb : Bool
  /-- the synchronised, unfiltered levels of the three inputs (R284, R301) -/
  raw : Abz
  /-- qualifying events of the speed history, newest first: stamp tick and cumulative count, corrections excluded -/
  evs : List (Tick × Int)
  /-- cumulative count of the qualifying events -/
  cum : Int
  /-- qualifying events that the speed warm-up still needs (R122) -/
  warm : Nat
  /-- interval Δ and its count n of the last speed value, and that value (R292) -/
  delta : Nat
  spanN : Nat
  spdEv : Int
  /-- stamp tick of the last qualifying event and the extended count there (R293, R301) -/
  lastEv : Option Tick
  ext0 : Int
  /-- changes of the count, newest first: the stamp tick, the position before and the position after (R297) -/
  hist : List (Tick × Word × Word)
  /-- stamp tick of the latest probe latch (R297) -/
  prbAt : Option Tick
  /-- index reference (R296) -/
  haveRef : Bool
  ref : Word
  /-- SSI: consecutive bad frames, request tick of the running frame, clocked by the partner, end of the last frame,
  previous position value, next periodic request (R289 to R291) -/
  crcBad : Nat
  ssiT0 : Option Tick
  ssiPartner : Bool
  ssiEnd : Tick
  ssiPrev : Option Nat
  ssiNext : Option Tick
  /-- the yoke role was ACTIVE at the last request that a frame could follow: the port drives FBp_CLK (R291) -/
  ssiDrive : Bool
  /-- Hall: present sector, and the acceptance tick of a held 000 or 111 (R288) -/
  sector : Option Nat
  hallBad : Option Tick
  /-- tick of the last change of the count, and a FROZEN loss that awaits a count (R303, R305) -/
  changeAt : Tick
  frozen : Bool
  /-- the motion word as the last commit left it, and the tick since which it and CE_OBS.VALID have shown motion (R303) -/
  mot : Nat
  motFrom : Option Tick
  /-- tick of the last loss declared (R310) -/
  lossAt : Option Tick
  /-- start of the torque ramp (R307) -/
  rampAt : Tick
  /-- compare pulses: selected outputs, first and last tick high (R298) -/
  pulses : Vector (Option (Nat × Tick × Tick)) 4
  deriving DecidableEq, Repr

/-- What drives an emulation output (R301). -/
inductive OutSrc where
  | off
  | pass
  | div
  | est
  deriving DecidableEq, Repr

/-- One emulation output. -/
structure OutSt where
  cur : OutSrc
  /-- output count, its offset from the target's source, tick of the last step (R302) -/
  out : Int
  off : Int
  lastStep : Tick
  /-- last state-word angle and its unwrapped value (R301) -/
  angle : Word
  unwrapped : Int
  /-- levels for FBOm_A, FBOm_B, FBOm_Z, without the pulses of compares (R298, R301) -/
  a : Bool
  b : Bool
  z : Bool
  deriving DecidableEq, Repr

def PortSt.reset : PortSt :=
  { a := false, b := false, z := false, prb := false, raw := ⟨false, false, false⟩, evs := [], cum := 0, warm := 2, delta := 0, spanN := 0, spdEv := 0,
    lastEv := none, ext0 := 0, hist := [], prbAt := none, haveRef := false, ref := 0, crcBad := 0, ssiT0 := none, ssiPartner := false,
    ssiEnd := 0, ssiPrev := none, ssiNext := none, ssiDrive := false, sector := none, hallBad := none, changeAt := 0, frozen := false,
    mot := 0, motFrom := none, lossAt := none,
    rampAt := 0, pulses := Vector.replicate 4 none }

def OutSt.reset : OutSt :=
  { cur := .off, out := 0, off := 0, lastStep := 0, angle := 0, unwrapped := 0, a := false, b := false, z := false }

end Sys2Proof.Machine
end

