-- ==== Sys2Proof/Machine/SdmTypes.lean ====
section
/-!
DEFINITION. The state a sigma-delta channel holds beside its registers (chapter 08 of the spec).
-/
namespace Sys2Proof.Machine

/-- What a channel waits for before its histories start (R221, R222). -/
inductive SdmAwait where
  /-- histories run -/
  | none
  /-- the first capture after set-up or a re-phase -/
  | first
  /-- after a STUCK loss, the first bit that differs from the run -/
  | differs
  /-- after a Manchester loss, the decoder's lock -/
  | relock
  deriving DecidableEq, Repr

/-- A marked sample that has not been delivered (R214): its centre, its delivery tick, the OSR it was marked with, and
the device-time stamp of its centre. -/
structure SdmMark where
  centre : Tick
  deliver : Tick
  osr : Nat
  stamp : Nat
  deriving DecidableEq, Repr

/-- A running clock output: its first rising edge since it last started or was re-phased, and, after a re-phase, the last
rising edge before it (R208, R209). -/
structure CkSt where
  first : Tick
  old : Option Tick
  deriving DecidableEq, Repr

/-- One channel. -/
structure SdmSt where
  /-- captured bits, newest first: capture tick and value after POL (R212) -/
  bits : List (Tick × Bool)
  await : SdmAwait
  /-- start of the main filter's and of the over-current filter's history (R221) -/
  histMain : Option Tick
  histOc : Option Tick
  /-- the main history restarts at the next capture: an OSR change (R221) -/
  restartMain : Bool
  /-- run of equal captured bits (R222) -/
  runVal : Bool
  runLen : Nat
  /-- centre of the previous accepted marking (R215), samples still to be delivered -/
  lastMark : Option Tick
  marks : List SdmMark
  /-- Manchester: instants of the last 17 mid-bit transitions, newest first, consecutive decode errors, bits decoded in
  a row, locked (R211) -/
  mids : List Fine
  errs : Nat
  good : Nat
  locked : Bool
  /-- tick up to which the over-current results have been formed (R218) -/
  ocAt : Tick
  deriving DecidableEq, Repr

def SdmSt.reset : SdmSt :=
  { bits := [], await := .first, histMain := none, histOc := none, restartMain := false, runVal := false, runLen := 0,
    lastMark := none, marks := [], mids := [], errs := 0, good := 0, locked := false, ocAt := 0 }

end Sys2Proof.Machine
end

