-- ==== Sys2Proof/Machine/State.lean ====
section
/-!
DEFINITION. The state of the block.
-/
namespace Sys2Proof.Machine

/-- What stops the block.  No rule of the spec stops the machine: a fault of the hardware is a record, a flag or a
safe state, all of them next states.  The type has one constructor because it must be a closed inductive. -/
inductive Fault where
  /-- Raised by no command.  Safe: a model that never stops here claims nothing of a stop. -/
  | none
  deriving DecidableEq, Repr

/-- Why a command is not run. -/
inductive Refusal where
  /-- A command that the model does not know, by its mnemonic.  Raised by no arm of `exec`: every row has its meaning.
  Safe: nothing is claimed of a refused command. -/
  | notModelled (mnemonic : String)
  deriving DecidableEq, Repr

/-- What waits for a general tag (R27): an untimed notification, a core's store, a run's commit on its lane, an Icend
item in the receive buffer, a yoke commit to adopt, or the service port's write. -/
inductive Stall where
  | note
  | write (w : Writer) (a : Nat) (v : Word)
  | commit (k : Fin 36)
  | item (x : NetItem)
  | adopt (k : Fin 36) (rel consec : Nat) (words range : List Word) (obs : Option Nat)
  | svc
  deriving DecidableEq, Repr

/-- The block itself: what the spec names, and three fields of the model's own (`now`, `same`, `freeCnt`).  A register's
value lives in `regs`; the other fields hold what the spec describes beside registers. -/
structure Body where
  /-- ticks since power-on: the model's own clock, which no TIME_STEP moves -/
  now : Tick
  /-- the register file: every register's value in effect, by byte address -/
  regs : Cells
  /-- the shadow copies of SH registers (R141) -/
  shadow : Cells
  /-- the staged copies of SH registers (R141) -/
  staged : Cells
  /-- the memory windows, by key -/
  mem : Cells
  /-- words of the control-engine memories whose stored code is not clean, by key: true where it is uncorrectable (R255) -/
  upset : List (Nat × Bool)
  /-- clocks and device time (chapter 02), the image load (chapter 04), the fuses (R99) -/
  tim : TimSt
  load : LoadSt
  fuse : FuseSt
  /-- legs, teams and machine groups (chapters 05 to 07) -/
  legs : Vector LegSt 72
  teams : Vector TeamSt 24
  groups : Vector GroupSt 8
  /-- trip sources: comparators, TRIP_IN, over-current; SAFE_N (chapter 12) -/
  cmps : Vector CmpSt 96
  tins : Vector TinSt 8
  sdmTrips : Vector SdmTripSt 144
  safe : SafeSt
  /-- sigma-delta channels (chapter 08) -/
  sdms : Vector SdmSt 144
  /-- SDM_CKg: the tick of its first rising edge since it last started or was re-phased (R208, R209) -/
  sdmCk : Vector (Option CkSt) 8
  /-- control engine (chapters 09 and 10), feedback ports and emulation outputs (chapter 11), yoke (chapter 13),
  network (chapter 14), serial ports (chapter 15) -/
  ce : CeSt
  fbk : Vector PortSt 8
  fbo : Vector OutSt 2
  yok : YokSt
  net : NetSt
  ser : SerSt
  /-- housekeeping, the retained shut-down record, the fault-log journal (chapter 16) -/
  hk : HkSt
  shutRec : ShutRec
  jrn : JrnSt
  /-- the two supervisor pairs (R356) -/
  sup : Vector SupSt 2
  /-- effects that fall due at a later tick -/
  due : List (Tick × Deferred)
  /-- snapshots of SNP groups and the value of the last read, by reader: SUP-A, SUP-B, service port, Icend publish (R466) -/
  snaps : Vector Cells 4
  lastRead : Vector Word 4
  /-- general tags in use in this tick, and what waits for one, oldest first (R26, R27) -/
  tagsUse : Nat
  stalled : List Stall
  /-- what the device has set in this tick that a write of the tick does not undo (R470): the model's own record -/
  same : SameTick
  /-- free values drawn so far (log entry 3): the model's own field -/
  freeCnt : Nat
  deriving DecidableEq, Repr

/-- The state of the block: the block, the commands that have acted in the present tick (R23: a command of an earlier rank
that comes in after them acts before them), and the commands that wait. -/
structure State extends Body where
  /-- the block as the first command of tick `actedAt` found it: the model's own record -/
  base : Body
  /-- the commands that have acted in tick `actedAt`, in the order in which they took effect: the model's own record -/
  acted : List Instr
  actedAt : Tick
  /-- commands waiting, first in, first out -/
  pending : List Instr
  deriving DecidableEq, Repr

/-- The block before power-on reset has been released: every register at its reset word (an empty `regs` reads as
`regReset`), every memory window 0. -/
def Body.reset : Body :=
  { now := 0, regs := [], shadow := [], staged := [], mem := [], upset := [], tim := TimSt.reset, load := LoadSt.reset,
    fuse := FuseSt.reset, legs := Vector.replicate 72 LegSt.reset, teams := Vector.replicate 24 TeamSt.reset,
    groups := Vector.replicate 8 GroupSt.reset,
    cmps := Vector.replicate 96 { h := FiltSt.reset, l := FiltSt.reset, scope := [] },
    tins := Vector.replicate 8 { ball := false, f := { FiltSt.reset with raw := true }, scope := [] },
    sdmTrips := Vector.replicate 144 { h := FiltSt.reset, l := FiltSt.reset, scope := [] },
    safe := { filtLow := true, edge := 0, outAt := 0 },
    sdms := Vector.replicate 144 SdmSt.reset, sdmCk := Vector.replicate 8 none, ce := CeSt.reset,
    fbk := Vector.replicate 8 PortSt.reset, fbo := Vector.replicate 2 OutSt.reset, yok := YokSt.reset,
    net := NetSt.reset, ser := SerSt.reset, hk := HkSt.reset, shutRec := ShutRec.reset, jrn := JrnSt.reset,
    sup := Vector.replicate 2 { reloaded := false }, due := [], snaps := Vector.replicate 4 [],
    lastRead := Vector.replicate 4 0, tagsUse := 0, stalled := [],
    same := { tick := 0, bits := [], ups := [], hold := false }, freeCnt := 0 }

/-- The block at power-on with no command waiting. -/
def State.reset : State :=
  { Body.reset with base := Body.reset, acted := [], actedAt := 0, pending := [] }

end Sys2Proof.Machine
end

