-- ==== Sys2Proof/Machine/Ops.lean ====
section
/-!
DEFINITION. The shared operations over the state: register words and fields, per-instance updates, device-time stamps,
fault records, deferred effects and free values.
-/
namespace Sys2Proof.Machine

/-! ## Registers -/

/-- The word a register holds (the active copy, R9, R471). -/
def State.rd (s : State) (a : Nat) : Word := cellsGet regReset s.regs a

/-- Store a register word. -/
def State.wr (s : State) (a : Nat) (w : Word) : State := { s with regs := cellsSet regReset s.regs a w }

/-- A field's value. -/
def State.get (s : State) (f : Fld) : Nat := bitsGet (s.rd f.addr) f.lo f.width

/-- Store a field's value, modulo 2^width. -/
def State.put (s : State) (f : Fld) (v : Nat) : State := s.wr f.addr (bitsSet (s.rd f.addr) f.lo f.width v)

/-- A one-bit field as a Bool. -/
def State.bit (s : State) (f : Fld) : Bool := s.get f != 0

/-- Store a one-bit field. -/
def State.putB (s : State) (f : Fld) (b : Bool) : State := s.put f (b2n b)

/-- A field as a two's complement value. -/
def State.getI (s : State) (f : Fld) : Int := toSigned f.width (s.get f)

/-- Store a two's complement value. -/
def State.putI (s : State) (f : Fld) (v : Int) : State := s.put f (ofSigned f.width v)

/-- Advance a wrapping counter (R499). -/
def State.bump (s : State) (f : Fld) : State := s.put f (s.get f + 1)

/-- Advance a counter that saturates at its largest value (R499). -/
def State.bumpSat (s : State) (f : Fld) : State := s.put f (satAdd (2 ^ f.width - 1) (s.get f) 1)

/-- Set bit `i` of a field. -/
def State.setBit (s : State) (f : Fld) (i : Nat) (b : Bool) : State :=
  s.putB ⟨f.addr, f.lo + i, 1⟩ b

/-! ## Updates of the device that meet a write of the same tick (R470) -/

/-- The device sets a W1C bit: a write of this tick leaves it set. -/
def State.raise (s : State) (f : Fld) : State :=
  { s.putB f true with same := { s.same.of s.now with bits := (f.addr, f.lo) :: (s.same.of s.now).bits } }

/-- The device sets bit `i` of a W1C field. -/
def State.raiseBit (s : State) (f : Fld) (i : Nat) : State := s.raise ⟨f.addr, f.lo + i, 1⟩

/-- A W1C bit that an evaluation of the device sets or takes back. -/
def State.raiseIf (s : State) (f : Fld) (b : Bool) : State := if b then s.raise f else s.putB f false

/-- Keep an update of this tick. -/
def State.noteUp (s : State) (x : TickUp) : State :=
  { s with same := { s.same.of s.now with ups := x :: (s.same.of s.now).ups } }

/-- A recorded maximum takes a value where that is larger. -/
def State.putMax (s : State) (f : Fld) (v : Nat) : State := if s.get f < v then s.put f v else s

/-- The device raises a recorded maximum that a write sets: after a write of this tick the larger of both stands. -/
def State.raiseMax (s : State) (f : Fld) (v : Nat) : State := (s.putMax f v).noteUp (.most f v)

/-- The device advances a counter that a write sets: it counts on from a value written in this tick. -/
def State.bumpUp (s : State) (f : Fld) : State := (s.bump f).noteUp (.count f)

/-- The W1C bits of a register that the device has set in this tick. -/
def State.keptBits (s : State) (a : Nat) : Word :=
  (s.same.of s.now).bits.foldl (fun w e => if e.1 = a then w ||| (1#32 <<< e.2) else w) 0

/-- The updates of this tick of the register at address a, made again after a write. -/
def State.redoUps (s : State) (a : Nat) : State :=
  (s.same.of s.now).ups.foldl (fun s x => match x with
    | .most f v => if f.addr = a then s.putMax f v else s
    | .count f => if f.addr = a then s.bump f else s) s

/-- Bit `i` of a field. -/
def State.bitAt (s : State) (f : Fld) (i : Nat) : Bool := s.bit ⟨f.addr, f.lo + i, 1⟩

/-! ## Shadow and staged copies (R141) -/

def State.rdSh (s : State) (a : Nat) : Word := cellsGet regReset s.shadow a
def State.wrSh (s : State) (a : Nat) (w : Word) : State := { s with shadow := cellsSet regReset s.shadow a w }
def State.rdSt (s : State) (a : Nat) : Word := cellsGet regReset s.staged a
def State.wrSt (s : State) (a : Nat) (w : Word) : State := { s with staged := cellsSet regReset s.staged a w }

/-- A field of a staged word. -/
def State.getSt (s : State) (f : Fld) : Nat := bitsGet (s.rdSt f.addr) f.lo f.width

/-- A field of a shadow word. -/
def State.getSh (s : State) (f : Fld) : Nat := bitsGet (s.rdSh f.addr) f.lo f.width

/-! ## Memory windows -/

/-- A word of a memory window; a word nothing has written reads 0 (R85, R115). -/
def State.memGet (s : State) (k : Nat) : Word := cellsGet zeroWord s.mem k

/-- Write a word of a memory window, with its residue and its code (R254, R255). -/
def State.memSet (s : State) (k : Nat) (w : Word) : State :=
  { s with mem := cellsSet zeroWord s.mem k w, upset := s.upset.filter (fun e => e.1 != k) }

/-- Keys of the memory windows: each window has its own range of keys. -/
def K.prog (i : Nat) : Nat := 0x0100000 + i
def K.coef (i : Nat) : Nat := 0x0200000 + i
def K.shift (i : Nat) : Nat := 0x0300000 + i
def K.state (i : Nat) : Nat := 0x0400000 + i
def K.table (t e : Nat) : Nat := 0x0500000 + t * 4096 + e
def K.cap (i : Nat) : Nat := 0x0600000 + i
def K.desc (k w : Nat) : Nat := 0x0700000 + k * 128 + w
def K.rxSlot (i w : Nat) : Nat := 0x0800000 + i * 512 + w
def K.txSlot (i w : Nat) : Nat := 0x0900000 + i * 512 + w
def K.sram (pair w : Nat) : Nat := 0x0A00000 + pair * 65536 + w

/-! ## Instances -/

def State.modLeg (s : State) (n : Fin 72) (f : LegSt → LegSt) : State :=
  { s with legs := s.legs.set n (f s.legs[n]) }
def State.modTeam (s : State) (t : Fin 24) (f : TeamSt → TeamSt) : State :=
  { s with teams := s.teams.set t (f s.teams[t]) }
def State.modGroup (s : State) (g : Fin 8) (f : GroupSt → GroupSt) : State :=
  { s with groups := s.groups.set g (f s.groups[g]) }
def State.modCmp (s : State) (k : Fin 96) (f : CmpSt → CmpSt) : State :=
  { s with cmps := s.cmps.set k (f s.cmps[k]) }
def State.modTin (s : State) (i : Fin 8) (f : TinSt → TinSt) : State :=
  { s with tins := s.tins.set i (f s.tins[i]) }
def State.modSdmTrip (s : State) (c : Fin 144) (f : SdmTripSt → SdmTripSt) : State :=
  { s with sdmTrips := s.sdmTrips.set c (f s.sdmTrips[c]) }
def State.modSdm (s : State) (c : Fin 144) (f : SdmSt → SdmSt) : State :=
  { s with sdms := s.sdms.set c (f s.sdms[c]) }
def State.modPort (s : State) (p : Fin 8) (f : PortSt → PortSt) : State :=
  { s with fbk := s.fbk.set p (f s.fbk[p]) }
def State.modOut (s : State) (m : Fin 2) (f : OutSt → OutSt) : State :=
  { s with fbo := s.fbo.set m (f s.fbo[m]) }
def State.modCe (s : State) (f : CeSt → CeSt) : State := { s with ce := f s.ce }
def State.modYok (s : State) (f : YokSt → YokSt) : State := { s with yok := f s.yok }
def State.modTim (s : State) (f : TimSt → TimSt) : State := { s with tim := f s.tim }
def State.modLoad (s : State) (f : LoadSt → LoadSt) : State := { s with load := f s.load }
def State.modNet (s : State) (f : NetSt → NetSt) : State := { s with net := f s.net }
def State.modServo (s : State) (f : ServoSt → ServoSt) : State := s.modNet (fun n => { n with servo := f n.servo })
def State.modNPort (s : State) (p : Fin 3) (f : NetPort → NetPort) : State :=
  s.modNet (fun n => { n with ports := n.ports.set p (f n.ports[p]) })
def State.modSer (s : State) (f : SerSt → SerSt) : State := { s with ser := f s.ser }
def State.modPms (s : State) (q : Fin 4) (f : PmsSt → PmsSt) : State :=
  s.modSer (fun x => { x with pms := x.pms.set q (f x.pms[q]) })
def State.modSvc (s : State) (f : SvcSt → SvcSt) : State := s.modSer (fun x => { x with svc := f x.svc })
def State.modHk (s : State) (f : HkSt → HkSt) : State := { s with hk := f s.hk }
def State.modJrn (s : State) (f : JrnSt → JrnSt) : State := { s with jrn := f s.jrn }

/-- Apply an effect for each element, in list order. -/
def each {α : Type} (l : List α) (f : α → State → State) (s : State) : State :=
  l.foldl (fun s a => f a s) s

/-- Apply an effect only when a condition holds. -/
def State.when_ (s : State) (b : Bool) (f : State → State) : State := if b then f s else s

/-- Every leg, team, group and so on, in ascending order (R24). -/
def allLegs : List (Fin 72) := List.finRange 72
def allTeams : List (Fin 24) := List.finRange 24
def allGroups : List (Fin 8) := List.finRange 8
def allCmps : List (Fin 96) := List.finRange 96
def allChans : List (Fin 144) := List.finRange 144

/-- Read a count as an index below `n`. -/
def finOf (n : Nat) (v : Nat) : Option (Fin n) := if h : v < n then some ⟨v, h⟩ else none

/-! ## Time -/

/-- The instant of the present tick in the model's fine steps. -/
def State.nowF (s : State) : Fine := 256 * s.now

/-- Device time of an instant, 72 bits (R54): device time moves 256 fine steps in every tick. -/
def State.stampOf (s : State) (x : Fine) : Nat :=
  (((s.tim.dev : Int) + (x : Int) - (s.nowF : Int)) % (2 ^ 72 : Int)).toNat

/-- Store a 40-bit stamp: bits 31:0 in the first word, bits 39:32 in bits 7:0 of the second (R69 layout). -/
def State.putStamp (s : State) (a0 a1 : Nat) (x : Nat) : State :=
  (s.wr a0 (BitVec.ofNat 32 x)).put ⟨a1, 0, 8⟩ (x / 2 ^ 32)

/-- Ticks in one second and in one millisecond (R6: a tick is 3.2 ns). -/
def ticksPerSec : Nat := 312500000
def ticksPerMs : Nat := 312500

/-- Let an effect fall due at a later tick. -/
def State.defer (s : State) (t : Tick) (d : Deferred) : State := { s with due := s.due ++ [(t, d)] }

/-- Drop the deferred effects that satisfy a test. -/
def State.undefer (s : State) (p : Deferred → Bool) : State := { s with due := s.due.filter (fun e => !p e.2) }

/-! ## General tags (R26 to R28) -/

/-- Store the number of general tags in use, with the high-water mark.  A tag is held from its issue to the end of that tick
(log entry 85). -/
def State.tagSet (s : State) (n : Nat) : State :=
  let s := { s with tagsUse := n }
  (s.put F.EVT_TAGHWM_NOW n).raiseMax F.EVT_TAGHWM_HWM n

/-- A general tag is free. -/
def State.tagFree (s : State) : Bool := decide (s.tagsUse < 128)

/-- A source stalls: it is counted, and waits behind those that stalled before (R27, R28), until tags free. -/
def State.stall (s : State) (x : Stall) : State :=
  (({ s with stalled := s.stalled ++ [x] }).bumpUp F.EVT_BPCNT_COUNT).defer (s.now + 1) .tagDrain

/-- Which source an event comes from: each keeps its own order (R24, R27). -/
def Stall.source : Stall → Nat
  | .note => 0
  | .item _ => 1
  | .adopt .. => 2
  | .svc => 3
  | .write .supA _ _ => 4
  | .write .supB _ _ => 5
  | .write _ _ _ => 6
  | .commit k => 8 + k

/-- A general event can be issued: a tag is free, and nothing of its source waits (R27). -/
def State.mayIssue (s : State) (x : Stall) : Bool := s.tagFree && !s.stalled.any (fun y => y.source == x.source)

/-- A general event takes a tag and acts, or its source stalls (R26, R27). -/
def State.issueAs (s : State) (x : Stall) (f : State → State) : State :=
  if s.mayIssue x then f (s.tagSet (s.tagsUse + 1)) else s.stall x

/-- An untimed notification takes a general tag, or is held at its source in the order of its stamp (R26, R27). -/
def State.notify (s : State) : State := s.issueAs .note id

/-! ## Free values -/

/-- Draw a free value (log entry 3). -/
def State.free (s : State) : Word × State := (Config.freeWord s.freeCnt, { s with freeCnt := s.freeCnt + 1 })

/-- A value num/den as an integer where the spec names no rounding: exact when it is one, else one of its two
neighbours, left to a free value (log entry 3). -/
def State.roundFree (s : State) (num : Int) (den : Nat) : Int × State :=
  if num % den = 0 then (num / den, s)
  else
    let (w, s) := s.free
    (num / den + ((w.toNat % 2 : Nat) : Int), s)

/-! ## Fault records (R13, R36, R453) -/

/-- Fault classes (R36). -/
def cPADDOCK : Nat := 0x01
def cTRIP : Nat := 0x02
def cINTERLOCK : Nat := 0x03
def cOVERRUN : Nat := 0x04
def cRESIDUE : Nat := 0x05
def cECC : Nat := 0x06
def cLOCKSTEP : Nat := 0x07
def cFEEDBACK : Nat := 0x08
def cSENSE : Nat := 0x09
def cTHERMAL : Nat := 0x0A
def cSUPPLY : Nat := 0x0B
def cNET : Nat := 0x0C
def cYOKE : Nat := 0x0D
def cIMAGE : Nat := 0x0E
def cNVM : Nat := 0x0F

/-- A fault code: class in bits 15:8, detail in bits 7:0 (R13). -/
def fcode (cls det : Nat) : Nat := cls * 256 + det

/-- Queue a record for the journal; a full queue drops it and counts it (R454). -/
def State.jrnQueue (s : State) (r : FaultRec) : State :=
  if s.jrn.queue.length < 64 then
    let s := s.modJrn (fun j => { j with queue := j.queue ++ [r] })
    s.put F.EVT_LOGSTAT_QLVL s.jrn.queue.length
  else s.bumpSat F.EVT_LOGCNT_DROP

/-- EVT_LAST shows the newest recorded fault whether or not it reached flash (R453, R460). -/
def State.evtLast (s : State) (r : FaultRec) : State :=
  let s := s.wr A.EVT_LAST (BitVec.ofNat 32 r.code)
  let s := s.wr A.EVT_LASTCTX r.ctx
  s.putStamp A.EVT_LASTT0 A.EVT_LASTT1 r.time

/-- Record a fault with its context, stamped with a device time. -/
def State.recordAt (s : State) (code : Nat) (ctx : Nat) (time : Nat) (writer : Nat) : State :=
  let r : FaultRec := { code := code, ctx := BitVec.ofNat 32 ctx, time := time, writer := writer }
  (s.evtLast r).jrnQueue r

/-- Record a fault detected in the present tick by the device (WRITER 0). -/
def State.record (s : State) (code : Nat) (ctx : Nat) : State := s.recordAt code ctx s.tim.dev 0

/-! ## Writers -/

/-- The writer code of PDK_LASTCLIP2 (R337). -/
def Writer.code : Writer → Nat
  | .supA => 0
  | .supB => 1
  | .ce => 2
  | .svc => 3
  | .icend => 4
  | .yoke => 5
  | .image => 6

/-- Supervisor firmware. -/
def Writer.isFw : Writer → Bool
  | .supA => true
  | .supB => true
  | _ => false

/-- Record a PADDOCK clip or discarded write: PDK_LASTCLIP, PDK_CLIPCNT of the detail, and a record unless the detail
was last written to the log less than 1 s earlier; one that a full queue drops is not written (R31, R332, R454). -/
def State.paddock (s : State) (det : Nat) (addr : Nat) (v : Word) (w : Writer) : State :=
  let s := s.wr A.PDK_LASTCLIP0 (BitVec.ofNat 32 (det * 2 ^ 24 + addr % 2 ^ 24))
  let s := s.wr A.PDK_LASTCLIP1 v
  let s := s.wr A.PDK_LASTCLIP2 (BitVec.ofNat 32 w.code)
  let s := s.bump (F.PDK_CLIPCNT_COUNT (det - 1))
  let recent := match s.jrn.pdkAt[det % 10]'(Nat.mod_lt _ (by decide)) with
    | some t => decide (s.now < t + ticksPerSec)
    | none => false
  if recent then s
  else
    let taken := decide (s.jrn.queue.length < 64)
    let s := s.record (fcode cPADDOCK det) (addr % 2 ^ 24 + w.code * 2 ^ 24)
    if !taken then s
    else s.modJrn (fun j => { j with pdkAt := j.pdkAt.set (det % 10) (some s.now) (Nat.mod_lt _ (by decide)) })

/-! ## The Paddock in force (R90 to R93) -/

/-- Byte `i` of the loaded Paddock section; 0 beyond its length. -/
def State.pdkByte (s : State) (i : Nat) : Nat := (s.load.pdk.getD i 0).toNat

/-- The little-endian value of `n` bytes at offset `i`. -/
def State.pdkLe (s : State) (i n : Nat) : Nat :=
  (List.range n).foldl (fun acc j => acc + s.pdkByte (i + j) * 2 ^ (8 * j)) 0

/-- A Paddock section has been loaded (step 3 of R102 or later). -/
def State.pdkOn (s : State) : Bool := !s.load.pdk.isEmpty

def State.perMin (s : State) (t : Nat) : Nat := s.pdkLe (0x40 + 16 * t) 4
def State.perMax (s : State) (t : Nat) : Nat := s.pdkLe (0x44 + 16 * t) 4
def State.pdkSafe (s : State) (t : Nat) : Nat := s.pdkByte (0x48 + 16 * t)
def State.ovrMax (s : State) (t : Nat) : Nat := s.pdkByte (0x49 + 16 * t)
def State.dtMin (s : State) (n : Nat) : Nat := s.pdkLe (0x1C0 + 16 * n) 2
def State.pulseMin (s : State) (n : Nat) : Nat := s.pdkLe (0x1C2 + 16 * n) 2
def State.dutyMax (s : State) (n : Nat) : Nat := s.pdkLe (0x1C4 + 16 * n) 2
def State.ilkTmo (s : State) (n : Nat) : Nat := s.pdkByte (0x1C6 + 16 * n)
def State.legFlag (s : State) (n : Nat) (i : Nat) : Bool := (s.pdkByte (0x1C7 + 16 * n) / 2 ^ i) % 2 = 1
def State.hsIso (s : State) (n : Nat) : Bool := s.legFlag n 0
def State.ilkReq (s : State) (n : Nat) : Bool := s.legFlag n 1
def State.ovSwap (s : State) (n : Nat) : Bool := s.legFlag n 2
def State.ovInv (s : State) (n : Nat) : Bool := s.legFlag n 3
def State.ovForce (s : State) (n : Nat) : Bool := s.legFlag n 4
def State.gmUse (s : State) (n : Nat) : Bool := s.legFlag n 5
def State.ocHiMax (s : State) (c : Nat) : Int := toSigned 32 (s.pdkLe (0x640 + 12 * c) 4)
def State.ocLoMin (s : State) (c : Nat) : Int := toSigned 32 (s.pdkLe (0x644 + 12 * c) 4)

/-! ## The lock list (R94, R473) -/

/-- A register of a lock entry of the Paddock in force. -/
def State.lockListed (s : State) (a : Nat) : Bool :=
  (List.range (s.pdkLe 4 2)).any (fun i =>
    let lo := s.pdkLe (0xD00 + 8 * i) 4
    decide (lo ≤ a) && decide (a < lo + 4 * s.pdkLe (0xD04 + 8 * i) 4))

/-- A write to a register of the lock list is discarded after Paddock lock, whatever its value, and recorded. -/
def State.lockGuard (s : State) (w : Writer) (a : Nat) (v : Word) (f : State → State) : State :=
  if s.load.locked && s.lockListed a then s.paddock 9 a v w else f s

end Sys2Proof.Machine
end

