-- ==== Sys2Proof/Machine/Gate.lean ====
section
/-!
DEFINITION. Stages 5 to 8 of a leg (R30): bootstrap refresh, overrides, dead time and interlock, the gate balls, the
report expectations, the trip latch with its soft turn-off, and the safe levels of a team (chapters 06, 07 and 12).
-/
namespace Sys2Proof.Machine

def State.leg (s : State) (n : Fin 72) : LegSt := s.legs[n]
def State.team (s : State) (t : Fin 24) : TeamSt := s.teams[t]

/-- The other switch of the leg. -/
def Sw.opp : Sw → Sw
  | .high => .low
  | .low => .high

/-- The command at a switch's ball. -/
def State.ball (s : State) (n : Fin 72) : Sw → Bool
  | .high => (s.leg n).gh
  | .low => (s.leg n).gl

def State.gsrEn (s : State) (n : Fin 72) : Bool := s.bit (F.LEG_EDGECFG_GSR_EN n)
def State.ilkEn (s : State) (n : Fin 72) : Bool := s.bit (F.LEG_EDGECFG_ILK_EN n)

/-- The report of a switch is held in its hysteresis band (R113). -/
def State.rptBand (s : State) (n : Fin 72) : Sw → Bool
  | .high => s.bit (F.LEG_EDGESTAT_INBAND_H n)
  | .low => s.bit (F.LEG_EDGESTAT_INBAND_L n)

/-- The report of a switch counts as healthy: below its off threshold and outside its band (R157, R158). -/
def State.healthy (s : State) (n : Fin 72) (sw : Sw) : Bool :=
  (match sw with
   | .high => s.bit (F.LEG_EDGESTAT_HEALTHY_H n)
   | .low => s.bit (F.LEG_EDGESTAT_HEALTHY_L n)) && !s.rptBand n sw

/-- Tick at which the leg came to know the present state of a switch's report, and whether it was healthy before. -/
def State.knowAt (s : State) (n : Fin 72) : Sw → Tick
  | .high => (s.leg n).knowH
  | .low => (s.leg n).knowL

def State.wasHealthy (s : State) (n : Fin 72) : Sw → Bool
  | .high => (s.leg n).wasH
  | .low => (s.leg n).wasL

/-- The report of a switch counted as healthy 1 tick ago (R161). -/
def State.healthyBefore (s : State) (n : Fin 72) (sw : Sw) : Bool :=
  if s.knowAt n sw < s.now then s.healthy n sw else s.wasHealthy n sw

/-- Stamp at which a switch's report last became healthy (R161). -/
def State.healAt (s : State) (n : Fin 72) : Sw → Fine
  | .high => (s.leg n).healH
  | .low => (s.leg n).healL

/-- The dead time before a switch turns on (R154): DTH before GH, DTL before GL. -/
def State.deadTime (s : State) (n : Fin 72) : Sw → Nat
  | .high => s.get (F.LEG_DT_DTH n)
  | .low => s.get (F.LEG_DT_DTL n)

/-- The minimum pulse in force. -/
def State.minp (s : State) (n : Fin 72) : Nat := s.get (F.LEG_MINP_MINP n)

/-- The interlock timeout in fine steps: units of 0.1 µs, 0 encoding 25.6 µs (R159, R180). -/
def tmoFine (code : Nat) : Nat := (if code = 0 then 256 else code) * 8000

/-- Team states (R184). -/
def stUNCONF : Nat := 0
def stOFF : Nat := 1
def stWAIT : Nat := 2
def stRUN : Nat := 3
def stHALTED : Nat := 4

def State.tstate (s : State) (t : Fin 24) : Nat := s.get (F.TEAM_STAT_STATE t)

/-- The leg is under the protection stage: its latch is set or its team stands at its safe level (R30, R195). -/
def State.protected_ (s : State) (n : Fin 72) : Bool :=
  (s.leg n).latched || (match (s.leg n).team with
    | some t => s.tstate t != stRUN
    | none => true)

/-- The leg's team is in the interval of R352 after a takeover. -/
def State.takeWindow (s : State) (n : Fin 72) : Bool :=
  match (s.leg n).team with
  | some t => s.yok.window.contains t
  | none => false

/-! ## Bootstrap count (R172) -/

/-- The instant from which GL's conduction counts towards W: its turn-on, or the leg's exit from the protection stage where
that came later, since the exit itself sets the count to LIMIT (log entry 93). -/
def State.glFrom (s : State) (n : Fin 72) : Fine := max (s.leg n).glOnAt (s.leg n).bsSetAt

/-- The width W of GL conduction that clears the count: max(WIDTH, MINP in force). -/
def State.bsWidth (s : State) (n : Fin 72) : Nat := max (s.get (F.LEG_BSWID_WIDTH n)) (s.minp n)

/-- The count as it stands at a tick: it rises by 1 in each tick in which GH is high, up to LIMIT. -/
def State.bsCountAt (s : State) (n : Fin 72) (t : Tick) : Nat :=
  let c := s.get (F.LEG_BSCNT_COUNT n)
  let lim := s.get (F.LEG_BSCFG_LIMIT n)
  if (s.leg n).gh then min lim (c + (t - (s.leg n).bsAt)) else min lim c

/-- Store the count, with DUE = 1 while it equals LIMIT. -/
def State.bsStore (s : State) (n : Fin 72) (t : Tick) (c : Nat) : State :=
  let s := s.put (F.LEG_BSCNT_COUNT n) c
  let s := s.putB (F.LEG_BSCNT_DUE n) (c == s.get (F.LEG_BSCFG_LIMIT n))
  s.modLeg n (fun l => { l with bsAt := t })

/-- The tick up to which a change at a ball counts: a turn-off of GH within a tick leaves GH high in that tick, and no
tick is counted twice (log entry 29). -/
def State.bsTick (s : State) (n : Fin 72) (sw : Sw) (lvl : Bool) (at_ : Fine) : Tick :=
  match sw, lvl with
  | .high, false => (at_ + 255) / 256
  | _, _ => max (at_ / 256) (s.leg n).bsAt

/-- Bring the count up to date at a tick. -/
def State.bsSync (s : State) (n : Fin 72) (t : Tick) : State := s.bsStore n t (s.bsCountAt n t)

/-- The count is set to LIMIT: the leg leaves the protection stage (R172). -/
def State.bsExit (s : State) (n : Fin 72) : State :=
  (s.bsStore n s.now (s.get (F.LEG_BSCFG_LIMIT n))).modLeg n (fun l => { l with bsSetAt := s.nowF })

/-- Stage 5 is held inactive: refresh acts only where HS_ISO = 0, while the count is at LIMIT or a refresh is extended
(R172, R173). -/
def State.bsBlocked (s : State) (n : Fin 72) : Bool :=
  !s.hsIso n && ((s.leg n).refExt || s.get (F.LEG_BSCNT_COUNT n) == s.get (F.LEG_BSCFG_LIMIT n))

/-! ## Trips: the latch and its record (R318, R322, R333) -/

/-- KIND of LEG_TRIPSTAT (R335). -/
def kFAST_DESAT : Nat := 1
def kFAST_SHORT : Nat := 2
def kFAST_WIN : Nat := 3
def kFILT_CMP : Nat := 4
def kFILT_SDM : Nat := 5
def kTRIP_IN : Nat := 6
def kINTERLOCK : Nat := 7

/-- Delay line i of a leg, in the order GH, GL, GM, SH, SL, has lost its DLL's lock (R67). -/
def State.deadLine (s : State) (n : Fin 72) (i : Nat) : Bool := s.tim.deadLines.contains (5 * n.val + i)

/-- Change the level at a gate ball; the bootstrap count, the blanking window and the switch-off instants follow
(R172, R319).  A delay line whose DLL lost lock places no edge (R67). -/
def State.setBall (s : State) (n : Fin 72) (sw : Sw) (lvl : Bool) (at_ : Fine) : State :=
  if s.deadLine n (match sw with | .high => 0 | .low => 1) then s
  else
  let s := s.bsSync n (s.bsTick n sw lvl at_)
  let blank := s.get (F.LEG_PROTCFG_BLANK n)
  let s := s.modLeg n (fun l => { l with blankEnd := if blank = 0 then l.blankEnd else at_ + blank * 256 })
  match sw with
  | .high => s.modLeg n (fun l => { l with gh := lvl, ghOffAt := if lvl then l.ghOffAt else at_ })
  | .low =>
    let full := !lvl && decide (s.glFrom n + s.bsWidth n ≤ at_)
    let s := s.modLeg n (fun l =>
      { l with gl := lvl, glOnAt := if lvl then at_ else l.glOnAt, glOffAt := if lvl then l.glOffAt else at_ })
    if full then (s.bsStore n (at_ / 256) 0).modLeg n (fun l => { l with refresh := l.refresh && l.refExt }) else s

/-- The open expectations of a switch. -/
def State.exps (s : State) (n : Fin 72) : Sw → List Expect
  | .high => (s.leg n).expH
  | .low => (s.leg n).expL

def State.setExps (s : State) (n : Fin 72) (sw : Sw) (l : List Expect) : State :=
  match sw with
  | .high => s.modLeg n (fun g => { g with expH := l })
  | .low => s.modLeg n (fun g => { g with expL := l })

/-- The four expectations of a switch are open, so a fifth overflows (R159). -/
def State.expFull (s : State) (n : Fin 72) (sw : Sw) : Bool := s.gsrEn n && decide (4 ≤ (s.exps n sw).length)

/-- Open an expectation for an emitted edge where reports are enabled and fewer than four are open (R159). -/
def State.openExp (s : State) (n : Fin 72) (sw : Sw) (turnOn : Bool) (at_ : Fine) (id : Option Nat) : State :=
  if s.gsrEn n && decide ((s.exps n sw).length < 4) then
    s.setExps n sw (s.exps n sw ++ [{ stamp := at_, turnOn := turnOn, etcId := id }])
  else s

/-- Drop an edge-true record that cannot complete, and spoil its period (R122, R166). -/
def State.etcFail (s : State) (n : Fin 72) (id : Option Nat) : State :=
  match id with
  | none => s
  | some i =>
    match (s.leg n).etcRecs.find? (fun r => r.id == i) with
    | none => s
    | some r =>
      s.modLeg n (fun l => { l with
        etcRecs := l.etcRecs.filter (fun x => x.id != i),
        etcPers := l.etcPers.map (fun p => if p.start = r.period then { p with bad := true, openCnt := p.openCnt - 1 } else p) })

/-- Cancel the pending or held turn-on of a leg (R162, R163). -/
def State.cancelPend (s : State) (n : Fin 72) : State :=
  match (s.leg n).pend with
  | none => s
  | some p => (s.modLeg n (fun l => { l with pend := none })).etcFail n p.etcId

/-- The carry of a leg becomes 0 (R170). -/
def State.carryZero (s : State) (n : Fin 72) : State :=
  (s.modLeg n (fun l => { l with carry0 := 0 })).wr (A.LEG_CARRY n) 0

/-- Emit an edge of a switch at its ball, with its expectation; no effect when the ball already stands so.  On a leg whose
latch is set, a fifth open expectation is one more source (R159, R323). -/
def State.emitRaw (s : State) (n : Fin 72) (sw : Sw) (lvl : Bool) (at_ : Fine) (id : Option Nat) : State :=
  if s.ball n sw == lvl then s
  else
    let s := if s.expFull n sw && (s.leg n).latched then s.raiseBit (F.LEG_TRIPSRC_KINDS n) (kINTERLOCK - 1) else s
    (s.setBall n sw lvl at_).openExp n sw lvl at_ id

/-- Set the latch at the gate stage (R318, R322, R323): turn-ons are blocked, the conducting switch enters step 1. -/
def State.latchGate (s : State) (n : Fin 72) (stamp : Fine) : State :=
  if (s.leg n).latched then s
  else
    let l := s.leg n
    let s := s.modLeg n (fun l => { l with latched := true })
    let cond := if l.gh then some Sw.high else if l.gl then some Sw.low else none
    match cond with
    | none => s
    | some sw =>
      if s.gmUse n then
        s.modLeg n (fun l => { l with
          gm := !s.deadLine n 2, seq := some { sw := sw, endAt := stamp + s.get (F.LEG_PROTCFG_SOFT n) * 16000 } })
      else s.emitRaw n sw false stamp none

/-- A leg of the team has its trip latch set. -/
def State.teamTripped (s : State) (t : Fin 24) : Bool := (s.team t).legs.any (fun n => (s.leg n).latched)

/-- The feedback port bound to a team has taken its fallback ladder to the torque ramp or beyond (R198, R306). -/
def State.ladderDropped (s : State) (t : Fin 24) : Bool :=
  (List.range 8).any (fun p => s.get (F.FBK_CFG_TEAM p) == t.val && decide (2 ≤ s.get (F.FBK_STAT_LADDER p)))

/-- A trip of a leg of the team is known: a FAST latch is from its rank-1 tick on (R198, R318). -/
def State.tripKnown (s : State) (t : Fin 24) : Bool := (s.team t).legs.any (fun n => s.bit (F.LEG_TRIPSTAT_LATCHED n))

/-- A local member is live (R198). -/
def State.localLive (s : State) (t : Fin 24) : Bool :=
  s.tstate t == stRUN && !s.tripKnown t && !s.ladderDropped t

/-- The slots of a group in use (R197). -/
def State.groupSlots (s : State) (g : Fin 8) : List Nat := List.range (s.get (F.MGRP_CFG_NMEM g))

/-- Slot m of group g names local team t. -/
def State.slotIsTeam (s : State) (g : Fin 8) (m : Nat) (t : Nat) : Bool :=
  s.bit (F.MGRP_MEMA_USED g m) && s.bit (F.MGRP_MEMA_LOC g m) && s.get (F.MGRP_MEMA_TEAM g m) == t

/-- A drop of team t becomes known: its slots leave the live view of its groups, and each such group is released in
the next tick (R198, R199). -/
def State.groupDrop (s : State) (t : Fin 24) : State :=
  each allGroups (fun g s =>
    let gone := (s.groups[g]).liveView.filter (fun m => s.slotIsTeam g m t.val)
    if (s.groups[g]).enabled && !gone.isEmpty then
      s.modGroup g (fun x => { x with
        liveView := x.liveView.filter (fun m => !gone.contains m), relDue := x.relDue ++ [s.now + 1] })
    else s) s

/-- A group has a remote member (R203). -/
def State.groupRemote (s : State) (g : Fin 8) : Bool :=
  (s.groupSlots g).any (fun m => s.bit (F.MGRP_MEMA_USED g m) && !s.bit (F.MGRP_MEMA_LOC g m))

/-- A team is a member of an enabled group (R197). -/
def State.grouped (s : State) (t : Fin 24) : Bool :=
  allGroups.any (fun g => (s.groups[g]).enabled && (s.groupSlots g).any (fun m => s.slotIsTeam g m t.val))

/-- A team's live state has changed: TEAM_STAT.DROPPED follows it, and stays 1 for a team in no group (log entry 77); a
drop acts at once, a re-entry waits under R203. -/
def State.liveUpdate (s : State) (t : Fin 24) : State :=
  let live := s.localLive t && s.grouped t
  let was := !s.bit (F.TEAM_STAT_DROPPED t)
  let s := s.putB (F.TEAM_STAT_DROPPED t) (!live)
  if was && !live then (s.modTeam t (fun x => { x with liveSeen := false })).groupDrop t else s

/-- A new source on a leg's latch: LEG_TRIPSRC, and, for the source that set it, LEG_TRIPSTAT, LEG_TRIPSTAMP, LEG_TRIPCNT
and the fault record (R323, R333, R335). -/
def State.tripRecord (s : State) (n : Fin 72) (first : Bool) (kind idx cond : Nat) (stamp : Tick) (code ctx : Nat) : State :=
  let s := s.raiseBit (F.LEG_TRIPSRC_KINDS n) (kind - 1)
  if !first then s
  else
    let s := s.putB (F.LEG_TRIPSTAT_LATCHED n) true
    let s := s.put (F.LEG_TRIPSTAT_KIND n) kind
    let s := s.put (F.LEG_TRIPSTAT_SRCIDX n) idx
    let s := s.put (F.LEG_TRIPSTAT_COND n) cond
    let s := s.bump (F.LEG_TRIPCNT_TRIPS n)
    let st := s.stampOf (256 * stamp)
    let s := s.putStamp (A.LEG_TRIPSTAMP0 n) (A.LEG_TRIPSTAMP1 n) st
    let s := s.recordAt code ctx st 0
    s.modLeg n (fun l => if l.tripCode = 0 then { l with tripCode := code, tripAt := stamp } else l)

/-- What a trip does at rank 1 in the leg (R163, R170, R198, R318): turn-ons are cancelled, carry is 0, the team is
dropped from its group. -/
def State.tripEffect (s : State) (n : Fin 72) : State :=
  let s := (s.cancelPend n).carryZero n
  let s := (s.putB (F.LEG_TRIPSTAT_SEQ n) (s.leg n).seq.isSome).modLeg n (fun l => { l with seenAt := s.now })
  match (s.leg n).team with
  | some t => s.liveUpdate t
  | none => s

/-- A trip sets a leg's latch in this tick: the gate reacts, the source is recorded, as the first where no latch stood
before, and the rank-1 effects follow (R159, R160, R321, R323). -/
def State.tripLatch (s : State) (n : Fin 72) (kind idx cond : Nat) (code ctx : Nat) : State :=
  let first := !(s.leg n).latched
  ((s.latchGate n s.nowF).tripRecord n first kind idx cond s.now code ctx).tripEffect n

/-- The context of an interlock fault: the leg, and the switch in bit 7 (R179). -/
def ilkCtx (n : Fin 72) (sw : Sw) : Nat := n.val + (match sw with | .high => 0 | .low => 128)

/-! ## Safe levels (R193, R194) -/

/-- The switch an ASC safe state turns on; none for FREEWHEEL. -/
def ascSwitch (safe : Nat) : Option Sw :=
  if safe = 1 then some .low else if safe = 2 then some .high else none

/-- A safe-state entry turns a switch off at its ball; a fifth open expectation latches the leg's trip (R159, R194). -/
def State.emitSafe (s : State) (n : Fin 72) (sw : Sw) : State :=
  let fifth := s.ball n sw && s.expFull n sw
  let s := s.emitRaw n sw false s.nowF none
  if fifth then s.tripLatch n kINTERLOCK n.val 0 (fcode cINTERLOCK 4) (ilkCtx n sw) else s

/-- Place the ASC turn-on of one untripped leg (R194): the latest of 1 tick after now, the dead time after the opposite
switch's turn-off, and h + 768 + GUARD. -/
def State.ascPlace (s : State) (n : Fin 72) (sw : Sw) : State :=
  let l := s.leg n
  let offAt := match sw with
    | .low => l.ghOffAt
    | .high => l.glOffAt
  let h := s.healAt n sw.opp
  let inst := max (s.nowF + 256) (max (offAt + s.deadTime n sw) (h + 768 + s.get (F.LEG_ILKCFG_GUARD n)))
  s.modLeg n (fun l => { l with pend := some { sw := sw, at_ := inst, due := inst, held := false, etcId := none } })

/-- The untripped legs of a team that take part in its ASC level (R193, R327). -/
def State.ascLegs (s : State) (t : Fin 24) : List (Fin 72) :=
  (s.team t).legs.filter (fun n => !(s.leg n).latched && !(s.leg n).noAsc)

/-- SAFEKIND shows an ASC level once the last of its turn-ons has been emitted (R194, R205). -/
def State.ascShow (s : State) (t : Fin 24) : State :=
  match ascSwitch (s.pdkSafe t) with
  | none => s
  | some sw =>
    if s.get (F.TEAM_STAT_SAFEKIND t) == 1 && !s.bit (F.TEAM_STAT_ASC_WAIT t) && !(s.ascLegs t).isEmpty
        && (s.ascLegs t).all (fun n => s.ball n sw) then
      s.put (F.TEAM_STAT_SAFEKIND t) (1 + s.pdkSafe t)
    else s

/-- A waiting ASC entry: when every untripped leg reports the switch that stays off healthy, each places its turn-on
(R194). -/
def State.ascCheck (s : State) (t : Fin 24) : State :=
  if !s.bit (F.TEAM_STAT_ASC_WAIT t) then s
  else
    match ascSwitch (s.pdkSafe t) with
    | none => s
    | some sw =>
      if (s.ascLegs t).all (fun n => s.healthy n sw.opp) then
        each (s.ascLegs t) (fun n s => s.ascPlace n sw) (s.putB (F.TEAM_STAT_ASC_WAIT t) false)
      else s

/-- Safe-state entry of a team that leaves RUN, or at Paddock lock (R194): the pulse of every untripped leg is removed,
and an ASC state waits for healthy reports. -/
def State.safeEntry (s : State) (t : Fin 24) : State :=
  let s := each ((s.team t).legs.filter (fun n => !(s.leg n).latched)) (fun n s =>
    ((s.cancelPend n).emitSafe n .high).emitSafe n .low) s
  let s := each (s.team t).legs (fun n s => s.carryZero n) s
  let s := s.put (F.TEAM_STAT_SAFEKIND t) 1
  let s := s.putB (F.TEAM_STAT_ASC_WAIT t) (ascSwitch (s.pdkSafe t)).isSome
  s.ascCheck t

/-- CAUSE codes of TEAM_STAT (R185). -/
def caNONE : Nat := 0
def caNOTEN : Nat := 1
def caFAULT : Nat := 2
def caSAFEN : Nat := 3
def caRESTART : Nat := 4

/-- The ladder stages of the ports bound to a team that satisfy a test return to NORMAL with f = 1 (R309). -/
def State.ladderClear (s : State) (t : Fin 24) (p : Nat → Bool) : State :=
  each (List.range 8) (fun k s =>
    if s.get (F.FBK_CFG_TEAM k) == t.val && p (s.get (F.FBK_STAT_LADDER k)) then
      (s.put (F.FBK_STAT_LADDER k) 0).put (F.FBK_RAMPF_F k) 0x10000
    else s) s

/-- Generator g aborts (R275); its task's next release latches 0. -/
def State.genAbort (s : State) (g : Fin 4) : State :=
  if s.bit (F.CE_GENSTAT_RUN g) || s.bit (F.CE_GENSTAT_WAIT g) then
    ((s.putB (F.CE_GENSTAT_RUN g) false).putB (F.CE_GENSTAT_WAIT g) false).raise (F.CE_GENSTAT_ABORTED g)
  else s

/-- The generators that step with a team's task abort when the team enters HALTED (R275). -/
def State.genHalt (s : State) (t : Fin 24) : State :=
  each (List.finRange 4) (fun g s => if s.get (F.CE_GENCFG_TASK g) = t.val then s.genAbort g else s) s

/-- A team in WAIT or RUN enters HALTED (R185): state, cause, halting fault, the safe-state entry when it was in RUN,
and the bar of R186 and R187 on causes that clear only by reset. -/
def State.haltTeam (s : State) (t : Fin 24) (cause : Nat) (flt : Nat) : State :=
  let st := s.tstate t
  if st = stWAIT ∨ st = stRUN then
    let s := s.put (F.TEAM_STAT_STATE t) stHALTED
    let s := s.put (F.TEAM_STAT_CAUSE t) cause
    let s := if cause = caFAULT then s.put (F.TEAM_SAFEFLT_FLT t) flt else s
    let s := s.genHalt t
    let s := if st = stRUN then (s.ladderClear t (fun v => v == 1 || v == 2)).safeEntry t else s
    let bar := cause == caRESTART || (cause == caFAULT && (flt / 256 == cSUPPLY || flt / 256 == cTHERMAL))
    (s.modTeam t (fun x => { x with barred := bar })).liveUpdate t
  else s

/-- The first trip recorded among the team's legs since it last entered WAIT; ties go to the lowest leg (R185). -/
def State.firstTrip (s : State) (t : Fin 24) : Nat :=
  let l := ((s.team t).legs.mergeSort (fun a b => decide (a.val ≤ b.val))).filter (fun n => (s.leg n).tripCode != 0)
  let best := l.foldl (fun acc n => match acc with
    | none => some n
    | some m => if (s.leg n).tripAt < (s.leg m).tripAt then some n else acc) (none : Option (Fin 72))
  match best with
  | some n => (s.leg n).tripCode
  | none => 0

/-- What the trips of a tick do to a team, once every one of them has latched (R23, R324): a team in WAIT or RUN with a
tripped leg enters HALTED when no leg of it has a sequence running; an ASC entry that waited for the tripped leg goes on. -/
def State.teamTripCheck (s : State) (t : Fin 24) : State :=
  if (s.same.of s.now).hold then s
  else
    let s := if s.teamTripped t && (s.team t).legs.all (fun n => (s.leg n).seq.isNone) && s.firstTrip t != 0 then
        s.haltTeam t caFAULT (s.firstTrip t)
      else s
    (s.ascCheck t).ascShow t

/-- The trips of a list of legs are latched: each of their teams is looked at once. -/
def State.tripsDone (s : State) (l : List (Fin 72)) : State :=
  each (allTeams.filter (fun t => l.any (fun n => (s.leg n).team == some t))) (fun t s => s.teamTripCheck t) s

/-- A trip of one leg in this tick (R159, R160, R324). -/
def State.tripLeg (s : State) (n : Fin 72) (kind idx cond : Nat) (code ctx : Nat) : State :=
  (s.tripLatch n kind idx cond code ctx).tripsDone [n]

/-- An interlock trip of a leg (R159, R160, R179). -/
def State.ilkTrip (s : State) (n : Fin 72) (det : Nat) (sw : Sw) : State :=
  s.tripLeg n kINTERLOCK n.val 0 (fcode cINTERLOCK det) (ilkCtx n sw)

/-- Emit an edge of stage 7: a fifth open expectation of the switch latches a trip (R154, R159). -/
def State.emitEdge (s : State) (n : Fin 72) (sw : Sw) (lvl : Bool) (at_ : Fine) (id : Option Nat) : State :=
  if s.ball n sw == lvl then s
  else
    let full := s.expFull n sw
    let s := s.emitRaw n sw lvl at_ id
    if full then s.ilkTrip n 4 sw else s

/-! ## Stages 5 to 7 -/

/-- Stage 6 (R175): the switch the leg wants on, from the stage 5 level, the overrides in effect and, under FORCE, the
team's Paddock safe state with the report check of R194. -/
def State.want6 (s : State) (n : Fin 72) (lvl : Bool) : Option Sw :=
  if s.bit (F.LEG_OVRSTAT_FORCE n) then
    match (s.leg n).team with
    | none => none
    | some t =>
      match ascSwitch (s.pdkSafe t) with
      | none => none
      | some sw => if s.healthy n sw.opp then some sw else none
  else
    let active := lvl != s.bit (F.LEG_OVRSTAT_INV n)
    let swap := s.bit (F.LEG_OVRSTAT_SWAP n)
    if active != swap then some .high else some .low

/-- FORCE_HOLD: a forced ASC level stands at both off because the report is not healthy (R175). -/
def State.forceHold (s : State) (n : Fin 72) : Bool :=
  s.bit (F.LEG_OVRSTAT_FORCE n) && (match (s.leg n).team with
    | none => false
    | some t => (match ascSwitch (s.pdkSafe t) with
      | none => false
      | some sw => !s.healthy n sw.opp))

/-- A held turn-on is cancelled: ILK_DROP, and the commanded edge that follows is neither corrected nor used (R162,
R166). -/
def State.ilkDrop (s : State) (n : Fin 72) : State :=
  ((s.cancelPend n).raise (F.LEG_EDGESTAT_ILK_DROP n)).modLeg n (fun l => { l with etcSkip := true })

/-- The pending turn-on of a switch that the new level turns off is cancelled; a held one with ILK_DROP (R162, R177). -/
def State.pendFor (s : State) (n : Fin 72) (want : Option Sw) : State :=
  match (s.leg n).pend with
  | some p => if some p.sw == want then s else if p.held then s.ilkDrop n else s.cancelPend n
  | none => s

/-- The leg's pulses reach its gates: its team runs, its latch is not set, and no trip of it was released since the team last
entered RUN (R30, R327). -/
def State.pulses (s : State) (n : Fin 72) : Bool := !s.protected_ n && !(s.leg n).noAsc

/-- Stage 7 (R154): the unwanted switch turns off at the instant of the change; the wanted one turns on after its dead
time, or, under FORCE, as an ASC entry places it (R175, R194). -/
def State.stage7 (s : State) (n : Fin 72) (want : Option Sw) (at_ : Fine) (id : Option Nat) : State :=
  if !s.pulses n then s
  else
    let s := if want != some .high then s.emitEdge n .high false at_ id else s
    let s := if want != some .low then s.emitEdge n .low false at_ id else s
    let s := s.pendFor n want
    match want with
    | none => s
    | some sw =>
      if !s.pulses n || s.ball n sw || (s.leg n).pend.isSome then s
      else if s.bit (F.LEG_OVRSTAT_FORCE n) then s.ascPlace n sw
      else
        let due := at_ + s.deadTime n sw
        s.modLeg n (fun l => { l with pend := some { sw := sw, at_ := due, due := due, held := false, etcId := id } })

/-- Stages 5 to 7 follow the commanded pulse, the refresh and the overrides as they stand (R173, R175, R154).  Stage 5
stands before the protection stage (R30): a leg at its safe level has its insertion too, one until GL has been high for
W; none is made under FORCE (R178; log entry 82). -/
def State.stageOut (s : State) (n : Fin 72) (at_ : Fine) (id : Option Nat) : State :=
  let blocked := s.bsBlocked n
  let insert := (s.leg n).cmd && blocked && !(s.leg n).refresh && !s.bit (F.LEG_OVRSTAT_FORCE n)
  let s := if insert then
      ((s.modLeg n (fun l => { l with refresh := true })).raise (F.LEG_EDGESTAT_REFRESH n)).bump (F.LEG_BSRCNT_COUNT n)
    else s
  let s := s.putB (F.LEG_OVRSTAT_FORCE_HOLD n) (s.forceHold n)
  s.stage7 n (s.want6 n ((s.leg n).cmd && !blocked)) at_ (if blocked then none else id)

/-! ## FAULT_N (R37) -/

/-- The device drives FAULT_N low: a team HALTED by a fault, a failed load, shut-down temperature, or a supervisor pair
that cannot recover.  A PLL that has not locked counts as a failed load (R45). -/
def State.faultN (s : State) : Bool :=
  !(allTeams.any (fun t => s.tstate t == stHALTED && s.get (F.TEAM_STAT_CAUSE t) == caFAULT)
    || s.load.failed || s.hk.shut.isSome
    || s.bit (F.SUP_CKSTAT_UNRECOV 0) || s.bit (F.SUP_CKSTAT_UNRECOV 1))

end Sys2Proof.Machine
end

