-- ==== Sys2Proof/Machine/Carrier.lean ====
section
/-!
DEFINITION. Carriers, compares and the commanded pulse (chapter 05), the minimum-pulse policy (R167 to R171), update
points and shadow copies (R141 to R145), dither and epochs (R146 to R149, R189 to R191), and the entry into RUN (R124,
R196).
-/
namespace Sys2Proof.Machine

/-- Carrier forms (R129). -/
def foUP : Nat := 0
def foUPDOWN : Nat := 1
def foVARON : Nat := 2
def foVAROFF : Nat := 3

def State.form (s : State) (t : Fin 24) : Nat := s.get (F.TEAM_CARCFG_FORM t)
def isVar (form : Nat) : Bool := form == 2 || form == 3

/-- The lead leg of a team: its lowest-indexed leg (R133, R182). -/
def State.leadLeg (s : State) (t : Fin 24) : Option (Fin 72) :=
  (s.team t).legs.foldl (fun acc n => match acc with
    | none => some n
    | some m => if n.val < m.val then some n else acc) none

/-- Length of a period in fine steps: in UPDOWN half of each half's period (R145). -/
def perLen (form up down : Nat) : Nat := if form = foUPDOWN then (up + down) / 2 else up

/-- The reserved compare values (R128). -/
def cmpNEVER : Word := 0xFFFFFFFF
def cmpALWAYS : Word := 0xFFFFFFFE

/-- A compare as a position under CMPREF: a position, or a fraction of the length h (R136). -/
def comparePos (duty : Bool) (v : Word) (h : Nat) : Nat := if duty then v.toNat * h / 2 ^ 32 else v.toNat

/-- A variable period has no length of its own: its active remainder runs until the restart (R132). -/
def openEnd : Int := 2 ^ 48

/-- The commanded pulse of a period from its compares (R130 to R132, R136, R137). -/
def planOf (form : Nat) (duty : Bool) (a b : Word) (up down : Nat) : Plan :=
  if form = foVARON then
    if a = cmpNEVER then .never else if a = cmpALWAYS then .always else .edges 0 a.toNat
  else if form = foVAROFF then
    if a = cmpNEVER then .always else if a = cmpALWAYS then .never else .edges a.toNat openEnd
  else if a = cmpNEVER then .never
  else if a = cmpALWAYS then .always
  else if form = foUPDOWN then
    let c := up / 2
    let len := perLen form up down
    let pa := comparePos duty a (up / 2)
    let on := if pa < c then pa else c
    let off := if b = cmpALWAYS then len else if b = cmpNEVER then c
      else
        let pb := comparePos duty b (down / 2)
        if pb < down / 2 then len - pb else c
    if on < off then .edges on off else .never
  else
    let pa := comparePos duty a up
    let pb := comparePos duty b up
    if up ≤ pa then .never
    else if b = cmpALWAYS ∨ b = cmpNEVER then .edges pa up
    else if pa < pb ∧ pb < up then .edges pa pb
    else .edges pa up

/-- The duty bound D of a leg with HS_ISO = 0 (R139); none where the high side has an isolated supply. -/
def State.dutyBound (s : State) (n : Fin 72) (len : Nat) : Option Int :=
  if s.hsIso n then none else some ((s.dutyMax n * len / 65536 : Nat) : Int)

/-- Half of a count, rounded up. -/
def ceilHalf (x : Int) : Int := (x + 1) / 2

/-! ## The minimum-pulse policy (R167 to R169) -/

/-- What one evaluation of the policy gives: active length, carry, whether the carry was clamped, and the intervals
dropped or stretched. -/
structure PolOut where
  la : Int
  carry : Int
  clamped : Bool
  markH : MpMark
  markL : MpMark
  deriving DecidableEq, Repr

/-- One evaluation of the minimum-pulse policy, in fine steps (the pseudocode of R168, with R169). -/
def policy (pol : Nat) (len dth dtl minp carry0 laReq : Int) (dBound : Option Int) : PolOut :=
  let c0 := if pol = 2 then carry0 else 0
  let hReq := if laReq ≤ dth then 0 else if laReq ≥ len - dtl then len else laReq - dth
  let want := hReq - c0
  let short := len - dth - dtl - minp
  let full := if dBound.isSome then short else len
  let (h, mH) : Int × MpMark :=
    if want ≤ 0 then (0, .none)
    else if want ≥ len - dth - dtl then (want, .none)
    else if want < minp then
      (if pol = 0 ∨ (pol = 2 ∧ 2 * want < minp) then (0, .dropH) else (minp, .stretchH))
    else (want, .none)
  let g := len - (h + dth) - dtl
  let (h, mL) : Int × MpMark :=
    if h > 0 ∧ g < minp then
      (let h' := if pol = 0 ∨ (pol = 2 ∧ 2 * g < minp) then full else short
       (h', if h' = len then .dropL else .stretchL))
    else (h, .none)
  let h := match dBound with
    | some d => if h + dth > d then d - dth else h
    | none => h
  let raw := c0 + h - hReq
  let carry := if pol = 2 then clampI (-len) len raw else 0
  let la := if h = 0 then 0 else if h = len then len else max 0 (h + dth)
  { la := la, carry := carry, clamped := decide (pol = 2 ∧ carry ≠ raw), markH := mH, markL := mL }

/-- Store the carry, saturating at ±(2^31 − 1) (R180). -/
def State.setCarry (s : State) (n : Fin 72) (c : Int) : State :=
  s.wr (A.LEG_CARRY n) (wOfInt (clampI (-(2 ^ 31 - 1)) (2 ^ 31 - 1) c))

/-! ## Edge-true correction applied to an edge (R165, R166) -/

/-- The correction of an edge kind in force 2 ticks before tick `e` (R165). -/
def State.corrAt (s : State) (n : Fin 72) (toActive : Bool) (e : Tick) : Int :=
  let l := s.leg n
  if toActive then (if l.cOnAt + 2 ≤ e then l.cOn else l.cOnPrev)
  else (if l.cOffAt + 2 ≤ e then l.cOff else l.cOffPrev)

/-- An override is in effect on the leg. -/
def State.ovrOn (s : State) (n : Fin 72) : Bool :=
  s.bit (F.LEG_OVRSTAT_FORCE n) || s.bit (F.LEG_OVRSTAT_INV n) || s.bit (F.LEG_OVRSTAT_SWAP n)

/-- The correction is applied: enabled, VALID, not under the protection stage, no override in effect, outside the
interval of R352, and not on an edge that follows from an interlock cancellation (R166). -/
def State.etcActive (s : State) (n : Fin 72) : Bool :=
  s.bit (F.LEG_EDGECFG_ETC_EN n) && s.gsrEn n && s.bit (F.LEG_EDGESTAT_ETC_VALID n) && !s.protected_ n && !s.takeWindow n
    && !s.ovrOn n && !(s.leg n).etcSkip

/-- The instant of a planned edge with commanded instant `tc`: corrected, no earlier than 2 ticks after the update
point that made its compare active, and at `tc` where `tc` itself lies before that bound (R165).  Also whether the bound
acted. -/
def State.edgeInst (s : State) (n : Fin 72) (toActive : Bool) (tc : Int) : Int × Bool :=
  if !s.etcActive n then (tc, false)
  else
    let c1 := s.corrAt n toActive ((tc / 256).toNat + 4)
    let c := s.corrAt n toActive ((tc - c1) / 256).toNat
    let inst := tc - c
    let bound : Int := (s.leg n).updAt + 512
    if c ≠ 0 ∧ inst < bound then (min tc bound, true) else (inst, false)

/-! ## One evaluation of a leg's period (R153, R168) -/

/-- The team of a leg, for the functions that act only on bound legs. -/
def State.withTeam (s : State) (n : Fin 72) (f : Fin 24 → State) : State :=
  match (s.leg n).team with
  | some t => f t
  | none => s

/-- Schedule the count of a drop or stretch at the tick at which the interval's edges are, or would have been, emitted
(R171). -/
def State.mpSchedule (s : State) (n : Fin 72) (mH mL : MpMark) (hAt lAt : Fine) : State :=
  let s := s.undefer (fun d => match d with
    | .mpCount m _ => m == n
    | _ => false)
  let s := s.modLeg n (fun l => { l with mpH := mH, mpL := mL })
  let s := if mH != .none && !(s.leg n).mpHCnt then s.defer (max s.now (hAt / 256)) (.mpCount n mH) else s
  if mL != .none && !(s.leg n).mpLCnt then s.defer (max s.now (lAt / 256)) (.mpCount n mL) else s

/-- Count one dropped or stretched interval (R171). -/
def State.mpCountNow (s : State) (n : Fin 72) (m : MpMark) : State :=
  match m with
  | .none => s
  | .dropH => ((s.modLeg n (fun l => { l with mpHCnt := true })).raise (F.LEG_EDGESTAT_DROPPED n)).bump (F.LEG_MPCNT_DROPS n)
  | .dropL => ((s.modLeg n (fun l => { l with mpLCnt := true })).raise (F.LEG_EDGESTAT_DROPPED n)).bump (F.LEG_MPCNT_DROPS n)
  | .stretchH => ((s.modLeg n (fun l => { l with mpHCnt := true })).raise (F.LEG_EDGESTAT_STRETCHED n)).bump (F.LEG_MPCNT_STRETCHES n)
  | .stretchL => ((s.modLeg n (fun l => { l with mpLCnt := true })).raise (F.LEG_EDGESTAT_STRETCHED n)).bump (F.LEG_MPCNT_STRETCHES n)

/-- The active length that the duty bound allows a variable period of length `len` (R134, R139, R169); none on a leg with
HS_ISO = 1. -/
def capLen (d : Option Int) (v : Int) : Int := match d with
  | some d => min v d
  | none => v

/-- The interval that compare A sets in a variable period, of requested length `req`: stretched to `least`, or dropped under
DROP, with the mark that counts it (R171). -/
def varInterval (pol : Nat) (keep : Bool) (req least : Int) (drop stretch : MpMark) : Int × MpMark :=
  if least ≤ req then (req, .none) else if pol = 0 ∧ !keep then (0, drop) else (least, stretch)

/-- Evaluate a variable period (R132, R153, R171): the interval set by A between its corrected edges is stretched to MINP
plus the dead time in front of it, and nothing is carried.  On a leg with HS_ISO = 0 a low interval is never dropped and a
stretch stays within D of R139 (R169), for the lead leg D of the longest period, since the restart bounds of R133 hold the
period to it; another leg of the team has the lead's previous period as its length, and its pulse is shortened to D of that
at its turn-off in VAR_ON, at its turn-on in VAR_OFF (R134; log entry 94). -/
def State.evalVar (s : State) (n : Fin 72) (t : Fin 24) : State :=
  let form := s.form t
  let a := s.rd (A.LEG_CMPA n)
  let pol := s.get (F.LEG_EDGECFG_POLICY n)
  let lead := s.leadLeg t == some n
  let len : Nat := if lead then s.get (F.TEAM_PER_PER t) * 256 else (s.leg n).up
  let d := s.dutyBound n len
  let start : Int := (s.leg n).pstart
  let cut (la : Int) : Bool := !lead && (match d with
    | some d => decide (d < la)
    | none => false)
  let (p, mH, mL, lim) : Plan × MpMark × MpMark × Bool := match planOf form false a 0 0 0 with
    | .edges on off =>
      if form = foVARON then
        let onC := if (s.leg n).cmd then on else max 0 ((s.edgeInst n true (start + on)).1 - start)
        let offC := max onC ((s.edgeInst n false (start + off)).1 - start)
        let (la, m) := varInterval pol false (offC - onC) (s.minp n + s.get (F.LEG_DT_DTH n)) .dropH .stretchH
        let long := cut la
        let la := if long || m == .stretchH then capLen d la else la
        (if la ≤ 0 then .never else .edges on (onC + la + (off - offC)), m, .none, long)
      else
        let onC := max 0 ((s.edgeInst n true (start + on)).1 - start)
        let (g, m) := varInterval pol d.isSome onC (s.minp n + s.get (F.LEG_DT_DTL n)) .dropL .stretchL
        let long := cut (len - g)
        let g := if long then len - capLen d (len - g) else g
        (.edges (if g = 0 then 0 else g + (on - onC)) off, .none, m, long)
    | q => (q, .none, .none, false)
  let s := if lim then s.raise (F.LEG_STAT_DUTY_LIM n) else s
  let s := s.setCarry n 0
  let s := s.modLeg n (fun l => { l with plan := p, carry0 := 0, aGov := a, polLast := pol, onDone := false, offDone := false })
  s.mpSchedule n mH mL (s.leg n).pstart (s.leg n).pstart

/-- A new POLICY zeroes the carry, whenever in the period it becomes active (R170). -/
def State.polSeen (s : State) (n : Fin 72) : State :=
  let pol := s.get (F.LEG_EDGECFG_POLICY n)
  if pol = (s.leg n).polLast then s else (s.carryZero n).modLeg n (fun l => { l with polLast := pol })

/-- A reserved compare value (R128). -/
def reserved (v : Word) : Bool := v == cmpNEVER || v == cmpALWAYS

/-- An update point within the period calls for another evaluation: it changed a compare whose edge has not passed, or the
down half's length, in a period that no reserved A governs (R145, R168, R170). -/
def State.evalAgain (s : State) (n : Fin 72) : Bool :=
  let l := s.leg n
  let a := s.rd (A.LEG_CMPA n)
  !reserved l.aGov && !l.offDone
    && ((!l.onDone && !reserved a && a != l.aGov) || s.rd (A.LEG_CMPB n) != l.bGov || l.down != l.downGov)

/-- The two edges that the policy's active length `la` gives to a pulse from `on` to `off` (R168): in UP the turn-off moves;
in UPDOWN a change is split about the centre. -/
def placeEdges (form : Nat) (len la : Int) (on off : Int) : Int × Int :=
  let x := la - (off - on)
  if x = 0 then (on, off)
  else if la = 0 then (on, on)
  else if la = len then (0, len)
  else if form = foUPDOWN then
    (if 0 < x then (on - ceilHalf x, off + x / 2) else (on + ceilHalf (-x), off - (-x) / 2))
  else (on, on + la)

/-- Evaluate the pulse of a leg's present period in the forms UP and UPDOWN (R153, R168, R170).  `again`: a later evaluation
of the same period, at an update point at instant `x` within it.  Then a turn-on that has been emitted stays, the turn-off
follows it by the chosen active length, and no edge lies before `x`.  A request of no length lies at the centre in UPDOWN
and at the period's end in UP (log entry 28). -/
def State.evalFixed (s : State) (n : Fin 72) (t : Fin 24) (again : Bool) (x : Fine) : State :=
  let l := s.leg n
  let form := s.form t
  let duty := s.bit (F.TEAM_CARCFG_CMPREF t)
  let len : Int := perLen form l.up l.down
  let aNew := s.rd (A.LEG_CMPA n)
  let a := if again && (l.onDone || reserved aNew) then l.aGov else aNew
  let b := s.rd (A.LEG_CMPB n)
  let s := s.modLeg n (fun l => { l with aGov := a, bGov := b, downGov := l.down })
  let p := planOf form duty a b l.up l.down
  if reserved a then
    (s.carryZero n).modLeg n (fun l => { l with plan := p, onDone := false, offDone := false, mpH := .none, mpL := .none })
  else
    let none0 : Int := if form = foUPDOWN then (l.up / 2 : Nat) else len
    let (on, off) : Int × Int := match p with
      | .edges on off => (on, off)
      | _ => (none0, none0)
    let start : Int := l.pstart
    let pos : Int := if again then (x : Int) - start else 0
    let kept := again && l.onDone
    -- step 2: the edge-true correction
    let onC : Int := if kept then l.onReq
      else if on < off ∧ (0 < on ∨ !l.cmd) then max pos ((s.edgeInst n true (start + on)).1 - start) else on
    let offC : Int := if on < off ∧ off < len then
        max pos (max onC (min len ((s.edgeInst n false (start + off)).1 - start))) else off
    let req := max 0 (offC - onC)
    -- step 4: the duty bound
    let d := s.dutyBound n len.toNat
    let laReq := capLen d req
    let s := if laReq < req then s.raise (F.LEG_STAT_DUTY_LIM n) else s
    let (on1, off1) := if laReq < req then placeEdges form len laReq onC offC else (onC, onC + req)
    -- steps 3 and 5: carry and policy
    let run := !s.protected_ n
    let c0 := if run then (s.leg n).carry0 else 0
    let pol := s.get (F.LEG_EDGECFG_POLICY n)
    let o := policy pol len (s.get (F.LEG_DT_DTH n)) (s.get (F.LEG_DT_DTL n)) (s.minp n) c0 laReq d
    let s := if pol = 2 ∧ run then
        (if o.clamped then (s.raise (F.LEG_EDGESTAT_CARRY_CLAMP n)).setCarry n o.carry else s.setCarry n o.carry)
      else s
    let (on2, off2) := if kept then (l.onAt, if o.la = len then len else l.onAt + o.la)
      else placeEdges form len o.la on1 off1
    let onF := if kept then on2 else max pos on2
    let offF := max pos (min len off2)
    -- the plan holds the instants before the correction
    let q : Int := if offF = len then len else offF + (off - offC)
    let plan : Plan := if kept then (match l.plan with
        | .edges onOld _ => .edges onOld q
        | _ => .edges (onF + (on - onC)) q)
      else if onF < offF then .edges (if onF ≤ 0 ∧ (l.cmd ∨ on ≤ 0 ∨ o.la = len) then 0 else onF + (on - onC)) q else .never
    let s := s.modLeg n (fun g => { g with
      plan := plan, onReq := onC, onAt := onF, onDone := kept, offDone := false })
    s.mpSchedule n o.markH o.markL ((start + on1).toNat) ((start + off1).toNat)

/-- Evaluate the pulse of a leg's present period at instant `x`: its first evaluation, or another one where an update point
within the period calls for it (R168). -/
def State.evalLeg (s : State) (n : Fin 72) (again : Bool) (x : Fine) : State :=
  s.withTeam n fun t =>
    if isVar (s.form t) then (if again then s else s.evalVar n t)
    else
      let s := s.polSeen n
      if again && !s.evalAgain n then s else s.evalFixed n t again x

/-- Instant at which the planned pulse turns on or off, with the commanded instant and whether the bound of R165 acted;
none once that edge is past.  A pulse that goes on from the period before needs no edge (R130). -/
def State.onInst (s : State) (n : Fin 72) : Option (Int × Int × Bool) :=
  match (s.leg n).plan with
  | .edges on _ =>
    if (s.leg n).onDone then none
    else
      let tc := ((s.leg n).pstart : Int) + on
      if on ≤ 0 ∧ (s.leg n).cmd then some (tc, tc, false)
      else
        let e := s.edgeInst n true tc
        some (e.1, tc, e.2)
  | _ => none

def State.offInst (s : State) (n : Fin 72) : Option (Int × Int × Bool) :=
  match (s.leg n).plan with
  | .edges _ off =>
    if (s.leg n).offDone then none
    else
      let tc := ((s.leg n).pstart : Int) + off
      let e := s.edgeInst n false tc
      some (e.1, tc, e.2)
  | _ => none

/-- The commanded level at the start of the period, from its corrected edges. -/
def State.startLevel (s : State) (n : Fin 72) : Bool :=
  match (s.leg n).plan, s.onInst n, s.offInst n with
  | .always, _, _ => true
  | .edges _ _, some on, some off => decide (on.1 ≤ (s.leg n).pstart ∧ ((s.leg n).pstart : Int) < off.1)
  | _, _, _ => false

/-! ## Edge-true bookkeeping of periods (R122) -/

/-- The edges of the present period are all behind the leg. -/
def State.planDone (s : State) (n : Fin 72) : Bool :=
  match (s.leg n).plan with
  | .edges _ off =>
    (s.leg n).onDone && ((s.leg n).offDone || (match (s.leg n).team with
      | some t => decide ((perLen (s.form t) (s.leg n).up (s.leg n).down : Int) ≤ off)
      | none => true))
  | _ => true

/-- A period qualifies when it held a commanded edge, every edge received its reports, and no edge of it is to come. -/
def State.etcCheck (s : State) (n : Fin 72) : State :=
  let past (p : EtcPer) : Bool := p.openCnt == 0 && (p.ended || (p.start == (s.leg n).pstart && s.planDone n))
  let ok := (s.leg n).etcPers.any (fun p => past p && !p.bad)
  let s1 := if ok then s.putB (F.LEG_EDGESTAT_ETC_VALID n) true else s
  s1.modLeg n (fun l => { l with etcPers := l.etcPers.filter (fun p => !past p) })

/-- Mark the present period ended once no edge of it is to come. -/
def State.etcEndPeriod (s : State) (n : Fin 72) : State :=
  let st := (s.leg n).pstart
  let s := s.modLeg n (fun l => { l with etcPers := l.etcPers.map (fun p => if p.start = st then { p with ended := true } else p) })
  s.etcCheck n

/-- Open an edge-true record for a commanded edge, where the reports are used and the leg is not under the protection
stage, an override or a refresh; the edges of a stretched pulse, and one that follows from an interlock cancellation, update
nothing (R164, R166). -/
def State.etcOpen (s : State) (n : Fin 72) (toActive : Bool) (tc : Fine) : Option Nat × State :=
  let l := s.leg n
  let upd := !l.etcSkip && l.mpH != .stretchH && l.mpL != .stretchL
  let s := s.modLeg n (fun l => { l with etcSkip := false })
  if s.gsrEn n && !s.protected_ n && !s.ovrOn n && !s.bsBlocked n then
    let id := l.etcNext
    let per := l.pstart
    let pers := if l.etcPers.any (fun p => p.start == per) then
        l.etcPers.map (fun p => if p.start = per then { p with openCnt := p.openCnt + 1 } else p)
      else l.etcPers ++ [{ start := per, openCnt := 1, bad := false, ended := false }]
    (some id, s.modLeg n (fun l => { l with
      etcNext := id + 1, etcPers := pers,
      etcRecs := l.etcRecs ++ [{ id := id, toActive := toActive, upd := upd, tc := tc, period := per, hAt := none, lAt := none }] }))
  else (none, s)

/-! ## The commanded pulse changes level (R130 to R132, R165) -/

/-- The commanded pulse turns on, or off, at instant `x`; `tc` is the commanded instant, `clip` that a bound of R165 moved
it. -/
def State.cmdOn (s : State) (n : Fin 72) (x : Fine) (tc : Int) (clip : Bool) : State :=
  let s := if clip then s.raise (F.LEG_EDGESTAT_ETC_CLIP n) else s
  let (id, s) := s.etcOpen n true tc.toNat
  (s.modLeg n (fun l => { l with onDone := true, cmd := true })).stageOut n x id

def State.cmdOff (s : State) (n : Fin 72) (x : Fine) (tc : Int) (clip : Bool) : State :=
  let s := if clip then s.raise (F.LEG_EDGESTAT_ETC_CLIP n) else s
  let (id, s) := s.etcOpen n false tc.toNat
  (s.modLeg n (fun l => { l with
    offDone := true, cmd := false, refresh := l.refresh && !l.refExt, refExt := false })).stageOut n x id

/-- The edges that an update point at `x` leaves at or before it fall there: nothing of the period lies before it. -/
def State.pulseNow (s : State) (n : Fin 72) (x : Fine) : State :=
  let s := match s.onInst n with
    | some (i, tc, clip) => if i ≤ x ∧ !(s.leg n).cmd then s.cmdOn n x tc clip else s
    | none => s
  match s.onInst n, s.offInst n with
  | none, some (i, tc, clip) => if i ≤ x ∧ (s.leg n).cmd then s.cmdOff n x tc clip else s
  | _, _ => s

/-! ## The end of a held turn-on's on-interval (R162) -/

/-- The pulse that runs to the period's end goes on into the next period as the compares stand: A is 0, or COMPARE_ALWAYS. -/
def State.goesOn (s : State) (n : Fin 72) : Bool :=
  let a := s.rd (A.LEG_CMPA n)
  a == 0 || a == cmpALWAYS

/-- The end of the on-interval of a held turn-on as planned: the next commanded change that turns its switch off, none while
it lies in a period not evaluated yet, or while FORCE holds the level. -/
def State.heldOffAt (s : State) (n : Fin 72) : Option Int :=
  let l := s.leg n
  if s.bit (F.LEG_OVRSTAT_FORCE n) then none
  else if !l.cmd then (s.onInst n).map (fun e => e.1)
  else match l.plan, l.team with
    | .edges _ off, some t =>
      if isVar (s.form t) then (if off < openEnd then (s.offInst n).map (fun e => e.1) else none)
      else if (perLen (s.form t) l.up l.down : Int) ≤ off ∧ s.goesOn n then none
      else (s.offInst n).map (fun e => e.1)
    | _, _ => none

/-- A held turn-on whose on-interval would already fall below MINP at instant `x` is cancelled (R162). -/
def State.heldLate (s : State) (n : Fin 72) (x : Fine) : State :=
  match (s.leg n).pend, s.heldOffAt n with
  | some p, some off => if p.held ∧ off < (x : Int) + s.minp n then s.ilkDrop n else s
  | _, _ => s

/-! ## Leg periods -/

/-- The first evaluation of a leg's present period; an edge at its very start is done (R130, R168). -/
def State.legBegin (s : State) (n : Fin 72) : State :=
  let s := s.evalLeg n false (s.leg n).pstart
  s.modLeg n (fun l => { l with onDone := s.startLevel n })

/-- The edges of the period that ends at `x` that are still to come: the commanded instant of the pulse's end, and whether a
correction had moved an edge to `x` or beyond (R165). -/
def State.legLeft (s : State) (n : Fin 72) (x : Fine) : Int × Bool :=
  let late (e : Option (Int × Int × Bool)) : Bool := match e with
    | some (i, tc, _) => decide ((x : Int) ≤ i ∧ tc < i)
    | none => false
  ((match s.offInst n with
    | some (_, tc, _) => min tc x
    | none => x), late (s.onInst n) || late (s.offInst n))

/-- A leg period starts at instant x with length up (fine steps): LEG_PSTART, the evaluation, and the level at the
start, which needs no edge when it stands already (R130, R142, R168).  The level there is not known before the start, so a
correction moves an edge at a start only later (R165; log entry 95). -/
def State.legPeriod (s : State) (n : Fin 72) (x : Fine) (up : Nat) : State :=
  let (offTc, late) := s.legLeft n x
  let s := if late then s.raise (F.LEG_EDGESTAT_ETC_CLIP n) else s
  let s := s.etcEndPeriod n
  let c := wInt (s.rd (A.LEG_CARRY n))
  let s := s.modLeg n (fun l => { l with
    pstart := x, up := up, down := up, running := true, carry0 := c, onDone := false, offDone := false,
    mpHCnt := false, mpLCnt := false })
  let s := s.putB (F.LEG_STAT_RUN n) true
  let s := s.putStamp (A.LEG_PSTART0 n) (A.LEG_PSTART1 n) (s.stampOf x)
  let s := s.legBegin n
  let lvl := (s.leg n).onDone
  let s := if lvl != (s.leg n).cmd then
      let (id, s) := s.etcOpen n lvl (if lvl then x else offTc.toNat)
      (s.modLeg n (fun l => { l with
        cmd := lvl, refresh := l.refresh && (lvl || !l.refExt), refExt := l.refExt && lvl })).stageOut n x id
    else s
  s.heldLate n x

/-- Between the end of a period and a later start a leg holds the level of the period's last position: in UPDOWN position 0,
which is inactive, but for a period that COMPARE_ALWAYS makes active throughout (R137, R142; log entry 96). -/
def State.legGap (s : State) (n : Fin 72) (t : Fin 24) (x : Fine) : State :=
  let l := s.leg n
  match l.plan with
  | .edges _ _ =>
    if s.form t = foUPDOWN ∧ l.running ∧ l.cmd ∧ l.pstart + perLen foUPDOWN l.up l.down ≤ x then s.cmdOff n x x false else s
  | _ => s

/-! ## Shadows and staged copies -/

/-- The SH words of a leg (R141). -/
def legShWords (n : Nat) : List Nat :=
  [A.LEG_CMPA n, A.LEG_CMPB n, A.LEG_CMPC n, A.LEG_CMPD n, A.LEG_DT n, A.LEG_MINP n, A.LEG_EDGECFG n]

/-- The staged LEG_PHASE of a leg (R142). -/
def State.phase (s : State) (n : Fin 72) : Nat := s.getSt (F.LEG_PHASE_PHASE n)

/-- A LEG_PHASE staged before a coming period has started moves that start, where the new one is still to come (R142; log
entry 96). -/
def State.rephase (s : State) (n : Fin 72) : State :=
  let ph := s.phase n
  s.modLeg n (fun l => { l with nexts := l.nexts.map (fun e =>
    let y := e.team + ph * e.len / 65536
    if s.nowF < y then { e with start := y, phase := ph } else e) })

/-- Copy the shadows of a leg into its staged copies. -/
def State.stageLeg (s : State) (n : Fin 72) : State :=
  let s := each (A.LEG_PHASE n.val :: legShWords n) (fun a s => s.wrSt a (s.rdSh a)) s
  let s := s.rephase n
  s.putB (F.LEG_STAT_PEND n) false

/-- Staged values of a leg take effect: compares, dead times, minimum pulse, policy.  LEG_EDGECFG shadows POLICY alone. -/
def State.activateLeg (s : State) (n : Fin 72) : State :=
  let s := each [A.LEG_CMPA n, A.LEG_CMPB n, A.LEG_CMPC n, A.LEG_CMPD n, A.LEG_DT n, A.LEG_MINP n]
    (fun a s => s.wr a (s.rdSt a)) s
  let s := s.put (F.LEG_EDGECFG_POLICY n) (s.getSt (F.LEG_EDGECFG_POLICY n))
  s.putB (F.LEG_STAT_STAGED n) false

/-- Overrides that wait for the leg's update point take effect at rank 5: SWAP and INV set or cleared, FORCE cleared.
The change of the stage 6 output passes stage 7 (R177). -/
def State.ovrUpdate (s : State) (n : Fin 72) : State :=
  let old := (s.get (F.LEG_OVRSTAT_SWAP n), s.get (F.LEG_OVRSTAT_INV n), s.get (F.LEG_OVRSTAT_FORCE n))
  let s := s.put (F.LEG_OVRSTAT_SWAP n) (s.get (F.LEG_OVR_SWAP n))
  let s := s.put (F.LEG_OVRSTAT_INV n) (s.get (F.LEG_OVR_INV n))
  let s := if s.bit (F.LEG_OVR_FORCE n) then s else s.putB (F.LEG_OVRSTAT_FORCE n) false
  let new := (s.get (F.LEG_OVRSTAT_SWAP n), s.get (F.LEG_OVRSTAT_INV n), s.get (F.LEG_OVRSTAT_FORCE n))
  if old = new then s else (s.carryZero n).stageOut n s.nowF none

/-- A leg's own update point: overrides first, then the staged values (R141, R177). -/
def State.legUpdate (s : State) (n : Fin 72) : State :=
  let s := s.ovrUpdate n
  let s := s.activateLeg n
  s.modLeg n (fun l => { l with updAt := s.nowF, updTick := some s.now })

/-- The team's copy at an update point (R141, R144): HOLD suspends it at most twice in a row. -/
def State.teamCopy (s : State) (t : Fin 24) : State :=
  let s := s.bump (F.TEAM_SHCTL_UPDCNT t)
  let s := s.modTeam t (fun x => { x with updTick := some s.now })
  let hold := s.bit (F.TEAM_SHCTL_HOLD t)
  if hold && decide ((s.team t).held < 2) then s.modTeam t (fun x => { x with held := x.held + 1 })
  else
    let s := if hold then (s.putB (F.TEAM_SHCTL_HOLD t) false).raise (F.TEAM_SHCTL_HOLD_EXP t) else s
    let s := s.modTeam t (fun x => { x with held := 0 })
    let s := each (s.team t).legs (fun n s =>
      (s.stageLeg n).putB (F.LEG_STAT_STAGED n) true) s
    let s := s.wrSt (A.TEAM_PER t) (s.rdSh (A.TEAM_PER t))
    let s := s.wrSt (A.TEAM_RSTDLY t) (s.rdSh (A.TEAM_RSTDLY t))
    s.wr (A.TEAM_RSTDLY t) (s.rdSt (A.TEAM_RSTDLY t))

/-! ## Period length, dither, epochs -/

/-- The dither depth in effect for a period (R147). -/
def effDepth (depth per perMin perMax form : Nat) : Nat :=
  let e := min depth (min (per - perMin) (perMax - per))
  if form = foUPDOWN then 2 * (e / 2) else e

/-- One step of the dither register: x^23 + x^18 + 1, taps at bits 22 and 17 (R147). -/
def lfsrStep (l : Nat) : Nat :=
  (l * 2) % 2 ^ 23 + ((l / 2 ^ 22) % 2 + (l / 2 ^ 17) % 2) % 2

/-- The eight steps at the start of an even period. -/
def lfsr8 (l : Nat) : Nat := (List.range 8).foldl (fun x _ => lfsrStep x) l

/-- The seed of an epoch (R147). -/
def ditherSeed (epoch salt : Nat) : Nat :=
  let salt23 := salt + salt * 2 ^ 8 + (salt % 128) * 2 ^ 16
  let seed := Nat.xor (epoch % 2 ^ 23) salt23
  if seed = 0 then 0x400000 else seed

/-- The deviation d of a pair from the low byte of the dither register (R147). -/
def ditherDev (lfsr depth form : Nat) : Int :=
  let d := ((lfsr % 256 : Nat) - 128 : Int) * depth / 128
  if form = foUPDOWN then 2 * (d / 2) else d

/-- The team aligns its carrier to epochs; ALIGN is ignored in a variable form (R189). -/
def State.aligned (s : State) (t : Fin 24) : Bool := s.bit (F.TEAM_ALNCFG_ALIGN t) && !isVar (s.form t)

/-- Dither acts: enabled, on an aligned team in a fixed form (R146). -/
def State.ditherOn (s : State) (t : Fin 24) : Bool := s.bit (F.TEAM_DITHCFG_EN t) && s.aligned t

/-- A new TEAM_PER takes effect; the dither depth in effect follows (R147). -/
def State.applyPer (s : State) (t : Fin 24) : State :=
  let s := s.wr (A.TEAM_PER t) (s.rdSt (A.TEAM_PER t))
  if s.ditherOn t then
    s.put (F.TEAM_DITHSTAT_EFFDEPTH t)
      (effDepth (s.get (F.TEAM_DITHCFG_DEPTH t)) (s.get (F.TEAM_PER_PER t)) (s.perMin t) (s.perMax t) (s.form t))
  else s

/-- The epoch index of an instant, when it is an epoch of the team: e_k = k × EPOCHINT × 256 + EPOCHOFS (R189). -/
def State.epochAt (s : State) (t : Fin 24) (x : Fine) : Option Nat :=
  if !s.aligned t then none
  else
    let d := s.stampOf x
    let int := s.get (F.TEAM_EPOCHINT_INT t) * 256
    let ofs := (s.rd (A.TEAM_EPOCHOFS t)).toNat
    if ofs ≤ d ∧ int ≠ 0 ∧ (d - ofs) % int = 0 then some ((d - ofs) / int) else none

/-- The staged TEAM_PER meets the multiple rule of R190. -/
def State.perMultiple (s : State) (t : Fin 24) : Bool :=
  let per := s.getSt (F.TEAM_PER_PER t)
  let int := s.get (F.TEAM_EPOCHINT_INT t)
  per != 0 && int % per == 0 && (!s.ditherOn t || (int / per) % 2 == 0)

/-- TEAM_EPOCHIDX shows the latest epoch (R189). -/
def State.epochIdx (s : State) (t : Fin 24) (k : Nat) : State :=
  (s.wr (A.TEAM_EPOCHIDX0 t) (BitVec.ofNat 32 k)).put ⟨A.TEAM_EPOCHIDX1 t, 0, 24⟩ (k / 2 ^ 32)

/-- A refused TEAM_PER is discarded: the staged copy, and the shadow where it holds that same value (R190). -/
def State.perRefuse (s : State) (t : Fin 24) : State :=
  let per := s.rd (A.TEAM_PER t)
  let s := if s.rdSh (A.TEAM_PER t) = s.rdSt (A.TEAM_PER t) then s.wrSh (A.TEAM_PER t) per else s
  (s.wrSt (A.TEAM_PER t) per).raise (F.TEAM_ALNSTAT_PER_REF t)

/-- An epoch arrives (R147, R149, R189, R190): the index, the reseed of the dither register, and a new period length
applied or refused. -/
def State.epochActs (s : State) (t : Fin 24) (x : Fine) (k : Nat) : State :=
  let s := (s.modTeam t (fun m => { m with epochAt := some x })).epochIdx t k
  let lock := s.bit F.TIM_STAT_NETLOCK
  let s := if lock then s.putB F.IDG_WARMSTAT_EPOCH true else s
  let s := if s.ditherOn t && (lock || s.get (F.TEAM_LFSR_LFSR t) != 0) then
      let s := if lock then
          (s.put (F.TEAM_LFSR_LFSR t) (ditherSeed k (s.get (F.TEAM_DITHCFG_SALT t)))).putB (F.TEAM_DITHSTAT_VALID t) true
        else s
      s.putB (F.TEAM_DITHSTAT_PAIR t) true
    else s
  let s := s.putB (F.TEAM_ALNSTAT_WAIT_LOCK t) false
  let s := s.putB (F.TEAM_ALNSTAT_ALIGNED t) true
  if s.getSt (F.TEAM_PER_PER t) = s.get (F.TEAM_PER_PER t) then s
  else if s.perMultiple t then s.applyPer t
  else s.perRefuse t

/-- The length in ticks of the period that starts now (R135, R147, R148): the staged TEAM_PER takes effect where R145,
R148 and R190 let it, and dither draws its deviation at an even period. -/
def State.periodLen (s : State) (t : Fin 24) : Nat × State :=
  let dith := s.ditherOn t && s.get (F.TEAM_LFSR_LFSR t) != 0
  let even := s.bit (F.TEAM_DITHSTAT_PAIR t)
  let s := if s.aligned t then s else s.applyPer t
  let per := s.get (F.TEAM_PER_PER t)
  if !dith then (per, s.modTeam t (fun x => { x with dith := 0 }))
  else if even then
    let l := lfsr8 (s.get (F.TEAM_LFSR_LFSR t))
    let d := ditherDev l (s.get (F.TEAM_DITHSTAT_EFFDEPTH t)) (s.form t)
    let s := s.put (F.TEAM_LFSR_LFSR t) l
    let s := s.putB (F.TEAM_DITHSTAT_PAIR t) false
    (((per : Int) + d).toNat, s.modTeam t (fun x => { x with dith := d }))
  else
    let s := s.putB (F.TEAM_DITHSTAT_PAIR t) true
    (((per : Int) - (s.team t).dith).toNat, s)

/-! ## Update points and period starts -/

/-- TEAM_UPDMODE selects the start and the centre; a variable form reads the mode as start (R188). -/
def State.updStart (s : State) (t : Fin 24) : Bool := isVar (s.form t) || (s.get (F.TEAM_UPDMODE_MODE t)) % 2 == 1
def State.updCentre (s : State) (t : Fin 24) : Bool := !isVar (s.form t) && s.get (F.TEAM_UPDMODE_MODE t) / 2 == 1

/-- The conditions of R124 under which a team in WAIT closes its loop at an update point. -/
def State.loopReady (s : State) (t : Fin 24) : Bool :=
  s.tstate t == stWAIT && (s.team t).readyCommit == some true && s.load.locked && !s.teamTripped t
    && !s.safe.filtLow && !s.bit F.IDG_INBAND_SAFE_N && s.tim.refAt.isNone
    && (s.team t).legs.all (fun n =>
      !s.gsrEn n ||
        (match ascSwitch (s.pdkSafe t) with
         | none => s.healthy n .high && s.healthy n .low
         | some sw => s.healthy n sw.opp && !s.rptBand n sw))

/-- A period that starts at the team's entry into RUN is its leg's first in RUN: its evaluation sets the carry, which
was 0 at the safe level (R168, R170, R195; log entry 76). -/
def State.firstRun (s : State) (n : Fin 72) : State :=
  if (s.leg n).running ∧ (s.leg n).pstart / 256 = s.now then
    let s := s.legBegin n
    s.modLeg n (fun l => { l with cmd := l.onDone })
  else s

/-- A team leaves its safe level for RUN (R172, R196): the count of each leg is set to LIMIT, and the commanded level
as it stands takes over at stage 7, with its dead time (R150; log entry 75). -/
def State.enterRun (s : State) (t : Fin 24) : State :=
  let s := s.put (F.TEAM_STAT_STATE t) stRUN
  let s := s.put (F.TEAM_STAT_SAFEKIND t) 0
  let s := s.putB (F.TEAM_STAT_ASC_WAIT t) false
  let s := each (s.team t).legs (fun n s =>
    let s := s.cancelPend n
    let s := s.bsExit n
    let s := s.modLeg n (fun l => { l with refExt := false, noAsc := false })
    (s.firstRun n).stageOut n s.nowF none) s
  s.liveUpdate t

/-- At an update point the waiting commit decides whether the loop closes (R124). -/
def State.loopClose (s : State) (t : Fin 24) : State :=
  let ready := s.loopReady t
  let s := s.modTeam t (fun x => { x with readyCommit := none })
  if ready then s.enterRun t else s

/-- The start of a team's period at instant x: the start update point where the mode has one, the epoch where x is one,
the new period's length, the periods of the legs without phase, and the starts planned for the others (R134, R141,
R142, R190). -/
def State.teamStart (s : State) (t : Fin 24) (x : Fine) : State :=
  let form := s.form t
  let upd := s.updStart t
  let s := if upd then s.teamCopy t else s
  let s := match s.epochAt t x with
    | some k => s.epochActs t x k
    | none => s
  let prev := (s.team t).prevLen
  let wasStarted := (s.team t).started
  let (ticks, s) := s.periodLen t
  let len := ticks * 256
  let lastLen := if wasStarted then x - (s.team t).pstart else len
  let prev' := if isVar form then (if wasStarted then lastLen else len) else prev
  let s := s.modTeam t (fun m => { m with
    started := true, pstart := x, up := len, down := len,
    next := if isVar form then none else some (x + len), prevLen := prev', valley := 0, restartAt := none,
    delayed := false, trgSeen := 0 })
  let s := s.put (F.TEAM_PERACT_PERACT t) (if isVar form then prev' / 256 else ticks)
  let s := s.bump (F.TEAM_PCNT_PCNT t)
  let lead := s.leadLeg t
  let s := each (s.team t).legs (fun n s =>
    let ph := s.phase n
    let base := if isVar form then prev' else len
    if (isVar form && lead == some n) || ph = 0 then
      let s := if upd then s.legUpdate n else s
      let s := s.put (F.LEG_PHASE_PHASE n) ph
      s.legPeriod n x (if isVar form then (if lead == some n then len else prev') else len)
    else
      let s := s.modLeg n (fun l => { l with
        nexts := l.nexts ++ [{ start := x + ph * base / 65536, len := base, team := x, phase := ph }] })
      if s.get (F.LEG_PHASE_PHASE n) = 0 then s.legGap n t x else s) s
  if upd then s.loopClose t else s

/-- The start of the next period of a leg with a phase (R142). -/
def State.legStart (s : State) (n : Fin 72) (x : Fine) : State :=
  match (s.leg n).nexts with
  | e :: rest =>
    if e.start = x then
      s.withTeam n fun t =>
        let s := s.modLeg n (fun l => { l with nexts := rest })
        let s := if s.updStart t then s.legUpdate n else s
        let s := s.put (F.LEG_PHASE_PHASE n) e.phase
        s.legPeriod n x e.len
      else s
  | [] => s

/-- The centre instant of a period: tick floor(P'/2) in UP, the start of the down half in UPDOWN (R141). -/
def centreOf (form pstart up : Nat) : Fine :=
  if form = foUPDOWN then pstart + up / 2 else pstart + (up / 512) * 256

/-- A leg's own centre update point: the re-evaluation of the rest of the period (R145, R168). -/
def State.legCentre (s : State) (n : Fin 72) : State :=
  s.withTeam n fun t =>
    if s.updCentre t then
      let x := centreOf (s.form t) (s.leg n).pstart (s.leg n).up
      let s := (s.legUpdate n).evalLeg n true x
      ((s.pulseNow n x).heldLate n x).stageOut n s.nowF none
    else s

/-- The centre update point of a team (R141, R145): a new TEAM_PER sets the down half in UPDOWN, where neither dither
nor alignment restricts it. -/
def State.teamCentre (s : State) (t : Fin 24) : State :=
  let s := s.teamCopy t
  let free := s.form t == foUPDOWN && !s.aligned t
  let s := if free then s.applyPer t else s
  let s := if free then
      s.modTeam t (fun m =>
        let d := s.get (F.TEAM_PER_PER t) * 256
        { m with down := d, next := some (m.pstart + (m.up + d) / 2) })
    else s
  let s := if free then s.put (F.TEAM_PERACT_PERACT t) ((s.team t).up / 512 + (s.team t).down / 512) else s
  let s := each (s.team t).legs (fun n s =>
    if s.get (F.LEG_PHASE_PHASE n) = 0 then
      (if free then s.modLeg n (fun l => { l with down := (s.team t).down }) else s).legCentre n
    else s) s
  s.loopClose t

end Sys2Proof.Machine
end

