-- ==== Sys2Proof/Machine/Edge.lean ====
section
/-!
DEFINITION. What each event at a leg does at the tick it names: compare edges, restarts, dead-time ends, gate-state
reports, refreshes and override writes (chapters 05 and 06).  Every operation takes the state at that tick.
-/
namespace Sys2Proof.Machine

/-- The instant of the present tick plus a fine-step position (R7). -/
def State.inst (s : State) (fine : Nat) : Fine := s.nowF + fine % 256

/-! ## Compare edges (R130 to R132, R137, R165) -/

/-- The change of the commanded pulse that falls at instant `x` in the leg's present period: on or off, with its commanded
instant and whether a bound moved it; none where no edge of the plan falls there. -/
def State.edgeAt (s : State) (n : Fin 72) (x : Fine) : Option (Bool × Int × Bool) :=
  match (s.leg n).team with
  | none => none
  | some t =>
    let l := s.leg n
    let pend : Int := l.pstart + perLen (s.form t) l.up l.down
    match s.onInst n, s.offInst n with
    | some (i, tc, clip), _ => if i = x ∧ (i < pend ∨ isVar (s.form t)) ∧ !l.cmd then some (true, tc, clip) else none
    | none, some (i, tc, clip) => if i = x ∧ (i < pend ∨ isVar (s.form t)) ∧ l.cmd then some (false, tc, clip) else none
    | none, none => none

/-- A leg of an UPDOWN team with a phase reaches the end of its period at `x`, and its next one starts later (R142). -/
def State.gapAt (s : State) (n : Fin 72) (t : Fin 24) (x : Fine) : Bool :=
  let l := s.leg n
  s.form t == foUPDOWN && s.get (F.LEG_PHASE_PHASE n) != 0 && x == l.pstart + perLen foUPDOWN l.up l.down
    && l.nexts.head?.map NextStart.start != some x

/-- The commanded pulse changes level at its compare instant, as a rank-6 event; an event that names another instant
than the plan's is none (log entry 5). -/
def State.compareEdge (s : State) (n : Fin 72) (fine : Nat) : State :=
  s.withTeam n fun t =>
    let x := s.inst fine
    match s.edgeAt n x with
    | some (true, tc, clip) => s.cmdOn n x tc clip
    | some (false, tc, clip) => s.cmdOff n x tc clip
    | none => if s.gapAt n t x then s.legGap n t x else s

/-! ## Variable periods (R133, R171) -/

/-- Ceiling of a quotient of counts. -/
def ceilDiv (a b : Nat) : Nat := if b = 0 then 0 else (a + b - 1) / b

/-- Compare A of the lead leg as a position; none where it holds a reserved value (R128). -/
def State.leadA (s : State) (n : Fin 72) : Option Nat :=
  let a := s.rd (A.LEG_CMPA n)
  if reserved a then none else some a.toNat

/-- The on-time that the duty bound of E is taken of: A, or the length to which the policy stretched the interval that A
sets (R133, R169; log entry 94). -/
def State.leadOn (s : State) (n : Fin 72) : Nat :=
  match (s.leg n).plan with
  | .edges on off => max ((s.leadA n).getD 0) (off - on).toNat
  | _ => (s.leadA n).getD 0

/-- The earliest restart position E of the lead leg (R133). -/
def State.restartE (s : State) (t : Fin 24) (n : Fin 72) : Nat :=
  let d := if s.form t = foVARON ∧ !s.hsIso n then ceilDiv (s.leadOn n * 65536) (s.dutyMax n) else 0
  max (s.perMin t * 256) d

/-- The latest restart position X, and whether the duty bound set it (R133).  With COMPARE_NEVER in A there is no position A
to bound it, and X is TEAM_PER; step 3 may also give an X below PER_MIN, and the period ends there all the same (log entry
94). -/
def State.restartX (s : State) (t : Fin 24) (n : Fin 72) : Nat × Bool :=
  let per := s.get (F.TEAM_PER_PER t) * 256
  match s.leadA n with
  | some a =>
    let d := a * 65536 / (65536 - s.dutyMax n)
    if s.form t = foVAROFF ∧ !s.hsIso n ∧ d < per then (d, true) else (per, false)
  | none => (per, false)

/-- The least restart position that keeps the interval closed by the restart at MINP plus its dead time (R171); 0 where the
pulse has no edge before X, so that the restart closes no interval of its own. -/
def State.restartMin (s : State) (t : Fin 24) (n : Fin 72) : Nat :=
  match (s.leg n).plan with
  | .edges on off =>
    let e := (if s.form t = foVARON then off else on).toNat
    let front := if s.form t = foVARON then s.get (F.LEG_DT_DTL n) else s.get (F.LEG_DT_DTH n)
    if e < (s.restartX t n).1 then e + s.minp n + front else 0
  | _ => 0

/-- The restart comparator crosses (R133): t is the tick at which the leg knows it, 3 ticks after the crossing. -/
def State.restartCrossing (s : State) (t : Fin 24) (rising : Bool) : State :=
  match s.leadLeg t with
  | none => s
  | some n =>
    let edge := s.get (F.TEAM_CARCFG_RSTEDGE t)
    let sense := edge = 2 ∨ (edge = 0 ∧ rising) ∨ (edge = 1 ∧ !rising)
    let stamp := s.nowF - 768
    let pos : Int := (stamp : Int) - (s.team t).pstart
    if isVar (s.form t) ∧ (s.team t).started ∧ s.get (F.TEAM_CARCFG_RSTSRC t) < 96 ∧ sense
        ∧ 0 ≤ pos ∧ (s.restartE t n : Int) ≤ pos ∧ (s.team t).restartAt = none then
      let v := (s.team t).valley + 1
      let s := s.modTeam t (fun m => { m with valley := v })
      if v = s.get (F.TEAM_CARCFG_VALLEY t) then
        let at_ := stamp + s.get (F.TEAM_RSTDLY_DLY t)
        let least := (s.team t).pstart + s.restartMin t n
        s.modTeam t (fun m => { m with restartAt := some (max at_ least), delayed := decide (at_ < least) })
      else s
    else s

/-- The latest instant at which the period may end: X, extended on the ground of R171 alone and by at most MINP + DTH +
DTL. -/
def State.restartLimit (s : State) (t : Fin 24) (n : Fin 72) : Fine :=
  let x := (s.restartX t n).1
  (s.team t).pstart
    + max x (min (s.restartMin t n) (x + s.minp n + s.get (F.LEG_DT_DTH n) + s.get (F.LEG_DT_DTL n)))

/-- The period ends later than its restart alone would have it: the interval that the restart closes is stretched, and its
edge updates no correction (R166, R171). -/
def State.restartStretch (s : State) (t : Fin 24) (n : Fin 72) : State :=
  let m := if s.form t = foVARON then MpMark.stretchL else MpMark.stretchH
  (s.mpCountNow n m).modLeg n (fun l => { l with etcSkip := true })

/-- The scheduled restart instant arrives, and the next period starts there (R133). -/
def State.periodRestart (s : State) (t : Fin 24) (fine : Nat) : State :=
  match s.leadLeg t, (s.team t).restartAt with
  | some n, some at_ =>
    if isVar (s.form t) ∧ (s.team t).started ∧ at_ = s.inst fine ∧ at_ ≤ s.restartLimit t n then
      let s := if (s.team t).delayed then s.restartStretch t n else s
      (s.put (F.TEAM_VARSTAT_LASTEND t) 0).teamStart t at_
    else s
  | _, _ => s

/-- No restart has been scheduled before position X: the period ends there (R133 steps 5 and 6). -/
def State.periodTimeout (s : State) (t : Fin 24) (fine : Nat) : State :=
  match s.leadLeg t with
  | none => s
  | some n =>
    let x := s.restartLimit t n
    let later : Bool := match (s.team t).restartAt with
      | none => true
      | some r => decide (x < r)
    if isVar (s.form t) ∧ (s.team t).started ∧ x = s.inst fine ∧ later = true then
      let s := s.bump (F.TEAM_VARSTAT_TMOCNT t)
      let s := s.put (F.TEAM_VARSTAT_LASTEND t) (if (s.restartX t n).2 then 2 else 1)
      let s := if (s.team t).pstart + (s.restartX t n).1 < x then s.restartStretch t n else s
      s.teamStart t x
    else s

/-! ## Dead time and interlock (R154, R161, R162) -/

/-- The turn-on of a switch waits for the opposite report: with the reports in use and the interlock on, or the report held
in its band (R158, R161). -/
def State.ilkGuards (s : State) (n : Fin 72) (sw : Sw) : Bool := s.gsrEn n && (s.ilkEn n || s.rptBand n sw.opp)

/-- A placed turn-on is emitted; at the last turn-on of an ASC entry the team shows its level (R194). -/
def State.turnOn (s : State) (n : Fin 72) (p : PendOn) : State :=
  let s := (s.modLeg n (fun l => { l with pend := none })).emitEdge n p.sw true p.at_ p.etcId
  s.withTeam n fun t => s.ascShow t

/-- A turn-on falls due at an instant: it is placed there where the opposite report was healthy 1 tick before, and
healthy for 3 ticks and GUARD; a later instant takes it otherwise, or the interlock holds it (R161). -/
def State.deadTimeEnd (s : State) (n : Fin 72) (fine : Nat) : State :=
  match (s.leg n).pend with
  | none => s
  | some p =>
    if p.at_ = s.inst fine ∧ !p.held ∧ !(s.leg n).latched then
      if s.ilkGuards n p.sw then
        let inst := max p.due (s.healAt n p.sw.opp + 768 + s.get (F.LEG_ILKCFG_GUARD n))
        if s.healthyBefore n p.sw.opp ∧ inst ≤ p.at_ then s.turnOn n p
        else if s.healthy n p.sw.opp ∧ p.at_ < inst then
          s.modLeg n (fun l => { l with pend := some { p with at_ := inst } })
        else
          (s.modLeg n (fun l => { l with pend := some { p with held := true } })).raise (F.LEG_EDGESTAT_ILK_HOLD n)
      else s.turnOn n p
    else s

/-- A held turn-on whose on-interval would fall below MINP is cancelled; the cancellation falls MINP before the next
planned turn-off (R162). -/
def State.ilkCancel (s : State) (n : Fin 72) (fine : Nat) : State :=
  match (s.leg n).pend, s.heldOffAt n with
  | some p, some off =>
    if p.held ∧ (s.inst fine : Int) + s.minp n = off then s.ilkDrop n else s
  | _, _ => s

/-! ## Gate-state reports (R157 to R160, R164, R165) -/

/-- The correction gain, rounded towards zero (R165). -/
def etcGain (g : Nat) (r : Int) : Int := tdiv r (2 ^ g)

/-- The pole instant of an edge from its two actual switching instants and the current's sign (R164): i is the latest
VALID sample of LEG_ETCCFG.ISRC, positive out of the leg. -/
def poleInst (toActive : Bool) (cur : Option Int) (iband : Int) (h l : Int) : Int :=
  match cur with
  | none => (h + l) / 2
  | some i =>
    if i > iband then h
    else if i < -iband then l
    else (let _ := toActive; (h + l) / 2)

/-- The latest VALID sample of the leg's phase-current channel; none where no channel is named or it is not VALID. -/
def State.legCurrent (s : State) (n : Fin 72) : Option Int :=
  let c := s.get (F.LEG_ETCCFG_ISRC n)
  if c < 144 ∧ s.bit (F.SDM_STAT_VALID c) then some (wInt (s.rd (A.SDM_RES c))) else none

/-- Store the two corrections (R180). -/
def State.storeCor (s : State) (n : Fin 72) : State :=
  (s.putI (F.LEG_ETCCOR_C_ON n) (s.leg n).cOn).putI (F.LEG_ETCCOR_C_OFF n) (s.leg n).cOff

/-- Both reports of a commanded edge are known: the correction is updated, and the edge counts for its period
(R122, R165, R166). -/
def State.etcUpdate (s : State) (n : Fin 72) (r : EtcRec) (h l : Int) : State :=
  let lim : Int := s.get (F.LEG_ETCLIM_LIM n)
  let p := poleInst r.toActive (s.legCurrent n) (s.get (F.LEG_ETCCFG_IBAND n) * 65536) h l
  let d := etcGain (s.get (F.LEG_EDGECFG_ETC_GAIN n)) (p - r.tc)
  let upd := r.upd && s.bit (F.LEG_EDGECFG_ETC_EN n) && !s.protected_ n && !s.ovrOn n && !s.takeWindow n
  let c0 := if r.toActive then (s.leg n).cOn else (s.leg n).cOff
  let c := clampI (-lim) lim (c0 + d)
  let s := if upd && c != c0 + d then s.raise (F.LEG_EDGESTAT_ETC_CLIP n) else s
  let s := if upd then
      (if r.toActive then s.modLeg n (fun g => { g with cOnPrev := g.cOn, cOn := c, cOnAt := s.now })
       else s.modLeg n (fun g => { g with cOffPrev := g.cOff, cOff := c, cOffAt := s.now })).storeCor n
    else s
  let s := s.modLeg n (fun g => { g with
    etcRecs := g.etcRecs.filter (fun x => x.id != r.id),
    etcPers := g.etcPers.map (fun q => if q.start = r.period then { q with openCnt := q.openCnt - 1 } else q) })
  s.etcCheck n

/-- A report has closed an expectation that serves an edge-true record: keep the actual switching instant, the stamp
less LEG_RPTDLY (R157, R164). -/
def State.etcReport (s : State) (n : Fin 72) (sw : Sw) (stamp : Fine) (id : Option Nat) : State :=
  match id with
  | none => s
  | some i =>
    let dly : Int := match sw with
      | .high => s.get (F.LEG_RPTDLY_DLY_H n)
      | .low => s.get (F.LEG_RPTDLY_DLY_L n)
    let act : Int := stamp - dly
    let s := s.modLeg n (fun g => { g with etcRecs := g.etcRecs.map (fun r =>
      if r.id = i then (match sw with
        | .high => { r with hAt := some act }
        | .low => { r with lAt := some act }) else r) })
    match (s.leg n).etcRecs.find? (fun r => r.id == i) with
    | some r => (match r.hAt, r.lAt with
      | some h, some l => s.etcUpdate n r h l
      | _, _ => s)
    | none => s

/-- The edge-true correction restarts its warm-up on a missing report (R122). -/
def State.etcRestart (s : State) (n : Fin 72) (id : Option Nat) : State :=
  (s.etcFail n id).putB (F.LEG_EDGESTAT_ETC_VALID n) false

/-- The report's stamp registers and health bits follow a change, whatever GSR_EN holds (R157, R180). -/
def State.reportSeen (s : State) (n : Fin 72) (sw : Sw) (healthy : Bool) (stamp : Fine) : State :=
  let w : Word := BitVec.ofNat 32 (s.stampOf stamp)
  let was := s.healthyBefore n sw
  match sw with
  | .high =>
    ((s.wr (A.LEG_RPTLASTH n) w).putB (F.LEG_EDGESTAT_HEALTHY_H n) healthy).modLeg n (fun l =>
      let l := { l with knowH := s.now, wasH := was }
      if healthy then { l with healH := stamp } else { l with unhealH := stamp })
  | .low =>
    ((s.wr (A.LEG_RPTLASTL n) w).putB (F.LEG_EDGESTAT_HEALTHY_L n) healthy).modLeg n (fun l =>
      let l := { l with knowL := s.now, wasL := was }
      if healthy then { l with healL := stamp } else { l with unhealL := stamp })

/-- A report that became healthy places the turn-on it held, at the later of its R154 instant and h + 768 + GUARD
(R161). -/
def State.releaseHeld (s : State) (n : Fin 72) : State :=
  match (s.leg n).pend with
  | some p =>
    if p.held ∧ s.healthy n p.sw.opp then
      let inst := max p.due (s.healAt n p.sw.opp + 768 + s.get (F.LEG_ILKCFG_GUARD n))
      s.modLeg n (fun l => { l with pend := some { p with at_ := inst, held := false } })
    else s
  | none => s

/-- A FORCE to an ASC level waits for the same report check (R175). -/
def State.forceCheck (s : State) (n : Fin 72) : State :=
  if s.bit (F.LEG_OVRSTAT_FORCE n) && s.bit (F.LEG_OVRSTAT_FORCE_HOLD n) then s.stageOut n s.nowF none else s

/-- LEG_ILKMAX keeps the longest delay from an emitted turn-off to its healthy report (R163). -/
def State.ilkMax (s : State) (n : Fin 72) (d : Nat) : State :=
  s.raiseMax (F.LEG_ILKMAX_MAX n) (min d (2 ^ 24 - 1))

/-- The oldest expectation of a switch is declared missing (R122, R159). -/
def State.expMissing (s : State) (n : Fin 72) (sw : Sw) : State :=
  match s.exps n sw with
  | e :: rest => ((s.setExps n sw rest).etcRestart n e.etcId).ilkTrip n (if e.turnOn then 2 else 1) sw
  | [] => s

/-- The oldest expectation's time has run out by an instant (R159). -/
def State.expLate (s : State) (n : Fin 72) (sw : Sw) (x : Fine) : Bool :=
  s.gsrEn n && (match s.exps n sw with
    | e :: _ => decide (e.stamp + tmoFine (s.get (F.LEG_ILKCFG_TMO n)) < x)
    | [] => false)

/-- A gate-state report changes (R157 to R161, R194): the operation acts at the tick at which the leg knows it, 2 ticks
after the tick of its stamp; `fine` is the stamp's position in that tick, `level` the level at SH or SL.  A report stamped
after an expectation's time has run out closes nothing: that expectation is missing. -/
def State.reportChange (s : State) (n : Fin 72) (sw : Sw) (level : Bool) (fine : Nat) : State :=
  let stamp := s.nowF - 512 + fine % 256
  let healthy := level != s.bit (F.LEG_EDGECFG_RPT_POL n)
  if s.deadLine n (match sw with | .high => 3 | .low => 4) then s
  else
  let s := each (List.range 4) (fun _ s => if s.expLate n sw stamp then s.expMissing n sw else s) s
  let s := s.reportSeen n sw healthy stamp
  if !s.gsrEn n || s.rptBand n sw then s
  else
    let s := match s.exps n sw with
      | e :: rest =>
        if e.turnOn != healthy then
          let s := s.setExps n sw rest
          let s := if healthy then s.ilkMax n (stamp - e.stamp) else s
          s.etcReport n sw stamp e.etcId
        else s.ilkTrip n 3 sw
      | [] => if s.takeWindow n then s.bumpSat F.YOK_ERR_UNEXP else s.ilkTrip n 3 sw
    let s := if healthy then (s.releaseHeld n).forceCheck n else s
    s.withTeam n fun t => if healthy then s.ascCheck t else s

/-- An expectation that no report stamped at or before its instant + TMO has closed is declared missing 2 ticks after
that instant (R159). -/
def State.reportTimeout (s : State) (n : Fin 72) (sw : Sw) : State :=
  match s.exps n sw with
  | e :: _ =>
    let tmo := tmoFine (s.get (F.LEG_ILKCFG_TMO n))
    if s.gsrEn n ∧ (e.stamp + tmo) / 256 + 2 ≤ s.now then s.expMissing n sw else s
  | [] => s

/-- Both reports have shown their gates not below the off threshold over at least one tick, on their stamps: the leg trips 2
ticks after the tick in which the interval reaches 256 fine steps, also where a report known in that tick ends it (R160).
Both gates are on: bit 7 of the context, which names one switch, is 0 (R179; log entry 97). -/
def State.bothOn (s : State) (n : Fin 72) : State :=
  let l := s.leg n
  let since := max l.unhealH l.unhealL
  let full := (since + 256) / 256 + 2
  let on (healthy : Bool) (heal : Fine) : Bool := !healthy || (full == s.now && decide (since + 256 ≤ heal))
  if s.gsrEn n ∧ on (s.bit (F.LEG_EDGESTAT_HEALTHY_H n)) l.healH ∧ on (s.bit (F.LEG_EDGESTAT_HEALTHY_L n)) l.healL
      ∧ full ≤ s.now then s.ilkTrip n 5 .high else s

/-- RPT_POL changes: what the reports outside their bands show is read the other way (R157). -/
def State.rptPolarity (s : State) (n : Fin 72) : State :=
  let s := if s.rptBand n .high then s
    else s.putB (F.LEG_EDGESTAT_HEALTHY_H n) (!s.bit (F.LEG_EDGESTAT_HEALTHY_H n))
  if s.rptBand n .low then s else s.putB (F.LEG_EDGESTAT_HEALTHY_L n) (!s.bit (F.LEG_EDGESTAT_HEALTHY_L n))

/-! ## Bootstrap refresh (R172, R173) -/

/-- The count reaches LIMIT with GH high: the output becomes inactive in this tick, as a compare edge at rank 6. -/
def State.bootRefresh (s : State) (n : Fin 72) : State :=
  let s := s.bsSync n s.now
  if !s.hsIso n ∧ (s.leg n).gh ∧ s.get (F.LEG_BSCNT_COUNT n) = s.get (F.LEG_BSCFG_LIMIT n) then
    s.stageOut n s.nowF none
  else s

/-- GL has been high for W at instant x: W after it began to count, or at the update point that made W so short (R156,
R172). -/
def State.refreshDue (s : State) (n : Fin 72) (x : Fine) : Bool :=
  let due := s.glFrom n + s.bsWidth n
  x == due || (decide (due < (s.leg n).updAt) && x == (s.leg n).updAt && s.get (F.LEG_BSCNT_COUNT n) != 0)

/-- GL has been high at the ball for W fine steps: the count returns to 0 and a refresh ends, unless the input turns
inactive again less than MINP + DTH later, in which case it extends to that inactive interval (R173). -/
def State.refreshEnd (s : State) (n : Fin 72) (fine : Nat) : State :=
  let x := s.inst fine
  if (s.leg n).gl ∧ s.refreshDue n x then
    let held := (s.leg n).refresh && (s.leg n).cmd
    let soon := match s.offInst n with
      | some (i, _, _) => decide (i - (x : Int) < s.minp n + s.get (F.LEG_DT_DTH n))
      | none => false
    let s := s.bsStore n ((x + 255) / 256) 0
    let s := s.modLeg n (fun l => { l with refresh := held && soon, refExt := held && soon })
    s.stageOut n x none
  else s

/-! ## Override requests (R176, R177) -/

/-- A write to LEG_OVR: an override that is not permitted is stored as 0, with a PADDOCK record and OVR_CLIP; FORCE
takes effect in the next tick, SWAP and INV at the leg's next update point. -/
def State.ovrWrite (s : State) (w : Writer) (n : Fin 72) (v : Word) : State :=
  let iso := s.hsIso n
  let okS := s.ovSwap n && iso
  let okI := s.ovInv n && iso
  let okF := s.ovForce n
  let want (i : Nat) : Bool := bitsGet v i 1 == 1
  let clip := s.pdkOn && ((want 0 && !okS) || (want 1 && !okI) || (want 2 && !okF))
  let s := if clip then (s.paddock 6 (A.LEG_OVR n) v w).raise (F.LEG_EDGESTAT_OVR_CLIP n) else s
  let s := s.putB (F.LEG_OVR_SWAP n) (want 0 && (okS || !s.pdkOn))
  let s := s.putB (F.LEG_OVR_INV n) (want 1 && (okI || !s.pdkOn))
  let s := s.putB (F.LEG_OVR_FORCE n) (want 2 && (okF || !s.pdkOn))
  if s.bit (F.LEG_OVR_FORCE n) && !s.bit (F.LEG_OVRSTAT_FORCE n) then s.defer (s.now + 1) (.force n) else s

/-- FORCE takes effect at rank 5 (R177): the refresh is abandoned, the carry becomes 0 (R170, R178). -/
def State.forceNow (s : State) (n : Fin 72) : State :=
  if s.bit (F.LEG_OVR_FORCE n) && !s.bit (F.LEG_OVRSTAT_FORCE n) then
    let s := s.putB (F.LEG_OVRSTAT_FORCE n) true
    let s := s.carryZero n
    let s := s.modLeg n (fun l => { l with refresh := false, refExt := false })
    s.stageOut n s.nowF none
  else s

/-! ## Converter triggers (R140) -/

/-- The instants at which a compare of the period raises a trigger on the selected slopes. -/
def trigInsts (form : Nat) (duty : Bool) (v : Word) (sel : Nat) (pstart up down : Nat) : List Fine :=
  if v = cmpNEVER ∨ v = cmpALWAYS ∨ sel = 0 then []
  else if form = foUPDOWN then
    let len := (up + down) / 2
    let pu := comparePos duty v (up / 2)
    let pd := comparePos duty v (down / 2)
    (if sel % 2 = 1 ∧ pu < up / 2 then [pstart + pu] else [])
      ++ (if sel / 2 = 1 ∧ 0 < pd ∧ pd ≤ down / 2 then [pstart + len - pd] else [])
  else
    let p := comparePos duty v up
    if isVar form ∨ p < up then [pstart + p] else []

/-- Whether compare C or D of a leg raises a trigger at an instant of its present period. -/
def State.trigAt (s : State) (n : Fin 72) (isC : Bool) (x : Fine) : Bool :=
  match (s.leg n).team with
  | none => false
  | some t =>
    let form := s.form t
    let duty := s.bit (F.TEAM_CARCFG_CMPREF t) && !isVar form
    let v := s.rd (if isC then A.LEG_CMPC n else A.LEG_CMPD n)
    let sel := s.get (if isC then F.LEG_CTL_TRGC_SEL n else F.LEG_CTL_TRGD_SEL n)
    (s.leg n).running && (trigInsts form duty v sel (s.leg n).pstart (s.leg n).up (s.leg n).down).contains x

/-- The leg's own record of a trigger: the count and the last stamp, which is the stamp of C when both fire (R140,
R151). -/
def State.legTrigger (s : State) (n : Fin 72) (c d : Option Fine) : State :=
  let src := (if c.isSome then 1 else 0) + (if d.isSome then 2 else 0)
  match (match c with | some x => some x | none => d) with
  | none => s
  | some x =>
    let s := s.bump (F.LEG_TRGCNT_COUNT n)
    let s := s.putStamp (A.LEG_TRGLAST0 n) (A.LEG_TRGLAST1 n) (s.stampOf x)
    s.put ⟨A.LEG_TRGLAST1 n, 8, 2⟩ src

/-! ## Team control (R185 to R187) -/

/-- SAFE_N is low after its filter, or held in its band (R187). -/
def State.safeLow (s : State) : Bool := s.safe.filtLow || s.bit F.IDG_INBAND_SAFE_N

/-- A team enters WAIT: its first-trip memory starts anew (R185). -/
def State.enterWait (s : State) (t : Fin 24) : State :=
  let s := (s.put (F.TEAM_STAT_STATE t) stWAIT).ladderClear t (fun v => v == 3)
  each (s.team t).legs (fun n s => s.modLeg n (fun l => { l with tripCode := 0 })) s

/-- EN written to 1 (R185, R187): a team in OFF enters WAIT, or the write is refused with EN_REF. -/
def State.teamEnable (s : State) (t : Fin 24) : State :=
  if s.tstate t = stOFF then
    if s.safeLow || (s.team t).barred then s.raise (F.TEAM_STAT_EN_REF t)
    else (s.putB (F.TEAM_CTL_EN t) true).enterWait t
  else s.putB (F.TEAM_CTL_EN t) true

/-- EN written to 0: the team goes to OFF by safe-state entry in the tick after the write (R185). -/
def State.teamDisable (s : State) (t : Fin 24) : State :=
  (s.putB (F.TEAM_CTL_EN t) false).defer (s.now + 1) (.teamOff t)

/-- The team enters OFF at its safe level; TEAM_SAFEFLT keeps the fault of the HALTED entry (R185). -/
def State.teamOffNow (s : State) (t : Fin 24) : State :=
  let st := s.tstate t
  if !s.bit (F.TEAM_CTL_EN t) && (st == stWAIT || st == stRUN || st == stHALTED) then
    let s := s.put (F.TEAM_STAT_STATE t) stOFF
    let s := s.put (F.TEAM_STAT_CAUSE t) caNOTEN
    let s := if st = stRUN then (s.ladderClear t (fun v => v == 1 || v == 2)).safeEntry t else s
    s.liveUpdate t
  else s

/-- RESUME written to 1 with EN = 1 on a HALTED team (R185, R186): the team enters WAIT, or RES_REF is set. -/
def State.teamResume (s : State) (t : Fin 24) : State :=
  if s.tstate t = stHALTED then
    if s.teamTripped t || s.safeLow || (s.team t).barred then s.raise (F.TEAM_STAT_RES_REF t)
    else s.enterWait t
  else s

/-- A write to TEAM_CTL (R205): EN, and RESUME where EN is written 1. -/
def State.teamCtlWrite (s : State) (t : Fin 24) (en resume : Bool) : State :=
  if en then
    (let s := s.teamEnable t
     if resume then s.teamResume t else s)
  else s.teamDisable t

end Sys2Proof.Machine
end

