-- ==== Sys2Proof/Machine/Protect.lean ====
section
/-!
DEFINITION. Comparators, trip inputs, the FAST and FILTERED paths, the soft turn-off, the clearing of trips, SAFE_N and
the inputs held in their hysteresis band (chapter 12; R113, R114).
-/
namespace Sys2Proof.Machine

/-! ## Scopes (R316) -/

/-- Slots 0 to 5 of a team as the registers stand (R182). -/
def State.legSlots (s : State) (t : Nat) : List Nat :=
  [s.get (F.TEAM_LEGMAP0_S0 t), s.get (F.TEAM_LEGMAP0_S1 t), s.get (F.TEAM_LEGMAP0_S2 t), s.get (F.TEAM_LEGMAP0_S3 t),
   s.get (F.TEAM_LEGMAP1_S0 t), s.get (F.TEAM_LEGMAP1_S1 t)]

/-- The legs named in slots 0 to NLEG − 1 of a team. -/
def State.namedLegs (s : State) (t : Nat) : List (Fin 72) :=
  ((s.legSlots t).take (s.get (F.TEAM_CFG_NLEG t))).filterMap (finOf 72)

/-- The scope that map fields give: SCOPE 1 is LEG, 2 is TEAMS.  Before lock it follows the registers; at lock it is
computed once more, from the bound legs, and kept. -/
def State.scopeCalc (s : State) (scope leg mask : Nat) : List (Fin 72) :=
  if scope = 1 then (finOf 72 leg).toList
  else if scope = 2 then
    (allTeams.filter (fun t => (mask / 2 ^ t.val) % 2 = 1)).flatMap (fun t =>
      if s.load.locked then (s.team t).legs else s.namedLegs t)
  else []

/-- The scope of a comparator, a channel and a trip input from the registers as they stand. -/
def State.cmpScopeNow (s : State) (k : Fin 96) : List (Fin 72) :=
  s.scopeCalc (s.get (F.CMP_MAP_SCOPE k)) (s.get (F.CMP_MAP_LEG k)) (s.get (F.CMP_TEAMS_TEAMS k))

def State.sdmScopeNow (s : State) (c : Fin 144) : List (Fin 72) :=
  s.scopeCalc (s.get (F.PRT_SDMMAP_SCOPE c)) (s.get (F.PRT_SDMMAP_LEG c)) (s.get (F.PRT_SDMTEAMS_TEAMS c))

def State.tinScopeNow (s : State) (i : Fin 8) : List (Fin 72) :=
  s.scopeCalc (s.get (F.PRT_TINCFG_SCOPE i)) (s.get (F.PRT_TINCFG_LEG i)) (s.get (F.PRT_TINTEAMS_TEAMS i))

/-- The legs a source acts on: fixed from Paddock lock. -/
def State.scope (s : State) : TripSrc → List (Fin 72)
  | .cmp k => if s.load.locked then (s.cmps[k]).scope else s.cmpScopeNow k
  | .sdm c => if s.load.locked then (s.sdmTrips[c]).scope else s.sdmScopeNow c
  | .tin i => if s.load.locked then (s.tins[i]).scope else s.tinScopeNow i
  | .ilk => []

/-! ## The filters (R321) -/

/-- The logic's raw level changes from tick `at_` on.  Of two changes that it would see in one tick it sees neither; the few
ticks of the synchroniser's delay hold at most three that it has not seen yet. -/
def FiltSt.change (f : FiltSt) (lvl : Bool) (at_ : Tick) : FiltSt :=
  if f.raw = lvl then f
  else if f.since = at_ then { f with raw := lvl, since := f.prev.headD 0, prev := f.prev.drop 1 }
  else { f with raw := lvl, prev := (f.since :: f.prev).take 4, since := at_ }

/-- The changes that the logic has seen by a tick, the latest first, and whether an odd number of them is still to come. -/
def FiltSt.past (f : FiltSt) (t : Tick) : List Tick × Bool :=
  let l := f.since :: f.prev
  (l.filter (fun x => decide (x ≤ t)), (l.filter (fun x => decide (t < x))).length % 2 == 1)

/-- The level the logic sees at a tick. -/
def FiltSt.seen (f : FiltSt) (t : Tick) : Bool := f.raw != (f.past t).2

/-- The level `lvl` has been seen at every tick of the last n + 1. -/
def FiltSt.held (f : FiltSt) (lvl : Bool) (n : Nat) (t : Tick) : Bool :=
  f.seen t == lvl && decide ((f.past t).1.headD 0 + n ≤ t)

/-- The filter state of a source condition. -/
def State.srcFilt (s : State) (src : TripSrc) (c : Cond) : FiltSt :=
  match src, c with
  | .cmp k, .h => (s.cmps[k]).h
  | .cmp k, .l => (s.cmps[k]).l
  | .sdm k, .h => (s.sdmTrips[k]).h
  | .sdm k, .l => (s.sdmTrips[k]).l
  | .tin i, _ => (s.tins[i]).f
  | .ilk, _ => FiltSt.reset

def State.modFilt (s : State) (src : TripSrc) (c : Cond) (f : FiltSt → FiltSt) : State :=
  match src, c with
  | .cmp k, .h => s.modCmp k (fun x => { x with h := f x.h })
  | .cmp k, .l => s.modCmp k (fun x => { x with l := f x.l })
  | .sdm k, .h => s.modSdmTrip k (fun x => { x with h := f x.h })
  | .sdm k, .l => s.modSdmTrip k (fun x => { x with l := f x.l })
  | .tin i, _ => s.modTin i (fun x => { x with f := f x.f })
  | .ilk, _ => s

/-- The filter length N of a source. -/
def State.filtN (s : State) : TripSrc → Nat
  | .cmp k => s.get (F.CMP_MAP_FILTN k)
  | .sdm c => s.get (F.PRT_SDMMAP_FILTN c)
  | .tin i => s.get (F.PRT_TINCFG_FILTN i)
  | .ilk => 0

def State.cmpMode (s : State) (k : Fin 96) : Nat := s.get (F.CMP_CFG_MODE k)
def State.cmpPath (s : State) (k : Fin 96) : Cond → Nat
  | .h => s.get (F.CMP_MAP_PATH_H k)
  | .l => s.get (F.CMP_MAP_PATH_L k)

/-- The condition feeds the FAST path: path 1 of a continuous comparator (R315, R316). -/
def State.isFast (s : State) (k : Fin 96) (c : Cond) : Bool := s.cmpPath k c == 1 && s.cmpMode k == 1

/-- The condition feeds the FILTERED path. -/
def State.isFiltered (s : State) (src : TripSrc) (c : Cond) : Bool :=
  match src with
  | .cmp k => s.cmpPath k c == 2 || (s.cmpPath k c == 1 && s.cmpMode k == 2)
  | .sdm _ => true
  | .tin _ => true
  | .ilk => false

/-- D of a DESAT comparator on the FAST path, the one condition that blanking acts on (R319). -/
def State.isBlankable (s : State) (k : Fin 96) (c : Cond) : Bool :=
  c == .l && s.bit (F.CMP_CFG_FUNC k) && s.isFast k c

/-! ## Whether a source stands asserted (R325, R335) -/

def State.srcAsserted (s : State) (src : TripSrc) (c : Cond) : Bool :=
  match src with
  | .cmp k => (s.isFast k c && (s.srcFilt src c).seen s.now) || (s.isFiltered src c && (s.srcFilt src c).filt)
  | _ => (s.srcFilt src c).filt

/-- Every source condition. -/
def allSrc : List (TripSrc × Cond) :=
  allCmps.flatMap (fun k => [(.cmp k, .h), (.cmp k, .l)]) ++ allChans.flatMap (fun c => [(.sdm c, .h), (.sdm c, .l)])
    ++ (List.finRange 8).map (fun i => (.tin i, .h))

/-- A source in whose scope the leg lies is asserted. -/
def State.legSrcActive (s : State) (n : Fin 72) : Bool :=
  allSrc.any (fun p => s.srcAsserted p.1 p.2 && (s.scope p.1).contains n)

/-- LEG_TRIPSTAT.ACTIVE of the legs in a source's scope. -/
def State.activeUpdate (s : State) (src : TripSrc) : State :=
  each (s.scope src) (fun n s => s.putB (F.LEG_TRIPSTAT_ACTIVE n) (s.legSrcActive n)) s

/-! ## Latching (R318, R321, R333) -/

/-- The code, kind, index and condition of a source's trip (R333, R335). -/
def State.tripInfo (s : State) (src : TripSrc) (c : Cond) : Nat × Nat × Nat :=
  let cb := match c with
    | .h => 0
    | .l => 1
  match src with
  | .cmp k =>
    let kind := if s.isFast k c then
        (if s.bit (F.CMP_CFG_FUNC k) then (if cb = 1 then kFAST_DESAT else kFAST_SHORT) else kFAST_WIN)
      else kFILT_CMP
    (kind, k.val, cb)
  | .sdm c => (kFILT_SDM, c.val, cb)
  | .tin i => (kTRIP_IN, i.val, 0)
  | .ilk => (kINTERLOCK, 0, 0)

/-- A FILTERED condition latches legs of its scope in the present tick: every latch and sequence stands before a team is
looked at (R324). -/
def State.filtTripLegs (s : State) (src : TripSrc) (c : Cond) (l : List (Fin 72)) : State :=
  let (kind, idx, cb) := s.tripInfo src c
  (each l (fun n s => s.tripLatch n kind idx cb (fcode cTRIP kind) (n.val + idx * 2 ^ 8 + cb * 2 ^ 16)) s).tripsDone l

/-- A FAST condition stands asserted at an instant: the latch of every leg of its scope that is not blanked sets at the
gate, without a clock; the leg logic sees it 2 ticks later (R318, R319). -/
def State.fastAssert (s : State) (k : Fin 96) (c : Cond) (x : Fine) : State :=
  each (s.scope (.cmp k)) (fun n s =>
    if s.isBlankable k c && decide (x < (s.leg n).blankEnd) then s
    else
      let s := s.latchGate n (x / 256 * 256)
      s.modLeg n (fun l => { l with fast := l.fast ++ [{ k := k, cond := c, stamp := x / 256 }] })) s

/-- The leg logic sees one FAST latch: its record (R318, R333). -/
def State.fastSeen (s : State) (n : Fin 72) (h : FastHit) : State :=
  let (kind, idx, cb) := s.tripInfo (.cmp h.k) h.cond
  s.tripRecord n (!s.bit (F.LEG_TRIPSTAT_LATCHED n)) kind idx cb h.stamp (fcode cTRIP kind)
    (n.val + idx * 2 ^ 8 + cb * 2 ^ 16)

/-- The leg logic sees the FAST latches set 2 ticks ago, and acts at rank 1 (R318, R324). -/
def State.tripSeen (s : State) (n : Fin 72) : State :=
  let due := (s.leg n).fast.filter (fun h => decide (h.stamp + 2 ≤ s.now))
  if due.isEmpty then s
  else
    let s := s.modLeg n (fun l => { l with fast := l.fast.filter (fun h => !decide (h.stamp + 2 ≤ s.now)) })
    let s := each due (fun h s => s.fastSeen n h) s
    (s.tripEffect n).tripsDone [n]

/-- A condition of a source changes level for the logic from tick `at_` on; its release runs the filter (R321). -/
def State.setCond (s : State) (src : TripSrc) (c : Cond) (lvl : Bool) (at_ : Tick) : State :=
  if (s.srcFilt src c).raw = lvl then s
  else
    let s := s.modFilt src c (fun f => f.change lvl at_)
    if lvl then s else s.defer (at_ + s.filtN src) (.filtRel src c)

/-- PRT_STAT.TIN follows the filtered trip inputs. -/
def State.tinStat (s : State) (src : TripSrc) : State :=
  match src with
  | .tin i => s.setBit F.PRT_STAT_TIN i (s.tins[i]).f.filt
  | _ => s

/-- The released count of a filter has run: the filtered condition releases (R321). -/
def State.filtRelease (s : State) (src : TripSrc) (c : Cond) : State :=
  if (s.srcFilt src c).filt && (s.srcFilt src c).held false (s.filtN src) s.now then
    ((s.modFilt src c (fun f => { f with filt := false })).tinStat src).activeUpdate src
  else s

/-- The filter of a source condition counts samples, not ticks (R321). -/
def State.isSampled (s : State) : TripSrc → Bool
  | .cmp k => s.cmpMode k == 2
  | _ => false

/-- The asserting count of a FILTERED condition has run at this tick. -/
def State.filtDue (s : State) (src : TripSrc) (c : Cond) : Bool :=
  let f := s.srcFilt src c
  s.isFiltered src c && !f.filt &&
    (if s.isSampled src then f.raw && decide (s.filtN src + 1 ≤ f.samples) else f.held true (s.filtN src) s.now)

/-- A FILTERED condition stays asserted through its filter: the latches of its scope set in this tick (R321). -/
def State.filteredTrip (s : State) (src : TripSrc) (c : Cond) : State :=
  if s.filtDue src c then
    let s := (s.modFilt src c (fun f => { f with filt := true })).tinStat src
    (s.filtTripLegs src c (s.scope src)).activeUpdate src
  else s

/-! ## Comparators (R314, R315) -/

/-- A comparator condition as CMP_STAT shows it, with its flag, count and stamp (R315, R334). -/
def State.cmpShow (s : State) (k : Fin 96) (c : Cond) (lvl : Bool) (stamp : Tick) : State :=
  let s := match c with
    | .h =>
      let s := s.putB (F.CMP_STAT_H k) lvl
      if lvl then (s.raise (F.CMP_STAT_H_SEEN k)).bump (F.CMP_CNT_HCNT k) else s
    | .l =>
      let s := s.putB (F.CMP_STAT_L k) lvl
      if lvl then (s.raise (F.CMP_STAT_L_SEEN k)).bump (F.CMP_CNT_LCNT k) else s
  let d := s.stampOf (256 * stamp)
  let s := s.wr (A.CMP_STAMP0 k) (BitVec.ofNat 32 d)
  s.wr (A.CMP_STAMP1 k) (BitVec.ofNat 32
    (d / 2 ^ 32 % 256 + b2n lvl * 2 ^ 30 + (match c with | .h => 0 | .l => 2 ^ 31)))

/-- The tick of a comparator's set-up is over: a condition that no one has seen outside its band in it stood asserted at
set-up, and a FAST one latches (R113, R314, R318; log entry 74). -/
def State.cmpHold (s : State) (k : Fin 96) (c : Cond) : State :=
  if (s.srcFilt (.cmp k) c).raw then
    let s := s.cmpShow k c true (s.now - 1)
    if s.isFast k c then s.fastAssert k c (256 * (s.now - 1)) else s
  else s

/-- The comparator condition is in the tick of its set-up. -/
def State.cmpFresh (s : State) (k : Fin 96) (c : Cond) : Bool := s.due.any (fun e => e.2 == .cmpHold k c)

/-- The logic knows a continuous comparator's change, 3 ticks after its crossing. -/
def State.cmpKnownNow (s : State) (k : Fin 96) (c : Cond) (lvl : Bool) (stamp : Tick) : State :=
  (s.cmpShow k c lvl stamp).activeUpdate (.cmp k)

def State.cmpBand (s : State) (k : Fin 96) : Cond → Bool
  | .h => s.bit (F.CMP_STAT_INBAND_H k)
  | .l => s.bit (F.CMP_STAT_INBAND_L k)

/-- A condition is held by its band or by CFGERR, whatever the input does (R113, R314). -/
def State.cmpHeld (s : State) (k : Fin 96) (c : Cond) : Bool := s.cmpBand k c || s.bit (F.CMP_STAT_CFGERR k)

/-- The hysteresis of CMP_CFG.HYS in DAC codes (R314). -/
def hysCodes (h : Nat) : Nat := if h = 0 then 0 else 2 ^ (h + 1)

/-- A condition at input level v, in sixteenths of a millivolt, 25 to a DAC code: above its threshold, or below it for the
condition L of a window, it is asserted; beyond the hysteresis on the other side released; between the two as it was
(R314). -/
def condAt (below : Bool) (thr hys v : Nat) (was : Bool) : Bool :=
  if below then (if v < 25 * thr then true else if 25 * (thr + hys) < v then false else was)
  else (if 25 * thr < v then true else if v + 25 * hys < 25 * thr then false else was)

/-- A comparator's condition at an input level (R314). -/
def State.cmpCondAt (s : State) (k : Fin 96) (c : Cond) (v : Nat) : Bool :=
  let hys := hysCodes (s.get (F.CMP_CFG_HYS k))
  let was := (s.srcFilt (.cmp k) c).raw
  match c with
  | .h => condAt false (s.get (F.CMP_THRHI_THR k)) hys v was
  | .l => condAt (!s.bit (F.CMP_CFG_FUNC k)) (s.get (F.CMP_THRLO_THR k)) hys v was

/-- One condition of a continuous comparator changes at a fine-step position of this tick (R315, R318). -/
def State.cmpCondEdge (s : State) (k : Fin 96) (c : Cond) (lvl : Bool) (fine : Nat) : State :=
  if s.cmpMode k ≠ 1 ∨ s.cmpHeld k c ∨ (s.srcFilt (.cmp k) c).raw = lvl then s
  else
    let s := s.setCond (.cmp k) c lvl (s.now + 3)
    let s := s.defer (s.now + 3) (.cmpKnown k c lvl s.now)
    if lvl && s.isFast k c then s.fastAssert k c (s.inst fine) else s

/-- The input of a continuous comparator moves to level v at a fine-step position of this tick, and its conditions follow
(R314, R315). -/
def State.cmpCrossing (s : State) (k : Fin 96) (v fine : Nat) : State :=
  let s := s.cmpCondEdge k .h (s.cmpCondAt k .h v) fine
  s.cmpCondEdge k .l (s.cmpCondAt k .l v) fine

/-- A sampled comparator is evaluated at this tick: 125 ticks after a CLK_HK edge (32 ticks apart) whose count since
PLL lock, less k, is a multiple of 2^SPER (R315). -/
def State.cmpSampleDue (s : State) (k : Fin 96) : Bool :=
  let base := s.tim.pllAt + 125 + 32 * k.val
  s.cmpMode k == 2 && decide (base ≤ s.now) && (s.now - base) % (32 * 2 ^ s.get (F.CMP_CFG_SPER k)) == 0

/-- One condition of a sampled comparator takes its sample (R321). -/
def State.cmpSampleCond (s : State) (k : Fin 96) (c : Cond) (lvl : Bool) : State :=
  let src := TripSrc.cmp k
  let lvl := lvl || s.cmpHeld k c
  let f := s.srcFilt src c
  let s := s.modFilt src c (fun f =>
    if f.raw = lvl then { f with samples := f.samples + 1 }
    else { f with raw := lvl, prev := [], since := s.now, samples := 1 })
  let s := if f.raw != lvl then s.cmpShow k c lvl s.now else s
  if !lvl && decide (s.filtN src + 1 ≤ (s.srcFilt src c).samples) then
    s.modFilt src c (fun f => { f with filt := false })
  else s

/-- A sampled comparator is powered and evaluated with its input at level v (R314, R315). -/
def State.cmpSample (s : State) (k : Fin 96) (v : Nat) : State :=
  if s.cmpSampleDue k then
    let s := s.putB (F.CMP_STAT_SVALID k) true
    let s := s.cmpSampleCond k .h (s.cmpCondAt k .h v)
    (s.cmpSampleCond k .l (s.cmpCondAt k .l v)).activeUpdate (.cmp k)
  else s

/-- A sampled comparator stores a FAST selection as FILTERED (R316). -/
def State.cmpPaths (s : State) (k : Fin 96) : State :=
  if s.cmpMode k = 2 then
    let s := if s.cmpPath k .h = 1 then s.put (F.CMP_MAP_PATH_H k) 2 else s
    if s.cmpPath k .l = 1 then s.put (F.CMP_MAP_PATH_L k) 2 else s
  else s

/-- Comparator k is set up: its conditions stand asserted in their band, unless they are seen outside it in this very tick
(R113, R314, R321).  An off one holds nothing (R315). -/
def State.cmpSetup (s : State) (k : Fin 96) : State :=
  if s.cmpMode k = 0 then s
  else
    let s := s.cmpPaths k
    let cont := s.cmpMode k == 1
    let s := if cont then s.putB (F.CMP_STAT_SVALID k) true else s
    let one (c : Cond) (s : State) : State :=
      let s := s.modFilt (.cmp k) c (fun f => { f with
        raw := true, since := if cont then s.now + 3 else s.now, prev := [], filt := false, samples := 0 })
      let s := match c with
        | .h => s.putB (F.CMP_STAT_H k) true
        | .l => s.putB (F.CMP_STAT_L k) true
      s.defer (s.now + 1) (.cmpHold k c)
    (one .l (one .h s)).activeUpdate (.cmp k)

/-- At lock a DESAT comparator with THRLO above THRHI is refused, and both its conditions stay asserted (R314); the logic
knows of a change that this makes as of any other (R315; log entry 78). -/
def State.cmpLock (s : State) (k : Fin 96) : State :=
  let s := s.modCmp k (fun x => { x with scope := s.cmpScopeNow k })
  if s.cmpMode k ≠ 0 ∧ s.bit (F.CMP_CFG_FUNC k) ∧ s.get (F.CMP_THRHI_THR k) < s.get (F.CMP_THRLO_THR k) then
    let s := s.putB (F.CMP_STAT_CFGERR k) true
    let one (c : Cond) (s : State) : State :=
      if (s.srcFilt (.cmp k) c).raw then s
      else
        let at_ := if s.cmpMode k = 1 then s.now + 3 else s.now
        let s := (s.setCond (.cmp k) c true at_).defer at_ (.cmpKnown k c true s.now)
        if s.isFast k c then s.fastAssert k c s.nowF else s
    (one .l (one .h s)).activeUpdate (.cmp k)
  else s

/-! ## Blanking, soft turn-off (R319, R322) -/

/-- A blanking window of a leg ends: a D condition still asserted sets the latch (R319). -/
def State.blankingEnd (s : State) (n : Fin 72) (fine : Nat) : State :=
  if (s.leg n).blankEnd = s.inst fine ∧ (s.leg n).blankEnd ≠ 0 then
    each allCmps (fun k s =>
      if s.isBlankable k .l && (s.scope (.cmp k)).contains n && (s.srcFilt (.cmp k) .l).raw then
        let s := s.latchGate n (256 * s.now)
        s.modLeg n (fun l => { l with fast := l.fast ++ [{ k := k, cond := .l, stamp := s.now }] })
      else s) s
  else s

/-- Step 2 of the soft turn-off: the conducting switch and GM go low, and the sequence ends; with it the team may halt
(R322, R324). -/
def State.softOffStep2 (s : State) (n : Fin 72) (fine : Nat) : State :=
  match (s.leg n).seq with
  | some q =>
    if q.endAt = s.inst fine then
      let s := s.emitRaw n q.sw false q.endAt none
      let s := s.modLeg n (fun l => { l with gm := false, seq := none })
      let s := s.putB (F.LEG_TRIPSTAT_SEQ n) false
      s.tripsDone [n]
    else s
  | none => s

/-! ## Clearing a trip (R325 to R327) -/

/-- The three conditions of R325; a trip in this very tick, or a FAST latch that the leg logic has not seen, comes before
the clear (R329). -/
def State.clearable (s : State) (n : Fin 72) : Bool :=
  (s.leg n).seq.isNone && (s.leg n).fast.isEmpty && decide ((s.leg n).seenAt < s.now) && !s.legSrcActive n

/-- The latch of a leg is released (R327). -/
def State.releaseLatch (s : State) (n : Fin 72) : State :=
  let s := s.modLeg n (fun l => { l with latched := false, noAsc := true })
  let s := s.putB (F.LEG_TRIPSTAT_LATCHED n) false
  let s := s.putB (F.LEG_TRIPSTAT_SEQ n) false
  let s := s.putB (F.LEG_TRIPSTAT_CLR_PEND n) false
  let s := s.putB (F.LEG_TRIPSTAT_ACTIVE n) (s.legSrcActive n)
  s.bsExit n

/-- A write of 1 to LEG_TRIPCLR.CLR (R325): without effect on a leg whose latch is not set at its gate. -/
def State.tripClear (s : State) (n : Fin 72) : State :=
  if !(s.leg n).latched then s
  else if s.clearable n then s.releaseLatch n
  else
    let s := s.raise (F.LEG_TRIPSTAT_CLR_REFUSED n)
    let s := s.bump (F.LEG_TRIPCNT_REFUSED n)
    if s.bit (F.LEG_PROTCFG_AUTOREARM n) then s.putB (F.LEG_TRIPSTAT_CLR_PEND n) true else s

/-- A pending clear releases the latch at the first tick in which all conditions hold (R325). -/
def State.autoRearm (s : State) (n : Fin 72) : State :=
  if s.bit (F.LEG_TRIPSTAT_CLR_PEND n) && s.clearable n then s.releaseLatch n else s

/-! ## Trip inputs and SAFE_N (R321, R328) -/

/-- TRIP_INi reads asserted: held in its band, or its ball at the polarity that POL holds (R126, R316). -/
def State.tinLevel (s : State) (i : Fin 8) : Bool :=
  s.bitAt F.IDG_INBAND_TRIP_IN i || ((s.tins[i]).ball == s.bit (F.PRT_TINCFG_POL i))

/-- A trip input's ball changes level; the logic sees it 3 ticks later. -/
def State.tinEdge (s : State) (i : Fin 8) (lvl : Bool) : State :=
  let s := s.modTin i (fun x => { x with ball := lvl })
  s.setCond (.tin i) .h (s.tinLevel i) (s.now + 3)

/-- A write to PRT_TINCFG may change the polarity at which the input is read in this tick. -/
def State.tinPolarity (s : State) (i : Fin 8) : State := s.setCond (.tin i) .h (s.tinLevel i) s.now

/-- A trip input is set up with its section: a level that stands asserted, or is held in its band, has no crossing, and the
filter counts it from 3 ticks later (R113, R321). -/
def State.tinSetup (s : State) (i : Fin 8) : State :=
  let s := s.modFilt (.tin i) .h (fun f => { f with
    raw := s.tinLevel i, since := if s.tinLevel i then s.now + 3 else f.since, prev := [], filt := false })
  (s.tinStat (.tin i)).activeUpdate (.tin i)

/-- The filtered SAFE_N becomes low, 16 ticks after the tick at which the logic saw the ball edge of tick `edge`: every team
in WAIT or RUN halts; every other team is at its safe level already (R194, R328). -/
def State.safeNLow (s : State) (edge : Tick) : State :=
  if s.safe.filtLow ∨ edge < s.safe.edge ∨ edge + 19 ≠ s.now then s
  else
    let s := { s with safe := { s.safe with filtLow := true, edge := edge } }
    let s := s.putB F.PRT_STAT_SAFE true
    let s := s.bumpSat F.PRT_SAFECNT_COUNT
    each allTeams (fun t s => s.haltTeam t caSAFEN 0) s

/-- The filtered SAFE_N returns high: the level, high at the ball since tick `edge`, has been seen high and outside its band
for 17 ticks (R328). -/
def State.safeNHigh (s : State) (edge : Tick) : State :=
  if s.bit F.IDG_INBAND_SAFE_N ∨ !s.safe.filtLow ∨ edge < s.safe.edge ∨ max (edge + 3) s.safe.outAt + 16 ≠ s.now then s
  else ({ s with safe := { s.safe with filtLow := false, edge := edge } }).putB F.PRT_STAT_SAFE false

/-! ## Inputs in their band (R113, R114, R126) -/

/-- The bits of IDG_INBAND that gather comparators and reports, and IDG_WARMSTAT.INBAND_ANY. -/
def State.inbandUpdate (s : State) : State :=
  let conf (k : Fin 96) : Bool := !s.load.locked || s.cmpMode k != 0
  let rep (n : Fin 72) : Bool := !s.load.locked || s.gsrEn n
  let s := s.putB F.IDG_INBAND_CMP_ANY (allCmps.any (fun k => conf k && (s.cmpBand k .h || s.cmpBand k .l)))
  let s := s.putB F.IDG_INBAND_GSR_ANY (allLegs.any (fun n => rep n && (s.rptBand n .high || s.rptBand n .low)))
  s.putB F.IDG_WARMSTAT_INBAND_ANY (s.rd A.IDG_INBAND != 0)

/-- A comparator condition leaves its band: asserted on the fault side, released on the other, its filter having run on
the way out (R113); a sampled one only at a sample (R114). -/
def State.cmpBandExit (s : State) (k : Fin 96) (c : Cond) (fault : Bool) : State :=
  if s.cmpMode k = 0 ∨ !s.cmpBand k c ∨ (s.cmpMode k = 2 ∧ !s.cmpSampleDue k) then s
  else
    let s := match c with
      | .h => s.putB (F.CMP_STAT_INBAND_H k) false
      | .l => s.putB (F.CMP_STAT_INBAND_L k) false
    let s := if fault || s.bit (F.CMP_STAT_CFGERR k) then s
      else
        let s := s.modFilt (.cmp k) c (fun f => { f with raw := false, since := s.now, prev := [], filt := false, samples := 0 })
        let s := if s.cmpFresh k c then
            (match c with
             | .h => s.putB (F.CMP_STAT_H k) false
             | .l => s.putB (F.CMP_STAT_L k) false)
          else s.cmpShow k c false s.now
        s.activeUpdate (.cmp k)
    s.inbandUpdate

/-- A trip input leaves its band. -/
def State.tinBandExit (s : State) (i : Fin 8) (fault : Bool) : State :=
  if !s.bitAt F.IDG_INBAND_TRIP_IN i then s
  else
    let s := s.setBit F.IDG_INBAND_TRIP_IN i false
    let pol := s.bit (F.PRT_TINCFG_POL i)
    let s := s.modTin i (fun x => { x with ball := if fault then pol else !pol })
    let s := if fault then s
      else ((s.modFilt (.tin i) .h (fun f => { f with raw := false, since := s.now, prev := [], filt := false })).tinStat (.tin i)).activeUpdate (.tin i)
    s.inbandUpdate

/-- A gate-state report leaves its band; on its healthy side it counts as healthy from this tick (R158, R161). -/
def State.rptBandExit (s : State) (n : Fin 72) (sw : Sw) (fault : Bool) : State :=
  if !s.rptBand n sw then s
  else
    let s := match sw with
      | .high => s.putB (F.LEG_EDGESTAT_INBAND_H n) false
      | .low => s.putB (F.LEG_EDGESTAT_INBAND_L n) false
    let s := s.reportSeen n sw (!fault) s.nowF
    let s := if fault || !s.gsrEn n then s
      else
        let s := (s.releaseHeld n).forceCheck n
        s.withTeam n fun t => s.ascCheck t
    s.inbandUpdate

/-- SAFE_N leaves its band; its filtered level follows with SAFE_N_HIGH (R328). -/
def State.safeBandExit (s : State) : State :=
  if s.bit F.IDG_INBAND_SAFE_N then
    (({ s with safe := { s.safe with outAt := s.now } }).putB F.IDG_INBAND_SAFE_N false).inbandUpdate
  else s

end Sys2Proof.Machine
end

