-- ==== Sys2Proof/Machine/Group.lean ====
section
/-!
DEFINITION. Machine groups (R197 to R204): membership, the live view, and the allocation of a torque command among the
live members.
-/
namespace Sys2Proof.Machine

/-! ## The check at Paddock lock (R197) -/

/-- Slots in use below NMEM. -/
def State.groupUsed (s : State) (g : Fin 8) : List Nat :=
  (s.groupSlots g).filter (fun m => decide (m < 16) && s.bit (F.MGRP_MEMA_USED g m))

/-- The identity of a slot: device address and team. -/
def State.slotId (s : State) (g : Fin 8) (m : Nat) : Nat × Nat :=
  let dev := if s.bit (F.MGRP_MEMA_LOC g m) then s.get F.NET_ADDR_ADDR else s.get (F.MGRP_MEMA_DEV g m)
  (dev, s.get (F.MGRP_MEMA_TEAM g m))

/-- Every identity named by an enabled group's slots, with repeats. -/
def State.allSlotIds (s : State) : List (Nat × Nat) :=
  (allGroups.filter (fun g : Fin 8 => s.bit (F.MGRP_CFG_EN g))).flatMap (fun g : Fin 8 => (s.groupUsed g).map (fun m => s.slotId g m))

/-- Local team of a slot: it must be a configured MACHINE3 team. -/
def State.localSlotOk (s : State) (g : Fin 8) (m : Nat) : Bool :=
  match finOf 24 (s.get (F.MGRP_MEMA_TEAM g m)) with
  | some t => s.tstate t != stUNCONF && s.get (F.TEAM_CFG_KIND t) == 2
  | none => false

/-- The cases of R197 that disable a group. -/
def State.groupBad (s : State) (g : Fin 8) : Bool :=
  let used := s.groupUsed g
  let lead := s.get (F.MGRP_CFG_LEAD g)
  used.any (fun m => s.bit (F.MGRP_MEMA_LOC g m) && !s.localSlotOk g m)
    || used.any (fun m => decide (1 < s.allSlotIds.count (s.slotId g m)))
    || !used.any (fun m => s.bit (F.MGRP_MEMA_LOC g m) && s.get (F.MGRP_MEMA_TEAM g m) == lead)

/-- The slots marked under DEV_OVF: those on the ninth and later devices, this device counted first. -/
def State.slotsOver (s : State) (g : Fin 8) : List Nat :=
  let step (acc : List Nat × List Nat) (m : Nat) : List Nat × List Nat :=
    let d := (s.slotId g m).1
    if acc.1.contains d then acc
    else if acc.1.length < 8 then (acc.1 ++ [d], acc.2)
    else (acc.1, acc.2 ++ [m])
  ((s.groupUsed g).foldl step ([s.get F.NET_ADDR_ADDR], [])).2

/-- The remote slots without a table entry. -/
def State.slotsMissing (s : State) (g : Fin 8) : List Nat :=
  (s.groupUsed g).filter (fun m => !s.bit (F.MGRP_MEMA_LOC g m)
    && !s.load.rtt.contains ((s.slotId g m).1, (s.slotId g m).2, g.val))

/-- One group at Paddock lock; `bad`: the check over the groups as the image enables them refuses it. -/
def State.groupLock (s : State) (g : Fin 8) (bad : Bool) : State :=
  if !s.bit (F.MGRP_CFG_EN g) then s
  else if bad then (s.putB (F.MGRP_STAT_CFGERR g) true).putB (F.MGRP_CFG_EN g) false
  else
    let miss := s.slotsMissing g
    let excess := s.slotsOver g
    let s := s.putB (F.MGRP_STAT_RTT_MISS g) !miss.isEmpty
    let s := s.putB (F.MGRP_STAT_DEV_OVF g) !excess.isEmpty
    let s := s.modGroup g (fun x => { x with enabled := true, badSlots := miss ++ excess })
    each ((s.groupUsed g).filter (fun m => s.bit (F.MGRP_MEMA_LOC g m)))
      (fun m s => s.put (F.TEAM_SPSTAT_GROUP (s.get (F.MGRP_MEMA_TEAM g m))) g.val) s

/-- IDG_CAPUSE at the end of the load (R40). -/
def State.capUse (s : State) : State :=
  let sizes := allGroups.filterMap (fun g : Fin 8 => if s.bit (F.MGRP_CFG_EN g) then some (s.groupUsed g).length else none)
  let s := s.put F.IDG_CAPUSE_MGRP_USED sizes.length
  let s := s.put F.IDG_CAPUSE_MGRP_MAXMEM (sizes.foldl max 0)
  s.put F.IDG_CAPUSE_RTT_USED s.load.rtt.length

/-! ## The live view (R198, R203) -/

/-- A slot is live now: a local one under R198, a remote one as last reported (R202). -/
def State.slotLive (s : State) (g : Fin 8) (m : Nat) : Bool :=
  s.bit (F.MGRP_MEMA_USED g m) && !(s.groups[g]).badSlots.contains m &&
    (if s.bit (F.MGRP_MEMA_LOC g m) then
      (match finOf 24 (s.get (F.MGRP_MEMA_TEAM g m)) with
       | some t => s.localLive t
       | none => false)
     else (s.groups[g]).remoteLive.contains m)

/-- The slots that re-enter at a cycle boundary: live ones not yet counted, a local one only once a frame has reported
it (R203). -/
def State.reentrySlots (s : State) (g : Fin 8) : List Nat :=
  (s.groupUsed g).filter (fun m => s.slotLive g m && !(s.groups[g]).liveView.contains m &&
    (if s.bit (F.MGRP_MEMA_LOC g m) then
      (match finOf 24 (s.get (F.MGRP_MEMA_TEAM g m)) with
       | some t => (s.team t).liveSeen
       | none => false)
     else (s.groups[g]).reentry.contains m))

/-- Re-entries at an Icend cycle boundary, with a release in the same tick (R199, R203). -/
def State.groupReenter (s : State) (g : Fin 8) : State :=
  let back := s.reentrySlots g
  if (s.groups[g]).enabled && s.groupRemote g && !back.isEmpty then
    s.modGroup g (fun x => { x with
      liveView := x.liveView ++ back, reentry := x.reentry.filter (fun m => !back.contains m), relDue := x.relDue ++ [s.now] })
  else s

/-- A remote slot drops out of the live view; the group is released in the next tick (R199, R202). -/
def State.remoteDrop (s : State) (g : Fin 8) (m : Nat) : State :=
  let s := s.modGroup g (fun x => { x with
    remoteLive := x.remoteLive.filter (· != m), reentry := x.reentry.filter (· != m) })
  if (s.groups[g]).liveView.contains m then
    s.modGroup g (fun x => { x with liveView := x.liveView.filter (· != m), relDue := x.relDue ++ [s.now + 1] })
  else s

/-- A remote slot is reported live (R202, R203). -/
def State.remoteAlive (s : State) (g : Fin 8) (m : Nat) : State :=
  if (s.groups[g]).remoteLive.contains m then s
  else s.modGroup g (fun x => { x with remoteLive := x.remoteLive ++ [m], reentry := x.reentry ++ [m] })

/-! ## Allocation (R200) -/

/-- A member that may take a share: slot, weight, capability. -/
structure Member where
  slot : Nat
  w : Nat
  cap : Nat
  deriving DecidableEq, Repr

/-- The loop of R200: at most `fuel` rounds, each of which ends it or fixes the shares of those over their capability. -/
def allocLoop : Nat → List Member → Nat → List (Nat × Nat) → List (Nat × Nat) × Nat
  | 0, _, left, acc => (acc, left)
  | fuel + 1, free, left, acc =>
    match free.getLast? with
    | none => (acc, left)
    | some top =>
      let wsum := (free.map Member.w).sum
      let part (i : Member) : Nat := left * i.w / wsum
      let full := free.filter (fun i => decide (i.cap < part i))
      if full.isEmpty then
        let rest := free.dropLast
        let given := (rest.map part).sum
        (acc ++ rest.map (fun i => (i.slot, part i)) ++ [(top.slot, left - given)], 0)
      else
        allocLoop fuel (free.filter (fun i => !full.contains i)) (left - (full.map Member.cap).sum)
          (acc ++ full.map (fun i => (i.slot, i.cap)))

/-- The shares by slot and the shortfall of a command (R200). -/
def allocate (cmd : Int) (free : List Member) : List Int × Nat :=
  let sgn : Int := if cmd < 0 then -1 else 1
  let r := allocLoop 16 free cmd.natAbs []
  ((List.range 16).map (fun m => match r.1.find? (fun p => p.1 == m) with
    | some p => sgn * p.2
    | none => 0), r.2)

/-- The free members of a group: counted live, with a weight (R200). -/
def State.freeMembers (s : State) (g : Fin 8) (live : List Nat) : List Member :=
  ((List.range 16).filter (fun m => live.contains m && s.get (F.MGRP_MEMB_WEIGHT g m) != 0)).map (fun m =>
    { slot := m, w := s.get (F.MGRP_MEMB_WEIGHT g m) * 2 ^ 14, cap := s.get (F.MGRP_MEMB_CAP g m) * 2 ^ 14 })

/-- The command as a release latches it: multiplied by the derate at throttle level 3 (R199, R446). -/
def State.tqLatched (s : State) (g : Fin 8) : Int × State :=
  let tq := s.getI (F.MGRP_TQCMD_TQ g)
  if s.get F.HKP_THSTAT_LEVEL = 3 then s.roundFree (tq * s.get (F.HKP_DERATE_F g)) 65536 else (tq, s)

/-- A mask of slots as bits. -/
def slotMask (l : List Nat) : Nat := ((List.range 16).filter (fun m => l.contains m)).foldl (fun a m => a + 2 ^ m) 0

/-- A release latches the command and the live set and allocates (R199, R200).  Without remote members, a member that
became live counts from this release (R203).  A drop of this very tick still has its release in the next (R204). -/
def State.groupLatch (s : State) (g : Fin 8) : State :=
  let old := (s.groups[g]).latLive
  let live := if s.groupRemote g then (s.groups[g]).liveView
    else (s.groupUsed g).filter (fun m => s.slotLive g m)
  let (cmd, s) := s.tqLatched g
  let (shares, short) := allocate cmd (s.freeMembers g live)
  let s := s.modGroup g (fun x => { x with
    liveView := live, relDue := x.relDue.filter (fun d => decide (s.now < d)), relAt := some s.now,
    latTq := cmd, latLive := live, shares := shares, short := short })
  let s := s.put (F.MGRP_STAT_LIVE g) (slotMask live)
  let s := s.putB (F.MGRP_STAT_SHORT g) (short != 0)
  let s := s.putI (F.MGRP_TQALLOC_TQ g) shares.sum
  let s := s.put (F.MGRP_SHORT_SHORT g) short
  if slotMask old = slotMask live then s else s.bump (F.MGRP_CNT_RESC g)

/-- A release falls due in this tick: an update point of the lead team, a drop of the tick before, or a re-entry; two
in one tick are one (R199). -/
def State.groupRelDue (s : State) (g : Fin 8) : Bool :=
  (s.groups[g]).enabled && (s.groups[g]).relAt != some s.now &&
    ((s.groups[g]).relDue.contains s.now || (match finOf 24 (s.get (F.MGRP_CFG_LEAD g)) with
      | some t => (s.team t).updTick == some s.now
      | none => false))

/-! ## Set-points (R122, R204, R205) -/

/-- Writers of a set-point: TEAM_SPSTAT.SRC. -/
inductive SpSrc where
  | icend
  | firmware
  | group
  deriving DecidableEq, Repr

def SpSrc.code : SpSrc → Nat
  | .icend => 1
  | .firmware => 2
  | .group => 3

/-- A team's set-point is written: discarded for a local member of an enabled group unless the group writes it
(R204). -/
def State.spWrite (s : State) (t : Fin 24) (src : SpSrc) (v : Word) : State :=
  if s.get (F.TEAM_SPSTAT_GROUP t) != 15 && src != .group then s.raise (F.TEAM_SPSTAT_WR_IGN t)
  else
    let s := s.wr (A.TEAM_SP t) v
    let s := s.put (F.TEAM_SPSTAT_SRC t) src.code
    s.putB (F.TEAM_SPSTAT_VALID t) true

/-- A group's torque command is delivered (R122). -/
def State.tqWrite (s : State) (g : Fin 8) (v : Word) : State :=
  (s.wr (A.MGRP_TQCMD g) v).putB (F.MGRP_STAT_VALID g) true

/-- The group commit's own writes: the shares, and the set-points of the local members, 0 for one that is not live;
nothing while the command is not VALID (R199). -/
def State.groupCommit (s : State) (g : Fin 8) (shares : List Int) : State :=
  if !s.bit (F.MGRP_STAT_VALID g) then s
  else
    each (List.range 16) (fun m s =>
      let v := shares.getD m 0
      let s := s.putI (F.MGRP_SHARE_SHARE g m) v
      if s.bit (F.MGRP_MEMA_USED g m) && s.bit (F.MGRP_MEMA_LOC g m) && decide (m < s.get (F.MGRP_CFG_NMEM g)) then
        match finOf 24 (s.get (F.MGRP_MEMA_TEAM g m)) with
        | some t => s.spWrite t .group (wOfInt v)
        | none => s
      else s) s

end Sys2Proof.Machine
end

