-- ==== Sys2Proof/Machine/CeOps.lean ====
section
/-!
DEFINITION. One operation of a control-engine lane (R235 to R242, R246, R254): fetch and legality, operands, results,
the run's journal, and the ends of a run that a check fails.
-/
namespace Sys2Proof.Machine

/-! ## Task descriptors (R243) -/

def State.descWord (s : State) (k : Fin 36) (off : Nat) : Word := s.memGet (K.desc k (off / 4))
def State.pStart (s : State) (k : Fin 36) : Nat := bitsGet (s.descWord k 0) 0 14
def State.pLen (s : State) (k : Fin 36) : Nat := bitsGet (s.descWord k 0) 16 14
def State.sBase (s : State) (k : Fin 36) : Nat := bitsGet (s.descWord k 4) 0 13
def State.cBase (s : State) (k : Fin 36) (set1 : Bool) : Nat := bitsGet (s.descWord k (if set1 then 12 else 8)) 0 13
def State.taskEn (s : State) (k : Fin 36) : Bool := bitsGet (s.descWord k 16) 31 1 == 1
def State.taskDl (s : State) (k : Fin 36) : Nat :=
  let d := bitsGet (s.descWord k 16) 0 16
  if d = 0 then 65536 else d
def State.wcet (s : State) (k : Fin 36) : Nat := (s.descWord k 20).toNat

/-! ## Operation words (R238 to R240) -/

structure Op where
  opc : Nat
  a : Nat
  x : Nat
  y : Nat
  m : Nat
  deriving DecidableEq, Repr

/-- The word of an operation. -/
def Op.word (o : Op) : Word := BitVec.ofNat 32 (o.opc * 2 ^ 26 + o.a * 2 ^ 24 + o.x * 2 ^ 14 + o.y * 2 ^ 4 + o.m)

/-- The fields of a word. -/
def opOf (w : Word) : Op :=
  { opc := bitsGet w 26 6, a := bitsGet w 24 2, x := bitsGet w 14 10, y := bitsGet w 4 10, m := bitsGet w 0 4 }

def opNOP : Nat := 0x00
def opEND : Nat := 0x01
def opCLR : Nat := 0x02
def opLD : Nat := 0x03
def opADD : Nat := 0x04
def opSUB : Nat := 0x05
def opLDC : Nat := 0x06
def opMUL : Nat := 0x07
def opMAC : Nat := 0x08
def opMSU : Nat := 0x09
def opMACS : Nat := 0x0A
def opMSUS : Nat := 0x0B
def opSTS : Nat := 0x0C
def opSHA : Nat := 0x0D
def opNEG : Nat := 0x0E
def opABS : Nat := 0x0F
def opMIN : Nat := 0x10
def opMAX : Nat := 0x11
def opLIM : Nat := 0x12
def opLIMS : Nat := 0x13
def opVLIM : Nat := 0x14
def opLDW : Nat := 0x15
def opLDCW : Nat := 0x16
def opADDW : Nat := 0x17
def opBIQ : Nat := 0x18
def opAMUL : Nat := 0x19
def opSTW : Nat := 0x1A
def opTLU : Nat := 0x1B
def opSINCOS : Nat := 0x1C
def opATAN2 : Nat := 0x1D
def opDIV : Nat := 0x1E
def opSQRT : Nat := 0x1F
def opTOCMP : Nat := 0x20
def opSKZ : Nat := 0x21
def opSKS : Nat := 0x22
def opSKN : Nat := 0x23
def opSKNN : Nat := 0x24
def opCAP : Nat := 0x25
def opSETF : Nat := 0x26

/-- Widths of the used parts of A, X, Y and M of an operation code (R238, R239). -/
def opUse (opc : Nat) : Nat × Nat × Nat × Nat :=
  match opc with
  | 0x02 => (2, 0, 0, 0) | 0x03 => (2, 10, 0, 0) | 0x04 => (2, 10, 0, 0) | 0x05 => (2, 10, 0, 0)
  | 0x06 => (2, 0, 10, 0) | 0x07 => (2, 10, 10, 0) | 0x08 => (2, 10, 10, 0) | 0x09 => (2, 10, 10, 0)
  | 0x0A => (2, 10, 10, 0) | 0x0B => (2, 10, 10, 0) | 0x0C => (2, 10, 0, 2) | 0x0D => (2, 0, 5, 0)
  | 0x0E => (2, 0, 0, 0) | 0x0F => (2, 0, 0, 0) | 0x10 => (2, 10, 0, 0) | 0x11 => (2, 10, 0, 0)
  | 0x12 => (2, 0, 10, 0) | 0x13 => (2, 10, 0, 0) | 0x14 => (2, 10, 0, 0) | 0x15 => (2, 10, 0, 0)
  | 0x16 => (2, 0, 10, 0) | 0x17 => (2, 10, 0, 0) | 0x18 => (2, 10, 10, 1) | 0x19 => (2, 0, 10, 0)
  | 0x1A => (2, 10, 0, 0) | 0x1B => (2, 10, 4, 0) | 0x1C => (2, 10, 0, 0) | 0x1D => (2, 0, 0, 0)
  | 0x1E => (2, 10, 0, 0) | 0x1F => (2, 0, 0, 0) | 0x20 => (2, 10, 0, 2) | 0x21 => (0, 10, 5, 4)
  | 0x22 => (0, 10, 5, 4) | 0x23 => (2, 0, 0, 4) | 0x24 => (2, 0, 0, 4) | 0x25 => (0, 10, 2, 0)
  | 0x26 => (0, 0, 3, 0) | _ => (0, 0, 0, 0)

/-- The signal addresses an operation writes. -/
def opWrites (o : Op) : List Nat :=
  if o.opc = opSTS ∨ o.opc = opSTW ∨ o.opc = opTOCMP then [o.x]
  else if o.opc = opBIQ then (List.range 4).map (fun i => (o.x + i) % 1024)
  else []

/-- A fetched word is legal: a defined code, unused bits 0, no write into the input frame (R240). -/
def opLegal (w : Word) : Bool :=
  let o := opOf w
  let (ua, ux, uy, um) := opUse o.opc
  decide (o.opc ≤ 0x26) && decide (o.a < 2 ^ ua) && decide (o.x < 2 ^ ux) && decide (o.y < 2 ^ uy)
    && decide (o.m < 2 ^ um) && (opWrites o).all (fun x => decide (0x40 ≤ x))

/-- Lane cycles of an operation (R239). -/
def opCycles (opc : Nat) : Nat :=
  if opc = opVLIM ∨ opc = opBIQ then 6 else if opc = opTLU then 3 else if opc = opSINCOS then 4
  else if opc = opATAN2 ∨ opc = opSQRT then 8 else if opc = opDIV then 12 else 1

/-! ## Operands -/

/-- A state word as the run sees it: its own latest write, else the memory (R246). -/
def State.runState (s : State) (r : RunSt) (i : Nat) : Word :=
  match r.journal.reverse.find? (fun j => match j with
    | .state k _ => k == i
    | .cap _ _ => false) with
  | some (.state _ w) => w
  | _ => s.memGet (K.state i)

/-- The state word a signal address selects (R238). -/
def State.stateIdx (s : State) (r : RunSt) (x : Nat) : Nat := (s.sBase r.task + (x - 0x80)) % 8192

/-- Signal word S[x]. -/
def State.sig (s : State) (r : RunSt) (x : Nat) : Word :=
  if x < 0x40 then r.input.getD x 0
  else if x < 0x60 then r.out.toList.getD (x - 0x40) 0
  else if x < 0x80 then r.scratch.toList.getD (x - 0x60) 0
  else s.runState r (s.stateIdx r x)

/-- Coefficient index of address y (R238). -/
def State.coefIdx (s : State) (r : RunSt) (y : Nat) : Nat := (s.cBase r.task r.csel + y) % 8192

def State.coefWord (s : State) (i : Nat) : Word := s.memGet (K.coef i)

/-- Shift of coefficient i (R231). -/
def State.coefShift (s : State) (i : Nat) : Int := toSigned 5 (bitsGet (s.memGet (K.shift (i / 4))) (8 * (i % 4)) 5)

/-! ## Results on a run -/

def RunSt.acc (r : RunSt) (a : Nat) : Int := (r.accs[a % 4]'(Nat.mod_lt _ (by decide))).toInt
def RunSt.setAcc (r : RunSt) (a : Nat) (v : Int) : RunSt :=
  { r with accs := r.accs.set (a % 4) (BitVec.ofInt 72 v) (Nat.mod_lt _ (by decide)) }
def RunSt.addSat (r : RunSt) (n : Nat) : RunSt := { r with sats := r.sats + n }

/-- An accumulator takes a value, saturated and counted (R236). -/
def RunSt.accTo (r : RunSt) (a : Nat) (v : Int) : RunSt :=
  let (q, n) := accSat v
  (r.setAcc a q).addSat n

/-- Bits 31:0 of an accumulator take a raw word; bits 71:32 become 0 (R236). -/
def RunSt.rawTo (r : RunSt) (a : Nat) (v : Nat) : RunSt := r.setAcc a ((v % 2 ^ 32 : Nat) : Int)

/-- Write signal word S[x]; a state word takes a journal entry (R246). -/
def State.sigSet (s : State) (r : RunSt) (x : Nat) (w : Word) : RunSt :=
  if h : x < 0x40 then r
  else if h1 : x < 0x60 then { r with out := r.out.set (x - 0x40) w (by omega) }
  else if h2 : x < 0x80 then { r with scratch := r.scratch.set (x - 0x60) w (by omega) }
  else { r with journal := r.journal ++ [.state (s.stateIdx r x) w], entries := r.entries + 1 }

/-- A free accumulator value, where the spec states no result (log entry 3). -/
def State.freeAcc (s : State) : Int × State :=
  let (a, s) := s.free
  let (b, s) := s.free
  let (c, s) := s.free
  ((BitVec.ofNat 72 (a.toNat + b.toNat * 2 ^ 32 + c.toNat * 2 ^ 64)).toInt, s)

/-- Clamp between two limits; with the lower limit above the upper the result is a free value (log entry 3). -/
def State.clampAcc (s : State) (v lo hi : Int) : Int × State :=
  if lo ≤ hi then (clampI lo hi v, s) else s.freeAcc

/-! ## The end of a run by a check (R254) -/

def memCode : CeMem → Nat
  | .program => 0
  | .coef => 1
  | .shift => 2
  | .state => 3
  | .table => 4
  | .capture => 5
  | .desc => 6

/-- The context of an ECC record (R258). -/
def eccCtx (m : CeMem) (w : Nat) : Nat := memCode m * 2 ^ 28 + w % 2 ^ 18

/-- Task index, by kind. -/
def taskTeam (k : Fin 36) : Option (Fin 24) := finOf 24 k.val
def taskGroup (k : Fin 36) : Option (Fin 8) := if 24 ≤ k.val then finOf 8 (k.val - 24) else none

/-- The teams that halt when a task reaches its overrun limit, and the limit (R250, R251). -/
def State.limitOf (s : State) (k : Fin 36) : Option (Nat × List (Fin 24)) :=
  match taskTeam k with
  | some t => some (s.ovrMax t, [t])
  | none =>
    match taskGroup k with
    | some g =>
      some (s.ovrMax (s.get (F.MGRP_CFG_LEAD g)), (s.groupUsed g).filterMap (fun m =>
        if s.bit (F.MGRP_MEMA_LOC g m) then finOf 24 (s.get (F.MGRP_MEMA_TEAM g m)) else none))
    | none => none

/-- CONSEC rises by 1.  From 0 to 1 OVERRUN:TEAM or OVERRUN:GROUP is recorded; at the limit OVERRUN:LIMIT is recorded and
the teams halt: a team task's with the fault given, a group task's members with OVERRUN:LIMIT (R250, R251, R254, R258). -/
def State.consecUp (s : State) (k : Fin 36) (flt : Nat) : State :=
  let c := s.get (F.CE_TSTAT_CONSEC k) + 1
  let s := s.put (F.CE_TSTAT_CONSEC k) (min 255 c)
  match s.limitOf k with
  | some (lim, teams) =>
    let s := if c = 1 then s.record (fcode cOVERRUN (if k.val < 24 then 1 else 2)) k else s
    if c = lim then
      let s := s.record (fcode cOVERRUN 3) k
      each teams (fun t s => s.haltTeam t caFAULT (if k.val < 24 then flt else fcode cOVERRUN 3)) s
    else s
  | none => s

/-- A lane is freed; it keeps its accumulators (R231, R254). -/
def State.freeLane (s : State) (l : Fin 16) : State :=
  let s := match s.ce.lanes[l] with
    | some r => s.modCe (fun c => { c with lanes := c.lanes.set l none, accs := c.accs.set l r.accs })
    | none => s
  s.put F.CE_STAT_BUSY ((s.ce.lanes.toList.filter (·.isSome)).length)

/-- CE_STAT.READY: team and group tasks that wait for a lane. -/
def State.readyShow (s : State) : State :=
  s.put F.CE_STAT_READY (min 63 ((s.ce.ready.filter (fun r => decide (r.task.val < 32))).length))

/-- A released run waits for a lane; a group task whose descriptor is not enabled has no program to run, and its commit is
next (R199, R243). -/
def State.queueRun (s : State) (r : RunSt) : State :=
  if s.taskEn r.task then (s.modCe (fun c => { c with ready := c.ready ++ [r] })).readyShow
  else s.modCe (fun c => { c with ended := c.ended ++ [{ r with ended := some s.now }] })

/-- A pending group release starts when the running group run ends (R251). -/
def State.groupNext (s : State) (k : Fin 36) : State :=
  match taskGroup k with
  | some g =>
    (match s.ce.gpend[g] with
     | some r =>
       ((s.modCe (fun c => { c with gpend := c.gpend.set g none })).putB (F.CE_TSTAT_PEND k) false).queueRun r
     | none => s)
  | none => s

/-- The cycle count of a run that has ended, accepted or not: the longest is kept, and one above WCET is flagged (R257,
R260; log entry 80). -/
def State.cycCount (s : State) (r : RunSt) : State :=
  let k := r.task
  let s := s.raiseMax (F.CE_TCYC_MAXCYC k) r.cycles
  if s.wcet k ≠ 0 ∧ s.wcet k < r.cycles then s.raise (F.CE_TSTAT_WCET_EXC k) else s

/-- A run fails a check: it is discarded and counted (R254). -/
def State.runFail (s : State) (l : Fin 16) (r : RunSt) (code ctx : Nat) : State :=
  let k := r.task
  let s := s.freeLane l
  let s := s.record code ctx
  let s := s.bump (F.CE_TDISC_DISCNT k)
  let s := (s.cycCount r).putB (F.CE_TSTAT_RUNNING k) false
  (s.consecUp k code).groupNext k

/-- The memory's number as an index. -/
def memIdx (m : CeMem) : Fin 7 := ⟨memCode m % 7, Nat.mod_lt _ (by decide)⟩

/-- A record was made at a tick less than one second before now. -/
def recentAt (now : Tick) : Option Tick → Bool
  | some t => decide (now < t + ticksPerSec)
  | none => false

/-- A corrected single-bit error: counted, and recorded at most once a second per memory (R255). -/
def State.eccCorr (s : State) (m : CeMem) (w : Nat) : State :=
  let s1 : State := s.bumpSat F.CE_ECCCNT_CORR
  if recentAt s.now (s.ce.corrAt.get (memIdx m)) then s1
  else
    (s1.record (fcode cECC 1) (eccCtx m w)).modCe (fun c => { c with corrAt := c.corrAt.set (memIdx m) (some s.now) })

/-- An uncorrectable error: counted, its address kept (R255). -/
def State.eccDed (s : State) (m : CeMem) (w : Nat) : State :=
  let s := s.bumpSat F.CE_ECCCNT_DED
  s.wr A.CE_ECCADDR (BitVec.ofNat 32 (eccCtx m w))

/-! ## Upset words (R255) -/

def allMems : List CeMem := [.program, .coef, .shift, .state, .table, .capture, .desc]

/-- Storage words of a memory (R255). -/
def memSize : CeMem → Nat
  | .program => 16384
  | .coef => 8192
  | .shift => 2048
  | .state => 8192
  | .table => 65536
  | .capture => 65536
  | .desc => 4608

/-- The key of word w of a memory, as `State.mem` has it. -/
def memKey (m : CeMem) (w : Nat) : Nat := (memCode m + 1) * 2 ^ 20 + w

/-- The memory and word of a key; none for a window that carries no code of R255. -/
def keyWord (k : Nat) : Option (CeMem × Nat) :=
  (allMems.find? (fun m => decide (memKey m 0 ≤ k ∧ k < memKey m (memSize m)))).map (fun m => (m, k - memKey m 0))

/-- What stands at a key: an upset of one bit (false) or an uncorrectable word (true). -/
def State.upsetAt (s : State) (k : Nat) : Option Bool := (s.upset.find? (fun e => e.1 == k)).map Prod.snd

/-- An upset strikes a word; a second one leaves it uncorrectable. -/
def State.strike (s : State) : Chk → State
  | .corr m w =>
    let k := memKey m w
    if memSize m ≤ w then s
    else { s with upset := (k, (s.upsetAt k).isSome) :: s.upset.filter (fun e => e.1 != k) }
  | .ded m w =>
    let k := memKey m w
    if memSize m ≤ w then s else { s with upset := (k, true) :: s.upset.filter (fun e => e.1 != k) }
  | _ => s

/-- A word is read: a single-bit error is corrected, written back and counted; the memory and word where it is
uncorrectable (R255). -/
def State.eccRead (s : State) (k : Nat) : Option (CeMem × Nat) × State :=
  match s.upsetAt k, keyWord k with
  | some false, some (m, w) => (none, ({ s with upset := s.upset.filter (fun e => e.1 != k) } : State).eccCorr m w)
  | some true, some (m, w) => (some (m, w), s)
  | _, _ => (none, s)

/-- Words are read in order, up to the first uncorrectable one. -/
def State.eccReads (s : State) : List Nat → Option (CeMem × Nat) × State
  | [] => (none, s)
  | k :: ks =>
    match s.eccRead k with
    | (some e, s) => (some e, s)
    | (none, s) => s.eccReads ks

/-- A read over the bus: an uncorrectable word returns 0 and is recorded (R255). -/
def State.busWord (s : State) (k : Nat) : Word × State :=
  match s.eccRead k with
  | (none, s) => (s.memGet k, s)
  | (some (m, w), s) => (0, (s.eccDed m w).record (fcode cECC 4) (eccCtx m w))

/-! ## The pool load (CE_LOAD) -/

/-- CLK_CORE cycles of a window of 1,024 µs: 32 whole periods of the triangle, at the mean frequency of R47. -/
def State.winCycles (s : State) : Nat :=
  640000 - 1600 * (if s.bit F.CLK_SSCFG_EN then s.get F.CLK_SSCFG_DEPTH else 0)

/-- The load windows completed by now: 1,024 µs each from PLL lock.  The busy fraction is of the control-pool lanes' cycles
in the window; the spec names no rounding, so a fraction between two units is either (log entry 3). -/
def State.loadSync (s : State) : State :=
  let cur := (s.now - s.tim.pllAt) / 320000
  if s.ce.busyWin = cur then s
  else
    let (mean, s) : Nat × State :=
      if s.ce.busyCyc = 0 then (0, s)
      else
        let (q, s) := s.roundFree (s.ce.busyCyc * 65536 : Nat) ((16 - s.get F.CE_CTL_BGLANES) * s.winCycles)
        (min 65535 q.toNat, s)
    let s := if s.tim.pllAt + cur * 320000 = s.now then s.raiseMax F.CE_LOAD_PEAK mean else s.putMax F.CE_LOAD_PEAK mean
    let s := s.put F.CE_LOAD_MEAN (if s.ce.busyWin + 1 = cur then mean else 0)
    s.modCe (fun c => { c with busyCyc := 0, busyWin := cur })

/-- Lane l was busy for n cycles; lanes below 16 − BGLANES form the control pool (R230). -/
def State.busyAdd (s : State) (l : Fin 16) (n : Nat) : State :=
  if l.val + s.get F.CE_CTL_BGLANES < 16 then s.loadSync.modCe (fun c => { c with busyCyc := c.busyCyc + n }) else s

/-! ## One operation of a lane -/

/-- Store the run back on its lane; a journal beyond 512 entries ends it (R246, R254). -/
def State.runPut (s : State) (l : Fin 16) (r : RunSt) : State :=
  if 512 < r.entries then s.runFail l r (fcode cRESIDUE 4) r.task
  else s.modCe (fun c => { c with lanes := c.lanes.set l (some r) })

/-- A lane's run has gone one operation on. -/
def RunSt.next (r : RunSt) (cyc : Nat) : RunSt := { r with pc := r.pc + 1, cycles := r.cycles + cyc }

/-- The state word behind a signal address, unless the run has written it itself (R246). -/
def State.sigKeys (s : State) (r : RunSt) (x : Nat) : List Nat :=
  let i := s.stateIdx r x
  if x < 0x80 ∨ r.journal.any (fun j => match j with
      | .state k _ => k == i
      | .cap _ _ => false) then []
  else [K.state i]

/-- The words behind coefficient y: the coefficient, and its shift where the operation reads it. -/
def State.coefKeys (s : State) (r : RunSt) (y : Nat) (shift : Bool) : List Nat :=
  let i := s.coefIdx r y
  if shift then [K.coef i, K.shift (i / 4)] else [K.coef i]

/-- The memory words an operation reads as operands (R239, R241, R242). -/
def State.opReads (s : State) (r : RunSt) (o : Op) : List Nat :=
  let c := o.opc
  let sig := if (opUse c).2.1 = 0 ∨ c = opSTS ∨ c = opSTW ∨ c = opTOCMP ∨ c = opBIQ then [] else s.sigKeys r o.x
  if c = opMUL ∨ c = opMAC ∨ c = opMSU ∨ c = opLDC ∨ c = opAMUL then sig ++ s.coefKeys r o.y true
  else if c = opMACS ∨ c = opMSUS then sig ++ s.sigKeys r o.y
  else if c = opLIM then s.coefKeys r o.y false ++ s.coefKeys r (o.y + 1) false
  else if c = opLDCW then s.coefKeys r o.y false
  else if c = opBIQ then
    (List.range 4).flatMap (fun i => s.sigKeys r ((o.x + i) % 1024))
      ++ (List.range 5).flatMap (fun i => s.coefKeys r (o.y + i) true)
      ++ (if o.m % 2 = 1 then s.coefKeys r (o.y + 5) false ++ s.coefKeys r (o.y + 6) false else [])
  else if c = opTLU then
    let i := (s.sig r o.x).toNat / 2 ^ 20
    sig ++ [K.table (o.y % 16) i, K.table (o.y % 16) ((i + 1) % 4096)]
  else if c = opEND then (List.range 32).map (fun i => K.desc r.task (32 + i)) ++ [K.desc r.task 5]
  else sig

/-- The words a lane reads to fetch an operation: its word, and, for the first of a run, the descriptor words of the task
and its release (R243, R244; log entry 99). -/
def State.fetchKeys (r : RunSt) : List Nat :=
  (if r.cycles = 0 then
    [K.desc r.task 0, K.desc r.task 1, K.desc r.task (if r.csel then 3 else 2), K.desc r.task 4]
      ++ (List.range 64).map (fun i => K.desc r.task (64 + i))
  else []) ++ [K.prog (r.pc % 16384)]

/-- A run reads an uncorrectable word (R254, R255). -/
def State.dedFail (s : State) (l : Fin 16) (r : RunSt) (e : CeMem × Nat) : State :=
  (s.eccDed e.1 e.2).runFail l r (fcode cECC 2) (eccCtx e.1 e.2)

/-- One operation on lane l: the word at the program counter must be the operation's; illegal words, uncorrectable ones and
failed checks end the run; a skipped operation only counts its cycle (R240, R254).  An operation that the program does
not hold there is not executed (log entry 5). -/
def State.ceOp (s : State) (l : Fin 16) (o : Op) (chk : Chk) (body : State → RunSt → State × RunSt) : State :=
  let s := s.strike chk
  match s.ce.lanes[l] with
  | none => s
  | some r =>
    let w := s.memGet (K.prog (r.pc % 16384))
    if r.ended.isSome then s
    else if r.pc = s.pStart r.task + s.pLen r.task then s.runFail l r (fcode cRESIDUE 3) r.task
    else
      match s.eccReads (State.fetchKeys r) with
      | (some e, s) => (s.busyAdd l 1).dedFail l (r.next 1) e
      | (none, s1) =>
        if !opLegal w then s1.runFail l r (fcode cRESIDUE 3) r.task
        else if w ≠ o.word then s
        else if 0 < r.skip ∧ o.opc ≠ opEND then (s1.busyAdd l 1).runPut l { r.next 1 with skip := r.skip - 1 }
        else
          let r' := r.next (opCycles o.opc)
          match (s1.busyAdd l (opCycles o.opc)).eccReads (s1.opReads r o) with
          | (some e, s) => s.dedFail l r' e
          | (none, s) =>
            match chk with
            | .mac => s.runFail l r' (fcode cRESIDUE 1) r.task
            | .func => s.runFail l r' (fcode cRESIDUE 2) r.task
            | _ =>
              let (s, r) := body s r'
              s.runPut l r

/-! ## The bodies (R239 to R242) -/

/-- A body that needs no free value. -/
def pureOp (f : State → RunSt → RunSt) (s : State) (r : RunSt) : State × RunSt := (s, f s r)

/-- acc plus or minus a value. -/
def bodyAcc (a : Nat) (f : State → RunSt → Int → Int) : State → RunSt → State × RunSt :=
  pureOp (fun s r => r.accTo a (f s r (r.acc a)))

def State.coefVal (s : State) (r : RunSt) (y : Nat) : Int :=
  coefAcc (s.coefWord (s.coefIdx r y)) (s.coefShift (s.coefIdx r y))

/-- S[x] × C[y] at the accumulator LSB. -/
def State.prodC (s : State) (r : RunSt) (x y : Nat) : Int :=
  mulCoef (s.sig r x) (s.coefWord (s.coefIdx r y)) (s.coefShift (s.coefIdx r y))

/-- C[y] read as Q1.30, its shift ignored. -/
def State.coefQ (s : State) (r : RunSt) (y : Nat) : Int := sigAcc (s.coefWord (s.coefIdx r y))

def bodySTS (a x m : Nat) : State → RunSt → State × RunSt :=
  pureOp (fun s r =>
    let (v, n) := toSignal (m % 4) (r.acc a)
    (s.sigSet r x (wOfInt v)).addSat n)

/-- NEG and ABS: the one value beyond the range has no stated result (log entry 3). -/
def bodyNeg (a : Nat) (cond : Int → Bool) (s : State) (r : RunSt) : State × RunSt :=
  let v := r.acc a
  if !cond v then (s, r)
  else if v = accMin then
    let (f, s) := s.freeAcc
    (s, r.setAcc a f)
  else (s, r.setAcc a (-v))

def bodyLIM (a y : Nat) (s : State) (r : RunSt) : State × RunSt :=
  let (v, s) := s.clampAcc (r.acc a) (s.coefQ r y) (s.coefQ r (y + 1))
  (s, r.setAcc a v)

def bodyVLIM (a x : Nat) : State → RunSt → State × RunSt :=
  pureOp (fun s r =>
    let (u, v) := vlim (r.acc a) (r.acc (a + 1)) (sigAcc (s.sig r x))
    (r.setAcc a u).setAcc (a + 1) v)

/-- A 64-bit state element, low word first. -/
def State.elem (s : State) (r : RunSt) (x : Nat) : Int :=
  toSigned 64 ((s.sig r (x % 1024)).toNat + (s.sig r ((x + 1) % 1024)).toNat * 2 ^ 32)

def State.elemSet (s : State) (r : RunSt) (x : Nat) (v : Int) : RunSt :=
  let u := ofSigned 64 v
  s.sigSet (s.sigSet r (x % 1024) (BitVec.ofNat 32 u)) ((x + 1) % 1024) (BitVec.ofNat 32 (u / 2 ^ 32))

/-- One second-order section (R241). -/
def bodyBIQ (a x y m : Nat) (s : State) (r : RunSt) : State × RunSt :=
  let (u, n0) := toSignal 0 (r.acc a)
  let uw := wOfInt u
  let p (w : Word) (i : Nat) : Int := mulCoef w (s.coefWord (s.coefIdx r (y + i))) (s.coefShift (s.coefIdx r (y + i)))
  let s1 := s.elem r x
  let s2 := s.elem r (x + 2)
  let (v, n1) := accSat (p uw 0 + s1)
  let (v, s) := if m % 2 = 1 then s.clampAcc v (s.coefQ r (y + 5)) (s.coefQ r (y + 6)) else (v, s)
  let (yv, n2) := toSignal 0 v
  let yw := wOfInt yv
  let (t1, n3) := stateSat (p uw 1 - p yw 3 + s2)
  let (t2, n4) := stateSat (p uw 2 - p yw 4)
  let r := s.elemSet (s.elemSet r x t1) (x + 2) t2
  (s, (r.setAcc a v).addSat (n0 + n1 + n2 + n3 + n4))

/-- AMUL (R239). -/
def bodyAMUL (a y : Nat) : State → RunSt → State × RunSt :=
  pureOp (fun s r =>
    let i := s.coefIdx r y
    let p := accRaw (r.acc a) * (s.coefWord i).toNat
    let k : Int := s.coefShift i - 16
    r.rawTo a (if 0 ≤ k then p * 2 ^ k.toNat else p / 2 ^ (-k).toNat))

/-- TLU (R242). -/
def bodyTLU (a x y : Nat) : State → RunSt → State × RunSt :=
  pureOp (fun s r =>
    let ang := (s.sig r x).toNat
    let i := ang / 2 ^ 20
    let f := ang % 2 ^ 20
    let t := y % 16
    r.accTo a (r.acc a + tluAcc (s.memGet (K.table t i)) (s.memGet (K.table t ((i + 1) % 4096))) f))

def bodySINCOS (a x : Nat) : State → RunSt → State × RunSt :=
  pureOp (fun s r =>
    let (sn, cs) := sinCos (s.sig r x).toNat
    (r.setAcc a (sn * 2 ^ 31)).setAcc (a + 1) (cs * 2 ^ 31))

def bodyDIV (a x : Nat) : State → RunSt → State × RunSt :=
  pureOp (fun s r =>
    let (q, n) := divAcc (r.acc a) (s.sig r x)
    (r.setAcc a q).addSat n)

def bodySQRT (a : Nat) : State → RunSt → State × RunSt :=
  pureOp (fun _ r =>
    let (q, n) := sqrtAcc (r.acc a)
    (r.setAcc a q).addSat n)

/-- Skip the next M + 1 operations when a condition holds (R240). -/
def bodySkip (m : Nat) (cond : State → RunSt → Bool) : State → RunSt → State × RunSt :=
  pureOp (fun s r => if cond s r then { r with skip := m + 1 } else r)

/-- Append a word to a capture stream through the journal; the run's first append of a stamped stream takes one more
entry (R246, R276). -/
def bodyCAP (x y : Nat) : State → RunSt → State × RunSt :=
  pureOp (fun s r =>
    let st : Fin 4 := ⟨y % 4, Nat.mod_lt _ (by decide)⟩
    let first := s.bit (F.CE_CAPCFG_STAMP st) && !r.stamped.contains st.val
    { r with
      journal := r.journal ++ [.cap st (s.sig r x)]
      entries := r.entries + (if first then 2 else 1)
      stamped := if first then r.stamped ++ [st.val] else r.stamped })

def bodySETF (y : Nat) : State → RunSt → State × RunSt :=
  pureOp (fun _ r => if (r.flags / 2 ^ (y % 8)) % 2 = 1 then r else { r with flags := r.flags + 2 ^ (y % 8) })

/-- END: the run requests its commit and leaves its lane, where it waits when no general tag is free (R27, R246, R257). -/
def State.ceEnd (s : State) (l : Fin 16) (o : Op) (chk : Chk) : State :=
  let waits := match s.ce.lanes[l] with
    | some r => r.ended.isSome
    | none => true
  let s' := s.ceOp l o chk (fun s r => (s, { r with skip := 0, ended := some s.now }))
  match s'.ce.lanes[l] with
  | none => s'
  | some r =>
    if r.ended.isNone || waits then s'
    else
      let s' := if s'.mayIssue (.commit r.task) then
          (s'.freeLane l).modCe (fun c => { c with ended := c.ended ++ [r] })
        else s'
      s'.cycCount r

/-! ## The scrubber (R255) -/

/-- Storage words of the seven memories, in the order the scrubber reads them. -/
def scrubWords : Nat := 170496

/-- The key of the n-th word of a round over some memories. -/
def scrubKey : List CeMem → Nat → Nat
  | [], _ => 0
  | m :: ms, n => if n < memSize m then memKey m n else scrubKey ms (n - memSize m)

/-- The scrubber reads the word at its pointer; an uncorrectable one is recorded and left as it is (R255). -/
def State.scrubStep (s : State) (chk : Chk) : State :=
  let s := s.strike chk
  if !s.bit F.CE_CTL_SCRUB then s
  else
    let k := scrubKey allMems s.ce.scrub
    let s := s.modCe (fun c => { c with scrub := (c.scrub + 1) % scrubWords })
    match s.eccRead k with
    | (none, s) => s
    | (some (m, w), s) => (s.eccDed m w).record (fcode cECC 3) (eccCtx m w)

end Sys2Proof.Machine
end

