-- ==== Sys2Proof/Machine/Sdm.lean ====
section
/-!
DEFINITION. Sigma-delta channels (chapter 08): clocks, bit capture, the held waveform, the sinc3 sample and the sinc2
over-current filter, marking, delivery, loss, and the sense delay of a team.
-/
namespace Sys2Proof.Machine

def State.sdm (s : State) (c : Fin 144) : SdmSt := s.sdms[c]

/-- Modes of R207. -/
def sdmOFF : Nat := 0
def sdmCLOCKED : Nat := 1
def sdmMANCHESTER : Nat := 2

def State.sdmMode (s : State) (c : Fin 144) : Nat := s.get (F.SDM_CFG_MODE c)

/-- The configured team to which a channel is bound (R213). -/
def State.sdmTeam (s : State) (c : Fin 144) : Option (Fin 24) :=
  if s.sdmMode c = 0 then none
  else match finOf 72 (s.get (F.SDM_TRG_LEG c)) with
    | some n => (s.leg n).team
    | none => none

/-- The channels bound to a team. -/
def State.teamChans (s : State) (t : Fin 24) : List (Fin 144) := allChans.filter (fun c => s.sdmTeam c == some t)

/-! ## Clocks (R208, R209) -/

/-- The device-time tick count of a tick. -/
def State.devTick (s : State) (e : Tick) : Nat := s.stampOf (256 * e) / 256

/-- Tick e is a rising edge of SDM_CKg: one at its phase, or one of the two last before a re-phase (R208, R209). -/
def State.ckRise (s : State) (g : Fin 8) (e : Tick) : Bool :=
  s.bit (F.SDM_CKCFG_EN g) && (match s.sdmCk[g] with
    | some k => decide (k.first ≤ e) && s.devTick e % 16 == s.get (F.SDM_CKCFG_PH g)
        || k.old == some e || k.old == some (e + 16)
    | none => false)

/-- The first tick at or after e at the phase of SDM_CKg. -/
def State.ckFirst (s : State) (g : Fin 8) (e : Tick) : Tick :=
  e + (s.get (F.SDM_CKCFG_PH g) + 16 - s.devTick e % 16) % 16

/-- SDM_CKg starts once the LEGTEAM section is applied (R208). -/
def State.ckStart (s : State) (g : Fin 8) : State :=
  if s.bit (F.SDM_CKCFG_EN g) then
    { s with sdmCk := s.sdmCk.set g (some { first := s.ckFirst g (s.now + 1), old := none }) }
  else s

/-- The latest rising edge of SDM_CKg before tick e, by the phase that held then. -/
def State.ckLast (s : State) (g : Fin 8) (e : Tick) : Tick :=
  e - (s.devTick e + 16 - s.get (F.SDM_CKCFG_PH g)) % 16

/-- The level of ball SDM_CKg in the present tick: 8 ticks high from each rising edge, low otherwise and while EN is 0
(R208). -/
def State.ckLevel (s : State) (g : Fin 8) : Bool :=
  s.bit (F.SDM_CKCFG_EN g) && (match s.sdmCk[g] with
    | some k =>
      if k.first ≤ s.now then decide (s.now < s.ckLast g s.now + 8)
      else match k.old with
        | some e => decide (e ≤ s.now ∧ s.now < e + 8)
        | none => false
    | none => false)

/-! ## The waveform and the filters (R212, R214, R218) -/

/-- Value of the latest bit captured at or before a tick: +1 or −1 (R212). -/
def bitAt_ : List (Tick × Bool) → Tick → Int
  | [], _ => -1
  | (k, b) :: r, n => if k ≤ n then (if b then 1 else -1) else bitAt_ r n

/-- Number of pairs of counts with sum x. -/
def tri2 (x : Int) : Int := if x < 0 then 0 else (x + 1) * (x + 2) / 2

/-- The triple convolution of a box of W ones, at position j (R214). -/
def kern3 (w j : Nat) : Int :=
  tri2 j - 3 * tri2 ((j : Int) - w) + 3 * tri2 ((j : Int) - 2 * w) - tri2 ((j : Int) - 3 * w)

/-- The double convolution of a box of W ones, at position j (R218). -/
def kern2 (w j : Nat) : Int := if j < w then j + 1 else (2 * w - 1 : Int) - j

/-- Sum of kernel times waveform over `len` ticks, the last of them `last`; the waveform is read `adv` ticks ahead. -/
def convSum (h : Nat → Int) (bits : List (Tick × Bool)) (last : Tick) (adv : Nat) : Nat → Int
  | 0 => 0
  | len + 1 => convSum h bits last adv len + h len * bitAt_ bits (last + adv - len)

/-- Rounding of num/den to the nearest integer, halves away from zero (R217). -/
def roundAway (num : Int) (den : Nat) : Int :=
  let q : Int := ((2 * num.natAbs + den) / (2 * den) : Nat)
  if num < 0 then -q else q

/-- Scaling of y/den0 into Q1.30, and whether the result saturated (R217). -/
def State.sdmScale (s : State) (c : Fin 144) (y : Int) (den0 : Nat) : Int × Bool :=
  let g := s.getI (F.SDM_GAIN_GAIN c)
  let sh : Int := s.getI (F.SDM_SCALE_SHIFT c)
  let ofs := s.getI (F.SDM_OFS_OFS c)
  let den : Nat := 2 * den0 * 2 ^ 16
  let num : Int := y * g * 2 ^ (sh + 16).toNat + ofs * den
  let r := roundAway num den
  let q := clampI (-(2 ^ 31)) (2 ^ 31 - 1) r
  (q, q != r)

/-- A saturated result of tick t is flagged and counted (R217). -/
def State.sdmSat (s : State) (c : Fin 144) (sat : Bool) (t : Tick) : State :=
  if sat then
    (if t = s.now then s.raise (F.SDM_STAT_SAT c) else s.putB (F.SDM_STAT_SAT c) true).bump (F.SDM_CNT_SATCNT c)
  else s

def State.ocW (s : State) (c : Fin 144) : Nat := 16 * s.get (F.SDM_OSR_OCOSR c)

/-- The sinc2 result known at a tick: its kernel ends 5 ticks before, on the captured waveform (R218, R220: a step
asserts W' + 4 ticks after its first capture; log entry 14). -/
def State.ocResult (s : State) (c : Fin 144) (t : Tick) : Int × Bool :=
  let w := s.ocW c
  let y := convSum (kern2 w) (s.sdm c).bits (t - 5) 0 (2 * w - 1)
  s.sdmScale c y (w * w)

def State.ocValid (s : State) (c : Fin 144) : Bool := s.bit (F.SDM_STAT_OCVALID c)

/-- The peaks keep a result while OCVALID is 1 (R218). -/
def State.ocPeak (s : State) (c : Fin 144) (r : Int) : State :=
  if s.ocValid c then
    let s := if s.getI (F.SDM_PKHI_PEAK c) < r then s.putI (F.SDM_PKHI_PEAK c) r else s
    if r < s.getI (F.SDM_PKLO_PEAK c) then s.putI (F.SDM_PKLO_PEAK c) r else s
  else s

/-- One tick of the over-current filter: the result, its saturation and the peaks while OCVALID is 1 (R217, R218). -/
def State.ocTick (s : State) (c : Fin 144) (t : Tick) : State :=
  let (r, sat) := s.ocResult c t
  ((s.putI (F.SDM_OCRES_RES c) r).sdmSat c sat t).ocPeak c r

/-- The result of this tick raises the peaks again after a write to one of them (R470). -/
def State.ocPeakNow (s : State) (c : Fin 144) : State :=
  if s.sdmMode c = 0 ∨ !s.bit (F.SDM_CFG_OCEN c) then s else s.ocPeak c (s.ocResult c s.now).1

def State.ocTicks (s : State) (c : Fin 144) (t0 : Tick) : Nat → State
  | 0 => s
  | k + 1 => (s.ocTicks c t0 k).ocTick c (t0 + k + 1)

/-- Form the over-current results of every tick up to and including t (R218). -/
def State.ocSync (s : State) (c : Fin 144) (t : Tick) : State :=
  if s.sdmMode c = 0 ∨ !s.bit (F.SDM_CFG_OCEN c) ∨ t ≤ (s.sdm c).ocAt then s
  else
    let s' := s.ocTicks c (s.sdm c).ocAt (t - (s.sdm c).ocAt)
    s'.modSdm c (fun x => { x with ocAt := t })

/-! ## Conditions (R219, R223) -/

/-- Whether a condition is asserted in a tick. -/
def State.ocCond (s : State) (c : Fin 144) (cond : Cond) (t : Tick) : Bool :=
  if s.sdmMode c = 0 then false
  else if !s.ocValid c then s.bit (F.SDM_CFG_LOSSTRIP c)
  else if !s.bit (F.SDM_CFG_OCEN c) then false
  else
    let r := (s.ocResult c t).1
    match cond with
    | .h => decide (s.getI (F.SDM_OCHI_THR c) < r)
    | .l => decide (r < s.getI (F.SDM_OCLO_THR c))

/-- A condition takes the level of this tick (R219, R321: the logic sees it in the tick itself). -/
def State.ocCondSet (s : State) (c : Fin 144) (cond : Cond) : State :=
  let lvl := s.ocCond c cond s.now
  let s := match cond with
    | .h => s.putB (F.SDM_STAT_OCHI_ACT c) lvl
    | .l => s.putB (F.SDM_STAT_OCLO_ACT c) lvl
  (s.setCond (.sdm c) cond lvl s.now).activeUpdate (.sdm c)

def State.ocConds (s : State) (c : Fin 144) : State := (s.ocCondSet c .h).ocCondSet c .l

/-- The channel's sinc2 result crosses a threshold in this tick. -/
def State.overCurrent (s : State) (c : Fin 144) (cond : Cond) : State := (s.ocSync c s.now).ocCondSet c cond

/-! ## Set-up and history (R221) -/

/-- A history of the channel restarts from its full warm-up (R122, R221). -/
def State.sdmHistLost (s : State) (c : Fin 144) (a : SdmAwait) : State :=
  let s := s.ocSync c s.now
  let s := s.modSdm c (fun x => { x with await := a, histMain := none, histOc := none, restartMain := false })
  let s := s.putB (F.SDM_STAT_VALID c) false
  let s := s.putB (F.SDM_STAT_OCVALID c) false
  let s := s.setBit (F.SDM_RESSTAMP1_DATA c) 31 false
  let s := s.put (F.SDM_STAT_WARM c) 3
  s.ocConds c

/-- A channel is set up by the application of LEGTEAM (R223). -/
def State.sdmSetup (s : State) (c : Fin 144) : State :=
  if s.sdmMode c = 0 then s
  else (s.modSdm c (fun x => { x with ocAt := s.now })).sdmHistLost c .first

/-- Both histories start at a capture tick (R221). -/
def State.sdmHistStart (s : State) (c : Fin 144) (k : Tick) : State :=
  let s := s.modSdm c (fun x => { x with await := .none, histMain := some k, histOc := some k, restartMain := false })
  s.putB (F.SDM_STAT_LOCK c) true

/-- Longest stretch of bits any filter or delivery reaches back to, in ticks. -/
def sdmKeep : Nat := 20000

/-- Keep the bits that a filter can still read, and the one in force at the edge. -/
def trimBits (t : Tick) : List (Tick × Bool) → List (Tick × Bool)
  | [] => []
  | (k, b) :: r => if k + sdmKeep < t then [(k, b)] else (k, b) :: trimBits t r

/-- A bit enters the waveform at its capture tick (R210, R211, R221, R222). -/
def State.sdmBit (s : State) (c : Fin 144) (k : Tick) (b : Bool) : State :=
  let s := s.ocSync c (k - 1)
  let x := s.sdm c
  let differs := x.runLen = 0 ∨ x.runVal ≠ b
  let s := s.modSdm c (fun x => { x with
    bits := (k, b) :: trimBits k x.bits, runVal := b, runLen := if x.runVal = b then x.runLen + 1 else 1 })
  match x.await with
  | .first => if s.sdmMode c = sdmCLOCKED then s.sdmHistStart c k else s
  | .differs => if differs then s.sdmHistStart c k else s
  | .relock => s
  | .none => if x.restartMain then s.modSdm c (fun y => { y with histMain := some k, restartMain := false }) else s

/-- Clocked capture of one bit, CAPDLY ticks after a rising edge of its clock (R210); `trans` are the ticks since the
last capture, counted from the rising edge modulo 16, at which the input moved. -/
def State.captureClocked (s : State) (c : Fin 144) (level : Bool) (trans : List Nat) : State :=
  match finOf 8 (s.get (F.SDM_CFG_CKSEL c)) with
  | none => s
  | some g =>
    let dly := s.get (F.SDM_CFG_CAPDLY c)
    if s.sdmMode c = sdmCLOCKED ∧ dly ≤ s.now ∧ s.ckRise g (s.now - dly) then
      let s := each trans (fun i s => s.raiseBit (F.SDM_EYE_MASK c) (i % 16)) s
      s.sdmBit c s.now (level != s.bit (F.SDM_CFG_POL c))
    else s

/-- Mean of the bit periods between the instants kept, at most the last 16, in fine steps (R211, R228; log entry 98). -/
def manPeriod (mids : List Fine) : Option Nat :=
  match mids, mids.getLast? with
  | a :: _ :: _, some b => some ((a - b) / (mids.length - 1))
  | _, _ => none

/-- A mid-bit transition continues the run of an unlocked decoder: its bit period is accepted, and it comes within 0.75
mean periods of its expected instant (R211; log entry 98). -/
def manValid (mids : List Fine) (mid : Fine) : Bool :=
  match mids with
  | [] => true
  | m :: _ =>
    let d := mid - m
    decide (15 * 256 ≤ d ∧ d ≤ 62 * 256) && (match manPeriod mids with
      | some p => decide (4 * d ≤ 7 * p ∧ p ≤ 4 * d)
      | none => true)

/-- The bits decoded in a row after one more transition (R211). -/
def SdmSt.run (x : SdmSt) (mid : Fine) : Nat := if x.locked || manValid x.mids mid then x.good + 1 else 1

/-- The instants of the run after one more transition. -/
def SdmSt.runMids (x : SdmSt) (mid : Fine) : List Fine :=
  if x.locked || manValid x.mids mid then (mid :: x.mids).take 17 else [mid]

/-- Manchester capture of one bit: `fine` is the position of its mid-bit transition in the tick two before; the decoder
locks after 16 consecutive valid bits (R211). -/
def State.captureMan (s : State) (c : Fin 144) (rising : Bool) (fine : Nat) : State :=
  if s.sdmMode c ≠ sdmMANCHESTER then s
  else
    let mid := s.nowF - 512 + fine % 256
    let s := s.modSdm c (fun x => { x with mids := x.runMids mid, errs := 0, good := x.run mid })
    let was := (s.sdm c).locked
    let lock := was || decide (16 ≤ (s.sdm c).good)
    let s := s.modSdm c (fun x => { x with locked := lock })
    let s := s.putB (F.SDM_STAT_LOCK c) lock
    let s := if lock then s.put (F.SDM_MANPER_PER c) ((manPeriod (s.sdm c).mids).getD 0) else s
    let s := s.sdmBit c s.now (rising != s.bit (F.SDM_CFG_POL c))
    if lock && (s.sdm c).await != .none then s.sdmHistStart c s.now else s

/-- A mid-bit transition is missing 0.75 bit periods after its expected instant: the previous value is taken (R211).  Only
a locked decoder expects one (log entry 98). -/
def State.decodeError (s : State) (c : Fin 144) : State :=
  match (s.sdm c).mids, manPeriod (s.sdm c).mids with
  | m :: _, some p =>
    if s.sdmMode c = sdmMANCHESTER ∧ (s.sdm c).locked ∧ m + p + 3 * p / 4 ≤ s.nowF then
      let s := s.bumpSat (F.SDM_ERRCNT_DECERR c)
      let s := s.modSdm c (fun x => { x with mids := ((m + p) :: x.mids).take 17, errs := x.errs + 1, good := 0 })
      s.sdmBit c s.now (s.sdm c).runVal
    else s
  | _, _ => s

/-! ## Loss (R222, R227) -/

def sdSTUCK : Nat := 1
def sdMANERR : Nat := 2
def sdMANRATE : Nat := 3

/-- Whether a cause of R222 stands; the spec gives the loss of decoder lock no condition beside the others (log entry 98). -/
def State.lossDue (s : State) (c : Fin 144) (det : Nat) : Bool :=
  let x := s.sdm c
  if det = sdSTUCK then s.sdmMode c == sdmCLOCKED && x.await == .none && decide (s.get (F.SDM_CFG_RUNMAX c) < x.runLen)
  else if det = sdMANERR then
    s.sdmMode c == sdmMANCHESTER && x.locked && decide (s.get (F.SDM_CFG_ERRMAX c) ≤ x.errs)
  else if det = sdMANRATE then
    s.sdmMode c == sdmMANCHESTER && x.locked && (match manPeriod x.mids with
      | some p => decide (p < 15 * 256 ∨ 62 * 256 < p)
      | none => false)
  else false

/-- A bitstream loss is declared in this tick (R222). -/
def State.sdmLoss (s : State) (c : Fin 144) (det : Nat) : State :=
  if s.lossDue c det then
    let s := s.record (fcode cSENSE det) c
    let s := s.raise (F.SDM_STAT_LOSS c)
    let s := s.bumpSat (F.SDM_ERRCNT_LOSSCNT c)
    if det = sdSTUCK then s.sdmHistLost c .differs
    else
      let s := s.modSdm c (fun x => { x with locked := false, good := 0, errs := 0, mids := [] })
      let s := (s.putB (F.SDM_STAT_LOCK c) false).put (F.SDM_MANPER_PER c) 0
      s.sdmHistLost c .relock
  else s

/-- The over-current filter has run its two periods (R122): OCVALID is set, and the conditions follow the result. -/
def State.ocWarm (s : State) (c : Fin 144) : State :=
  match (s.sdm c).histOc with
  | some h =>
    if h + 2 * s.ocW c ≤ s.now ∧ !s.ocValid c then
      (((s.ocSync c (s.now - 1)).putB (F.SDM_STAT_OCVALID c) true).ocSync c s.now).ocConds c
    else s
  | none => s

/-- Decimation periods of the main filter still to run (R228 WARM). -/
def State.sdmWarm (s : State) (c : Fin 144) : Nat :=
  match (s.sdm c).histMain with
  | none => 3
  | some h => 3 - min 3 ((s.now - h) / (16 * s.get (F.SDM_OSR_OSR c)))

/-! ## Marking and delivery (R213 to R216) -/

/-- A converter trigger at instant x, of compare C, D or both, marks a channel (R213, R215). -/
def State.markChan (s : State) (c : Fin 144) (isC isD : Bool) (x : Fine) : State :=
  let src := s.get (F.SDM_TRG_SRC c)
  if s.sdmMode c = 0 ∨ !((isC && src % 2 == 1) || (isD && src / 2 == 1)) then s
  else
    let t := (x + 128) / 256
    let skip := match (s.sdm c).lastMark with
      | some p => decide (t < p + 64)
      | none => false
    if skip then (s.raise (F.SDM_STAT_TRG_SKIP c)).bump (F.SDM_CNT_SKIPCNT c)
    else
      let osr := s.get (F.SDM_OSR_OSR c)
      let d := t + 24 * osr + s.get (F.SDM_OSR_TADJ c) + 8
      s.modSdm c (fun y => { y with
        lastMark := some t,
        marks := y.marks ++ [{ centre := t, deliver := d, osr := osr, stamp := s.stampOf (256 * t) }] })

/-- The channels that a leg's triggers mark. -/
def State.legChans (s : State) (n : Fin 72) : List (Fin 144) :=
  allChans.filter (fun c => s.get (F.SDM_TRG_LEG c) == n.val)

/-- Compare C or D raises a converter trigger (R140): its record, the marked channels, and, on the lead leg, the
team's sample release (R216). -/
def State.converterTrigger (s : State) (n : Fin 72) (c d : Option Fine) : State :=
  let c := c.filter (fun x => s.trigAt n true x)
  let d := d.filter (fun x => s.trigAt n false x)
  match (match c with | some x => some x | none => d) with
  | none => s
  | some x =>
    let s := s.legTrigger n c d
    let s := each (s.legChans n) (fun k s => s.markChan k c.isSome d.isSome x) s
    s.withTeam n fun t =>
      if s.leadLeg t = some n then
        s.modTeam t (fun m => { m with
          rels := m.rels ++ [(x / 256 + s.get (F.SDM_TEAMDLY_DLY t), m.trgSeen == 0)], trgSeen := m.trgSeen + 1 })
      else s

/-- The sample of a marked centre (R214): the sinc3 sum, scaled, and its VALID under R221. -/
def State.sdmSample (s : State) (c : Fin 144) (m : SdmMark) : Int × Bool × Bool :=
  let w := 16 * m.osr
  let y := convSum (kern3 w) (s.sdm c).bits (m.centre + 24 * m.osr - 2) (s.get (F.SDM_OSR_TADJ c)) (3 * w - 2)
  let (r, sat) := s.sdmScale c y (w * w * w)
  let valid := match (s.sdm c).histMain with
    | some h => decide ((h : Int) ≤ (m.centre : Int) + 24 * m.osr - 2 - (3 * w - 3))
    | none => false
  (r, sat, valid)

/-- One marked sample is delivered (R214, R217, R221); a sample that is not VALID carries no meaning, and its value is a
free value (R122, log entry 3), while its saturation is that of the sum. -/
def State.sdmDeliverOne (s : State) (c : Fin 144) (m : SdmMark) : State :=
  let (r, sat, valid) := s.sdmSample c m
  let s := if valid then s.putI (F.SDM_RES_DATA c) r
    else (let (w, s) := s.free
          s.wr (A.SDM_RES c) w)
  let s := s.sdmSat c sat s.now
  let s := s.wr (A.SDM_RESSTAMP0 c) (BitVec.ofNat 32 m.stamp)
  let s := s.wr (A.SDM_RESSTAMP1 c) (BitVec.ofNat 32 (m.stamp / 2 ^ 32 % 256 + b2n valid * 2 ^ 31))
  s.putB (F.SDM_STAT_VALID c) valid

/-- The marked samples whose delivery falls in this tick are delivered, in the order of their marks (R214).  A change of
OSR may put a later mark's delivery first. -/
def State.sdmDeliver (s : State) (c : Fin 144) : State :=
  let ms := (s.sdm c).marks
  let s := s.modSdm c (fun x => { x with marks := x.marks.filter (fun m => decide (s.now < m.deliver)) })
  each (ms.filter (fun m => m.deliver == s.now)) (fun m s => s.sdmDeliverOne c m) s

/-- The sense delay of a team (R216). -/
def State.teamDly (s : State) (t : Fin 24) : State :=
  let d := (s.teamChans t).foldl (fun a c => max a (24 * s.get (F.SDM_OSR_OSR c) + s.get (F.SDM_OSR_TADJ c) + 8)) 0
  s.put (F.SDM_TEAMDLY_DLY t) d

/-- A write to SDM_OSR.OSR (R224): refused while the bound team is in RUN, else the main history restarts, and the channel
reads VALID = 0 until its next VALID sample (R122, R226). -/
def State.osrWrite (s : State) (c : Fin 144) (osr : Nat) : State :=
  let t := s.sdmTeam c
  let run := match t with
    | some t => s.tstate t == stRUN
    | none => false
  if run then s.raise (F.SDM_STAT_WR_REF c)
  else
    let s := s.put (F.SDM_OSR_OSR c) (clampN 32 256 osr)
    let s := s.modSdm c (fun x => { x with
      histMain := none, restartMain := x.await == .none || x.restartMain })
    let s := s.putB (F.SDM_STAT_VALID c) false
    let s := s.put (F.SDM_STAT_WARM c) 3
    match t with
    | some t => s.teamDly t
    | none => s

/-- Every bound channel's two filters are VALID (R123). -/
def State.teamSensed (s : State) (t : Fin 24) : Bool :=
  (s.teamChans t).all (fun c => s.bit (F.SDM_STAT_VALID c) && s.ocValid c)

/-- A device-time step re-phases every running clock, and the channels it captures restart their warm-up (R209). -/
def State.sdmRephase (s : State) (g : Fin 8) (last : Tick) : State :=
  match s.sdmCk[g] with
  | none => s
  | some k =>
    let old := if k.first ≤ last then some last else none
    let s := { s with sdmCk := s.sdmCk.set g (some { first := s.ckFirst g (last + 16), old := old }) }
    each (allChans.filter (fun c => s.sdmMode c == sdmCLOCKED && s.get (F.SDM_CFG_CKSEL c) == g.val))
      (fun c s => s.sdmHistLost c .first) s

end Sys2Proof.Machine
end

