-- ==== Sys2Proof/Machine/Fbk.lean ====
section
/-!
DEFINITION. Position and speed feedback (chapter 11): counting, speed, index, probe, compares, emulation outputs, loss and
the fallback ladder.
-/
namespace Sys2Proof.Machine

def State.port (s : State) (p : Fin 8) : PortSt := s.fbk[p]

/-- Modes of R282. -/
def fmOFF : Nat := 0
def fmQUAD : Nat := 1
def fmPULSEDIR : Nat := 2
def fmHALL : Nat := 3
def fmSSI : Nat := 4

/-- Sector of a valid Hall code. -/
def State.hallSector (s : State) (p : Fin 8) (code : Nat) : Nat := bitsGet (s.rd (A.FBK_HALLMAP p)) (3 * code) 3

/-- The map is a permutation of 0 to 5 (R288). -/
def State.hallPerm (s : State) (p : Fin 8) : Bool :=
  let l := (List.range 6).map (fun c => s.hallSector p (c + 1))
  (List.range 6).all (fun v => l.contains v)

/-- The mode in force: a port whose Hall map was refused at Paddock lock behaves as OFF (R288). -/
def State.fbkMode (s : State) (p : Fin 8) : Nat :=
  let m := s.get (F.FBK_CFG_MODE p)
  if m = fmHALL ∧ s.bit (F.FBK_STAT_CFGERR p) ∧ !s.hallPerm p then fmOFF else m

def isEdgeMode (m : Nat) : Bool := m == 1 || m == 2 || m == 3

/-- The bound team of a port (R283). -/
def State.fbkTeam (s : State) (p : Fin 8) : Option (Fin 24) := finOf 24 (s.get (F.FBK_CFG_TEAM p))

/-- The device's yoke role is ACTIVE (R343). -/
def State.roleActive (s : State) : Bool := s.get F.YOK_STAT_ROLE == 4

/-- The extended position (R286). -/
def State.extPos (s : State) (p : Fin 8) : Int := wInt (s.rd (A.FBK_POS1 p)) * 2 ^ 32 + (s.rd (A.FBK_POS0 p)).toNat

/-! ## Speed as read (R292, R293) -/

/-- The speed a count change over a span gives (R292). -/
def State.spdOf (s : State) (p : Fin 8) (dc : Int) (d : Nat) : Int :=
  roundAway (dc * s.get (F.FBK_SPDK_K p) * 2 ^ 22) d

/-- The speed with its decay, as FBK_SPD and input KIND 0x4 read it (R293); a loss keeps the last value (R304). -/
def State.fbkSpeed (s : State) (p : Fin 8) : Int :=
  let x := s.port p
  let v := wInt (s.rd (A.FBK_SPD p))
  match x.lastEv with
  | none => v
  | some e =>
    let tau := s.now - e
    if isEdgeMode (s.fbkMode p) ∧ s.bit (F.FBK_STAT_SPDVALID p) ∧ 0 < x.spanN ∧ x.delta < tau * x.spanN then
      let m := min v.natAbs (s.spdOf p 1 tau).natAbs
      if m < s.get (F.FBK_SPDMIN_MIN p) then 0 else if v < 0 then -m else m
    else v

/-- The magnitude of the team's motion estimate, as state memory held it after the last commit (R303). -/
def State.motWord (s : State) (p : Fin 8) : Nat := (s.port p).mot

/-- The observer and the motion estimate of the bound team show motion (R303). -/
def State.motShown (s : State) (p : Fin 8) : Bool :=
  s.bit (F.FBK_MOTWORD_EN p) && (match s.fbkTeam p with
    | some t => s.bit (F.CE_OBS_VALID t)
    | none => false) && decide (s.get (F.FBK_FRZCFG_FRZSPD p) * 65536 ≤ s.motWord p)

/-- A commit has taken effect: the port reads the state word (R303). -/
def State.motSee (s : State) (p : Fin 8) : State :=
  let s := s.modPort p (fun x => { x with
    mot := (wInt (s.memGet (K.state (s.get (F.FBK_MOTWORD_SWORD p))))).natAbs })
  let on := s.motShown p
  s.modPort p (fun x => { x with motFrom := if on then (match x.motFrom with | some t => some t | none => some s.now) else none })

/-- The crossover speed (R306). -/
def State.xover (s : State) (p : Fin 8) : Nat := s.get (F.FBK_RATED_RATED p) * s.get (F.FBK_LADCFG_XOVER p) / 65536

/-! ## Emulation outputs (R301, R302) -/

def State.outSrcPort (s : State) (m : Fin 2) : Fin 8 :=
  ⟨s.get (F.FBO_CFG_SRC m) % 8, Nat.mod_lt _ (by decide)⟩

/-- N and M of an output: 1 and 1 for a PASS output. -/
def State.outRatio (s : State) (m : Fin 2) : Nat × Nat :=
  if s.get (F.FBO_CFG_MODE m) = 1 then (1, 1) else (s.get (F.FBO_RATIO_N m), max 1 (s.get (F.FBO_RATIO_M m)))

/-- The estimated count of the source, extrapolated from its last speed (R301). -/
def State.outEstCount (s : State) (p : Fin 8) : Int :=
  let x := s.port p
  match x.lastEv with
  | none => s.extPos p
  | some e => x.ext0 + wInt (s.rd (A.FBK_SPD p)) * ((s.now - e : Nat) : Int) / ((max 1 (s.get (F.FBK_SPDK_K p)) * 2 ^ 22 : Nat) : Int)

/-- The target before its offset, for a source of the target. -/
def State.outBase (s : State) (m : Fin 2) : OutSrc → Int
  | .off => 0
  | .pass => s.extPos (s.outSrcPort m)
  | .div => (s.extPos (s.outSrcPort m)) * (s.outRatio m).1 / (s.outRatio m).2
  | .est =>
    if s.bit (F.FBO_CFG_ESTSRC m) then (s.fbo[m]).unwrapped * s.get (F.FBO_ZN_ZN m) / 2 ^ 32
    else s.outEstCount (s.outSrcPort m) * (s.outRatio m).1 / (s.outRatio m).2

/-- What an output's mode and its source's state call for (R301). -/
def State.outWant (s : State) (m : Fin 2) : OutSrc :=
  let mode := s.get (F.FBO_CFG_MODE m)
  let p := s.outSrcPort m
  let lost := s.bit (F.FBO_CFG_FALLBK m) && s.bit (F.FBK_STAT_LOST p)
  if mode = 0 then .off
  else if mode = 3 then .est
  else if lost then .est
  else if mode = 2 then .div
  else if s.fbkMode p = fmHALL ∨ s.fbkMode p = fmSSI then .div
  else .pass

/-- A compare pulse stands on output m in a tick (R298). -/
def State.pulseOn (s : State) (m : Fin 2) (t : Tick) : Bool :=
  (List.finRange 8).any (fun p => (s.port p).pulses.toList.any (fun u => match u with
    | some (sel, a, b) => (sel / 2 ^ m.val) % 2 == 1 && decide (a ≤ t) && decide (t ≤ b)
    | none => false))

/-- The level of FBOm_Z: the output's own, ORed with the pulses of compares (R298). -/
def State.outZ (s : State) (m : Fin 2) : Bool := (s.fbo[m]).z || s.pulseOn m s.now

/-- The levels of an output follow its state: those of a PASS output the synchronised, unfiltered ones of its source; high
impedance reads as DRIVEN = 0 (R301, R302). -/
def State.outPins (s : State) (m : Fin 2) : State :=
  let o := s.fbo[m]
  let x := s.port (s.outSrcPort m)
  let zn := s.get (F.FBO_ZN_ZN m)
  let q := o.out % 4
  let catching := s.bit (F.FBO_STAT_CATCH m)
  let synth := o.cur == .div || o.cur == .est || catching
  let (a, b, z) : Bool × Bool × Bool :=
    if synth then (q == 1 || q == 2, q == 2 || q == 3, decide (0 < zn) && decide (o.out % (zn : Int) = 2))
    else if o.cur == .pass then (x.raw.a, x.raw.b, x.raw.z)
    else (false, false, false)
  let s := s.modOut m (fun o => { o with a := a, b := b, z := z })
  let s := s.putB (F.FBO_STAT_DRIVEN m) (!s.bit (F.FBO_CFG_ACTONLY m) || s.roleActive)
  let s := s.putB (F.FBO_STAT_SYNTH m) synth
  let s := s.putB (F.FBO_STAT_EST m) (o.cur == .est)
  s.wr (A.FBO_OUTCNT m) (wOfInt o.out)

/-- The target source of an output changes where its mode and its source's LOST call for it: off is set so that the
output count does not jump, and a return to PASS first converges (R302). -/
def State.outRefresh (s : State) (m : Fin 2) : State :=
  let o := s.fbo[m]
  let want := s.outWant m
  let catching := s.bit (F.FBO_STAT_CATCH m)
  if want = o.cur ∨ (want = .pass ∧ catching) then s.outPins m
  else if want = .pass ∧ (o.cur = .div ∨ o.cur = .est) then
    let base := s.outBase m .pass
    let off := 4 * ((o.out + 1 - base) / 4)
    let s := s.modOut m (fun o => { o with off := off, cur := .div })
    (s.putB (F.FBO_STAT_CATCH m) true).outPins m
  else
    let s := s.putB (F.FBO_STAT_CATCH m) false
    let s := s.modOut m (fun o => { o with
      cur := want, off := if want = .div ∨ want = .est then o.out - s.outBase m want else o.off })
    s.outPins m

def State.outsRefresh (s : State) : State := (s.outRefresh 0).outRefresh 1

/-- The unwrapped angle of an estimate read from a state word follows that word (R301). -/
def State.outAngle (s : State) (m : Fin 2) : State :=
  let w := s.memGet (K.state (s.get (F.FBO_ESTW_SWORD m)))
  s.modOut m (fun o => { o with angle := w, unwrapped := o.unwrapped + wInt (w - o.angle) })

/-- One tick of a synthesised output (R302). -/
def State.outStep (s : State) (m : Fin 2) : State :=
  let s := (s.outAngle m).outRefresh m
  let o := s.fbo[m]
  let catching := s.bit (F.FBO_STAT_CATCH m)
  if o.cur = .div ∨ o.cur = .est then
    let target := s.outBase m (if catching then .pass else o.cur) + o.off
    let s :=
      if s.get (F.FBO_CFG_SPACE m) ≤ s.now - o.lastStep ∧ o.out ≠ target then
        s.modOut m (fun o => { o with out := if target < o.out then o.out - 1 else o.out + 1, lastStep := s.now })
      else s
    let s := if catching && (s.fbo[m]).out == target then
        (s.modOut m (fun o => { o with cur := .pass })).putB (F.FBO_STAT_CATCH m) false
      else s
    s.outPins m
  else s

/-! ## Loss and the ladder (R303 to R309) -/

/-- The ladder acts on the bound team now (R306). -/
def State.ladderOn (s : State) (p : Fin 8) : Option (Fin 24) :=
  match s.fbkTeam p with
  | some t =>
    if s.tstate t = stRUN ∧ s.bit (F.FBK_CFG_LADEN p) ∧ s.get (F.CE_OBS_MODE t) ≠ 1 then some t else none
  | none => none

def ladCtx (p : Fin 8) (t : Fin 24) : Nat := p.val + t.val * 256

/-- The torque ramp begins (R307); a group member is dropped (R308). -/
def State.ladderRamp (s : State) (p : Fin 8) (t : Fin 24) : State :=
  let s := s.put (F.FBK_STAT_LADDER p) 2
  let s := s.modPort p (fun x => { x with rampAt := s.now })
  let s := s.put (F.FBK_RAMPF_F p) 0x10000
  (s.record (fcode cFEEDBACK 8) (ladCtx p t)).liveUpdate t

/-- The stage OBSERVER as it is examined in every tick (R307): what it looks at changes only at a loss, a qualifying event,
a position that becomes VALID and a commit, and there it is examined. -/
def State.ladderTick (s : State) (p : Fin 8) : State :=
  match s.ladderOn p with
  | none => s
  | some t =>
    if s.get (F.FBK_STAT_LADDER p) ≠ 1 then s
    else if s.bit (F.FBK_STAT_POSVALID p) ∧ s.bit (F.FBK_STAT_SPDVALID p) then s.put (F.FBK_STAT_LADDER p) 0
    else if !s.bit (F.CE_OBS_VALID t) ∨ s.motWord p ≤ s.xover p then s.ladderRamp p t
    else s

/-- The ladder at a loss, in stage NORMAL; the stage it enters is examined in the same tick (R307; log entry 100). -/
def State.ladderEntry (s : State) (p : Fin 8) (v : Nat) : State :=
  match s.ladderOn p with
  | none => s
  | some t =>
    if s.get (F.FBK_STAT_LADDER p) ≠ 0 then s
    else if s.xover p < v ∧ s.get (F.CE_OBS_MODE t) ≠ 0 ∧ s.bit (F.CE_OBS_VALID t) ∧ s.bit (F.FBK_MOTWORD_EN p) then
      ((s.put (F.FBK_STAT_LADDER p) 1).record (fcode cFEEDBACK 7) (ladCtx p t)).ladderTick p
    else s.ladderRamp p t

/-- A commit has taken effect: every port reads its motion word, and every ladder is examined (R303, R307). -/
def State.ladderTicks (s : State) : State := each (List.finRange 8) (fun p s => (s.motSee p).ladderTick p) s

def State.rampTicks (s : State) (p : Fin 8) : Nat := s.get (F.FBK_LADCFG_RAMPT p) * 20000

/-- f of R307 as FBK_RAMPF reads it. -/
def State.rampF (s : State) (p : Fin 8) : Nat :=
  let st := s.get (F.FBK_STAT_LADDER p)
  if st = 2 then
    let d := s.now - (s.port p).rampAt
    65536 * (s.rampTicks p - d) / (s.rampTicks p)
  else if st = 3 then 0 else 0x10000

/-- The torque ramp ends: the team enters HALTED at rank 4, and the ladder goes to ENDED when this cause acts (R307,
R310). -/
def State.ladderEnd (s : State) (p : Fin 8) : State :=
  match s.ladderOn p with
  | none => s
  | some t =>
    if s.get (F.FBK_STAT_LADDER p) = 2 ∧ s.rampTicks p ≤ s.now - (s.port p).rampAt then
      let s := (s.put (F.FBK_STAT_LADDER p) 3).put (F.FBK_RAMPF_F p) 0
      let s := s.record (fcode cFEEDBACK 9) (ladCtx p t)
      s.haltTeam t caFAULT (fcode cFEEDBACK 9)
    else s

/-- Details of R311. -/
def fdEDGE_TMO : Nat := 1
def fdINDEX_ERR : Nat := 2
def fdSSI_CRC : Nat := 3
def fdHALL_BAD : Nat := 4
def fdFROZEN : Nat := 5
def fdQUAD : Nat := 6

/-- The speed history restarts from its full warm-up (R122). -/
def State.spdRestart (s : State) (p : Fin 8) : State :=
  (s.modPort p (fun x => { x with evs := [], warm := 2, delta := 0, spanN := 0 })).putB (F.FBK_STAT_SPDVALID p) false

/-- A port declares a loss, stamped at a tick (R304). -/
def State.portLoss (s : State) (p : Fin 8) (det : Nat) (at_ : Tick) : State :=
  let lost := s.bit (F.FBK_STAT_LOST p)
  let v := (s.port p).spdEv.natAbs
  let s := if lost then s else s.recordAt (fcode cFEEDBACK det) p.val (s.stampOf (256 * at_)) 0
  let s := s.wr (A.FBK_SPD p) (wOfInt (s.fbkSpeed p))
  let s := (s.raise (F.FBK_STAT_LOSS p)).putB (F.FBK_STAT_LOST p) true
  let s := (s.putB (F.FBK_STAT_POSVALID p) false).spdRestart p
  let s := s.modPort p (fun x => { x with
    haveRef := false, ssiPrev := none, sector := none, frozen := x.frozen || det == fdFROZEN, lossAt := some s.now })
  (s.ladderEntry p v).outsRefresh

/-- Position becomes VALID through its warm-up, which clears LOST (R305). -/
def State.posValid (s : State) (p : Fin 8) : State :=
  if (s.port p).frozen then s
  else (((s.putB (F.FBK_STAT_POSVALID p) true).putB (F.FBK_STAT_LOST p) false).outsRefresh).ladderTick p

/-! ## Position compares (R298 to R300) -/

def cmpUnits : List (Fin 4) := List.finRange 4

/-- Signed 32-bit difference. -/
def sdiff (a b : Word) : Int := wInt (a - b)

/-- A target is behind (R299). -/
def State.unitBehind (s : State) (p : Fin 8) (k : Fin 4) : Bool :=
  if s.bit (F.FBK_STAT_ZERO p) || !s.bit (F.FBK_STAT_SPDVALID p) then false
  else
    let d := sdiff (s.rd (A.FBK_CMPTGT p k)) (s.rd (A.FBK_POS0 p))
    if s.bit (F.FBK_STAT_DIR p) then decide (0 < d) else decide (d ≤ 0)

/-- The effects of a firing but for the new target's evaluation (R298). -/
def State.unitFireBase (s : State) (p : Fin 8) (k : Fin 4) (stamp : Tick) : State :=
  let s := s.raise (F.FBK_CMPSTAT_FIRED p k)
  let s := s.bump (F.FBK_CMPSTAT_FIRECNT p k)
  let s := s.wr (A.FBK_CMPSTAMP p k) (BitVec.ofNat 32 (s.stampOf (256 * stamp)))
  let s := if s.bit (F.FBK_CMPCFG_EVT p k) then s.notify else s
  let out := s.get (F.FBK_CMPCFG_OUT p k)
  let s := if out = 0 then s
    else s.modPort p (fun x => { x with
      pulses := x.pulses.set k (some (out, s.now + 1, s.now + max 1 (s.get (F.FBK_CMPCFG_WIDTH p k)))) })
  if s.bit (F.FBK_CMPCFG_RELOAD p k) then
    s.wr (A.FBK_CMPTGT p k) (s.rd (A.FBK_CMPTGT p k) + s.rd (A.FBK_CMPINC p k))
  else s.putB (F.FBK_CMPCFG_EN p k) false

/-- BEHIND follows an evaluation (R299). -/
def State.unitMark (s : State) (p : Fin 8) (k : Fin 4) : State :=
  s.raiseIf (F.FBK_CMPSTAT_BEHIND p k) (s.unitBehind p k)

/-- A change of the count crosses a boundary (R298). -/
def crosses (p0 tgt : Word) (d : Int) : Bool :=
  let x := sdiff tgt p0
  (decide (0 < d) && decide (0 < x) && decide (x ≤ d)) || (decide (d < 0) && decide (d < x) && decide (x ≤ 0))

/-- The units that a change of the count fires (R298): armed, with the boundary crossed. -/
def State.crossed (s : State) (p : Fin 8) (p0 : Word) (d : Int) : List (Fin 4) :=
  cmpUnits.filter (fun k => s.bit (F.FBK_CMPCFG_EN p k) && crosses p0 (s.rd (A.FBK_CMPTGT p k)) d)

/-- A unit fires; a reloaded target is evaluated in the same tick, without a second firing (R298). -/
def State.unitFire (s : State) (p : Fin 8) (k : Fin 4) (stamp : Tick) : State :=
  let s := s.unitFireBase p k stamp
  if s.bit (F.FBK_CMPCFG_RELOAD p k) then s.unitMark p k else s

/-- A unit is evaluated (R299): behind with FIRE_NOW it fires at once. -/
def State.unitEval (s : State) (p : Fin 8) (k : Fin 4) : State :=
  if !s.bit (F.FBK_CMPCFG_EN p k) then s
  else
    let behind := s.unitBehind p k
    let s := s.raiseIf (F.FBK_CMPSTAT_BEHIND p k) behind
    if behind && s.bit (F.FBK_CMPCFG_POLICY p k) then s.unitFire p k s.now else s

/-- The wrap count follows a change of the count that passes from 0xFFFF_FFFF to 0 or back (R286). -/
def State.wrapCount (s : State) (p : Fin 8) (p0 : Word) (d : Int) : State :=
  s.wr (A.FBK_POS1 p) (s.rd (A.FBK_POS1 p) + wOfInt ((p0.toNat + d) / 2 ^ 32))

/-- A change of the count enters the history that a probe looks into; one stamped at or before the latest probe's stamp
corrects what that probe latched (R297, R310; log entry 100). -/
def State.histAdd (s : State) (p : Fin 8) (p0 w : Word) (stamp : Tick) : State :=
  let s := s.modPort p (fun x => { x with hist := ((stamp, p0, w) :: x.hist).take 64, changeAt := s.now })
  match (s.port p).prbAt with
  | some t => if stamp ≤ t then s.wr (A.FBK_PRBPOS p) w else s
  | none => s

/-- The count changes by δ at an accepted event, stamped, and units fire (R286, R298). -/
def State.portMove (s : State) (p : Fin 8) (d : Int) (stamp : Tick) : State :=
  if d = 0 then s
  else
    let p0 := s.rd (A.FBK_POS0 p)
    let w := wOfInt (p0.toNat + d)
    let s := (s.wr (A.FBK_POS0 p) w).wrapCount p p0 d
    let s := s.wr (A.FBK_POSSTAMP p) (BitVec.ofNat 32 (s.stampOf (256 * stamp)))
    let s := (s.modPort p (fun x => { x with frozen := false })).histAdd p p0 w stamp
    each (s.crossed p p0 (sdiff w p0)) (fun k s => s.unitFireBase p k stamp) s

/-- The count moves without crossing a boundary (R300): a unit whose boundary lies between sets SKIP, and the armed ones
are evaluated. -/
def State.portJump (s : State) (p : Fin 8) (w : Word) (stamp : Tick) : State :=
  let p0 := s.rd (A.FBK_POS0 p)
  if w = p0 then s
  else
    let s := s.wr (A.FBK_POS0 p) w
    let s := s.wr (A.FBK_POSSTAMP p) (BitVec.ofNat 32 (s.stampOf (256 * stamp)))
    let s := s.histAdd p p0 w stamp
    each cmpUnits (fun k s =>
      let s := if crosses p0 (s.rd (A.FBK_CMPTGT p k)) (sdiff w p0) then
          (s.raise (F.FBK_CMPSTAT_SKIP p k)).raise (F.FBK_STAT_CMPSKIP p)
        else s
      s.unitEval p k) s

/-! ## Speed and direction (R292, R294) -/

/-- A qualifying event enters the speed history (R292, R294): `d` is its change of the count, already applied. -/
def State.portEvent (s : State) (p : Fin 8) (d : Int) (stamp : Tick) : State :=
  let neg := s.bit (F.FBK_STAT_DIR p)
  let turn := (decide (d < 0) && !neg) || (decide (0 < d) && neg)
  let s := s.modPort p (fun x => { x with cum := x.cum + d, lastEv := some stamp, ext0 := s.extPos p })
  let cum := (s.port p).cum
  if turn then
    let s := (s.putB (F.FBK_STAT_DIR p) (!neg)).raise (F.FBK_STAT_DIRCHG p)
    let s := (s.notify).wr (A.FBK_SPD p) 0
    let s := s.spdRestart p
    let s := if s.fbkMode p = fmSSI then s.putB (F.FBK_STAT_ZERO p) (decide (0 < s.get (F.FBK_SPDMIN_MIN p))) else s
    s.modPort p (fun x => { x with evs := [(stamp, cum)], warm := 1, spdEv := 0 })
  else
    let s := s.modPort p (fun x => { x with evs := ((stamp, cum) :: x.evs).take 257, warm := x.warm - 1 })
    let x := s.port p
    let n := min (s.get (F.FBK_SPDCFG_SPAN p)) (x.evs.length - 1)
    match x.evs[n]? with
    | none => s
    | some (t0, c0) =>
      let delta := stamp - t0
      if n = 0 ∨ delta = 0 then s
      else
        let r := s.spdOf p (cum - c0) delta
        let q := clampI (-0x7FFFFFFF) 0x7FFFFFFF r
        let s := if q != r then s.raise (F.FBK_STAT_SPDSAT p) else s
        let s := s.wr (A.FBK_SPD p) (wOfInt q)
        let s := s.modPort p (fun x => { x with delta := delta, spanN := n, spdEv := q })
        let s := if x.warm = 0 then s.putB (F.FBK_STAT_SPDVALID p) true else s
        let zero := s.fbkMode p == fmSSI && decide (q.natAbs < s.get (F.FBK_SPDMIN_MIN p))
        (s.putB (F.FBK_STAT_ZERO p) zero).ladderTick p

/-- A qualifying event with its change of the count: position, compares, speed and direction, and then the reloaded targets
of the units that fired, against the direction after the event (R286, R292, R294, R298, R310). -/
def State.portStep (s : State) (p : Fin 8) (d : Int) (stamp : Tick) : State :=
  let p0 := s.rd (A.FBK_POS0 p)
  let fired : List (Fin 4) := if d = 0 then [] else s.crossed p p0 (sdiff (wOfInt (p0.toNat + d)) p0)
  let s := (s.portMove p d stamp).portEvent p d stamp
  each (fired.filter (fun (k : Fin 4) => s.bit (F.FBK_CMPCFG_RELOAD p k))) (fun (k : Fin 4) s => s.unitMark p k) s

/-! ## Index (R295, R296) -/

/-- The device's one of −N, 0, +N nearest to d. -/
def nearestTurn (n : Nat) (d : Int) : Int :=
  if 2 * d > n then n else if 2 * d < -(n : Int) then -(n : Int) else 0

/-- An index event at the present count (R296). -/
def State.indexEvent (s : State) (p : Fin 8) (stamp : Tick) : State :=
  let pos := s.rd (A.FBK_POS0 p)
  let s := s.wr (A.FBK_IDXPOS p) pos
  let s := s.bump (F.FBK_IDXCNT_EVENTS p)
  let idxn := s.get (F.FBK_IDXN_VALUE p)
  if !s.bit (F.FBK_STAT_POSVALID p) then
    if (s.port p).frozen then s
    else
      let r := s.rd (A.FBK_IDXREF p)
      let s := s.modPort p (fun x => { x with ref := r, haveRef := true })
      (s.portJump p r stamp).posValid p
  else if !(s.port p).haveRef then s.modPort p (fun x => { x with ref := pos, haveRef := true })
  else if idxn = 0 then s
  else
    let ref := (s.port p).ref
    let d := sdiff pos ref
    let e := nearestTurn idxn d
    if (d - e).natAbs ≤ s.get (F.FBK_IDXTOL_TOL p) then
      let ref2 := ref + wOfInt e
      let c := ref2 - pos
      let s := s.wr (A.FBK_IDXCOR p) c
      let s := s.modPort p (fun x => { x with ref := ref2 })
      let s := if c = 0 then s else s.raise (F.FBK_STAT_IDXCOR p)
      (s.wrapCount p pos (wInt c)).portJump p ref2 stamp
    else
      let s := s.wr (A.FBK_IDXCOR p) 0
      let s := (s.raise (F.FBK_STAT_IDXERR p)).bump (F.FBK_IDXCNT_ERRS p)
      s.portLoss p fdINDEX_ERR s.now

/-! ## Edge timeout and freeze (R303) -/

/-- τ of R293 exceeds the edge timeout at tick t (R303). -/
def State.edgeLate (s : State) (p : Fin 8) (t : Tick) : Bool :=
  let x := s.port p
  let sh := s.get (F.FBK_LOSSCFG_LOSSSH p)
  match x.lastEv with
  | some e =>
    isEdgeMode (s.fbkMode p) && sh != 0 && s.bit (F.FBK_STAT_SPDVALID p) && decide (0 < x.spanN)
      && decide (s.get (F.FBK_LOSSCFG_LOSSSPD p) * 65536 ≤ x.spdEv.natAbs) && decide (2 ^ sh * x.delta < (t - e) * x.spanN)
  | none => false

/-- The count has stood still for FRZT × 256 ticks up to tick t, and all that time the estimate showed motion (R303). -/
def State.stoodStill (s : State) (p : Fin 8) (t : Tick) : Bool :=
  let n := s.get (F.FBK_FRZCFG_FRZT p)
  s.fbkMode p != fmOFF && n != 0 && s.motShown p && decide ((s.port p).changeAt + n * 256 ≤ t)
    && (match (s.port p).motFrom with
      | some f => decide (f + n * 256 ≤ t)
      | none => false)

/-- A loss is declared in this tick, or falls due in it: an index event of the tick is ignored (R310). -/
def State.lossNow (s : State) (p : Fin 8) : Bool :=
  (s.port p).lossAt == some s.now || (s.edgeLate p s.now && !s.edgeLate p (s.now - 1))
    || (s.stoodStill p s.now && !s.stoodStill p (s.now - 1))

/-! ## Accepted edges (R284, R285, R288) -/

/-- A level that returned before acceptance (R284). -/
def State.glitch (s : State) (p : Fin 8) : State :=
  (s.raise (F.FBK_STAT_GLITCH p)).bumpSat (F.FBK_CNT_GLITCH p)

/-- Position in the sequence 00, 10, 11, 01. -/
def quadIdx (a b : Bool) : Nat := if a then (if b then 2 else 1) else (if b then 3 else 0)

/-- The counting direction after DIRINV. -/
def State.signed (s : State) (p : Fin 8) (d : Int) : Int := if s.bit (F.FBK_CFG_DIRINV p) then -d else d

/-- The index event of an accepted tick, if any (R295): levels before and after, direction after the count. -/
def State.isIndex (s : State) (p : Fin 8) (old new : PortSt) : Bool :=
  let act (z : Bool) : Bool := z != s.bit (F.FBK_CFG_ZPOL p)
  if s.fbkMode p = fmQUAD ∧ s.bit (F.FBK_CFG_IDXGATE p) then
    new.a && new.b && !(old.a && old.b) && act new.z
  else if s.bit (F.FBK_STAT_DIR p) then act old.z && !act new.z
  else !act old.z && act new.z

/-- QUAD and PULSEDIR: the count, then the index, which a loss of the same tick overrides (R285, R295, R310). -/
def State.edgeCount (s : State) (p : Fin 8) (old new : PortSt) (stamp : Tick) : State :=
  let quad := s.fbkMode p == fmQUAD
  let diff := (quadIdx new.a new.b + 4 - quadIdx old.a old.b) % 4
  if quad && diff == 2 then
    ((s.raise (F.FBK_STAT_QERR p)).portLoss p fdQUAD s.now)
  else
    let d : Int := if quad then (if diff = 1 then 1 else if diff = 3 then -1 else 0)
      else if !old.a && new.a then (if new.b then -1 else 1) else 0
    let s := if d = 0 then s else
      let d := s.signed p d
      s.portStep p d stamp
    if s.isIndex p old new && !s.lossNow p then s.indexEvent p stamp else s

/-- HALL: the code at an acceptance tick (R288). -/
def State.hallCode (s : State) (p : Fin 8) (code : Nat) (stamp : Tick) : State :=
  if code = 0 ∨ code = 7 then
    s.modPort p (fun x => { x with hallBad := some s.now })
  else
    let s := s.modPort p (fun x => { x with hallBad := none })
    let sec := s.hallSector p code
    match (s.port p).sector with
    | none =>
      let s := s.modPort p (fun x => { x with sector := some sec, frozen := x.frozen && s.rd (A.FBK_POS0 p) == BitVec.ofNat 32 sec })
      (s.portJump p (BitVec.ofNat 32 sec) stamp).posValid p
    | some old =>
      let diff := (sec + 6 - old) % 6
      if diff = 0 then s
      else if diff = 3 then
        (s.raise (F.FBK_STAT_HALLBAD p)).portLoss p fdHALL_BAD s.now
      else
        let d := s.signed p (if diff = 1 then 1 else if diff = 2 then 2 else if diff = 4 then -2 else -1)
        let s := s.modPort p (fun x => { x with sector := some sec })
        let s := s.portStep p d stamp
        let s := if s.bit (F.FBK_STAT_POSVALID p) then s else s.posValid p
        if d.natAbs = 2 then
          ((s.raise (F.FBK_STAT_HSKIP p)).bumpSat (F.FBK_CNT_HSKIP p)).spdRestart p
        else s

/-- A HALL code of 000 or 111 is still held 32 ticks after its acceptance (R288). -/
def State.hallTimeout (s : State) (p : Fin 8) : State :=
  match (s.port p).hallBad with
  | some t0 =>
    if s.fbkMode p = fmHALL ∧ t0 + 32 ≤ s.now then
      let s := s.modPort p (fun x => { x with hallBad := none })
      (s.raise (F.FBK_STAT_HALLBAD p)).portLoss p fdHALL_BAD t0
    else s
  | none => s

/-- What the inputs of a port bring in this tick (R284): `acc`, the levels the filters have accepted, stamped FILT + 2
ticks back; `raw`, the levels as synchronised; `rej`, on how many inputs a level has returned before acceptance. -/
def State.edgeAccept (s : State) (p : Fin 8) (acc raw : Abz) (rej : Nat) : State :=
  let mode := s.fbkMode p
  if !isEdgeMode mode then s
  else
    let stamp := s.now - s.get (F.FBK_CFG_FILT p) - 2
    let old := s.port p
    let s := each (List.range rej) (fun _ s => s.glitch p) s
    let s := s.modPort p (fun x => { x with a := acc.a, b := acc.b, z := acc.z, raw := raw })
    let new := s.port p
    let s :=
      if (old.a, old.b, old.z) = (acc.a, acc.b, acc.z) then s
      else if mode = fmHALL then
        s.hallCode p ((if acc.a then 4 else 0) + (if acc.b then 2 else 0) + (if acc.z then 1 else 0)) stamp
      else s.edgeCount p old new stamp
    s.outsRefresh

/-! ## Firmware position set (R287) -/

def State.positionSet (s : State) (p : Fin 8) (v : Word) : State :=
  let s := s.modPort p (fun x => { x with haveRef := false })
  (s.portJump p v s.now).posValid p

/-! ## Speed zero, timeouts, freeze (R293, R303) -/

/-- Whether the decayed speed lies below FBK_SPDMIN. -/
def State.spdDecayed (s : State) (p : Fin 8) : Bool :=
  let x := s.port p
  match x.lastEv with
  | some e =>
    let tau := s.now - e
    isEdgeMode (s.fbkMode p) && s.bit (F.FBK_STAT_SPDVALID p) && decide (0 < x.spanN) && decide (x.delta < tau * x.spanN)
      && decide (min x.spdEv.natAbs (s.spdOf p 1 tau).natAbs < s.get (F.FBK_SPDMIN_MIN p))
  | none => false

def State.speedZero (s : State) (p : Fin 8) : State :=
  if s.spdDecayed p then s.putB (F.FBK_STAT_ZERO p) true else s

def State.edgeTimeout (s : State) (p : Fin 8) : State :=
  if s.edgeLate p s.now then s.portLoss p fdEDGE_TMO s.now else s

def State.freezeDetect (s : State) (p : Fin 8) : State :=
  if s.stoodStill p s.now then (s.raise (F.FBK_STAT_FROZEN p)).portLoss p fdFROZEN s.now else s

/-! ## Probe (R297) -/

/-- The position in effect at a stamp: after the newest change stamped at or before it, else before the oldest; `d`, the
position before the changes of the list are undone. -/
def posAt : List (Tick × Word × Word) → Tick → Word → Word
  | [], _, d => d
  | (t, before, after) :: r, x, _ => if t ≤ x then after else posAt r x before

def State.probeLatch (s : State) (p : Fin 8) (level : Bool) : State :=
  if s.fbkMode p = fmOFF ∨ (s.port p).prb = level then s
  else
    let s := s.modPort p (fun x => { x with prb := level })
    let edge := s.get (F.FBK_PRBCFG_EDGE p)
    let sel := if level then edge % 2 == 1 else edge / 2 == 1
    if !s.bit (F.FBK_PRBCFG_ARM p) || !sel then s
    else
      let stamp := s.now - s.get (F.FBK_PRBCFG_FILT p) - 2
      let d := s.stampOf (256 * stamp)
      let s := s.wr (A.FBK_PRBPOS p) (posAt (s.port p).hist stamp (s.rd (A.FBK_POS0 p)))
      let s := s.modPort p (fun x => { x with prbAt := some stamp })
      let s := s.wr (A.FBK_PRBSTAMP0 p) (BitVec.ofNat 32 d)
      let s := s.wr (A.FBK_PRBSTAMP1 p) (BitVec.ofNat 32
        (d / 2 ^ 32 % 256 + b2n level * 2 ^ 30 + b2n (s.bit (F.FBK_STAT_POSVALID p)) * 2 ^ 31))
      let cont := s.bit (F.FBK_PRBCFG_CONT p)
      let s := if cont && s.bit (F.FBK_STAT_PRB p) then s.raise (F.FBK_STAT_PRBOVR p) else s
      let s := s.raise (F.FBK_STAT_PRB p)
      let s := if cont then s else s.putB (F.FBK_PRBCFG_ARM p) false
      s.notify

/-! ## SSI (R289 to R291) -/

def State.ssiBits (s : State) (p : Fin 8) : Nat :=
  s.get (F.FBK_SSIFMT_POSW p) + s.get (F.FBK_SSIFMT_ERRW p) + s.get (F.FBK_SSIFMT_CRCW p)

/-- The leg trigger selected by FBK_SSIREQ, rounded to a tick, falls in this tick (R289). -/
def State.ssiTrig (s : State) (p : Fin 8) : Bool :=
  match finOf 72 (s.get (F.FBK_SSIREQ_LEG p)) with
  | some n =>
    let st := (s.rd (A.LEG_TRGLAST0 n)).toNat + s.get ⟨A.LEG_TRGLAST1 n, 0, 8⟩ * 2 ^ 32
    let src := s.get ⟨A.LEG_TRGLAST1 n, 8, 2⟩
    let sel := s.get (F.FBK_SSIREQ_TRGSEL p)
    Nat.land src sel != 0 && ((st + 128) / 256) % 2 ^ 32 == s.devTick s.now % 2 ^ 32
  | none => false

/-- A frame runs or recovers. -/
def State.ssiBusy (s : State) (p : Fin 8) : Bool :=
  (s.port p).ssiT0.isSome || decide (s.now < (s.port p).ssiEnd + s.get (F.FBK_SSIREQ_RECOV p))

/-- A bad frame (R290). -/
def State.ssiBad (s : State) (p : Fin 8) : State :=
  let s := (s.raise (F.FBK_STAT_SSIERR p)).bumpSat (F.FBK_SSICNT_ERR p)
  let n := (s.port p).crcBad + 1
  let s := s.modPort p (fun x => { x with crcBad := n })
  if n = s.get (F.FBK_LOSSCFG_CRCMAX p) then s.portLoss p fdSSI_CRC s.now else s

/-- A request for a frame (R289); `dat` is the level of FBp_DAT one tick before.  A role change takes effect at the first
request that falls outside a frame (R291; log entry 100). -/
def State.ssiStart (s : State) (p : Fin 8) (dat : Bool) : State :=
  let s := if (s.port p).ssiT0.isSome then s else s.modPort p (fun x => { x with ssiDrive := s.roleActive })
  if s.bit (F.FBK_SSIREQ_YOKSHARE p) && !(s.port p).ssiDrive then s
  else if s.ssiBusy p then s.bumpSat (F.FBK_SSICNT_SKIP p)
  else if !dat then s.ssiBad p
  else
    (s.modPort p (fun x => { x with ssiT0 := some s.now, ssiPartner := false })).putB (F.FBK_STAT_SSIBUSY p) true

/-- A trigger or periodic request (R289). -/
def State.ssiRequest (s : State) (p : Fin 8) (dat : Bool) : State :=
  let src := s.get (F.FBK_SSIREQ_SRC p)
  if s.fbkMode p ≠ fmSSI then s
  else if src = 1 then (if s.ssiTrig p then s.ssiStart p dat else s)
  else if src = 2 then
    let per := s.get (F.FBK_SSIPER_PER p)
    if per ≠ 0 ∧ (s.port p).ssiNext = some s.now then
      (s.modPort p (fun x => { x with ssiNext := some (s.now + per) })).ssiStart p dat
    else s
  else s

/-- A write of 1 to GO (R289). -/
def State.ssiGo (s : State) (p : Fin 8) (dat : Bool) : State :=
  if s.fbkMode p = fmSSI ∧ s.get (F.FBK_SSIREQ_SRC p) = 3 then s.ssiStart p dat else s

/-- A partner's clock starts a frame that the port decodes (R291). -/
def State.ssiPartnerStart (s : State) (p : Fin 8) : State :=
  if s.fbkMode p = fmSSI ∧ s.bit (F.FBK_SSIREQ_YOKSHARE p) ∧ !(s.port p).ssiDrive ∧ (s.port p).ssiT0 = none then
    (s.modPort p (fun x => { x with ssiT0 := some s.now, ssiPartner := true })).putB (F.FBK_STAT_SSIBUSY p) true
  else s

/-- Gray code to binary, over n bits. -/
def grayDecode : Nat → Nat → Nat
  | 0, _ => 0
  | n + 1, g =>
    let hi := grayDecode n (g / 2)
    2 * hi + (hi % 2 + g) % 2

/-- CRC register step of a width, polynomial and input bit. -/
def crcStep (w poly reg bit : Nat) : Nat :=
  let top := (reg / 2 ^ (w - 1) + bit) % 2
  let sh := (reg * 2) % 2 ^ w
  if top = 1 then Nat.xor sh (poly % 2 ^ w) else sh

/-- CRC over the top `len` bits of a value, most significant first. -/
def crcBits (w poly : Nat) (reg v : Nat) : Nat → Nat
  | 0 => reg
  | len + 1 => crcBits w poly (crcStep w poly reg ((v / 2 ^ len) % 2)) v len

/-- The frame's bits are good (R290). -/
def State.ssiGood (s : State) (p : Fin 8) (bits : Nat) : Bool :=
  let posw := s.get (F.FBK_SSIFMT_POSW p)
  let errw := s.get (F.FBK_SSIFMT_ERRW p)
  let cw := s.get (F.FBK_SSIFMT_CRCW p)
  let body := bits / 2 ^ cw
  let rx := bits % 2 ^ cw
  let rx := if s.bit (F.FBK_SSIFMT_CRCINV p) then 2 ^ cw - 1 - rx else rx
  let crc := crcBits cw (s.get (F.FBK_SSICRC_POLY p)) (s.get (F.FBK_SSICRC_INIT p) % 2 ^ cw) body (posw + errw)
  let pol := s.get (F.FBK_SSIFMT_ERRPOL p)
  (cw == 0 || crc == rx) && (List.range errw).all (fun i => (body / 2 ^ i) % 2 != pol)

/-- A frame's result is known (R289, R290).  `lost`: the partner's clock stopped part-way (R291). -/
def State.ssiFrameEnd (s : State) (p : Fin 8) (bits : Nat) (lost : Bool) : State :=
  match (s.port p).ssiT0 with
  | none => s
  | some t0 =>
    let h := s.get (F.FBK_SSITIM_HALF p)
    let nb := s.ssiBits p
    let known := t0 + 2 * nb * h + s.get (F.FBK_SSITIM_SMPDLY p) + 1
    let partner := (s.port p).ssiPartner
    if s.fbkMode p ≠ fmSSI ∨ (!partner ∧ s.now < known) then s
    else
      let s := s.modPort p (fun x => { x with ssiT0 := none, ssiEnd := t0 + (2 * nb + 1) * h })
      let s := s.putB (F.FBK_STAT_SSIBUSY p) (s.ssiBusy p)
      if partner && lost then s
      else
        let bits := bits % 2 ^ nb
        let good := s.ssiGood p bits
        let s := s.wr (A.FBK_SSIRAW0 p) (BitVec.ofNat 32 bits)
        let s := s.wr (A.FBK_SSIRAW1 p) (BitVec.ofNat 32 ((bits / 2 ^ 32) % 4096 + b2n good * 2 ^ 31))
        if !good then s.ssiBad p
        else
          let posw := s.get (F.FBK_SSIFMT_POSW p)
          let raw := bits / 2 ^ (s.get (F.FBK_SSIFMT_ERRW p) + s.get (F.FBK_SSIFMT_CRCW p))
          let val := if s.bit (F.FBK_SSIFMT_GRAY p) then grayDecode posw raw else raw % 2 ^ posw
          let stamp := t0 + s.get (F.FBK_SSITIM_LATDLY p)
          let prev := (s.port p).ssiPrev
          let s := s.modPort p (fun x => { x with crcBad := 0, ssiPrev := some val })
          let s := match prev with
            | none =>
              let w : Word := BitVec.ofNat 32 val
              let s := s.modPort p (fun x => { x with frozen := x.frozen && s.rd (A.FBK_POS0 p) == w })
              let s := (s.portJump p w stamp).posValid p
              s.portEvent p 0 stamp
            | some v0 =>
              let d := s.signed p (toSigned posw (val + 2 ^ posw - v0))
              let s := s.portStep p d stamp
              if s.bit (F.FBK_STAT_POSVALID p) then s else s.posValid p
          s.outsRefresh

/-! ## Compare commands (R298, R299) -/

/-- A write to FBK_CMPTGT. -/
def State.cmpTgtWrite (s : State) (p : Fin 8) (k : Fin 4) (v : Word) : State :=
  (s.wr (A.FBK_CMPTGT p k) v).unitEval p k

/-- A write to FBK_CMPCFG: WIDTH 0 is stored as 1; EN from 0 to 1 arms and evaluates the unit. -/
def State.cmpCfgWrite (s : State) (p : Fin 8) (k : Fin 4) (v : Word) : State :=
  let was := s.bit (F.FBK_CMPCFG_EN p k)
  let s := s.wr (A.FBK_CMPCFG p k) (v &&& 0xFC00FF00)
  let s := if s.get (F.FBK_CMPCFG_WIDTH p k) = 0 then s.put (F.FBK_CMPCFG_WIDTH p k) 1 else s
  if !was && s.bit (F.FBK_CMPCFG_EN p k) then s.unitEval p k else s

/-- The pulse of a firing ends: its last high tick has passed (R298). -/
def State.pulseEnd (s : State) (p : Fin 8) (k : Fin 4) : State :=
  match (s.port p).pulses[k] with
  | some (_, _, b) =>
    if b < s.now then
      (s.modPort p (fun x => { x with pulses := x.pulses.set k none })).outsRefresh
    else s
  | none => s

/-! ## Lock and time step (R283, R288, R310) -/

/-- The port checks of Paddock lock, lower ports first. -/
def State.fbkLock (s : State) (p : Fin 8) : State :=
  let t := s.get (F.FBK_CFG_TEAM p)
  let dup := t != 31 && (List.range p.val).any (fun q => s.get (F.FBK_CFG_TEAM q) == t)
  let s := if dup then (s.put (F.FBK_CFG_TEAM p) 0x1F).putB (F.FBK_STAT_CFGERR p) true else s
  let s := if s.get (F.FBK_CFG_MODE p) = fmHALL ∧ !s.hallPerm p then s.putB (F.FBK_STAT_CFGERR p) true else s
  let per := s.get (F.FBK_SSIPER_PER p)
  s.modPort p (fun x => { x with changeAt := s.now, ssiNext := if per = 0 then none else some (s.now + per) })

/-- A device-time step: the speed warm-up restarts, stamps before it are void, periodic requests count again (R122,
R310). -/
def State.fbkTimeStep (s : State) (p : Fin 8) : State :=
  let s := s.spdRestart p
  let per := s.get (F.FBK_SSIPER_PER p)
  s.modPort p (fun x => { x with lastEv := none, hist := [], prbAt := none, ssiNext := if per = 0 then none else some (s.now + per) })

end Sys2Proof.Machine
end

