-- ==== Sys2Proof/Machine/Norm.lean ====
section
/-!
DEFINITION. What a field stores for a value it does not hold: the storage notes of the field tables (R8), register by
register.  Values beyond the Paddock are no matter of this file.
-/
namespace Sys2Proof.Machine

/-- A word with one field of instance 0's layout mapped. -/
def nf (f : Fld) (g : Nat → Nat) (w : Word) : Word := bitsSet w f.lo f.width (g (bitsGet w f.lo f.width))

/-- Values below a least one are stored as it. -/
def atLeast (m : Nat) (v : Nat) : Nat := if v < m then m else v

/-- Values above a greatest one are stored as it. -/
def atMost (m : Nat) (v : Nat) : Nat := if m < v then m else v

/-- Values from `n` on are stored as `d`. -/
def below (n d : Nat) (v : Nat) : Nat := if v < n then v else d

/-- One value is stored as another. -/
def subst (a b : Nat) (v : Nat) : Nat := if v = a then b else v

/-- Normalise the word of a register entry, by the entry's key. -/
def normWord (base : Nat) (w : Word) : Word :=
  if base = A.CLK_SSCFG then nf F.CLK_SSCFG_DEPTH (fun v => if 1 ≤ v ∧ v ≤ 4 then v else 4) w
  else if base = A.TIM_CTL then nf F.TIM_CTL_PPSO_WIDTH (atLeast 1) w
  else if base = A.TIM_SLEWCFG then nf F.TIM_SLEWCFG_MAXPPM (fun v => atMost 600 (atLeast 1 v)) w
  else if base = A.TEAM_CARCFG 0 then
    nf (F.TEAM_CARCFG_VALLEY 0) (atLeast 1) (nf (F.TEAM_CARCFG_RSTSRC 0) (below 96 0x7F)
      (nf (F.TEAM_CARCFG_RSTEDGE 0) (subst 3 2) w))
  else if base = A.TEAM_RSTDLY 0 then nf (F.TEAM_RSTDLY_DLY 0) (atLeast 1024) w
  else if base = A.LEG_EDGECFG 0 then nf (F.LEG_EDGECFG_POLICY 0) (subst 3 2) w
  else if base = A.LEG_ETCCFG 0 then nf (F.LEG_ETCCFG_ISRC 0) (below 144 0xFF) w
  else if base = A.LEG_ETCLIM 0 then nf (F.LEG_ETCLIM_LIM 0) (atMost 32767) w
  else if base = A.LEG_BSCFG 0 then nf (F.LEG_BSCFG_LIMIT 0) (atLeast 1) w
  else if base = A.TEAM_UPDMODE 0 then nf (F.TEAM_UPDMODE_MODE 0) (atLeast 1) w
  else if base = A.TEAM_EPOCHINT 0 then nf (F.TEAM_EPOCHINT_INT 0) (fun v => atMost 16777216 (atLeast 256 v)) w
  else if base = A.SDM_CFG 0 then
    nf (F.SDM_CFG_RUNMAX 0) (atLeast 8) (nf (F.SDM_CFG_ERRMAX 0) (atLeast 1) (nf (F.SDM_CFG_MODE 0) (subst 3 0) w))
  else if base = A.SDM_TRG 0 then nf (F.SDM_TRG_KIND 0) (subst 3 0) w
  else if base = A.SDM_OSR 0 then
    nf (F.SDM_OSR_OCOSR 0) (clampN 8 32) (nf (F.SDM_OSR_OSR 0) (clampN 32 256) w)
  else if base = A.SDM_SCALE 0 then
    nf (F.SDM_SCALE_SHIFT 0) (fun v => if 16 ≤ v ∧ v < 24 then 24 else v) w
  else if base = A.CE_CTL then nf F.CE_CTL_BGLANES (atMost 4) w
  else if base = A.CE_GENCFG 0 then
    nf (F.CE_GENCFG_HOLD 0) (atLeast 1) (nf (F.CE_GENCFG_NTONE 0) (fun v => atMost 16 (atLeast 1 v))
      (nf (F.CE_GENCFG_TASK 0) (below 36 0x3F) (nf (F.CE_GENCFG_MODE 0) (below 5 0) w)))
  else if base = A.CE_GENNSTEP 0 then nf (F.CE_GENNSTEP_N 0) (atLeast 1) w
  else if base = A.CE_OBS 0 then nf (F.CE_OBS_MODE 0) (subst 3 0) (nf (F.CE_OBS_SETTLE 0) (atLeast 1) w)
  else if base = A.FBK_CFG 0 then nf (F.FBK_CFG_TEAM 0) (below 24 0x1F) (nf (F.FBK_CFG_MODE 0) (below 5 0) w)
  else if base = A.FBK_SPDK 0 then nf (F.FBK_SPDK_K 0) (atLeast 1) w
  else if base = A.FBK_SPDCFG 0 then nf (F.FBK_SPDCFG_SPAN 0) (atLeast 1) w
  else if base = A.FBK_LOSSCFG 0 then nf (F.FBK_LOSSCFG_CRCMAX 0) (atLeast 1) w
  else if base = A.FBK_LADCFG 0 then nf (F.FBK_LADCFG_RAMPT 0) (atLeast 1) w
  else if base = A.FBK_RATED 0 then nf (F.FBK_RATED_RATED 0) (fun v => if v < 2 ^ 31 then v else 0) w
  else if base = A.FBK_SSIFMT 0 then
    nf (F.FBK_SSIFMT_CRCW 0) (atMost 8) (nf (F.FBK_SSIFMT_ERRW 0) (atMost 4) (nf (F.FBK_SSIFMT_POSW 0) (clampN 8 32) w))
  else if base = A.FBK_SSITIM 0 then nf (F.FBK_SSITIM_HALF 0) (atLeast 4) w
  else if base = A.FBK_SSIREQ 0 then nf (F.FBK_SSIREQ_TRGSEL 0) (subst 0 1) w
  else if base = A.FBK_PRBCFG 0 then nf (F.FBK_PRBCFG_EDGE 0) (subst 0 1) w
  else if base = A.FBK_CMPCFG 0 0 then nf (F.FBK_CMPCFG_WIDTH 0 0) (atLeast 1) w
  else if base = A.FBO_CFG 0 then nf (F.FBO_CFG_SPACE 0) (atLeast 6) w
  else if base = A.FBO_RATIO 0 then
    let w := nf (F.FBO_RATIO_M 0) (atLeast 1) w
    nf (F.FBO_RATIO_N 0) (fun v => atMost (bitsGet w (F.FBO_RATIO_M 0).lo 16) (atLeast 1 v)) w
  else if base = A.FBO_ZN 0 then nf (F.FBO_ZN_ZN 0) (fun v => v / 4 * 4) w
  else if base = A.CMP_CFG 0 then nf (F.CMP_CFG_SPER 0) (clampN 3 20) (nf (F.CMP_CFG_MODE 0) (subst 3 0) w)
  else if base = A.CMP_MAP 0 then
    nf (F.CMP_MAP_SCOPE 0) (subst 3 0) (nf (F.CMP_MAP_PATH_H 0) (subst 3 0) (nf (F.CMP_MAP_PATH_L 0) (subst 3 0) w))
  else if base = A.PRT_SDMMAP 0 then nf (F.PRT_SDMMAP_SCOPE 0) (subst 3 0) w
  else if base = A.PRT_TINCFG 0 then nf (F.PRT_TINCFG_SCOPE 0) (subst 3 0) w
  else if base = A.LEG_PROTCFG 0 then nf (F.LEG_PROTCFG_SOFT 0) (fun v => atMost 64 (atLeast 1 v)) w
  else if base = A.YOK_CFG then
    nf F.YOK_CFG_HBPER (atLeast 1) (nf F.YOK_CFG_HBTMO (atLeast 2) (nf F.YOK_CFG_JOINTMO (atLeast 1) w))
  else if base = A.YOK_DIVCFG then nf F.YOK_DIVCFG_DIVMAX (atLeast 1) w
  else if base = A.SUP_CKCFG 0 then nf (F.SUP_CKCFG_INT 0) (clampN 10 1000) w
  else if base = A.NET_CFG then nf F.NET_CFG_PUBN (atMost 240) w
  else if base = A.NET_CYC then nf F.NET_CYC_CYCM (clampN 1 64) w
  else if base = A.NET_PTPCFG then nf F.NET_PTPCFG_ARTMO (atLeast 2) w
  else if base = A.NET_SERVOCFG then
    nf F.NET_SERVOCFG_SETTLE (atLeast 16) (nf F.NET_SERVOCFG_LOCKTHR (atLeast 1) (nf F.NET_SERVOCFG_HOLDMAX (atLeast 1) w))
  else if base = A.SER_FLSTIM then nf F.SER_FLSTIM_POLL (atLeast 1) (nf F.SER_FLSTIM_CSHI (atLeast 2) w)
  else if base = A.SER_FLSTMO then nf F.SER_FLSTMO_ERASE (atLeast 1) (nf F.SER_FLSTMO_PROG (atLeast 1) w)
  else if base = A.SER_PMSCFG 0 then
    nf (F.SER_PMSCFG_DIV 0) (atLeast 2) (nf (F.SER_PMSCFG_CSHI 0) (atLeast 1) (nf (F.SER_PMSCFG_SWLEN 0) (atLeast 3) w))
  else if base = A.HKP_THSHD then nf F.HKP_THSHD_TEMP (fun v => if 0x960 < v ∧ v < 0x8000 then 0x960 else v) w
  else if base = A.HKP_THCFG then nf F.HKP_THCFG_STEP (atLeast 1) w
  else if base = A.HKP_TSCFG then nf F.HKP_TSCFG_RECN (atLeast 1) w
  else if base = A.HKP_SHDCFG then nf F.HKP_SHDCFG_GRACE (atMost 16) w
  else if base = A.HKP_DERATE 0 then nf (F.HKP_DERATE_F 0) (atMost 0x10000) w
  else if base = A.HKP_FEEDCFG then nf F.HKP_FEEDCFG_OVL (atLeast 1) w
  else w

end Sys2Proof.Machine
end

