-- ==== Sys2Proof/Machine/Shadow.lean ====
section
/-!
DEFINITION. Writes to shadowed registers, with the Paddock check of stage 2 (R30, R31, R135, R138, R155), and the warm-up
conditions of a team (R122, R123).
-/
namespace Sys2Proof.Machine

/-- The parity adjustment of TEAM_PER in UPDOWN (R135). -/
def State.perParity (s : State) (t : Nat) (v : Nat) : Nat :=
  if s.get (F.TEAM_CARCFG_FORM t) = foUPDOWN ∧ v % 2 = 1 then (if v - 1 < s.perMin t then v + 1 else v - 1) else v

/-- A TEAM_PER value within its Paddock limits. -/
def State.perClip (s : State) (t : Nat) (v : Nat) : Nat := clampN (s.perMin t) (s.perMax t) v

/-- The Paddock check of a word of a shadowed register (R31): the word stored, and the detail recorded, 0 for none. -/
def State.shCheck (s : State) (base i : Nat) (v : Word) : Word × Nat :=
  if !s.pdkOn then (v, 0)
  else if base = A.TEAM_PER 0 then
    let x := bitsGet v 0 25
    let c := s.perClip i x
    (BitVec.ofNat 32 (s.perParity i c), if c = x then 0 else 7)
  else if base = A.LEG_DT 0 then
    let m := s.dtMin i
    let h := bitsGet v (F.LEG_DT_DTH i).lo (F.LEG_DT_DTH i).width
    let l := bitsGet v (F.LEG_DT_DTL i).lo (F.LEG_DT_DTL i).width
    let w := bitsSet (bitsSet v (F.LEG_DT_DTH i).lo (F.LEG_DT_DTH i).width (max m h)) (F.LEG_DT_DTL i).lo (F.LEG_DT_DTL i).width (max m l)
    (w, if h < m ∨ l < m then 1 else 0)
  else if base = A.LEG_MINP 0 then
    let m := s.pulseMin i
    let x := bitsGet v 0 16
    if x < m then (BitVec.ofNat 32 m, 2) else (v, 0)
  else if base = A.LEG_CMPA 0 then (if v = cmpALWAYS ∧ !s.hsIso i then (0, 3) else (v, 0))
  else (v, 0)

/-- Is the entry one of a leg's registers? -/
def isLegBase (base : Nat) : Bool := decide (0x40000 ≤ base) && decide (base < 0x60000)

/-- A write to the SH fields of a register goes to its shadow (R141), after the Paddock check (R31). -/
def State.shWrite (s : State) (writer : Writer) (r : RegDef) (i a : Nat) (v : Word) : State :=
  let v := normWord r.base v
  let (w, det) := s.shCheck r.base i v
  let s := if det = 0 then s else s.paddock det a v writer
  let s := if det = 3 then s.raise (F.LEG_STAT_ALW_CLIP i) else s
  let m := BitVec.ofNat 32 r.sh
  let s := s.wrSh a ((s.rdSh a &&& ~~~m) ||| (w &&& m))
  if isLegBase r.base then s.putB (F.LEG_STAT_PEND i) true else s

/-- The registers an output map may name (R245): every writable field is coded SH. -/
def RegDef.shOnly (r : RegDef) : Bool :=
  r.sh != 0 && r.rw == 0 && r.rwl == 0 && r.w1c == 0 && r.wo == 0

/-- An output frame word is written to the register its OUTMAP entry names (R246, R348). -/
def State.outWrite (s : State) (writer : Writer) (addr : Nat) (v : Word) : State :=
  match regAt addr with
  | some (r, idx) =>
    if r.shOnly then s.lockGuard writer addr v (fun s => s.shWrite writer r (idx.headD 0) addr v) else s
  | none => s

/-! ## Warm-up (R122, R123) -/

/-- The port bound to a team; ports are examined lowest first (R283). -/
def State.boundPort (s : State) (t : Fin 24) : Option (Fin 8) :=
  (List.finRange 8).find? (fun p => s.get (F.FBK_CFG_TEAM p) == t.val)

/-- Input map entry i of a task (R243). -/
def State.inmap (s : State) (k : Fin 36) (i : Nat) : Word := s.descWord k (0x100 + 4 * i)
def State.outmap (s : State) (k : Fin 36) (i : Nat) : Word := s.descWord k (0x080 + 4 * i)

/-- The team's task reads the speed of a port (KIND 0x4): it closes its speed loop from it. -/
def State.readsSpeed (s : State) (t : Fin 24) (p : Fin 8) : Bool :=
  let k : Fin 36 := t.castLE (by decide)
  (List.range 64).any (fun i =>
    let w := s.inmap k i
    bitsGet w 28 4 == 4 && bitsGet w 0 3 == p.val)

/-- The observer's VALID is required (R272). -/
def State.obsNeeded (s : State) (t : Fin 24) : Bool :=
  let m := s.get (F.CE_OBS_MODE t)
  m == 1 || (m == 2 && (match s.boundPort t with
    | some p => decide (s.xover p < (s.fbkSpeed p).natAbs)
    | none => false))

/-- Whether the team's set-point, or that of its machine group, is VALID (R123). -/
def State.spValid (s : State) (t : Fin 24) : Bool :=
  let g := s.get (F.TEAM_SPSTAT_GROUP t)
  if g < 8 then s.bit (F.MGRP_STAT_VALID g) || s.bit (F.TEAM_SPSTAT_VALID t) else s.bit (F.TEAM_SPSTAT_VALID t)

/-- Bit t of IDG_TEAMRDY: every input that the team requires is VALID (R123). -/
def State.teamReady (s : State) (t : Fin 24) : Bool :=
  let sensored := s.get (F.CE_OBS_MODE t) != 1
  let port := match s.boundPort t with
    | some p =>
      (!sensored || s.bit (F.FBK_STAT_POSVALID p)) && (!s.readsSpeed t p || s.bit (F.FBK_STAT_SPDVALID p))
    | none => true
  s.tstate t != stUNCONF && s.teamSensed t && port && (!s.obsNeeded t || s.bit (F.CE_OBS_VALID t))
    && (!s.bit F.DLC_CTL_EN || s.bit F.IDG_WARMSTAT_DLC) && s.bit F.IDG_WARMSTAT_TEMP
    && (!s.aligned t || s.bit F.TIM_STAT_NETLOCK) && (!s.ditherOn t || s.bit (F.TEAM_DITHSTAT_VALID t))
    && s.spValid t

/-- IDG_TEAMRDY as it reads now. -/
def State.teamRdyWord (s : State) : Word :=
  BitVec.ofNat 32 (allTeams.foldl (fun a t => a + (if s.teamReady t then 2 ^ t.val else 0)) 0)

/-- The observer of a team at Paddock lock: its count is loaded (R272). -/
def State.obsLock (s : State) (t : Fin 24) : State :=
  if s.get (F.CE_OBS_MODE t) = 0 then s
  else (s.put (F.CE_OBSCNT_COUNT t) (s.get (F.CE_OBS_SETTLE t))).putB (F.CE_OBS_VALID t) false

/-- The observer's count at an accepted commit of the team task (R272). -/
def State.obsCommit (s : State) (t : Fin 24) (flag7 : Bool) : State :=
  if s.get (F.CE_OBS_MODE t) = 0 then s
  else if flag7 then (s.obsLock t).bump (F.CE_OBSCNT_RSTCNT t)
  else
    let c := s.get (F.CE_OBSCNT_COUNT t) - 1
    let s := s.put (F.CE_OBSCNT_COUNT t) c
    if c = 0 then s.putB (F.CE_OBS_VALID t) true else s

end Sys2Proof.Machine
end

