-- ==== Sys2Proof/Machine/Clock.lean ====
section
/-!
DEFINITION. Clocks and device time (chapter 02): bring-up, the reference fault, rate and slew, the time step, PPS, and the
delay lines' calibration.
-/
namespace Sys2Proof.Machine

/-! ## Slew (R58) -/

/-- One fine step in the units of `TimSt.slew`: 2^32 × 10^7.  R58 keeps a 2^-32 fraction of a fine step; the model keeps
the remaining offset exactly, 10^-7 finer, so that no step of the limit is rounded (log entry 86: DESIGN CHOICE). -/
def slewUnit : Int := 2 ^ 32 * 10000000

/-- The steer of TIM_RATE in slew units per tick. -/
def State.rateUnits (s : State) : Int := wInt (s.rd A.TIM_RATE) * 10000000

/-- The most that one tick slews, in slew units, for a remaining offset of the given sign (R58). -/
def State.slewStep (s : State) (up : Bool) : Int :=
  let most : Int := 256 * s.get F.TIM_SLEWCFG_MAXPPM * 2 ^ 32
  let head : Int := 256 * 600 * 2 ^ 32 + (if up then -s.rateUnits else s.rateUnits)
  max 0 (min most head)

/-- What one tick takes from the remaining offset (R58). -/
def State.slewApplied (s : State) : Int :=
  if 0 < s.tim.slew then min s.tim.slew (s.slewStep true) else max s.tim.slew (-s.slewStep false)

/-- The rate of the root in this tick, total_rate of R58, in units of 2^-40 × 10^-7: the steer and the slew, or the frozen
word after a reference fault (R46). -/
def State.totalRate (s : State) : Int := s.tim.frozen.getD (s.rateUnits + s.slewApplied)

/-- The remaining offset after n ticks (R58); a frozen control word slews nothing out (R46). -/
def State.slewAfter (s : State) (n : Nat) : Int :=
  let r := s.tim.slew
  if s.tim.frozen.isSome then r
  else if 0 < r then max 0 (r - n * s.slewStep true) else min 0 (r + n * s.slewStep false)

/-- CLK_TIME runs. -/
def State.clkOn (s : State) : Bool := s.tim.run && !s.tim.stopped

/-- n ticks pass in which nothing happens: device time moves by 256 fine steps in each, the slew runs, and general tags
are free again (R26, R54, R58). -/
def State.ticks (s : State) (n : Nat) : State :=
  if n = 0 then s
  else
    let s := if s.tagsUse = 0 then s else s.tagSet 0
    if s.clkOn then
      let r := s.slewAfter n
      { s with now := s.now + n, tim := { s.tim with dev := (s.tim.dev + 256 * n) % 2 ^ 72, slew := r } }
    else { s with now := s.now + n }

/-- TIM_SLEW as it reads: what remains, rounded towards zero. -/
def State.slewRead (s : State) : Word := wOfInt (tdiv s.tim.slew slewUnit)

/-- Replace the remaining offset. -/
def State.slewSet (s : State) (v : Int) : State :=
  (s.modTim (fun t => { t with slew := v * slewUnit })).putB F.TIM_STAT_SLEWING (v != 0)

/-- Store a rate, clamped (R59). -/
def State.rateSet (s : State) (v : Int) : State :=
  let c := clampI (-65970697) 65970697 v
  let s := s.wr A.TIM_RATE (wOfInt c)
  if c = v then s else s.raise F.TIM_STAT_RATE_CLAMP

/-- The writer owns TIM_RATE, TIM_SLEW and TIM_STEP: supervisor firmware under SRC = 0b11; the servo writes from within
(R62). -/
def State.timOwner (s : State) (w : Writer) : Bool := s.get F.TIM_CTL_SRC == 3 && w.isFw

def State.timIgnored (s : State) : State := s.raise F.TIM_STAT_WR_IGN

/-- A write to TIM_RATE (R59, R62). -/
def State.rateWrite (s : State) (w : Writer) (v : Word) : State :=
  if s.timOwner w then s.rateSet (wInt v) else s.timIgnored

/-- A write to TIM_SLEW (R58, R62). -/
def State.slewWrite (s : State) (w : Writer) (v : Word) : State :=
  if s.timOwner w then s.slewSet (wInt v) else s.timIgnored

/-- The remaining offset has reached zero (R58). -/
def State.slewDone (s : State) : State := if s.tim.slew = 0 then s.putB F.TIM_STAT_SLEWING false else s

/-! ## Network lock (R149, R191) -/

/-- TIM_STAT.HOLDOVER, mirrored by the aligned teams (R191). -/
def State.holdover (s : State) (b : Bool) : State :=
  each allTeams (fun t s =>
    if s.bit (F.TEAM_ALNCFG_ALIGN t) then s.putB (F.TEAM_ALNSTAT_HOLDOVER t) b else s) (s.putB F.TIM_STAT_HOLDOVER b)

/-- NETLOCK clears: the dither seeds lose VALID (R122, R149). -/
def State.netUnlock (s : State) : State :=
  let s := (s.putB F.TIM_STAT_NETLOCK false).putB F.IDG_WARMSTAT_NETLOCK false
  each allTeams (fun t s => s.putB (F.TEAM_DITHSTAT_VALID t) false) s

/-- The servo declares lock (R122); after a reference fault device time is locked to nothing until reset (R46). -/
def State.netLock (s : State) : State :=
  if s.bit F.TIM_STAT_NETLOCK ∨ s.tim.refAt.isSome then s
  else ((s.putB F.TIM_STAT_NETLOCK true).putB F.IDG_WARMSTAT_NETLOCK true).modTim (fun t => { t with netAt := s.now })

/-! ## The time step (R60, R61) -/

/-- A running team: in RUN. -/
def State.anyRun (s : State) : Bool := allTeams.any (fun t => s.tstate t == stRUN)

/-- The value of TIM_STEP0 to TIM_STEP2; the low eight bits are ignored. -/
def State.stepValue (s : State) : Nat :=
  ((s.rd A.TIM_STEP0).toNat / 256 * 256 + (s.rd A.TIM_STEP1).toNat * 2 ^ 32 + (s.rd A.TIM_STEP2).toNat % 256 * 2 ^ 64) % 2 ^ 72

/-- The carrier of an aligned team stops and waits for an epoch of the new time (R61). -/
def State.stepTeam (s : State) (t : Fin 24) : State :=
  if !s.aligned t then s
  else
    let s := s.modTeam t (fun m => { m with started := false, next := none, restartAt := none, rels := [], epochAt := none })
    let s := each (s.team t).legs (fun n s =>
      (s.modLeg n (fun l => { l with running := false, nexts := [], plan := .never, cmd := false })).putB (F.LEG_STAT_RUN n) false) s
    let s := s.putB (F.TEAM_ALNSTAT_WAIT_LOCK t) true
    let s := s.putB (F.TEAM_ALNSTAT_ALIGNED t) false
    (s.put (F.TEAM_LFSR_LFSR t) 0).putB (F.TEAM_DITHSTAT_VALID t) false

/-- Device time is stepped (R60, R61): clocks are re-phased, warm-ups that a step restarts restart, network lock is
lost. -/
def State.stepTo (s : State) (v : Nat) : State :=
  let lasts := (List.finRange 8).map (fun g => (g, s.ckLast g s.now))
  let s := s.modTim (fun t => { t with dev := v % 2 ^ 72, stepAt := s.now })
  let s := each lasts (fun p s => s.sdmRephase p.1 p.2) s
  let s := each allTeams (fun t s => s.stepTeam t) s.netUnlock
  let s := each (List.finRange 8) (fun p s => s.fbkTimeStep p) s
  each allLegs (fun n s => (s.putB (F.LEG_EDGESTAT_ETC_VALID n) false).modLeg n (fun l => { l with etcRecs := [], etcPers := [] })) s

/-- A request to step device time: refused while a team runs (R60). -/
def State.stepRequest (s : State) (v : Nat) : State :=
  if s.anyRun then s.raise F.TIM_STAT_STEP_REFUSED else s.stepTo v

/-! ## PPS (R63) -/

/-- Fine steps in one second. -/
def secFine : Nat := 80000000000

/-- The whole second of device time that falls in this tick, as a stamp. -/
def State.secInTick (s : State) : Option Nat :=
  let k := (s.tim.dev + 255) / secFine
  if s.tim.dev ≤ k * secFine then some (k * secFine) else none

def State.ppsRise (s : State) : State :=
  match s.secInTick with
  | some x =>
    if s.load.locked ∧ s.bit F.TIM_CTL_PPSO_EN ∧ !s.tim.deadLines.contains 360 then
      s.modTim (fun t => { t with pps := true, ppsAt := s.now, ppsStamp := x })
    else s
  | none => s

def State.ppsFall (s : State) : State :=
  if s.tim.pps ∧ s.tim.ppsAt + s.get F.TIM_CTL_PPSO_WIDTH * ticksPerMs ≤ s.now ∧ !s.tim.deadLines.contains 360 then
    s.modTim (fun t => { t with pps := false })
  else s

/-- A rising edge of PPS_IN is stamped, `fine` its position in the tick. -/
def State.ppsIn (s : State) (fine : Nat) : State :=
  if s.tim.deadLines.contains 361 then s
  else
    let x := s.stampOf (s.inst fine)
    let s := s.wr A.TIM_PPSIN0 (BitVec.ofNat 32 x)
    let s := s.wr A.TIM_PPSIN1 (BitVec.ofNat 32 (x / 2 ^ 32))
    s.wr A.TIM_PPSIN2 (BitVec.ofNat 32 (x / 2 ^ 64 % 256))

/-! ## Bring-up and faults (R45, R46, R67) -/

/-- RESET_N is released with PGOOD high: clock bring-up starts on the boot oscillator. -/
def State.bootStart (s : State) : State :=
  s.modTim (fun t => { t with under := false, booting := true, relAt := s.now })

/-- Ticks of one housekeeping round (R440). -/
def roundTicks : Nat := 640000

/-- The root PLL locks: device time counts from 0 (R55). -/
def State.pllLock (s : State) : State :=
  if s.tim.booting ∧ !s.tim.pll then
    let s := s.putB F.CLK_PLLSTAT_LOCK true
    let s := s.modTim (fun t => { t with pll := true, run := true, dev := 0, pllAt := s.now })
    let s := s.modLoad (fun l => { l with failed := false })
    let s := s.modHk (fun h => { h with roundAt := s.now })
    s.defer (s.now + roundTicks) .hkRound
  else s

/-- Not locked within 2 ms of reset release (R45). -/
def State.pllTimeout (s : State) : State :=
  if s.tim.booting ∧ !s.tim.pll ∧ s.tim.relAt + 2 * ticksPerMs ≤ s.now ∧ !s.load.failed then
    (s.modLoad (fun l => { l with failed := true })).record (fcode cSUPPLY 0x41) 0
  else s

/-- A fault under R46 or R67 halts teams at rank 4 with its code. -/
def State.haltAll (s : State) (code : Nat) : State := each allTeams (fun t s => s.haltTeam t caFAULT code) s

/-- The reference fails after PLL lock (R46): the control word is frozen, every team halts and stays at its safe level until
reset; `lost`: the PLL reports loss of lock.  With its control word frozen the PLL is
locked to nothing (log entry 79). -/
def State.refFault (s : State) (lost : Bool) : State :=
  if s.tim.pll ∧ s.tim.refAt = none then
    let code := fcode cSUPPLY (if lost then 0x41 else 0x40)
    let s := s.modTim (fun t => { t with refAt := some s.now, frozen := some s.totalRate })
    let s := s.putB F.CLK_PLLSTAT_REFLOSS true
    let s := s.putB F.CLK_PLLSTAT_LOCK false
    (s.record code 0).haltAll code |>.netUnlock
  else s

/-- 10 ms after the reference fault, the links go to electrical idle (R46). -/
def State.refHold (s : State) : State :=
  match s.tim.refAt with
  | some t0 => if t0 + 10 * ticksPerMs ≤ s.now then s.modTim (fun t => { t with linksIdle := true }) else s
  | none => s

/-- Leg of a delay line, 72 for a PPS line (R68). -/
def lineLeg (line : Nat) : Nat := min 72 (line / 5)

/-- A line's DLL loses lock (R67). -/
def State.dllUnlock (s : State) (line : Nat) : State :=
  let code := fcode cSUPPLY 0x42
  let s := s.record code (lineLeg line)
  let s := s.putB F.CLK_PLLSTAT_DLL_ALL false
  let s := match finOf 72 (lineLeg line) with
    | some n => s.withTeam n (fun t => s.haltTeam t caFAULT code)
    | none => s
  s.modTim (fun t => { t with deadLines := t.deadLines ++ [line] })

/-- One calibration step: the line measured takes its table, and the engine moves on (R64). -/
def State.calStep (s : State) (table : List Int) : State :=
  if s.bit F.DLC_CTL_EN ∧ s.tim.dllAt ≠ 0 ∧ s.tim.calAt + 80000 ≤ s.now then
    let line := s.get F.DLC_STAT_LINE
    let s := s.modTim (fun t => { t with
      calAt := s.now, tables := (t.tables.filter (fun p => p.1 != line)) ++ [(line, table)] })
    if line + 1 < 362 then s.put F.DLC_STAT_LINE (line + 1)
    else
      let s := (s.put F.DLC_STAT_LINE 0).bump F.DLC_STAT_ROUNDS
      (s.modTim (fun t => { t with calDone := true })).putB F.IDG_WARMSTAT_DLC true
  else s

end Sys2Proof.Machine
end

