-- ==== Sys2Proof/Machine/NetPtp.lean ====
section
/-!
DEFINITION. Network ports, egress, PTP messages, best master selection and the time servo (R365 to R383).  Times are in
ps.
-/
namespace Sys2Proof.Machine

def State.nport (s : State) (p : Fin 3) : NetPort := s.net.ports[p]
def State.servo (s : State) : ServoSt := s.net.servo

def allPorts : List (Fin 3) := List.finRange 3

/-! ## Ports (R365, R366) -/

def prOFF : Nat := 0
def prRING : Nat := 1
def prUPLINK : Nat := 2

/-- The role in force: one the port does not allow counts as off (R365). -/
def State.portRole (s : State) (p : Fin 3) : Nat :=
  if !s.bit (F.NET_PCFG_EN p) then 0
  else
    let r := s.get (F.NET_PCFG_ROLE p)
    if p.val < 2 then (if r = 1 then 1 else 0) else (if r = 2 then 2 else 0)

/-- A port in use whose link is up. -/
def State.portUp (s : State) (p : Fin 3) : Bool :=
  s.portRole p != 0 && s.bit (F.NET_PSTAT_LINK p) && !s.tim.linksIdle

/-- The context of a network fault (R404). -/
def netCtx (port addr : Nat) : Nat := port + addr * 2 ^ 16

def cnet (d : Nat) : Nat := fcode cNET d

/-- clockIdentity: the EUI-64 of the MAC address (R374). -/
def State.clockId (s : State) : Nat :=
  (s.load.mac / 2 ^ 24) * 2 ^ 40 + 0xFFFE * 2 ^ 24 + s.load.mac % 2 ^ 24

/-- The present tick in ps of device time, and an instant in it (R369). -/
def State.devPs (s : State) : Int := (s.tim.dev * 25 / 2 : Nat)

/-- A transmit stamp: the word boundary plus the port's factory latency. -/
def State.txStamp (s : State) (p : Fin 3) (ps : Nat) : Int := s.devPs + ps + s.get (F.NET_LAT_TX p)

/-- A receive stamp: the refined word boundary less the port's factory latency. -/
def State.rxStamp (s : State) (p : Fin 3) (ps : Nat) : Int := s.devPs + ps - s.get (F.NET_LAT_RX p)

/-- A stamp in fine steps, rounded to nearest (R369). -/
def psToFine (x : Int) : Int := (4 * x + 25) / 50

/-! ## The Icend cycle in device time (R384) -/

/-- Cycle length in fine steps. -/
def State.tc (s : State) : Nat := s.get F.NET_CYC_CYCM * 1250000

/-- The present cycle. -/
def State.cyc (s : State) : Nat := s.tim.dev / s.tc

/-- Fine steps since the boundary. -/
def State.cycOfs (s : State) : Nat := s.tim.dev % s.tc

/-- An instant at `ofs` fine steps after the boundary acts in this tick. -/
def State.cycDue (s : State) (ofs : Nat) : Bool := decide (ofs ≤ s.cycOfs) && decide (s.cycOfs < ofs + 256)

/-- Inside the Icend window (R384). -/
def State.inWindow (s : State) : Bool := decide (s.cycOfs < s.get F.NET_RXDL_DL)

/-- A frame of `oct` octets with preamble, delimiter, FCS and gap, in fine steps: 2.5 ticks each (R366). -/
def occFine (oct : Nat) : Nat := (max 60 oct + 24) * 640

/-- A non-Icend frame may start: outside the window, and it ends before the next one opens (R385). -/
def State.mayStart (s : State) (oct : Nat) : Bool := !s.inWindow && decide (s.cycOfs + occFine oct ≤ s.tc)

/-! ## Egress (R385) -/

/-- Octets of a frame from the destination address to the end of the payload; PTP message lengths as IEEE 1588-2019 has
them. -/
def OutFrame.octets : OutFrame → Nat
  | .icend b => 14 + max 46 b.length
  | .ptp (.sync ..) _ => 14 + 44
  | .ptp (.followUp ..) _ => 14 + 44
  | .ptp (.announce ..) _ => 14 + 64
  | .ptp (.pdReq ..) _ => 14 + 54
  | .ptp (.pdResp ..) _ => 14 + 54
  | .mail _ o => o.length

/-- Source, type and sequenceId of a message that R371 follows. -/
def PtpMsg.key : PtpMsg → Option (PtpId × Nat × Nat)
  | .sync src seq _ _ _ _ _ => some (src, 0, seq)
  | .followUp src seq _ _ _ => some (src, 8, seq)
  | .announce src seq _ _ => some (src, 11, seq)
  | .pdReq .. => none
  | .pdResp .. => none

/-- A message has been sent or received on a port (R371). -/
def State.markSeen (s : State) (p : Fin 3) (m : PtpMsg) : State :=
  match m.key with
  | some (a, b, c) => s.modNPort p (fun x => { x with
      seen := x.seen.filter (fun e => decide (s.now < e.2.2.2 + ticksPerSec)) ++ [(a, b, c, s.now)] })
  | none => s

/-- The message has been sent or received on the port within the last second. -/
def State.wasSeen (s : State) (p : Fin 3) (m : PtpMsg) : Bool :=
  match m.key with
  | some (a, b, c) => (s.nport p).seen.any (fun e =>
      e.1 == a && e.2.1 == b && e.2.2.1 == c && decide (s.now < e.2.2.2 + ticksPerSec))
  | none => false

/-- What the egress stamp completes in a message: the origin of an own Sync, the residence of a forwarded one (R370,
R372). -/
def State.txPtp (s : State) (p : Fin 3) (m : PtpMsg) (base : Option Int) (st : Int) : PtpMsg × State :=
  match m, base with
  | .sync src seq dom two origin corr hops, some b =>
    if two then
      (m, s.modNPort p (fun x => { x with resid := (x.resid ++ [(src, seq, st - b)]).drop (x.resid.length - 31) }))
    else (.sync src seq dom two origin (corr + (st - b)) hops, s)
  | .sync src seq dom two _ corr hops, none => (.sync src seq dom two st corr hops, s)
  | .followUp src seq dom origin corr, _ =>
    (match (s.nport p).resid.find? (fun e => e.1 == src && e.2.1 == seq) with
     | some e => (.followUp src seq dom origin (corr + e.2.2), s)
     | none => (m, s))
  | .pdReq _ _, _ => (m, s.modNPort p (fun x => { x with pdT1 := some st }))
  | .pdResp req seq corr, some b => (.pdResp req seq (corr + (st - b)), s)
  | _, _ => (m, s)

/-- A frame leaves a port now; `ps`: its stamp within the tick; `at_`: the tick of its timestamp point. -/
def State.txStart (s : State) (p : Fin 3) (f : OutFrame) (ps : Nat) (at_ : Tick) : State :=
  let s := s.bump (F.NET_FRMCNT_TX p)
  let till := at_ + (occFine f.octets + 255) / 256
  match f with
  | .ptp m base =>
    let (m, s) := s.txPtp p m base (s.txStamp p ps)
    (s.modNPort p (fun x => { x with busyTill := till, last := some (.ptp m base) })).markSeen p m
  | .mail slot _ =>
    let s := s.modNPort p (fun x => { x with busyTill := till, last := some f })
    s.modNet (fun n => { n with txEnd := n.txEnd.set slot (some till) })
  | .icend _ => s.modNPort p (fun x => { x with busyTill := till, last := some f })

/-- Queue a PTP message at a port in use. -/
def State.queuePtp (s : State) (p : Fin 3) (m : PtpMsg) (base : Option Int) : State :=
  if s.portUp p then s.modNPort p (fun x => { x with qPtp := x.qPtp ++ [.ptp m base] }) else s

/-- Send an Icend frame: it leaves an idle egress at `at_`, and waits at a busy one (R385, R392). -/
def State.sendIcend (s : State) (p : Fin 3) (fwd : Bool) (payload : List Byte) (at_ : Tick) : State :=
  if !s.portUp p then s
  else if (s.nport p).busyTill ≤ at_ then s.txStart p (.icend payload) 0 at_
  else if fwd then
    (s.bump (F.NET_FWDCNT_QUEUED p)).modNPort p (fun x => { x with qFwd := x.qFwd ++ [.icend payload] })
  else s.modNPort p (fun x => { x with qOwn := x.qOwn ++ [.icend payload] })

/-- The egress of a port becomes free: the next frame starts, by queue order and window rule (R385). -/
def State.egressStart (s : State) (p : Fin 3) (ps : Nat) : State :=
  let x := s.nport p
  if !s.portUp p ∨ s.now < x.busyTill then s
  else match x.qFwd with
    | f :: r => (s.modNPort p (fun x => { x with qFwd := r })).txStart p f ps s.now
    | [] => match x.qOwn with
      | f :: r => (s.modNPort p (fun x => { x with qOwn := r })).txStart p f ps s.now
      | [] => match x.qPtp, x.qOther with
        | f :: r, _ =>
          if s.mayStart f.octets then (s.modNPort p (fun x => { x with qPtp := r })).txStart p f ps s.now else s
        | [], f :: r =>
          if s.mayStart f.octets then (s.modNPort p (fun x => { x with qOther := r })).txStart p f ps s.now else s
        | [], [] => s

/-! ## Links (R366, R399) -/

/-- The device takes part in Icend frames (R399). -/
def State.icendOn (s : State) : Bool := s.bit F.NET_CFG_ICEND_EN

/-- A link comes up; `rf`: a remote fault is received. -/
def State.linkUp (s : State) (p : Fin 3) (rf : Bool) : State :=
  if s.portRole p = 0 ∨ s.tim.linksIdle ∨ s.bit (F.NET_PSTAT_LINK p) then s
  else
    let an := s.bit (F.NET_PCFG_AN p)
    let s := s.putB (F.NET_PSTAT_LINK p) true
    let s := s.putB (F.NET_PSTAT_SYNC p) true
    let s := s.putB (F.NET_PSTAT_ANDONE p) an
    let s := s.putB (F.NET_PSTAT_RFAULT p) (an && rf)
    if s.icendOn && s.net.hello0.isNone then s.modNet (fun n => { n with hello0 := some s.now }) else s

/-- Forget the exchanges of a port's peer delay (R370). -/
def State.pdClear (s : State) (p : Fin 3) : State :=
  (s.putB (F.NET_PSTAT_PDVALID p) false).modNPort p (fun x => { x with
    pdGood := 0, pdMiss := 0, pdHist := [], pdOpen := false, pdT1 := none, pdPart := none })

/-- A mailbox frame that can no longer be sent (R368). -/
def State.mailFail (s : State) (slot : Fin 4) : State :=
  (s.raiseBit F.NET_MBXTXSTAT_ERR slot).setBit F.NET_MBXTXSTAT_BUSY slot false

/-- A link goes down (R366, R370). -/
def State.linkDown (s : State) (p : Fin 3) : State :=
  if !s.bit (F.NET_PSTAT_LINK p) then s
  else
    let s := s.putB (F.NET_PSTAT_LINK p) false
    let s := s.putB (F.NET_PSTAT_SYNC p) false
    let s := s.putB (F.NET_PSTAT_ANDONE p) false
    let s := s.putB (F.NET_PSTAT_PEERBX p) false
    let s := (s.bump (F.NET_PSTAT_DOWNCNT p)).record (cnet 2) (netCtx p 0)
    let s := each (s.nport p).qOther (fun f s => match f with
      | .mail slot _ => s.mailFail slot
      | _ => s) s
    (s.pdClear p).modNPort p (fun x => { x with
      qFwd := [], qOwn := [], qPtp := [], qOther := [], busyTill := s.now, two := [], copy := none, far := none })

/-! ## Best master selection (R374) -/

/-- The device is yoked and not ACTIVE. -/
def State.yokedIdle (s : State) : Bool := s.load.yoked && !s.roleActive

/-- clockClass announced, or 255 (R374, R375). -/
def State.clockClass (s : State) : Nat :=
  let src := s.get F.TIM_CTL_SRC
  if !s.bit F.NET_CFG_BW_EN || (src == 0 || src == 3) || s.yokedIdle then 255
  else if src = 2 then
    match s.servo.ppsHold with
    | some t => if s.now < t + s.get F.NET_SERVOCFG_HOLDMAX * 16 * ticksPerMs then 7 else 248
    | none => if 16 ≤ s.servo.ppsGood then 6 else 248
  else 248

/-- The data set of the device's own clock (R374). -/
def State.ownGm (s : State) : GmData :=
  { prio1 := s.load.prio1, cls := s.clockClass, acc := 0xFE, var := 0xFFFF, prio2 := s.load.prio2, id := s.clockId }

/-- Data set a is better than b: the first field that differs decides, the lower value wins (IEEE 1588-2019, 9.3). -/
def GmData.better (a b : GmData) : Bool :=
  let l (x : GmData) : List Nat := [x.prio1, x.cls, x.acc, x.var, x.prio2, x.id]
  match (List.zip (l a) (l b)).find? (fun p => p.1 != p.2) with
  | some p => decide (p.1 < p.2)
  | none => false

/-- 2^log s in ticks, for a signed four-bit log. -/
def logTicks (l : Int) : Nat := (ticksPerSec * 2 ^ (l + 7).toNat + 127) / 128

/-- The announce receipt timeout in ticks. -/
def State.annTimeout (s : State) : Nat := s.get F.NET_PTPCFG_ARTMO * logTicks (s.getI F.NET_PTPCFG_LOGANN)

def stLISTEN : Nat := 0
def stBW : Nat := 1
def stACQ : Nat := 2
def stTRACK : Nat := 3
def stSETTLE : Nat := 4
def stSLEW : Nat := 5
def stHOLD : Nat := 6
def stSOFF : Nat := 7

def State.stage (s : State) : Nat := s.get F.NET_TSTAT_STAGE
def State.setStage (s : State) (v : Nat) : State := s.put F.NET_TSTAT_STAGE v

/-- The Bellwether is `g` (R374): NET_GMID, and NET:BW_CHANGE when another device was it before. -/
def State.setGm (s : State) (g : GmData) (rec : Bool) : State :=
  let old := s.servo.gm
  let s := s.modServo (fun v => { v with gm := some g })
  if (old.map GmData.id) = some g.id then s
  else
    let s := s.wr A.NET_GMID0 (BitVec.ofNat 32 g.id)
    let s := s.wr A.NET_GMID1 (BitVec.ofNat 32 (g.id / 2 ^ 32))
    let s := each allPorts (fun p s => s.modNPort p (fun x => { x with copy := none, two := [] })) s
    if rec && old.isSome then s.record (cnet 6) (netCtx (s.get F.NET_TSTAT_TPORT) 0) else s

/-- The device becomes Bellwether (R375). -/
def State.becomeBw (s : State) : State :=
  if s.stage = stBW then s
  else
    let s := (s.setGm s.ownGm false).setStage stBW
    let s := s.put F.NET_TSTAT_TPORT 3
    let s := s.put F.NET_TSTAT_HOPS 0
    let s := s.holdover false
    (s.modServo (fun v => { v with ppsAt := s.now, ppsGood := 0, ppsHold := none })).netLock

/-- Best master selection over the Announces of the last receipt timeout (R374). -/
def State.runBmca (s : State) : State :=
  if s.stage = stSOFF then s
  else
    let lim := s.annTimeout
    let s := s.modServo (fun v => { v with foreign := v.foreign.filter (fun e => decide (s.now < e.2 + lim)) })
    let best := s.servo.foreign.foldl (fun (b : Option GmData) e => match b with
      | some x => if e.1.better x then some e.1 else b
      | none => some e.1) none
    let own := s.ownGm
    match best with
    | some b =>
      if own.cls != 255 && own.better b then s.becomeBw
      else
        let s := s.setGm b true
        if s.stage = stLISTEN then s.setStage stACQ
        else if s.stage = stBW then (s.setStage stTRACK).modServo (fun v => { v with copyGm := none, lastSync := s.now })
        else s
    | none =>
      if own.cls ≠ 255 then s.becomeBw
      else
        let s := s.modServo (fun v => { v with gm := none })
        if s.stage = stACQ then s.setStage stLISTEN else s

/-- An Announce has been received (R374). -/
def State.announceUse (s : State) (dom : Nat) (src : PtpId) (g : GmData) : State :=
  if dom ≠ s.get F.NET_PTPCFG_DOMAIN ∨ src.clk = s.clockId ∨ g.id = s.clockId then s
  else
    (s.modServo (fun v => { v with
      annAt := s.now, foreign := v.foreign.filter (fun e => e.1.id != g.id) ++ [(g, s.now)] })).runBmca

/-- No Announce within announceReceiptTimeout (R374). -/
def State.announceTimeout (s : State) : State :=
  if s.stage ≠ stSOFF ∧ s.stage ≠ stBW ∧ s.load.locked ∧ s.servo.annAt + s.annTimeout ≤ s.now then
    (s.modServo (fun v => { v with annAt := s.now })).runBmca
  else s

/-! ## Device time steps (R378, R402) -/

/-- A device-time step reaches the Icend cycle and the servo: held items are discarded and every window is removed. -/
def State.netStep (s : State) : State :=
  let s := s.modNet (fun n => { n with
    held := [], stats := [], wins := [], kept := [], reqs := [], bnd := none, sentCyc := none, dlCyc := none, lastDone := 0,
    servo := { n.servo with good := 0, ppsGood := 0 } })
  let s := s.put F.NET_SRCUSE_NOW 0
  each allPorts (fun p s => s.modNPort p (fun x => { x with
    copy := none, two := [], resid := [], pdOpen := false, pdT1 := none, pdPart := none })) s

/-- A request to step device time (R60). -/
def State.stepDevice (s : State) (v : Nat) : State :=
  let r := s.anyRun
  let s := s.stepRequest v
  if r then s else s.netStep

/-! ## The servo (R377 to R380) -/

/-- 32-bit saturation of a signed register. -/
def sat32 (v : Int) : Word := wOfInt (clampI (-(2 ^ 31)) (2 ^ 31 - 1) v)

/-- An offset in ps as the slew that removes it: −(o / 12.5), rounded towards zero. -/
def slewOf (o : Int) : Int := -(tdiv (2 * o) 25)

/-- The rate update of the loop (R377), `interval` in ps. -/
def State.loopRate (s : State) (o interval : Int) : State :=
  s.rateSet (wInt (s.rd A.TIM_RATE) - divAway (o * 2 ^ 40) (interval * 2 ^ s.get F.NET_SERVOCFG_KISH))

/-- One pass of the loop in stage track (R377). -/
def State.loopUpdate (s : State) (o interval : Int) : State := (s.loopRate o interval).slewSet (slewOf o)

/-- The Sync interval in ps. -/
def State.syncPs (s : State) : Int := 1000000000000 * 2 ^ (s.getI F.NET_PTPCFG_LOGSYNC + 7).toNat / 128

/-- The Sync interval in ticks. -/
def State.syncTicks (s : State) : Nat := logTicks (s.getI F.NET_PTPCFG_LOGSYNC)

/-- The time path has a new hop count (R382). -/
def State.hopCheck (s : State) (p : Fin 3) (hops : Nat) : State :=
  if hops ≤ 128 then s else (s.raise F.NET_TSTAT_HOPWARN).record (cnet 12) (netCtx p 0)

/-- The settle window starts (R380). -/
def State.reroute (s : State) (p : Fin 3) (hops : Nat) : State :=
  let s := s.record (cnet 3) (netCtx p 0 + hops * 256)
  let s := (s.raise F.NET_TSTAT_REROUTE).setStage stSETTLE
  let s := (s.holdover true).slewSet 0
  let s := s.put F.NET_TSTAT_NLEFT (s.get F.NET_SERVOCFG_SETTLE)
  (s.modServo (fun v => { v with sum := 0, n := 0 })).hopCheck p hops

/-- NETLOCK is lost to the servo: it acquires again under R378. -/
def State.timeLoss (s : State) (st : Nat) : State :=
  let s := if s.bit F.TIM_STAT_NETLOCK then s.record (cnet 5) (netCtx (s.get F.NET_TSTAT_TPORT) 0) else s
  (s.netUnlock.setStage st).modServo (fun v => { v with good := 0 })

/-- A usable Sync in stage settle (R380). -/
def State.settle (s : State) (o : Int) : State :=
  let s := s.modServo (fun v => { v with sum := v.sum + o, n := v.n + 1 })
  let n := s.servo.n
  let sum := s.servo.sum
  let w := s.get F.NET_SERVOCFG_SETTLE
  let s := s.put F.NET_TSTAT_NLEFT (w - n)
  if n < w then s
  else if (n : Int) * 1000000 < sum.natAbs then (s.holdover false).timeLoss stACQ
  else ((s.slewSet (-(tdiv (2 * sum) (25 * n)))).holdover false).setStage stSLEW

/-- The slew of a re-route has ended (R380). -/
def State.slewStage (s : State) : State := if s.stage = stSLEW ∧ s.tim.slew = 0 then s.setStage stTRACK else s

/-- The first usable Sync of an acquisition: an offset above 1 µs is stepped, or slewed when a team runs (R378). -/
def State.acquire (s : State) (p : Fin 3) (hops : Nat) (o : Int) : State :=
  let s := s.setStage stTRACK
  let s := if o.natAbs ≤ 1000000 then s
    else
      let v := ((s.tim.dev : Int) + slewOf o) % (2 ^ 72 : Int)
      let run := s.anyRun
      let s := s.stepDevice (v.toNat / 256 * 256)
      if run then s.slewSet (slewOf o) else s
  s.hopCheck p hops

/-- NETLOCK after 16 Syncs in a row below the threshold (R378). -/
def State.lockCount (s : State) (o : Int) : State :=
  let below := decide (o.natAbs < s.get F.NET_SERVOCFG_LOCKTHR * 1000)
  let s := s.modServo (fun v => { v with good := if below then min 16 (v.good + 1) else 0 })
  if 16 ≤ s.servo.good then s.netLock else s

/-- The servo uses one copy of the Bellwether's Sync (R373, R377). -/
def State.servoUse (s : State) (p : Fin 3) (c : SyncCopy) : State :=
  let gid := s.servo.gm.map GmData.id
  let st := s.stage
  let re := st = stHOLD ∨ ((st = stTRACK ∨ st = stSETTLE ∨ st = stSLEW) ∧
    (s.get F.NET_TSTAT_TPORT ≠ p.val ∨ s.get F.NET_TSTAT_HOPS ≠ c.hops ∨ s.servo.copyGm ≠ gid))
  let s := s.modServo (fun v => { v with used := some c.seq, lastSync := s.now, copyGm := gid })
  let s := s.wr A.NET_OFS (sat32 c.o)
  let s := s.wr A.NET_CORR (sat32 c.total)
  let s := s.put F.NET_TSTAT_TPORT p
  let s := s.put F.NET_TSTAT_HOPS c.hops
  let s := if re then s.reroute p c.hops else s.slewStage
  let st := s.stage
  let s :=
    if st = stACQ then s.acquire p c.hops c.o
    else if st = stTRACK then s.loopUpdate c.o s.syncPs
    else if st = stSETTLE then s.settle c.o
    else s
  s.lockCount c.o

/-- Rank of a copy (R373): hop count, then total correction, then port. -/
def SyncCopy.le (a : SyncCopy) (pa : Nat) (b : SyncCopy) (pb : Nat) : Bool :=
  if a.hops != b.hops then decide (a.hops < b.hops)
  else if a.total != b.total then decide (a.total < b.total)
  else decide (pa ≤ pb)

/-- The copy that the servo uses now: the best copy of this sequenceId, once every port whose copy of the Sync before
ranked better has delivered its own (R373). -/
def State.chooseCopy (s : State) (seq : Nat) : Option (Fin 3 × SyncCopy) :=
  let have_ := allPorts.filterMap (fun p : Fin 3 => if s.portUp p then (s.nport p).copy.map (fun c => (p, c)) else none)
  let cur := have_.filter (fun x => x.2.seq == seq)
  let best := cur.foldl (fun (b : Option (Fin 3 × SyncCopy)) x => match b with
    | some y => if x.2.le x.1 y.2 y.1 then some x else b
    | none => some x) none
  match best with
  | some b =>
    let wait := have_.any (fun x => x.2.seq == (seq + 65535) % 65536 && x.2.le x.1 b.2 b.1)
    if wait then none else some b
  | none => none

/-- A copy of the Bellwether's Sync is complete on a port (R373). -/
def State.copyIn (s : State) (p : Fin 3) (seq hops : Nat) (rx origin corr : Int) : State :=
  let dly : Int := s.get (F.NET_PDELAY_DLY p)
  let c : SyncCopy := {
    seq := seq, hops := hops, total := corr + dly,
    o := rx - (origin + corr + dly + s.getI (F.NET_ASYM_ASYM p)) }
  let s := s.modNPort p (fun x => { x with copy := some c })
  if s.servo.used = some seq then s
  else match s.chooseCopy seq with
    | some (q, c) => s.servoUse q c
    | none => s

/-- A Sync of the Bellwether that the servo may use: its link delay is VALID. -/
def State.usable (s : State) (p : Fin 3) (src : PtpId) (dom : Nat) : Bool :=
  let st := s.stage
  dom == s.get F.NET_PTPCFG_DOMAIN && s.servo.gm.map GmData.id == some src.clk && s.bit (F.NET_PSTAT_PDVALID p)
    && src.clk != s.clockId && decide (2 ≤ st) && decide (st ≤ 6)

/-! ## Messages (R371, R372) -/

/-- A message that arrives on one port goes out of every other port in use under the once-per-port rule (R371). -/
def State.ptpForward (s : State) (p : Fin 3) (src : PtpId) (m : PtpMsg) (base : Option Int) : State :=
  let s := s.markSeen p m
  if src.clk = s.clockId then s
  else each (allPorts.filter (fun q => q != p)) (fun q s =>
    if s.portUp q && !s.wasSeen q m then (s.queuePtp q m base).markSeen q m else s) s

/-- A message arrives on a port in use. -/
def State.ptpIn (s : State) (p : Fin 3) (f : State → State) : State :=
  if s.portUp p then f (s.bump (F.NET_FRMCNT_RX p)) else s

/-- A Sync is received (R371 to R373, R377). -/
def State.syncReceive (s : State) (p : Fin 3) (ps : Nat) (src : PtpId) (seq dom : Nat) (two : Bool) (origin corr : Int)
    (hops : Nat) : State :=
  s.ptpIn p (fun s =>
    let rx := s.rxStamp p ps
    let base := rx - s.get (F.NET_PDELAY_DLY p) - s.getI (F.NET_ASYM_ASYM p)
    let s := s.ptpForward p src (.sync src seq dom two origin corr (min 255 (hops + 1))) (some base)
    if !s.usable p src dom then s
    else if two then
      s.modNPort p (fun x => { x with
        two := (x.two ++ [TwoStep.mk src seq rx corr hops]).drop (x.two.length - 7) })
    else s.copyIn p seq hops rx origin corr)

/-- A Follow_Up is received (R372). -/
def State.followUpReceive (s : State) (p : Fin 3) (src : PtpId) (seq dom : Nat) (origin corr : Int) : State :=
  s.ptpIn p (fun s =>
    let s := s.ptpForward p src (.followUp src seq dom origin corr) none
    match (s.nport p).two.find? (fun e => e.src == src && e.seq == seq) with
    | some e =>
      let s := s.modNPort p (fun x => { x with two := x.two.filter (fun y => y != e) })
      if s.usable p src dom then s.copyIn p seq e.hops e.rx origin (e.corr + corr) else s
    | none => s)

/-- An Announce is received. -/
def State.announceReceive (s : State) (p : Fin 3) (src : PtpId) (seq dom : Nat) (g : GmData) : State :=
  s.ptpIn p (fun s => (s.ptpForward p src (.announce src seq dom g) none).announceUse dom src g)

/-- A message that the device does not support is discarded and counted (R370). -/
def State.ptpUnsupported (s : State) (p : Fin 3) : State := s.ptpIn p (fun s => s.bumpSat (F.NET_ERRCNT_DISC p))

/-- The device's own port identity on a port. -/
def State.portId (s : State) (p : Fin 3) : PtpId := { clk := s.clockId, port := p.val + 1 }

/-- Sync as Bellwether, one-step, out of every port in use (R375). -/
def State.syncSend (s : State) : State :=
  if s.stage = stBW ∧ s.servo.syncAt + s.syncTicks ≤ s.now then
    let seq := s.servo.syncSeq
    let s := each allPorts (fun p s =>
      s.queuePtp p (.sync (s.portId p) seq (s.get F.NET_PTPCFG_DOMAIN) false 0 0 0) none) s
    s.modServo (fun v => { v with syncAt := s.now, syncSeq := (seq + 1) % 65536 })
  else s

/-- Announce as Bellwether (R375). -/
def State.announceSend (s : State) : State :=
  if s.stage = stBW ∧ s.servo.annTxAt + logTicks (s.getI F.NET_PTPCFG_LOGANN) ≤ s.now then
    let seq := s.servo.annSeq
    let s := each allPorts (fun p s =>
      s.queuePtp p (.announce (s.portId p) seq (s.get F.NET_PTPCFG_DOMAIN) s.ownGm) none) s
    s.modServo (fun v => { v with annTxAt := s.now, annSeq := (seq + 1) % 65536 })
  else s

/-- No usable Sync for 3 intervals: holdover (R379). -/
def State.syncTimeout (s : State) : State :=
  let st := s.stage
  if 3 ≤ st ∧ st ≤ 5 ∧ s.servo.lastSync + 3 * s.syncTicks ≤ s.now then
    ((s.holdover true).setStage stHOLD).record (cnet 4) (netCtx (s.get F.NET_TSTAT_TPORT) 0)
  else s

/-- HOLDMAX without a usable Sync (R379). -/
def State.holdmax (s : State) : State :=
  if s.stage = stHOLD ∧ s.bit F.TIM_STAT_NETLOCK ∧
      s.servo.lastSync + s.get F.NET_SERVOCFG_HOLDMAX * 16 * ticksPerMs ≤ s.now then s.timeLoss stHOLD
  else s

/-! ## PPS discipline (R375) -/

/-- A PPS_IN edge reaches the Bellwether's loop, `fine` its position in the tick. -/
def State.ppsLoop (s : State) (fine : Nat) : State :=
  if s.stage = stBW ∧ s.get F.TIM_CTL_SRC = 2 ∧ !s.tim.deadLines.contains 361 then
    let x := s.stampOf (s.inst fine) % secFine
    let d : Int := if 2 * x < secFine then x else (x : Int) - secFine
    let o := tdiv (d * 25) 2
    let below := decide (o.natAbs < s.get F.NET_SERVOCFG_LOCKTHR * 1000)
    let s := s.modServo (fun v => { v with
      ppsAt := s.now, ppsHold := none, ppsGood := if below then min 16 (v.ppsGood + 1) else 0 })
    s.loopUpdate o 1000000000000
  else s

/-- No PPS_IN edge for 2 s as Bellwether (R375). -/
def State.ppsLoss (s : State) : State :=
  if s.stage = stBW ∧ s.get F.TIM_CTL_SRC = 2 ∧ s.servo.ppsHold.isNone ∧ s.servo.ppsAt + 2 * ticksPerSec ≤ s.now then
    (s.modServo (fun v => { v with ppsHold := some s.now, ppsGood := 0 })).record (cnet 7) 0
  else s

/-! ## Peer delay (R370) -/

/-- A Pdelay_Req at the port's interval; an unanswered one before it is a missed response. -/
def State.pdelaySend (s : State) (p : Fin 3) : State :=
  if s.portUp p ∧ (s.nport p).pdAt + logTicks (s.getI F.NET_PTPCFG_LOGPD) ≤ s.now then
    let s := if (s.nport p).pdOpen then s.modNPort p (fun x => { x with pdMiss := x.pdMiss + 1 }) else s
    let s := if 3 ≤ (s.nport p).pdMiss then s.pdClear p else s
    let seq := ((s.nport p).pdSeq + 1) % 65536
    let s := s.modNPort p (fun x => { x with pdSeq := seq, pdOpen := true, pdAt := s.now, pdT1 := none, pdPart := none })
    s.queuePtp p (.pdReq (s.portId p) seq) none
  else s

/-- A Pdelay_Req is answered with a one-step Pdelay_Resp. -/
def State.pdelayAnswer (s : State) (p : Fin 3) (ps : Nat) (src : PtpId) (seq : Nat) : State :=
  s.ptpIn p (fun s => s.queuePtp p (.pdResp src seq 0) (some (s.rxStamp p ps)))

/-- An exchange is complete: twice the delay joins the last eight, and their mean is shown. -/
def State.pdelayDone (s : State) (p : Fin 3) (twice : Int) : State :=
  let s := s.modNPort p (fun x => { x with
    pdOpen := false, pdPart := none, pdMiss := 0, pdGood := min 8 (x.pdGood + 1)
    pdHist := (x.pdHist ++ [twice]).drop (x.pdHist.length - 7) })
  let h := (s.nport p).pdHist
  let (m, s) := s.roundFree h.sum (2 * h.length)
  let s := s.wr (A.NET_PDELAY p) (wOfInt m)
  if 8 ≤ (s.nport p).pdGood then s.putB (F.NET_PSTAT_PDVALID p) true else s

/-- A Pdelay_Resp, or the Pdelay_Resp_Follow_Up that completes a two-step one; `ts`: the time stamp it carries. -/
def State.pdelayResp (s : State) (p : Fin 3) (ps : Nat) (fup two : Bool) (req : PtpId) (seq : Nat) (ts corr : Int) :
    State :=
  s.ptpIn p (fun s =>
    let x := s.nport p
    match x.pdT1 with
    | some t1 =>
      if req ≠ s.portId p ∨ seq ≠ x.pdSeq ∨ !x.pdOpen then s
      else if fup then
        match x.pdPart with
        | some (t4, t2, c1) => s.pdelayDone p ((t4 - t1) - (ts - t2) - c1 - corr)
        | none => s
      else if two then s.modNPort p (fun x => { x with pdPart := some (s.rxStamp p ps, ts, corr) })
      else s.pdelayDone p ((s.rxStamp p ps - t1) - corr)
    | none => s)

/-! ## Lock -/

/-- Servo and ports at Paddock lock. -/
def State.ptpLock (s : State) : State :=
  let src := s.get F.TIM_CTL_SRC
  let s := s.setStage (if (src = 1 ∨ src = 2) ∧ !s.load.yoked then stLISTEN else stSOFF)
  let s := s.modServo (fun v => { v with annAt := s.now, lastSync := s.now })
  s.modNet (fun n => { n with lockAt := s.now })

/-- The servo of a device that becomes ACTIVE moves to the network path; device time is slewed, not stepped (R341). -/
def State.ptpActive (s : State) : State :=
  let src := s.get F.TIM_CTL_SRC
  if src ≠ 1 ∧ src ≠ 2 then s
  else
    let s := (s.setStage stLISTEN).modServo (fun v => { v with annAt := s.now, lastSync := s.now, copyGm := none })
    let s := if s.servo.foreign.isEmpty then s else s.runBmca
    if s.stage = stACQ then s.setStage stTRACK else s

/-- The servo of a device that leaves ACTIVE follows the yoke link (R341). -/
def State.ptpIdle (s : State) : State := s.setStage stSOFF

end Sys2Proof.Machine
end

