-- ==== Sys2Proof/Machine/Serial.lean ====
section
/-!
DEFINITION. The flash port (R406 to R417), the fuses (R429) and the peripheral ports PMS0 to PMS3 (R430 to R434).  The
flash itself lies outside the block: what it answers comes with the commands.
-/
namespace Sys2Proof.Machine

/-! ## The flash port on its balls (R406 to R408) -/

/-- SER_FLSRD shows the profile in force. -/
def State.rdShow (s : State) (p : RdProfile) : State :=
  let s := (s.put F.SER_FLSRD_CMD p.cmd).put F.SER_FLSRD_DUMMY p.dummy
  let s := (s.putB F.SER_FLSRD_ABYTES4 (p.abytes == 4)).put F.SER_FLSRD_SCKDIV p.div
  let s := (s.putB F.SER_FLSRD_FAST p.fast).put F.SER_FLSRD_DLANES p.dl
  (s.put F.SER_FLSRD_ALANES p.al).put F.SER_FLSRD_CLANES p.cl

/-- The profile in force. -/
def State.rdProfile (s : State) : RdProfile :=
  { cmd := s.get F.SER_FLSRD_CMD, cl := s.get F.SER_FLSRD_CLANES, al := s.get F.SER_FLSRD_ALANES,
    dl := s.get F.SER_FLSRD_DLANES, abytes := if s.bit F.SER_FLSRD_ABYTES4 then 4 else 3, dummy := s.get F.SER_FLSRD_DUMMY,
    div := s.get F.SER_FLSRD_SCKDIV, fast := s.bit F.SER_FLSRD_FAST }

/-- Lanes of a phase from its code. -/
def laneCount (code : Nat) : Nat := 2 ^ code

/-- What the port drives on FLS_IO0 to FLS_IO7 in one FLS_SCK cycle; none: high impedance. -/
abbrev FlsDrive := List (Option Bool)

def flsHiZ : FlsDrive := List.replicate 8 none

/-- A byte on L lanes, most significant bits first, the highest lane with the most significant bit of a group. -/
def laneByte (code : Nat) (b : Nat) : List FlsDrive :=
  let l := laneCount code
  (List.range (8 / l)).map (fun i => (List.range 8).map (fun j => if j < l then some (b.testBit (8 - l * (i + 1) + j)) else none))

/-- A transaction cycle by cycle: command, address, dummy cycles, data; high impedance from the end of the last bit driven
through the dummy and read-data phases. -/
def FlsTxn.drive (x : FlsTxn) : List FlsDrive :=
  laneByte x.cl x.cmd
    ++ (match x.addr with
        | some a => (beBytes x.abytes a).flatMap (fun b => laneByte x.al b.toNat)
        | none => [])
    ++ List.replicate x.dummy flsHiZ
    ++ x.out.flatMap (fun b => laneByte x.dl b.toNat)
    ++ List.replicate (x.inp * (8 / laneCount x.dl)) flsHiZ

/-- The balls of the port in one half cycle of FLS_SCK. -/
structure FlsPins where
  csN : Bool
  sck : Bool
  io : FlsDrive
  deriving DecidableEq, Repr

/-- The balls while no transaction runs: FLS_SCK idles low (mode 0). -/
def FlsPins.idle : FlsPins := { csN := true, sck := false, io := flsHiZ }

/-- A transaction in half cycles, the port's output changing at the falling edges: low half, then high half. -/
def FlsTxn.pins (x : FlsTxn) : List FlsPins :=
  x.drive.flatMap (fun d => [{ csN := false, sck := false, io := d }, { csN := false, sck := true, io := d }])

/-- CLK_BUS periods of one transaction. -/
def FlsTxn.busCycles (x : FlsTxn) : Nat := x.drive.length * x.div

/-- The transactions last put on the port, each followed by CSHI cycles with FLS_CS_N high. -/
def State.flsPins (s : State) : List FlsPins :=
  s.ser.bus.flatMap (fun x => x.pins ++ List.replicate (2 * s.get F.SER_FLSTIM_CSHI) FlsPins.idle)

/-- A transaction on one lane, as the port writes the flash (R411). -/
def State.oneLane (s : State) (cmd : Nat) (addr : Option Nat) (out : List Byte) (inp : Nat) : FlsTxn :=
  { cmd := cmd, addr := addr, abytes := 3, dummy := 0, out := out, inp := inp, cl := 0, al := 0, dl := 0,
    div := s.get F.SER_FLSRD_SCKDIV, smp := s.get F.SER_FLSTIM_SMPDLY }

/-- A read of n bytes at the profile in force, FLS_SCK at CLK_BUS ÷ `div`. -/
def State.readTxn (s : State) (a n div : Nat) : FlsTxn :=
  let p := s.rdProfile
  { cmd := p.cmd, addr := some a, abytes := p.abytes, dummy := p.dummy, out := [], inp := n, cl := p.cl, al := p.al,
    dl := p.dl, div := div, smp := s.get F.SER_FLSTIM_SMPDLY }

/-- The port puts these transactions on the flash. -/
def State.busSet (s : State) (l : List FlsTxn) : State := s.modSer (fun x => { x with bus := l })

/-- A read at the profile in force. -/
def State.busRead (s : State) (a n : Nat) : State := s.busSet [s.readTxn a n (s.get F.SER_FLSRD_SCKDIV)]

/-- The flash software reset (R115, R413). -/
def State.busReset (s : State) : State := s.busSet [s.oneLane 0x66 none [] 0, s.oneLane 0x99 none [] 0]

/-- One poll of the flash status. -/
def State.busPoll (s : State) : State := s.busSet [s.oneLane (s.get F.SER_FLSOPC_RDSR) none [] 1]

/-- A program or an erase (R411). -/
def State.busOp (s : State) (op : FlsEntry) : State :=
  let we := s.oneLane (s.get F.SER_FLSOPC_WREN) none [] 0
  match op with
  | .prog a b _ => s.busSet [we, s.oneLane (s.get F.SER_FLSOPC_PP) (some a) b 0]
  | .erase a _ => s.busSet [we, s.oneLane (s.get F.SER_FLSOPC_SE) (some (a / 4096 * 4096)) [] 0]

/-! ## Translated writes -/

def cnvm (d : Nat) : Nat := fcode cNVM d

/-- First flash address of an image slot (R70). -/
def slotBase (slot : Nat) : Nat := if slot = 0 then 0x100000 else 0x880000

/-- Bytes of an image slot. -/
def slotSize : Nat := 0x780000

/-- Do [a, a + n) and [b, b + m) overlap? -/
def overlap (a n b m : Nat) : Bool := decide (a < b + m) && decide (b < a + n)

/-- A translated write to these addresses is discarded (R87, R414): the slot loaded from, the selector sectors while they
are read, the XIP range. -/
def State.flsProtected (s : State) (a n : Nat) : Bool :=
  (s.load.accepted && overlap a n (slotBase s.load.slot) slotSize)
    || (s.get F.IDG_LOADSTAT_PHASE == 3 && overlap a n 0 0x2000)
    || (s.load.xip && overlap a n s.load.xipLo (s.load.xipHi - s.load.xipLo))

/-- Addresses of an entry: first one and count. -/
def FlsEntry.range : FlsEntry → Nat × Nat
  | .prog a b _ => (a, b.length)
  | .erase a _ => (a / 4096 * 4096, 4096)

/-- SER_FLSSTAT as the port stands. -/
def State.flsStat (s : State) : State :=
  let s := s.putB F.SER_FLSSTAT_BUSY s.ser.run.isSome
  let s := s.putB F.SER_FLSSTAT_GATHER s.ser.gather.isSome
  s.put F.SER_FLSSTAT_QLVL s.ser.queue.length

/-- The bytes of a gathered page, from the lowest to the highest, 0xFF where none was gathered (R411). -/
def FlsGather.entry (g : FlsGather) : FlsEntry :=
  let offs := g.bytes.map Prod.fst
  let lo := offs.foldl min 255
  let hi := offs.foldl max 0
  .prog (g.page * 256 + lo) ((List.range (hi + 1 - lo)).map (fun i =>
    match g.bytes.find? (fun p => p.1 == lo + i) with
    | some p => p.2
    | none => 0xFF)) g.w

/-- Join bytes to a page's gathered bytes; a later byte replaces an earlier one. -/
def FlsGather.join (g : FlsGather) (a : Nat) (b : List Byte) (t : Tick) : FlsGather :=
  let new := b.mapIdx (fun i x => ((a + i) % 256, x))
  { g with bytes := g.bytes.filter (fun p => !new.any (fun q => q.1 == p.1)) ++ new, at_ := t }

/-- An operation starts in the flash (R411). -/
def State.flsStart (s : State) (op : FlsEntry) : State :=
  let s := (s.modSer (fun x => { x with run := some { op := op, start := s.now, again := false, resetWait := false } })).busOp op
  match op with
  | .prog .. => s.bump F.SER_FLSCNT_PROGS
  | .erase .. => s.bump F.SER_FLSCNT_ERASES

/-- Program what has been gathered. -/
def State.flsProgram (s : State) : State :=
  match s.ser.gather with
  | some g => if s.ser.run.isSome then s else (s.modSer (fun x => { x with gather := none })).flsStart g.entry
  | none => s

/-- The port takes its queue while no operation runs: programs gather, anything else closes the gathering (R411). -/
def State.flsPump : Nat → State → State
  | 0, s => s
  | n + 1, s =>
    if s.ser.run.isSome then s
    else match s.ser.queue, s.ser.gather with
      | [], _ => s
      | .prog a b w :: r, none =>
        flsPump n (s.modSer (fun x => { x with
          queue := r, gather := some (FlsGather.join { page := a / 256, bytes := [], w := w, at_ := s.now } a b s.now) }))
      | .prog a b w :: r, some g =>
        if g.page = a / 256 ∧ g.w = w then
          flsPump n (s.modSer (fun x => { x with queue := r, gather := some (g.join a b s.now) }))
        else s.flsProgram
      | .erase a w :: r, none => (s.modSer (fun x => { x with queue := r })).flsStart (.erase a w)
      | .erase .. :: _, some _ => s.flsProgram

/-- Stalled writers enter the queue as entries free. -/
def State.flsUnblock (s : State) : State :=
  let n := 64 - s.ser.queue.length
  s.modSer (fun x => { x with queue := x.queue ++ x.blocked.take n, blocked := x.blocked.drop n })

/-- Let the port proceed. -/
def State.flsRunQueue (s : State) : State :=
  (State.flsPump 65 (State.flsPump 65 s).flsUnblock).flsUnblock.flsStat

/-- A translated write arrives at the port (R410, R414). -/
def State.flsWrite (s : State) (e : FlsEntry) : State :=
  if s.ser.closed then s
  else if s.flsProtected e.range.1 e.range.2 then
    (s.record (cnvm 5) (e.range.1 % 2 ^ 24)).raise F.SER_FLSSTAT_PROT
  else if s.ser.queue.length < 64 then (s.modSer (fun x => { x with queue := x.queue ++ [e] })).flsRunQueue
  else s.modSer (fun x => { x with blocked := x.blocked ++ [e] })

/-- A core's store of bytes at a flash address (R410). -/
def State.progStore (s : State) (w : Writer) (a : Nat) (b : List Byte) : State :=
  s.flsWrite (.prog (a % 2 ^ 24) b w)

def State.eraseStore (s : State) (w : Writer) (a : Nat) : State := s.flsWrite (.erase (a % 2 ^ 24) w)

/-- SER_FLSADDR; its bits 1:0 read 0. -/
def State.flsAddr (s : State) : Nat := s.get F.SER_FLSADDR_ADDR / 4 * 4

/-- A write to SER_FLSWDATA (R410). -/
def State.flsWdata (s : State) (w : Writer) (v : Word) : State :=
  let a := s.flsAddr
  (s.progStore w a (leBytes 4 v.toNat)).put F.SER_FLSADDR_ADDR (a + 4)

/-- FLUSH, or 2 µs without a program byte (R411). -/
def State.flsFlush (s : State) : State := s.flsProgram.flsStat

def State.flsGatherTimeout (s : State) : State :=
  match s.ser.gather with
  | some g => if g.at_ + 625 ≤ s.now then s.flsFlush else s
  | none => s

/-- Entries that a read of these addresses waits for (R415). -/
def State.flsPending (s : State) (a n : Nat) : Bool :=
  (match s.ser.run with
   | some r => overlap a n r.op.range.1 r.op.range.2
   | none => false)
    || s.ser.queue.any (fun e => overlap a n e.range.1 e.range.2)
    || s.ser.blocked.any (fun e => overlap a n e.range.1 e.range.2)
    || (match s.ser.gather with
        | some g => overlap a n g.entry.range.1 g.entry.range.2
        | none => false)

/-- A core may fetch an instruction at this flash address: only in the XIP section's range (R86). -/
def State.xipFetch (s : State) (a : Nat) : Bool := s.load.xip && decide (s.load.xipLo ≤ a) && decide (a < s.load.xipHi)

/-- A core reads the flash window: served from the line cache, else a line is filled with what the flash answers, once
no write is pending (R409, R411, R415).  An instruction fetch outside the XIP range is not served (R86); what the core sees
then, the spec does not say (log entry 89). -/
def State.windowRead (s : State) (rdr : Fin 4) (fetch : Bool) (a : Nat) (line : List Byte) : State :=
  if fetch ∧ !s.xipFetch (a % 2 ^ 24) then s else
  let a := a % 2 ^ 24 / 4 * 4
  let base := a / 64 * 64
  let give (s : State) (l : List Byte) : State :=
    { s with lastRead := s.lastRead.set rdr (BitVec.ofNat 32 (le l (a - base) 4)) }
  let s := s.flsFlush
  if s.flsPending a 4 then s
  else match s.ser.lines.find? (fun l => l.1 == base) with
    | some l => give s l.2
    | none =>
      if s.ser.run.isSome then s
      else
        if line.length ≠ 64 then s
        else
          give ((s.busRead base 64).modSer (fun x => { x with lines := (x.lines ++ [(base, line)]).drop (x.lines.length - 15) })) line

/-- A read of SER_FLSRDATA is served: what the flash answers, and SER_FLSADDR rises by 4 (R415). -/
def State.flsRdata (s : State) (data : Word) : Option Word × State :=
  let s := s.flsFlush
  let a := s.flsAddr
  if s.ser.run.isSome || s.flsPending a 4 then (none, s)
  else (some data, (s.busRead a 4).put F.SER_FLSADDR_ADDR (a + 4))

/-- The lines that an operation touched are invalid from its end (R415). -/
def State.flsInvalidate (s : State) (op : FlsEntry) : State :=
  s.modSer (fun x => { x with lines := x.lines.filter (fun l => !overlap l.1 64 op.range.1 op.range.2) })

/-- The status poll shows the operation complete; `good`: the read-back of R412 agrees. -/
def State.flsEnd (s : State) (good : Bool) : State :=
  match s.ser.run with
  | none => s
  | some r =>
    let s := s.busPoll
    let done (s : State) : State := ((s.modSer (fun x => { x with run := none })).flsInvalidate r.op).flsRunQueue
    if r.resetWait then done s
    else match r.op with
      | .erase .. => done s
      | .prog a b _ =>
        let s := if s.bit F.SER_FLSCTL_VERIFY then s.busRead a b.length else s
        if !s.bit F.SER_FLSCTL_VERIFY ∨ good then done s
        else if !r.again then
          ((s.modSer (fun x => { x with run := some { r with again := true, start := s.now } })).raise
            F.SER_FLSSTAT_RETRY).busOp r.op
        else done ((s.record (cnvm 4) a).raise F.SER_FLSSTAT_VERIFY)

/-- An operation exceeds its timeout, or the flash stays busy after the reset that follows it (R413). -/
def State.flsTimeout (s : State) : State :=
  match s.ser.run with
  | none => s
  | some r =>
    let erase := s.get F.SER_FLSTMO_ERASE * ticksPerMs
    if r.resetWait then
      if r.start + 31250 + erase ≤ s.now then
        ((s.modSer (fun x => { x with run := none, queue := [] })).record (cnvm 7) r.op.range.1).flsRunQueue
      else s
    else
      let (lim, det) := match r.op with
        | .prog .. => (s.get F.SER_FLSTMO_PROG * 3125, 2)
        | .erase .. => (erase, 3)
      if r.start + lim ≤ s.now then
        let s := (s.record (cnvm det) r.op.range.1).raise F.SER_FLSSTAT_TMO
        ((s.modSer (fun x => { x with run := some { r with resetWait := true, start := s.now } })).flsInvalidate r.op).busReset
      else s

/-! ## Fuses (R99, R429) -/

/-- BOOT_FUSESEC as the fuses stand.  R108 says that the BOOT registers read 0 while no image has been accepted, and gives
this one `fuses` for its reset: the model shows the fuses from reset on (log entry 88). -/
def State.fuseShow (s : State) : State :=
  let mask (f : KeySlot → Bool) : Nat :=
    (List.finRange 4).foldl (fun a i => a + (if f s.fuse.keys[i] then 2 ^ i.val else 0)) 0
  let s := s.put F.BOOT_FUSESEC_SEC_FLOOR s.fuse.floor
  let s := s.put F.BOOT_FUSESEC_KEY_REVOKED (mask KeySlot.rev)
  s.put F.BOOT_FUSESEC_KEY_PROG (mask KeySlot.prog)

/-- The 32 octets held in SER_FUSEKEY0 to SER_FUSEKEY7. -/
def State.fuseKey (s : State) : List Byte := (List.range 8).flatMap (fun i => beBytes 4 (s.rd (A.SER_FUSEKEY i)).toNat)

/-- The refusal code of a fuse operation, 0 for none (R429). -/
def State.fuseRefuse (s : State) (op : FuseOp) : Nat :=
  if allTeams.any (fun t => s.tstate t == stRUN || s.tstate t == stWAIT) then 1
  else match op with
    | .program k => if (s.fuse.keys[k]).prog then 2 else 0
    | .revoke k => if (s.fuse.keys[k]).prog then 0 else 2
    | .floor v => if v ≤ s.fuse.floor ∨ s.get F.BOOT_IMGID_SEC_VER < v then 3 else 0

/-- GO: the operation starts or is refused; only the service port reaches the fuses (R99, R429). -/
def State.fuseGo (s : State) (w : Writer) (op : FuseOp) : State :=
  if w ≠ .svc ∨ s.ser.fuseOp.isSome then s
  else
    let c := s.fuseRefuse op
    if c ≠ 0 then (s.raise F.SER_FUSESTAT_ERR).put F.SER_FUSESTAT_CODE c
    else (s.modSer (fun x => { x with fuseOp := some op })).putB F.SER_FUSESTAT_BUSY true

/-- The operation ends; `good`: the read-back agrees. -/
def State.fuseDone (s : State) (good : Bool) : State :=
  match s.ser.fuseOp with
  | none => s
  | some op =>
    let s := (s.modSer (fun x => { x with fuseOp := none })).putB F.SER_FUSESTAT_BUSY false
    if !good then (s.raise F.SER_FUSESTAT_ERR).put F.SER_FUSESTAT_CODE 4
    else
      let key := s.fuseKey
      let f := s.fuse
      let f := match op with
        | .program k => { f with keys := f.keys.set k { f.keys[k] with hash := key, prog := true } }
        | .revoke k => { f with keys := f.keys.set k { f.keys[k] with rev := true } }
        | .floor v => { f with floor := v }
      (({ s with fuse := f }.raise F.SER_FUSESTAT_DONE).put F.SER_FUSESTAT_CODE 0).fuseShow

/-! ## Peripheral ports -/

def State.pms (s : State) (q : Fin 4) : PmsSt := s.ser.pms[q]

def State.pmsSlave (s : State) (q : Fin 4) : Bool := s.bit (F.SER_PMSCFG_ROLE q)

/-- Port q serves port q − 1 as lanes 4 to 7 (R430). -/
def State.pmsTaken (s : State) (q : Fin 4) : Bool := q.val % 2 == 1 && s.bit (F.SER_PMSCFG_PAIR (q.val - 1))

/-- The levels of SER_PMSSTAT as the port stands. -/
def State.pmsStat (s : State) (q : Fin 4) : State :=
  let x := s.pms q
  let s := s.putB (F.SER_PMSSTAT_BUSY q) (x.run.isSome || s.bit (F.SER_PMSSTAT_SLVSEL q))
  let s := s.put (F.SER_PMSSTAT_QLVL q) x.queue.length
  let s := s.put (F.SER_PMSSTAT_TXLVL q) x.tx.length
  s.put (F.SER_PMSSTAT_RXLVL q) x.rx.length

/-- The entry that a word written to SER_PMSQ describes (R431). -/
def pmsEntry (w : Word) : PmsEntry :=
  let f (x : Fld) : Nat := bitsGet w x.lo x.width
  let n := max 3 (f (F.SER_PMSQ_WLEN 0)) + 1
  let l := f (F.SER_PMSQ_LANES 0)
  let ntx := f (F.SER_PMSQ_NTX 0)
  let nrx := f (F.SER_PMSQ_NRX 0)
  { cont := f (F.SER_PMSQ_CONT 0) = 1 || (l != 0 && ntx != 0 && nrx != 0), cs := f (F.SER_PMSQ_CS 0) = 1, lanes := l,
    dummy := f (F.SER_PMSQ_DUMMY 0), wbits := (n + laneCount l - 1) / laneCount l * laneCount l, ntx := ntx, nrx := nrx }

/-- A write to SER_PMSQ (R431). -/
def State.pmsQueue (s : State) (q : Fin 4) (w : Word) : State :=
  let e := pmsEntry w
  let bad := s.pmsTaken q || (e.ntx == 0 && e.nrx == 0) || (e.lanes == 0 && e.nrx != 0)
    || (e.lanes == 3 && !(q.val % 2 == 0 && s.bit (F.SER_PMSCFG_PAIR q))) || decide (16 ≤ (s.pms q).queue.length)
  if bad then s.raise (F.SER_PMSSTAT_QERR q)
  else (s.modPms q (fun x => { x with queue := x.queue ++ [e] })).pmsStat q

/-- A word of `n` bits. -/
def lowBits (n : Nat) (w : Word) : Word := BitVec.ofNat 32 (w.toNat % 2 ^ n)

/-- The words that move before a FIFO holds the port up (R431, R432). -/
def PmsSt.move : Nat → PmsSt → PmsRun → PmsSt × PmsRun
  | 0, x, r => (x, r)
  | n + 1, x, r =>
    if r.sent.length < r.e.ntx then
      match x.tx with
      | [] => (x, r)
      | w :: tx =>
        if r.e.lanes = 0 then
          if 64 ≤ x.rx.length then (x, r)
          else move n { x with tx := tx, rx := x.rx ++ [lowBits r.e.wbits (r.answer.headD 0)] }
            { r with sent := r.sent ++ [lowBits r.e.wbits w], answer := r.answer.tail }
        else move n { x with tx := tx } { r with sent := r.sent ++ [lowBits r.e.wbits w] }
    else if r.got < r.e.nrx ∧ x.rx.length < 64 then
      move n { x with rx := x.rx ++ [lowBits r.e.wbits (r.answer.headD 0)] }
        { r with got := r.got + 1, answer := r.answer.tail }
    else (x, r)

/-- The entry has moved all its words. -/
def PmsRun.complete (r : PmsRun) : Bool := r.sent.length == r.e.ntx && r.got == r.e.nrx

/-- Let a running entry proceed as far as the FIFOs allow. -/
def State.pmsProgress (s : State) (q : Fin 4) : State :=
  match (s.pms q).run with
  | some r =>
    let (x, r) := PmsSt.move 255 (s.pms q) r
    (s.modPms q (fun _ => { x with run := some r })).pmsStat q
  | none => s.pmsStat q

/-- The next entry starts; `answer`: the words the partner sends in it. -/
def State.pmsStart (s : State) (q : Fin 4) (answer : List Word) : State :=
  let x := s.pms q
  if !s.bit (F.SER_PMSCFG_EN q) ∨ s.pmsSlave q ∨ s.pmsTaken q ∨ x.run.isSome then s
  else match x.queue with
    | [] => s
    | e :: r => (s.modPms q (fun x => { x with
        queue := r, run := some { e := e, sent := [], got := 0, answer := answer } })).pmsProgress q

/-- The entry completes. -/
def State.pmsDone (s : State) (q : Fin 4) : State :=
  match (s.pms q).run with
  | some r =>
    if r.complete then ((s.modPms q (fun x => { x with run := none })).raise (F.SER_PMSSTAT_DONE q)).pmsStat q else s
  | none => s

/-- A write to SER_PMSTX. -/
def State.pmsTx (s : State) (q : Fin 4) (w : Word) : State :=
  if (s.pms q).tx.length < 64 then (s.modPms q (fun x => { x with tx := x.tx ++ [w] })).pmsProgress q else s

/-- A read of SER_PMSRX. -/
def State.pmsRx (s : State) (q : Fin 4) : Word × State :=
  match (s.pms q).rx with
  | [] => (0, s.raise (F.SER_PMSSTAT_RXUNF q))
  | w :: r => (w, (s.modPms q (fun x => { x with rx := r })).pmsProgress q)

/-- A slave begins the next word from the TX FIFO, or sends 0 (R433). -/
def State.pmsBegin (s : State) (q : Fin 4) : State :=
  match (s.pms q).tx with
  | [] => (s.modPms q (fun x => { x with cur := some 0 })).raise (F.SER_PMSSTAT_TXUNF q)
  | w :: r => s.modPms q (fun x => { x with cur := some w, tx := r })

/-- Push a received word of a slave. -/
def State.pmsPush (s : State) (q : Fin 4) (w : Word) : State :=
  if (s.pms q).rx.length < 64 then s.modPms q (fun x => { x with rx := x.rx ++ [w] })
  else s.raise (F.SER_PMSSTAT_RXOVF q)

def State.pmsIsSlave (s : State) (q : Fin 4) : Bool := s.bit (F.SER_PMSCFG_EN q) && s.pmsSlave q && !s.pmsTaken q

/-- A slave port completes a word (R433). -/
def State.pmsSlaveWord (s : State) (q : Fin 4) (w : Word) : State :=
  if !s.pmsIsSlave q then s
  else
    let s := if (s.pms q).cur.isNone then s.pmsBegin q else s
    let s := s.putB (F.SER_PMSSTAT_SLVSEL q) true
    ((s.pmsPush q (lowBits (s.get (F.SER_PMSCFG_SWLEN q) + 1) w)).pmsBegin q).pmsStat q

/-- A slave select rises after `b` bits of a word (R433). -/
def State.pmsRelease (s : State) (q : Fin 4) (b : Nat) (w : Word) : State :=
  if !s.pmsIsSlave q ∨ s.get (F.SER_PMSCFG_SWLEN q) < b then s
  else
    let s := s.putB (F.SER_PMSSTAT_SLVSEL q) false
    if b = 0 then s.pmsStat q
    else
      let s := if (s.pms q).cur.isNone then s.pmsBegin q else s
      let s := (s.pmsPush q (lowBits b w)).modPms q (fun x => { x with cur := none })
      ((s.raise (F.SER_PMSSTAT_ODDREL q)).put (F.SER_PMSODD_BITS q) b).pmsStat q

end Sys2Proof.Machine
end

