-- ==== Sys2Proof/Machine/Yoke.lean ====
section
/-!
DEFINITION. The yoke (R338 to R363): roles, the claim of the selector, the link's frames, and the adoption of a partner's
commits.
-/
namespace Sys2Proof.Machine

def roNONE : Nat := 0
def roINIT : Nat := 1
def roSYNC : Nat := 2
def roSHADOW : Nat := 3
def roACTIVE : Nat := 4
def roSTANDBY : Nat := 5

def State.role (s : State) : Nat := s.get F.YOK_STAT_ROLE

/-- YOKE details (R362). -/
def cyok (d : Nat) : Nat := fcode cYOKE d

/-- Context of a YOKE record: the partner's address. -/
def State.yctx (s : State) : Nat := s.load.partner % 4096

/-! ## What is yoked -/

def State.yokedTeam (s : State) (t : Fin 24) : Bool := s.bitAt F.YOK_TEAMS_TEAMS t
def State.yokedTask (s : State) (k : Fin 36) : Bool :=
  s.bit (F.YOK_SMAP_EN k) && (match taskTeam k with
    | some t => s.yokedTeam t
    | none => true)
def State.yokedTasks (s : State) : List (Fin 36) := (List.finRange 36).filter (fun k => s.yokedTask k && s.taskEn k)
def State.yokedTeams (s : State) : List (Fin 24) := allTeams.filter (fun t => s.yokedTeam t)

/-- The task's committed state range: first word and length. -/
def State.smap (s : State) (k : Fin 36) : Nat × Nat := (s.get (F.YOK_SMAP_BASE k), s.get (F.YOK_SMAP_LENM1 k) + 1)

/-- State word `i` lies in the task's range. -/
def State.inSmap (s : State) (k : Fin 36) (i : Nat) : Bool :=
  let (b, n) := s.smap k
  decide (b ≤ i) && decide (i < b + n)

/-! ## What a run commits (R246) -/

/-- The enabled output words of a team task, in map order: register address and word. -/
def State.outPairs (s : State) (k : Fin 36) (out : Vector Word 32) : List (Nat × Word) :=
  if k.val < 24 then
    (List.finRange 32).filterMap (fun (i : Fin 32) =>
      let e := s.outmap k i
      if bitsGet e 31 1 = 1 then some (bitsGet e 0 24, out.get i) else none)
  else []

/-- Write words to the shadowed registers that a task's output map names. -/
def State.applyOut (s : State) (w : Writer) (l : List (Nat × Word)) : State :=
  each l (fun p s => s.outWrite w p.1 p.2) s

/-- Write state words of a journal that satisfy a test. -/
def State.applyState (s : State) (j : List JWrite) (p : Nat → Bool) : State :=
  each j (fun e s => match e with
    | .state i w => if p i then s.memSet (K.state (i % 8192)) w else s
    | .cap _ _ => s) s

/-- The words of a task's range as state memory holds them. -/
def State.rangeWords (s : State) (k : Fin 36) : List Word :=
  let (b, n) := s.smap k
  (List.range n).map (fun i => s.memGet (K.state ((b + i) % 8192)))

/-! ## The liveness monitor and VIEW (R344, R346) -/

def State.wdExpired (s : State) : Bool :=
  let w := s.get F.YOK_WDCFG_WDT
  w != 0 && decide (s.yok.wdAt + w * 3125 ≤ s.now)

def State.monitorOk (s : State) : Bool := s.clkOn && !s.yok.fault && !s.wdExpired

/-- The device's VIEW (R346). -/
def State.yokView (s : State) : Bool :=
  s.yokedTeams.all (fun t => !(s.tstate t == stWAIT || s.tstate t == stRUN) || s.teamReady t)
    && (List.finRange 8).all (fun p => match s.fbkTeam p with
      | some t => !s.yokedTeam t || !s.bit (F.FBK_STAT_LOST p)
      | none => true)

/-- ACT_IN reads low and is outside its band. -/
def State.actLow (s : State) : Bool := !s.yok.actIn && !s.bit F.IDG_INBAND_ACT_IN

/-! ## Roles (R343 to R346, R349, R350) -/

/-- Take a role; the servo and the ACTONLY outputs follow it (R313, R341, R346). -/
def State.setRole (s : State) (v : Nat) : State :=
  let old := s.role
  if old = v then s
  else
    let s := (s.put F.YOK_STAT_ROLE v).putB F.YOK_STAT_READY (v == roSHADOW)
    let s := if v = roACTIVE then s.ptpActive else if old = roACTIVE then s.ptpIdle else s
    if v = roACTIVE ∨ old = roACTIVE then s.outsRefresh else s

/-- Claim the selector: KIND of YOK_TAKE (R350, R363). -/
def State.claim (s : State) (kind : Nat) : State :=
  let s := (s.setRole roACTIVE).putB F.YOK_STAT_ACTOUT true
  let s := s.raise F.YOK_STAT_TAKEOVER
  let s := s.wr A.YOK_TAKE0 (BitVec.ofNat 32 s.tim.dev)
  s.wr A.YOK_TAKE1 (BitVec.ofNat 32 (kind * 256 + s.tim.dev / 2 ^ 32 % 256))

/-- Drive ACT_OUT low, for a cause of R349, and take a role. -/
def State.releaseAct (s : State) (cause role : Nat) : State :=
  if !s.bit F.YOK_STAT_ACTOUT then s
  else
    let s := (s.putB F.YOK_STAT_ACTOUT false).put F.YOK_RELCAUSE_CAUSE cause
    let s := s.record (cyok 6) (s.yctx + cause * 2 ^ 16)
    (s.modYok (fun y => { y with both := none, window := [] })).setRole role

/-- A SHADOW device, or with COLDTAKE one in SYNC or STANDBY, finds ACT_IN low: it claims in the next tick (R350).  A link
lost in the same tick does not bar the claim (R361). -/
def State.claimSeen (s : State) : State :=
  let s := if s.yok.lostAt = some s.now ∧ s.role = roSTANDBY then s.setRole roSHADOW else s
  let r := s.role
  if s.actLow ∧ !s.due.any (fun e => e.2 == .claim)
      ∧ (r = roSHADOW ∨ ((r = roSYNC ∨ r = roSTANDBY) ∧ s.bit F.YOK_CFG_COLDTAKE)) then
    (s.modYok (fun y => { y with td := s.now })).defer (s.now + 1) .claim
  else s

/-- VIEW, the roles that follow it, and the liveness monitor, as the state now stands (R344, R346, R349). -/
def State.yokCheck (s : State) : State :=
  if !s.load.yoked ∨ !s.load.locked then s
  else
    let v := s.yokView
    let s := s.putB F.YOK_STAT_VIEW v
    let s := s.modYok (fun y => { y with view0 := if v then none else some (y.view0.getD s.now) })
    let r := s.role
    let s :=
      if r = roSHADOW ∧ (!v ∨ !s.yok.failed.isEmpty) then s.setRole roSYNC
      else if r = roSYNC ∧ v ∧ s.yok.failed.isEmpty ∧ s.yokedTasks.all (fun k => s.yok.adopted.contains k) then
        (s.setRole roSHADOW).claimSeen
      else s
    if s.yok.fault then s.releaseAct 2 roSTANDBY
    else if !s.clkOn then s.releaseAct 3 roSTANDBY
    else s

/-- A device-level fault of R349. -/
def State.yokFault (s : State) : State := (s.modYok (fun y => { y with fault := true })).yokCheck

/-- INIT takes a role by the first row of R345 that applies. -/
def State.initCheck (s : State) : State :=
  if s.role ≠ roINIT then s
  else match s.yok.ident with
    | none => s
    | some (sid, pid, addr) =>
      if sid ≠ s.load.stateId ∨ pid ≠ s.load.pdkId then (s.record (cyok 8) s.yctx).setRole roSTANDBY
      else if s.bit F.IDG_INBAND_ACT_IN then s
      else if s.yok.actIn then s.setRole roSYNC
      else match s.yok.hb with
        | some h =>
          if h.role ≠ roINIT then s
          else
            let pref := s.bit F.YOK_CFG_PREF
            let mine := if pref ≠ h.pref then pref else decide (s.get F.NET_ADDR_ADDR < addr)
            if mine ∧ s.monitorOk then s.claim 1 else s
        | none => s

/-- No heartbeat within JOINTMO of Paddock lock (R345). -/
def State.joinTimeout (s : State) : State :=
  if s.role = roINIT ∧ s.yok.hb.isNone ∧ s.actLow ∧ s.monitorOk ∧
      s.yok.lockAt + s.get F.YOK_CFG_JOINTMO * ticksPerMs ≤ s.now then s.claim 2
  else s

/-- ACT_IN takes a level, in or out of its band; where it is seen to fall, the partner has released the selector (R113,
R350, R362). -/
def State.actSee (s : State) (lvl : Bool) : State :=
  let was := s.actLow
  let s := (s.modYok (fun y => { y with actIn := lvl, both := none })).putB F.YOK_STAT_ACTIN (lvl || s.bit F.IDG_INBAND_ACT_IN)
  if !s.load.yoked ∨ !s.load.locked then s
  else if was ∨ !s.actLow then s.initCheck
  else
    let r := s.role
    let s := if r = roACTIVE ∨ r = roINIT then s else s.record (cyok 4) s.yctx
    s.claimSeen.initCheck

/-- The filtered ACT_IN falls (R350). -/
def State.actFall (s : State) : State := s.actSee false

/-- The claim of the tick after the detection (R350); R352's window opens. -/
def State.claimNow (s : State) : State :=
  if s.actLow ∧ s.monitorOk ∧ s.role ≠ roACTIVE ∧ s.role ≠ roNONE then
    let warm := s.role = roSHADOW
    let s := s.record (cyok (if warm then 5 else 12)) s.yctx
    let s := s.modYok (fun y => { y with window := s.yokedTeams })
    s.claim (if warm then 3 else 4)
  else s

/-- The filtered ACT_IN rises (R344). -/
def State.actRise (s : State) : State :=
  let s := (s.modYok (fun y => { y with actIn := true })).putB F.YOK_STAT_ACTIN true
  let s := if s.bit F.YOK_STAT_ACTOUT then s.modYok (fun y => { y with both := some s.now }) else s
  s.initCheck

/-- ACT_IN leaves its band at a level (R113). -/
def State.actBandExit (s : State) (lvl : Bool) : State :=
  let was := s.yok.both
  let s := (s.modYok (fun y => { y with actIn := true })).putB F.IDG_INBAND_ACT_IN false
  (s.actSee lvl).modYok (fun y => { y with both := if lvl then was else none })

/-- ACT_IN and ACT_OUT have both been high for 4 ticks (R344). -/
def State.actConflict (s : State) : State :=
  match s.yok.both with
  | some b =>
    if s.yok.actIn ∧ s.bit F.YOK_STAT_ACTOUT ∧ b + 4 ≤ s.now then
      let s := (s.raise F.YOK_STAT_CONFLICT).modYok (fun y => { y with both := none })
      if s.load.partner < s.get F.NET_ADDR_ADDR then (s.record (cyok 7) s.yctx).releaseAct 5 roSTANDBY else s
    else s
  | none => s

/-- The watchdog is kicked (R344). -/
def State.wdKick (s : State) : State := s.modYok (fun y => { y with wdAt := s.now })

/-- The watchdog has expired (R349). -/
def State.wdExpiry (s : State) : State := if s.wdExpired then s.releaseAct 3 roSTANDBY else s

/-- Ticks without a good heartbeat after which the link counts as lost (R362). -/
def State.hbLimit (s : State) : Nat := s.get F.YOK_CFG_HBTMO * s.get F.YOK_CFG_HBPER * 64

/-- VIEW has been 0 for 64 ticks with the partner READY (R349). -/
def State.viewRule (s : State) : State :=
  match s.yok.view0, s.yok.hb with
  | some v, some h =>
    if s.role = roACTIVE ∧ v + 64 ≤ s.now ∧ h.ready ∧ h.view ∧ s.now < s.yok.hbAt + s.hbLimit then
      s.releaseAct 4 roSTANDBY
    else s
  | _, _ => s

/-- A write of RELEASE (R349, R360). -/
def State.actRelease (s : State) : State :=
  let ready : Bool := match s.yok.hb with
    | some h => h.ready && s.bit F.YOK_STAT_LINK
    | none => false
  if s.role = roACTIVE ∧ ready then
    (s.modYok (fun y => { y with relAt := s.now, adopted := s.yokedTasks, failed := [] })).releaseAct 1 roSHADOW
  else s.raise F.YOK_STAT_REL_REF

/-! ## The link (R347, R362) -/

/-- A frame of `b` bytes leaves the device; its load of the last 1,024 µs is kept (R363). -/
def State.yokSend (s : State) (f : YokFrame) (b : Nat) : State :=
  let s := s.modYok (fun y => { y with
    seq := (y.seq + 1) % 4096, last := some f
    sent := y.sent.filter (fun e => decide (s.now < e.1 + 320000)) ++ [(s.now, b)] })
  let m := min 65535 ((s.yok.sent.map Prod.snd).sum * 65536 / 256000)
  s.raiseMax F.YOK_LOAD_PEAK m

/-- The mean load as it reads now. -/
def State.yokLoad (s : State) : Nat :=
  min 65535 (((s.yok.sent.filter (fun e => decide (s.now < e.1 + 320000))).map Prod.snd).sum * 65536 / 256000)

/-- The link is lost (R349, R362). -/
def State.linkLost (s : State) : State :=
  let s := s.putB F.YOK_STAT_LINK false
  let s := if s.role = roACTIVE then s else s.netUnlock
  let claiming := s.due.any (fun e => e.2 == .claim)
  if (s.role = roSHADOW ∨ s.role = roSYNC) ∧ !claiming then
    let s := if s.role = roSHADOW then s.modYok (fun y => { y with lostAt := some s.now }) else s
    s.setRole roSTANDBY
  else s

def laneFld (j : Fin 2) : Fld := if j = 0 then F.YOK_STAT_LANE0 else F.YOK_STAT_LANE1

/-- A lane gains sync. -/
def State.laneUp (s : State) (j : Fin 2) : State :=
  if !s.load.yoked ∨ s.tim.linksIdle then s
  else
    let s := s.putB (laneFld j) true
    if s.bit F.YOK_STAT_LINK then s
    else (s.putB F.YOK_STAT_LINK true).modYok (fun y => { y with hbAt := s.now })

/-- A lane loses sync. -/
def State.laneDown (s : State) (j : Fin 2) : State :=
  if !s.bit (laneFld j) then s
  else
    let s := s.putB (laneFld j) false
    if s.bit (laneFld (1 - j)) then s.record (cyok 3) s.yctx
    else ((s.record (cyok 2) s.yctx).raise F.YOK_STAT_LINKLOSS).linkLost

/-- HBTMO heartbeat periods without a good heartbeat. -/
def State.hbTimeout (s : State) : State :=
  if s.bit F.YOK_STAT_LINK ∧ s.yok.hbAt + s.hbLimit ≤ s.now then
    let s := if s.bit F.YOK_STAT_LANE0 && s.bit F.YOK_STAT_LANE1 then s.record (cyok 1) s.yctx else s
    (s.raise F.YOK_STAT_HBLOSS).linkLost
  else s

/-- A mask of yoked teams. -/
def State.yokMask (s : State) (p : Fin 24 → Bool) : Nat :=
  s.yokedTeams.foldl (fun a t => a + (if p t then 2 ^ t.val else 0)) 0

/-- A HEARTBEAT frame (R347). -/
def State.hbSend (s : State) : State :=
  let due : Bool := match s.yok.hbTx with
    | some t => decide (t + s.get F.YOK_CFG_HBPER * 64 ≤ s.now)
    | none => true
  if s.load.yoked ∧ s.load.locked ∧ s.bit F.YOK_STAT_LINK ∧ !s.tim.linksIdle ∧ due then
    let h : HbSt := {
      role := s.role, ready := s.bit F.YOK_STAT_READY, view := s.bit F.YOK_STAT_VIEW,
      netlock := s.bit F.TIM_STAT_NETLOCK, pref := s.bit F.YOK_CFG_PREF,
      runMask := s.yokMask (fun t => s.tstate t == stRUN), tripMask := s.yokMask (fun t => s.teamTripped t) }
    (s.modYok (fun y => { y with hbTx := some s.now })).yokSend (.heartbeat s.yok.seq s.tim.dev h) 24
  else s

/-- An IDENT frame (R347). -/
def State.identSend (s : State) : State :=
  let due : Bool := match s.yok.idTx with
    | some t => decide (t + ticksPerSec ≤ s.now)
    | none => true
  if s.load.yoked ∧ s.load.locked ∧ s.bit F.YOK_STAT_LINK ∧ !s.tim.linksIdle ∧ (due ∨ s.role = roINIT) then
    (s.modYok (fun y => { y with idTx := some s.now })).yokSend
      (.ident s.yok.seq s.load.stateId s.load.pdkId s.load.cfgId (s.get F.NET_ADDR_ADDR)) 58
  else s

/-- A link frame arrives; one whose CRC fails is counted only (R347).  A lane in electrical idle receives none (R46). -/
def State.yokIn (s : State) (good : Bool) (f : State → State) : State :=
  if !s.load.yoked ∨ s.tim.linksIdle ∨ !s.bit F.YOK_STAT_LANE0 ∧ !s.bit F.YOK_STAT_LANE1 then s
  else if good then f s
  else s.bumpSat F.YOK_ERR_CRCERR

/-- The partner's IDENT frame (R345). -/
def State.identReceive (s : State) (good : Bool) (sid pid : List Byte) (addr : Nat) : State :=
  s.yokIn good (fun s =>
    let s := each (List.range 4) (fun i s => s.wr (A.YOK_PSTATE i) (BitVec.ofNat 32 (le sid (4 * i) 4))) s
    let same := sid == s.load.stateId && pid == s.load.pdkId
    let s := (s.putB F.YOK_STAT_IDMATCH same).modYok (fun y => { y with ident := some (sid, pid, addr) })
    if !same ∧ (s.role = roSYNC ∨ s.role = roSHADOW) then (s.record (cyok 8) s.yctx).setRole roSTANDBY
    else s.initCheck)

/-- The partner's heartbeat; `ofs`: the partner's device time minus the own one, in ps (R341, R347). -/
def State.hbReceive (s : State) (good : Bool) (ofs : Int) (h : HbSt) : State :=
  s.yokIn good (fun s =>
    let s := s.modYok (fun y => { y with hb := some h, hbAt := s.now })
    let s := (s.putB F.YOK_STAT_PREADY h.ready).putB F.YOK_STAT_PVIEW h.view
    let s := (s.putB F.YOK_STAT_LINK true).wr A.YOK_OFS (sat32 ofs)
    let src := s.get F.TIM_CTL_SRC
    let s :=
      if s.role = roACTIVE ∨ (src ≠ 1 ∧ src ≠ 2) then s
      else
        let s := s.slewSet (slewOf (-ofs))
        if h.netlock then s.lockCount ofs
        else if s.bit F.TIM_STAT_NETLOCK then s.netUnlock.modServo (fun v => { v with good := 0 })
        else s.modServo (fun v => { v with good := 0 })
    s.initCheck)

/-! ## Commits (R347, R348, R351) -/

/-- The COMMIT frame of an accepted run of a yoked task (R347). -/
def State.sendCommit (s : State) (r : RunSt) : State :=
  let k := r.task
  if !s.yokedTask k ∨ !s.bit F.YOK_STAT_LINK ∨ s.tim.linksIdle then s
  else
    let w := (s.outPairs k r.out).map Prod.snd
    let rng := s.rangeWords k
    let obs := (taskTeam k).map (fun t => (s.rd (A.CE_OBSCNT t)).toNat)
    let b := 4 + 12 + 4 * (w.length + rng.length) + 4 + (if obs.isSome then 4 else 0)
    (s.bump F.YOK_CNT_SENT).yokSend
      (.commit s.yok.seq k (r.relStamp % 2 ^ 32) (s.get (F.CE_TSTAT_CONSEC k)) w rng obs) b

/-- A run's outputs and range are held for the partner's frame (R348, R351). -/
def State.yokHold (s : State) (r : RunSt) : Bool :=
  s.yokedTask r.task &&
    (((s.role == roSHADOW || s.role == roSYNC) && decide (s.yok.relAt ≤ r.relTick))
      || (s.role == roACTIVE && decide (r.relTick < s.yok.td) && (match taskTeam r.task with
          | some t => s.yok.window.contains t
          | none => !s.yok.window.isEmpty)))

/-- Runs whose commits this device sends: of the ACTIVE device, or released before its planned release (R347, R351). -/
def State.yokSends (s : State) (r : RunSt) : Bool :=
  s.role == roACTIVE || (s.role == roSHADOW && decide (r.relTick < s.yok.relAt))

/-- A commit failure of a task on a SHADOW or SYNC device (R348). -/
def State.commitFail (s : State) (k : Fin 36) : State :=
  let s := s.record (cyok 9) (s.yctx + k * 2 ^ 16)
  let s := s.modYok (fun y => { y with
    pend := y.pend.set k none, failed := y.failed.filter (fun x => x != k) ++ [k] })
  s.yokCheck

/-- A release of the task falls due: a run still pending has had no frame (R348). -/
def State.yokRelease (s : State) (k : Fin 36) : State :=
  if (s.role = roSHADOW ∨ s.role = roSYNC) ∧ (s.yok.pend[k]).isSome then s.commitFail k else s

/-- Two 32-bit stamps within one tick of each other. -/
def stampNear (a b : Nat) : Bool :=
  let d := (a + 2 ^ 32 - b % 2 ^ 32) % 2 ^ 32
  decide (d ≤ 256) || decide (2 ^ 32 - 256 ≤ d)

/-- The divergence check of an adopted sample (R348). -/
def State.diverge (s : State) (own adopted : List Word) : State :=
  let tol := s.get F.YOK_DIVCFG_DIVTOL
  let far := (List.zip own adopted).any (fun p => decide (tol < (wInt (p.1 - p.2)).natAbs))
  if !far then s.modYok (fun y => { y with divRun := 0 })
  else
    let s := (s.bump F.YOK_DIVCNT_COUNT).modYok (fun y => { y with divRun := y.divRun + 1 })
    if s.yok.divRun = s.get F.YOK_DIVCFG_DIVMAX then (s.record (cyok 11) s.yctx).raise F.YOK_STAT_DIVERGE else s

/-- The run that a frame of a task belongs to: the pending one, else one that has not reached its commit. -/
def State.yokRunOf (s : State) (k : Fin 36) (rel : Nat) : Option RunSt :=
  match s.yok.pend[k] with
  | some r => if stampNear r.relStamp rel then some r else none
  | none => (s.ce.lanes.toList.filterMap id ++ s.ce.ready ++ s.ce.ended).find? (fun r =>
      r.task == k && !r.discard && stampNear r.relStamp rel)

/-- Mark a run that has not committed for discard: its sample has been adopted. -/
def State.yokDropRun (s : State) (k : Fin 36) (rel : Nat) : State :=
  let f (r : RunSt) : RunSt := if r.task = k ∧ stampNear r.relStamp rel then { r with discard := true } else r
  (s.modYok (fun y => { y with pend := y.pend.set k none })).modCe (fun c => { c with
    lanes := c.lanes.map (fun o => o.map f), ready := c.ready.map f, ended := c.ended.map f })

/-- A late frame (R348). -/
def State.lateFrame (s : State) (k : Fin 36) : State :=
  let s := (s.bumpSat F.YOK_ERR_LATE).raise F.YOK_STAT_LATE
  if recentAt s.now s.yok.lateAt then s
  else (s.record (cyok 10) (s.yctx + k * 2 ^ 16)).modYok (fun y => { y with lateAt := some s.now })

/-- A complete COMMIT frame is adopted (R348): outputs, range, CONSEC and CE_OBSCNT in one tick. -/
def State.adopt (s : State) (k : Fin 36) (r : RunSt) (rel consec : Nat) (words range : List Word) (obs : Option Nat) :
    State :=
  let own := s.outPairs k r.out
  let s := s.diverge (own.map Prod.snd) words
  let s := s.applyOut .yoke (List.zip (own.map Prod.fst) words)
  let b := (s.smap k).1
  let s := each (range.mapIdx (fun i w => (i, w))) (fun p s => s.memSet (K.state ((b + p.1) % 8192)) p.2) s
  let s := s.put (F.CE_TSTAT_CONSEC k) consec
  let s := match taskTeam k, obs with
    | some t, some v =>
      let s := s.wr (A.CE_OBSCNT t) (BitVec.ofNat 32 v)
      if s.get (F.CE_OBS_MODE t) ≠ 0 ∧ s.get (F.CE_OBSCNT_COUNT t) = 0 then s.putB (F.CE_OBS_VALID t) true else s
    | _, _ => s
  let s := match taskTeam k with
    | some t =>
      let late := match (s.team t).updTick, r.ended with
        | some u, some e => decide (e < u)
        | _, _ => false
      let s := s.modTeam t (fun m => { m with readyCommit := some r.ready })
      if late then s.lateFrame k else s
    | none => match taskGroup k with
      | some g => each (s.groupUsed g) (fun m s =>
          if s.bit (F.MGRP_MEMA_LOC g m) then s.putB (F.TEAM_SPSTAT_VALID (s.get (F.MGRP_MEMA_TEAM g m))) true else s) s
      | none => s
  let s := (s.yokDropRun k rel).bump F.YOK_CNT_ADOPTED
  s.modYok (fun y => { y with
    adopted := y.adopted.filter (fun x => x != k) ++ [k], failed := y.failed.filter (fun x => x != k) })

/-- The adoption takes effect, with the run that the frame belongs to (R26, R348). -/
def State.adoptNow (s : State) (k : Fin 36) (rel consec : Nat) (words range : List Word) (obs : Option Nat) : State :=
  match s.yokRunOf k rel with
  | some r => (s.adopt k r rel consec words range obs).ladderTicks.yokCheck
  | none => s

/-- A COMMIT frame has been received (R348, R351). -/
def State.commitReceive (s : State) (good : Bool) (k : Fin 36) (rel consec : Nat) (words range : List Word)
    (obs : Option Nat) : State :=
  let track := s.role == roSHADOW || s.role == roSYNC
  let taking := s.role == roACTIVE && !s.yok.window.isEmpty
  if !good then
    let s := s.yokIn false id
    if track ∧ s.yokedTask k then s.commitFail k else s
  else
    s.yokIn true (fun s =>
      if !(track || taking) ∨ !s.yokedTask k then s
      else if (s.yokRunOf k rel).isNone then s
      else s.issueAs (.adopt k rel consec words range obs) (fun s => s.adoptNow k rel consec words range obs))

/-- The first update point of a yoked team after a takeover: a pending run without a frame is dropped, and the window of
R352 closes (R351). -/
def State.yokUpdate (s : State) (t : Fin 24) : State :=
  if !s.yok.window.contains t ∨ s.now ≤ s.yok.td then s
  else
    let s := s.modYok (fun y => { y with window := y.window.filter (fun x => x != t) })
    let drop (k : Fin 36) (s : State) : State :=
      if (s.yok.pend[k]).isSome then
        let s := s.modYok (fun y => { y with pend := y.pend.set k none })
        (s.bump F.YOK_HOLDCNT_COUNT).consecUp k (fcode cOVERRUN 3)
      else s
    let s := drop (t.castLE (by decide)) s
    if s.yok.window.isEmpty then each ((List.finRange 36).filter (fun k => decide (24 ≤ k.val))) drop s else s

/-- The yoke at Paddock lock (R345). -/
def State.yokLock (s : State) : State :=
  let s := s.modYok (fun y => { y with lockAt := s.now, wdAt := s.now })
  if s.load.yoked then (s.putB F.YOK_CFG_YOKED true).put F.YOK_STAT_ROLE roINIT else s

end Sys2Proof.Machine
end

