-- ==== Sys2Proof/Machine/Peek.lean ====
section
/-!
DEFINITION. What a word of the address map reads as (R461, R462, R465): registers as stored, registers that the device
forms at the read, and the memory windows (R231, R232, R243, R368).
-/
namespace Sys2Proof.Machine

/-! ## The memory windows -/

/-- A descriptor word that R243 lists; the others are reserved. -/
def descListed (off : Nat) : Bool := decide (off < 0x18) || (decide (0x80 ≤ off) && decide (off < 0x200))

/-- The key of the memory word at an aligned address, if the address lies in a window. -/
def State.winKey (s : State) (a : Nat) : Option Nat :=
  if 0x0A4000 ≤ a ∧ a < 0x0A8800 then
    (if descListed ((a - 0x0A4000) % 0x200) then some (K.desc ((a - 0x0A4000) / 0x200) ((a - 0x0A4000) % 0x200 / 4)) else none)
  else if 0x0AA000 ≤ a ∧ a < 0x0AC000 then some (K.shift ((a - 0x0AA000) / 4))
  else if 0x0AC000 ≤ a ∧ a < 0x0AD000 then some (K.cap (1024 * s.get F.CE_CAPPAGE_PAGE + (a - 0x0AC000) / 4))
  else if 0x0B0000 ≤ a ∧ a < 0x0C0000 then some (K.prog ((a - 0x0B0000) / 4))
  else if 0x0C0000 ≤ a ∧ a < 0x0C8000 then some (K.coef ((a - 0x0C0000) / 4))
  else if 0x0C8000 ≤ a ∧ a < 0x0D0000 then some (K.state ((a - 0x0C8000) / 4))
  else if 0x0D0000 ≤ a ∧ a < 0x0E0000 then
    some (K.table (4 * s.get F.CE_TBLBANK_BANK + (a - 0x0D0000) / 0x4000) ((a - 0x0D0000) % 0x4000 / 4))
  else if 0x0E8000 ≤ a ∧ a < 0x0EE000 then some (K.rxSlot ((a - 0x0E8000) / 0x600) ((a - 0x0E8000) % 0x600 / 4))
  else if 0x0EE000 ≤ a ∧ a < 0x0EF800 then some (K.txSlot ((a - 0x0EE000) / 0x600) ((a - 0x0EE000) % 0x600 / 4))
  else none

/-! ## Registers formed at the read -/

/-- LEG_POS: the whole ticks of the present position, falling in the down half, and the fine-step offset of the period
start (R127, R128, R131). -/
def State.legPos (s : State) (n : Fin 72) : Word :=
  let l := s.leg n
  if !l.running then 0
  else
    let e := s.nowF - l.pstart
    let updown := match l.team with
      | some t => s.form t == foUPDOWN
      | none => false
    let p := if updown && decide (l.up / 2 ≤ e) then l.down / 2 - (e - l.up / 2) else e
    BitVec.ofNat 32 (p / 256 * 256 + l.pstart % 256)

/-- The leg is in the down half of its UPDOWN period (R131, R151). -/
def State.downHalf (s : State) (n : Fin 72) : Bool :=
  let l := s.leg n
  l.running && decide (l.pstart + l.up / 2 ≤ s.nowF) && (match l.team with
    | some t => s.form t == foUPDOWN
    | none => false)

/-- The 32 bytes of a journal record (R453). -/
def recordBytes (e : JEntry) : List Byte :=
  let b := leBytes 2 0x4A52 ++ leBytes 2 e.fault.code ++ leBytes 4 e.seq ++ leBytes 9 e.fault.time
    ++ leBytes 1 e.fault.writer ++ leBytes 2 0 ++ leBytes 4 e.fault.ctx.toNat
  b ++ leBytes 4 (crc32c b) ++ leBytes 4 0

/-- EVT_LOGRD: bytes 4i to 4i + 3 of the record that EVT_LOGIDX selects by age, 0 beyond the oldest (R456). -/
def State.logRd (s : State) (i : Nat) : Word :=
  match s.jrn.log.reverse[s.get F.EVT_LOGIDX_AGE]? with
  | some e => BitVec.ofNat 32 (le (recordBytes e) (4 * i) 4)
  | none => 0

/-- The journal engine is at work on the oldest waiting record (R454). -/
def State.jrnBusy (s : State) : Bool := s.jrn.ready && !s.jrn.queue.isEmpty && !s.ser.closed

/-- Distinct keys of a list whose ticks lie within a span. -/
def recentKeys (l : List (Nat × Tick)) (now span : Nat) : Nat :=
  ((l.filter (fun e => decide (now < e.2 + span))).map Prod.fst).dedup.length

/-- IDG_WARMSTAT as it reads (R126): INBAND_ANY follows IDG_INBAND, and DLC reads 1 while calibration is off. -/
def State.warmStat (s : State) : Word :=
  let w := s.rd A.IDG_WARMSTAT
  let w := bitsSet w F.IDG_WARMSTAT_INBAND_ANY.lo 1 (b2n (s.rd A.IDG_INBAND != 0))
  if s.bit F.DLC_CTL_EN then w else bitsSet w F.IDG_WARMSTAT_DLC.lo 1 1

/-- A field of a word replaced. -/
def fset (f : Fld) (v : Nat) (w : Word) : Word := bitsSet w f.lo f.width v

/-- A register's word at the end of the present tick (R465), by its entry and the indices of its instance. -/
def State.regNow (s : State) (r : RegDef) (idx : List Nat) (a : Nat) : Word :=
  let i := idx.headD 0
  let w := s.rd a &&& ~~~(BitVec.ofNat 32 r.wo)
  if r.base = A.TIM_NOW0 then BitVec.ofNat 32 s.tim.dev
  else if r.base = A.TIM_NOW1 then BitVec.ofNat 32 (s.tim.dev / 2 ^ 32)
  else if r.base = A.TIM_NOW2 then BitVec.ofNat 32 (s.tim.dev / 2 ^ 64)
  else if r.base = A.TIM_SLEW then s.slewRead
  else if r.base = A.TIM_STAT then fset F.TIM_STAT_SLEWING (b2n (s.tim.slew != 0)) w
  else if r.base = A.IDG_TEAMRDY then s.teamRdyWord
  else if r.base = A.IDG_WARMSTAT then s.warmStat
  else if r.base = A.PDK_WIN 0 then (if s.bit F.PDK_STAT_LOCKED then BitVec.ofNat 32 (s.pdkLe (4 * i) 4) else 0)
  else if r.base = A.LEG_POS 0 then (match finOf 72 i with
    | some n => s.legPos n
    | none => w)
  else if r.base = A.LEG_STAT 0 then (match finOf 72 i with
    | some n => fset (F.LEG_STAT_HALF n) (b2n (s.downHalf n)) w
    | none => w)
  else if r.base = A.LEG_BSCNT 0 then (match finOf 72 i with
    | some n => (s.bsSync n s.now).rd a
    | none => w)
  else if r.base = A.SDM_STAT 0 then (match finOf 144 i with
    | some c => fset (F.SDM_STAT_WARM c) (s.sdmWarm c) ((s.ocSync c s.now).rd a)
    | none => w)
  else if r.base = A.SDM_OCRES 0 ∨ r.base = A.SDM_PKHI 0 ∨ r.base = A.SDM_PKLO 0 ∨ r.base = A.SDM_CNT 0 then (match finOf 144 i with
    | some c => (s.ocSync c s.now).rd a
    | none => w)
  else if r.base = A.FBK_SPD 0 then (match finOf 8 i with
    | some p => wOfInt (s.fbkSpeed p)
    | none => w)
  else if r.base = A.FBK_RAMPF 0 then (match finOf 8 i with
    | some p => fset (F.FBK_RAMPF_F p) (s.rampF p) w
    | none => w)
  else if r.base = A.FBK_STAT 0 then (match finOf 8 i with
    | some p => fset (F.FBK_STAT_SSIBUSY p) (b2n (s.ssiBusy p)) w
    | none => w)
  else if r.base = A.CE_LOAD then s.loadSync.rd a
  else if r.base = A.YOK_LOAD then fset F.YOK_LOAD_MEAN s.yokLoad w
  else if r.base = A.EVT_LOGRD 0 then s.logRd i
  else if r.base = A.EVT_LOGSTAT then fset F.EVT_LOGSTAT_BUSY (b2n s.jrnBusy) w
  else if r.base = A.NET_CFG then (if s.get F.TIM_CTL_SRC = 0 ∨ s.get F.TIM_CTL_SRC = 3 then fset F.NET_CFG_BW_EN 0 w else w)
  else if r.base = A.NET_TSTAT then fset F.NET_TSTAT_CLASS s.clockClass w
  else if r.base = A.NET_JOIN then
    fset F.NET_JOIN_SEGS (recentKeys s.net.segs s.now ticksPerSec)
      (fset F.NET_JOIN_STATIONS (recentKeys s.net.stations s.now (3 * ticksPerSec)) w)
  else w

/-- An access error: KIND 1 unmapped, 2 reserved, 3 width, its count and IDG_ACCADDR (R462, R464). -/
def State.accErr (s : State) (w : Writer) (wr : Bool) (kind a : Nat) : State :=
  let s := s.bumpSat (if kind = 1 then F.IDG_ACCERR_UNMAP else if kind = 2 then F.IDG_ACCERR_RESWR else F.IDG_ACCERR_WIDTH)
  s.wr A.IDG_ACCADDR (BitVec.ofNat 32 (w.code * 2 ^ 29 + b2n wr * 2 ^ 28 + kind * 2 ^ 26 + a % 2 ^ 24))

/-- Addresses from here up are unmapped (R461). -/
def unmappedFrom : Nat := 0x140000

/-- What an aligned address reads as, with no side effect of the read; reserved and unmapped addresses read 0. -/
def State.peek (s : State) (a : Nat) : Word :=
  match s.winKey a with
  | some k => s.memGet k
  | none => match regAt a with
    | some (r, idx) => s.regNow r idx a
    | none => 0

/-! ## Reads (R465 to R468) -/

/-- A read of an aligned word by a reader, with its effect: the capture of an SNP group, the pop of SER_PMSRX, the flash
read of SER_FLSRDATA; `flash`: what the flash would answer. -/
def State.readWord (s : State) (rdr : Fin 4) (w : Writer) (a : Nat) (flash : Word) : Word × State :=
  let s := s.loadSync
  if unmappedFrom ≤ a then (0, s.accErr w false 1 a)
  else match s.winKey a with
    | some k => s.busWord k
    | none => match regAt a with
      | none => (0, s)
      | some (r, idx) =>
        if r.base = A.SER_PMSRX 0 then
          match finOf 4 (idx.headD 0) with
          | some q => s.pmsRx q
          | none => (0, s)
        else if r.base = A.SER_FLSRDATA then
          let (v, s) := s.flsRdata flash
          (v.getD 0, s)
        else match r.snp with
          | none => (s.regNow r idx a, s)
          | some (0, n) =>
            let s' := each (List.range (n - 1)) (fun i x =>
              let b := a + 4 * (i + 1)
              { x with snaps := x.snaps.set rdr (cellsSet zeroWord x.snaps[rdr] b (s.peek b)) }) s
            (s.regNow r idx a, s')
          | some _ => (cellsGet zeroWord s.snaps[rdr] a, s)

end Sys2Proof.Machine
end

