-- ==== Sys2Proof/Machine/CeTask.lean ====
section
/-!
DEFINITION. Tasks of the control engine (chapters 09 and 10): release and input latch, dispatch, commit, deadlines, the
test-signal generators and the capture streams.
-/
namespace Sys2Proof.Machine

/-! ## Test-signal generators (R274, R275) -/

def allGens : List (Fin 4) := List.finRange 4

/-- One advance of the 15-bit register x^15 + x^14 + 1, shifted as the dither register of R147 is. -/
def prbsStep (l : Nat) : Nat := (l * 2 + (l / 2 ^ 14 + l / 2 ^ 13) % 2) % 2 ^ 15

/-- The value of a generator's step before saturation (R274).  The products and the Schroeder phases are exact where they
are multiples of the format's unit, and free between the two neighbours elsewhere (log entry 3). -/
def State.genValue (s : State) (g : Fin 4) (x : GenSt) : Int × State :=
  let amp := wInt (s.rd (A.CE_GENAMP g))
  let ofs := wInt (s.rd (A.CE_GENOFS g))
  let mode := s.get (F.CE_GENCFG_MODE g)
  if mode = 2 then s.roundFree (ofs * 2 ^ 30 + amp * (sinCos x.phi).1) (2 ^ 30)
  else if mode = 3 then ((if x.lfsr / 2 ^ 14 % 2 = 1 then ofs + amp else ofs - amp), s)
  else if mode = 4 then
    let nt := s.get (F.CE_GENCFG_NTONE g)
    let f0 : Int := (s.rd (A.CE_GENF0 g)).toNat
    let (sum, s) := (List.range nt).foldl (fun (acc : Int × State) i =>
      let j : Int := (i + 1 : Nat)
      let (a, s) := acc.2.roundFree (j * x.n * f0 * nt - 2 ^ 31 * j * (j - 1)) nt
      (acc.1 + (sinCos (a % 2 ^ 32).toNat).1, s)) ((0 : Int), s)
    s.roundFree (ofs * nt * 2 ^ 30 + amp * sum) (nt * 2 ^ 30)
  else (ofs + amp, s)

/-- One step of a running generator at a release of task k. -/
def State.genStep (s : State) (g : Fin 4) (k : Fin 36) : State :=
  let x := s.ce.gens[g]
  let (v, s) := s.genValue g x
  let (q, n) := narrow (-(2 ^ 31)) (2 ^ 31 - 1) v
  let s := s.wr (A.CE_TSAT k) (s.rd (A.CE_TSAT k) + BitVec.ofNat 32 n)
  let s := s.wr (A.CE_GENOUT g) (wOfInt q)
  let s := s.put (F.CE_GENSTAT_STEP g) (min (2 ^ 28 - 1) (x.n + 1))
  let last := decide ((s.rd (A.CE_GENNSTEP g)).toNat ≤ x.n + 1)
  let turn := decide (s.get (F.CE_GENCFG_HOLD g) ≤ x.hold + 1)
  let x' : GenSt := { x with
    n := x.n + 1, phi := (x.phi + x.freq) % 2 ^ 32, freq := (x.freq + (s.rd (A.CE_GENDF g)).toNat) % 2 ^ 32,
    lfsr := if turn then prbsStep x.lfsr else x.lfsr, hold := if turn then 0 else x.hold + 1,
    val := wOfInt q, valid := true }
  let s := s.modCe (fun c => { c with gens := c.gens.set g x' })
  if last then (s.putB (F.CE_GENSTAT_RUN g) false).raise (F.CE_GENSTAT_DONE g) else s

/-- Stamp a is at or after stamp b, on 40 bits (R56). -/
def stampGe (a b : Nat) : Bool := decide ((a % 2 ^ 40 + 2 ^ 40 - b % 2 ^ 40) % 2 ^ 40 < 2 ^ 39)

/-- A release of task k steps the generators that name it; the generators that took step 0 here. -/
def State.genLatch (s : State) (k : Fin 36) : List Nat × State :=
  allGens.foldl (fun (acc : List Nat × State) (g : Fin 4) =>
    let s := acc.2
    if s.get (F.CE_GENCFG_TASK g) ≠ k.val then acc
    else
      let starts := s.bit (F.CE_GENSTAT_WAIT g) && stampGe s.tim.dev (s.ce.gens[g]).start
      let s := if starts then
          let s := (s.putB (F.CE_GENSTAT_WAIT g) false).putB (F.CE_GENSTAT_RUN g) true
          s.modCe (fun c => { c with gens := c.gens.set g { c.gens[g] with
            n := 0, phi := 0, freq := (s.rd (A.CE_GENF0 g)).toNat, lfsr := 0x7FFF, hold := 0 } })
        else s
      if s.bit (F.CE_GENSTAT_RUN g) then ((if starts then acc.1 ++ [g.val] else acc.1), s.genStep g k)
      else (acc.1, s.modCe (fun c => { c with gens := c.gens.set g { c.gens[g] with val := 0, valid := false } })))
    ([], s)

/-- A generator in mode OFF is not running (R274). -/
def State.genOff (s : State) (g : Fin 4) : State :=
  if s.get (F.CE_GENCFG_MODE g) = 0 then (s.putB (F.CE_GENSTAT_RUN g) false).putB (F.CE_GENSTAT_WAIT g) false else s

/-- A write of 1 to GO: the start stamp is taken whole (R275, R467); with MODE OFF there is nothing to run. -/
def State.genGo (s : State) (g : Fin 4) : State :=
  if s.bit (F.CE_GENSTAT_RUN g) ∨ s.bit (F.CE_GENSTAT_WAIT g) ∨ s.get (F.CE_GENCFG_MODE g) = 0 then s
  else
    let st := (s.rd (A.CE_GENSTART0 g)).toNat + (s.rd (A.CE_GENSTART1 g)).toNat % 256 * 2 ^ 32
    let s := s.modCe (fun c => { c with gens := c.gens.set g { c.gens[g] with start := st } })
    (s.putB (F.CE_GENSTAT_WAIT g) true).put (F.CE_GENSTAT_STEP g) 0

/-! ## The input frame (R244) -/

/-- Own team of a task, for TEAM_PERACT and TEAM_PCNT: a group task's is its LEAD team. -/
def State.taskLead (s : State) (k : Fin 36) : Option (Fin 24) :=
  match taskTeam k with
  | some t => some t
  | none => match taskGroup k with
    | some g => finOf 24 (s.get (F.MGRP_CFG_LEAD g))
    | none => none

/-- The set-point of a team task as its release latches it: TEAM_SP × f, towards zero (R308). -/
def State.spInput (s : State) (t : Fin 24) : Word :=
  let f := match s.boundPort t with
    | some p => s.rampF p
    | none => 65536
  wOfInt (tdiv (wInt (s.rd (A.TEAM_SP t)) * f) 65536)

/-- Value and VALID of one input map entry but for VALID masks.  An index beyond the sources reads a free value with VALID
0: the spec states none (log entry 3). -/
def State.inWord (s : State) (k : Fin 36) (shares : List Int) (e : Word) : (Word × Bool) × State :=
  let kind := bitsGet e 28 4
  let open_ (s : State) : (Word × Bool) × State :=
    let (w, s) := s.free
    ((w, false), s)
  if kind = 1 ∨ kind = 2 then
    match finOf 144 (bitsGet e 0 8) with
    | some c => ((s.rd (if kind = 1 then A.SDM_RES c else A.SDM_RESSTAMP0 c), s.bit (F.SDM_STAT_VALID c)), s)
    | none => open_ s
  else if kind = 3 then
    let p := bitsGet e 0 3
    ((s.rd (A.FBK_POS0 p), s.bit (F.FBK_STAT_POSVALID p)), s)
  else if kind = 4 then
    match finOf 8 (bitsGet e 0 3) with
    | some p => ((wOfInt (s.fbkSpeed p), s.bit (F.FBK_STAT_SPDVALID p)), s)
    | none => open_ s
  else if kind = 5 then
    match taskTeam k with
    | some t => ((s.spInput t, s.bit (F.TEAM_SPSTAT_VALID t)), s)
    | none => match taskGroup k with
      | some g => ((wOfInt (s.groups[g]).latTq, s.bit (F.MGRP_STAT_VALID g)), s)
      | none => open_ s
  else if kind = 6 then
    let g := bitsGet e 4 3
    let m := bitsGet e 0 4
    let v := if k.val = 24 + g then wOfInt (shares.getD m 0) else s.rd (A.MGRP_SHARE g m)
    ((v, s.bit (F.MGRP_STAT_VALID g)), s)
  else if kind = 7 then
    match finOf 4 (bitsGet e 0 2) with
    | some g => (((s.ce.gens[g]).val, (s.ce.gens[g]).valid), s)
    | none => open_ s
  else if kind = 8 then
    let item := bitsGet e 0 2
    if item = 0 then ((BitVec.ofNat 32 (s.stampOf s.nowF), true), s)
    else if item = 3 then ((s.rd (A.CE_TSTAT k), true), s)
    else match s.taskLead k with
      | some t => ((s.rd (if item = 1 then A.TEAM_PERACT t else A.TEAM_PCNT t), true), s)
      | none =>
        let (w, s) := s.free
        ((w, true), s)
  else if kind = 0xE then
    let a := bitsGet e 0 24 / 4 * 4
    let s := s.loadSync
    ((s.peek a, true), if unmappedFrom ≤ a then s.accErr .ce false 1 a else s)
  else if kind = 0 ∨ kind = 9 then ((0, kind == 9), s)
  else ((0, false), s.putB (F.CE_TSTAT_MAPERR k) true)

/-- Bits of a list of VALIDs. -/
def maskOf (l : List Bool) : Nat := (l.mapIdx (fun i b => if b then 2 ^ i else 0)).sum

/-- The input frame of a release and its 64 VALID bits (R244). -/
def State.inFrame (s : State) (k : Fin 36) (shares : List Int) : List Word × Nat × State :=
  let (ws, s) := (List.range 64).foldl (fun (acc : List (Word × Bool) × State) i =>
    let (x, s) := acc.2.inWord k shares (acc.2.inmap k i)
    (acc.1 ++ [x], s)) ([], s)
  let vs := ws.map Prod.snd
  let half (h : Nat) : Word := BitVec.ofNat 32 (maskOf ((vs.drop (32 * h)).take 32))
  let words := ws.mapIdx (fun i x =>
    let e := s.inmap k i
    if bitsGet e 28 4 = 9 then half (bitsGet e 0 1) else x.1)
  (words, maskOf vs, s)

/-! ## Releases (R248 to R253) -/

/-- A run of task k that has not ended: waiting, on a lane, or awaiting its commit. -/
def State.running (s : State) (k : Fin 36) : Bool :=
  s.ce.lanes.toList.any (fun o => match o with
    | some r => r.task == k
    | none => false) || s.ce.ready.any (fun r => r.task == k) || s.ce.ended.any (fun r => r.task == k)

/-- Change every run of task k that has not ended. -/
def State.modRuns (s : State) (k : Fin 36) (f : RunSt → RunSt) : State :=
  let g (r : RunSt) : RunSt := if r.task = k then f r else r
  s.modCe (fun c => { c with lanes := c.lanes.map (fun o => o.map g), ready := c.ready.map g, ended := c.ended.map g })

/-- Tasks are released: the Paddock is locked and CE_CTL.EN is 1 (R248). -/
def State.releasesOn (s : State) : Bool := s.load.locked && s.bit F.CE_CTL_EN

/-- What every release does, taken or skipped: the partner's frame was due, the stamp, the interval of R249, the
generators. -/
def State.relStampNow (s : State) (k : Fin 36) : List Nat × State :=
  let s := s.yokRelease k
  let s := s.wr (A.CE_TREL k) (BitVec.ofNat 32 (s.stampOf s.nowF))
  let s := s.modCe (fun c => { c with rel2 := c.rel2.set k c.rel1[k], rel1 := c.rel1.set k (some s.now) })
  s.genLatch k

/-- The ordering deadline of a team task: its release plus the interval between its two previous releases (R249). -/
def State.orderDl (s : State) (k : Fin 36) : Tick :=
  match s.ce.rel1[k], s.ce.rel2[k] with
  | some a, some b => s.now + (a - b)
  | _, _ => s.now

/-- The run a release starts: inputs, readiness and coefficient set latched (R124, R244, R246). -/
def State.newRun (s : State) (k : Fin 36) (dl : Tick) (shares : List Int) (gens : List Nat) : RunSt × State :=
  let (ws, v, s) := s.inFrame k shares
  let ready := match taskTeam k with
    | some t => s.teamReady t
    | none => false
  ({ RunSt.blank k with
     relTick := s.now, relStamp := s.stampOf s.nowF, deadline := dl, input := ws, valid := v, ready := ready,
     csel := s.bit (F.CE_TSTAT_CSEL k), shares := shares, genStart := gens }, s)

/-- A release of a team task that finds the previous run unfinished (R250). -/
def State.skipRelease (s : State) (k : Fin 36) : State :=
  let s := (s.bump (F.CE_TOVR_OVRCNT k)).bump (F.CE_TDISC_SKIPCNT k)
  (s.modRuns k (fun r => { r with discard := true })).consecUp k (fcode cOVERRUN 3)

/-- A team's sample release falls due (R216, R248, R250, R253). -/
def State.sampleRelease (s : State) (t : Fin 24) : State :=
  match (s.team t).rels.find? (fun e => e.1 == s.now) with
  | none => s
  | some e =>
    let s := s.modTeam t (fun m => { m with rels := m.rels.erase e })
    let k : Fin 36 := t.castLE (by decide)
    if !s.releasesOn ∨ !s.taskEn k ∨ s.tstate t = stUNCONF ∨ (2 ≤ s.get F.HKP_THSTAT_LEVEL ∧ !e.2) then s
    else
      let dl := s.orderDl k
      let (gens, s) := s.relStampNow k
      if s.running k then s.skipRelease k
      else
        let (r, s) := s.newRun k dl [] gens
        s.queueRun r

/-- A group's release falls due (R199, R251). -/
def State.groupRelease (s : State) (g : Fin 8) : State :=
  if !s.groupRelDue g ∨ !s.releasesOn then s
  else
    let k : Fin 36 := ⟨24 + g.val, by omega⟩
    let (gens, s) := s.relStampNow k
    let s := s.groupLatch g
    let (r, s) := s.newRun k (s.now + s.taskDl k) (s.groups[g]).shares gens
    if s.running k then
      (s.modCe (fun c => { c with gpend := c.gpend.set g (some r) })).putB (F.CE_TSTAT_PEND k) true
    else s.queueRun r

/-- A background task is released, or skipped while it runs (R252, R253). -/
def State.bgRelease (s : State) (b : Fin 4) : State :=
  let k : Fin 36 := ⟨32 + b.val, by omega⟩
  if !s.releasesOn ∨ !s.taskEn k ∨ 1 ≤ s.get F.HKP_THSTAT_LEVEL then s
  else
    let (gens, s) := s.relStampNow k
    if s.running k then s.bump (F.CE_TDISC_SKIPCNT k)
    else
      let (r, s) := s.newRun k s.now [] gens
      s.queueRun r

/-- The periodic release of a background task (R248). -/
def State.bgPeriodic (s : State) (b : Fin 4) : State :=
  let per := s.get (F.CE_BGCFG_PER b)
  if per = 0 ∨ s.now ≤ s.yok.lockAt ∨ (s.now - s.yok.lockAt) % per ≠ 0 then s else s.bgRelease b

/-! ## Dispatch (R230, R249) -/

/-- The first of two runs under R249: the earlier deadline, then the lower task. -/
def RunSt.before (a b : RunSt) : Bool :=
  decide (a.deadline < b.deadline) || (a.deadline == b.deadline && decide (a.task.val < b.task.val))

/-- The run a pool starts next. -/
def State.nextRun (s : State) (l : Fin 16) : Option RunSt :=
  let bg := s.ce.ready.find? (fun r => decide (32 ≤ r.task.val))
  let lanes := s.get F.CE_CTL_BGLANES
  if 16 ≤ l.val + lanes then bg
  else
    match (s.ce.ready.filter (fun r => decide (r.task.val < 32))).foldl (fun (acc : Option RunSt) r =>
      match acc with
      | none => some r
      | some b => if r.before b then some r else acc) none with
    | some r => some r
    | none => if lanes = 0 then bg else none

/-- The dispatcher starts a released task on free lane l (R230, R249). -/
def State.taskStart (s : State) (l : Fin 16) : State :=
  match s.ce.lanes[l], s.nextRun l with
  | none, some r =>
    let s := s.modCe (fun c => { c with
      ready := c.ready.erase r, lanes := c.lanes.set l (some { r with pc := s.pStart r.task, accs := c.accs[l] }) })
    let s := (s.putB (F.CE_TSTAT_RUNNING r.task) true).readyShow
    s.put F.CE_STAT_BUSY ((s.ce.lanes.toList.filter (·.isSome)).length)
  | _, _ => s

/-! ## Capture streams (R276, R277) -/

def capStreams : List (Fin 4) := List.finRange 4

/-- A stream is armed: pointer, flags and drop count start anew; `from_`: the tick of a write of ARM, whose own commits
append nothing (R276, R280). -/
def State.capArm (s : State) (c : Fin 4) (from_ : Option Tick) : State :=
  let s := s.put (F.CE_CAPPTR_PTR c) (s.get (F.CE_CAPRANGE_BASE c))
  let s := ((s.putB (F.CE_CAPSTAT_DONE c) false).putB (F.CE_CAPSTAT_WRAP c) false).putB (F.CE_CAPSTAT_ARMED c) true
  (s.wr (A.CE_CAPDROP c) 0).modCe (fun e => { e with armAt := e.armAt.set c from_ })

def State.capStop (s : State) (c : Fin 4) : State := s.putB (F.CE_CAPSTAT_ARMED c) false

/-- Append one word; `full`: the streams that filled in this commit. -/
def State.capWord (acc : State × List (Fin 4)) (c : Fin 4) (w : Word) : State × List (Fin 4) :=
  let (s, full) := acc
  if full.contains c then (s.bumpSat (F.CE_CAPDROP_DROP c), full)
  else if !s.bit (F.CE_CAPSTAT_ARMED c) ∨ s.ce.armAt[c] = some s.now then acc
  else
    let p := s.get (F.CE_CAPPTR_PTR c)
    let base := s.get (F.CE_CAPRANGE_BASE c)
    let s := s.memSet (K.cap p) w
    if p ≠ (base + s.get (F.CE_CAPRANGE_LENM1 c)) % 65536 then (s.put (F.CE_CAPPTR_PTR c) (p + 1), full)
    else if s.bit (F.CE_CAPCFG_RING c) then ((s.put (F.CE_CAPPTR_PTR c) base).putB (F.CE_CAPSTAT_WRAP c) true, full)
    else
      let s := (s.put (F.CE_CAPPTR_PTR c) (p + 1)).raise (F.CE_CAPSTAT_DONE c)
      ((s.putB (F.CE_CAPSTAT_ARMED c) false).notify, full ++ [c])

/-- The captures of an accepted run, in operation order. -/
def State.capRun (s : State) (r : RunSt) : State :=
  let s := each capStreams (fun c s =>
    if s.bit (F.CE_CAPCFG_ARMSRC c) && r.genStart.contains (s.get (F.CE_CAPCFG_GEN c)) then s.capArm c none else s) s
  let out := r.journal.foldl (fun (acc : (State × List (Fin 4)) × List (Fin 4)) j => match j with
    | .state _ _ => acc
    | .cap c w =>
      let (x, seen) := acc
      let x := if x.1.bit (F.CE_CAPCFG_STAMP c) && !seen.contains c then State.capWord x c (BitVec.ofNat 32 r.relStamp) else x
      (State.capWord x c w, if seen.contains c then seen else seen ++ [c])) ((s, []), [])
  out.1.1

/-! ## Commits (R246 to R251) -/

/-- The group commit's write of MGRP_TQCMD (R279). -/
def State.tqOut (s : State) (g : Fin 8) (r : RunSt) : State :=
  if s.bit (F.CE_GRPCTL_TQOUT g) then s.tqWrite g (r.out[0]) else s

/-- An accepted run takes effect in one tick (R246, R250, R272, R348). -/
def State.commitAccept (s : State) (r : RunSt) : State :=
  let k := r.task
  let held := s.yokHold r
  let s := if held then s else s.applyOut .ce (s.outPairs k r.out)
  let s := match taskTeam k with
    | some t => if held then s else s.modTeam t (fun m => { m with readyCommit := some r.ready })
    | none => match taskGroup k with
      | some g => (s.groupCommit g r.shares).tqOut g r
      | none => s
  let s := s.applyState r.journal (fun i => !(held && s.inSmap k i))
  let s := s.capRun r
  let s := s.put (F.CE_TSTAT_UFLAG k) r.flags
  let s := s.putB (F.CE_TSTAT_SAT_ANY k) (r.sats != 0)
  let s := s.wr (A.CE_TSAT k) (s.rd (A.CE_TSAT k) + BitVec.ofNat 32 r.sats)
  let s := s.put (F.CE_TSTAT_CONSEC k) 0
  let s := s.wr (A.CE_TCOMMIT k) (BitVec.ofNat 32 (s.stampOf s.nowF))
  let s := s.raiseMax (F.CE_TRESP_MAXRESP k) (s.now - r.relTick)
  let s := match taskTeam k with
    | some t =>
      let late := match (s.team t).updTick with
        | some u => decide (r.relTick < u)
        | none => false
      let s := if late then s.bump (F.CE_TOVR_LATECNT k) else s
      s.obsCommit t (r.flags / 128 % 2 == 1)
    | none => s
  let s := if held then s.modYok (fun y => { y with pend := y.pend.set k (some r) }) else s
  let s := if s.yokSends r then s.sendCommit r else s
  s.ladderTicks

/-- A group run or release that has passed its deadline is an overrun (R251). -/
def State.groupOverrun (s : State) (k : Fin 36) : State :=
  (s.bump (F.CE_TOVR_OVRCNT k)).consecUp k (fcode cOVERRUN 3)

/-- The run of task k whose commit arrives. -/
def State.endedRun (s : State) (k : Fin 36) : Option RunSt :=
  match s.ce.ended.find? (fun r => r.task == k) with
  | some r => some r
  | none => (s.ce.lanes.toList.filterMap id).find? (fun r => r.task == k && r.ended.isSome)

/-- The run leaves the engine. -/
def State.dropRun (s : State) (r : RunSt) : State :=
  let s := s.modCe (fun c => { c with ended := c.ended.erase r })
  each ((List.finRange 16).filter (fun l => s.ce.lanes[l] == some r)) (fun l s => s.freeLane l) s

/-- A run's commit arrives: accepted, or discarded whole (R246, R250, R251); a pending group release then starts. -/
def State.commitNow (s : State) (k : Fin 36) : State :=
  match s.endedRun k with
  | none => s
  | some r =>
    let s := s.dropRun r
    let s := s.putB (F.CE_TSTAT_RUNNING k) false
    let late := (taskGroup k).isSome && decide (r.deadline ≤ s.now)
    let s := if r.discard then s else if late then s.groupOverrun k else s.commitAccept r
    s.groupNext k

/-- A group run's deadline has passed (R251). -/
def State.groupDeadline (s : State) (g : Fin 8) : State :=
  let k : Fin 36 := ⟨24 + g.val, by omega⟩
  let due (r : RunSt) : Bool := r.task == k && !r.discard && decide (r.deadline ≤ s.now)
  let now : Bool := s.ce.lanes.toList.any (fun o => match o with
    | some r => due r
    | none => false) || s.ce.ready.any due || s.ce.ended.any due
  let later : Bool := ((s.ce.gpend[g]).map due).getD false
  let s := if now then (s.modRuns k (fun r => { r with discard := true })).groupOverrun k else s
  if later then
    (s.modCe (fun c => { c with gpend := c.gpend.set g ((c.gpend[g]).map (fun r => { r with discard := true })) })).groupOverrun k
  else s

/-! ## Output maps at Paddock lock (R245) -/

/-- An output map entry of team t may name the register: SH only, of the team or of a leg bound to it. -/
def State.mapOk (s : State) (t : Fin 24) (a : Nat) : Bool :=
  match regAt a with
  | some (r, idx) =>
    let i := idx.headD 0
    r.shOnly && (if isLegBase r.base then (s.team t).legs.any (fun n => n.val == i)
      else decide (0x60000 ≤ r.base) && decide (r.base < 0x66000) && i == t.val)
  | none => false

/-- The device disables every other enabled entry (R245). -/
def State.mapLock (s : State) (t : Fin 24) : State :=
  let k : Fin 36 := t.castLE (by decide)
  each (List.range 32) (fun i s =>
    let w := s.outmap k i
    if bitsGet w 31 1 = 1 && !s.mapOk t (bitsGet w 0 24) then
      (s.memSet (K.desc k (32 + i)) (bitsSet w 31 1 0)).putB (F.CE_TSTAT_MAPERR k) true
    else s) s

end Sys2Proof.Machine
end

