-- ==== Sys2Proof/Machine/NetIcend.lean ====
section
/-!
DEFINITION. Icend frames and the mailbox (chapter 14): the cycle, frame format, forwarding, repair, joining, delivery, and
frames for firmware (R367, R368, R384 to R401).
-/
namespace Sys2Proof.Machine

/-! ## Frame format (R388 to R391) -/

/-- The header of an Icend frame. -/
structure IceHdr where
  ver : Nat
  ftype : Nat
  hops : Nat
  flags : Nat
  src : Nat
  dst : Nat
  inj : Nat
  blkcnt : Nat
  cyc : Nat
  deriving DecidableEq, Repr

def ftDATA : Nat := 1
def ftREQ : Nat := 2
def ftREPAIR : Nat := 3
def ftHELLO : Nat := 4

def IceHdr.flag (h : IceHdr) (i : Nat) : Bool := h.flags / 2 ^ i % 2 == 1
def IceHdr.active (h : IceHdr) : Bool := h.flag 0
def IceHdr.hi (h : IceHdr) : Bool := h.flag 1
def IceHdr.secondary (h : IceHdr) : Bool := h.flag 2
def IceHdr.wrapped (h : IceHdr) : Bool := h.flag 3

/-- The fields of a payload's header. -/
def iceHdr (b : List Byte) : IceHdr :=
  { ver := byteAt b 0, ftype := byteAt b 1, hops := byteAt b 2, flags := byteAt b 3, src := le b 4 2 % 4096,
    dst := le b 6 2 % 4096, inj := le b 8 2 % 4096, blkcnt := byteAt b 10, cyc := le b 12 4 }

/-- Offsets 0x00 to 0x13 of a header. -/
def IceHdr.front (h : IceHdr) : List Byte :=
  [BitVec.ofNat 8 h.ver, BitVec.ofNat 8 h.ftype, BitVec.ofNat 8 h.hops, BitVec.ofNat 8 h.flags]
    ++ leBytes 2 h.src ++ leBytes 2 h.dst ++ leBytes 2 h.inj
    ++ [BitVec.ofNat 8 h.blkcnt, 0] ++ leBytes 4 h.cyc ++ leBytes 4 0

/-- HCRC of 20 header bytes: HOPS and FLAGS bits 3:2 count as 0. -/
def hdrCrc (b : List Byte) : Nat :=
  crc32c ((slice b 0 20).mapIdx (fun i x =>
    if i = 2 then 0 else if i = 3 then BitVec.ofNat 8 (x.toNat / 16 * 16 + x.toNat % 4) else x))

def IceHdr.bytes (h : IceHdr) : List Byte := h.front ++ leBytes 4 (hdrCrc h.front)

/-- One block as it lies in a payload: SEQ, data words, REPAIRED, and how its BCRC stands. -/
inductive BlkState where
  | good
  | failed
  | poisoned
  deriving DecidableEq, Repr

structure IceBlk where
  seq : Nat
  words : List Word
  bflags : Nat
  crc : Nat
  st : BlkState
  deriving DecidableEq, Repr

/-- BCRC of a block (R389). -/
def blkCrc (seq : Nat) (words : List Word) : Nat :=
  crc32c (leBytes 2 seq ++ [BitVec.ofNat 8 words.length, 0] ++ words.flatMap (fun w => leBytes 4 w.toNat))

/-- A block as it is sent. -/
def blkBytes (seq : Nat) (words : List Word) (bflags crc : Nat) : List Byte :=
  leBytes 2 seq ++ [BitVec.ofNat 8 words.length, BitVec.ofNat 8 bflags]
    ++ words.flatMap (fun w => leBytes 4 w.toNat) ++ leBytes 4 crc

/-- The blocks of a payload after its header.  A block whose NWORD is out of range or passes the payload's end cannot be
delimited: it and what follows it are no blocks. -/
def iceBlks : Nat → List Byte → List IceBlk
  | 0, _ => []
  | n + 1, b =>
    let nw := byteAt b 2
    if b.length < 12 ∨ nw = 0 ∨ 62 < nw ∨ b.length < 8 + 4 * nw then []
    else
      let ws := leWords (slice b 4 (4 * nw))
      let seq := le b 0 2
      let crc := le b (4 + 4 * nw) 4
      let c := blkCrc seq ws
      { seq := seq, words := ws, bflags := byteAt b 3, crc := crc,
        st := if crc = c then .good else if crc = 2 ^ 32 - 1 - c then .poisoned else .failed }
        :: iceBlks n (b.drop (8 + 4 * nw))

/-- A frame's payload from its header and blocks; a failed block leaves with the complement of its CRC (R390).  The 46-byte
minimum is padded with zeros. -/
def icePayload (h : IceHdr) (bs : List IceBlk) : List Byte :=
  let b := h.bytes ++ bs.flatMap (fun x =>
    blkBytes x.seq x.words x.bflags (match x.st with
      | .good => x.crc
      | .poisoned => x.crc
      | .failed => 2 ^ 32 - 1 - blkCrc x.seq x.words))
  b ++ List.replicate (46 - b.length) 0

/-- A good block of the device's own. -/
def ownBlk (seq : Nat) (ws : List Word) : IceBlk :=
  { seq := seq, words := ws, bflags := 0, crc := blkCrc seq ws, st := .good }

/-- An item header word. -/
def itemHdr (itype nw tgt : Nat) : Word := BitVec.ofNat 32 (itype * 2 ^ 24 + nw * 2 ^ 16 + tgt)

/-! ## Sending (R392 to R394, R400) -/

def State.ownAddr (s : State) : Nat := s.get F.NET_ADDR_ADDR
def State.yokeAddr (s : State) : Nat := s.get F.NET_ADDR_YADDR
def State.ownSeg (s : State) : Nat := s.ownAddr / 64
def State.refused (s : State) : Bool := s.bit F.NET_JOIN_REFUSED

/-- FLAGS of a frame the device builds: ACTIVE on a device that is not yoked or whose role is ACTIVE, PARTNER_HI. -/
def State.ownFlags (s : State) : Nat :=
  b2n (!s.load.yoked || s.roleActive) + 2 * b2n (s.bit F.NET_ADDR_HI)

/-- A frame travels the direction that SECONDARY names; where that egress is down it is wrapped once (R392, R393). -/
def State.ringSend (s : State) (fwd : Bool) (h : IceHdr) (bs : List IceBlk) (at_ : Tick) : State :=
  let p : Fin 3 := if h.secondary then 1 else 0
  let q : Fin 3 := if h.secondary then 0 else 1
  if s.portUp p then s.sendIcend p fwd (icePayload h bs) at_
  else if h.wrapped then s
  else
    let h' := { h with flags := h.flags + 8 + (if h.secondary then 0 else 4) - (if h.secondary then 4 else 0) }
    s.sendIcend q fwd (icePayload h' bs) at_

/-- A copy is kept until the receive deadline of its cycle (R395). -/
def State.keepFrame (s : State) (h : IceHdr) (bs : List IceBlk) : State :=
  s.modNet (fun n => { n with kept := n.kept ++ [{ cyc := h.cyc, payload := icePayload h bs, served := [] }] })

/-- The header of a frame the device builds. -/
def State.newHdr (s : State) (ftype src dst : Nat) (secondary : Bool) (blkcnt : Nat) : IceHdr :=
  { ver := 1, ftype := ftype, hops := 0, flags := s.ownFlags + (if secondary then 4 else 0), src := src, dst := dst,
    inj := s.ownAddr, blkcnt := blkcnt, cyc := s.cyc % 2 ^ 32 }

/-! ## Items (R391) -/

/-- What the items of an accepted block ask for. -/
structure Parsed where
  items : List NetItem
  stats : List Word
  unk : Nat
  deriving DecidableEq, Repr

/-- The items of a block's data words; an unknown or malformed one ends the block (R391). -/
def parseItems : Nat → List Word → Parsed → Parsed
  | 0, _, acc => acc
  | _, [], acc => acc
  | n + 1, w :: r, acc =>
    let itype := bitsGet w 24 8
    let nw := bitsGet w 16 8
    let tgt := bitsGet w 0 16
    let d := r.take nw
    let bad : Parsed := { acc with unk := acc.unk + 1 }
    if itype = 0 then acc
    else if r.length < nw then bad
    else if itype = 1 then
      match tgt / 2 ^ 13, d with
      | 0, [v] => (match finOf 24 (tgt % 32) with
        | some t => parseItems n (r.drop nw) { acc with items := acc.items ++ [.sp t v] }
        | none => bad)
      | 1, [v] => parseItems n (r.drop nw)
          { acc with items := acc.items ++ [.tq ⟨tgt % 8, Nat.mod_lt _ (by decide)⟩ v] }
      | 2, v :: vs => parseItems n (r.drop nw) { acc with items := acc.items ++ [.state (tgt % 2 ^ 13) (v :: vs)] }
      | _, _ => bad
    else if itype = 2 then parseItems n (r.drop nw) { acc with stats := acc.stats ++ d }
    else if itype = 3 ∨ itype = 0x10 ∨ itype = 0x20 then parseItems n (r.drop nw) acc
    else bad

/-! ## Windows (R396) -/

/-- The window rule for block s: accepted, with the window's new h and m. -/
def winAccept (h m s : Nat) : Bool × Nat × Nat :=
  let d := (s + 65536 - h) % 65536
  if 1 ≤ d ∧ d ≤ 32767 then (true, s, ((m * 2 + 1) * 2 ^ (d - 1)) % 2 ^ 63)
  else
    let b := (h + 65536 - s) % 65536
    if 1 ≤ b ∧ b ≤ 63 ∧ m / 2 ^ (b - 1) % 2 = 0 then (true, h, m + 2 ^ (b - 1)) else (false, h, m)

/-- NET_SRCUSE follows the table. -/
def State.winShow (s : State) : State :=
  let n := s.net.wins.length
  let s := s.put F.NET_SRCUSE_NOW n
  s.raiseMax F.NET_SRCUSE_HWM n

/-- A source's frame has come: its window lives on. -/
def State.winTouch (s : State) (h : IceHdr) : State :=
  s.modNet (fun n => { n with wins := n.wins.map (fun w =>
    if w.src = h.src ∧ w.hi = h.hi then { w with cyc := s.cyc } else w) })

/-- Whether a good block is new, and the table after it. -/
def State.winBlock (s : State) (p : Fin 3) (h : IceHdr) (seq : Nat) : Bool × State :=
  match s.net.wins.find? (fun w => w.src == h.src && w.hi == h.hi) with
  | some w =>
    let (ok, h', m') := winAccept w.h w.m seq
    if ok then
      (true, s.modNet (fun n => { n with wins := n.wins.map (fun x =>
        if x.src = h.src ∧ x.hi = h.hi then { x with h := h', m := m' } else x) }))
    else (false, s.bumpSat F.NET_RXCNT_DUP)
  | none =>
    if 128 ≤ s.net.wins.length then
      (false, (s.raise F.NET_SRCUSE_OVF).record (cnet 13) (netCtx p h.src))
    else
      (true, (s.modNet (fun n => { n with
        wins := n.wins ++ [{ src := h.src, hi := h.hi, h := seq, m := 0, cyc := s.cyc }] })).winShow)

/-! ## Receiving -/

/-- The frame is addressed to the device (R398). -/
def State.addressed (s : State) (dst : Nat) : Bool :=
  dst == s.ownAddr || dst == s.yokeAddr || dst == s.ownSeg * 64 + 63 || dst == 0xFFF

/-- The frame's cycle is the present one, before its receive deadline, or the next (R386). -/
def State.cycleOk (s : State) (c : Nat) : Bool :=
  (c == s.cyc % 2 ^ 32 && s.inWindow) || c == (s.cyc + 1) % 2 ^ 32

/-- A late frame (R386). -/
def State.lateIcend (s : State) (p : Fin 3) (h : IceHdr) : State :=
  let s := s.bumpSat F.NET_RXCNT_LATE
  if recentAt s.now s.net.lateAt then s
  else (s.record (cnet 8) (netCtx p h.src)).modNet (fun n => { n with lateAt := some s.now })

/-- A repair request for failed blocks of a frame (R395); back over NET2 for a frame that came over it. -/
def State.requestRepair (s : State) (p : Fin 3) (h : IceHdr) (seqs : List Nat) : State :=
  if seqs.isEmpty then s
  else
    let w : Word := BitVec.ofNat 32 (h.src + 4096 * b2n h.hi)
    let dst := if p = 2 then (s.nport 2).far.getD h.inj else h.inj
    let hd := { s.newHdr ftREQ s.ownAddr dst true 1 with cyc := h.cyc }
    let bs := [ownBlk 0 (seqs.flatMap (fun q => [itemHdr 0x10 1 q, w]))]
    let s := s.put F.NET_RPRCNT_REQ (s.get F.NET_RPRCNT_REQ + seqs.length)
    let s := s.modNet (fun n => { n with
      reqs := n.reqs ++ seqs.map (fun q => { cyc := h.cyc, src := h.src, hi := h.hi, seq := q, port := p.val }) })
    let s := s.keepFrame hd bs
    if p = 2 then s.sendIcend 2 false (icePayload hd bs) s.now else s.ringSend false hd bs s.now

/-- The accepted blocks of an addressed frame are held (R386, R391, R396). -/
def State.holdBlocks (s : State) (p : Fin 3) (h : IceHdr) (bs : List IceBlk) : State :=
  let s := s.winTouch h
  each (bs.filter (fun b => b.st == .good)) (fun b s =>
    let (ok, s) := s.winBlock p h b.seq
    if !ok then s
    else
      let x := parseItems b.words.length b.words { items := [], stats := [], unk := 0 }
      let s := if x.unk = 0 then s else s.bumpSat F.NET_RXCNT_UNKITEM
      s.modNet (fun n => { n with
        held := n.held ++ x.items.map (fun i => { cyc := h.cyc, item := i })
        stats := n.stats ++ x.stats.map (fun w => { cyc := h.cyc, src := h.src, active := h.active, w := w })
        reqs := n.reqs.filter (fun r => !(r.src == h.src && r.hi == h.hi && r.seq == b.seq && r.cyc == h.cyc))
        lastDone := s.cycOfs / 256 })) s

/-- Failed blocks that are not poisoned are counted, and recorded at most once a second per port (R390). -/
def State.countFailed (s : State) (p : Fin 3) (h : IceHdr) (bs : List IceBlk) : State :=
  each (bs.filter (fun b => b.st == .failed)) (fun _ s =>
    let s := s.bumpSat (F.NET_ERRCNT_BLKERR p)
    if recentAt s.now (s.nport p).blkAt then s
    else (s.record (cnet 1) (netCtx p h.src)).modNPort p (fun x => { x with blkAt := some s.now })) s

/-- The bit of a segment in NET_SEGMAP. -/
def State.segMapped (s : State) (seg : Nat) : Bool :=
  if seg < 32 then (s.rd A.NET_SEGMAP0).toNat / 2 ^ seg % 2 == 1
  else seg != 63 && (s.rd A.NET_SEGMAP1).toNat / 2 ^ (seg - 32) % 2 == 1

/-- Forwarding of a frame that arrived on a ring port, leaving 128 ticks after its arrival stamp (R392, R393). -/
def State.forwardRing (s : State) (h : IceHdr) (bs : List IceBlk) (arr : Tick) : State :=
  if h.dst = s.ownAddr ∧ h.dst ≠ s.yokeAddr ∨ h.dst = s.ownAddr ∧ !s.load.yoked then s
  else if h.hops = 255 then s
  else
    let h' := { h with hops := h.hops + 1 }
    let s := s.ringSend true h' bs (arr + 128)
    if h.ftype = ftDATA && (s.segMapped (h.dst / 64) || h.dst == 0xFFF) && !s.bit F.NET_JOIN_SEGREF then
      (s.keepFrame h' bs).sendIcend 2 true (icePayload h' bs) (arr + 128)
    else s

/-- A frame from NET2 is injected into the primary direction, or discarded (R392). -/
def State.injectUplink (s : State) (h : IceHdr) (bs : List IceBlk) : State :=
  let seg := h.dst / 64
  if h.dst = s.ownAddr ∧ h.dst ≠ s.yokeAddr ∨ h.dst = s.ownAddr ∧ !s.load.yoked then s
  else if !(seg == s.ownSeg || h.dst == 0xFFF || !s.segMapped seg) then s.bumpSat (F.NET_ERRCNT_DISC 2)
  else if h.hops = 255 then s
  else
    let h' := { h with inj := s.ownAddr, hops := h.hops + 1, flags := h.flags % 4 }
    (s.keepFrame h' bs).ringSend true h' bs s.now

/-- An Icend frame has been received whole: `b` its payload, `good` its frame check, `tagged` a VLAN tag (R388 to R393).
`use_` is what its type makes of a frame that the device may use. -/
def State.icendIn (s : State) (p : Fin 3) (b : List Byte) (good tagged : Bool) (use_ : IceHdr → List IceBlk → State → State) :
    State :=
  if !s.portUp p then s
  else
    let s := s.bump (F.NET_FRMCNT_RX p)
    let s := if good then s else s.bumpSat (F.NET_ERRCNT_FCSERR p)
    let h := iceHdr b
    if tagged then s.bumpSat (F.NET_ERRCNT_DISC p)
    else if b.length < 24 ∨ le b 20 4 ≠ hdrCrc b then s.bumpSat (F.NET_ERRCNT_HDRERR p)
    else if h.ver ≠ 1 then s.bumpSat (F.NET_ERRCNT_DISC p)
    else if p = 2 ∧ s.bit F.NET_JOIN_SEGREF then s
    else
      let bs := iceBlks h.blkcnt (b.drop 24)
      let s := s.raiseMax (F.NET_FWDCNT_MAXHOPS p) h.hops
      let s := if h.hops = 255 then s.bumpSat (F.NET_FWDCNT_HOPDROP p) else s
      let s := s.modNet (fun n => { n with
        segs := n.segs.filter (fun e => e.1 != h.src / 64) ++ [(h.src / 64, s.now)] })
      let s := s.countFailed p h bs
      let own := h.inj == s.ownAddr && p != 2
      let arr := s.now - ((18 + b.length) * 5 + 1) / 2
      let s := if own && h.ftype != ftHELLO then s else use_ h bs s
      if p = 2 then s.injectUplink h bs else if own then s else s.forwardRing h bs arr

/-- DATA and REPAIR_DATA frames (R386, R390, R395). -/
def useData (p : Fin 3) (h : IceHdr) (bs : List IceBlk) (s : State) : State :=
  if !s.addressed h.dst ∨ s.refused ∨ !s.icendOn then s
  else if !s.cycleOk h.cyc then s.lateIcend p h
  else (s.requestRepair p h ((bs.filter (fun b => b.st == .failed)).map IceBlk.seq)).holdBlocks p h bs

def State.icendReceive (s : State) (p : Fin 3) (b : List Byte) (good tagged : Bool) : State :=
  if byteAt b 1 = ftREQ ∨ byteAt b 1 = ftHELLO then s else s.icendIn p b good tagged (useData p)

/-! ## Repair (R395) -/

/-- The blocks a request names. -/
def rprItems : List Word → List (Nat × Nat × Bool)
  | a :: b :: r =>
    if bitsGet a 24 8 = 0x10 ∧ bitsGet a 16 8 = 1 then (bitsGet a 0 16, bitsGet b 0 12, bitsGet b 12 1 == 1) :: rprItems r
    else []
  | _ => []

/-- The first request for a block of a kept frame is served. -/
def State.serveOne (s : State) (p : Fin 3) (cyc : Nat) (q : Nat × Nat × Bool) : State :=
  let fits (k : KeptFrame) : Bool :=
    let h := iceHdr k.payload
    k.cyc == cyc && h.src == q.2.1 && h.hi == q.2.2 && !k.served.contains q.1
      && (iceBlks h.blkcnt (k.payload.drop 24)).any (fun b => b.seq == q.1)
  match s.net.kept.find? fits with
  | none => s
  | some k =>
    let h := iceHdr k.payload
    match (iceBlks h.blkcnt (k.payload.drop 24)).find? (fun b => b.seq == q.1) with
    | none => s
    | some b =>
      let hd := { h with ftype := ftREPAIR, hops := 0, flags := h.flags % 4 + 4, inj := s.ownAddr, blkcnt := 1 }
      let bs := [{ b with bflags := 1 }]
      let s := s.bump F.NET_RPRCNT_SERVED
      let s := s.modNet (fun n => { n with kept := n.kept.map (fun x =>
        if x = k then { x with served := x.served ++ [q.1] } else x) })
      if p = 2 then s.sendIcend 2 false (icePayload hd bs) s.now else s.ringSend false hd bs s.now

def useReq (p : Fin 3) (h : IceHdr) (bs : List IceBlk) (s : State) : State :=
  if h.dst ≠ s.ownAddr ∨ !s.icendOn then s
  else
    each ((bs.filter (fun b => b.st == .good)).flatMap (fun b => rprItems b.words)) (fun q s => s.serveOne p h.cyc q) s

def State.repairReceive (s : State) (p : Fin 3) (b : List Byte) (good tagged : Bool) : State :=
  if byteAt b 1 ≠ ftREQ then s else s.icendIn p b good tagged (useReq p)

/-! ## Joining (R399) -/

/-- The device's age in ms since it began its HELLO frames. -/
def State.helloAge (s : State) : Nat :=
  match s.net.hello0 with
  | some t => min (2 ^ 32 - 1) ((s.now - t) / ticksPerMs)
  | none => 0

/-- A HELLO frame is sent, the first at the first link-up and one each second after it. -/
def State.helloSend (s : State) : State :=
  let due := s.net.hello0.isSome && (match s.net.helloAt with
    | some t => decide (t + ticksPerSec ≤ s.now)
    | none => true)
  if !due ∨ s.refused ∨ !s.icendOn then s
  else
    let hd := s.newHdr ftHELLO s.ownAddr (s.ownSeg * 64 + 63) false 1
    let blk (up : Bool) : List IceBlk :=
      [ownBlk 0 [itemHdr 0x20 2 0, BitVec.ofNat 32 (s.ownAddr + b2n up * 2 ^ 31), BitVec.ofNat 32 s.helloAge]]
    let s := s.modNet (fun n => { n with
      helloAt := some s.now, stations := n.stations.filter (fun e => e.1 != s.ownAddr) ++ [(s.ownAddr, s.now)] })
    let s := (s.keepFrame hd (blk false)).ringSend false hd (blk false) s.now
    s.sendIcend 2 false (icePayload hd (blk (s.bit (F.NET_PSTAT_PEERBX 2)))) s.now

/-- A HELLOI item: its address and age. -/
def helloItem : List Word → Option (Nat × Nat)
  | a :: b :: c :: _ => if bitsGet a 24 8 = 0x20 ∧ bitsGet a 16 8 = 2 then some (bitsGet b 0 12, c.toNat) else none
  | _ => none

/-- What a HELLO frame says: stations heard, the link partner, and conflicts of address or segment. -/
def useHello (p : Fin 3) (mac : Nat) (h : IceHdr) (bs : List IceBlk) (s : State) : State :=
  let s := if h.hops = 0 then s.putB (F.NET_PSTAT_PEERBX p) true else s
  match (bs.filter (fun b => b.st == .good)).findSome? (fun b => helloItem b.words) with
  | none => s
  | some (addr, age) =>
    let s := if h.hops = 0 then s.modNPort p (fun x => { x with far := some addr }) else s
    let s := if addr / 64 = s.ownSeg ∧ p ≠ 2 then
        s.modNet (fun n => { n with stations := n.stations.filter (fun e => e.1 != addr) ++ [(addr, s.now)] })
      else s
    if p = 2 then
      (if addr / 64 = s.ownSeg ∧ s.icendOn ∧ !s.bit F.NET_JOIN_SEGREF then
        (s.putB F.NET_JOIN_SEGREF true).record (cnet 11) (netCtx p addr)
      else s)
    else if addr = s.ownAddr ∧ mac ≠ s.load.mac ∧ s.icendOn ∧ !s.refused
        ∧ (s.helloAge < age ∨ (s.helloAge = age ∧ mac < s.load.mac)) then
      ((s.putB F.NET_JOIN_REFUSED true).putB F.NET_JOIN_JOINED false).record (cnet 10) (netCtx p addr)
    else s

def State.helloReceive (s : State) (p : Fin 3) (mac : Nat) (b : List Byte) (good tagged : Bool) : State :=
  if byteAt b 1 ≠ ftHELLO then s else s.icendIn p b good tagged (useHello p mac)

/-- HELLO frames have been sent for 2 s without a conflict (R399). -/
def State.joinComplete (s : State) : State :=
  match s.net.hello0, s.net.helloAt with
  | some t, some _ =>
    if t + 2 * ticksPerSec ≤ s.now ∧ !s.refused ∧ s.icendOn then s.putB F.NET_JOIN_JOINED true else s
  | _, _ => s

/-! ## The cycle (R384 to R387, R401) -/

/-- A cycle begins: NET_WINUSE of the cycle before, windows that no frame fed for 4 cycles, re-entries (R203, R396). -/
def State.cycleBoundary (s : State) : State :=
  if !s.load.locked ∨ !s.cycDue 0 ∨ s.net.bnd = some s.cyc then s
  else
    let last := min 65535 s.net.lastDone
    let s := s.put F.NET_WINUSE_LAST last
    let s := s.raiseMax F.NET_WINUSE_PEAK last
    let c := s.cyc
    let s := s.modNet (fun n => { n with
      bnd := some c, lastDone := 0, wins := n.wins.filter (fun w => decide (c < w.cyc + 5)) })
    each allGroups (fun g s => s.groupReenter g) s.winShow

/-- The TEAMSTAT words: one for each local member of a group with remote members (R401). -/
def State.teamStats (s : State) : List (Fin 24 × Word) :=
  allGroups.flatMap (fun g =>
    if !(s.groups[g]).enabled || !s.groupRemote g then []
    else (s.groupUsed g).filterMap (fun m =>
      if s.bit (F.MGRP_MEMA_LOC g m) then
        (finOf 24 (s.get (F.MGRP_MEMA_TEAM g m))).map (fun t =>
          (t, BitVec.ofNat 32 (b2n (s.localLive t) * 2 ^ 31 + g.val * 2 ^ 24 + t.val)))
      else none))

/-- The blocks of a DATA frame: the items that open the first block, then values in PUBLISH items, each block filled before
the next; at most 5 blocks of 62 words (R389, R394). -/
def publishFill : Nat → List Word → List Word → List (List Word)
  | 0, _, _ => []
  | _ + 1, cur, [] => if cur.isEmpty then [] else [cur]
  | n + 1, cur, vs =>
    let k := min (62 - cur.length - 1) vs.length
    if cur.length + 2 ≤ 62 then (cur ++ itemHdr 3 k 0 :: vs.take k) :: publishFill n [] (vs.drop k)
    else cur :: publishFill n [] vs

/-- The values of NET_PUBLIST in order, read at the transmit tick by the publish reader (R401). -/
def State.publishRead (s : State) : List Word × State :=
  (List.range (s.get F.NET_CFG_PUBN)).foldl (fun (acc : List Word × State) i =>
    let a := acc.2.get (F.NET_PUBLIST_ADDR i) / 4 * 4
    let (f, s) := if a = A.SER_FLSRDATA then acc.2.free else ((0 : Word), acc.2)
    let (w, s) := s.readWord 3 .icend a f
    (acc.1 ++ [w], s)) ([], s)

/-- The device sends its DATA frame (R394, R399 to R401). -/
def State.dataSend (s : State) : State :=
  let ofs := if s.bit F.NET_ADDR_HI then (s.rd A.NET_TXOFSHI).toNat else (s.rd A.NET_TXOFS).toNat
  if !s.icendOn ∨ !s.bit F.NET_JOIN_JOINED ∨ s.refused ∨ !s.cycDue ofs ∨ s.net.sentCyc = some s.cyc then s
  else
    let st := s.teamStats
    let s := each st (fun e s => if bitsGet e.2 31 1 = 1 then s.modTeam e.1 (fun m => { m with liveSeen := true }) else s) s
    let (vs, s) := s.publishRead
    let head := if st.isEmpty then [] else itemHdr 2 st.length 0 :: st.map Prod.snd
    let blocks := match publishFill 5 head vs with
      | [] => [[(0 : Word)]]
      | l => l
    let bs := blocks.mapIdx (fun i ws => ownBlk ((s.net.seq + i) % 65536) ws)
    let hd := s.newHdr ftDATA s.yokeAddr (s.get F.NET_TXDST_DST) false bs.length
    let s := s.modNet (fun n => { n with sentCyc := some s.cyc, seq := (n.seq + bs.length) % 65536 })
    let s := s.put F.NET_PUBCFG_BLOCKS bs.length
    (s.keepFrame hd bs).ringSend false hd bs s.now

/-- One held item is delivered as a write at rank 10 (R387). -/
def State.deliverNow (s : State) : NetItem → State
  | .sp t w => s.lockGuard .icend (A.TEAM_SP t) w (fun s => s.spWrite t .icend w)
  | .tq g w => s.lockGuard .icend (A.MGRP_TQCMD g) w (fun s =>
    if s.bit (F.CE_GRPCTL_TQOUT g) then s.raise (F.CE_GRPCTL_WR_IGN g) else s.tqWrite g w)
  | .state base ws =>
    let b := s.get F.NET_RXSTATE_BASE
    let n := s.get F.NET_RXSTATE_LEN
    each (ws.mapIdx (fun i w => (base + i, w))) (fun e s =>
      if b ≤ e.1 ∧ e.1 < b + n ∧ e.1 < 8192 then s.memSet (K.state e.1) e.2 else s.bumpSat F.NET_RXCNT_REJ) s

/-- An item takes a general tag, or stays in the receive buffer (R27). -/
def State.deliver (s : State) (x : NetItem) : State :=
  s.issueAs (.item x) (fun s => s.deliverNow x)

/-- The slots of group g that name a team of a device. -/
def State.slotsOf (s : State) (g : Fin 8) (addr team : Nat) : List Nat :=
  (s.groupUsed g).filter (fun m => s.slotId g m == (addr, team))

/-- Team status at the deadline of cycle c: words of frames with ACTIVE = 1 apply to the entries; every word whose source, team
and group match no entry is counted for an enabled group, whatever its frame's ACTIVE (R39, R202, R401). -/
def State.statusApply (s : State) (c : Nat) : State :=
  let heard := s.net.stats.filter (fun x => x.cyc == c)
  let key (x : HeldStat) : Nat × Nat × Nat := (x.src, bitsGet x.w 0 5, bitsGet x.w 24 3)
  let s := each (heard.filter (fun x => !s.load.rtt.contains (key x))) (fun x s =>
    match finOf 8 (key x).2.2 with
    | some g => if (s.groups[g]).enabled then s.bumpSat (F.MGRP_CNT_UNK g) else s
    | none => s) s
  each s.load.rtt (fun e s =>
    match finOf 8 e.2.2 with
    | none => s
    | some g =>
      let live := match heard.find? (fun x => x.active && key x == e) with
        | some x => bitsGet x.w 31 1 == 1
        | none => false
      each (s.slotsOf g e.1 e.2.1) (fun m s => if live then s.remoteAlive g m else s.remoteDrop g m) s) s

/-- The receive deadline of the present cycle (R386, R387, R395, R401). -/
def State.receiveDeadline (s : State) : State :=
  if !s.load.locked ∨ !s.cycDue (s.rd A.NET_RXDL).toNat ∨ s.net.dlCyc = some s.cyc then s
  else
    let c := s.cyc % 2 ^ 32
    let mine := s.net.held.filter (fun x => x.cyc == c)
    let s := s.modNet (fun n => { n with dlCyc := some s.cyc, held := n.held.filter (fun x => x.cyc != c) })
    let s := each mine (fun x s => s.deliver x.item) s
    let s := s.statusApply c
    let s := each (s.net.reqs.filter (fun r => r.cyc == c)) (fun r s => s.record (cnet 9) (netCtx r.port r.src)) s
    s.modNet (fun n => { n with
      stats := n.stats.filter (fun x => x.cyc != c), reqs := n.reqs.filter (fun x => x.cyc != c),
      kept := n.kept.filter (fun x => x.cyc != c) })

/-! ## Frames for firmware (R366 to R368) -/

/-- NET_MBXRXSTAT and NET_MBXRXT show the head of the ring. -/
def State.mailShow (s : State) : State :=
  match s.net.rx with
  | m :: r =>
    let s := s.wr A.NET_MBXRXSTAT (BitVec.ofNat 32 (m.slot * 2 ^ 28 + (r.length + 1) * 2 ^ 23 + m.port * 2 ^ 20 + m.len))
    s.wr A.NET_MBXRXT (BitVec.ofNat 32 m.stamp)
  | [] => (s.wr A.NET_MBXRXSTAT 0).wr A.NET_MBXRXT 0

/-- The words of a frame, octet 4i + b in bits 8b + 7 to 8b of word i. -/
def frameWords (o : List Byte) : List Word := leWords (o ++ List.replicate ((4 - o.length % 4) % 4) 0)

/-- A frame that is neither Icend nor PTP (R366 to R368): `o` from the destination address to the end of the payload, `ps`
its stamp within the tick. -/
def State.otherReceive (s : State) (p : Fin 3) (o : List Byte) (good : Bool) (ps : Nat) : State :=
  if !s.portUp p then s
  else
    let s := s.bump (F.NET_FRMCNT_RX p)
    let dst := beNat (slice o 0 6)
    if !good then s.bumpSat (F.NET_ERRCNT_FCSERR p)
    else if o.length < 60 ∨ 1518 < o.length ∨ beNat (slice o 12 2) = 0x8808 then s.bumpSat (F.NET_ERRCNT_DISC p)
    else if dst ≠ s.load.mac ∧ dst ≠ 2 ^ 48 - 1 then s
    else if 16 ≤ s.net.rx.length then s.bumpSat F.NET_MBXRXPOP_DROPS
    else
      let slot := s.net.rxNext
      let s := each ((frameWords o).mapIdx (fun i w => (i, w))) (fun e s => s.memSet (K.rxSlot slot e.1) e.2) s
      let stamp := (psToFine (s.rxStamp p ps) % (2 ^ 32 : Int)).toNat
      let s := s.modNet (fun n => { n with
        rx := n.rx ++ [{ slot := slot, port := p.val, len := o.length, stamp := stamp }], rxNext := (slot + 1) % 16 })
      s.notify.mailShow

/-- A write of POP. -/
def State.mailPop (s : State) : State := (s.modNet (fun n => { n with rx := n.rx.drop 1 })).mailShow

/-- The first `len` octets of a transmit slot. -/
def State.slotOctets (s : State) (u : Fin 4) (len : Nat) : List Byte :=
  ((List.range ((len + 3) / 4)).flatMap (fun i => leBytes 4 (s.memGet (K.txSlot u i)).toNat)).take len

/-- A write of GO to NET_MBXTXCTL. -/
def State.mailSend (s : State) (port : Nat) (u : Fin 4) (len : Nat) : State :=
  let err (s : State) : State := s.raiseBit F.NET_MBXTXSTAT_ERR u
  match finOf 3 port with
  | none => err s
  | some p =>
    if s.bitAt F.NET_MBXTXSTAT_BUSY u ∨ !s.portUp p ∨ len < 14 ∨ 1518 < len then err s
    else if s.tc - (s.rd A.NET_RXDL).toNat < occFine len then s.mailFail u
    else
      let f := OutFrame.mail u (s.slotOctets u len)
      (s.setBit F.NET_MBXTXSTAT_BUSY u true).modNPort p (fun x => { x with qOther := x.qOther ++ [f] })

/-- A mailbox frame has been sent. -/
def State.mailSent (s : State) (u : Fin 4) : State :=
  match s.net.txEnd[u] with
  | some t =>
    if t ≤ s.now then
      let s := s.modNet (fun n => { n with txEnd := n.txEnd.set u none })
      (s.setBit F.NET_MBXTXSTAT_BUSY u false).raiseBit F.NET_MBXTXSTAT_DONE u
    else s
  | none => s

end Sys2Proof.Machine
end

