-- ==== Sys2Proof/Machine/House.lean ====
section
/-!
DEFINITION. Housekeeping: the measuring round, die temperature, throttle levels, thermal shut-down, the cabinet feeds, and
the fault-log journal (chapter 16).
-/
namespace Sys2Proof.Machine

/-! ## The round (R440 to R442) -/

/-- Ticks of a channel's slot. -/
def slotTicks : Nat := 9984

/-- The present tick ends the slot of a channel, and the channel takes a sample there. -/
def State.slotDue (s : State) (ch : Fin 64) : Bool :=
  s.tim.pll && decide (s.now = s.hk.roundAt + slotTicks * (ch.val + 1))
    && (decide (ch.val < 24) || decide (s.get (F.HKP_EXTSEL_CMP (ch.val - 24)) < 96))

def State.modTs (s : State) (i : Fin 16) (f : TsSt → TsSt) : State :=
  s.modHk (fun h => { h with ts := h.ts.set i (f h.ts[i]) })

/-- HKP_FEEDV of a code: the feed's voltage in 10 mV units, (code × 0.390625 mV − 0.8 V) ÷ 0.02 (R440, R451). -/
def State.feedVolt (s : State) (f : Fld) (code : Nat) : State :=
  let (v, s) := s.roundFree (125 * (code : Int) - 256000) 64
  s.putI f v

/-- A channel's result at the end of its slot; `temp` and `flag`: a die sensor's converted reading and the self-check's
flag; `out`: a supply outside ±5 % of its nominal voltage. -/
def State.hkSlot (s : State) (ch : Fin 64) (code : Nat) (temp : Int) (flag out : Bool) : State :=
  if !s.slotDue ch then s
  else
    let s := (s.put (F.HKP_CH_CODE ch) code).putB (F.HKP_CH_DONE ch) true
    match finOf 16 ch.val with
    | some i => s.modTs i (fun x => { x with reading := some temp, flagged := flag })
    | none =>
      if ch.val = 21 then s.feedVolt F.HKP_FEEDV_VA (code % 4096)
      else if ch.val = 22 then s.feedVolt F.HKP_FEEDV_VB (code % 4096)
      else match finOf 5 (ch.val - 16) with
        | some k =>
          if out && (match s.hk.vddAt[k] with
              | some t => decide (t + ticksPerSec ≤ s.now)
              | none => true) then
            (s.modHk (fun h => { h with vddAt := h.vddAt.set k (some s.now) })).record (fcode cSUPPLY 6) k.val
          else s
        | none => s

/-! ## Die temperature (R443, R444) -/

def allTs : List (Fin 16) := List.finRange 16

/-- A sensor counts as valid: it has been read, and is not lost. -/
def TsSt.valid (x : TsSt) : Bool := !x.lost && x.prev.isSome

/-- A reading is plausible (R443). -/
def TsSt.plausible (x : TsSt) (r : Int) (jump : Nat) : Bool :=
  decide (-880 ≤ r) && decide (r ≤ 2800) && !x.flagged && (match x.prev with
    | some p => decide ((r - p).natAbs ≤ jump)
    | none => true)

/-- A sensor takes its reading of the round, or becomes lost at an implausible one. -/
def State.tsRead (s : State) (i : Fin 16) : State :=
  let x := s.hk.ts[i]
  let r := x.reading.getD 0
  let ok := x.plausible r (s.get F.HKP_TSCFG_JUMP)
  if x.lost then s
  else if ok then s.modTs i (fun x => { x with prev := some r, lastGood := r })
  else
    let (good, s) := match x.prev with
      | some _ => (x.lastGood, s)
      | none =>
        let (w, s) := s.free
        (toSigned 16 w.toNat, s)
    (s.modTs i (fun x => { x with lost := true, tLost := s.now, recCnt := 0, lastGood := good })).record
      (fcode cTHERMAL 4) i.val

/-- The greatest valid reading of a region. -/
def State.regionMax (s : State) (r : Nat) : Option Int :=
  ((allTs.filter (fun i => i.val / 4 == r && (s.hk.ts[i]).valid)).map (fun i => (s.hk.ts[i]).lastGood)).max?

/-- The substitute of a lost sensor (R444), and its recovery (R443). -/
def State.tsLost (s : State) (vmax : Nat → Option Int) (i : Fin 16) : State :=
  let x := s.hk.ts[i]
  if !x.lost then s
  else
    let (g, s) := s.roundFree ((s.get F.HKP_TSCFG_RATE * 16 * (s.now - x.tLost) : Nat) : Int) (10 * ticksPerSec)
    let sub := x.lastGood + min g (s.get F.HKP_TSCFG_SPAN * 16 : Nat)
    let sub := match vmax (i.val / 4) with
      | some m => max sub m
      | none => sub
    let r := x.reading.getD 0
    let ok := x.plausible r (s.get F.HKP_TSCFG_JUMP)
    let n := if ok && decide ((r - sub).natAbs ≤ 160) then x.recCnt + 1 else 0
    let prev := if ok then some r else x.prev
    if s.get F.HKP_TSCFG_RECN ≤ n then
      let s := s.modTs i (fun x => { x with lost := false, lastGood := r, prev := prev, recCnt := 0, sub := sub })
      (s.modHk (fun h => { h with tRecov := some s.now })).record (fcode cTHERMAL 5) i.val
    else s.modTs i (fun x => { x with prev := prev, recCnt := n, sub := sub })

/-- What a sensor gives to the maximum: its reading, or its substitute while lost. -/
def TsSt.value (x : TsSt) : Int := if x.lost then x.sub else x.lastGood

/-- HKP_TS, HKP_TSSTAT and HKP_TMAX as the sensors stand; the lowest sensor of those with the maximum is named. -/
def State.tsShow (s : State) : State :=
  let s := each allTs (fun i s =>
    let x := s.hk.ts[i]
    ((s.putB (F.HKP_TS_VALID i) x.valid).putB (F.HKP_TS_SUB i) x.lost).putI (F.HKP_TS_TEMP i) x.value) s
  let lost := (allTs.filter (fun i => (s.hk.ts[i]).lost)).map (fun i => i.val)
  let s := s.put F.HKP_TSSTAT_LOST ((lost.map (fun i => 2 ^ i)).sum)
  let s := s.put F.HKP_TSSTAT_NVALID ((allTs.filter (fun i => (s.hk.ts[i]).valid)).length)
  let s := s.put F.HKP_TSSTAT_REG2
    (((List.range 4).map (fun r => if 2 ≤ (lost.filter (fun i => i / 4 == r)).length then 2 ^ r else 0)).sum)
  let best := allTs.foldl (fun (b : Fin 16) i => if (s.hk.ts[b]).value < (s.hk.ts[i]).value then i else b) 0
  let s := s.putB F.HKP_TMAX_SUBST (s.hk.ts[best]).lost
  (s.put F.HKP_TMAX_SENSOR best.val).putI F.HKP_TMAX_TEMP (s.hk.ts[best]).value

/-! ## Thresholds (R445, R446) -/

/-- The warning. -/
def State.thWarn (s : State) (t : Int) : State :=
  let w := s.getI F.HKP_THWARN_TEMP
  if w ≤ t then
    (if s.bit F.HKP_THSTAT_WARN then s
     else (s.putB F.HKP_THSTAT_WARN true).record (fcode cTHERMAL 1) (ofSigned 16 t))
  else if t < w - s.get F.HKP_THCFG_HYS then s.putB F.HKP_THSTAT_WARN false
  else s

/-- The throttle level. -/
def State.thLevel (s : State) (t : Int) : State :=
  let s := each (List.finRange 3) (fun k s =>
    let on : Int := s.getI F.HKP_THTHR_TEMP + k.val * s.get F.HKP_THCFG_STEP
    if on ≤ t then s.modHk (fun h => { h with want := h.want.set k true })
    else if t < on - s.get F.HKP_THCFG_HYS then s.modHk (fun h => { h with want := h.want.set k false })
    else s) s
  let new := if s.hk.want[2] then 3 else if s.hk.want[1] then 2 else if s.hk.want[0] then 1 else 0
  let new := if s.get F.HKP_TSSTAT_REG2 ≠ 0 then 3 else new
  let bar := s.get F.HKP_TSSTAT_LOST != 0 || (match s.hk.tRecov with
    | some r => decide (s.now < r + 10 * ticksPerSec)
    | none => false)
  let level := s.get F.HKP_THSTAT_LEVEL
  let new := if new < level ∧ bar then level else new
  let s := (s.putB F.HKP_THSTAT_HOLD bar).putB F.HKP_THSTAT_DREQ (new == 3)
  if new = level then s else (s.put F.HKP_THSTAT_LEVEL new).record (fcode cTHERMAL 2) new

/-! ## Thermal shut-down (R448 to R450) -/

/-- HKP_SHDREC0 to HKP_SHDREC2 follow the retained record. -/
def State.shutShow (s : State) : State :=
  let r := s.shutRec
  let s := s.wr A.HKP_SHDREC0 (BitVec.ofNat 32 r.td)
  let s := s.wr A.HKP_SHDREC1 (BitVec.ofNat 32 (r.td / 2 ^ 32))
  s.wr A.HKP_SHDREC2 (BitVec.ofNat 32
    (b2n r.valid * 2 ^ 31 + b2n r.aborted * 2 ^ 30 + r.cause % 2 * 2 ^ 29 + r.td / 2 ^ 64 % 256))

/-- The flash port takes no more, and drops what has not begun (R448, R416). -/
def State.flsClose (s : State) : State :=
  (s.modSer (fun x => { x with closed := true, queue := [], blocked := [], gather := none })).flsStat

/-- A shut-down is ordered. -/
def State.shutDown (s : State) (cause : Nat) : State :=
  let s := s.record (fcode cTHERMAL 3) cause
  let x : ShutSt := ⟨s.now, s.tim.dev, cause, s.ser.run.isNone, s.now, false⟩
  let s := s.modHk (fun h => { h with shut := some x })
  let rec_ : ShutRec := ⟨true, false, cause, s.tim.dev, 0, 0⟩
  let s := { s with shutRec := rec_ }
  ((s.shutShow.haltAll (fcode cTHERMAL 3)).yokFault).flsClose

/-- The evaluation of the round (R441 to R448), a housekeeping event (R26; log entry 85). -/
def State.hkEvaluate (s : State) : State :=
  if !s.tim.pll ∨ s.now ≠ s.hk.roundAt + 16 * slotTicks ∨ allTs.any (fun i => (s.hk.ts[i]).reading.isNone) then s
  else
    let s := each allTs (fun i s => s.tsRead i) s.notify
    let vmax := s.regionMax
    let s := (each allTs (fun i s => s.tsLost vmax i) s).tsShow
    let s := each allTs (fun i s => s.modTs i (fun x => { x with reading := none, flagged := false })) s
    if !s.bit F.HKP_STAT_VALID then s
    else
      let t := s.getI F.HKP_TMAX_TEMP
      let s := (s.thWarn t).thLevel t
      if s.hk.shut.isSome then s
      else if s.getI F.HKP_THSHD_TEMP ≤ t then s.shutDown 0
      else if s.get F.HKP_TSSTAT_NVALID < 8 then s.shutDown 1
      else s

/-- The grace for the flash ends (R449): the flash is reset, and what ran there is abandoned. -/
def State.graceExpiry (s : State) : State :=
  match s.hk.shut with
  | none => s
  | some x =>
    if s.ser.run.isNone ∨ s.now < x.td + s.get F.HKP_SHDCFG_GRACE * 156250 then s
    else
      let addr := match s.ser.run with
        | some r => r.op.range.1
        | none => 0
      let s := (s.modSer (fun y => { y with run := none })).busReset.flsStat
      let s := s.modHk (fun h => { h with shut := some { x with aborted := true, flashEnd := s.now + 31250 } })
      let s := { s with shutRec := { s.shutRec with aborted := true, abortAt := s.tim.dev, abortAddr := addr } }
      (s.shutShow.raise F.SER_FLSSTAT_ABORT).record (cnvm 6) addr

/-- Every gate command low, nothing pending in a leg. -/
def State.gatesLow (s : State) : State :=
  each allLegs (fun n s => s.modLeg n (fun l => { l with
    gh := false, gl := false, gm := false, pend := none, seq := none, refresh := false, refExt := false, cmd := false })) s

/-- The clocks stop, but for CLK_HK and the boot oscillator (R449). -/
def State.clockStop (s : State) : State :=
  match s.hk.shut with
  | none => s
  | some x =>
    if s.tim.stopped ∨ s.now < x.td + 4096 ∨ s.ser.run.isSome ∨ (x.aborted ∧ s.now < x.flashEnd) then s
    else
      let s := s.gatesLow
      let s := s.modTim (fun t => { t with stopped := true, linksIdle := true })
      let s := s.putB F.YOK_STAT_ACTOUT false
      s.modHk (fun h => { h with shut := some { x with flashDone := true } })

/-! ## Cabinet feeds (R451, R452) -/

/-- Details of class SUPPLY for the conditions (R458). -/
def FeedCond.detail : FeedCond → Nat
  | .uv => 1
  | .ov => 2
  | .rev => 3

/-- A feed, by its number: 0 A, 1 B. -/
def State.feed (s : State) (b : Bool) : FeedSt := if b then s.hk.feedB else s.hk.feedA

def State.modFeed (s : State) (b : Bool) (f : FeedSt → FeedSt) : State :=
  s.modHk (fun h => if b then { h with feedB := f h.feedB } else { h with feedA := f h.feedA })

/-- Over-voltage or reversed: the device never drives the EN of such a feed high (R452). -/
def FeedSt.bad (x : FeedSt) : Bool := x.ov || x.rev
def FeedSt.free (x : FeedSt) : Bool := !x.uv && !x.bad

def State.isLive (s : State) (b : Bool) : Bool :=
  match s.hk.live with
  | .none => false
  | .a => !b
  | .b => b
  | .both => true

/-- HKP_FEEDSTAT as the feeds stand. -/
def State.feedShow (s : State) : State :=
  let c (x : FeedSt) : Nat := b2n x.healthy * 8 + b2n x.rev * 4 + b2n x.ov * 2 + b2n x.uv
  let s := (s.put F.HKP_FEEDSTAT_COND_A (c s.hk.feedA)).put F.HKP_FEEDSTAT_COND_B (c s.hk.feedB)
  let s := (s.putB F.HKP_FEEDSTAT_EN_A s.hk.enA).putB F.HKP_FEEDSTAT_EN_B s.hk.enB
  s.putB F.HKP_FEEDSTAT_LIVE (s.hk.live == .b)

/-- Drive a feed's EN; never high while the feed is over-voltage or reversed. -/
def State.feedEn (s : State) (b : Bool) (on : Bool) : State :=
  let v := on && !(s.feed b).bad
  s.modHk (fun h => if b then { h with enB := v } else { h with enA := v })

/-- A feed becomes the live one; `cause`: the detail of what brought it about. -/
def State.changeover (s : State) (new : Bool) (cause : Nat) : State :=
  let s := s.modHk (fun h => { h with live := if new then .b else .a })
  (s.bump F.HKP_FEEDSTAT_CHGCNT).record (fcode cSUPPLY 4) (b2n new + cause * 256)

/-- The under-voltage sequence: the new feed's EN goes high now, the old one's low OVL µs later. -/
def State.feedSwap (s : State) (new : Bool) (cause : Nat) : State :=
  let s := s.feedEn new true
  let s := s.modHk (fun h => { h with ovlEnd := some (s.now + (s.get F.HKP_FEEDCFG_OVL * 625 + 1) / 2, !new) })
  s.changeover new cause

/-- The live feed shows a condition (R452). -/
def State.feedAct (s : State) (b : Bool) (c : FeedCond) : State :=
  let ok := (s.feed (!b)).healthy
  match s.hk.live, c with
  | .both, .uv => s
  | .both, _ => s.feedEn b false
  | _, .uv =>
    if ok then (s.record (fcode cSUPPLY 1) (b2n b)).feedSwap (!b) 1
    else
      let s := (s.feedEn b true).feedEn (!b) true
      (s.modHk (fun h => { h with ovlEnd := none })).record (fcode cSUPPLY 5) 0
  | _, c =>
    if ok then
      let s := s.record (fcode cSUPPLY c.detail) (b2n b)
      let s := ((s.feedEn (!b) true).feedEn b false).modHk (fun h => { h with ovlEnd := none })
      s.changeover (!b) c.detail
    else (s.feedEn b false).record (fcode cSUPPLY 5) 0

/-- A filtered condition of a feed asserts or releases (R451, R452), a housekeeping event (R26; log entry 85). -/
def State.feedCondition (s : State) (b : Bool) (c : FeedCond) (lvl : Bool) : State :=
  let s := s.modFeed b (fun x =>
    let y := match c with
      | .uv => { x with uv := lvl }
      | .ov => { x with ov := lvl }
      | .rev => { x with rev := lvl }
    { y with healthy := y.healthy && y.free, freeAt := if y.free && !x.free then s.now else x.freeAt })
  let s := if s.hk.feedsOn && lvl && s.isLive b then s.feedAct b c
    else if lvl && (s.feed b).bad then s.feedEn b false
    else s
  s.notify.feedShow

/-- A feed has been free of all conditions for 10 ms (R451). -/
def State.feedHealthy (s : State) (b : Bool) : State :=
  let x := s.feed b
  if x.free && !x.healthy && decide (x.freeAt + 10 * ticksPerMs ≤ s.now) then
    (s.modFeed b (fun x => { x with healthy := true, healthyAt := s.now })).feedShow
  else s

/-- The overlap of an under-voltage changeover ends. -/
def State.feedOverlapEnd (s : State) : State :=
  match s.hk.ovlEnd with
  | some (t, b) =>
    if t ≤ s.now then ((s.feedEn b false).modHk (fun h => { h with ovlEnd := none })).feedShow else s
  | none => s

/-- The device changes back to PREF (R452). -/
def State.feedRevert (s : State) : State :=
  let p := s.bit F.HKP_FEEDCFG_PREF
  let other := s.hk.live == (if p then .a else .b) || s.hk.live == .both
  if s.bit F.HKP_FEEDCFG_REVERT && s.hk.feedsOn && other && (s.feed p).healthy
      && decide ((s.feed p).healthyAt + ticksPerSec ≤ s.now) then (s.feedSwap p 0).feedShow
  else s

/-- The end of the first round enables the live feed (R452). -/
def State.feedFirst (s : State) : State :=
  let p := s.bit F.HKP_FEEDCFG_PREF
  let pick (b : Bool) (s : State) : State := (s.feedEn b true).modHk (fun h => { h with live := if b then .b else .a })
  let s := if (s.feed p).healthy then pick p s
    else if (s.feed (!p)).healthy then pick (!p) s
    else ((s.feedEn false true).feedEn true true).modHk (fun h => { h with live := .both })
  (s.modHk (fun h => { h with feedsOn := true })).feedShow

/-- A round ends and the next begins (R440, R441). -/
def State.hkRoundEnd (s : State) : State :=
  let s := s.bump F.HKP_STAT_ROUNDS
  let s := s.modHk (fun h => { h with roundAt := s.now })
  let s := s.defer (s.now + roundTicks) .hkRound
  let s := (s.putB F.HKP_STAT_VALID true).putB F.IDG_WARMSTAT_TEMP true
  if s.hk.feedsOn then s else s.feedFirst

/-! ## The journal (R453 to R456) -/

/-- Sectors of the journal. -/
def State.jrnSectors (s : State) : Nat := s.load.jrnLen / 4096

/-- Slots of a sector. -/
def jrnSlots : Nat := 128

/-- Is sequence `a` later than `b`, modulo 2^32 (R455)? -/
def seqLater (a b : Nat) : Bool :=
  let d := (a + 2 ^ 32 - b % 2 ^ 32) % 2 ^ 32
  decide (0 < d) && decide (d < 2 ^ 31)

/-- The log without the sector after C (R455). -/
def State.jrnExclude (s : State) (c : Nat) : State :=
  let gone := (c + 1) % max 1 s.jrnSectors
  s.modJrn (fun j => { j with log := j.log.filter (fun e => e.sector != gone) })

/-- The scan after Paddock lock ends: `recs` are the committed records of the flash, `blank` the first slot after the
newest one, in its sector, that reads all 0xFF (R455). -/
def State.jrnScan (s : State) (recs : List JEntry) (blank : Option (Fin 128)) : State :=
  if !s.bit F.EVT_LOGSTAT_SCAN then s
  else
    let s := s.putB F.EVT_LOGSTAT_SCAN false
    let log := recs.mergeSort (fun a b => !seqLater a.seq b.seq)
    match log.getLast? with
    | none =>
      let s := s.modJrn (fun j => { j with log := [], ready := true, sector := 0, slot := 0 })
      ((s.put F.EVT_LOGSTAT_SECTOR 0).put F.EVT_LOGSTAT_SLOT 0).wr A.EVT_LOGSEQ 0
    | some e =>
      let (sec, slot) := match blank with
        | some b => (e.sector, b.val)
        | none => ((e.sector + 1) % max 1 s.jrnSectors, 0)
      let s := s.modJrn (fun j => { j with log := log, ready := true, sector := sec, slot := slot })
      let s := (s.put F.EVT_LOGSTAT_SECTOR e.sector).put F.EVT_LOGSTAT_SLOT slot
      (s.wr A.EVT_LOGSEQ (BitVec.ofNat 32 (e.seq + 1))).jrnExclude e.sector

/-- The engine ends the write of the next record; `good`: the slot's read-back agreed (R454). -/
def State.jrnCommit (s : State) (good : Bool) : State :=
  match s.jrn.queue with
  | [] => s
  | r :: rest =>
    if !s.jrnBusy then s
    else
      let sec := s.jrn.sector
      let slot := s.jrn.slot
      let a := s.load.jrnBase + sec * 4096
      let erase := decide (slot = 0)
      let s := if erase then (s.bump F.SER_FLSCNT_ERASES).flsInvalidate (.erase a .image) else s
      let s := if erase then s.modJrn (fun j => { j with log := j.log.filter (fun e => e.sector != sec) }) else s
      let s := (s.bump F.SER_FLSCNT_PROGS).flsInvalidate (.prog (a + 32 * slot) (List.replicate 32 0) .image)
      let s := s.modJrn (fun j =>
        if slot + 1 < jrnSlots then { j with slot := slot + 1 }
        else { j with slot := 0, sector := (sec + 1) % max 1 s.jrnSectors })
      let s := s.put F.EVT_LOGSTAT_SLOT s.jrn.slot
      if !good then s.bumpSat F.EVT_LOGCNT_RETRY
      else
        let seq := (s.rd A.EVT_LOGSEQ).toNat
        let s := s.bump F.SER_FLSCNT_PROGS
        let s := s.modJrn (fun j => { j with
          queue := rest, log := j.log ++ [{ sector := sec, slot := slot, seq := seq, fault := r }] })
        let s := (s.put F.EVT_LOGSTAT_QLVL rest.length).put F.EVT_LOGSTAT_SECTOR sec
        (s.bump F.EVT_LOGSEQ_SEQ).jrnExclude sec

/-- A write to EVT_LOGWR queues a record with EVT_LOGWRCTX (R453, R460).  R36 says that the device never reports the classes
0x00 and 0x10 to 0xFF, R460 that the write queues bits 15:0: the model queues and shows any code that firmware gives (log
entry 92). -/
def State.logWrite (s : State) (w : Writer) (v : Word) : State :=
  let who := match w with
    | .supA => 1
    | .supB => 2
    | _ => 0
  s.recordAt (v.toNat % 2 ^ 16) (s.rd A.EVT_LOGWRCTX).toNat s.tim.dev who

end Sys2Proof.Machine
end

