-- ==== Sys2Proof/Machine/Reset.lean ====
section
/-!
DEFINITION. Reset: its sources, the hold-off, and the state a reset leaves (R110 to R112, R121; R45, R480).
-/
namespace Sys2Proof.Machine

/-- RESET_N is released and the device runs, were it only on the boot oscillator. -/
def State.outOfReset (s : State) : Bool := s.tim.booting

/-- Bits of IDG_RSTCAUSE. -/
def RstSrc.mask : RstSrc → Nat
  | .por => 1
  | .pin => 2
  | .pgood => 4
  | .fw => 8
  | .svc => 16

/-- The state a reset leaves.  The model's clock, the commands that wait and the free values drawn go on; fuses and the
records in flash stay, and the retained shut-down record except at power-on (R450).  Memories keep their words, except
at power-on, until the memory clear of the load (R115). -/
def State.resetDevice (s : State) (src : RstSrc) : State :=
  let por := src == .por
  let keep := if por then ShutRec.reset else s.shutRec
  let feed : FeedSt := { FeedSt.reset with freeAt := s.now }
  let r : State := { State.reset with
    now := s.now, mem := if por then [] else s.mem, upset := if por then [] else s.upset, fuse := s.fuse, shutRec := keep,
    jrn := { JrnSt.reset with log := s.jrn.log }, hk := { HkSt.reset with feedA := feed, feedB := feed },
    freeCnt := s.freeCnt, pending := s.pending }
  (r.wr A.IDG_RSTCAUSE (BitVec.ofNat 32 src.mask)).fuseShow.shutShow.modTim (fun t => { t with under := por })

/-- A reset is requested while the device runs: every team takes its safe state, and the hold-off starts (R111).  The
first request of a hold-off names its cause. -/
def State.resetRequest (s : State) (src : RstSrc) : State :=
  if !s.outOfReset ∨ s.load.holdoff.isSome then s
  else
    let s := each allTeams (fun t s => s.haltTeam t caRESTART 0) s
    s.modLoad (fun l => { l with holdoff := some (s.now, src) })

/-- The hold-off has run for 4,096 ticks: the device resets, every gate command low. -/
def State.holdoffEnd (s : State) : State :=
  match s.load.holdoff with
  | some (t, src) => if t + 4096 ≤ s.now then s.resetDevice src else s
  | none => s

/-- A write to IDG_RESTART: with the key and GO it requests a restart (R126). -/
def State.restartWrite (s : State) (w : Writer) (v : Word) : State :=
  if bitsGet v 16 16 = 0xA5C3 ∧ bitsGet v 0 1 = 1 then s.resetRequest (if w = .svc then .svc else .fw) else s

/-- Store the load phase (R115). -/
def State.phase_ (s : State) (n : Nat) : State := s.put F.IDG_LOADSTAT_PHASE n
def State.inPhase (s : State) (n : Nat) : Bool := s.get F.IDG_LOADSTAT_PHASE == n

/-- RESET_N is released with PGOOD high, out of its band: clock bring-up starts (R45, R113); `test`: TEST_EN is high, so
the device loads no image (R480). -/
def State.resetRelease (s : State) (test : Bool) : State :=
  if s.outOfReset then s
  else
    let s := s.bootStart.modLoad (fun l => { l with testMode := test })
    (s.phase_ 1).putB F.IDG_INBAND_PGOOD false

/-- The DLLs lock: CLK_CORE starts, calibration may run, and image load begins (R45, R64, R115). -/
def State.dllLock (s : State) : State :=
  if !s.tim.pll ∨ s.tim.dllAt ≠ 0 then s
  else
    let s := s.putB F.CLK_PLLSTAT_DLL_ALL true
    let s := s.modTim (fun t => { t with dllAt := s.now, calAt := s.now })
    if s.load.testMode then s else (s.phase_ 2).busReset

end Sys2Proof.Machine
end

