-- ==== Sys2Proof/Machine/Access.lean ====
section
/-!
DEFINITION. Writes to the address map (R30, R31, R462, R464, R469 to R474): the memory windows, the Paddock checks, the
locked fields, and the registers whose write acts.
-/
namespace Sys2Proof.Machine

/-! ## What a word stores (R8), where it depends on other registers -/

/-- The nearer limit of a signed four-bit field. -/
def nearLog (lo hi : Int) (v : Nat) : Nat := ofSigned 4 (clampI lo hi (toSigned 4 v))

/-- A pin word: PULL 0b11 is stored as 0b00, and SLEW is held on output balls only (R481). -/
def pinNorm (i : Nat) (w : Word) : Word :=
  let pull := bitsGet w 4 2
  BitVec.ofNat 32 ((if pull = 3 then 0 else pull * 16) + (if pinResetWord i % 4 = 2 then bitsGet w 0 2 else 0))

/-- Normalise a word with regard to the registers as they stand. -/
def State.normNow (s : State) (base i : Nat) (w : Word) : Word :=
  let w := normWord base w
  if base = A.IDG_PINCFG 0 then pinNorm i w
  else if base = A.FBK_IDXTOL 0 then
    nf (F.FBK_IDXTOL_TOL 0) (fun v =>
      let n := (s.rd (A.FBK_IDXN i)).toNat
      if n ≤ 4 * v ∧ 0 < n then (n + 3) / 4 - 1 else v) w
  else if base = A.TEAM_EPOCHOFS 0 then BitVec.ofNat 32 (min w.toNat (s.get (F.TEAM_EPOCHINT_INT i) * 256 - 1))
  else if base = A.NET_TXOFS ∨ base = A.NET_TXOFSHI then BitVec.ofNat 32 (min w.toNat (s.tc - 1))
  else if base = A.NET_RXDL then (if s.tc ≤ w.toNat then BitVec.ofNat 32 (s.tc - 256) else w)
  else if base = A.NET_PCFG 0 then nf (F.NET_PCFG_ROLE 0) (subst 3 0) w
  else if base = A.NET_PTPCFG then
    nf F.NET_PTPCFG_LOGANN (nearLog (-3) 3) (nf F.NET_PTPCFG_LOGPD (nearLog (-4) 3) (nf F.NET_PTPCFG_LOGSYNC (nearLog (-7) 0) w))
  else if base = A.NET_ASYM 0 then wOfInt (clampI (-10000000) 10000000 (wInt w))
  else if base = A.NET_SEGMAP1 then bitsSet w 31 1 0
  else if base = A.TIM_SLEWCFG then
    (if s.get F.TIM_CTL_SRC = 1 ∨ s.get F.TIM_CTL_SRC = 2 then nf F.TIM_SLEWCFG_MAXPPM (atMost 100) w else w)
  else if base = A.SER_FLSADDR then bitsSet w 0 2 0
  else if base = A.SER_PMSCFG 0 then (if i % 2 = 1 then bitsSet w (F.SER_PMSCFG_PAIR 0).lo 1 0 else w)
  else w

/-! ## The Paddock check of a word that is not shadowed (R31, R155, R158, R219) -/

/-- The interlock timeout in units of 0.1 µs; 0 encodes 256 units. -/
def ilkUnits (v : Nat) : Nat := if v = 0 then 256 else v

/-- The channel's record restricts its over-current thresholds (R219, R317). -/
def State.ocRestricted (s : State) (c : Nat) : Bool :=
  s.pdkOn && (decide (s.ocHiMax c < 0x7FFFFFFF) || decide (-0x80000000 < s.ocLoMin c))

/-- The word within its Paddock limits, and the detail recorded, 0 for none. -/
def State.boundWord (s : State) (base i : Nat) (w : Word) : Word × Nat :=
  if !s.pdkOn then (w, 0)
  else if base = A.LEG_ILKCFG 0 then
    let f := F.LEG_ILKCFG_TMO i
    if ilkUnits (s.ilkTmo i) < ilkUnits (bitsGet w f.lo f.width) then (bitsSet w f.lo f.width (s.ilkTmo i), 4) else (w, 0)
  else if base = A.LEG_EDGECFG 0 then
    let g := F.LEG_EDGECFG_GSR_EN i
    let k := F.LEG_EDGECFG_ILK_EN i
    if s.ilkReq i ∧ (bitsGet w g.lo 1 = 0 ∨ bitsGet w k.lo 1 = 0) then (bitsSet (bitsSet w g.lo 1 1) k.lo 1 1, 5) else (w, 0)
  else if base = A.SDM_OCHI 0 then (if s.ocHiMax i < wInt w then (wOfInt (s.ocHiMax i), 8) else (w, 0))
  else if base = A.SDM_OCLO 0 then (if wInt w < s.ocLoMin i then (wOfInt (s.ocLoMin i), 8) else (w, 0))
  else if base = A.SDM_CFG 0 then
    (let x := bitsSet (bitsSet w (F.SDM_CFG_OCEN i).lo 1 1) (F.SDM_CFG_LOSSTRIP i).lo 1 1
     if s.ocRestricted i then (x, if x = w then 0 else 8) else (w, 0))
  else (w, 0)

/-! ## The write of a word with no behaviour of its own -/

/-- The RWL bits of word i of a register: of IDG_PINCFG, SLEW only on output balls (R481). -/
def RegDef.lockBits (r : RegDef) (i : Nat) : Word :=
  if r.base = A.IDG_PINCFG 0 ∧ pinResetWord i % 4 ≠ 2 then 0x30 else BitVec.ofNat 32 r.rwl

/-- Bits of the register that a writer may change: RW; RWL before Paddock lock by the image alone, and after a failed load
by any writer (R9, R472, R473). -/
def State.openBits (s : State) (w : Writer) (r : RegDef) (i : Nat) : Word :=
  BitVec.ofNat 32 r.rw ||| (if s.load.locked || (w != .image && !s.load.failed) then 0 else r.lockBits i)

/-- The registers with a counter or a recorded maximum that a write sets (R470). -/
def upWords : List Nat :=
  [A.LEG_ILKMAX 0, A.CE_LOAD, A.CE_TCYC 0, A.CE_TRESP 0, A.YOK_LOAD, A.SUP_CKSTAT 0, A.NET_SRCUSE, A.NET_WINUSE,
   A.NET_FWDCNT 0, A.EVT_TAGHWM, A.EVT_BPCNT]

/-- Fields of codes RW, RWL and W1C take a write: the Paddock check, the record of a locked field, W1C bits cleared where
1 is written and the device has not set them in this tick, the others stored; a counter counts on from the written
value, and a recorded maximum becomes the larger (R9, R31, R470, R473, R474). -/
def State.plainWrite (s : State) (w : Writer) (r : RegDef) (i a : Nat) (v : Word) : State :=
  let (x, det) := s.boundWord r.base i (s.normNow r.base i v)
  let s := if det = 0 then s else s.paddock det a v w
  let s := if s.load.locked && (v ^^^ s.rd a) &&& r.lockBits i != 0 then s.paddock 9 a v w else s
  let m := s.openBits w r i
  let c := v &&& BitVec.ofNat 32 r.w1c &&& ~~~s.keptBits a
  let s := s.wr a ((s.rd a &&& ~~~m &&& ~~~c) ||| (x &&& m))
  if r.base ∈ upWords then s.redoUps a else s

/-! ## Registers whose write acts -/

/-- GO, RESUME and their like: bit `lo` of the written word. -/
def wbit (v : Word) (f : Fld) : Bool := bitsGet v f.lo 1 == 1

/-- A fuse operation from SER_FUSECTL (R429). -/
def fuseOpOf (v : Word) : Option FuseOp :=
  let op := bitsGet v F.SER_FUSECTL_OP.lo F.SER_FUSECTL_OP.width
  let slot : Fin 4 := ⟨bitsGet v F.SER_FUSECTL_SLOT.lo 2 % 4, Nat.mod_lt _ (by decide)⟩
  if op = 1 then some (.program slot)
  else if op = 2 then some (.revoke slot)
  else if op = 3 then some (.floor (bitsGet v F.SER_FUSECTL_FLOOR.lo 6))
  else none

/-- Raise IDG_INBAND's gathered bits and over-current conditions and the like, after a word changed under them. -/
def State.afterWrite (s : State) (base i : Nat) : State :=
  if base = A.SDM_OCHI 0 ∨ base = A.SDM_OCLO 0 then (match finOf 144 i with
    | some c => if s.sdmMode c = 0 then s else s.defer (s.now + 1) (.ocEval c)
    | none => s)
  else if base = A.PRT_TINCFG 0 then (match finOf 8 i with
    | some k => s.tinPolarity k
    | none => s)
  else if base = A.TIM_CTL then
    (if s.get F.TIM_CTL_SRC = 1 ∨ s.get F.TIM_CTL_SRC = 2 then
      s.put F.TIM_SLEWCFG_MAXPPM (min 100 (s.get F.TIM_SLEWCFG_MAXPPM))
     else s)
  else if base = A.SER_PMSCFG 0 then (match finOf 4 i with
    | some q => s.pmsProgress q
    | none => s)
  else if base = A.FBK_IDXN 0 then s.wr (A.FBK_IDXTOL i) (s.normNow (A.FBK_IDXTOL 0) i (s.rd (A.FBK_IDXTOL i)))
  else if base = A.CE_GENCFG 0 then (match finOf 4 i with
    | some g => s.genOff g
    | none => s)
  else s

/-- The owner rule of R62 for TIM_STEP0 to TIM_STEP2. -/
def State.stepWordWrite (s : State) (w : Writer) (a : Nat) (v : Word) : State :=
  if s.timOwner w then s.wr a v else s.timIgnored

/-- TIM_SLEWCFG under a network or yoke servo takes the image's write only (R381). -/
def State.slewCfgWrite (s : State) (w : Writer) (r : RegDef) (a : Nat) (v : Word) : State :=
  if (s.get F.TIM_CTL_SRC = 1 ∨ s.get F.TIM_CTL_SRC = 2) ∧ w ≠ .image then s.timIgnored else s.plainWrite w r 0 a v

/-- MGRP_TQCMD: discarded where the group program writes it (R279). -/
def State.tqCmdWrite (s : State) (w : Writer) (g : Fin 8) (v : Word) : State :=
  if w = .image then s.wr (A.MGRP_TQCMD g) v
  else if s.bit (F.CE_GRPCTL_TQOUT g) then s.raise (F.CE_GRPCTL_WR_IGN g)
  else s.tqWrite g v

/-- TEAM_CTL: an EN that the image writes is judged in the tick after Paddock lock (R187). -/
def State.ctlWrite (s : State) (w : Writer) (t : Fin 24) (v : Word) : State :=
  let en := wbit v (F.TEAM_CTL_EN t)
  if w = .image then s.putB (F.TEAM_CTL_EN t) en else s.teamCtlWrite t en (wbit v (F.TEAM_CTL_RESUME t))

/-- SDM_OSR: OSR under R224, and the image's own fields. -/
def State.osrWordWrite (s : State) (w : Writer) (r : RegDef) (c : Fin 144) (v : Word) : State :=
  if w = .image then s.plainWrite w r c (A.SDM_OSR c) v
  else
    let old := s.get (F.SDM_OSR_OSR c)
    let s := (s.plainWrite w r c (A.SDM_OSR c) v).put (F.SDM_OSR_OSR c) old
    s.osrWrite c (bitsGet v (F.SDM_OSR_OSR c).lo (F.SDM_OSR_OSR c).width)

/-- A write of GO to FBK_SSIREQ; the level of FBp_DAT does not come with a register write (log entry 3). -/
def State.ssiReqWrite (s : State) (w : Writer) (r : RegDef) (p : Fin 8) (v : Word) : State :=
  let s := s.plainWrite w r p (A.FBK_SSIREQ p) v
  if w ≠ .image ∧ wbit v (F.FBK_SSIREQ_GO p) then
    let (f, s) := s.free
    s.ssiGo p (f.toNat % 2 == 1)
  else s

/-- NET_MBXTXCTL (R368). -/
def State.txCtlWrite (s : State) (v : Word) : State :=
  if wbit v F.NET_MBXTXCTL_GO then
    s.mailSend (bitsGet v F.NET_MBXTXCTL_PORT.lo 2) ⟨bitsGet v F.NET_MBXTXCTL_SLOT.lo 2 % 4, Nat.mod_lt _ (by decide)⟩
      (bitsGet v F.NET_MBXTXCTL_LEN.lo 11)
  else s

/-- CE_GENCTL (R275) and CE_CAPCTL (R276, R277): the first action of a word with both is GO, or ARM. -/
def State.genCtlWrite (s : State) (g : Fin 4) (v : Word) : State :=
  let s := if wbit v (F.CE_GENCTL_GO g) then s.genGo g else s
  if wbit v (F.CE_GENCTL_ABORT g) then s.genAbort g else s

def State.capCtlWrite (s : State) (c : Fin 4) (v : Word) : State :=
  let s := if wbit v (F.CE_CAPCTL_ARM c) then s.capArm c (some s.now) else s
  if wbit v (F.CE_CAPCTL_STOP c) then s.capStop c else s

/-- The registers whose write does more than store; none for the others. -/
def State.actWrite (s : State) (w : Writer) (r : RegDef) (idx : List Nat) (a : Nat) (v : Word) : Option State :=
  let i := idx.headD 0
  let b := r.base
  let on {n : Nat} (x : Option (Fin n)) (f : Fin n → State) : Option State := some (match x with
    | some k => f k
    | none => s)
  if b = A.IDG_RESTART then some (s.restartWrite w v)
  else if b = A.TIM_RATE then some (s.rateWrite w v)
  else if b = A.TIM_SLEW then some (s.slewWrite w v)
  else if b = A.TIM_SLEWCFG then some (s.slewCfgWrite w r a v)
  else if b = A.TIM_STEP0 ∨ b = A.TIM_STEP1 ∨ b = A.TIM_STEP2 then some (s.stepWordWrite w a v)
  else if b = A.TIM_STEPCTL then some (if wbit v F.TIM_STEPCTL_GO then s.stepDevice s.stepValue else s)
  else if b = A.LEG_OVR 0 then on (finOf 72 i) (fun n => s.ovrWrite w n v)
  else if b = A.LEG_TRIPCLR 0 then on (finOf 72 i) (fun n => if wbit v (F.LEG_TRIPCLR_CLR n) then s.tripClear n else s)
  else if b = A.TEAM_CTL 0 then on (finOf 24 i) (fun t => s.ctlWrite w t v)
  else if b = A.TEAM_SP 0 then on (finOf 24 i) (fun t => if w = .image then s.wr a v else s.spWrite t .firmware v)
  else if b = A.MGRP_TQCMD 0 then on (finOf 8 i) (fun g => s.tqCmdWrite w g v)
  else if b = A.SDM_OSR 0 then on (finOf 144 i) (fun c => s.osrWordWrite w r c v)
  else if b = A.SDM_PKHI 0 ∨ b = A.SDM_PKLO 0 then on (finOf 144 i) (fun c =>
    ((s.ocSync c s.now).wr a v).ocPeakNow c)
  else if b = A.SDM_STAT 0 then on (finOf 144 i) (fun c => (s.ocSync c s.now).plainWrite w r i a v)
  else if b = A.CE_LOAD then some (s.loadSync.plainWrite w r i a v)
  else if b = A.CE_BGCFG 0 then on (finOf 4 i) (fun k =>
    let s := s.plainWrite w r i a v
    if w ≠ .image ∧ wbit v (F.CE_BGCFG_GO k) then s.bgRelease k else s)
  else if b = A.CE_GENCTL 0 then on (finOf 4 i) (fun g => s.genCtlWrite g v)
  else if b = A.CE_CAPCTL 0 then on (finOf 4 i) (fun c => s.capCtlWrite c v)
  else if b = A.FBK_POSSET 0 then on (finOf 8 i) (fun p => s.positionSet p v)
  else if b = A.FBK_SSIREQ 0 then on (finOf 8 i) (fun p => s.ssiReqWrite w r p v)
  else if b = A.FBK_CMPCFG 0 0 then on (finOf 8 i) (fun p => match finOf 4 (idx.getD 1 0) with
    | some k => s.cmpCfgWrite p k v
    | none => s)
  else if b = A.FBK_CMPTGT 0 0 then on (finOf 8 i) (fun p => match finOf 4 (idx.getD 1 0) with
    | some k => s.cmpTgtWrite p k v
    | none => s)
  else if b = A.YOK_CTL then some (if wbit v F.YOK_CTL_RELEASE then s.actRelease else s)
  else if b = A.YOK_WDKICK then some (if wbit v F.YOK_WDKICK_KICK then s.wdKick else s)
  else if b = A.NET_MBXRXPOP then some (if wbit v F.NET_MBXRXPOP_POP then s.mailPop else s)
  else if b = A.NET_MBXTXCTL then some (s.txCtlWrite v)
  else if b = A.SER_FLSCTL then some (let s := s.plainWrite w r i a v
    if wbit v F.SER_FLSCTL_FLUSH then s.flsFlush else s)
  else if b = A.SER_FLSWDATA then some (s.flsWdata w v)
  else if b = A.SER_FLSERASE then some (s.eraseStore w (v.toNat % 2 ^ 24))
  else if b = A.SER_FUSECTL then some (if wbit v F.SER_FUSECTL_GO then (match fuseOpOf v with
    | some op => s.fuseGo w op
    | none => s) else s)
  else if b = A.SER_FUSEKEY 0 then some (if w = .svc then s.wr a v else s)
  else if b = A.SER_PMSQ 0 then on (finOf 4 i) (fun q => s.pmsQueue q v)
  else if b = A.SER_PMSTX 0 then on (finOf 4 i) (fun q => s.pmsTx q v)
  else if b = A.EVT_LOGWR then some (s.logWrite w v)
  else none

/-- A write to a register (R469 to R474). -/
def State.regWrite (s : State) (w : Writer) (r : RegDef) (idx : List Nat) (a : Nat) (v : Word) : State :=
  let i := idx.headD 0
  s.lockGuard w a v fun s =>
    match s.actWrite w r idx a v with
    | some s' => s'
    | none =>
      let s := if r.sh = 0 then s else s.shWrite w r i a v
      let s := if r.rw ||| r.rwl ||| r.w1c = 0 then s else s.plainWrite w r i a v
      s.afterWrite r.base i

/-! ## The whole map -/

/-- The shift of one coefficient as stored: bits 4:0 of its byte, −16 to −9 as −8 (R231). -/
def shiftNorm (w : Word) : Word :=
  (List.range 4).foldl (fun acc j =>
    let v := bitsGet w (8 * j) 5
    bitsSet acc (8 * j) 5 (if 16 ≤ v ∧ v < 24 then 24 else v)) 0

/-- A write to a memory window (R231, R233, R368): the capture window is read only; program and descriptors change by
image load only, and after a failed load as RWL fields do (R472, R473). -/
def State.winWrite (s : State) (w : Writer) (a k : Nat) (v : Word) : State :=
  if 0x0AC000 ≤ a ∧ a < 0x0AD000 then s
  else if (0x0B0000 ≤ a ∧ a < 0x0C0000) ∨ (0x0A4000 ≤ a ∧ a < 0x0A8800) then
    (if !s.load.locked then (if w = .image ∨ s.load.failed then s.memSet k v else s)
     else if s.memGet k = v then s
     else s.paddock 9 a v w)
  else if 0x0AA000 ≤ a ∧ a < 0x0AC000 then s.memSet k (shiftNorm v)
  else s.memSet k v

/-- A write of an aligned word to the address map by any writer. -/
def State.writeReg (s : State) (w : Writer) (a : Nat) (v : Word) : State :=
  if unmappedFrom ≤ a then s.accErr w true 1 a
  else if 0x021000 ≤ a ∧ a < 0x022000 ∧ s.load.locked then
    (if (regAt a).isSome then s else s.accErr w true 2 a).paddock 9 a v w
  else match s.winKey a with
    | some k => s.lockGuard w a v (fun s => s.winWrite w a k v)
    | none => match regAt a with
      | some (r, idx) =>
        if r.base = A.IDG_PINCFG 0 ∧ 651 ≤ idx.headD 0 then s.accErr w true 2 a else s.regWrite w r idx a v
      | none => s.accErr w true 2 a

end Sys2Proof.Machine
end

