-- ==== Sys2Proof/Machine/Image.lean ====
section
/-!
DEFINITION. The configuration image as bytes: its header, section table, register lists, NETID and Paddock sections, its
identities and its signature block, and the checks each must pass (chapter 03).
-/
namespace Sys2Proof.Machine

/-- Details of class IMAGE (R104). -/
def imBLK : Nat := 1
def imHEADER : Nat := 2
def imDEVICE : Nat := 3
def imSLOT : Nat := 4
def imTBL : Nat := 5
def imDIGEST : Nat := 6
def imKEY : Nat := 7
def imSIGNATURE : Nat := 8
def imSECVER : Nat := 9
def imSECTION : Nat := 10
def imRLRANGE : Nat := 11
def imPADDOCK : Nat := 12
def imNETID : Nat := 13
def imCAPACITY : Nat := 14
def imFALLBACK : Nat := 15
def imERASED : Nat := 16

/-- All octets from `i`, `n` of them, are 0. -/
def zeros (l : List Byte) (i n : Nat) : Bool := (slice l i n).all (fun b => b == 0)

/-- The CRC-32C of the first `n` octets stands little-endian behind them. -/
def crcStands (l : List Byte) (n : Nat) : Bool := decide (n + 4 ≤ l.length) && crc32c (l.take n) == le l n 4

/-! ## The slot selector (R71, R72) -/

/-- A selector copy's CRC checks. -/
def selCrc (l : List Byte) : Bool := crcStands l 12

/-- A selector copy is valid. -/
def selValid (l : List Byte) : Bool :=
  selCrc l && le l 0 4 == 0x4C535842 && decide (byteAt l 8 < 2) && decide (byteAt l 9 < 2) && zeros l 10 2

/-- Slot and FALLBACK that two copies select; one that stayed unreadable is empty. -/
def selChoose (a b : List Byte) : Nat × Bool :=
  let of_ (l : List Byte) : Nat × Bool := (byteAt l 8, byteAt l 9 == 1)
  if selValid a ∧ selValid b then (if le a 4 4 < le b 4 4 then of_ b else of_ a)
  else if selValid a then of_ a
  else if selValid b then of_ b
  else (0, false)

/-! ## The header (R77, R78) -/

def hSectCnt (h : List Byte) : Nat := le h 6 2
def hImgLen (h : List Byte) : Nat := le h 0x10 4
def hFlashLen (h : List Byte) : Nat := le h 0x14 4
def hYoked (h : List Byte) : Bool := byteAt h 0x1B % 2 == 1
def hXip (h : List Byte) : Bool := byteAt h 0x1B / 2 % 2 == 1
def hJrnBase (h : List Byte) : Nat := le h 0x58 4
def hJrnLen (h : List Byte) : Nat := le h 0x5C 4
def hOvlBase (h : List Byte) : Nat := le h 0x60 4
def hOvlLen (h : List Byte) : Nat := le h 0x64 4

/-- Body blocks, and octets of the block CRC table with its padding (R74). -/
def hBlocks (h : List Byte) : Nat := hImgLen h / 4096
def hTabLen (h : List Byte) : Nat := (4 * hBlocks h + 4095) / 4096 * 4096

/-- [a, a + n) lies in the flash left to the journal and the overlays (R70, R78). -/
def jrnRoom (a n : Nat) : Bool := decide (0x2000 ≤ a) && decide (a + n ≤ 0x100000) && a % 4096 == 0

/-- Magic, format, lengths, ranges and reserved octets of the header. -/
def hdrForm (h : List Byte) : Bool :=
  le h 0 4 == 0x4D495842 && le h 4 2 == 1 && decide (9 ≤ hSectCnt h) && decide (hSectCnt h ≤ 64)
    && hImgLen h % 4096 == 0 && decide (0 < hImgLen h) && hFlashLen h == hImgLen h + hTabLen h + 4096
    && decide (byteAt h 0x1A < 64) && decide (byteAt h 0x1B < 4)
    && jrnRoom (hJrnBase h) (hJrnLen h) && hJrnLen h % 4096 == 0 && decide (0x10000 ≤ hJrnLen h)
    && (if hOvlLen h = 0 then hOvlBase h == 0
        else jrnRoom (hOvlBase h) (hOvlLen h) && hOvlLen h % 20480 == 0
          && !overlap (hOvlBase h) (hOvlLen h) (hJrnBase h) (hJrnLen h))
    && decide (byteAt h 0x6A < 32) && decide (2 ≤ byteAt h 0x6B) && decide (byteAt h 0x6B ≤ 16)
    && (byteAt h 0x6C == 3 || byteAt h 0x6C == 4) && zeros h 0x6D 3 && zeros h 0x78 132

/-- The slot reads as erased (R100). -/
def hdrErased (h : List Byte) : Bool := le h 0 4 == 0xFFFFFFFF

/-- The detail with which a header whose CRC checks is refused; 0 for none (R77, R78, R99, R100). -/
def hdrRefuse (h : List Byte) (slot sil floor : Nat) : Nat :=
  if hdrErased h then imERASED
  else if !hdrForm h then imHEADER
  else if le h 8 4 ≠ 0x7224 ∨ sil < le h 0x0C 2 ∨ le h 0x0E 2 < sil then imDEVICE
  else if byteAt h 0x18 ≠ slot ∨ slotSize < hFlashLen h then imSLOT
  else if byteAt h 0x1A < floor then imSECVER
  else 0

/-- The fast read profile of a header (R77, R79, R408): 0b00 in a field of RD_LANES keeps the boot profile's lane count. -/
def hdrProfile (h : List Byte) : RdProfile :=
  let lanes (i keep : Nat) : Nat := let v := byteAt h 0x69 / 4 ^ i % 4; if v = 0 then keep else v
  { cmd := byteAt h 0x68, cl := lanes 0 RdProfile.boot.cl, al := lanes 1 RdProfile.boot.al, dl := lanes 2 RdProfile.boot.dl,
    abytes := byteAt h 0x6C, dummy := byteAt h 0x6A, div := byteAt h 0x6B, fast := true }

/-! ## The section table (R80 to R82, R85, R86) -/

def tCLOCK : Nat := 1
def tPINS : Nat := 2
def tLEGTEAM : Nat := 3
def tPADDOCK : Nat := 4
def tNETID : Nat := 5
def tREGINIT : Nat := 6
def tCEPROG : Nat := 7
def tCECOEF : Nat := 8
def tCETABLE : Nat := 9
def tFWA : Nat := 10
def tFWB : Nat := 11
def tXIP : Nat := 12

/-- The entries of the section table, from the body's first block. -/
def sectTable (b : List Byte) (n : Nat) : List Sect :=
  (List.range n).map (fun i =>
    let o := 0x100 + 16 * i
    { type := le b o 2, fmt := byteAt b (o + 2), flags := byteAt b (o + 3), offset := le b (o + 4) 4,
      length := le b (o + 8) 4, dest := le b (o + 12) 4 })

/-- Sections buffered whole (R82), and sections copied. -/
def Sect.buffered (e : Sect) : Bool := decide (1 ≤ e.type) && decide (e.type ≤ 6)
def Sect.copied (e : Sect) : Bool := decide (7 ≤ e.type) && decide (e.type ≤ 11)

/-- First address and size of the block a copied section goes to (R85). -/
def destRange (type : Nat) : Nat × Nat :=
  if type = tCEPROG then (0xB0000, 0x10000)
  else if type = tCECOEF then (0xC0000, 0x10000)
  else if type = tCETABLE then (0xD0000, 0x10000)
  else (0, 0x40000)

/-- The counts of R81. -/
def sectCount (l : List Sect) (type : Nat) : Nat := (l.filter (fun e => e.type == type)).length
def countsOk (l : List Sect) : Bool :=
  [tCLOCK, tPINS, tLEGTEAM, tPADDOCK, tNETID, tCEPROG, tCECOEF, tFWA, tFWB].all (fun t => sectCount l t == 1)
    && decide (sectCount l tREGINIT ≤ 8) && decide (sectCount l tCETABLE ≤ 16) && decide (sectCount l tXIP ≤ 1)

/-- One entry by itself. -/
def Sect.ok (e : Sect) (n imgLen : Nat) : Bool :=
  decide (1 ≤ e.type) && decide (e.type ≤ 12) && e.fmt == 1
    && (e.flags == 0 || (e.flags == 1 && e.type == tCETABLE))
    && e.offset % (if e.type = tXIP then 4096 else 16) == 0 && e.length % 4 == 0 && decide (0 < e.length)
    && decide (0x100 + 16 * n ≤ e.offset) && decide (e.offset + e.length ≤ imgLen)
    && (if e.copied then
          decide ((destRange e.type).1 ≤ e.dest) && decide (e.dest + e.length ≤ (destRange e.type).1 + (destRange e.type).2)
        else e.dest == 0)

/-- No two sections overlap. -/
def sectsApart : List Sect → Bool
  | [] => true
  | e :: r => r.all (fun f => !overlap e.offset e.length f.offset f.length) && sectsApart r

/-- The bank b of each CE_TABLE section, in table order (R232). -/
def tableBanks : List Sect → Option Nat → Nat → List (Sect × Nat)
  | [], _, _ => []
  | e :: r, last, b =>
    if e.type = tCETABLE then
      let b := match last with
        | some d => if e.dest ≤ d then b + 1 else b
        | none => 0
      (e, b) :: tableBanks r (some e.dest) b
    else tableBanks r last b

/-- The section table passes. -/
def sectsOk (l : List Sect) (h : List Byte) : Bool :=
  l.all (fun e => e.ok l.length (hImgLen h)) && countsOk l && sectsApart l
    && decide (((l.filter Sect.buffered).map (fun e => e.length)).sum ≤ 65536)
    && (tableBanks l none 0).all (fun p => decide (p.2 < 4)) && (hXip h == decide (0 < sectCount l tXIP))

/-- The content of a section, from the body. -/
def sectBytes (body : List Byte) (e : Sect) : List Byte := slice body e.offset e.length

/-- The contents of the sections of some types, in section-table order. -/
def sectsBytes (body : List Byte) (l : List Sect) (types : List Nat) : List Byte :=
  (l.filter (fun e => types.contains e.type)).flatMap (fun e => sectBytes body e)

/-! ## Identities (R96) -/

def idOf (b : List Byte) : List Byte := (sha256 b).take 16
def cfgTypes : List Nat := [tCLOCK, tPINS, tLEGTEAM, tPADDOCK, tREGINIT, tCEPROG, tCECOEF, tCETABLE]
def stateTypes : List Nat := [tPADDOCK, tLEGTEAM, tCEPROG]

/-- The three identities that the header holds are those of the sections. -/
def idsOk (h body : List Byte) (l : List Sect) : Bool :=
  idOf (sectsBytes body l cfgTypes) == slice h 0x28 16 && idOf (sectsBytes body l stateTypes) == slice h 0x38 16
    && idOf (sectsBytes body l [tPADDOCK]) == slice h 0x48 16

/-! ## Register lists (R83, R84) -/

/-- The writes of a register list, in order; none when it does not end with its last group. -/
def rlWrites : Nat → List Word → Option (List (Nat × Word))
  | _, [] => some []
  | 0, _ => none
  | fuel + 1, c :: r =>
    let a := c.toNat % 2 ^ 24
    let n := c.toNat / 2 ^ 24 + 1
    if r.length < n then none
    else (rlWrites fuel (r.drop n)).map (fun t => ((r.take n).mapIdx (fun i v => (a + 4 * i, v))) ++ t)

/-- The range of a register-list type. -/
def rlRange (type a : Nat) : Bool :=
  if type = tCLOCK then decide (0x10000 ≤ a) && decide (a < 0x20000)
  else if type = tPINS then decide (0x400 ≤ a) && decide (a < 0x1000)
  else if type = tLEGTEAM then decide (0x40000 ≤ a) && decide (a < 0x98000)
  else decide (0x40000 ≤ a) && decide (a < 0x130000) && !(decide (0xB0000 ≤ a) && decide (a < 0xE0000))

/-- An address that a register list may write: not reserved, and with a field coded RW, RWL or SH. -/
def rlTarget (a : Nat) : Bool :=
  if (0x0A4000 ≤ a ∧ a < 0x0A8800) then descListed ((a - 0x0A4000) % 0x200)
  else if (0x0AA000 ≤ a ∧ a < 0x0AC000) ∨ (0x0E8000 ≤ a ∧ a < 0x0EF800) then true
  else match regAt a with
    | some (r, idx) => r.rw ||| r.rwl ||| r.sh != 0 && !(r.base == A.IDG_PINCFG 0 && decide (651 ≤ idx.headD 0))
    | none => false

/-- The writes of one section, when all of them are allowed. -/
def rlSection (type : Nat) (b : List Byte) : Option (List (Nat × Word)) :=
  let w := leWords b
  match rlWrites w.length w with
  | some l => if l.all (fun p => p.1 % 4 == 0 && rlRange type p.1 && rlTarget p.1) then some l else none
  | none => none

/-- The writes of every section of one type, in section-table order; none when one is refused. -/
def rlAll (body : List Byte) (l : List Sect) (type : Nat) : Option (List (Nat × Word)) :=
  (l.filter (fun e => e.type == type)).foldl (fun acc e =>
    match acc, rlSection type (sectBytes body e) with
    | some a, some w => some (a ++ w)
    | _, _ => none) (some [])

/-- The value a register holds after a list of writes, as written. -/
def rlValue (l : List (Nat × Word)) (a : Nat) : Word :=
  match l.reverse.find? (fun p => p.1 == a) with
  | some p => p.2
  | none => regReset a

/-- A field of it. -/
def rlField (l : List (Nat × Word)) (f : Fld) : Nat := bitsGet (rlValue l f.addr) f.lo f.width

/-! ## The Paddock section (R90 to R95) -/

/-- The legs that the register lists name in the slots of a team in use. -/
def rlLegs (l : List (Nat × Word)) (t : Nat) : List Nat :=
  (([F.TEAM_LEGMAP0_S0 t, F.TEAM_LEGMAP0_S1 t, F.TEAM_LEGMAP0_S2 t, F.TEAM_LEGMAP0_S3 t, F.TEAM_LEGMAP1_S0 t,
     F.TEAM_LEGMAP1_S1 t].map (rlField l)).take (rlField l (F.TEAM_CFG_NLEG t))).filter (fun n => decide (n < 72))

def pdkTeamOk (p : List Byte) (l : List (Nat × Word)) (t : Nat) : Bool :=
  let o := 0x40 + 16 * t
  let lo := le p o 4
  let hi := le p (o + 4) 4
  let safe := byteAt p (o + 8)
  decide (256 ≤ lo) && decide (lo ≤ hi) && decide (hi ≤ 16777216) && decide (safe ≤ 2) && decide (1 ≤ byteAt p (o + 9))
    && zeros p (o + 10) 6
    && (safe == 0 || (rlLegs l t).all (fun n => byteAt p (0x1C7 + 16 * n) / 2 % 2 == 1))

def pdkLegOk (p : List Byte) (n : Nat) : Bool :=
  let o := 0x1C0 + 16 * n
  let iso := byteAt p (o + 7) % 2 == 1
  decide (byteAt p (o + 7) < 64) && (iso == (le p (o + 4) 2 == 0xFFFF)) && zeros p (o + 8) 8

def pdkChanOk (p : List Byte) (c : Nat) : Bool :=
  let o := 0x640 + 12 * c
  decide (toSigned 32 (le p (o + 4) 4) ≤ toSigned 32 (le p o 4)) && decide (le p (o + 8) 4 ≤ 0x40000000)

/-- The TRIPCLR register of some leg lies in [a, a + 4n). -/
def coversTripClr (a n : Nat) : Bool :=
  (List.range 72).any (fun k => decide (a ≤ A.LEG_TRIPCLR k) && decide (A.LEG_TRIPCLR k < a + 4 * n))

def pdkLockOk (p : List Byte) (i : Nat) : Bool :=
  let a := le p (0xD00 + 8 * i) 4
  let n := le p (0xD04 + 8 * i) 4
  a % 4 == 0 && decide (1 ≤ n) && decide (n ≤ 1024) && decide (0x40000 ≤ a) && decide (a + 4 * n ≤ 0x130000)
    && !coversTripClr a n && !overlap a (4 * n) 0xB0000 0x30000

/-- The Paddock section passes R95; `l`: the writes of LEGTEAM and REGINIT. -/
def pdkOk (p : List Byte) (l : List (Nat × Word)) : Bool :=
  let n := le p 4 2
  le p 0 4 == 0x314B4450 && decide (n ≤ 64) && p.length == 0xD00 + 8 * n && zeros p 6 58
    && (List.range 24).all (pdkTeamOk p l) && (List.range 72).all (pdkLegOk p) && (List.range 144).all (pdkChanOk p)
    && (List.range n).all (pdkLockOk p)

/-! ## NETID (R88, R89) and capacity (R38) -/

/-- The remote-team table of a NETID section: device address, team, group. -/
def netRtt (b : List Byte) : List (Nat × Nat × Nat) :=
  (List.range (byteAt b 0x0C)).map (fun i => (le b (0x10 + 8 * i) 2, byteAt b (0x12 + 8 * i), byteAt b (0x13 + 8 * i)))

/-- A segment or station of a device address is 63. -/
def has63 (a : Nat) : Bool := a % 64 == 63 || a / 64 % 64 == 63

/-- A NETID section passes.  Whether its length is that of R88 the list of R89 does not say: another length is refused
with it (log entry 87). -/
def netidOk (b : List Byte) (yoked : Bool) : Bool :=
  let addr := le b 0 2
  let partner := le b 0x0A 2
  b.length == 0x10 + 8 * byteAt b 0x0C && !has63 addr && (partner == 0xFFFF || !has63 partner)
    && (yoked == (partner != 0xFFFF)) && (netRtt b).all (fun e => e.1 != addr) && decide (netRtt b).Nodup

/-- The image declares too many remote teams, or a group of more than 16 members (R38). -/
def overCapacity (b : List Byte) (l : List (Nat × Word)) : Bool :=
  decide (64 < byteAt b 0x0C) || (List.range 8).any (fun g => decide (16 < rlField l (F.MGRP_CFG_NMEM g)))

/-! ## Signature (R97, R98) -/

/-- SCRC of a signature block checks. -/
def sigCrc (g : List Byte) : Bool := crcStands g 0xFFC

/-- The key slot that a header names may verify an image with this signature block. -/
def keyOk (h g : List Byte) (f : FuseSt) : Bool :=
  byteAt g 4 == byteAt h 0x19 && (match finOf 4 (byteAt h 0x19) with
    | some k => (f.keys[k]).prog && !(f.keys[k]).rev && sha256 (slice g 0x28 64) == (f.keys[k]).hash
    | none => false)

/-- The ECDSA signature is valid, with DIGEST as the message hash. -/
def sigOk (g : List Byte) : Bool :=
  ecdsaOk (beNat (slice g 0x28 32)) (beNat (slice g 0x48 32)) (beNat (slice g 8 32)) (beNat (slice g 0x68 32))
    (beNat (slice g 0x88 32))

/-- The detail with which VERIFY refuses an image, 0 for none: digest, identities, key, signature, then the buffered
sections (R84, R89, R95, R96, R98, R38). -/
def verifyRefuse (h body g : List Byte) (l : List Sect) (f : FuseSt) : Nat :=
  if sha256 body ≠ slice g 8 32 then imDIGEST
  else if !idsOk h body l then imSECTION
  else if !keyOk h g f then imKEY
  else if !sigOk g then imSIGNATURE
  else
    match rlAll body l tCLOCK, rlAll body l tPINS, rlAll body l tLEGTEAM, rlAll body l tREGINIT with
    | some _, some _, some lt, some ri =>
      let w := lt ++ ri
      let net := sectsBytes body l [tNETID]
      if !pdkOk (sectsBytes body l [tPADDOCK]) w then imPADDOCK
      else if overCapacity net w then imCAPACITY
      else if !netidOk net (hYoked h) then imNETID
      else 0
    | _, _, _, _ => imRLRANGE

end Sys2Proof.Machine
end

