-- ==== Sys2Proof/Machine/Load.lean ====
section
/-!
DEFINITION. The image load (R115 to R120): its phases, the re-reads of R116, refusal and fallback, the application of the
sections (R102), the table overlays (R105) and Paddock lock (R472).
-/
namespace Sys2Proof.Machine

/-! ## The read profile (R79, R116, R408) -/

/-- The profile in force: the boot profile until the header of the slot checks and for a third re-read, else the header's.
The header of the other slot is read at the boot profile again, the refused slot's header being discarded (R73; log
entry 90). -/
def State.rdSelect (s : State) : State :=
  s.rdShow (if s.load.header.isEmpty ∨ (s.load.reread ≠ .none ∧ 2 ≤ s.load.rereads) then RdProfile.boot
    else hdrProfile s.load.header)

/-- Flash address and bytes of the structure that a phase, or a re-read, reads. -/
def State.rereadAt (s : State) : Reread → Nat × Nat
  | .none => (0, 0)
  | .selector c => (4096 * c, 16)
  | .header => (slotBase s.load.slot, 256)
  | .crcTable => (slotBase s.load.slot + hImgLen s.load.header, hTabLen s.load.header)
  | .block => (slotBase s.load.slot + s.load.body.length, 4096)
  | .signature => (slotBase s.load.slot + hImgLen s.load.header + hTabLen s.load.header, 4096)
  | .overlay => (s.load.ovlBase + 20480 * s.load.ovlRead, 20480)

/-- The load reads a structure in transactions of at most 4 KiB (log entry 90); the second re-read runs at twice the
divider. -/
def State.loadTxns (s : State) (r : Reread) : List FlsTxn :=
  let (a, n) := s.rereadAt r
  let div := s.get F.SER_FLSRD_SCKDIV * (if s.load.reread ≠ .none ∧ s.load.rereads = 1 then 2 else 1)
  (List.range ((n + 4095) / 4096)).map (fun i => s.readTxn (a + 4096 * i) (min 4096 (n - 4096 * i)) div)

def State.loadBus (s : State) (r : Reread) : State := s.busSet (s.loadTxns r)

/-! ## Memories and refusal -/

/-- Every word of the control-engine memories, the capture buffer and both SRAMs is 0; the mailbox slots of the network
keep theirs (R103, R115). -/
def State.wipe (s : State) : State :=
  { s with mem := s.mem.filter (fun c => decide (K.rxSlot 0 0 ≤ c.1) && decide (c.1 < K.sram 0 0)), upset := [] }

/-- The load ends as failed (R118). -/
def State.loadFail (s : State) : State := (s.modLoad (fun l => { l with failed := true })).phase_ 0xF

/-- What was read of a slot is dropped. -/
def LoadSt.dropSlot (l : LoadSt) : LoadSt :=
  { l with reread := .none, rereads := 0, header := [], crcTab := [], body := [], sig := [], sects := [] }

/-- The first fault of a slot stands in IDG_LOADFLT, with its time and context kept for the journal (R118, R120). -/
def State.loadFlt (s : State) (code ctx : Nat) : State :=
  let f := if s.load.slot = 0 then F.IDG_LOADFLT_FLT_SLOT0 else F.IDG_LOADFLT_FLT_SLOT1
  if s.get f ≠ 0 then s
  else
    let time := s.tim.dev
    let c : Word := BitVec.ofNat 32 ctx
    (s.put f code).modLoad (fun l =>
      if l.slot = 0 then { l with fltTime0 := time, fltCtx0 := c } else { l with fltTime1 := time, fltCtx1 := c })

/-- The slot is refused (R73, R103, R118). -/
def State.loadRefuse (s : State) (det ctx : Nat) : State :=
  let code := fcode cIMAGE det
  let s := s.loadFlt code ctx
  let s := s.evtLast { code := code, ctx := BitVec.ofNat 32 ctx, time := s.tim.dev, writer := 0 }
  let s := (s.wipe.modLoad LoadSt.dropSlot).rdSelect
  if s.load.fallback && !s.load.second then
    let time := s.tim.dev
    (s.modLoad (fun l => { l with slot := 1 - l.slot, second := true, fallbackTime := time })).phase_ 4
  else s.loadFail

/-- A read structure failed its CRC: a re-read follows (R116). -/
def State.askReread (s : State) (r : Reread) : State :=
  (s.modLoad (fun l => { l with reread := r, rereads := 0 })).rdSelect

/-- No re-read is due. -/
def State.endReread (s : State) : State := s.modLoad (fun l => { l with reread := .none, rereads := 0 })

/-! ## Flash start-up and the selector (R115, R72) -/

/-- Ticks of the wait after the flash software reset, and of the polling bound. -/
def flashWait : Nat := 31250
def flashPoll : Nat := 500 * ticksPerMs

/-- The status poll shows the flash not busy. -/
def State.flashInit (s : State) : State :=
  if s.inPhase 2 ∧ s.tim.dllAt + flashWait ≤ s.now then s.busPoll.phase_ 3 else s

/-- The flash stays busy beyond the bound: the load fails, and no other slot is tried. -/
def State.flashInitTimeout (s : State) : State :=
  if s.inPhase 2 ∧ s.tim.dllAt + flashWait + flashPoll ≤ s.now then (s.record (cnvm 1) 0).loadFail else s

/-- The memory clear ends; it begins with FLASH_INIT. -/
def State.memoryClear (s : State) : State :=
  let ph := s.get F.IDG_LOADSTAT_PHASE
  if 2 ≤ ph ∧ ph ≤ 6 ∧ !s.load.cleared then s.wipe.modLoad (fun l => { l with cleared := true }) else s

/-- A selector copy still waits for a re-read. -/
def selOpen (l : List Byte) : Bool := !l.isEmpty && !selCrc l

/-- The next copy that fails its CRC is re-read; when none is left, the slot is chosen. -/
def State.selStep (s : State) : State :=
  if selOpen s.load.sel0 then s.askReread (.selector 0)
  else if selOpen s.load.sel1 then s.askReread (.selector 1)
  else
    let (slot, fb) := selChoose s.load.sel0 s.load.sel1
    (s.endReread.rdSelect.modLoad (fun l => { l with slot := slot, named := slot, fallback := fb })).phase_ 4

/-- Both selector copies have been read. -/
def State.selector (s : State) (c0 c1 : List Byte) : State :=
  if s.inPhase 3 ∧ s.load.reread = .none ∧ c0.length = 16 ∧ c1.length = 16 then
    let s := s.busSet (s.loadTxns (.selector 0) ++ s.loadTxns (.selector 1))
    (s.modLoad (fun l => { l with sel0 := c0, sel1 := c1 })).selStep
  else s

/-! ## Header and block CRC table (R77 to R79) -/

/-- A header whose CRC checks is examined. -/
def State.headerUse (s : State) (h : List Byte) : State :=
  let d := hdrRefuse h s.load.slot (s.get F.IDG_SILID_STEP) s.fuse.floor
  if d = 0 then ((s.endReread.modLoad (fun l => { l with header := h })).rdSelect).phase_ 5
  else s.loadRefuse d 0

/-- HDR_CRC checks. -/
def hdrCrcOk (h : List Byte) : Bool := crcStands h 0xFC

/-- The header of the slot has been read. -/
def State.headerRead (s : State) (h : List Byte) : State :=
  if s.inPhase 4 ∧ s.load.reread = .none ∧ h.length = 256 then
    let s := (s.loadBus .header).putB
      (if s.load.slot = 0 then F.IDG_LOADSTAT_SLOT0_TRIED else F.IDG_LOADSTAT_SLOT1_TRIED) true
    if hdrCrcOk h then s.headerUse h else s.askReread .header
  else s

/-- The block CRC table passes TBL_CRC. -/
def State.tableOk (s : State) (b : List Byte) : Bool := crc32c b == le s.load.header 0x70 4

def State.tableUse (s : State) (b : List Byte) : State :=
  let s := s.endReread.rdSelect.modLoad (fun l => { l with crcTab := b, body := [], sects := [] })
  (s.put F.IDG_LOADSTAT_BLOCK 0).phase_ 6

/-- The block CRC table has been read. -/
def State.tableRead (s : State) (b : List Byte) : State :=
  if s.inPhase 5 ∧ s.load.reread = .none ∧ b.length = hTabLen s.load.header then
    let s := s.loadBus .crcTable
    if s.tableOk b then s.tableUse b else s.askReread .crcTable
  else s

/-! ## The body (R74, R80 to R86, R101) -/

/-- The key of the word of a copied section at device address or SRAM offset `a` (R85). -/
def copyKey (type bank a : Nat) : Nat :=
  if type = tCEPROG then K.prog ((a - 0xB0000) / 4)
  else if type = tCECOEF then (if a < 0xC8000 then K.coef ((a - 0xC0000) / 4) else K.state ((a - 0xC8000) / 4))
  else if type = tCETABLE then K.table (4 * bank + (a - 0xD0000) / 0x4000) ((a - 0xD0000) % 0x4000 / 4)
  else if type = tFWA then K.sram 0 (a / 4)
  else K.sram 1 (a / 4)

/-- The table bank of a section (R232). -/
def bankOf (l : List Sect) (e : Sect) : Nat :=
  match (tableBanks l none 0).find? (fun p => p.1 == e) with
  | some p => p.2
  | none => 0

/-- The key of the word that holds device address or SRAM offset `a` takes a byte there. -/
def State.copyByte (s : State) (type bank a : Nat) (b : Byte) : State :=
  let k := copyKey type bank a
  s.memSet k (bitsSet (s.memGet k) (8 * (a % 4)) 8 b.toNat)

/-- The bytes of a copied section that lie in the block at image offset `o` go to their destinations, byte for byte. -/
def State.copySect (s : State) (o : Nat) (b : List Byte) (e : Sect) : State :=
  let lo := max o e.offset
  let hi := min (o + 4096) (e.offset + e.length)
  let bank := bankOf s.load.sects e
  each (List.range (hi - lo)) (fun j s =>
    let x := lo + j
    s.copyByte e.type bank (e.dest + (x - e.offset)) (BitVec.ofNat 8 (byteAt b (x - o)))) s

/-- Body blocks taken so far. -/
def State.blocksDone (s : State) : Nat := s.load.body.length / 4096

/-- A block whose CRC checks is taken; the section table is checked with block 0. -/
def State.blockUse (s : State) (b : List Byte) : State :=
  let i := s.blocksDone
  let s := s.endReread.rdSelect.modLoad (fun l => { l with body := l.body ++ b,
                                                            sects := if i = 0 then sectTable b (hSectCnt l.header) else l.sects })
  if i = 0 ∧ !sectsOk s.load.sects s.load.header then s.loadRefuse imSECTION 0
  else
    let s := each (s.load.sects.filter Sect.copied) (fun e s => s.copySect (4096 * i) b e) s
    if i + 1 < hBlocks s.load.header then s.put F.IDG_LOADSTAT_BLOCK (i + 1) else s.phase_ 7

/-- The CRC of the next body block. -/
def State.blockOk (s : State) (b : List Byte) : Bool := crc32c b == le s.load.crcTab (4 * s.blocksDone) 4

/-- The next 4 KiB body block arrives. -/
def State.bodyBlock (s : State) (b : List Byte) : State :=
  if s.inPhase 6 ∧ s.load.cleared ∧ s.load.reread = .none ∧ b.length = 4096 then
    let s := s.loadBus .block
    if s.blockOk b then s.blockUse b else s.askReread .block
  else s

/-! ## Signature and verification -/

def State.sigUse (s : State) (b : List Byte) : State :=
  (s.endReread.rdSelect.modLoad (fun l => { l with sig := b })).phase_ 8

/-- The signature block has been read. -/
def State.sigRead (s : State) (b : List Byte) : State :=
  if s.inPhase 7 ∧ s.load.reread = .none ∧ b.length = 4096 then
    let s := s.loadBus .signature
    if sigCrc b then s.sigUse b else s.askReread .signature
  else s

/-- The image is accepted, or refused at once (R98, R100, R117). -/
def State.verify (s : State) : State :=
  if s.inPhase 8 then
    let l := s.load
    let d := verifyRefuse l.header l.body l.sig l.sects s.fuse
    if d = 0 then (s.modLoad (fun l => { l with accepted := true })).phase_ 9 else s.loadRefuse d 0
  else s

/-! ## Overlays (R105) -/

/-- Bytes of a record as read, and at its CRC. -/
def ovlPitch : Nat := 20480
def ovlCrcOk (b : List Byte) : Bool := crcStands b 0x4020

/-- The CE_TABLE section that fills a table permits overlays.  R105 does not say which section fills a table that several
touch: any one with OVERLAY_OK whose destination overlaps the table counts, were it in part only (log entry 91). -/
def State.overlayOk (s : State) (t : Nat) : Bool :=
  s.load.sects.any (fun e => e.type == tCETABLE && e.flags == 1
    && bankOf s.load.sects e == t / 4 && overlap e.dest e.length (0xD0000 + t % 4 * 0x4000) 0x4000)

/-- An intact record may be applied to its table.  R105 does not define intact: besides OCRC and OMAGIC, the model asks for
zero reserved bytes and a TABLE of 0 to 15 (log entry 91). -/
def State.overlayFits (s : State) (b : List Byte) : Bool :=
  le b 0 4 == 0x4F545842 && decide (byteAt b 4 < 16) && zeros b 5 3 && zeros b 12 4 && slice b 0x10 16 == s.load.stateId
    && s.overlayOk (byteAt b 4)

/-- One record is skipped. -/
def State.overlaySkip (s : State) : State := s.bumpSat F.BOOT_IMGID_OVL_SKIP

/-- An intact record is kept when it is the newest for its table so far; the older one is skipped. -/
def State.overlayTake (s : State) (b : List Byte) : State :=
  if !s.overlayFits b then s.overlaySkip
  else
    let x : Overlay := ⟨byteAt b 4, le b 8 4, leWords (slice b 0x20 16384)⟩
    match s.load.ovl.find? (fun y => y.table == x.table) with
    | some y =>
      if y.seq < x.seq then
        s.overlaySkip.modLoad (fun l => { l with ovl := l.ovl.filter (fun z => z.table != x.table) ++ [x] })
      else s.overlaySkip
    | none => s.modLoad (fun l => { l with ovl := l.ovl ++ [x] })

/-- Records of the overlay area of the image. -/
def State.ovlCount (s : State) : Nat := s.load.ovlLen / ovlPitch

/-- One record has been read; after the last one, the kept records go to their tables. -/
def State.overlayNext (s : State) : State :=
  let s := (s.endReread.modLoad (fun l => { l with ovlRead := l.ovlRead + 1 })).rdSelect
  if s.load.ovlRead < s.ovlCount then s
  else
    each s.load.ovl (fun x s =>
      (each (List.range 4096) (fun i s => s.memSet (K.table x.table i) (x.entries.getD i 0)) s).bump
        F.BOOT_IMGID_OVL_APPL) s

/-- The next overlay record has been read. -/
def State.overlayRead (s : State) (b : List Byte) : State :=
  if s.inPhase 10 ∧ s.load.reread = .none ∧ s.load.ovlRead < s.ovlCount ∧ b.length = ovlPitch then
    let s := s.loadBus .overlay
    if ovlCrcOk b then (s.overlayTake b).overlayNext else s.askReread .overlay
  else s

/-! ## Re-reads (R116) -/

/-- The structure passes its CRC. -/
def State.rereadOk (s : State) (r : Reread) (b : List Byte) : Bool :=
  match r with
  | .none => false
  | .selector _ => selCrc b
  | .header => hdrCrcOk b
  | .crcTable => s.tableOk b
  | .block => s.blockOk b
  | .signature => sigCrc b
  | .overlay => ovlCrcOk b

/-- Octets of the structure. -/
def State.rereadLen (s : State) : Reread → Nat
  | .none => 0
  | .selector _ => 16
  | .header => 256
  | .crcTable => hTabLen s.load.header
  | .block => 4096
  | .signature => 4096
  | .overlay => ovlPitch

/-- A selector copy is settled: read, or empty when it stayed unreadable. -/
def State.selSet (s : State) (copy : Nat) (b : List Byte) : State :=
  (s.modLoad (fun l => if copy = 0 then { l with sel0 := b } else { l with sel1 := b })).selStep

/-- A structure that passes is accepted, and the load continues. -/
def State.rereadTake (s : State) (r : Reread) (b : List Byte) : State :=
  match r with
  | .none => s
  | .selector c => s.selSet c b
  | .header => s.headerUse b
  | .crcTable => s.tableUse b
  | .block => s.blockUse b
  | .signature => s.sigUse b
  | .overlay => (s.overlayTake b).overlayNext

/-- The third re-read failed too. -/
def State.rereadGiveUp (s : State) (r : Reread) (b : List Byte) : State :=
  match r with
  | .none => s
  | .selector c => s.selSet c []
  | .header => s.loadRefuse (if hdrErased b then imERASED else imHEADER) 0
  | .crcTable => s.loadRefuse imTBL 0
  | .block => s.loadRefuse imBLK s.blocksDone
  | .signature => s.loadRefuse imSIGNATURE 0
  | .overlay => s.overlaySkip.overlayNext

/-- A re-read completes. -/
def State.reread (s : State) (b : List Byte) : State :=
  let r := s.load.reread
  if r = .none ∨ b.length ≠ s.rereadLen r then s
  else
    let s := s.loadBus r
    let s := ((s.bumpSat F.IDG_LOADSTAT_REREADS).modLoad (fun l => { l with rereads := l.rereads + 1 })).rdSelect
    if s.rereadOk r b then s.rereadTake r b
    else if 3 ≤ s.load.rereads then s.rereadGiveUp r b
    else s

/-! ## The application of the buffered sections (R102) -/

/-- The register lists of one type are applied, in section-table order. -/
def State.applyList (s : State) (type : Nat) : State :=
  match rlAll s.load.body s.load.sects type with
  | some l => each l (fun p s => s.writeReg .image p.1 p.2) s
  | none => s

/-- Step 3: the Paddock section is loaded; fields that read 1 under it whatever the image writes are 1 (R158, R219). -/
def State.applyPaddock (s : State) : State :=
  let b := sectsBytes s.load.body s.load.sects [tPADDOCK]
  let s := s.modLoad (fun l => { l with pdk := b })
  let s := each (allLegs.filter (fun n => s.ilkReq n)) (fun n s =>
    (s.putB (F.LEG_EDGECFG_GSR_EN n) true).putB (F.LEG_EDGECFG_ILK_EN n) true) s
  each (allChans.filter (fun c => s.ocRestricted c)) (fun c s =>
    (s.putB (F.SDM_CFG_OCEN c) true).putB (F.SDM_CFG_LOSSTRIP c) true) s

/-- Step 5: addresses, priorities, partner and remote teams; the links start (R88, R112, R388). -/
def State.applyNetid (s : State) : State :=
  let b := sectsBytes s.load.body s.load.sects [tNETID]
  let addr := le b 0 2
  let partner := le b 0x0A 2
  let yoked := hYoked s.load.header
  let s := s.modLoad (fun l => { l with rtt := netRtt b, partner := partner, yoked := yoked, prio1 := byteAt b 2,
                                        prio2 := byteAt b 3, mac := beNat (slice b 4 6) })
  let s := s.put F.NET_ADDR_ADDR addr
  let s := s.put F.NET_ADDR_YADDR (if yoked then min addr partner else addr)
  let s := s.putB F.NET_ADDR_HI (yoked && decide (partner < addr))
  s.modTim (fun t => { t with linksIdle := match t.refAt with
    | some r => decide (r + 10 * ticksPerMs ≤ s.now)
    | none => false })

/-- A filtered condition that stands asserted latches the legs that came into its scope. -/
def State.scopeTrips (s : State) (src : TripSrc) (old : List (Fin 72)) : State :=
  let one (c : Cond) (s : State) : State :=
    if (s.srcFilt src c).filt then
      s.filtTripLegs src c ((s.scope src).filter (fun n => !old.contains n))
    else s
  let s := match src with
    | .tin _ => one .h s
    | _ => one .l (one .h s)
  s.activeUpdate src

/-- What the image configures is set up: clocks, bootstrap counts, channels, comparators, trip inputs, outputs (R112, R113,
R172, R208, R223). -/
def State.applySetup (s : State) : State :=
  let s := each (List.finRange 8) (fun g s => s.ckStart g) s
  let s := each allLegs (fun n s => s.bsStore n s.now (s.get (F.LEG_BSCFG_LIMIT n))) s
  let s := each allChans (fun c s => s.sdmSetup c) s
  let s := each allCmps (fun k s => s.cmpSetup k) s
  let s := each (List.finRange 8) (fun i s => s.tinSetup i) s
  let s := each (allLegs.filter (fun n : Fin 72 => s.bit (F.LEG_EDGECFG_RPT_POL n))) (fun n s => s.rptPolarity n) s
  s.outsRefresh.inbandUpdate

/-- The flash ranges that the header and the section table fix (R77, R86). -/
def State.applyRanges (s : State) : State :=
  let h := s.load.header
  let base := slotBase s.load.slot
  let (xl, xh) := match s.load.sects.find? (fun e => e.type == tXIP) with
    | some e => (base + e.offset, base + e.offset + e.length)
    | none => (0, 0)
  s.modLoad (fun l => { l with
    jrnBase := hJrnBase h, jrnLen := hJrnLen h, ovlBase := hOvlBase h, ovlLen := hOvlLen h, xip := hXip h, xipLo := xl,
    xipHi := xh, cfgId := slice h 0x28 16, stateId := slice h 0x38 16, pdkId := slice h 0x48 16 })

/-- Steps 1 to 6 of R102. -/
def State.apply (s : State) : State :=
  if s.inPhase 9 then
    let s := (s.applyRanges.applyList tCLOCK).applyList tPINS
    let s := ((s.applyPaddock.applyList tLEGTEAM).applyNetid).applyList tREGINIT
    s.applySetup.phase_ 10
  else s

/-! ## Paddock lock (R102 step 8, R472) -/

/-- FORM is checked against the team's kind (R129). -/
def State.lockForm (s : State) (t : Fin 24) : State :=
  let k := s.get (F.TEAM_CFG_KIND t)
  if (k = 1 ∨ k = 2) ∧ isVar (s.form t) then (s.put (F.TEAM_CARCFG_FORM t) foUP).raise (F.TEAM_VARSTAT_FORM_REF t)
  else s

/-- Stored values beyond a limit move to it, without a record (R135, R155, R219). -/
def State.lockTeamLimits (s : State) (t : Fin 24) : State :=
  let a := A.TEAM_PER t
  s.wrSh a (bitsSet (s.rdSh a) 0 25 (s.perParity t (s.perClip t (s.getSh (F.TEAM_PER_PER t)))))

def State.lockLegLimits (s : State) (n : Fin 72) : State :=
  let dt := A.LEG_DT n
  let fix (m : Nat) (f : Fld) (w : Word) : Word := bitsSet w f.lo f.width (max m (bitsGet w f.lo f.width))
  let s := s.wrSh dt (fix (s.dtMin n) (F.LEG_DT_DTH n) (fix (s.dtMin n) (F.LEG_DT_DTL n) (s.rdSh dt)))
  let s := s.wrSh (A.LEG_MINP n) (fix (s.pulseMin n) (F.LEG_MINP_MINP n) (s.rdSh (A.LEG_MINP n)))
  if ilkUnits (s.ilkTmo n) < ilkUnits (s.get (F.LEG_ILKCFG_TMO n)) then s.put (F.LEG_ILKCFG_TMO n) (s.ilkTmo n) else s

def State.lockChanLimits (s : State) (c : Fin 144) : State :=
  let s := if s.ocHiMax c < wInt (s.rd (A.SDM_OCHI c)) then s.wr (A.SDM_OCHI c) (wOfInt (s.ocHiMax c)) else s
  if wInt (s.rd (A.SDM_OCLO c)) < s.ocLoMin c then s.wr (A.SDM_OCLO c) (wOfInt (s.ocLoMin c)) else s

/-- Number of legs that a kind takes (R181). -/
def kindLegs (kind n : Nat) : Bool :=
  if kind = 0 then n == 1 else if kind = 1 then n == 2 else if kind = 2 then n == 3
  else decide (2 ≤ n) && decide (n ≤ 6)

/-- The check of R182 over the registers as they stand. -/
def State.teamCheck (s : State) (t : Fin 24) : Bool :=
  let n := s.get (F.TEAM_CFG_NLEG t)
  let slots := s.legSlots t
  let all := allTeams.flatMap (fun u => (s.legSlots u).take (s.get (F.TEAM_CFG_NLEG u)))
  kindLegs (s.get (F.TEAM_CFG_KIND t)) n && (slots.take n).all (fun x => decide (x < 72) && all.count x == 1)
    && (slots.drop n).all (fun x => x == 0x7F)

/-- The teams that the check configures, each with its legs in slot order, and those it refuses. -/
def State.teamsOk (s : State) : List (Fin 24 × List (Fin 72)) :=
  (allTeams.filter (fun t : Fin 24 => s.get (F.TEAM_CFG_NLEG t) != 0 && s.teamCheck t)).map (fun t => (t, s.namedLegs t))
def State.teamsBad (s : State) : List (Fin 24) :=
  allTeams.filter (fun t : Fin 24 => s.get (F.TEAM_CFG_NLEG t) != 0 && !s.teamCheck t)

/-- A configured team: its shadows are in effect, it stands in OFF at its safe state, and its carrier starts in the next
tick or waits for network lock; dither asked of a fixed form without epochs shows NOEPOCH (R119, R125, R141, R146, R185,
R190, R192). -/
def State.lockTeam (s : State) (t : Fin 24) (legs : List (Fin 72)) : State :=
  let wait := s.aligned t
  let next := if wait then none else some (256 * (s.now + 1))
  let s := s.modTeam t (fun m => { m with legs := legs, next := next })
  let s := each legs (fun n s =>
    let s := (s.modLeg n (fun l => { l with team := some t, updAt := s.nowF })).stageLeg n
    (s.activateLeg n).wr (A.LEG_PHASE n) (s.rdSt (A.LEG_PHASE n))) s
  let s := (s.wrSt (A.TEAM_PER t) (s.rdSh (A.TEAM_PER t))).applyPer t
  let s := s.wrSt (A.TEAM_RSTDLY t) (s.rdSh (A.TEAM_RSTDLY t))
  let s := s.wr (A.TEAM_RSTDLY t) (s.rdSt (A.TEAM_RSTDLY t))
  let s := (s.put (F.TEAM_STAT_STATE t) stOFF).put (F.TEAM_STAT_CAUSE t) caNOTEN
  let s := s.putB (F.TEAM_ALNSTAT_WAIT_LOCK t) wait
  let s := s.putB (F.TEAM_DITHSTAT_NOEPOCH t) (s.bit (F.TEAM_DITHCFG_EN t) && !isVar (s.form t) && !wait)
  s.safeEntry t

/-- A Paddock-restricted channel without a scope trips the team to which its leg is bound (R317). -/
def State.lockSdmScope (s : State) (c : Fin 144) : State :=
  let sc := s.get (F.PRT_SDMMAP_SCOPE c)
  let none_ := sc = 0 ∨ (sc = 1 ∧ 72 ≤ s.get (F.PRT_SDMMAP_LEG c))
  if s.ocRestricted c ∧ none_ then
    let mask := match finOf 72 (s.get (F.SDM_TRG_LEG c)) with
      | some n => (match (s.leg n).team with
        | some t => 2 ^ t.val
        | none => 0)
      | none => 0
    (s.put (F.PRT_SDMMAP_SCOPE c) 2).put (F.PRT_SDMTEAMS_TEAMS c) mask
  else s

/-- Scopes are fixed (R316); a filtered condition latches the legs that its scope gains. -/
def State.lockScopes (s : State) : State :=
  let s := each allCmps (fun k s => s.cmpLock k) s
  let s := each allChans (fun c s =>
    let old := s.sdmTrips[c].scope
    let s := s.lockSdmScope c
    let s := s.modSdmTrip c (fun x => { x with scope := s.sdmScopeNow c })
    s.scopeTrips (.sdm c) old) s
  each (List.finRange 8) (fun i s => s.modTin i (fun x => { x with scope := s.tinScopeNow i })) s

/-- A latched leg with AUTOREARM gets a pending clear (R326). -/
def State.lockRearm (s : State) (n : Fin 72) : State :=
  if (s.leg n).latched ∧ s.bit (F.LEG_PROTCFG_AUTOREARM n) then s.putB (F.LEG_TRIPSTAT_CLR_PEND n) true else s

/-- The band bits of inputs that are not configured clear (R126). -/
def State.lockBands (s : State) : State :=
  let s := each (List.finRange 8) (fun i s =>
    if s.get (F.PRT_TINCFG_SCOPE i) = 0 then s.setBit F.IDG_INBAND_TRIP_IN i false else s) s
  let s := each (allCmps.filter (fun k => s.cmpMode k == 0)) (fun k s =>
    (s.putB (F.CMP_STAT_INBAND_H k) false).putB (F.CMP_STAT_INBAND_L k) false) s
  let s := if s.load.yoked then s else s.putB F.IDG_INBAND_ACT_IN false
  s.inbandUpdate

/-- BOOT and PDK as the image sets them (R108). -/
def State.lockIdent (s : State) : State :=
  let h := s.load.header
  let s := s.put F.BOOT_IMGID_SEC_VER (byteAt h 0x1A)
  let s := s.put F.BOOT_IMGID_KEY_SLOT (byteAt h 0x19)
  let s := s.put F.BOOT_IMGID_SLOT s.load.slot
  let s := s.putB F.BOOT_IMGID_FALLBACK s.load.second
  let s := s.putB F.BOOT_IMGID_XIP s.load.xip
  let s := s.wr A.BOOT_IMGVER (BitVec.ofNat 32 (le h 0x1C 4))
  let s := each (List.range 4) (fun i s =>
    let s := s.wr (A.BOOT_CFGID i) (BitVec.ofNat 32 (le h (0x28 + 4 * i) 4))
    let s := s.wr (A.BOOT_STATEID i) (BitVec.ofNat 32 (le h (0x38 + 4 * i) 4))
    s.wr (A.BOOT_PDKID i) (BitVec.ofNat 32 (le h (0x48 + 4 * i) 4))) s
  (s.put F.PDK_STAT_LOCK_CNT (s.pdkLe 4 2)).putB F.PDK_STAT_LOCKED true

/-- The records that waited for the lock: load faults, IMAGE:FALLBACK, and what a shut-down left (R120, R450). -/
def State.lockRecords (s : State) : List FaultRec :=
  let l := s.load
  let f0 := s.get F.IDG_LOADFLT_FLT_SLOT0
  let f1 := s.get F.IDG_LOADFLT_FLT_SLOT1
  let r0 : List FaultRec := if f0 = 0 then [] else [⟨f0, l.fltCtx0, l.fltTime0, 0⟩]
  let r1 : List FaultRec := if f1 = 0 then [] else [⟨f1, l.fltCtx1, l.fltTime1, 0⟩]
  let fb : List FaultRec := if l.second then [⟨fcode cIMAGE imFALLBACK, 0, l.fallbackTime, 0⟩] else []
  let x := s.shutRec
  let td : List FaultRec := if x.valid then [⟨fcode cTHERMAL 3, BitVec.ofNat 32 x.cause, x.td, 0⟩] else []
  let ab : List FaultRec := if x.valid && x.aborted then [⟨cnvm 6, BitVec.ofNat 32 x.abortAddr, x.abortAt, 0⟩] else []
  (if l.named = 0 then r0 ++ r1 else r1 ++ r0) ++ fb ++ td ++ ab

/-- They come before the records that the load itself queued. -/
def State.lockJournal (s : State) : State :=
  let old := s.jrn.queue
  let s := s.modJrn (fun j => { j with queue := [] })
  let s := each (s.lockRecords ++ old) (fun r s => s.jrnQueue r) s
  let s := if s.load.second then
      s.evtLast { code := fcode cIMAGE imFALLBACK, ctx := 0, time := s.load.fallbackTime, writer := 0 }
    else s
  let s := ({ s with shutRec := ShutRec.reset }).shutShow
  s.putB F.EVT_LOGSTAT_SCAN true

/-- Paddock lock and supervisor release, in one tick. -/
def State.paddockLock (s : State) : State :=
  if s.inPhase 10 ∧ s.load.reread = .none ∧ s.ovlCount ≤ s.load.ovlRead then
    let s := each allTeams (fun t s => (s.lockForm t).lockTeamLimits t) s
    let s := each allLegs (fun n s => s.lockLegLimits n) s
    let s := each allChans (fun c s => s.lockChanLimits c) s
    let ok := s.teamsOk
    let bad := s.teamsBad
    let s := s.modLoad (fun l => { l with locked := true, supRun := true })
    let s := each bad (fun t s => s.putB (F.TEAM_STAT_CFGERR t) true) s
    let s := each ok (fun p s => s.lockTeam p.1 p.2) s
    let s := each allTeams (fun t s => s.teamDly t) s
    let s := each (List.finRange 8) (fun p s => s.fbkLock p) s
    let refused := allGroups.filter (fun g => s.groupBad g)
    let s := (each allGroups (fun g s => s.groupLock g (refused.contains g)) s).capUse
    let s := each allTeams (fun t s => (s.obsLock t).mapLock t) s
    let s := s.lockScopes
    let s := each allLegs (fun n s => s.lockRearm n) s
    let s := (s.lockBands.ptpLock).yokLock
    let s := (s.lockIdent.put F.IDG_LOADTIME_LOAD_US ((s.now - s.tim.pllAt) * 2 / 625)).lockJournal
    let s := (s.defer (s.now + 1) .imageEn).outsRefresh
    s.phase_ 11
  else s

end Sys2Proof.Machine
end

