-- ==== Sys2Proof/Machine/Service.lean ====
section
/-!
DEFINITION. The service port (R418 to R428): chain and pipelined mode, commands, pointer, status and privileged access.
-/
namespace Sys2Proof.Machine

/-! ## Frames (R418, R419) -/

/-- One bit into the CRC-8 register, polynomial 0x2F. -/
def crc8Bit (r : Nat) (b : Bool) : Nat :=
  let r' := r * 2 % 256
  if (decide (128 ≤ r)) != b then Nat.xor r' 0x2F else r'

/-- The CRC-8 of the n low bits of v, most significant first; initial value and final XOR 0xFF (R419). -/
def crc8 (n v : Nat) : Nat :=
  Nat.xor ((List.range n).foldl (fun r i => crc8Bit r (v / 2 ^ (n - 1 - i) % 2 == 1)) 0xFF) 0xFF

/-- A 72-bit frame from its first byte, address and data. -/
def svcPack (b addr : Nat) (data : Word) : Nat :=
  let v := b % 256 * 2 ^ 56 + addr % 2 ^ 24 * 2 ^ 32 + data.toNat
  v * 256 + crc8 64 v

/-- Commands of R423. -/
inductive SvcCmd where
  | nop
  | read
  | readNext
  | write
  | writeNext
  | select
  | arm
  | bad
  deriving DecidableEq, Repr

def svcCmdOf (b : Nat) : SvcCmd :=
  if b = 0x00 then .nop
  else if b = 0x40 then .read
  else if b = 0x50 then .readNext
  else if b = 0x80 then .write
  else if b = 0x90 then .writeNext
  else if b = 0xC0 then .select
  else if b = 0xC1 then .arm
  else .bad

/-! ## Mode and reply -/

/-- MODE of SER_SVCSTAT. -/
def mdCHAIN : Nat := 0
def mdSELECTED : Nat := 1
def mdBYPASS : Nat := 2
def State.svcMode (s : State) : Nat := s.get F.SER_SVCSTAT_MODE
def State.svcArmed (s : State) : Bool := s.bit F.SER_SVCSTAT_ARMED

/-- Bits 7 to 3 of STAT (R425). -/
def svCRCERR : Nat := 128
def svOVR : Nat := 64
def svPRIV : Nat := 32
def svWAIT : Nat := 16
def svERR : Nat := 8

/-- The reply to the last frame, as it is loaded now. -/
def State.svcReply (s : State) : Nat :=
  let v := s.ser.svc
  svcPack (v.stat + 4 * b2n s.svcArmed + 2 * b2n (s.svcMode == mdSELECTED) + b2n s.load.locked) v.addr v.data

/-- Load the reply into the shift register. -/
def State.svcLoad (s : State) : State :=
  let r := s.svcReply
  s.modSvc (fun v => { v with shift := r })

/-- Note what the reply to this frame holds. -/
def State.svcSay (s : State) (stat addr : Nat) (data : Word) : State :=
  s.modSvc (fun v => { v with stat := stat, addr := addr, data := data })

/-- The port answers: the device is out of reset and its clocks run. -/
def State.svcOn (s : State) : Bool := s.outOfReset && !s.tim.stopped && s.load.holdoff.isNone

/-! ## The pointer (R424) -/

def State.svcPoint (s : State) (a : Nat) : State :=
  ((s.put F.SER_SVCSTAT_PTR a).putB F.SER_SVCSTAT_SAT false).modSvc (fun v => { v with ptrSet := true })

/-- A _NEXT command finds the pointer at the end of its page. -/
def State.svcAtEnd (s : State) : Bool := s.bit F.SER_SVCSTAT_SAT || s.get F.SER_SVCSTAT_PTR % 4096 == 0xFFC

/-! ## Privilege and reach (R427, R428) -/

/-- Writes and reads that need the port armed. -/
def svcPrivileged (wr : Bool) (a : Nat) : Bool :=
  (wr && (a == A.IDG_RESTART || a == A.SER_FLSWDATA || a == A.SER_FLSERASE || a == A.SER_FLSCTL || a == A.SER_FLSADDR
      || a == A.SER_FUSECTL || (decide (A.SER_FUSEKEY 0 ≤ a) && decide (a ≤ A.SER_FUSEKEY 7))))
    || (decide (A.EVT_LOGRD 0 ≤ a) && decide (a ≤ A.EVT_LOGRD 7))

/-- The PDK page is read in pipelined mode only. -/
def svcPdkRead (wr : Bool) (a : Nat) : Bool := !wr && decide (0x21000 ≤ a) && decide (a < 0x22000)

def State.svcDenied (s : State) (wr : Bool) (a : Nat) : Bool :=
  (svcPrivileged wr a && !(s.svcArmed && s.svcMode == mdSELECTED)) || (svcPdkRead wr a && s.svcMode != mdSELECTED)

/-- The IDG, BOOT, PDK and SER blocks. -/
def svcOpenBlock (a : Nat) : Bool := decide (a < 0x10000) || a / 0x10000 == 2 || a / 0x10000 == 0x10

/-- The access is refused with ERR while no image has been locked. -/
def State.svcShut (s : State) (wr : Bool) (a : Nat) : Bool :=
  !s.load.locked && (!svcOpenBlock a || (wr && !s.load.failed && decide (A.SER_FLSRD ≤ a) && decide (a ≤ A.SER_FLSCNT)))

/-- READ and WRITE set the pointer, unless the frame is discarded with PRIV. -/
def State.svcAim (s : State) (wr : Bool) (a : Nat) : State := if s.svcDenied wr a then s else s.svcPoint a

/-! ## Accesses -/

/-- A read at the pointer. -/
def State.svcReadAt (s : State) (a : Nat) (ext : Word) : State :=
  if a = A.SER_FLSRDATA ∧ s.bit F.SER_FLSSTAT_BUSY then s.svcSay svERR a 0
  else
    let (w, s) := s.readWord 2 .svc a ext
    let s := { s with lastRead := s.lastRead.set 2 w }
    s.svcSay (if unmappedFrom ≤ a then svERR else 0) a w

/-- A write is issued at rank 11, or waits for a general tag (R426). -/
def State.svcIssue (s : State) (a : Nat) (v : Word) : State :=
  if s.mayIssue Stall.svc then (s.tagSet (s.tagsUse + 1)).writeReg .svc a v
  else (s.modSvc (fun x => { x with pend := some (a, v) })).stall .svc

def State.svcWriteAt (s : State) (a : Nat) (v : Word) : State :=
  (s.svcSay (if unmappedFrom ≤ a then svERR else 0) a v).svcIssue a v

/-- An access is made unless it is privileged or out of reach. -/
def State.svcAccess (s : State) (wr : Bool) (a : Nat) (v : Word) : State :=
  if s.svcDenied wr a then (s.bumpSat F.SER_SVCCNT_PRIV).svcSay svPRIV a 0
  else if s.svcShut wr a then s.svcSay svERR a 0
  else if wr then s.svcWriteAt a v
  else s.svcReadAt a v

/-- READ_NEXT or WRITE_NEXT. -/
def State.svcNext (s : State) (wr : Bool) (v : Word) : State :=
  if !s.ser.svc.ptrSet then s.svcSay svERR 0 0
  else if s.svcAtEnd then
    ((s.putB F.SER_SVCSTAT_SAT true).bumpSat F.SER_SVCCNT_OVR).svcSay svOVR (s.get F.SER_SVCSTAT_PTR) 0
  else
    let a := s.get F.SER_SVCSTAT_PTR + 4
    (s.put F.SER_SVCSTAT_PTR a).svcAccess wr a v

/-! ## Frames taken -/

/-- A write that has not been issued when the next frame begins is cancelled (R426). -/
def State.svcCancel (s : State) : State :=
  if s.ser.svc.pend.isNone then s
  else
    let s := { s with stalled := s.stalled.filter (fun x => x != Stall.svc) }
    let s := (s.bumpSat F.SER_SVCCNT_WAIT).modSvc (fun v => { v with pend := none, stat := v.stat ||| svWAIT })
    if s.svcMode = mdSELECTED then s.svcLoad else s

/-- What a good frame does; `ext`: what the flash answers a read of SER_FLSRDATA (R423). -/
def State.svcDo (s : State) (c : SvcCmd) (addr : Nat) (data ext : Word) : State :=
  let a := addr % 2 ^ 24 / 4 * 4
  match c with
  | .nop => s.svcSay 0 0 0
  | .read => (s.svcAim false a).svcAccess false a ext
  | .readNext => s.svcNext false ext
  | .write => (s.svcAim true a).svcAccess true a data
  | .writeNext => s.svcNext true data
  | .select =>
    if s.svcMode = mdCHAIN then (s.svcSay 0 0 0).modSvc (fun v => { v with selNext := true }) else s.svcSay svERR 0 0
  | .arm =>
    if s.svcMode ≠ mdSELECTED then s.svcSay svERR 0 0
    else (s.putB F.SER_SVCSTAT_ARMED (s.svcArmed || data == 0x5A3CC3A5)).svcSay 0 0 0
  | .bad => s.svcSay svERR 0 0

/-- A good frame arrives in the present mode; its reply is loaded at once in pipelined mode (R422). -/
def State.svcFrame (s : State) (c : SvcCmd) (addr : Nat) (data ext : Word) : State :=
  if !s.svcOn ∨ s.svcMode = mdBYPASS then s
  else
    let s := s.svcCancel.svcDo c addr data ext
    if s.svcMode = mdSELECTED then s.svcLoad else s

/-- Seventy-two bits are taken as a frame: without a good CRC it is discarded, and the device disarms (R419). -/
def State.svcBits (s : State) (v : Nat) (ext : Word) : State :=
  let s := s.svcCancel
  if crc8 64 (v / 256) = v % 256 then
    s.svcDo (svcCmdOf (v / 2 ^ 64 % 256)) (v / 2 ^ 40 % 2 ^ 24) (BitVec.ofNat 32 (v / 256)) ext
  else ((s.bumpSat F.SER_SVCCNT_CRCERR).putB F.SER_SVCSTAT_ARMED false).svcSay svCRCERR 0 0

/-- SVC_CS_N falls: a device that took a SELECT frame is selected, another one stays in the chain, or passes the stream
on when some other device of the chain is selected (R420, R422). -/
def State.svcSelectStart (s : State) (bypass : Bool) : State :=
  if !s.svcOn ∨ s.ser.svc.sel then s
  else
    let mode := if s.ser.svc.selNext then mdSELECTED else if bypass then mdBYPASS else mdCHAIN
    let s := (s.put F.SER_SVCSTAT_MODE mode).modSvc (fun v => { v with sel := true, selNext := false })
    s.svcCancel.svcLoad

/-- SVC_CS_N rises after k bits of a frame: a chain frame, or the frame in which a pipelined select ends (R420 to
R422). -/
def State.svcSelectEnd (s : State) (k bits : Nat) (ext : Word) : State :=
  if !s.svcOn ∨ !s.ser.svc.sel then s
  else
    let v := bits % 2 ^ min k 72
    let takes := s.svcMode = mdCHAIN ∨ (s.svcMode = mdSELECTED ∧ k ≠ 0)
    let s := if takes then s.svcBits v ext else s
    let s := (s.put F.SER_SVCSTAT_MODE mdCHAIN).putB F.SER_SVCSTAT_ARMED false
    s.modSvc (fun v => { v with sel := false })

end Sys2Proof.Machine
end

