-- ==== Sys2Proof/Machine/Advance.lean ====
section
/-!
DEFINITION. The model's clock (log entry 1): a command that carries tick t reaches the block once every effect that falls
due up to t has happened and CLK_TIME has counted to t.
-/
namespace Sys2Proof.Machine

/-- The tick after Paddock lock: each team in OFF whose EN the image wrote 1 is judged, and a refused EN clears (R187). -/
def State.imageEn (s : State) : State :=
  each allTeams (fun t s =>
    if s.bit (F.TEAM_CTL_EN t) && s.tstate t == stOFF then
      let s := s.teamEnable t
      if s.tstate t = stOFF then s.putB (F.TEAM_CTL_EN t) false else s
    else s) s

/-! ## What waits for a general tag (R27) -/

/-- What waited longest is issued. -/
def State.unstall (s : State) : Stall → State
  | .note => s
  | .write w a v => s.writeReg w a v
  | .commit k => s.commitNow k
  | .item x => s.deliverNow x
  | .adopt k rel consec words range obs => s.adoptNow k rel consec words range obs
  | Stall.svc => match s.ser.svc.pend with
    | some (a, v) => (s.modSvc (fun x => { x with pend := none })).writeReg .svc a v
    | none => s

/-- Tags are free again in a new tick: what waits is issued, oldest first, while there are tags (R27). -/
def State.tagDrain (s : State) : State :=
  let n := 128 - s.tagsUse
  let go := s.stalled.take n
  let s := each go (fun x s => (s.tagSet (s.tagsUse + 1)).unstall x) { s with stalled := s.stalled.drop n }
  if s.stalled.isEmpty then s else s.defer (s.now + 1) .tagDrain

/-! ## Time -/

/-- A deferred effect happens. -/
def State.fire (s : State) : Deferred → State
  | .teamOff t => s.teamOffNow t
  | .force n => s.forceNow n
  | .mpCount n m => s.mpCountNow n m
  | .imageEn => s.imageEn
  | .cmpKnown k c lvl stamp => s.cmpKnownNow k c lvl stamp
  | .filtRel src c => s.filtRelease src c
  | .cmpHold k c => s.cmpHold k c
  | .ocEval c => (s.ocSync c s.now).ocConds c
  | .hkRound => s.hkRoundEnd
  | .claim => s.claimNow
  | .tagDrain => s.tagDrain

/-- The effect that falls due first, the one deferred first among those of one tick. -/
def dueFirst : List (Tick × Deferred) → Option (Tick × Deferred)
  | [] => none
  | e :: r => match dueFirst r with
    | some x => some (if x.1 < e.1 then x else e)
    | none => some e

/-- The first effect due up to tick t, and the state at its tick without it. -/
def State.takeDue (s : State) (t : Tick) : Option (Deferred × State) :=
  match dueFirst s.due with
  | some e => if e.1 ≤ t then some (e.2, ({ s with due := s.due.erase e }).ticks (e.1 - s.now)) else none
  | none => none

/-- Time passes up to tick t with the effects that fall due; at most `n` of them. -/
def State.advanceN : Nat → Tick → State → State
  | 0, t, s => s.ticks (t - s.now)
  | n + 1, t, s => match s.takeDue t with
    | some (d, s') => State.advanceN n t (s'.fire d)
    | none => s.ticks (t - s.now)

/-- Time passes up to tick t; a tick that has passed already is now. -/
def State.advance (s : State) (t : Tick) : State := s.advanceN (4 * (t - s.now + s.due.length + 1)) t

/-- What a command does that needs CLK_TIME; with its clocks stopped the device does nothing (R45, R449).  VIEW and the
yoke's monitor follow every command in its tick (R344, R346). -/
def State.at_ (s : State) (f : State → State) : State := if s.clkOn then (f s).yokCheck else s

/-- What a command does that also happens while CLK_TIME does not run. -/
def State.any_ (s : State) (f : State → State) : State := (f s).yokCheck

end Sys2Proof.Machine
end

