-- ==== Sys2Proof/Machine/Fabric.lean ====
section
/-!
DEFINITION. Reads and writes that reach the block as commands (R26, R27, R463 to R469, R475), the supervisor pairs
(R355, R356), tags that free (R27), and the events of inputs and carriers that the operations of other files serve.
-/
namespace Sys2Proof.Machine

/-! ## Who may reach the map -/

/-- Firmware of pair r runs: released at Paddock lock, from the tick after it, and not held in reset (R102, R356). -/
def State.fwOk (s : State) (r : Fin 2) : Bool :=
  s.clkOn && s.load.supRun && decide (s.yok.lockAt < s.now) && !s.bit (F.SUP_CKSTAT_UNRECOV r)

/-- The service port serves an access to an address (R427, R428). -/
def State.svcMay (s : State) (wr : Bool) (a : Nat) : Bool :=
  s.svcOn && s.svcMode != mdBYPASS && !s.svcDenied wr a && !s.svcShut wr a

/-- A master can reach an address now. -/
def State.mayReach (s : State) (m : Master) (wr : Bool) (a : Nat) : Bool :=
  match m.pair with
  | some r => s.fwOk r
  | none => s.svcMay wr a

/-! ## Writes -/

/-- A core's store takes a general tag and takes effect, or waits for one (R26, R27, R469). -/
def State.issue (s : State) (w : Writer) (a : Nat) (v : Word) : State :=
  s.issueAs (.write w a v) (fun s => s.writeReg w a v)

/-- A write of an aligned word by a master. -/
def State.masterWrite (s : State) (m : Master) (a : Nat) (v : Word) : State :=
  if !s.mayReach m true a then s
  else match m.pair with
    | some _ => s.issue m.writer a v
    | none => s.svcIssue a v

/-- The word whose only set bits are those of a field that fits it at 1. -/
def bitOf (f : Fld) : Word := BitVec.ofNat 32 (2 ^ f.lo)

/-- A field's value in its place. -/
def fieldOf (f : Fld) (v : Nat) : Word := BitVec.ofNat 32 (v % 2 ^ f.width * 2 ^ f.lo)

/-- NET_MBXTXCTL with GO (R368). -/
def mailWord (port u len : Nat) : Word :=
  bitOf F.NET_MBXTXCTL_GO ||| fieldOf F.NET_MBXTXCTL_PORT port ||| fieldOf F.NET_MBXTXCTL_SLOT u
    ||| fieldOf F.NET_MBXTXCTL_LEN len

/-- SER_FUSECTL with GO (R429). -/
def fuseWord (op : FuseOp) : Word :=
  let go := bitOf F.SER_FUSECTL_GO
  match op with
  | .program k => go ||| fieldOf F.SER_FUSECTL_OP 1 ||| fieldOf F.SER_FUSECTL_SLOT k
  | .revoke k => go ||| fieldOf F.SER_FUSECTL_OP 2 ||| fieldOf F.SER_FUSECTL_SLOT k
  | .floor v => go ||| fieldOf F.SER_FUSECTL_OP 3 ||| fieldOf F.SER_FUSECTL_FLOOR v

/-- A core access of this width is naturally aligned. -/
def Width.aligned : Width → Nat → Bool
  | .byte, _ => true
  | .half, a => a % 2 == 0
  | .word, a => a % 4 == 0

/-- A write as a master makes it: a core's narrow or misaligned store is discarded and counted (R464); the service port
ignores bits 1:0 of the address (R463). -/
def State.registerWrite (s : State) (m : Master) (a : Nat) (v : Word) (w : Width) : State :=
  match m with
  | .svc => s.masterWrite .svc (a / 4 * 4) v
  | _ =>
    if w = .word ∧ a % 4 = 0 then s.masterWrite m a v
    else if s.mayReach m true a then s.accErr m.writer true 3 a
    else s

/-! ## Reads -/

/-- A load of SER_PMSRX or SER_FLSRDATA by a pair is followed by its checkpoint (R468). -/
def readPops (a : Nat) : Bool :=
  a == A.SER_FLSRDATA || (List.range 4).any (fun q => a == A.SER_PMSRX q)

/-- The checkpoint of pair r completes: a mismatch that follows it is a first one (R356). -/
def State.checkpointed (s : State) (r : Fin 2) : State := { s with sup := s.sup.set r { reloaded := false } }

/-- A master reads an aligned word; the value is kept as the one its reader last got (R465, R466). -/
def State.masterRead (s : State) (m : Master) (a : Nat) (flash : Word) : State :=
  if !s.mayReach m false a then s
  else
    let (w, s) := s.readWord m.reader m.writer a flash
    let s := { s with lastRead := s.lastRead.set m.reader w }
    match m.pair with
    | some r => if readPops a then s.checkpointed r else s
    | none => s

/-- The bytes of a word that a load selects. -/
def selBytes (w : Width) (a : Nat) (x : Word) : Word :=
  match w with
  | .byte => BitVec.ofNat 32 (bitsGet x (8 * (a % 4)) 8)
  | .half => BitVec.ofNat 32 (bitsGet x (8 * (a % 4)) 16)
  | .word => x

/-- A load as a master makes it: narrower ones read the whole word and return the selected bytes, misaligned ones return
0 and are counted (R464).  What the flash answers a read of SER_FLSRDATA does not come with this command: it is free (log
entry 3); with FLSRDATA_READ it does. -/
def State.registerRead (s : State) (m : Master) (a : Nat) (w : Width) : State :=
  let whole (s : State) (a : Nat) : State :=
    if a = A.SER_FLSRDATA then
      let (f, s) := s.free
      s.masterRead m a f
    else s.masterRead m a 0
  match m with
  | .svc => whole s (a / 4 * 4)
  | _ =>
    if !s.mayReach m false a then s
    else if w.aligned a then
      let s := whole s (a / 4 * 4)
      { s with lastRead := s.lastRead.set m.reader (selBytes w a s.lastRead[m.reader]) }
    else { s.accErr m.writer false 3 a with lastRead := s.lastRead.set m.reader 0 }

/-- SER_FLSRDATA is read (R415). -/
def State.flsrdataRead (s : State) (m : Master) (data : Word) : State := s.masterRead m A.SER_FLSRDATA data

/-- A write to FBK_SSIREQ with GO; `dat`: the level of FBp_DAT one tick before (R289). -/
def State.ssiGoWrite (s : State) (m : Master) (p : Fin 8) (v : Word) (dat : Bool) : State :=
  let a := A.FBK_SSIREQ p
  if !s.mayReach m true a then s
  else if !s.mayIssue (match m.pair with | some _ => .write m.writer a v | none => .svc) then
    s.masterWrite m a (v ||| bitOf (F.FBK_SSIREQ_GO p))
  else
    let s := s.tagSet (s.tagsUse + 1)
    s.lockGuard m.writer a v (fun s =>
      let s := match regAt a with
        | some (r, _) => s.plainWrite m.writer r p a v
        | none => s
      s.ssiGo p dat)

/-! ## The flash, as a core reaches it (R409, R410) -/

/-- A core's load, or instruction fetch, from the flash window. -/
def State.winRead (s : State) (r : Fin 2) (fetch : Bool) (a : Nat) (line : List Byte) : State :=
  if s.fwOk r then s.windowRead (pairMaster r).reader fetch a line else s

/-- A core's store to the program or the erase window. -/
def State.flashStore (s : State) (r : Fin 2) (f : State → Writer → State) : State :=
  if s.fwOk r then f s (pairMaster r).writer else s

/-! ## Supervisor pairs (R355, R356) -/

/-- A pair's checkpoint completes: the stores of its egress queue, at most 256, are issued in order (R355). -/
def State.checkpoint (s : State) (r : Fin 2) (stores : List EgStore) : State :=
  if !s.fwOk r ∨ 256 < stores.length then s
  else
    let w := (pairMaster r).writer
    let s := s.raiseMax (F.SUP_CKSTAT_EGRHWM r) (min 255 stores.length)
    let s := each stores (fun e s => match e with
      | .reg a v => if a.toNat % 4 = 0 then s.issue w a.toNat v else s.accErr w true 3 a.toNat
      | .prog a b => s.progStore w a.toNat b
      | .erase a => s.eraseStore w a.toNat) s
    s.checkpointed r

/-- The cores of a pair disagree: the pair reloads its last checkpoint; a second mismatch before the next checkpoint
holds it in reset (R35, R37, R356, R364). -/
def State.lockstepMismatch (s : State) (r : Fin 2) : State :=
  if !s.fwOk r then s
  else
    let s := s.wr (A.SUP_CKLAST r) (BitVec.ofNat 32 s.tim.dev)
    if (s.sup[r]).reloaded then
      let s := s.record (fcode cLOCKSTEP 2) r
      (s.putB (F.SUP_CKSTAT_UNRECOV r) true).yokFault
    else
      let s := s.bumpSat (F.SUP_CKSTAT_RELOADS r)
      let s := { s with sup := s.sup.set r { reloaded := true } }
      s.record (fcode cLOCKSTEP 1) r

/-! ## General tags (R26, R27) -/

/-- A general tag frees, and the source that stalled first takes it (R27). -/
def State.tagFreed (s : State) : State :=
  let s := s.tagSet (s.tagsUse - 1)
  match s.stalled with
  | [] => s
  | x :: r => (({ s with stalled := r }).tagSet (s.tagsUse + 1)).unstall x

/-- The commit of a run that has ended arrives, or waits on its lane for a general tag (R27, R246). -/
def State.commitArrive (s : State) (k : Fin 36) : State :=
  if (s.endedRun k).isNone ∨ s.stalled.contains (.commit k) then s
  else s.issueAs (.commit k) (fun s => s.commitNow k)

/-! ## Faults of the clocks, as the yoke sees them (R46, R67, R349) -/

/-- A reference fault is a device-level fault of R349. -/
def State.refFaultDev (s : State) (lost : Bool) : State :=
  let s' := s.refFault lost
  if s.tim.refAt.isNone && s'.tim.refAt.isSome then s'.yokFault else s'

/-- A delay line's DLL loses lock; on a leg of a yoked team it is a device-level fault. -/
def State.dllUnlockDev (s : State) (line : Nat) : State :=
  if s.tim.dllAt = 0 ∨ s.tim.deadLines.contains line then s
  else
    let yoked := match finOf 72 (lineLeg line) with
      | some n => (match (s.leg n).team with
        | some t => s.yokedTeam t
        | none => false)
      | none => false
    let s := s.dllUnlock line
    if yoked then s.yokFault else s

/-! ## Inputs leave their band (R113) -/

/-- An input is seen outside its band: on its fault side, or on the other. -/
def State.bandExit (s : State) (b : BandInput) (fault : Bool) : State :=
  match b with
  | .safeN => s.safeBandExit
  | .pgood => (s.putB F.IDG_INBAND_PGOOD false).inbandUpdate
  | .tripIn i => s.tinBandExit i fault
  | .cmp k c => s.cmpBandExit k c fault
  | .report n sw => s.rptBandExit n sw fault
  | .actIn => if s.bit F.IDG_INBAND_ACT_IN then s.actBandExit fault else s

/-- A warm-up count reaches zero (R122).  The over-current filter's runs on the clock; every other history sets its VALID
with the event that it counts. -/
def State.warmComplete (s : State) : WarmUnit → State
  | .overCurrent c => s.ocWarm c
  | .byEvent => s

/-! ## Update points, period starts and epochs (R141, R142, R189) -/

/-- An effect that may hold a team's update point closes the takeover window there (R351). -/
def State.withUpdate (s : State) (t : Fin 24) (f : State → State) : State :=
  let s' := f s
  if (s'.team t).updTick = some s.now ∧ (s.team t).updTick ≠ some s.now then s'.yokUpdate t else s'

/-- The centre of a team's period lies in this tick. -/
def State.centreNow (s : State) (t : Fin 24) : Bool :=
  (s.team t).started && !isVar (s.form t)
    && centreOf (s.form t) (s.team t).pstart (s.team t).up / 256 == s.now

/-- A centre update point arrives; where the mode has none, the centre only turns the position (R141, R145).  A start
update point is part of its period start. -/
def State.updatePoint (s : State) : Carr → State
  | .team t =>
    if !s.centreNow t then s
    else if s.updCentre t then
      (if (s.team t).updTick = some s.now then s else s.withUpdate t (fun s => s.teamCentre t))
    else each (s.team t).legs (fun n s => if s.get (F.LEG_PHASE_PHASE n) = 0 then s.legCentre n else s) s
  | .leg n => s.withTeam n fun t =>
    let l := s.leg n
    if s.get (F.LEG_PHASE_PHASE n) ≠ 0 ∧ l.running ∧ !isVar (s.form t) ∧ centreOf (s.form t) l.pstart l.up / 256 = s.now then
      s.legCentre n
    else s

/-- A period starts at a position of this tick (R142). -/
def State.periodStart (s : State) (c : Carr) (fine : Nat) : State :=
  match c with
  | .team t => if (s.team t).next = some (s.inst fine) then s.withUpdate t (fun s => s.teamStart t (s.inst fine)) else s
  | .leg n => s.legStart n (s.inst fine)

/-- An epoch arrives at a position of this tick (R189, R190): TEAM_EPOCHIDX shows it, and a team whose carrier waits for one
starts once device time is network time. -/
def State.epochArrives (s : State) (t : Fin 24) (fine : Nat) : State :=
  let x := s.inst fine
  let lock := s.bit F.TIM_STAT_NETLOCK && decide (s.tim.netAt < s.now)
  let s := match s.epochAt t x with
    | some k => if s.load.locked ∧ (s.team t).legs ≠ [] then s.epochIdx t k else s
    | none => s
  if s.load.locked ∧ s.yok.lockAt < s.now ∧ (s.epochAt t x).isSome ∧ (s.team t).legs ≠ [] ∧ (s.team t).epochAt ≠ some x
      ∧ ((s.team t).started ∨ lock) then
    s.withUpdate t (fun s => s.teamStart t x)
  else s

/-- One bit is captured (R210, R211). -/
def State.bitCapture (s : State) (c : Fin 144) : Capture → State
  | .clocked level moved => s.captureClocked c level (moved.map Fin.val)
  | .manchester rising fine => s.captureMan c rising fine

end Sys2Proof.Machine
end

