-- ==== Sys2Proof/Machine/Order.lean ====
section
/-!
DEFINITION. The order of the commands of one tick (R23, R24, R247, R465, R470; log entry 1): which of two commands that
reach the block in one tick takes effect first, whatever order they come in.
-/
namespace Sys2Proof.Machine

/-- When a command of a tick takes effect among the others of that tick. -/
inductive Turn where
  /-- at a rank of R23, among those of its rank by source index (R24); reads come after everything of their tick, as rank
  12 (R465) -/
  | ranked (rank idx : Nat)
  /-- an event of the device outside the table of R23: before the ranked events of its tick (R253, R470), among its like in
  the order in which the commands come -/
  | device
  /-- in the order in which the commands come -/
  | asIs
  deriving DecidableEq, Repr

/-- A master's write: supervisor cores last in rank 10 (R247), the service port in rank 11. -/
def Master.turn : Master → Turn
  | .supA => .ranked 10 300
  | .supB => .ranked 10 301
  | .svc => .ranked 11 0

/-- The source index of a carrier's update point or start: legs without a phase follow their team. -/
def Carr.index : Carr → Nat
  | .team t => t
  | .leg n => 24 + n

/-- The turn of each command.  Rank 1: trips; 2: interlock; 3: soft-off; 4: safe-state entries; 6: edges; 7: update points;
8: triggers, then the deliveries that a release of the tick finds (R226); 9: releases and the deadlines they are; 10:
commits, Icend deliveries, adoption, stores (R247); 11: the service port; 12: reads (R465). -/
def turnOf : Instr → Turn
  | .resetNLow _ => .ranked 4 1
  | .pgoodLow _ => .ranked 4 2
  | .restartRequest _ m _ => m.turn
  | .referenceFault _ _ => .ranked 4 3
  | .dllUnlock _ line => .ranked 4 (10 + line)
  | .timRateWrite _ m _ => m.turn
  | .timSlewWrite _ m _ => m.turn
  | .timeStep _ m => m.turn
  | .updatePoint _ c => .ranked 7 c.index
  | .periodStart _ c _ => .ranked 7 c.index
  | .epoch _ tm _ => .ranked 7 tm
  | .compareEdge _ n _ => .ranked 6 n
  | .converterTrigger _ n _ _ => .ranked 8 n
  | .periodRestart _ tm _ => .ranked 7 tm
  | .variablePeriodTimeout _ tm _ => .ranked 7 tm
  | .deadTimeEnd _ n _ => .ranked 6 n
  | .reportTimeout _ n _ => .ranked 1 (300 + n)
  | .bothOn _ n => .ranked 1 (400 + n)
  | .interlockCancel _ n _ => .ranked 2 n
  | .bootstrapRefresh _ n => .ranked 6 n
  | .refreshEnd _ n _ => .ranked 6 n
  | .legOvrWrite _ m _ _ => m.turn
  | .teamEnable _ m _ => m.turn
  | .teamDisable _ m _ => m.turn
  | .teamResume _ m _ => m.turn
  | .groupRelease _ g => .ranked 9 (24 + g)
  | .sampleDelivery _ c => .ranked 8 (100 + c)
  | .osrWrite _ m _ _ => m.turn
  | .sampleRelease _ tm => .ranked 9 tm
  | .commitArrival _ k => .ranked 10 k
  | .groupDeadline _ g => .ranked 9 (40 + g)
  | .backgroundRelease _ b => .ranked 9 (32 + b)
  | .backgroundGo _ m _ _ => m.turn
  | .generatorGo _ m _ => m.turn
  | .generatorAbort _ m _ => m.turn
  | .captureArm _ m _ => m.turn
  | .captureStop _ m _ => m.turn
  | .positionSet _ m _ _ => m.turn
  | .ssiGo _ m _ _ _ => m.turn
  | .compareTargetWrite _ m _ _ _ => m.turn
  | .compareEnable _ m _ _ _ => m.turn
  | .comparatorCrossing _ k _ _ _ => .ranked 1 k
  | .tripSeen _ n => .ranked 1 (500 + n)
  | .blankingEnd _ n _ => .ranked 3 n
  | .tripInEdge _ i _ => .ranked 1 (100 + i)
  | .filteredTrip _ _ _ => .ranked 1 200
  | .softOffStep2 _ n _ => .ranked 3 n
  | .tripClear _ m _ => m.turn
  | .safeNLow _ => .ranked 4 0
  | .commitFrameReceive _ _ _ _ _ _ _ _ => .ranked 10 200
  | .actInFall _ => .ranked 4 5
  | .watchdogKick _ m => m.turn
  | .actRelease _ m => m.turn
  | .checkpoint _ q _ => .ranked 10 (300 + q)
  | .receiveDeadline _ => .ranked 10 100
  | .icendFrameReceive _ _ _ _ _ => .ranked 10 100
  | .mailboxPop _ m => m.turn
  | .mailboxSend _ m _ _ _ => m.turn
  | .flswdataWrite _ m _ => m.turn
  | .flseraseWrite _ m _ => m.turn
  | .flsrdataRead _ _ _ => .ranked 12 0
  | .flashFlush _ m _ => m.turn
  | .svcSelectEnd _ _ _ _ => .ranked 11 0
  | .svcNop _ => .ranked 11 0
  | .svcRead _ _ _ => .ranked 11 0
  | .svcReadNext _ _ => .ranked 11 0
  | .svcWrite _ _ _ => .ranked 11 0
  | .svcWriteNext _ _ => .ranked 11 0
  | .svcSelect _ => .ranked 11 0
  | .svcArm _ _ => .ranked 11 0
  | .fuseProgram _ m _ => m.turn
  | .fuseRevoke _ m _ => m.turn
  | .fuseRaiseFloor _ m _ => m.turn
  | .pmsQueueEntry _ m _ _ => m.turn
  | .pmsTxWrite _ m _ _ => m.turn
  | .pmsRxRead _ _ _ => .ranked 12 0
  | .hkEvaluation _ => .ranked 4 4
  | .logWrite _ m _ => m.turn
  | .snapshotCaptureRead _ _ _ _ => .ranked 12 0
  | .registerWrite _ m _ _ _ => m.turn
  | .safeNHigh _ => .ranked 4 6
  | .ladderRampEnd _ p => .ranked 4 (7 + p)
  | .autoRearmRelease _ n => .ranked 5 n
  | .powerOnReset _ | .ceNop _ _ | .ceEnd _ _ | .ceClr _ _ _ | .ceLd _ _ _ _ | .ceAdd _ _ _ _ | .ceSub _ _ _ _
  | .ceLdc _ _ _ _ | .ceMul _ _ _ _ _ | .ceMac _ _ _ _ _ | .ceMsu _ _ _ _ _ | .ceMacs _ _ _ _ _
  | .ceMsus _ _ _ _ _ | .ceSts _ _ _ _ _ | .ceSha _ _ _ _ | .ceNeg _ _ _ | .ceAbs _ _ _ | .ceMin _ _ _ _
  | .ceMax _ _ _ _ | .ceLim _ _ _ _ | .ceLims _ _ _ _ | .ceVlim _ _ _ _ | .ceLdw _ _ _ _ | .ceLdcw _ _ _ _
  | .ceAddw _ _ _ _ | .ceBiq _ _ _ _ _ _ | .ceAmul _ _ _ _ | .ceStw _ _ _ _ | .ceTlu _ _ _ _ _ | .ceSincos _ _ _ _
  | .ceAtan2 _ _ _ | .ceDiv _ _ _ _ | .ceSqrt _ _ _ | .ceTocmp _ _ _ _ _ | .ceSkz _ _ _ _ _ | .ceSks _ _ _ _ _
  | .ceSkn _ _ _ _ | .ceSknn _ _ _ _ | .ceCap _ _ _ _ | .ceSetf _ _ _ | .flashWindowRead _ _ _ _
  | .flashProgramStore _ _ _ _ | .flashEraseStore _ _ _ | .svcSelectStart _ _ | .generalTagFree _ => .asIs
  | .resetHoldoffExpiry _ | .resetRelease _ _ | .pllLock _ | .pllLockTimeout _ | .dllLock _
  | .referenceHoldExpiry _ | .calibrationStep _ _ | .slewComplete _ | .ppsOutRise _ | .ppsOutFall _
  | .ppsInEdge _ _ | .flashInit _ | .flashInitTimeout _ | .memoryClear _ | .selector _ _ _ | .header _ _
  | .crcTable _ _ | .bodyBlockRead _ _ | .blockReread _ _ | .signature _ _ | .verify _ | .apply _ | .overlay _ _
  | .paddockLock _ | .inputBandExit _ _ _ | .warmupComplete _ _ | .restartCrossing _ _ _ | .bitstreamLoss _ _ _
  | .taskStart _ _ | .scrubStep _ _ | .edgeAccept _ _ _ _ _ | .hallCodeTimeout _ _ | .ssiRequest _ _ _
  | .ssiFrameEnd _ _ _ _ | .speedZero _ _ | .probeLatch _ _ _ | .comparePulseEnd _ _ _ | .emulationStep _ _
  | .edgeTimeout _ _ | .freezeDetect _ _ | .comparatorSample _ _ _ _ | .reportChange _ _ _ _ _
  | .identSend _ | .identReceive _ _ _ _ _ | .joinTimeout _ | .heartbeatSend _
  | .heartbeatReceive _ _ _ _ | .heartbeatTimeout _ | .laneSyncLoss _ _ | .actInRise _ | .actConflict _
  | .watchdogExpiry _ | .viewRuleExpiry _ | .lockstepMismatch _ _ | .linkUp _ _ _ | .linkDown _ _
  | .syncReceive _ _ _ _ _ _ _ _ _ _ | .followUpReceive _ _ _ _ _ _ _ | .announceReceive _ _ _ _ _ _
  | .announceSend _ | .syncSend _ | .pdelayReqSend _ _ | .pdelayReqReceive _ _ _ _ _
  | .pdelayRespReceive _ _ _ _ _ _ _ _ _ | .syncTimeout _ | .holdmaxExpiry _ | .ppsLoss _ | .icendCycleBoundary _
  | .dataFrameSend _ | .repairReqReceive _ _ _ _ _ | .helloSend _ | .helloReceive _ _ _ _ _ _ | .joinComplete _
  | .otherFrameReceive _ _ _ _ _ | .mailboxSent _ _ | .egressFrameStart _ _ _ | .gatherTimeout _
  | .flashOperationEnd _ _ | .flashOperationTimeout _ | .fuseOperationDone _ _ | .pmsEntryStart _ _ _
  | .pmsEntryDone _ _ | .pmsSlaveWord _ _ _ | .pmsSlaveRelease _ _ _ _ | .hkSlot _ _ _ _ _ _
  | .shutdownGraceExpiry _ | .shutdownClockStop _ | .feedCondition _ _ _ _ | .feedOverlapEnd _ | .feedHealthy _ _
  | .feedRevert _ | .journalCommit _ _ | .journalScan _ _ _ | .bitCapture _ _ _ | .decodeError _ _
  | .overCurrentCondition _ _ _ | .laneInSync _ _ | .announceReceiptTimeout _ | .unsupportedPtpMessage _ _
  | .partnerClockedSsiFrame _ _ => .device

/-- Command `c` takes effect before command `d` of the same tick. -/
def comesBefore (c d : Instr) : Bool :=
  match turnOf c, turnOf d with
  | .ranked r i, .ranked r' i' => decide (r < r') || (r == r' && decide (i < i'))
  | .device, .ranked _ _ => true
  | _, _ => false

/-- A command in its turn among those that have acted: before the first that it comes before. -/
def insertTurn (c : Instr) : List Instr → List Instr
  | [] => [c]
  | d :: r => if comesBefore c d then c :: d :: r else d :: insertTurn c r

end Sys2Proof.Machine
end

