-- ==== Sys2Proof/Machine/Act.lean ====
section
/-!
DEFINITION. What each command does, and how it reaches the block (log entry 1): time passes to its tick, and among the
commands of one tick those of an earlier rank act first (R23), whatever order they come in.
-/
namespace Sys2Proof.Machine

/-- The effect of each command in its tick, over the operations of the other files. -/
def State.act (s : State) : Instr → State
  | .powerOnReset _ => s.any_ (fun s => s.resetDevice .por)
  | .resetNLow _ => s.any_ (fun s => s.resetRequest .pin)
  | .pgoodLow _ => s.any_ (fun s => s.resetRequest .pgood)
  | .restartRequest _ m v => s.any_ (fun s => s.masterWrite m A.IDG_RESTART v)
  | .resetHoldoffExpiry _ => s.any_ (fun s => s.holdoffEnd)
  | .resetRelease _ test => s.any_ (fun s => s.resetRelease test)
  | .pllLock _ => s.any_ (fun s => s.pllLock)
  | .pllLockTimeout _ => s.any_ (fun s => s.pllTimeout)
  | .dllLock _ => s.at_ (fun s => s.dllLock)
  | .referenceFault _ lost => s.at_ (fun s => s.refFaultDev lost)
  | .referenceHoldExpiry _ => s.at_ (fun s => s.refHold)
  | .dllUnlock _ line => s.at_ (fun s => s.dllUnlockDev line)
  | .calibrationStep _ table => s.at_ (fun s => s.calStep table)
  | .timRateWrite _ m v => s.any_ (fun s => s.masterWrite m A.TIM_RATE v)
  | .timSlewWrite _ m v => s.any_ (fun s => s.masterWrite m A.TIM_SLEW v)
  | .slewComplete _ => s.at_ (fun s => s.slewDone.slewStage)
  | .timeStep _ m => s.any_ (fun s => s.masterWrite m A.TIM_STEPCTL (bitOf F.TIM_STEPCTL_GO))
  | .ppsOutRise _ => s.at_ (fun s => s.ppsRise)
  | .ppsOutFall _ => s.at_ (fun s => s.ppsFall)
  | .ppsInEdge _ fine => s.at_ (fun s => (s.ppsIn fine).ppsLoop fine)
  | .flashInit _ => s.at_ (fun s => s.flashInit)
  | .flashInitTimeout _ => s.at_ (fun s => s.flashInitTimeout)
  | .memoryClear _ => s.at_ (fun s => s.memoryClear)
  | .selector _ copy0 copy1 => s.at_ (fun s => s.selector copy0 copy1)
  | .header _ bytes => s.at_ (fun s => s.headerRead bytes)
  | .crcTable _ bytes => s.at_ (fun s => s.tableRead bytes)
  | .bodyBlockRead _ bytes => s.at_ (fun s => s.bodyBlock bytes)
  | .blockReread _ bytes => s.at_ (fun s => s.reread bytes)
  | .signature _ bytes => s.at_ (fun s => s.sigRead bytes)
  | .verify _ => s.at_ (fun s => s.verify)
  | .apply _ => s.at_ (fun s => s.apply)
  | .overlay _ bytes => s.at_ (fun s => s.overlayRead bytes)
  | .paddockLock _ => s.at_ (fun s => s.paddockLock)
  | .inputBandExit _ b fault => s.at_ (fun s => s.bandExit b fault)
  | .warmupComplete _ u => s.at_ (fun s => s.warmComplete u)
  | .updatePoint _ c => s.at_ (fun s => s.updatePoint c)
  | .periodStart _ c fine => s.at_ (fun s => s.periodStart c fine)
  | .epoch _ tm fine => s.at_ (fun s => s.epochArrives tm fine)
  | .compareEdge _ n fine => s.at_ (fun s => s.compareEdge n fine)
  | .converterTrigger _ n c d =>
    s.at_ (fun s => s.converterTrigger n (c.map (fun x => s.inst x)) (d.map (fun x => s.inst x)))
  | .restartCrossing _ tm rising => s.at_ (fun s => s.restartCrossing tm rising)
  | .periodRestart _ tm fine => s.at_ (fun s => s.withUpdate tm (fun s => s.periodRestart tm fine))
  | .variablePeriodTimeout _ tm fine => s.at_ (fun s => s.withUpdate tm (fun s => s.periodTimeout tm fine))
  | .deadTimeEnd _ n fine => s.at_ (fun s => s.deadTimeEnd n fine)
  | .reportChange _ n sw level fine => s.at_ (fun s => s.reportChange n sw level fine)
  | .reportTimeout _ n sw => s.at_ (fun s => s.reportTimeout n sw)
  | .bothOn _ n => s.at_ (fun s => s.bothOn n)
  | .interlockCancel _ n fine => s.at_ (fun s => s.ilkCancel n fine)
  | .bootstrapRefresh _ n => s.at_ (fun s => s.bootRefresh n)
  | .refreshEnd _ n fine => s.at_ (fun s => s.refreshEnd n fine)
  | .legOvrWrite _ m n v => s.any_ (fun s => s.masterWrite m (A.LEG_OVR n) v)
  | .teamEnable _ m tm => s.any_ (fun s => s.masterWrite m (A.TEAM_CTL tm) (bitOf (F.TEAM_CTL_EN tm)))
  | .teamDisable _ m tm => s.any_ (fun s => s.masterWrite m (A.TEAM_CTL tm) 0)
  | .teamResume _ m tm =>
    s.any_ (fun s => s.masterWrite m (A.TEAM_CTL tm) (bitOf (F.TEAM_CTL_EN tm) ||| bitOf (F.TEAM_CTL_RESUME tm)))
  | .groupRelease _ g => s.at_ (fun s => s.groupRelease g)
  | .sampleDelivery _ c => s.at_ (fun s => s.sdmDeliver c)
  | .bitstreamLoss _ c det => s.at_ (fun s => s.sdmLoss c det)
  | .osrWrite _ m c v => s.any_ (fun s => s.masterWrite m (A.SDM_OSR c) v)
  | .sampleRelease _ tm => s.at_ (fun s => s.sampleRelease tm)
  | .taskStart _ l => s.at_ (fun s => s.taskStart l)
  | .commitArrival _ k => s.at_ (fun s => s.commitArrive k)
  | .groupDeadline _ g => s.at_ (fun s => s.groupDeadline g)
  | .backgroundRelease _ b => s.at_ (fun s => s.bgPeriodic b)
  | .backgroundGo _ m b v => s.any_ (fun s => s.masterWrite m (A.CE_BGCFG b) (v ||| bitOf (F.CE_BGCFG_GO b)))
  | .scrubStep _ chk => s.at_ (fun s => s.scrubStep chk)
  | .ceNop l chk => s.ceOp l ⟨0x00, 0, 0, 0, 0⟩ chk (pureOp (fun _ r => r))
  | .ceEnd l chk => s.ceEnd l ⟨0x01, 0, 0, 0, 0⟩ chk
  | .ceClr l a chk => s.ceOp l ⟨0x02, a, 0, 0, 0⟩ chk (pureOp (fun _ r => r.setAcc a 0))
  | .ceLd l a x chk => s.ceOp l ⟨0x03, a, x, 0, 0⟩ chk (bodyAcc a (fun s r _ => sigAcc (s.sig r x)))
  | .ceAdd l a x chk => s.ceOp l ⟨0x04, a, x, 0, 0⟩ chk (bodyAcc a (fun s r v => v + sigAcc (s.sig r x)))
  | .ceSub l a x chk => s.ceOp l ⟨0x05, a, x, 0, 0⟩ chk (bodyAcc a (fun s r v => v - sigAcc (s.sig r x)))
  | .ceLdc l a y chk => s.ceOp l ⟨0x06, a, 0, y, 0⟩ chk (bodyAcc a (fun s r _ => s.coefVal r y))
  | .ceMul l a x y chk => s.ceOp l ⟨0x07, a, x, y, 0⟩ chk (bodyAcc a (fun s r _ => s.prodC r x y))
  | .ceMac l a x y chk => s.ceOp l ⟨0x08, a, x, y, 0⟩ chk (bodyAcc a (fun s r v => v + s.prodC r x y))
  | .ceMsu l a x y chk => s.ceOp l ⟨0x09, a, x, y, 0⟩ chk (bodyAcc a (fun s r v => v - s.prodC r x y))
  | .ceMacs l a x y chk =>
    s.ceOp l ⟨0x0A, a, x, y, 0⟩ chk (bodyAcc a (fun s r v => v + mulSig (s.sig r x) (s.sig r y)))
  | .ceMsus l a x y chk =>
    s.ceOp l ⟨0x0B, a, x, y, 0⟩ chk (bodyAcc a (fun s r v => v - mulSig (s.sig r x) (s.sig r y)))
  | .ceSts l a x m chk => s.ceOp l ⟨0x0C, a, x, 0, m⟩ chk (bodySTS a x m)
  | .ceSha l a y chk => s.ceOp l ⟨0x0D, a, 0, y, 0⟩ chk (bodyAcc a (fun _ _ v => scaleRnd v (toSigned 5 y)))
  | .ceNeg l a chk => s.ceOp l ⟨0x0E, a, 0, 0, 0⟩ chk (bodyNeg a (fun _ => true))
  | .ceAbs l a chk => s.ceOp l ⟨0x0F, a, 0, 0, 0⟩ chk (bodyNeg a (fun v => decide (v < 0)))
  | .ceMin l a x chk => s.ceOp l ⟨0x10, a, x, 0, 0⟩ chk (bodyAcc a (fun s r v => min v (sigAcc (s.sig r x))))
  | .ceMax l a x chk => s.ceOp l ⟨0x11, a, x, 0, 0⟩ chk (bodyAcc a (fun s r v => max v (sigAcc (s.sig r x))))
  | .ceLim l a y chk => s.ceOp l ⟨0x12, a, 0, y, 0⟩ chk (bodyLIM a y)
  | .ceLims l a x chk =>
    s.ceOp l ⟨0x13, a, x, 0, 0⟩ chk
      (bodyAcc a (fun s r v => clampI (-((sigAcc (s.sig r x)).natAbs : Int)) (sigAcc (s.sig r x)).natAbs v))
  | .ceVlim l a x chk => s.ceOp l ⟨0x14, a, x, 0, 0⟩ chk (bodyVLIM a x)
  | .ceLdw l a x chk => s.ceOp l ⟨0x15, a, x, 0, 0⟩ chk (pureOp (fun s r => r.rawTo a (s.sig r x).toNat))
  | .ceLdcw l a y chk =>
    s.ceOp l ⟨0x16, a, 0, y, 0⟩ chk (pureOp (fun s r => r.rawTo a (s.coefWord (s.coefIdx r y)).toNat))
  | .ceAddw l a x chk =>
    s.ceOp l ⟨0x17, a, x, 0, 0⟩ chk (pureOp (fun s r => r.rawTo a (accRaw (r.acc a) + (s.sig r x).toNat)))
  | .ceBiq l a x y m chk => s.ceOp l ⟨0x18, a, x, y, m⟩ chk (bodyBIQ a x y m)
  | .ceAmul l a y chk => s.ceOp l ⟨0x19, a, 0, y, 0⟩ chk (bodyAMUL a y)
  | .ceStw l a x chk =>
    s.ceOp l ⟨0x1A, a, x, 0, 0⟩ chk (pureOp (fun s r => s.sigSet r x (BitVec.ofNat 32 (accRaw (r.acc a)))))
  | .ceTlu l a x y chk => s.ceOp l ⟨0x1B, a, x, y, 0⟩ chk (bodyTLU a x y)
  | .ceSincos l a x chk => s.ceOp l ⟨0x1C, a, x, 0, 0⟩ chk (bodySINCOS a x)
  | .ceAtan2 l a chk =>
    s.ceOp l ⟨0x1D, a, 0, 0, 0⟩ chk (pureOp (fun _ r => r.rawTo a (atan2 (r.acc (a + 1)) (r.acc a))))
  | .ceDiv l a x chk => s.ceOp l ⟨0x1E, a, x, 0, 0⟩ chk (bodyDIV a x)
  | .ceSqrt l a chk => s.ceOp l ⟨0x1F, a, 0, 0, 0⟩ chk (bodySQRT a)
  | .ceTocmp l a x m chk =>
    s.ceOp l ⟨0x20, a, x, 0, m⟩ chk (pureOp (fun s r => s.sigSet r x (BitVec.ofNat 32 (toCmp m (r.acc a)))))
  | .ceSkz l x y m chk => s.ceOp l ⟨0x21, 0, x, y, m⟩ chk (bodySkip m (fun s r => bitsGet (s.sig r x) y 1 == 0))
  | .ceSks l x y m chk => s.ceOp l ⟨0x22, 0, x, y, m⟩ chk (bodySkip m (fun s r => bitsGet (s.sig r x) y 1 == 1))
  | .ceSkn l a m chk => s.ceOp l ⟨0x23, a, 0, 0, m⟩ chk (bodySkip m (fun _ r => decide (r.acc a < 0)))
  | .ceSknn l a m chk => s.ceOp l ⟨0x24, a, 0, 0, m⟩ chk (bodySkip m (fun _ r => decide (0 ≤ r.acc a)))
  | .ceCap l x y chk => s.ceOp l ⟨0x25, 0, x, y, 0⟩ chk (bodyCAP x y)
  | .ceSetf l y chk => s.ceOp l ⟨0x26, 0, 0, y, 0⟩ chk (bodySETF y)
  | .generatorGo _ m g => s.any_ (fun s => s.masterWrite m (A.CE_GENCTL g) (bitOf (F.CE_GENCTL_GO g)))
  | .generatorAbort _ m g => s.any_ (fun s => s.masterWrite m (A.CE_GENCTL g) (bitOf (F.CE_GENCTL_ABORT g)))
  | .captureArm _ m c => s.any_ (fun s => s.masterWrite m (A.CE_CAPCTL c) (bitOf (F.CE_CAPCTL_ARM c)))
  | .captureStop _ m c => s.any_ (fun s => s.masterWrite m (A.CE_CAPCTL c) (bitOf (F.CE_CAPCTL_STOP c)))
  | .edgeAccept _ p acc raw rej => s.at_ (fun s => s.edgeAccept p acc raw rej.val)
  | .positionSet _ m p v => s.any_ (fun s => s.masterWrite m (A.FBK_POSSET p) v)
  | .hallCodeTimeout _ p => s.at_ (fun s => s.hallTimeout p)
  | .ssiRequest _ p dat => s.at_ (fun s => s.ssiRequest p dat)
  | .ssiGo _ m p v dat => s.any_ (fun s => s.ssiGoWrite m p v dat)
  | .ssiFrameEnd _ p bits lost => s.at_ (fun s => s.ssiFrameEnd p bits lost)
  | .speedZero _ p => s.at_ (fun s => s.speedZero p)
  | .probeLatch _ p level => s.at_ (fun s => s.probeLatch p level)
  | .compareTargetWrite _ m p k v => s.any_ (fun s => s.masterWrite m (A.FBK_CMPTGT p k) v)
  | .compareEnable _ m p k v =>
    s.any_ (fun s => s.masterWrite m (A.FBK_CMPCFG p k) (v ||| bitOf (F.FBK_CMPCFG_EN p k)))
  | .comparePulseEnd _ p k => s.at_ (fun s => s.pulseEnd p k)
  | .emulationStep _ o => s.at_ (fun s => s.outStep o)
  | .edgeTimeout _ p => s.at_ (fun s => s.edgeTimeout p)
  | .freezeDetect _ p => s.at_ (fun s => s.freezeDetect p)
  | .ladderRampEnd _ p => s.at_ (fun s => s.ladderEnd p)
  | .comparatorCrossing _ k mv fr fine => s.at_ (fun s => s.cmpCrossing k (16 * mv.toNat + fr) fine)
  | .comparatorSample _ k mv fr => s.at_ (fun s => s.cmpSample k (16 * mv.toNat + fr))
  | .tripSeen _ n => s.at_ (fun s => s.tripSeen n)
  | .blankingEnd _ n fine => s.at_ (fun s => s.blankingEnd n fine)
  | .tripInEdge _ i lvl => s.at_ (fun s => s.tinEdge i lvl)
  | .filteredTrip _ src c => s.at_ (fun s => s.filteredTrip src c)
  | .softOffStep2 _ n fine => s.at_ (fun s => s.softOffStep2 n fine)
  | .tripClear _ m n => s.any_ (fun s => s.masterWrite m (A.LEG_TRIPCLR n) (bitOf (F.LEG_TRIPCLR_CLR n)))
  | .autoRearmRelease _ n => s.at_ (fun s => s.autoRearm n)
  | .safeNLow t => s.at_ (fun s => s.safeNLow t.ball)
  | .safeNHigh t => s.at_ (fun s => s.safeNHigh t.ball)
  | .identSend _ => s.at_ (fun s => s.identSend)
  | .identReceive _ good stateId pdkId addr => s.at_ (fun s => s.identReceive good stateId pdkId addr.toNat)
  | .joinTimeout _ => s.at_ (fun s => s.joinTimeout)
  | .heartbeatSend _ => s.at_ (fun s => s.hbSend)
  | .heartbeatReceive _ good ofs h => s.at_ (fun s => s.hbReceive good ofs h)
  | .heartbeatTimeout _ => s.at_ (fun s => s.hbTimeout)
  | .laneSyncLoss _ j => s.at_ (fun s => s.laneDown j)
  | .commitFrameReceive _ good k rel consec words range obs =>
    s.at_ (fun s => s.commitReceive good k rel consec words range obs)
  | .actInFall _ => s.at_ (fun s => s.actFall)
  | .actInRise _ => s.at_ (fun s => s.actRise)
  | .actConflict _ => s.at_ (fun s => s.actConflict)
  | .watchdogKick _ m => s.any_ (fun s => s.masterWrite m A.YOK_WDKICK (bitOf F.YOK_WDKICK_KICK))
  | .watchdogExpiry _ => s.at_ (fun s => s.wdExpiry)
  | .viewRuleExpiry _ => s.at_ (fun s => s.viewRule)
  | .actRelease _ m => s.any_ (fun s => s.masterWrite m A.YOK_CTL (bitOf F.YOK_CTL_RELEASE))
  | .checkpoint _ q stores => s.at_ (fun s => s.checkpoint q stores)
  | .lockstepMismatch _ q => s.at_ (fun s => s.lockstepMismatch q)
  | .linkUp _ p rf => s.at_ (fun s => s.linkUp p rf)
  | .linkDown _ p => s.at_ (fun s => s.linkDown p)
  | .syncReceive _ p ps src seq dom two origin corr hops =>
    s.at_ (fun s => s.syncReceive p ps src seq dom two origin corr hops)
  | .followUpReceive _ p src seq dom origin corr => s.at_ (fun s => s.followUpReceive p src seq dom origin corr)
  | .announceReceive _ p src seq dom gm => s.at_ (fun s => s.announceReceive p src seq dom gm)
  | .announceSend _ => s.at_ (fun s => s.announceSend)
  | .syncSend _ => s.at_ (fun s => s.syncSend)
  | .pdelayReqSend _ p => s.at_ (fun s => s.pdelaySend p)
  | .pdelayReqReceive _ p ps src seq => s.at_ (fun s => s.pdelayAnswer p ps src seq)
  | .pdelayRespReceive _ p ps fup two req seq ts corr => s.at_ (fun s => s.pdelayResp p ps fup two req seq ts corr)
  | .syncTimeout _ => s.at_ (fun s => s.syncTimeout)
  | .holdmaxExpiry _ => s.at_ (fun s => s.holdmax)
  | .ppsLoss _ => s.at_ (fun s => s.ppsLoss)
  | .icendCycleBoundary _ => s.at_ (fun s => s.cycleBoundary)
  | .dataFrameSend _ => s.at_ (fun s => s.dataSend)
  | .receiveDeadline _ => s.at_ (fun s => s.receiveDeadline)
  | .icendFrameReceive _ p bytes good tagged => s.at_ (fun s => s.icendReceive p bytes good tagged)
  | .repairReqReceive _ p bytes good tagged => s.at_ (fun s => s.repairReceive p bytes good tagged)
  | .helloSend _ => s.at_ (fun s => s.helloSend)
  | .helloReceive _ p mac bytes good tagged => s.at_ (fun s => s.helloReceive p mac.toNat bytes good tagged)
  | .joinComplete _ => s.at_ (fun s => s.joinComplete)
  | .otherFrameReceive _ p bytes good ps => s.at_ (fun s => s.otherReceive p bytes good ps)
  | .mailboxPop _ m => s.any_ (fun s => s.masterWrite m A.NET_MBXRXPOP (bitOf F.NET_MBXRXPOP_POP))
  | .mailboxSend _ m port u len => s.any_ (fun s => s.masterWrite m A.NET_MBXTXCTL (mailWord port u len.toNat))
  | .mailboxSent _ u => s.at_ (fun s => s.mailSent u)
  | .egressFrameStart _ p ps => s.at_ (fun s => s.egressStart p ps)
  | .flashWindowRead _ q a line => s.at_ (fun s => s.winRead q.core q.fetch a.toNat line)
  | .flashProgramStore _ q a bytes => s.at_ (fun s => s.flashStore q (fun s w => s.progStore w a.toNat bytes))
  | .flashEraseStore _ q a => s.at_ (fun s => s.flashStore q (fun s w => s.eraseStore w a.toNat))
  | .flswdataWrite _ m v => s.any_ (fun s => s.masterWrite m A.SER_FLSWDATA v)
  | .flseraseWrite _ m v => s.any_ (fun s => s.masterWrite m A.SER_FLSERASE v)
  | .flsrdataRead _ m data => s.any_ (fun s => s.flsrdataRead m data)
  | .flashFlush _ m v => s.any_ (fun s => s.masterWrite m A.SER_FLSCTL (v ||| bitOf F.SER_FLSCTL_FLUSH))
  | .gatherTimeout _ => s.at_ (fun s => s.flsGatherTimeout)
  | .flashOperationEnd _ good => s.at_ (fun s => s.flsEnd good)
  | .flashOperationTimeout _ => s.at_ (fun s => s.flsTimeout)
  | .svcSelectStart _ bypass => s.any_ (fun s => s.svcSelectStart bypass)
  | .svcSelectEnd _ k bits ext => s.any_ (fun s => s.svcSelectEnd k bits.toNat ext)
  | .svcNop _ => s.any_ (fun s => s.svcFrame .nop 0 0 0)
  | .svcRead _ a ext => s.any_ (fun s => s.svcFrame .read a.toNat 0 ext)
  | .svcReadNext _ ext => s.any_ (fun s => s.svcFrame .readNext 0 0 ext)
  | .svcWrite _ a v => s.any_ (fun s => s.svcFrame .write a.toNat v 0)
  | .svcWriteNext _ v => s.any_ (fun s => s.svcFrame .writeNext 0 v 0)
  | .svcSelect _ => s.any_ (fun s => s.svcFrame .select 0 0 0)
  | .svcArm _ v => s.any_ (fun s => s.svcFrame .arm 0 v 0)
  | .fuseProgram _ m slot => s.any_ (fun s => s.masterWrite m A.SER_FUSECTL (fuseWord (.program slot)))
  | .fuseRevoke _ m slot => s.any_ (fun s => s.masterWrite m A.SER_FUSECTL (fuseWord (.revoke slot)))
  | .fuseRaiseFloor _ m f => s.any_ (fun s => s.masterWrite m A.SER_FUSECTL (fuseWord (.floor f.toNat)))
  | .fuseOperationDone _ good => s.any_ (fun s => s.fuseDone good)
  | .pmsQueueEntry _ m q v => s.any_ (fun s => s.masterWrite m (A.SER_PMSQ q) v)
  | .pmsEntryStart _ q answer => s.at_ (fun s => s.pmsStart q answer)
  | .pmsEntryDone _ q => s.at_ (fun s => s.pmsDone q)
  | .pmsTxWrite _ m q v => s.any_ (fun s => s.masterWrite m (A.SER_PMSTX q) v)
  | .pmsRxRead _ m q => s.any_ (fun s => s.masterRead m (A.SER_PMSRX q) 0)
  | .pmsSlaveWord _ q w => s.at_ (fun s => s.pmsSlaveWord q w)
  | .pmsSlaveRelease _ q b w => s.at_ (fun s => s.pmsRelease q b w)
  | .hkSlot _ ch code temp flag out => s.any_ (fun s => s.hkSlot ch code.toNat temp flag out)
  | .hkEvaluation _ => s.any_ (fun s => s.hkEvaluate)
  | .shutdownGraceExpiry _ => s.any_ (fun s => s.graceExpiry)
  | .shutdownClockStop _ => s.any_ (fun s => s.clockStop.yokCheck)
  | .feedCondition _ b c lvl => s.any_ (fun s => s.feedCondition b c lvl)
  | .feedOverlapEnd _ => s.any_ (fun s => s.feedOverlapEnd)
  | .feedHealthy _ b => s.any_ (fun s => s.feedHealthy b)
  | .feedRevert _ => s.any_ (fun s => s.feedRevert)
  | .journalCommit _ good => s.at_ (fun s => s.jrnCommit good)
  | .journalScan _ recs blank => s.at_ (fun s => s.jrnScan recs blank)
  | .logWrite _ m v => s.any_ (fun s => s.masterWrite m A.EVT_LOGWR v)
  | .snapshotCaptureRead _ m a width => s.any_ (fun s => s.registerRead m a.toNat width)
  | .registerWrite _ m a v width => s.any_ (fun s => s.registerWrite m a.toNat v width)
  | .generalTagFree _ => s.at_ (fun s => s.tagFreed)
  | .bitCapture _ c b => s.at_ (fun s => s.bitCapture c b)
  | .decodeError _ c => s.at_ (fun s => s.decodeError c)
  | .overCurrentCondition _ c cond => s.at_ (fun s => s.overCurrent c cond)
  | .laneInSync _ j => s.at_ (fun s => s.laneUp j)
  | .announceReceiptTimeout _ => s.at_ (fun s => s.announceTimeout)
  | .unsupportedPtpMessage _ p => s.at_ (fun s => s.ptpUnsupported p)
  | .partnerClockedSsiFrame _ p => s.at_ (fun s => s.ssiPartnerStart p)

/-! ## The order of one tick -/

/-- The commands that have acted in the present tick. -/
def State.actedNow (s : State) : List Instr := if s.actedAt = s.now then s.acted else []

/-- A command that may trip legs.  All of one tick latch before a team is looked at (R324). -/
def mayTrip : Instr → Bool
  | .filteredTrip _ _ _ | .tripSeen _ _ | .reportChange _ _ _ _ _ | .reportTimeout _ _ _ | .bothOn _ _ => true
  | _ => false

/-- The event that a command names is due as the block stands: a compare edge, or a dead-time end, that an update point of
the same tick has placed is not due before it (log entry 1). -/
def State.finds (s : State) : Instr → Bool
  | .compareEdge _ n fine => (s.edgeAt n (s.inst fine)).isSome
  | .deadTimeEnd _ n fine => (match (s.leg n).pend with
    | some p => p.at_ == s.inst fine
    | none => false)
  | _ => true

/-- No command of a later turn has acted in this tick, and no other one that trips before this one. -/
def State.inTurn (s : State) (c : Instr) : Bool :=
  s.actedNow.all (fun d => !comesBefore c d && !(mayTrip c && mayTrip d))

/-- State `u` with the record of its tick: command `c` has acted on `a`. -/
def State.after (u a : State) (c : Instr) : State :=
  { u with base := if a.actedAt = a.now then a.base else a.toBody, acted := a.actedNow ++ [c], actedAt := a.now }

/-- Teams wait, or no longer wait, for further trips of this tick. -/
def State.holdTrips (s : State) (on : Bool) : State := { s with same := { s.same.of s.now with hold := on } }

/-- Commands act one after the other; no team is looked at before the last of them that may trip. -/
def State.actAll (s : State) : List Instr → State
  | [] => s
  | c :: r =>
    let a := s.advance s.now
    let u := if !mayTrip c then a.act c
      else if r.any mayTrip then (a.holdTrips true).act c
      else
        let v := ((a.holdTrips true).act c).holdTrips false
        (each allTeams (fun t s => s.teamTripCheck t) v).yokCheck
    State.actAll (u.after a c) r

/-- The commands of this tick act again, in the order of a list, from what the first of them found. -/
def State.replay (s : State) (l : List Instr) : State :=
  State.actAll { s with toBody := s.base, acted := [], actedAt := s.base.now } l

/-- A command reaches the block at tick t: it acts in its turn (R23, R24); where it names an event that is not due at its
turn, it acts where it comes. -/
def State.command (s : State) (t : Tick) (c : Instr) : State :=
  let a := s.advance t
  if a.inTurn c then (a.act c).after a c
  else if (a.replay (a.actedNow.takeWhile (fun d => !comesBefore c d))).finds c then a.replay (insertTurn c a.actedNow)
  else (a.act c).after a c

/-- An operation of a running program acts where its run stands. -/
def State.inRun (s : State) (c : Instr) : State := (s.act c).after s c

end Sys2Proof.Machine
end

