-- ==== Sys2Proof/Machine/CmdBoot.lean ====
section
/-!
DEFINITION. The meanings of the commands of clock bring-up, reset and device time (chapters 02 and 04).
-/
namespace Sys2Proof.Machine

/-- POWER_ON_RESET (R110). -/
def execPowerOnReset (t : Tick) (s : State) : Host.Outcome State Fault Refusal :=
  .next (s.command t (.powerOnReset t))

/-- RESET_N_LOW (R110). -/
def execResetNLow (t : Tick) (s : State) : Host.Outcome State Fault Refusal :=
  .next (s.command t (.resetNLow t))

/-- PGOOD_LOW (R110). -/
def execPgoodLow (t : Tick) (s : State) : Host.Outcome State Fault Refusal :=
  .next (s.command t (.pgoodLow t))

/-- RESTART_REQUEST (R111). -/
def execRestartRequest (t : Tick) (m : Master) (v : Word) (s : State) : Host.Outcome State Fault Refusal :=
  .next (s.command t (.restartRequest t m v))

/-- RESET_HOLDOFF_EXPIRY (R111). -/
def execResetHoldoffExpiry (t : Tick) (s : State) : Host.Outcome State Fault Refusal :=
  .next (s.command t (.resetHoldoffExpiry t))

/-- RESET_RELEASE (R45). -/
def execResetRelease (t : Tick) (test : Bool) (s : State) : Host.Outcome State Fault Refusal :=
  .next (s.command t (.resetRelease t test))

/-- PLL_LOCK (R45). -/
def execPllLock (t : Tick) (s : State) : Host.Outcome State Fault Refusal :=
  .next (s.command t (.pllLock t))

/-- PLL_LOCK_TIMEOUT (R45). -/
def execPllLockTimeout (t : Tick) (s : State) : Host.Outcome State Fault Refusal :=
  .next (s.command t (.pllLockTimeout t))

/-- DLL_LOCK (R45). -/
def execDllLock (t : Tick) (s : State) : Host.Outcome State Fault Refusal :=
  .next (s.command t (.dllLock t))

/-- REFERENCE_FAULT (R46). -/
def execReferenceFault (t : Tick) (lost : Bool) (s : State) : Host.Outcome State Fault Refusal :=
  .next (s.command t (.referenceFault t lost))

/-- REFERENCE_HOLD_EXPIRY (R46). -/
def execReferenceHoldExpiry (t : Tick) (s : State) : Host.Outcome State Fault Refusal :=
  .next (s.command t (.referenceHoldExpiry t))

/-- DLL_UNLOCK (R67). -/
def execDllUnlock (t : Tick) (line : Fin 362) (s : State) : Host.Outcome State Fault Refusal :=
  .next (s.command t (.dllUnlock t line))

/-- CALIBRATION_STEP (R64). -/
def execCalibrationStep (t : Tick) (table : List Int) (s : State) : Host.Outcome State Fault Refusal :=
  .next (s.command t (.calibrationStep t table))

/-- TIM_RATE_WRITE (R59). -/
def execTimRateWrite (t : Tick) (m : Master) (v : Word) (s : State) : Host.Outcome State Fault Refusal :=
  .next (s.command t (.timRateWrite t m v))

/-- TIM_SLEW_WRITE (R58). -/
def execTimSlewWrite (t : Tick) (m : Master) (v : Word) (s : State) : Host.Outcome State Fault Refusal :=
  .next (s.command t (.timSlewWrite t m v))

/-- SLEW_COMPLETE (R58). -/
def execSlewComplete (t : Tick) (s : State) : Host.Outcome State Fault Refusal :=
  .next (s.command t (.slewComplete t))

/-- TIME_STEP (R60). -/
def execTimeStep (t : Tick) (m : Master) (s : State) : Host.Outcome State Fault Refusal :=
  .next (s.command t (.timeStep t m))

/-- PPS_OUT_RISE (R63). -/
def execPpsOutRise (t : Tick) (s : State) : Host.Outcome State Fault Refusal :=
  .next (s.command t (.ppsOutRise t))

/-- PPS_OUT_FALL (R63). -/
def execPpsOutFall (t : Tick) (s : State) : Host.Outcome State Fault Refusal :=
  .next (s.command t (.ppsOutFall t))

/-- PPS_IN_EDGE (R63). -/
def execPpsInEdge (t : Tick) (fine : Fin 256) (s : State) : Host.Outcome State Fault Refusal :=
  .next (s.command t (.ppsInEdge t fine))

end Sys2Proof.Machine
end

