-- ==== Sys2Proof/Machine/CmdBus.lean ====
section
/-!
DEFINITION. The meanings of the commands of supervisor pairs, the register file and general tags (chapters 01, 13 and 17).
-/
namespace Sys2Proof.Machine

/-- CHECKPOINT (R355). -/
def execCheckpoint (t : Tick) (q : Fin 2) (stores : List EgStore) (s : State) : Host.Outcome State Fault Refusal :=
  .next (s.command t (.checkpoint t q stores))

/-- LOCKSTEP_MISMATCH (R356). -/
def execLockstepMismatch (t : Tick) (q : Fin 2) (s : State) : Host.Outcome State Fault Refusal :=
  .next (s.command t (.lockstepMismatch t q))

/-- SNAPSHOT_CAPTURE_READ (R466). -/
def execSnapshotCaptureRead (t : Tick) (m : Master) (a : BitVec 24) (width : Width) (s : State) :
    Host.Outcome State Fault Refusal :=
  .next (s.command t (.snapshotCaptureRead t m a width))

/-- REGISTER_WRITE (R469). -/
def execRegisterWrite (t : Tick) (m : Master) (a : BitVec 24) (v : Word) (width : Width) (s : State) :
    Host.Outcome State Fault Refusal :=
  .next (s.command t (.registerWrite t m a v width))

/-- GENERAL_TAG_FREE (R27). -/
def execGeneralTagFree (t : Tick) (s : State) : Host.Outcome State Fault Refusal :=
  .next (s.command t (.generalTagFree t))

end Sys2Proof.Machine
end

