-- ==== Sys2Proof/Machine/CmdCe.lean ====
section
/-!
DEFINITION. The meanings of the commands of the operations of a control-engine program (chapter 09).
-/
namespace Sys2Proof.Machine

/-- NOP (R239). -/
def execCeNop (l : Fin 16) (chk : Chk) (s : State) : Host.Outcome State Fault Refusal :=
  .next (s.inRun (.ceNop l chk))

/-- END (R246). -/
def execCeEnd (l : Fin 16) (chk : Chk) (s : State) : Host.Outcome State Fault Refusal :=
  .next (s.inRun (.ceEnd l chk))

/-- CLR (R239). -/
def execCeClr (l : Fin 16) (a : Fin 4) (chk : Chk) (s : State) : Host.Outcome State Fault Refusal :=
  .next (s.inRun (.ceClr l a chk))

/-- LD (R239). -/
def execCeLd (l : Fin 16) (a : Fin 4) (x : Fin 1024) (chk : Chk) (s : State) : Host.Outcome State Fault Refusal :=
  .next (s.inRun (.ceLd l a x chk))

/-- ADD (R239). -/
def execCeAdd (l : Fin 16) (a : Fin 4) (x : Fin 1024) (chk : Chk) (s : State) : Host.Outcome State Fault Refusal :=
  .next (s.inRun (.ceAdd l a x chk))

/-- SUB (R239). -/
def execCeSub (l : Fin 16) (a : Fin 4) (x : Fin 1024) (chk : Chk) (s : State) : Host.Outcome State Fault Refusal :=
  .next (s.inRun (.ceSub l a x chk))

/-- LDC (R239). -/
def execCeLdc (l : Fin 16) (a : Fin 4) (y : Fin 1024) (chk : Chk) (s : State) : Host.Outcome State Fault Refusal :=
  .next (s.inRun (.ceLdc l a y chk))

/-- MUL (R239). -/
def execCeMul (l : Fin 16) (a : Fin 4) (x : Fin 1024) (y : Fin 1024) (chk : Chk) (s : State) :
    Host.Outcome State Fault Refusal :=
  .next (s.inRun (.ceMul l a x y chk))

/-- MAC (R239). -/
def execCeMac (l : Fin 16) (a : Fin 4) (x : Fin 1024) (y : Fin 1024) (chk : Chk) (s : State) :
    Host.Outcome State Fault Refusal :=
  .next (s.inRun (.ceMac l a x y chk))

/-- MSU (R239). -/
def execCeMsu (l : Fin 16) (a : Fin 4) (x : Fin 1024) (y : Fin 1024) (chk : Chk) (s : State) :
    Host.Outcome State Fault Refusal :=
  .next (s.inRun (.ceMsu l a x y chk))

/-- MACS (R239). -/
def execCeMacs (l : Fin 16) (a : Fin 4) (x : Fin 1024) (y : Fin 1024) (chk : Chk) (s : State) :
    Host.Outcome State Fault Refusal :=
  .next (s.inRun (.ceMacs l a x y chk))

/-- MSUS (R239). -/
def execCeMsus (l : Fin 16) (a : Fin 4) (x : Fin 1024) (y : Fin 1024) (chk : Chk) (s : State) :
    Host.Outcome State Fault Refusal :=
  .next (s.inRun (.ceMsus l a x y chk))

/-- STS (R237). -/
def execCeSts (l : Fin 16) (a : Fin 4) (x : Fin 1024) (m : Fin 4) (chk : Chk) (s : State) :
    Host.Outcome State Fault Refusal :=
  .next (s.inRun (.ceSts l a x m chk))

/-- SHA (R239). -/
def execCeSha (l : Fin 16) (a : Fin 4) (y : Fin 32) (chk : Chk) (s : State) : Host.Outcome State Fault Refusal :=
  .next (s.inRun (.ceSha l a y chk))

/-- NEG (R239). -/
def execCeNeg (l : Fin 16) (a : Fin 4) (chk : Chk) (s : State) : Host.Outcome State Fault Refusal :=
  .next (s.inRun (.ceNeg l a chk))

/-- ABS (R239). -/
def execCeAbs (l : Fin 16) (a : Fin 4) (chk : Chk) (s : State) : Host.Outcome State Fault Refusal :=
  .next (s.inRun (.ceAbs l a chk))

/-- MIN (R239). -/
def execCeMin (l : Fin 16) (a : Fin 4) (x : Fin 1024) (chk : Chk) (s : State) : Host.Outcome State Fault Refusal :=
  .next (s.inRun (.ceMin l a x chk))

/-- MAX (R239). -/
def execCeMax (l : Fin 16) (a : Fin 4) (x : Fin 1024) (chk : Chk) (s : State) : Host.Outcome State Fault Refusal :=
  .next (s.inRun (.ceMax l a x chk))

/-- LIM (R239). -/
def execCeLim (l : Fin 16) (a : Fin 4) (y : Fin 1024) (chk : Chk) (s : State) : Host.Outcome State Fault Refusal :=
  .next (s.inRun (.ceLim l a y chk))

/-- LIMS (R239). -/
def execCeLims (l : Fin 16) (a : Fin 4) (x : Fin 1024) (chk : Chk) (s : State) : Host.Outcome State Fault Refusal :=
  .next (s.inRun (.ceLims l a x chk))

/-- VLIM (R242). -/
def execCeVlim (l : Fin 16) (a : Fin 4) (x : Fin 1024) (chk : Chk) (s : State) : Host.Outcome State Fault Refusal :=
  .next (s.inRun (.ceVlim l a x chk))

/-- LDW (R239). -/
def execCeLdw (l : Fin 16) (a : Fin 4) (x : Fin 1024) (chk : Chk) (s : State) : Host.Outcome State Fault Refusal :=
  .next (s.inRun (.ceLdw l a x chk))

/-- LDCW (R239). -/
def execCeLdcw (l : Fin 16) (a : Fin 4) (y : Fin 1024) (chk : Chk) (s : State) : Host.Outcome State Fault Refusal :=
  .next (s.inRun (.ceLdcw l a y chk))

/-- ADDW (R239). -/
def execCeAddw (l : Fin 16) (a : Fin 4) (x : Fin 1024) (chk : Chk) (s : State) : Host.Outcome State Fault Refusal :=
  .next (s.inRun (.ceAddw l a x chk))

/-- BIQ (R241). -/
def execCeBiq (l : Fin 16) (a : Fin 4) (x : Fin 1024) (y : Fin 1024) (m : Fin 2) (chk : Chk) (s : State) :
    Host.Outcome State Fault Refusal :=
  .next (s.inRun (.ceBiq l a x y m chk))

/-- AMUL (R239). -/
def execCeAmul (l : Fin 16) (a : Fin 4) (y : Fin 1024) (chk : Chk) (s : State) : Host.Outcome State Fault Refusal :=
  .next (s.inRun (.ceAmul l a y chk))

/-- STW (R239). -/
def execCeStw (l : Fin 16) (a : Fin 4) (x : Fin 1024) (chk : Chk) (s : State) : Host.Outcome State Fault Refusal :=
  .next (s.inRun (.ceStw l a x chk))

/-- TLU (R242). -/
def execCeTlu (l : Fin 16) (a : Fin 4) (x : Fin 1024) (y : Fin 16) (chk : Chk) (s : State) :
    Host.Outcome State Fault Refusal :=
  .next (s.inRun (.ceTlu l a x y chk))

/-- SINCOS (R242). -/
def execCeSincos (l : Fin 16) (a : Fin 4) (x : Fin 1024) (chk : Chk) (s : State) : Host.Outcome State Fault Refusal :=
  .next (s.inRun (.ceSincos l a x chk))

/-- ATAN2 (R242). -/
def execCeAtan2 (l : Fin 16) (a : Fin 4) (chk : Chk) (s : State) : Host.Outcome State Fault Refusal :=
  .next (s.inRun (.ceAtan2 l a chk))

/-- DIV (R242). -/
def execCeDiv (l : Fin 16) (a : Fin 4) (x : Fin 1024) (chk : Chk) (s : State) : Host.Outcome State Fault Refusal :=
  .next (s.inRun (.ceDiv l a x chk))

/-- SQRT (R242). -/
def execCeSqrt (l : Fin 16) (a : Fin 4) (chk : Chk) (s : State) : Host.Outcome State Fault Refusal :=
  .next (s.inRun (.ceSqrt l a chk))

/-- TOCMP (R239). -/
def execCeTocmp (l : Fin 16) (a : Fin 4) (x : Fin 1024) (m : Fin 4) (chk : Chk) (s : State) :
    Host.Outcome State Fault Refusal :=
  .next (s.inRun (.ceTocmp l a x m chk))

/-- SKZ (R240). -/
def execCeSkz (l : Fin 16) (x : Fin 1024) (y : Fin 32) (m : Fin 16) (chk : Chk) (s : State) :
    Host.Outcome State Fault Refusal :=
  .next (s.inRun (.ceSkz l x y m chk))

/-- SKS (R240). -/
def execCeSks (l : Fin 16) (x : Fin 1024) (y : Fin 32) (m : Fin 16) (chk : Chk) (s : State) :
    Host.Outcome State Fault Refusal :=
  .next (s.inRun (.ceSks l x y m chk))

/-- SKN (R240). -/
def execCeSkn (l : Fin 16) (a : Fin 4) (m : Fin 16) (chk : Chk) (s : State) : Host.Outcome State Fault Refusal :=
  .next (s.inRun (.ceSkn l a m chk))

/-- SKNN (R240). -/
def execCeSknn (l : Fin 16) (a : Fin 4) (m : Fin 16) (chk : Chk) (s : State) : Host.Outcome State Fault Refusal :=
  .next (s.inRun (.ceSknn l a m chk))

/-- CAP (R276). -/
def execCeCap (l : Fin 16) (x : Fin 1024) (y : Fin 4) (chk : Chk) (s : State) : Host.Outcome State Fault Refusal :=
  .next (s.inRun (.ceCap l x y chk))

/-- SETF (R246). -/
def execCeSetf (l : Fin 16) (y : Fin 8) (chk : Chk) (s : State) : Host.Outcome State Fault Refusal :=
  .next (s.inRun (.ceSetf l y chk))

end Sys2Proof.Machine
end

