-- ==== Sys2Proof/Machine/CmdFbk.lean ====
section
/-!
DEFINITION. The meanings of the commands of position and speed feedback (chapter 11).
-/
namespace Sys2Proof.Machine

/-- EDGE_ACCEPT (R284). -/
def execEdgeAccept (t : Tick) (p : Fin 8) (acc raw : Abz) (rej : Fin 4) (s : State) : Host.Outcome State Fault Refusal :=
  .next (s.command t (.edgeAccept t p acc raw rej))

/-- POSITION_SET (R287). -/
def execPositionSet (t : Tick) (m : Master) (p : Fin 8) (v : Word) (s : State) : Host.Outcome State Fault Refusal :=
  .next (s.command t (.positionSet t m p v))

/-- HALL_CODE_TIMEOUT (R288). -/
def execHallCodeTimeout (t : Tick) (p : Fin 8) (s : State) : Host.Outcome State Fault Refusal :=
  .next (s.command t (.hallCodeTimeout t p))

/-- SSI_REQUEST (R289). -/
def execSsiRequest (t : Tick) (p : Fin 8) (dat : Bool) (s : State) : Host.Outcome State Fault Refusal :=
  .next (s.command t (.ssiRequest t p dat))

/-- SSI_GO (R289). -/
def execSsiGo (t : Tick) (m : Master) (p : Fin 8) (v : Word) (dat : Bool) (s : State) :
    Host.Outcome State Fault Refusal :=
  .next (s.command t (.ssiGo t m p v dat))

/-- SSI_FRAME_END (R290). -/
def execSsiFrameEnd (t : Tick) (p : Fin 8) (bits : Nat) (lost : Bool) (s : State) :
    Host.Outcome State Fault Refusal :=
  .next (s.command t (.ssiFrameEnd t p bits lost))

/-- SPEED_ZERO (R293). -/
def execSpeedZero (t : Tick) (p : Fin 8) (s : State) : Host.Outcome State Fault Refusal :=
  .next (s.command t (.speedZero t p))

/-- PROBE_LATCH (R297). -/
def execProbeLatch (t : Tick) (p : Fin 8) (level : Bool) (s : State) : Host.Outcome State Fault Refusal :=
  .next (s.command t (.probeLatch t p level))

/-- COMPARE_TARGET_WRITE (R299). -/
def execCompareTargetWrite (t : Tick) (m : Master) (p : Fin 8) (k : Fin 4) (v : Word) (s : State) :
    Host.Outcome State Fault Refusal :=
  .next (s.command t (.compareTargetWrite t m p k v))

/-- COMPARE_ENABLE (R299). -/
def execCompareEnable (t : Tick) (m : Master) (p : Fin 8) (k : Fin 4) (v : Word) (s : State) :
    Host.Outcome State Fault Refusal :=
  .next (s.command t (.compareEnable t m p k v))

/-- COMPARE_PULSE_END (R298). -/
def execComparePulseEnd (t : Tick) (p : Fin 8) (k : Fin 4) (s : State) : Host.Outcome State Fault Refusal :=
  .next (s.command t (.comparePulseEnd t p k))

/-- EMULATION_STEP (R302). -/
def execEmulationStep (t : Tick) (o : Fin 2) (s : State) : Host.Outcome State Fault Refusal :=
  .next (s.command t (.emulationStep t o))

/-- EDGE_TIMEOUT (R303). -/
def execEdgeTimeout (t : Tick) (p : Fin 8) (s : State) : Host.Outcome State Fault Refusal :=
  .next (s.command t (.edgeTimeout t p))

/-- FREEZE_DETECT (R303). -/
def execFreezeDetect (t : Tick) (p : Fin 8) (s : State) : Host.Outcome State Fault Refusal :=
  .next (s.command t (.freezeDetect t p))

/-- LADDER_RAMP_END (R307). -/
def execLadderRampEnd (t : Tick) (p : Fin 8) (s : State) : Host.Outcome State Fault Refusal :=
  .next (s.command t (.ladderRampEnd t p))

/-- PARTNER_CLOCKED_SSI_FRAME (R291). -/
def execPartnerClockedSsiFrame (t : Tick) (p : Fin 8) (s : State) : Host.Outcome State Fault Refusal :=
  .next (s.command t (.partnerClockedSsiFrame t p))

end Sys2Proof.Machine
end

