-- ==== Sys2Proof/Machine/CmdHk.lean ====
section
/-!
DEFINITION. The meanings of the commands of housekeeping, feeds and the fault log (chapter 16).
-/
namespace Sys2Proof.Machine

/-- HK_SLOT (R440). -/
def execHkSlot (t : Tick) (ch : Fin 64) (code : BitVec 12) (temp : Int) (flag out : Bool) (s : State) :
    Host.Outcome State Fault Refusal :=
  .next (s.command t (.hkSlot t ch code temp flag out))

/-- HK_EVALUATION (R441). -/
def execHkEvaluation (t : Tick) (s : State) : Host.Outcome State Fault Refusal :=
  .next (s.command t (.hkEvaluation t))

/-- SHUTDOWN_GRACE_EXPIRY (R449). -/
def execShutdownGraceExpiry (t : Tick) (s : State) : Host.Outcome State Fault Refusal :=
  .next (s.command t (.shutdownGraceExpiry t))

/-- SHUTDOWN_CLOCK_STOP (R449). -/
def execShutdownClockStop (t : Tick) (s : State) : Host.Outcome State Fault Refusal :=
  .next (s.command t (.shutdownClockStop t))

/-- FEED_CONDITION (R452). -/
def execFeedCondition (t : Tick) (b : Bool) (c : FeedCond) (lvl : Bool) (s : State) :
    Host.Outcome State Fault Refusal :=
  .next (s.command t (.feedCondition t b c lvl))

/-- FEED_OVERLAP_END (R452). -/
def execFeedOverlapEnd (t : Tick) (s : State) : Host.Outcome State Fault Refusal :=
  .next (s.command t (.feedOverlapEnd t))

/-- FEED_HEALTHY (R451). -/
def execFeedHealthy (t : Tick) (b : Bool) (s : State) : Host.Outcome State Fault Refusal :=
  .next (s.command t (.feedHealthy t b))

/-- FEED_REVERT (R452). -/
def execFeedRevert (t : Tick) (s : State) : Host.Outcome State Fault Refusal :=
  .next (s.command t (.feedRevert t))

/-- JOURNAL_COMMIT (R454). -/
def execJournalCommit (t : Tick) (good : Bool) (s : State) : Host.Outcome State Fault Refusal :=
  .next (s.command t (.journalCommit t good))

/-- JOURNAL_SCAN (R455). -/
def execJournalScan (t : Tick) (recs : List JEntry) (blank : Option (Fin 128)) (s : State) :
    Host.Outcome State Fault Refusal :=
  .next (s.command t (.journalScan t recs blank))

/-- LOG_WRITE (R460). -/
def execLogWrite (t : Tick) (m : Master) (v : Word) (s : State) : Host.Outcome State Fault Refusal :=
  .next (s.command t (.logWrite t m v))

end Sys2Proof.Machine
end

