-- ==== Sys2Proof/Machine/CmdLeg.lean ====
section
/-!
DEFINITION. The meanings of the commands of carriers, legs and teams (chapters 05 to 07).
-/
namespace Sys2Proof.Machine

/-- UPDATE_POINT (R141). -/
def execUpdatePoint (t : Tick) (c : Carr) (s : State) : Host.Outcome State Fault Refusal :=
  .next (s.command t (.updatePoint t c))

/-- PERIOD_START (R142). -/
def execPeriodStart (t : Tick) (c : Carr) (fine : Fin 256) (s : State) : Host.Outcome State Fault Refusal :=
  .next (s.command t (.periodStart t c fine))

/-- EPOCH (R189). -/
def execEpoch (t : Tick) (tm : Fin 24) (fine : Fin 256) (s : State) : Host.Outcome State Fault Refusal :=
  .next (s.command t (.epoch t tm fine))

/-- COMPARE_EDGE (R130). -/
def execCompareEdge (t : Tick) (n : Fin 72) (fine : Fin 256) (s : State) : Host.Outcome State Fault Refusal :=
  .next (s.command t (.compareEdge t n fine))

/-- CONVERTER_TRIGGER (R140). -/
def execConverterTrigger (t : Tick) (n : Fin 72) (c d : Option (Fin 256)) (s : State) :
    Host.Outcome State Fault Refusal :=
  .next (s.command t (.converterTrigger t n c d))

/-- RESTART_CROSSING (R133). -/
def execRestartCrossing (t : Tick) (tm : Fin 24) (rising : Bool) (s : State) : Host.Outcome State Fault Refusal :=
  .next (s.command t (.restartCrossing t tm rising))

/-- PERIOD_RESTART (R133). -/
def execPeriodRestart (t : Tick) (tm : Fin 24) (fine : Fin 256) (s : State) : Host.Outcome State Fault Refusal :=
  .next (s.command t (.periodRestart t tm fine))

/-- VARIABLE_PERIOD_TIMEOUT (R133). -/
def execVariablePeriodTimeout (t : Tick) (tm : Fin 24) (fine : Fin 256) (s : State) :
    Host.Outcome State Fault Refusal :=
  .next (s.command t (.variablePeriodTimeout t tm fine))

/-- DEAD_TIME_END (R154). -/
def execDeadTimeEnd (t : Tick) (n : Fin 72) (fine : Fin 256) (s : State) : Host.Outcome State Fault Refusal :=
  .next (s.command t (.deadTimeEnd t n fine))

/-- REPORT_CHANGE (R159). -/
def execReportChange (t : Tick) (n : Fin 72) (sw : Sw) (level : Bool) (fine : Fin 256) (s : State) :
    Host.Outcome State Fault Refusal :=
  .next (s.command t (.reportChange t n sw level fine))

/-- REPORT_TIMEOUT (R159). -/
def execReportTimeout (t : Tick) (n : Fin 72) (sw : Sw) (s : State) : Host.Outcome State Fault Refusal :=
  .next (s.command t (.reportTimeout t n sw))

/-- BOTH_ON (R160). -/
def execBothOn (t : Tick) (n : Fin 72) (s : State) : Host.Outcome State Fault Refusal :=
  .next (s.command t (.bothOn t n))

/-- INTERLOCK_CANCEL (R162). -/
def execInterlockCancel (t : Tick) (n : Fin 72) (fine : Fin 256) (s : State) : Host.Outcome State Fault Refusal :=
  .next (s.command t (.interlockCancel t n fine))

/-- BOOTSTRAP_REFRESH (R173). -/
def execBootstrapRefresh (t : Tick) (n : Fin 72) (s : State) : Host.Outcome State Fault Refusal :=
  .next (s.command t (.bootstrapRefresh t n))

/-- REFRESH_END (R173). -/
def execRefreshEnd (t : Tick) (n : Fin 72) (fine : Fin 256) (s : State) : Host.Outcome State Fault Refusal :=
  .next (s.command t (.refreshEnd t n fine))

/-- LEG_OVR_WRITE (R176). -/
def execLegOvrWrite (t : Tick) (m : Master) (n : Fin 72) (v : Word) (s : State) : Host.Outcome State Fault Refusal :=
  .next (s.command t (.legOvrWrite t m n v))

/-- TEAM_ENABLE (R187). -/
def execTeamEnable (t : Tick) (m : Master) (tm : Fin 24) (s : State) : Host.Outcome State Fault Refusal :=
  .next (s.command t (.teamEnable t m tm))

/-- TEAM_DISABLE (R185). -/
def execTeamDisable (t : Tick) (m : Master) (tm : Fin 24) (s : State) : Host.Outcome State Fault Refusal :=
  .next (s.command t (.teamDisable t m tm))

/-- TEAM_RESUME (R186). -/
def execTeamResume (t : Tick) (m : Master) (tm : Fin 24) (s : State) : Host.Outcome State Fault Refusal :=
  .next (s.command t (.teamResume t m tm))

end Sys2Proof.Machine
end

