-- ==== Sys2Proof/Machine/CmdLoad.lean ====
section
/-!
DEFINITION. The meanings of the commands of the image load (chapters 03 and 04).
-/
namespace Sys2Proof.Machine

/-- FLASH_INIT (R115). -/
def execFlashInit (t : Tick) (s : State) : Host.Outcome State Fault Refusal :=
  .next (s.command t (.flashInit t))

/-- FLASH_INIT_TIMEOUT (R115). -/
def execFlashInitTimeout (t : Tick) (s : State) : Host.Outcome State Fault Refusal :=
  .next (s.command t (.flashInitTimeout t))

/-- MEMORY_CLEAR (R115). -/
def execMemoryClear (t : Tick) (s : State) : Host.Outcome State Fault Refusal :=
  .next (s.command t (.memoryClear t))

/-- SELECTOR (R72). -/
def execSelector (t : Tick) (copy0 copy1 : List Byte) (s : State) : Host.Outcome State Fault Refusal :=
  .next (s.command t (.selector t copy0 copy1))

/-- HEADER (R77). -/
def execHeader (t : Tick) (bytes : List Byte) (s : State) : Host.Outcome State Fault Refusal :=
  .next (s.command t (.header t bytes))

/-- CRC_TABLE (R79). -/
def execCrcTable (t : Tick) (bytes : List Byte) (s : State) : Host.Outcome State Fault Refusal :=
  .next (s.command t (.crcTable t bytes))

/-- BODY_BLOCK_READ (R115). -/
def execBodyBlockRead (t : Tick) (bytes : List Byte) (s : State) : Host.Outcome State Fault Refusal :=
  .next (s.command t (.bodyBlockRead t bytes))

/-- BLOCK_REREAD (R116). -/
def execBlockReread (t : Tick) (bytes : List Byte) (s : State) : Host.Outcome State Fault Refusal :=
  .next (s.command t (.blockReread t bytes))

/-- SIGNATURE (R115). -/
def execSignature (t : Tick) (bytes : List Byte) (s : State) : Host.Outcome State Fault Refusal :=
  .next (s.command t (.signature t bytes))

/-- VERIFY (R98). -/
def execVerify (t : Tick) (s : State) : Host.Outcome State Fault Refusal :=
  .next (s.command t (.verify t))

/-- APPLY (R102). -/
def execApply (t : Tick) (s : State) : Host.Outcome State Fault Refusal :=
  .next (s.command t (.apply t))

/-- OVERLAY (R105). -/
def execOverlay (t : Tick) (bytes : List Byte) (s : State) : Host.Outcome State Fault Refusal :=
  .next (s.command t (.overlay t bytes))

/-- PADDOCK_LOCK (R472). -/
def execPaddockLock (t : Tick) (s : State) : Host.Outcome State Fault Refusal :=
  .next (s.command t (.paddockLock t))

/-- INPUT_BAND_EXIT (R113). -/
def execInputBandExit (t : Tick) (b : BandInput) (fault : Bool) (s : State) : Host.Outcome State Fault Refusal :=
  .next (s.command t (.inputBandExit t b fault))

/-- WARMUP_COMPLETE (R122). -/
def execWarmupComplete (t : Tick) (u : WarmUnit) (s : State) : Host.Outcome State Fault Refusal :=
  .next (s.command t (.warmupComplete t u))

end Sys2Proof.Machine
end

