-- ==== Sys2Proof/Machine/CmdNet.lean ====
section
/-!
DEFINITION. The meanings of the commands of the network (chapter 14).
-/
namespace Sys2Proof.Machine

/-- LINK_UP (R366). -/
def execLinkUp (t : Tick) (p : Fin 3) (rf : Bool) (s : State) : Host.Outcome State Fault Refusal :=
  .next (s.command t (.linkUp t p rf))

/-- LINK_DOWN (R366). -/
def execLinkDown (t : Tick) (p : Fin 3) (s : State) : Host.Outcome State Fault Refusal :=
  .next (s.command t (.linkDown t p))

/-- SYNC_RECEIVE (R373). -/
def execSyncReceive (t : Tick) (p : Fin 3) (ps : Nat) (src : PtpId) (seq dom : Nat) (two : Bool) (origin corr : Int) (hops : Nat) (s : State) :
    Host.Outcome State Fault Refusal :=
  .next (s.command t (.syncReceive t p ps src seq dom two origin corr hops))

/-- FOLLOW_UP_RECEIVE (R372). -/
def execFollowUpReceive (t : Tick) (p : Fin 3) (src : PtpId) (seq dom : Nat) (origin corr : Int) (s : State) :
    Host.Outcome State Fault Refusal :=
  .next (s.command t (.followUpReceive t p src seq dom origin corr))

/-- ANNOUNCE_RECEIVE (R374). -/
def execAnnounceReceive (t : Tick) (p : Fin 3) (src : PtpId) (seq dom : Nat) (gm : GmData) (s : State) :
    Host.Outcome State Fault Refusal :=
  .next (s.command t (.announceReceive t p src seq dom gm))

/-- ANNOUNCE_SEND (R375). -/
def execAnnounceSend (t : Tick) (s : State) : Host.Outcome State Fault Refusal :=
  .next (s.command t (.announceSend t))

/-- SYNC_SEND (R375). -/
def execSyncSend (t : Tick) (s : State) : Host.Outcome State Fault Refusal :=
  .next (s.command t (.syncSend t))

/-- PDELAY_REQ_SEND (R370). -/
def execPdelayReqSend (t : Tick) (p : Fin 3) (s : State) : Host.Outcome State Fault Refusal :=
  .next (s.command t (.pdelayReqSend t p))

/-- PDELAY_REQ_RECEIVE (R370). -/
def execPdelayReqReceive (t : Tick) (p : Fin 3) (ps : Nat) (src : PtpId) (seq : Nat) (s : State) :
    Host.Outcome State Fault Refusal :=
  .next (s.command t (.pdelayReqReceive t p ps src seq))

/-- PDELAY_RESP_RECEIVE (R370). -/
def execPdelayRespReceive (t : Tick) (p : Fin 3) (ps : Nat) (fup two : Bool) (req : PtpId) (seq : Nat) (ts corr : Int) (s : State) :
    Host.Outcome State Fault Refusal :=
  .next (s.command t (.pdelayRespReceive t p ps fup two req seq ts corr))

/-- SYNC_TIMEOUT (R379). -/
def execSyncTimeout (t : Tick) (s : State) : Host.Outcome State Fault Refusal :=
  .next (s.command t (.syncTimeout t))

/-- HOLDMAX_EXPIRY (R379). -/
def execHoldmaxExpiry (t : Tick) (s : State) : Host.Outcome State Fault Refusal :=
  .next (s.command t (.holdmaxExpiry t))

/-- PPS_LOSS (R375). -/
def execPpsLoss (t : Tick) (s : State) : Host.Outcome State Fault Refusal :=
  .next (s.command t (.ppsLoss t))

/-- ICEND_CYCLE_BOUNDARY (R384). -/
def execIcendCycleBoundary (t : Tick) (s : State) : Host.Outcome State Fault Refusal :=
  .next (s.command t (.icendCycleBoundary t))

/-- DATA_FRAME_SEND (R394). -/
def execDataFrameSend (t : Tick) (s : State) : Host.Outcome State Fault Refusal :=
  .next (s.command t (.dataFrameSend t))

/-- RECEIVE_DEADLINE (R386). -/
def execReceiveDeadline (t : Tick) (s : State) : Host.Outcome State Fault Refusal :=
  .next (s.command t (.receiveDeadline t))

/-- ICEND_FRAME_RECEIVE (R392). -/
def execIcendFrameReceive (t : Tick) (p : Fin 3) (bytes : List Byte) (good tagged : Bool) (s : State) :
    Host.Outcome State Fault Refusal :=
  .next (s.command t (.icendFrameReceive t p bytes good tagged))

/-- REPAIR_REQ_RECEIVE (R395). -/
def execRepairReqReceive (t : Tick) (p : Fin 3) (bytes : List Byte) (good tagged : Bool) (s : State) :
    Host.Outcome State Fault Refusal :=
  .next (s.command t (.repairReqReceive t p bytes good tagged))

/-- HELLO_SEND (R399). -/
def execHelloSend (t : Tick) (s : State) : Host.Outcome State Fault Refusal :=
  .next (s.command t (.helloSend t))

/-- HELLO_RECEIVE (R399). -/
def execHelloReceive (t : Tick) (p : Fin 3) (mac : BitVec 48) (bytes : List Byte) (good tagged : Bool) (s : State) :
    Host.Outcome State Fault Refusal :=
  .next (s.command t (.helloReceive t p mac bytes good tagged))

/-- JOIN_COMPLETE (R399). -/
def execJoinComplete (t : Tick) (s : State) : Host.Outcome State Fault Refusal :=
  .next (s.command t (.joinComplete t))

/-- OTHER_FRAME_RECEIVE (R367). -/
def execOtherFrameReceive (t : Tick) (p : Fin 3) (bytes : List Byte) (good : Bool) (ps : Nat) (s : State) :
    Host.Outcome State Fault Refusal :=
  .next (s.command t (.otherFrameReceive t p bytes good ps))

/-- MAILBOX_POP (R368). -/
def execMailboxPop (t : Tick) (m : Master) (s : State) : Host.Outcome State Fault Refusal :=
  .next (s.command t (.mailboxPop t m))

/-- MAILBOX_SEND (R368). -/
def execMailboxSend (t : Tick) (m : Master) (port : Fin 4) (u : Fin 4) (len : BitVec 11) (s : State) :
    Host.Outcome State Fault Refusal :=
  .next (s.command t (.mailboxSend t m port u len))

/-- MAILBOX_SENT (R368). -/
def execMailboxSent (t : Tick) (u : Fin 4) (s : State) : Host.Outcome State Fault Refusal :=
  .next (s.command t (.mailboxSent t u))

/-- EGRESS_FRAME_START (R385). -/
def execEgressFrameStart (t : Tick) (p : Fin 3) (ps : Nat) (s : State) : Host.Outcome State Fault Refusal :=
  .next (s.command t (.egressFrameStart t p ps))

/-- ANNOUNCE_RECEIPT_TIMEOUT (R374). -/
def execAnnounceReceiptTimeout (t : Tick) (s : State) : Host.Outcome State Fault Refusal :=
  .next (s.command t (.announceReceiptTimeout t))

/-- UNSUPPORTED_PTP_MESSAGE (R370). -/
def execUnsupportedPtpMessage (t : Tick) (p : Fin 3) (s : State) : Host.Outcome State Fault Refusal :=
  .next (s.command t (.unsupportedPtpMessage t p))

end Sys2Proof.Machine
end

