-- ==== Sys2Proof/Machine/CmdProt.lean ====
section
/-!
DEFINITION. The meanings of the commands of comparators, trips and SAFE_N (chapter 12).
-/
namespace Sys2Proof.Machine

/-- COMPARATOR_CROSSING (R315). -/
def execComparatorCrossing (t : Tick) (k : Fin 96) (mv : BitVec 12) (fr : Fin 16) (fine : Fin 256) (s : State) :
    Host.Outcome State Fault Refusal :=
  .next (s.command t (.comparatorCrossing t k mv fr fine))

/-- COMPARATOR_SAMPLE (R315). -/
def execComparatorSample (t : Tick) (k : Fin 96) (mv : BitVec 12) (fr : Fin 16) (s : State) :
    Host.Outcome State Fault Refusal :=
  .next (s.command t (.comparatorSample t k mv fr))

/-- TRIP_SEEN (R318). -/
def execTripSeen (t : Tick) (n : Fin 72) (s : State) : Host.Outcome State Fault Refusal :=
  .next (s.command t (.tripSeen t n))

/-- BLANKING_END (R319). -/
def execBlankingEnd (t : Tick) (n : Fin 72) (fine : Fin 256) (s : State) : Host.Outcome State Fault Refusal :=
  .next (s.command t (.blankingEnd t n fine))

/-- TRIP_IN_EDGE (R321). -/
def execTripInEdge (t : Tick) (i : Fin 8) (lvl : Bool) (s : State) : Host.Outcome State Fault Refusal :=
  .next (s.command t (.tripInEdge t i lvl))

/-- FILTERED_TRIP (R321). -/
def execFilteredTrip (t : Tick) (src : TripSrc) (c : Cond) (s : State) : Host.Outcome State Fault Refusal :=
  .next (s.command t (.filteredTrip t src c))

/-- SOFT_OFF_STEP2 (R322). -/
def execSoftOffStep2 (t : Tick) (n : Fin 72) (fine : Fin 256) (s : State) : Host.Outcome State Fault Refusal :=
  .next (s.command t (.softOffStep2 t n fine))

/-- TRIP_CLEAR (R325). -/
def execTripClear (t : Tick) (m : Master) (n : Fin 72) (s : State) : Host.Outcome State Fault Refusal :=
  .next (s.command t (.tripClear t m n))

/-- AUTO_REARM_RELEASE (R325). -/
def execAutoRearmRelease (t : Tick) (n : Fin 72) (s : State) : Host.Outcome State Fault Refusal :=
  .next (s.command t (.autoRearmRelease t n))

/-- SAFE_N_LOW (R328). -/
def execSafeNLow (t : BallEdge) (s : State) : Host.Outcome State Fault Refusal :=
  .next (s.command t.tick (.safeNLow t))

/-- SAFE_N_HIGH (R328). -/
def execSafeNHigh (t : BallEdge) (s : State) : Host.Outcome State Fault Refusal :=
  .next (s.command t.tick (.safeNHigh t))

end Sys2Proof.Machine
end

