-- ==== Sys2Proof/Machine/CmdSense.lean ====
section
/-!
DEFINITION. The meanings of the commands of sigma-delta channels (chapter 08).
-/
namespace Sys2Proof.Machine

/-- SAMPLE_DELIVERY (R214). -/
def execSampleDelivery (t : Tick) (c : Fin 144) (s : State) : Host.Outcome State Fault Refusal :=
  .next (s.command t (.sampleDelivery t c))

/-- BITSTREAM_LOSS (R222). -/
def execBitstreamLoss (t : Tick) (c : Fin 144) (det : Fin 4) (s : State) : Host.Outcome State Fault Refusal :=
  .next (s.command t (.bitstreamLoss t c det))

/-- OSR_WRITE (R224). -/
def execOsrWrite (t : Tick) (m : Master) (c : Fin 144) (v : Word) (s : State) : Host.Outcome State Fault Refusal :=
  .next (s.command t (.osrWrite t m c v))

/-- BIT_CAPTURE (R210). -/
def execBitCapture (t : Tick) (c : Fin 144) (b : Capture) (s : State) : Host.Outcome State Fault Refusal :=
  .next (s.command t (.bitCapture t c b))

/-- DECODE_ERROR (R211). -/
def execDecodeError (t : Tick) (c : Fin 144) (s : State) : Host.Outcome State Fault Refusal :=
  .next (s.command t (.decodeError t c))

/-- OVER_CURRENT_CONDITION (R219). -/
def execOverCurrentCondition (t : Tick) (c : Fin 144) (cond : Cond) (s : State) : Host.Outcome State Fault Refusal :=
  .next (s.command t (.overCurrentCondition t c cond))

end Sys2Proof.Machine
end

