-- ==== Sys2Proof/Machine/CmdSer.lean ====
section
/-!
DEFINITION. The meanings of the commands of flash, fuses and peripheral ports (chapter 15).
-/
namespace Sys2Proof.Machine

/-- FLASH_WINDOW_READ (R409). -/
def execFlashWindowRead (t : Tick) (q : CoreRead) (a : BitVec 24) (line : List Byte) (s : State) :
    Host.Outcome State Fault Refusal :=
  .next (s.command t (.flashWindowRead t q a line))

/-- FLASH_PROGRAM_STORE (R410). -/
def execFlashProgramStore (t : Tick) (q : Fin 2) (a : BitVec 24) (bytes : List Byte) (s : State) :
    Host.Outcome State Fault Refusal :=
  .next (s.command t (.flashProgramStore t q a bytes))

/-- FLASH_ERASE_STORE (R410). -/
def execFlashEraseStore (t : Tick) (q : Fin 2) (a : BitVec 24) (s : State) : Host.Outcome State Fault Refusal :=
  .next (s.command t (.flashEraseStore t q a))

/-- FLSWDATA_WRITE (R410). -/
def execFlswdataWrite (t : Tick) (m : Master) (v : Word) (s : State) : Host.Outcome State Fault Refusal :=
  .next (s.command t (.flswdataWrite t m v))

/-- FLSERASE_WRITE (R410). -/
def execFlseraseWrite (t : Tick) (m : Master) (v : Word) (s : State) : Host.Outcome State Fault Refusal :=
  .next (s.command t (.flseraseWrite t m v))

/-- FLSRDATA_READ (R415). -/
def execFlsrdataRead (t : Tick) (m : Master) (data : Word) (s : State) : Host.Outcome State Fault Refusal :=
  .next (s.command t (.flsrdataRead t m data))

/-- FLASH_FLUSH (R411). -/
def execFlashFlush (t : Tick) (m : Master) (v : Word) (s : State) : Host.Outcome State Fault Refusal :=
  .next (s.command t (.flashFlush t m v))

/-- GATHER_TIMEOUT (R411). -/
def execGatherTimeout (t : Tick) (s : State) : Host.Outcome State Fault Refusal :=
  .next (s.command t (.gatherTimeout t))

/-- FLASH_OPERATION_END (R411). -/
def execFlashOperationEnd (t : Tick) (good : Bool) (s : State) : Host.Outcome State Fault Refusal :=
  .next (s.command t (.flashOperationEnd t good))

/-- FLASH_OPERATION_TIMEOUT (R413). -/
def execFlashOperationTimeout (t : Tick) (s : State) : Host.Outcome State Fault Refusal :=
  .next (s.command t (.flashOperationTimeout t))

/-- FUSE_PROGRAM (R429). -/
def execFuseProgram (t : Tick) (m : Master) (slot : Fin 4) (s : State) : Host.Outcome State Fault Refusal :=
  .next (s.command t (.fuseProgram t m slot))

/-- FUSE_REVOKE (R429). -/
def execFuseRevoke (t : Tick) (m : Master) (slot : Fin 4) (s : State) : Host.Outcome State Fault Refusal :=
  .next (s.command t (.fuseRevoke t m slot))

/-- FUSE_RAISE_FLOOR (R429). -/
def execFuseRaiseFloor (t : Tick) (m : Master) (f : BitVec 6) (s : State) : Host.Outcome State Fault Refusal :=
  .next (s.command t (.fuseRaiseFloor t m f))

/-- FUSE_OPERATION_DONE (R429). -/
def execFuseOperationDone (t : Tick) (good : Bool) (s : State) : Host.Outcome State Fault Refusal :=
  .next (s.command t (.fuseOperationDone t good))

/-- PMS_QUEUE_ENTRY (R431). -/
def execPmsQueueEntry (t : Tick) (m : Master) (q : Fin 4) (v : Word) (s : State) : Host.Outcome State Fault Refusal :=
  .next (s.command t (.pmsQueueEntry t m q v))

/-- PMS_ENTRY_START (R431). -/
def execPmsEntryStart (t : Tick) (q : Fin 4) (answer : List Word) (s : State) : Host.Outcome State Fault Refusal :=
  .next (s.command t (.pmsEntryStart t q answer))

/-- PMS_ENTRY_DONE (R431). -/
def execPmsEntryDone (t : Tick) (q : Fin 4) (s : State) : Host.Outcome State Fault Refusal :=
  .next (s.command t (.pmsEntryDone t q))

/-- PMS_TX_WRITE (R432). -/
def execPmsTxWrite (t : Tick) (m : Master) (q : Fin 4) (v : Word) (s : State) : Host.Outcome State Fault Refusal :=
  .next (s.command t (.pmsTxWrite t m q v))

/-- PMS_RX_READ (R432). -/
def execPmsRxRead (t : Tick) (m : Master) (q : Fin 4) (s : State) : Host.Outcome State Fault Refusal :=
  .next (s.command t (.pmsRxRead t m q))

/-- PMS_SLAVE_WORD (R433). -/
def execPmsSlaveWord (t : Tick) (q : Fin 4) (w : Word) (s : State) : Host.Outcome State Fault Refusal :=
  .next (s.command t (.pmsSlaveWord t q w))

/-- PMS_SLAVE_RELEASE (R433). -/
def execPmsSlaveRelease (t : Tick) (q : Fin 4) (b : Fin 33) (w : Word) (s : State) :
    Host.Outcome State Fault Refusal :=
  .next (s.command t (.pmsSlaveRelease t q b w))

end Sys2Proof.Machine
end

