-- ==== Sys2Proof/Machine/CmdSvc.lean ====
section
/-!
DEFINITION. The meanings of the commands of the service port (chapter 15).
-/
namespace Sys2Proof.Machine

/-- SVC_SELECT_START (R420). -/
def execSvcSelectStart (t : Tick) (bypass : Bool) (s : State) : Host.Outcome State Fault Refusal :=
  .next (s.command t (.svcSelectStart t bypass))

/-- SVC_SELECT_END (R420). -/
def execSvcSelectEnd (t : Tick) (k : Nat) (bits : BitVec 72) (ext : Word) (s : State) :
    Host.Outcome State Fault Refusal :=
  .next (s.command t (.svcSelectEnd t k bits ext))

/-- SVC_NOP (R423). -/
def execSvcNop (t : Tick) (s : State) : Host.Outcome State Fault Refusal :=
  .next (s.command t (.svcNop t))

/-- SVC_READ (R423). -/
def execSvcRead (t : Tick) (a : BitVec 24) (ext : Word) (s : State) : Host.Outcome State Fault Refusal :=
  .next (s.command t (.svcRead t a ext))

/-- SVC_READ_NEXT (R424). -/
def execSvcReadNext (t : Tick) (ext : Word) (s : State) : Host.Outcome State Fault Refusal :=
  .next (s.command t (.svcReadNext t ext))

/-- SVC_WRITE (R423). -/
def execSvcWrite (t : Tick) (a : BitVec 24) (v : Word) (s : State) : Host.Outcome State Fault Refusal :=
  .next (s.command t (.svcWrite t a v))

/-- SVC_WRITE_NEXT (R424). -/
def execSvcWriteNext (t : Tick) (v : Word) (s : State) : Host.Outcome State Fault Refusal :=
  .next (s.command t (.svcWriteNext t v))

/-- SVC_SELECT (R422). -/
def execSvcSelect (t : Tick) (s : State) : Host.Outcome State Fault Refusal :=
  .next (s.command t (.svcSelect t))

/-- SVC_ARM (R427). -/
def execSvcArm (t : Tick) (v : Word) (s : State) : Host.Outcome State Fault Refusal :=
  .next (s.command t (.svcArm t v))

end Sys2Proof.Machine
end

