-- ==== Sys2Proof/Machine/CmdTask.lean ====
section
/-!
DEFINITION. The meanings of the commands of machine groups, task releases and commits, generators and capture (chapters 07, 09 and 10).
-/
namespace Sys2Proof.Machine

/-- GROUP_RELEASE (R199). -/
def execGroupRelease (t : Tick) (g : Fin 8) (s : State) : Host.Outcome State Fault Refusal :=
  .next (s.command t (.groupRelease t g))

/-- SAMPLE_RELEASE (R248). -/
def execSampleRelease (t : Tick) (tm : Fin 24) (s : State) : Host.Outcome State Fault Refusal :=
  .next (s.command t (.sampleRelease t tm))

/-- TASK_START (R249). -/
def execTaskStart (t : Tick) (l : Fin 16) (s : State) : Host.Outcome State Fault Refusal :=
  .next (s.command t (.taskStart t l))

/-- COMMIT_ARRIVAL (R246). -/
def execCommitArrival (t : Tick) (k : Fin 36) (s : State) : Host.Outcome State Fault Refusal :=
  .next (s.command t (.commitArrival t k))

/-- GROUP_DEADLINE (R251). -/
def execGroupDeadline (t : Tick) (g : Fin 8) (s : State) : Host.Outcome State Fault Refusal :=
  .next (s.command t (.groupDeadline t g))

/-- BACKGROUND_RELEASE (R248). -/
def execBackgroundRelease (t : Tick) (b : Fin 4) (s : State) : Host.Outcome State Fault Refusal :=
  .next (s.command t (.backgroundRelease t b))

/-- BACKGROUND_GO (R248). -/
def execBackgroundGo (t : Tick) (m : Master) (b : Fin 4) (v : Word) (s : State) : Host.Outcome State Fault Refusal :=
  .next (s.command t (.backgroundGo t m b v))

/-- SCRUB_STEP (R255). -/
def execScrubStep (t : Tick) (chk : Chk) (s : State) : Host.Outcome State Fault Refusal :=
  .next (s.command t (.scrubStep t chk))

/-- GENERATOR_GO (R275). -/
def execGeneratorGo (t : Tick) (m : Master) (g : Fin 4) (s : State) : Host.Outcome State Fault Refusal :=
  .next (s.command t (.generatorGo t m g))

/-- GENERATOR_ABORT (R275). -/
def execGeneratorAbort (t : Tick) (m : Master) (g : Fin 4) (s : State) : Host.Outcome State Fault Refusal :=
  .next (s.command t (.generatorAbort t m g))

/-- CAPTURE_ARM (R276). -/
def execCaptureArm (t : Tick) (m : Master) (c : Fin 4) (s : State) : Host.Outcome State Fault Refusal :=
  .next (s.command t (.captureArm t m c))

/-- CAPTURE_STOP (R277). -/
def execCaptureStop (t : Tick) (m : Master) (c : Fin 4) (s : State) : Host.Outcome State Fault Refusal :=
  .next (s.command t (.captureStop t m c))

end Sys2Proof.Machine
end

