-- ==== Sys2Proof/Machine/CmdYok.lean ====
section
/-!
DEFINITION. The meanings of the commands of the yoke (chapter 13).
-/
namespace Sys2Proof.Machine

/-- IDENT_SEND (R347). -/
def execIdentSend (t : Tick) (s : State) : Host.Outcome State Fault Refusal :=
  .next (s.command t (.identSend t))

/-- IDENT_RECEIVE (R345). -/
def execIdentReceive (t : Tick) (good : Bool) (stateId pdkId : List Byte) (addr : BitVec 12) (s : State) :
    Host.Outcome State Fault Refusal :=
  .next (s.command t (.identReceive t good stateId pdkId addr))

/-- JOIN_TIMEOUT (R345). -/
def execJoinTimeout (t : Tick) (s : State) : Host.Outcome State Fault Refusal :=
  .next (s.command t (.joinTimeout t))

/-- HEARTBEAT_SEND (R347). -/
def execHeartbeatSend (t : Tick) (s : State) : Host.Outcome State Fault Refusal :=
  .next (s.command t (.heartbeatSend t))

/-- HEARTBEAT_RECEIVE (R347). -/
def execHeartbeatReceive (t : Tick) (good : Bool) (ofs : Int) (h : HbSt) (s : State) :
    Host.Outcome State Fault Refusal :=
  .next (s.command t (.heartbeatReceive t good ofs h))

/-- HEARTBEAT_TIMEOUT (R362). -/
def execHeartbeatTimeout (t : Tick) (s : State) : Host.Outcome State Fault Refusal :=
  .next (s.command t (.heartbeatTimeout t))

/-- LANE_SYNC_LOSS (R362). -/
def execLaneSyncLoss (t : Tick) (j : Fin 2) (s : State) : Host.Outcome State Fault Refusal :=
  .next (s.command t (.laneSyncLoss t j))

/-- COMMIT_FRAME_RECEIVE (R348). -/
def execCommitFrameReceive (t : Tick) (good : Bool) (k : Fin 36) (rel consec : Nat) (words range : List Word) (obs : Option Nat) (s : State) :
    Host.Outcome State Fault Refusal :=
  .next (s.command t (.commitFrameReceive t good k rel consec words range obs))

/-- ACT_IN_FALL (R350). -/
def execActInFall (t : Tick) (s : State) : Host.Outcome State Fault Refusal :=
  .next (s.command t (.actInFall t))

/-- ACT_IN_RISE (R344). -/
def execActInRise (t : Tick) (s : State) : Host.Outcome State Fault Refusal :=
  .next (s.command t (.actInRise t))

/-- ACT_CONFLICT (R344). -/
def execActConflict (t : Tick) (s : State) : Host.Outcome State Fault Refusal :=
  .next (s.command t (.actConflict t))

/-- WATCHDOG_KICK (R344). -/
def execWatchdogKick (t : Tick) (m : Master) (s : State) : Host.Outcome State Fault Refusal :=
  .next (s.command t (.watchdogKick t m))

/-- WATCHDOG_EXPIRY (R349). -/
def execWatchdogExpiry (t : Tick) (s : State) : Host.Outcome State Fault Refusal :=
  .next (s.command t (.watchdogExpiry t))

/-- VIEW_RULE_EXPIRY (R349). -/
def execViewRuleExpiry (t : Tick) (s : State) : Host.Outcome State Fault Refusal :=
  .next (s.command t (.viewRuleExpiry t))

/-- ACT_RELEASE (R360). -/
def execActRelease (t : Tick) (m : Master) (s : State) : Host.Outcome State Fault Refusal :=
  .next (s.command t (.actRelease t m))

/-- LANE_IN_SYNC (R345). -/
def execLaneInSync (t : Tick) (j : Fin 2) (s : State) : Host.Outcome State Fault Refusal :=
  .next (s.command t (.laneInSync t j))

end Sys2Proof.Machine
end

