-- ==== Sys2Proof/Machine/Dispatch.lean ====
section
/-!
DEFINITION. Which meaning each command has: one arm per constructor of `Instr`.
-/
namespace Sys2Proof.Machine

def exec (i : Instr) (s : State) : Host.Outcome State Fault Refusal :=
  match i with
  | .powerOnReset t => Sys2Proof.Machine.execPowerOnReset t s
  | .resetNLow t => Sys2Proof.Machine.execResetNLow t s
  | .pgoodLow t => Sys2Proof.Machine.execPgoodLow t s
  | .restartRequest t m v => Sys2Proof.Machine.execRestartRequest t m v s
  | .resetHoldoffExpiry t => Sys2Proof.Machine.execResetHoldoffExpiry t s
  | .resetRelease t test => Sys2Proof.Machine.execResetRelease t test s
  | .pllLock t => Sys2Proof.Machine.execPllLock t s
  | .pllLockTimeout t => Sys2Proof.Machine.execPllLockTimeout t s
  | .dllLock t => Sys2Proof.Machine.execDllLock t s
  | .referenceFault t lost => Sys2Proof.Machine.execReferenceFault t lost s
  | .referenceHoldExpiry t => Sys2Proof.Machine.execReferenceHoldExpiry t s
  | .dllUnlock t line => Sys2Proof.Machine.execDllUnlock t line s
  | .calibrationStep t table => Sys2Proof.Machine.execCalibrationStep t table s
  | .timRateWrite t m v => Sys2Proof.Machine.execTimRateWrite t m v s
  | .timSlewWrite t m v => Sys2Proof.Machine.execTimSlewWrite t m v s
  | .slewComplete t => Sys2Proof.Machine.execSlewComplete t s
  | .timeStep t m => Sys2Proof.Machine.execTimeStep t m s
  | .ppsOutRise t => Sys2Proof.Machine.execPpsOutRise t s
  | .ppsOutFall t => Sys2Proof.Machine.execPpsOutFall t s
  | .ppsInEdge t fine => Sys2Proof.Machine.execPpsInEdge t fine s
  | .flashInit t => Sys2Proof.Machine.execFlashInit t s
  | .flashInitTimeout t => Sys2Proof.Machine.execFlashInitTimeout t s
  | .memoryClear t => Sys2Proof.Machine.execMemoryClear t s
  | .selector t copy0 copy1 => Sys2Proof.Machine.execSelector t copy0 copy1 s
  | .header t bytes => Sys2Proof.Machine.execHeader t bytes s
  | .crcTable t bytes => Sys2Proof.Machine.execCrcTable t bytes s
  | .bodyBlockRead t bytes => Sys2Proof.Machine.execBodyBlockRead t bytes s
  | .blockReread t bytes => Sys2Proof.Machine.execBlockReread t bytes s
  | .signature t bytes => Sys2Proof.Machine.execSignature t bytes s
  | .verify t => Sys2Proof.Machine.execVerify t s
  | .apply t => Sys2Proof.Machine.execApply t s
  | .overlay t bytes => Sys2Proof.Machine.execOverlay t bytes s
  | .paddockLock t => Sys2Proof.Machine.execPaddockLock t s
  | .inputBandExit t b fault => Sys2Proof.Machine.execInputBandExit t b fault s
  | .warmupComplete t u => Sys2Proof.Machine.execWarmupComplete t u s
  | .updatePoint t c => Sys2Proof.Machine.execUpdatePoint t c s
  | .periodStart t c fine => Sys2Proof.Machine.execPeriodStart t c fine s
  | .epoch t tm fine => Sys2Proof.Machine.execEpoch t tm fine s
  | .compareEdge t n fine => Sys2Proof.Machine.execCompareEdge t n fine s
  | .converterTrigger t n c d => Sys2Proof.Machine.execConverterTrigger t n c d s
  | .restartCrossing t tm rising => Sys2Proof.Machine.execRestartCrossing t tm rising s
  | .periodRestart t tm fine => Sys2Proof.Machine.execPeriodRestart t tm fine s
  | .variablePeriodTimeout t tm fine => Sys2Proof.Machine.execVariablePeriodTimeout t tm fine s
  | .deadTimeEnd t n fine => Sys2Proof.Machine.execDeadTimeEnd t n fine s
  | .reportChange t n sw level fine => Sys2Proof.Machine.execReportChange t n sw level fine s
  | .reportTimeout t n sw => Sys2Proof.Machine.execReportTimeout t n sw s
  | .bothOn t n => Sys2Proof.Machine.execBothOn t n s
  | .interlockCancel t n fine => Sys2Proof.Machine.execInterlockCancel t n fine s
  | .bootstrapRefresh t n => Sys2Proof.Machine.execBootstrapRefresh t n s
  | .refreshEnd t n fine => Sys2Proof.Machine.execRefreshEnd t n fine s
  | .legOvrWrite t m n v => Sys2Proof.Machine.execLegOvrWrite t m n v s
  | .teamEnable t m tm => Sys2Proof.Machine.execTeamEnable t m tm s
  | .teamDisable t m tm => Sys2Proof.Machine.execTeamDisable t m tm s
  | .teamResume t m tm => Sys2Proof.Machine.execTeamResume t m tm s
  | .groupRelease t g => Sys2Proof.Machine.execGroupRelease t g s
  | .sampleDelivery t c => Sys2Proof.Machine.execSampleDelivery t c s
  | .bitstreamLoss t c det => Sys2Proof.Machine.execBitstreamLoss t c det s
  | .osrWrite t m c v => Sys2Proof.Machine.execOsrWrite t m c v s
  | .sampleRelease t tm => Sys2Proof.Machine.execSampleRelease t tm s
  | .taskStart t l => Sys2Proof.Machine.execTaskStart t l s
  | .commitArrival t k => Sys2Proof.Machine.execCommitArrival t k s
  | .groupDeadline t g => Sys2Proof.Machine.execGroupDeadline t g s
  | .backgroundRelease t b => Sys2Proof.Machine.execBackgroundRelease t b s
  | .backgroundGo t m b v => Sys2Proof.Machine.execBackgroundGo t m b v s
  | .scrubStep t chk => Sys2Proof.Machine.execScrubStep t chk s
  | .ceNop l chk => Sys2Proof.Machine.execCeNop l chk s
  | .ceEnd l chk => Sys2Proof.Machine.execCeEnd l chk s
  | .ceClr l a chk => Sys2Proof.Machine.execCeClr l a chk s
  | .ceLd l a x chk => Sys2Proof.Machine.execCeLd l a x chk s
  | .ceAdd l a x chk => Sys2Proof.Machine.execCeAdd l a x chk s
  | .ceSub l a x chk => Sys2Proof.Machine.execCeSub l a x chk s
  | .ceLdc l a y chk => Sys2Proof.Machine.execCeLdc l a y chk s
  | .ceMul l a x y chk => Sys2Proof.Machine.execCeMul l a x y chk s
  | .ceMac l a x y chk => Sys2Proof.Machine.execCeMac l a x y chk s
  | .ceMsu l a x y chk => Sys2Proof.Machine.execCeMsu l a x y chk s
  | .ceMacs l a x y chk => Sys2Proof.Machine.execCeMacs l a x y chk s
  | .ceMsus l a x y chk => Sys2Proof.Machine.execCeMsus l a x y chk s
  | .ceSts l a x m chk => Sys2Proof.Machine.execCeSts l a x m chk s
  | .ceSha l a y chk => Sys2Proof.Machine.execCeSha l a y chk s
  | .ceNeg l a chk => Sys2Proof.Machine.execCeNeg l a chk s
  | .ceAbs l a chk => Sys2Proof.Machine.execCeAbs l a chk s
  | .ceMin l a x chk => Sys2Proof.Machine.execCeMin l a x chk s
  | .ceMax l a x chk => Sys2Proof.Machine.execCeMax l a x chk s
  | .ceLim l a y chk => Sys2Proof.Machine.execCeLim l a y chk s
  | .ceLims l a x chk => Sys2Proof.Machine.execCeLims l a x chk s
  | .ceVlim l a x chk => Sys2Proof.Machine.execCeVlim l a x chk s
  | .ceLdw l a x chk => Sys2Proof.Machine.execCeLdw l a x chk s
  | .ceLdcw l a y chk => Sys2Proof.Machine.execCeLdcw l a y chk s
  | .ceAddw l a x chk => Sys2Proof.Machine.execCeAddw l a x chk s
  | .ceBiq l a x y m chk => Sys2Proof.Machine.execCeBiq l a x y m chk s
  | .ceAmul l a y chk => Sys2Proof.Machine.execCeAmul l a y chk s
  | .ceStw l a x chk => Sys2Proof.Machine.execCeStw l a x chk s
  | .ceTlu l a x y chk => Sys2Proof.Machine.execCeTlu l a x y chk s
  | .ceSincos l a x chk => Sys2Proof.Machine.execCeSincos l a x chk s
  | .ceAtan2 l a chk => Sys2Proof.Machine.execCeAtan2 l a chk s
  | .ceDiv l a x chk => Sys2Proof.Machine.execCeDiv l a x chk s
  | .ceSqrt l a chk => Sys2Proof.Machine.execCeSqrt l a chk s
  | .ceTocmp l a x m chk => Sys2Proof.Machine.execCeTocmp l a x m chk s
  | .ceSkz l x y m chk => Sys2Proof.Machine.execCeSkz l x y m chk s
  | .ceSks l x y m chk => Sys2Proof.Machine.execCeSks l x y m chk s
  | .ceSkn l a m chk => Sys2Proof.Machine.execCeSkn l a m chk s
  | .ceSknn l a m chk => Sys2Proof.Machine.execCeSknn l a m chk s
  | .ceCap l x y chk => Sys2Proof.Machine.execCeCap l x y chk s
  | .ceSetf l y chk => Sys2Proof.Machine.execCeSetf l y chk s
  | .generatorGo t m g => Sys2Proof.Machine.execGeneratorGo t m g s
  | .generatorAbort t m g => Sys2Proof.Machine.execGeneratorAbort t m g s
  | .captureArm t m c => Sys2Proof.Machine.execCaptureArm t m c s
  | .captureStop t m c => Sys2Proof.Machine.execCaptureStop t m c s
  | .edgeAccept t p acc raw rej => Sys2Proof.Machine.execEdgeAccept t p acc raw rej s
  | .positionSet t m p v => Sys2Proof.Machine.execPositionSet t m p v s
  | .hallCodeTimeout t p => Sys2Proof.Machine.execHallCodeTimeout t p s
  | .ssiRequest t p dat => Sys2Proof.Machine.execSsiRequest t p dat s
  | .ssiGo t m p v dat => Sys2Proof.Machine.execSsiGo t m p v dat s
  | .ssiFrameEnd t p bits lost => Sys2Proof.Machine.execSsiFrameEnd t p bits lost s
  | .speedZero t p => Sys2Proof.Machine.execSpeedZero t p s
  | .probeLatch t p level => Sys2Proof.Machine.execProbeLatch t p level s
  | .compareTargetWrite t m p k v => Sys2Proof.Machine.execCompareTargetWrite t m p k v s
  | .compareEnable t m p k v => Sys2Proof.Machine.execCompareEnable t m p k v s
  | .comparePulseEnd t p k => Sys2Proof.Machine.execComparePulseEnd t p k s
  | .emulationStep t o => Sys2Proof.Machine.execEmulationStep t o s
  | .edgeTimeout t p => Sys2Proof.Machine.execEdgeTimeout t p s
  | .freezeDetect t p => Sys2Proof.Machine.execFreezeDetect t p s
  | .ladderRampEnd t p => Sys2Proof.Machine.execLadderRampEnd t p s
  | .comparatorCrossing t k mv fr fine => Sys2Proof.Machine.execComparatorCrossing t k mv fr fine s
  | .comparatorSample t k mv fr => Sys2Proof.Machine.execComparatorSample t k mv fr s
  | .tripSeen t n => Sys2Proof.Machine.execTripSeen t n s
  | .blankingEnd t n fine => Sys2Proof.Machine.execBlankingEnd t n fine s
  | .tripInEdge t j lvl => Sys2Proof.Machine.execTripInEdge t j lvl s
  | .filteredTrip t src c => Sys2Proof.Machine.execFilteredTrip t src c s
  | .softOffStep2 t n fine => Sys2Proof.Machine.execSoftOffStep2 t n fine s
  | .tripClear t m n => Sys2Proof.Machine.execTripClear t m n s
  | .autoRearmRelease t n => Sys2Proof.Machine.execAutoRearmRelease t n s
  | .safeNLow t => Sys2Proof.Machine.execSafeNLow t s
  | .safeNHigh t => Sys2Proof.Machine.execSafeNHigh t s
  | .identSend t => Sys2Proof.Machine.execIdentSend t s
  | .identReceive t good stateId pdkId addr => Sys2Proof.Machine.execIdentReceive t good stateId pdkId addr s
  | .joinTimeout t => Sys2Proof.Machine.execJoinTimeout t s
  | .heartbeatSend t => Sys2Proof.Machine.execHeartbeatSend t s
  | .heartbeatReceive t good ofs h => Sys2Proof.Machine.execHeartbeatReceive t good ofs h s
  | .heartbeatTimeout t => Sys2Proof.Machine.execHeartbeatTimeout t s
  | .laneSyncLoss t j => Sys2Proof.Machine.execLaneSyncLoss t j s
  | .commitFrameReceive t good k rel consec words range obs => Sys2Proof.Machine.execCommitFrameReceive t good k rel consec words range obs s
  | .actInFall t => Sys2Proof.Machine.execActInFall t s
  | .actInRise t => Sys2Proof.Machine.execActInRise t s
  | .actConflict t => Sys2Proof.Machine.execActConflict t s
  | .watchdogKick t m => Sys2Proof.Machine.execWatchdogKick t m s
  | .watchdogExpiry t => Sys2Proof.Machine.execWatchdogExpiry t s
  | .viewRuleExpiry t => Sys2Proof.Machine.execViewRuleExpiry t s
  | .actRelease t m => Sys2Proof.Machine.execActRelease t m s
  | .checkpoint t q stores => Sys2Proof.Machine.execCheckpoint t q stores s
  | .lockstepMismatch t q => Sys2Proof.Machine.execLockstepMismatch t q s
  | .linkUp t p rf => Sys2Proof.Machine.execLinkUp t p rf s
  | .linkDown t p => Sys2Proof.Machine.execLinkDown t p s
  | .syncReceive t p ps src seq dom two origin corr hops => Sys2Proof.Machine.execSyncReceive t p ps src seq dom two origin corr hops s
  | .followUpReceive t p src seq dom origin corr => Sys2Proof.Machine.execFollowUpReceive t p src seq dom origin corr s
  | .announceReceive t p src seq dom gm => Sys2Proof.Machine.execAnnounceReceive t p src seq dom gm s
  | .announceSend t => Sys2Proof.Machine.execAnnounceSend t s
  | .syncSend t => Sys2Proof.Machine.execSyncSend t s
  | .pdelayReqSend t p => Sys2Proof.Machine.execPdelayReqSend t p s
  | .pdelayReqReceive t p ps src seq => Sys2Proof.Machine.execPdelayReqReceive t p ps src seq s
  | .pdelayRespReceive t p ps fup two req seq ts corr => Sys2Proof.Machine.execPdelayRespReceive t p ps fup two req seq ts corr s
  | .syncTimeout t => Sys2Proof.Machine.execSyncTimeout t s
  | .holdmaxExpiry t => Sys2Proof.Machine.execHoldmaxExpiry t s
  | .ppsLoss t => Sys2Proof.Machine.execPpsLoss t s
  | .icendCycleBoundary t => Sys2Proof.Machine.execIcendCycleBoundary t s
  | .dataFrameSend t => Sys2Proof.Machine.execDataFrameSend t s
  | .receiveDeadline t => Sys2Proof.Machine.execReceiveDeadline t s
  | .icendFrameReceive t p bytes good tagged => Sys2Proof.Machine.execIcendFrameReceive t p bytes good tagged s
  | .repairReqReceive t p bytes good tagged => Sys2Proof.Machine.execRepairReqReceive t p bytes good tagged s
  | .helloSend t => Sys2Proof.Machine.execHelloSend t s
  | .helloReceive t p mac bytes good tagged => Sys2Proof.Machine.execHelloReceive t p mac bytes good tagged s
  | .joinComplete t => Sys2Proof.Machine.execJoinComplete t s
  | .otherFrameReceive t p bytes good ps => Sys2Proof.Machine.execOtherFrameReceive t p bytes good ps s
  | .mailboxPop t m => Sys2Proof.Machine.execMailboxPop t m s
  | .mailboxSend t m port u len => Sys2Proof.Machine.execMailboxSend t m port u len s
  | .mailboxSent t u => Sys2Proof.Machine.execMailboxSent t u s
  | .egressFrameStart t p ps => Sys2Proof.Machine.execEgressFrameStart t p ps s
  | .flashWindowRead t q a line => Sys2Proof.Machine.execFlashWindowRead t q a line s
  | .flashProgramStore t q a bytes => Sys2Proof.Machine.execFlashProgramStore t q a bytes s
  | .flashEraseStore t q a => Sys2Proof.Machine.execFlashEraseStore t q a s
  | .flswdataWrite t m v => Sys2Proof.Machine.execFlswdataWrite t m v s
  | .flseraseWrite t m v => Sys2Proof.Machine.execFlseraseWrite t m v s
  | .flsrdataRead t m data => Sys2Proof.Machine.execFlsrdataRead t m data s
  | .flashFlush t m v => Sys2Proof.Machine.execFlashFlush t m v s
  | .gatherTimeout t => Sys2Proof.Machine.execGatherTimeout t s
  | .flashOperationEnd t good => Sys2Proof.Machine.execFlashOperationEnd t good s
  | .flashOperationTimeout t => Sys2Proof.Machine.execFlashOperationTimeout t s
  | .svcSelectStart t bypass => Sys2Proof.Machine.execSvcSelectStart t bypass s
  | .svcSelectEnd t k bits ext => Sys2Proof.Machine.execSvcSelectEnd t k bits ext s
  | .svcNop t => Sys2Proof.Machine.execSvcNop t s
  | .svcRead t a ext => Sys2Proof.Machine.execSvcRead t a ext s
  | .svcReadNext t ext => Sys2Proof.Machine.execSvcReadNext t ext s
  | .svcWrite t a v => Sys2Proof.Machine.execSvcWrite t a v s
  | .svcWriteNext t v => Sys2Proof.Machine.execSvcWriteNext t v s
  | .svcSelect t => Sys2Proof.Machine.execSvcSelect t s
  | .svcArm t v => Sys2Proof.Machine.execSvcArm t v s
  | .fuseProgram t m slot => Sys2Proof.Machine.execFuseProgram t m slot s
  | .fuseRevoke t m slot => Sys2Proof.Machine.execFuseRevoke t m slot s
  | .fuseRaiseFloor t m f => Sys2Proof.Machine.execFuseRaiseFloor t m f s
  | .fuseOperationDone t good => Sys2Proof.Machine.execFuseOperationDone t good s
  | .pmsQueueEntry t m q v => Sys2Proof.Machine.execPmsQueueEntry t m q v s
  | .pmsEntryStart t q answer => Sys2Proof.Machine.execPmsEntryStart t q answer s
  | .pmsEntryDone t q => Sys2Proof.Machine.execPmsEntryDone t q s
  | .pmsTxWrite t m q v => Sys2Proof.Machine.execPmsTxWrite t m q v s
  | .pmsRxRead t m q => Sys2Proof.Machine.execPmsRxRead t m q s
  | .pmsSlaveWord t q w => Sys2Proof.Machine.execPmsSlaveWord t q w s
  | .pmsSlaveRelease t q b w => Sys2Proof.Machine.execPmsSlaveRelease t q b w s
  | .hkSlot t ch code temp flag out => Sys2Proof.Machine.execHkSlot t ch code temp flag out s
  | .hkEvaluation t => Sys2Proof.Machine.execHkEvaluation t s
  | .shutdownGraceExpiry t => Sys2Proof.Machine.execShutdownGraceExpiry t s
  | .shutdownClockStop t => Sys2Proof.Machine.execShutdownClockStop t s
  | .feedCondition t b c lvl => Sys2Proof.Machine.execFeedCondition t b c lvl s
  | .feedOverlapEnd t => Sys2Proof.Machine.execFeedOverlapEnd t s
  | .feedHealthy t b => Sys2Proof.Machine.execFeedHealthy t b s
  | .feedRevert t => Sys2Proof.Machine.execFeedRevert t s
  | .journalCommit t good => Sys2Proof.Machine.execJournalCommit t good s
  | .journalScan t recs blank => Sys2Proof.Machine.execJournalScan t recs blank s
  | .logWrite t m v => Sys2Proof.Machine.execLogWrite t m v s
  | .snapshotCaptureRead t m a width => Sys2Proof.Machine.execSnapshotCaptureRead t m a width s
  | .registerWrite t m a v width => Sys2Proof.Machine.execRegisterWrite t m a v width s
  | .generalTagFree t => Sys2Proof.Machine.execGeneralTagFree t s
  | .bitCapture t c b => Sys2Proof.Machine.execBitCapture t c b s
  | .decodeError t c => Sys2Proof.Machine.execDecodeError t c s
  | .overCurrentCondition t c cond => Sys2Proof.Machine.execOverCurrentCondition t c cond s
  | .laneInSync t j => Sys2Proof.Machine.execLaneInSync t j s
  | .announceReceiptTimeout t => Sys2Proof.Machine.execAnnounceReceiptTimeout t s
  | .unsupportedPtpMessage t p => Sys2Proof.Machine.execUnsupportedPtpMessage t p s
  | .partnerClockedSsiFrame t p => Sys2Proof.Machine.execPartnerClockedSsiFrame t p s

end Sys2Proof.Machine
end

