-- ==== Sys2Proof/Machine/Balls.lean ====
section
/-!
DEFINITION. What stands on the output balls, stage by stage (R112), and the interrupt requests: functions of the state.  The
levels of SDM_CKg, of the flash port's balls in a transaction and of FBOm_Z are in Sdm, Serial and Fbk.
-/
namespace Sys2Proof.Machine

/-- Steps 1 to 6 of R102 have been applied: what LEGTEAM and REGINIT configure stands (R112). -/
def State.applied (s : State) : Bool := decide (10 ≤ s.get F.IDG_LOADSTAT_PHASE) && !s.load.failed

/-- A driven output: high impedance while a supply stands below its threshold (R112). -/
def State.driven (s : State) {α : Type} (x : α) : Option α := if s.tim.under then none else some x

/-- A leg's three gate-command balls. -/
structure GateBalls where
  gh : Bool
  gl : Bool
  gm : Bool
  deriving DecidableEq, Repr

/-- LEGn_GH, LEGn_GL and LEGn_GM; high impedance with their pull-downs below the supply thresholds. -/
def State.gateBalls (s : State) (n : Fin 72) : Option GateBalls :=
  let l := s.leg n
  s.driven { gh := l.gh, gl := l.gl, gm := l.gm }

/-- ACT_OUT (R112, R349, R350). -/
def State.actBall (s : State) : Option Bool := s.driven (s.bit F.YOK_STAT_ACTOUT)

/-- FAULT_N, open-drain: driven low, or released. -/
def State.faultBall (s : State) : Option Bool := if s.tim.under ∨ s.faultN then none else some false

/-- SDM_CKg (R208). -/
def State.ckBall (s : State) (g : Fin 8) : Option Bool := s.driven (s.ckLevel g)

/-- PPS_OUT (R63). -/
def State.ppsBall (s : State) : Option Bool := s.driven s.tim.pps

/-- FBOm_A, FBOm_B and FBOm_Z: off until the LEGTEAM section is applied, high impedance where ACTONLY does not drive them
(R112, R298, R301). -/
def State.fboBalls (s : State) (m : Fin 2) : Option Abz :=
  let o := s.fbo[m]
  if s.tim.under then none
  else if !s.applied then some ⟨false, false, false⟩
  else if !s.bit (F.FBO_STAT_DRIVEN m) then none
  else some ⟨o.a, o.b, s.outZ m⟩

/-- FEED_A_EN and FEED_B_EN: high impedance until the end of the first housekeeping round (R112, R452). -/
def State.feedBall (s : State) (b : Bool) : Option Bool :=
  if s.tim.under ∨ !s.hk.feedsOn then none else some (if b then s.hk.enB else s.hk.enA)

/-- The links transmit; else they stand at electrical idle, or at high impedance below the supply thresholds (R46, R112). -/
def State.linkBalls (s : State) : Option Bool := s.driven (!s.tim.linksIdle)

/-- Level of the clock of an SSI frame, `d` ticks after its request: low in the half periods that begin at F0 to FNB, high in
those that begin at R1 to R(NB + 1), and idle high from there on (R289). -/
def ssiLevel (h nb d : Nat) : Bool := decide ((2 * nb + 1) * h ≤ d) || d / h % 2 == 1

/-- FBp_CLK: off until the LEGTEAM section is applied and in a mode without a clock (log entry 101), high impedance where the
yoke partner may clock the sensor, else the SSI clock, idle high (R112, R289, R291). -/
def State.fbClkBall (s : State) (p : Fin 8) : Option Bool :=
  let x := s.port p
  if s.tim.under then none
  else if !s.applied ∨ s.fbkMode p ≠ fmSSI then some false
  else if s.bit (F.FBK_SSIREQ_YOKSHARE p) ∧ !x.ssiDrive then none
  else match x.ssiT0 with
    | some t0 => some (ssiLevel (s.get (F.FBK_SSITIM_HALF p)) (s.ssiBits p) (s.now - t0))
    | none => some (x.ssiPartner || decide (x.ssiEnd ≤ s.now))

/-- The flash port's balls: its last transactions in half cycles of FLS_SCK (R406, R407). -/
def State.flsBalls (s : State) : Option (List FlsPins) := s.driven s.flsPins

/-! ## SVC_SDO (R418, R420, R422) -/

/-- Bits 71 to 0 of the shift register, in the order in which they leave it. -/
def shiftBits (v : Nat) : List Bool := (List.range 72).map (fun i => v.testBit (71 - i))

/-- The levels of SVC_SDO while the bits `sdi` enter on SVC_SDI: the register and what has entered it, SVC_SDI itself in
bypass, high impedance while SVC_CS_N is high and in a reset. -/
def State.svcSdo (s : State) (sdi : List Bool) : List (Option Bool) :=
  if s.tim.under ∨ !s.svcOn ∨ !s.ser.svc.sel then sdi.map (fun _ => none)
  else if s.svcMode = mdBYPASS then sdi.map some
  else ((shiftBits s.ser.svc.shift ++ sdi).take sdi.length).map some

/-! ## The peripheral ports (R430, R431, R433) -/

/-- The balls of a port in one half period of PMSq_SCK; none: high impedance, a select then pulled up.  Lanes 4 to 7 are
PMS(q + 1)_IO0 to IO3. -/
structure PmsPins where
  sck : Option Bool
  cs0N : Option Bool
  cs1N : Option Bool
  io : List (Option Bool)
  deriving DecidableEq, Repr

/-- No ball is driven. -/
def PmsPins.off : PmsPins := { sck := none, cs0N := none, cs1N := none, io := flsHiZ }

/-- A word of n bits on the lanes of a code: groups from the most significant, or with LSBF from the least significant, the
highest lane with the most significant bit of its group. -/
def laneWord (code n : Nat) (lsbf : Bool) (w : Word) : List FlsDrive :=
  let l := laneCount code
  (List.range (n / l)).map (fun i => (List.range 8).map (fun j =>
    if j < l then some (w.getLsbD ((if lsbf then l * i else n - l * (i + 1)) + j)) else none))

/-- SCK cycles of an entry, word by word: those it has sent, then its dummy cycles and those it has received, in which a
multi-lane port drives no data ball. -/
def PmsRun.cycles (r : PmsRun) (lsbf : Bool) : List (List FlsDrive) :=
  let n := r.e.wbits
  let hz (k : Nat) : List FlsDrive := List.replicate k flsHiZ
  r.sent.map (laneWord r.e.lanes n lsbf)
    ++ (List.range (if r.e.lanes = 0 then 0 else r.got)).map (fun i => hz ((if i = 0 then r.e.dummy else 0) + n / laneCount r.e.lanes))

/-- SER_PMSCFG.CPOL: the idle level of SCK. -/
def State.pmsIdleSck (s : State) (q : Fin 4) : Bool := s.bit (F.SER_PMSCFG_CPOL q)

/-- A master's balls between transfers: SCK idle, both selects high, data balls not driven (log entry 101). -/
def State.pmsRest (s : State) (q : Fin 4) : PmsPins :=
  { sck := some (s.pmsIdleSck q), cs0N := some true, cs1N := some true, io := flsHiZ }

/-- SCK cycles of an asserted select, in half periods: data change ahead of the edge that samples them (CPHA). -/
def State.pmsDrive (s : State) (q : Fin 4) (cs : Bool) (l : List FlsDrive) : List PmsPins :=
  let first := if s.bit (F.SER_PMSCFG_CPHA q) then !s.pmsIdleSck q else s.pmsIdleSck q
  l.flatMap (fun d => [first, !first].map (fun k => { sck := some k, cs0N := some cs, cs1N := some !cs, io := d }))

/-- CSHI periods with the selects high. -/
def State.pmsGap (s : State) (q : Fin 4) : List PmsPins := List.replicate (2 * s.get (F.SER_PMSCFG_CSHI q)) (s.pmsRest q)

/-- An entry as far as it has run: one select for the whole of it with CONT = 1, else one for each word (R431). -/
def State.pmsWave (s : State) (q : Fin 4) (r : PmsRun) : List PmsPins :=
  let ws := r.cycles (s.bit (F.SER_PMSCFG_LSBF q))
  let one (l : List FlsDrive) : List PmsPins := s.pmsDrive q r.e.cs l
  if r.e.cont then one ws.flatten ++ (if r.complete then s.pmsGap q else [])
  else ws.flatMap (fun l => one l ++ s.pmsGap q)

/-- Duration of an entry's SCK cycles so far in CLK_BUS periods: 2 × DIV each. -/
def State.pmsBusCycles (s : State) (q : Fin 4) (r : PmsRun) : Nat :=
  (r.cycles false).flatten.length * (2 * s.get (F.SER_PMSCFG_DIV q))

/-- The balls of port q.  A slave drives PMSq_IO0 alone, with the word it has begun while its select is asserted (R433). -/
def State.pmsBalls (s : State) (q : Fin 4) : List PmsPins :=
  if s.tim.under ∨ !s.bit (F.SER_PMSCFG_EN q) ∨ s.pmsTaken q then [PmsPins.off]
  else if s.pmsSlave q then
    match (s.pms q).cur with
    | some w => if !s.bit (F.SER_PMSSTAT_SLVSEL q) then [PmsPins.off]
      else (laneWord 0 (s.get (F.SER_PMSCFG_SWLEN q) + 1) (s.bit (F.SER_PMSCFG_LSBF q)) w).map (fun d => { PmsPins.off with io := d })
    | none => [PmsPins.off]
  else match (s.pms q).run with
    | some r => s.pmsWave q r
    | none => [s.pmsRest q]

/-! ## Interrupt requests, each a level (log entry 15) -/

/-- The request of port PMSq (R434). -/
def State.pmsIrq (s : State) (q : Fin 4) : Bool :=
  (s.bit (F.SER_PMSCFG_IEDONE q) && s.bit (F.SER_PMSSTAT_DONE q))
    || (s.bit (F.SER_PMSCFG_IERX q) && decide (32 ≤ s.get (F.SER_PMSSTAT_RXLVL q)))
    || (s.bit (F.SER_PMSCFG_IEERR q) && (s.bit (F.SER_PMSSTAT_ODDREL q) || s.bit (F.SER_PMSSTAT_QERR q)
      || s.bit (F.SER_PMSSTAT_TXUNF q) || s.bit (F.SER_PMSSTAT_RXOVF q) || s.bit (F.SER_PMSSTAT_RXUNF q)))

/-- The request of feedback port p: an enabled bit of FBK_STAT, or FIRED of an enabled compare unit with EVT = 1 (R294, R298,
R312). -/
def State.fbkIrq (s : State) (p : Fin 8) : Bool :=
  s.rd (A.FBK_STAT p) &&& s.rd (A.FBK_IEN p) &&& 0xFFFC != 0
    || (List.finRange 4).any (fun k : Fin 4 =>
      s.bitAt (F.FBK_IEN_CMP p) k && s.bit (F.FBK_CMPCFG_EVT p k) && s.bit (F.FBK_CMPSTAT_FIRED p k))

/-- The mailbox's request to SUP-A (R368). -/
def State.mbxIrq (s : State) : Bool :=
  (s.bit F.NET_MBXCFG_IERX && !s.net.rx.isEmpty) || (s.bit F.NET_MBXCFG_IETX && s.get F.NET_MBXTXSTAT_DONE != 0)

end Sys2Proof.Machine
end

