-- ==== Sys2Proof/WellFormed.lean ====
section
/-!
DEFINITION. Well-formed commands: the operand shapes that the outside can give the block (lengths of what the flash, a
frame or a core's store carries, positions within a tick).  A meaning is total, and takes an ill-formed command too.
-/
namespace Sys2Proof
open Sys2Proof.Machine

/-- A selector copy as the flash gives it, or one that stayed unreadable (R71). -/
def selWf (l : List Byte) : Bool := l.isEmpty || l.length == 16

/-- A position in a tick, in ps: a tick is 3,200 ps (R6). -/
def psWf (ps : Nat) : Bool := decide (ps < 3200)

/-- A sequenceId or another 16-bit count of a frame. -/
def seqWf (n : Nat) : Bool := decide (n < 65536)

/-- A comparator's input level: 0 to 1.6 V in sixteenths of a millivolt (R314). -/
def inputWf (mv : BitVec 12) (fr : Fin 16) : Bool := decide (16 * mv.toNat + fr ≤ 25600)

/-- The bytes of one core store to the program window: a naturally aligned byte, halfword or word (R410). -/
def storeWf (a : BitVec 24) (b : List Byte) : Bool :=
  (b.length == 1 || b.length == 2 || b.length == 4) && a.toNat % b.length == 0

/-- A store of a checkpoint (R355). -/
def egStoreWf : EgStore → Bool
  | .reg _ _ => true
  | .prog a b => storeWf a b
  | .erase _ => true

/-- Every operand has its shape. -/
def Instr.wf : Instr → Bool
  | .powerOnReset .. => true
  | .resetNLow .. => true
  | .pgoodLow .. => true
  | .restartRequest .. => true
  | .resetHoldoffExpiry .. => true
  | .resetRelease .. => true
  | .pllLock .. => true
  | .pllLockTimeout .. => true
  | .dllLock .. => true
  | .referenceFault .. => true
  | .referenceHoldExpiry .. => true
  | .dllUnlock .. => true
  | .calibrationStep _ table => table.length == 32
  | .timRateWrite .. => true
  | .timSlewWrite .. => true
  | .slewComplete .. => true
  | .timeStep .. => true
  | .ppsOutRise .. => true
  | .ppsOutFall .. => true
  | .ppsInEdge .. => true
  | .flashInit .. => true
  | .flashInitTimeout .. => true
  | .memoryClear .. => true
  | .selector _ copy0 copy1 => selWf copy0 && selWf copy1
  | .header _ bytes => bytes.length == 256
  | .crcTable _ bytes => decide (0 < bytes.length) && bytes.length % 4096 == 0
  | .bodyBlockRead _ bytes => bytes.length == 4096
  | .blockReread .. => true
  | .signature _ bytes => bytes.length == 4096
  | .verify .. => true
  | .apply .. => true
  | .overlay _ bytes => bytes.length == 20480
  | .paddockLock .. => true
  | .inputBandExit .. => true
  | .warmupComplete .. => true
  | .updatePoint .. => true
  | .periodStart .. => true
  | .epoch .. => true
  | .compareEdge .. => true
  | .converterTrigger .. => true
  | .restartCrossing .. => true
  | .periodRestart .. => true
  | .variablePeriodTimeout .. => true
  | .deadTimeEnd .. => true
  | .reportChange .. => true
  | .reportTimeout .. => true
  | .bothOn .. => true
  | .interlockCancel .. => true
  | .bootstrapRefresh .. => true
  | .refreshEnd .. => true
  | .legOvrWrite .. => true
  | .teamEnable .. => true
  | .teamDisable .. => true
  | .teamResume .. => true
  | .groupRelease .. => true
  | .sampleDelivery .. => true
  | .bitstreamLoss .. => true
  | .osrWrite .. => true
  | .sampleRelease .. => true
  | .taskStart .. => true
  | .commitArrival .. => true
  | .groupDeadline .. => true
  | .backgroundRelease .. => true
  | .backgroundGo .. => true
  | .scrubStep .. => true
  | .ceNop .. => true
  | .ceEnd .. => true
  | .ceClr .. => true
  | .ceLd .. => true
  | .ceAdd .. => true
  | .ceSub .. => true
  | .ceLdc .. => true
  | .ceMul .. => true
  | .ceMac .. => true
  | .ceMsu .. => true
  | .ceMacs .. => true
  | .ceMsus .. => true
  | .ceSts .. => true
  | .ceSha .. => true
  | .ceNeg .. => true
  | .ceAbs .. => true
  | .ceMin .. => true
  | .ceMax .. => true
  | .ceLim .. => true
  | .ceLims .. => true
  | .ceVlim .. => true
  | .ceLdw .. => true
  | .ceLdcw .. => true
  | .ceAddw .. => true
  | .ceBiq .. => true
  | .ceAmul .. => true
  | .ceStw .. => true
  | .ceTlu .. => true
  | .ceSincos .. => true
  | .ceAtan2 .. => true
  | .ceDiv .. => true
  | .ceSqrt .. => true
  | .ceTocmp .. => true
  | .ceSkz .. => true
  | .ceSks .. => true
  | .ceSkn .. => true
  | .ceSknn .. => true
  | .ceCap .. => true
  | .ceSetf .. => true
  | .generatorGo .. => true
  | .generatorAbort .. => true
  | .captureArm .. => true
  | .captureStop .. => true
  | .edgeAccept .. => true
  | .positionSet .. => true
  | .hallCodeTimeout .. => true
  | .ssiRequest .. => true
  | .ssiGo .. => true
  | .ssiFrameEnd .. => true
  | .speedZero .. => true
  | .probeLatch .. => true
  | .compareTargetWrite .. => true
  | .compareEnable .. => true
  | .comparePulseEnd .. => true
  | .emulationStep .. => true
  | .edgeTimeout .. => true
  | .freezeDetect .. => true
  | .ladderRampEnd .. => true
  | .comparatorCrossing _ _ mv fr _ => inputWf mv fr
  | .comparatorSample _ _ mv fr => inputWf mv fr
  | .tripSeen .. => true
  | .blankingEnd .. => true
  | .tripInEdge .. => true
  | .filteredTrip .. => true
  | .softOffStep2 .. => true
  | .tripClear .. => true
  | .autoRearmRelease .. => true
  | .safeNLow .. => true
  | .safeNHigh .. => true
  | .identSend .. => true
  | .identReceive _ _ stateId pdkId _ => stateId.length == 16 && pdkId.length == 16
  | .joinTimeout .. => true
  | .heartbeatSend .. => true
  | .heartbeatReceive _ _ _ h => decide (h.role ≤ 5)
  | .heartbeatTimeout .. => true
  | .laneSyncLoss .. => true
  | .commitFrameReceive _ _ _ rel _ words _ _ => decide (rel < 2 ^ 32) && decide (words.length ≤ 32)
  | .actInFall .. => true
  | .actInRise .. => true
  | .actConflict .. => true
  | .watchdogKick .. => true
  | .watchdogExpiry .. => true
  | .viewRuleExpiry .. => true
  | .actRelease .. => true
  | .checkpoint _ _ stores => decide (stores.length ≤ 256) && stores.all egStoreWf
  | .lockstepMismatch .. => true
  | .linkUp .. => true
  | .linkDown .. => true
  | .syncReceive _ _ ps _ seq dom _ _ _ hops => psWf ps && seqWf seq && decide (dom < 256) && seqWf hops
  | .followUpReceive _ _ _ seq dom _ _ => seqWf seq && decide (dom < 256)
  | .announceReceive _ _ _ seq dom _ => seqWf seq && decide (dom < 256)
  | .announceSend .. => true
  | .syncSend .. => true
  | .pdelayReqSend .. => true
  | .pdelayReqReceive _ _ ps _ seq => psWf ps && seqWf seq
  | .pdelayRespReceive _ _ ps _ _ _ seq _ _ => psWf ps && seqWf seq
  | .syncTimeout .. => true
  | .holdmaxExpiry .. => true
  | .ppsLoss .. => true
  | .icendCycleBoundary .. => true
  | .dataFrameSend .. => true
  | .receiveDeadline .. => true
  | .icendFrameReceive _ _ bytes _ _ => decide (bytes.length ≤ 1500)
  | .repairReqReceive _ _ bytes _ _ => decide (bytes.length ≤ 1500)
  | .helloSend .. => true
  | .helloReceive _ _ _ bytes _ _ => decide (bytes.length ≤ 1500)
  | .joinComplete .. => true
  | .otherFrameReceive _ _ bytes _ ps => decide (bytes.length ≤ 1518) && psWf ps
  | .mailboxPop .. => true
  | .mailboxSend .. => true
  | .mailboxSent .. => true
  | .egressFrameStart _ _ ps => psWf ps
  | .flashWindowRead _ _ _ line => line.length == 64
  | .flashProgramStore _ _ a bytes => storeWf a bytes
  | .flashEraseStore .. => true
  | .flswdataWrite .. => true
  | .flseraseWrite .. => true
  | .flsrdataRead .. => true
  | .flashFlush .. => true
  | .gatherTimeout .. => true
  | .flashOperationEnd .. => true
  | .flashOperationTimeout .. => true
  | .svcSelectStart .. => true
  | .svcSelectEnd .. => true
  | .svcNop .. => true
  | .svcRead .. => true
  | .svcReadNext .. => true
  | .svcWrite .. => true
  | .svcWriteNext .. => true
  | .svcSelect .. => true
  | .svcArm .. => true
  | .fuseProgram .. => true
  | .fuseRevoke .. => true
  | .fuseRaiseFloor .. => true
  | .fuseOperationDone .. => true
  | .pmsQueueEntry .. => true
  | .pmsEntryStart _ _ answer => decide (answer.length ≤ 510)
  | .pmsEntryDone .. => true
  | .pmsTxWrite .. => true
  | .pmsRxRead .. => true
  | .pmsSlaveWord .. => true
  | .pmsSlaveRelease .. => true
  | .hkSlot .. => true
  | .hkEvaluation .. => true
  | .shutdownGraceExpiry .. => true
  | .shutdownClockStop .. => true
  | .feedCondition .. => true
  | .feedOverlapEnd .. => true
  | .feedHealthy .. => true
  | .feedRevert .. => true
  | .journalCommit .. => true
  | .journalScan _ recs _ => recs.all (fun e => decide (e.slot < 128) && decide (e.seq < 2 ^ 32))
  | .logWrite .. => true
  | .snapshotCaptureRead .. => true
  | .registerWrite .. => true
  | .generalTagFree .. => true
  | .bitCapture .. => true
  | .decodeError .. => true
  | .overCurrentCondition .. => true
  | .laneInSync .. => true
  | .announceReceiptTimeout .. => true
  | .unsupportedPtpMessage .. => true
  | .partnerClockedSsiFrame .. => true

end Sys2Proof
end

