-- ==== Sys2Proof/Safety.lean ====
section
/-!
DEFINITION. The terms in which claims about the block are stated: how a command completes, who may write what, what a
command leaves as it was, and the form that the state's data keep.
-/
namespace Sys2Proof.Machine

/-- Every register word outside a list of addresses is as before. -/
def RegsBut (l : List Nat) (s u : State) : Prop := ∀ a, a ∉ l → u.rd a = s.rd a

/-- A write by master `m` to address `a` takes effect now: the master reaches the address, a general tag is free and
nothing waits for one (R26, R27), and no lock entry bars the register (R473). -/
def State.takes (s : State) (m : Master) (a : Nat) : Bool :=
  s.mayReach m true a && s.tagFree && s.stalled.isEmpty && !(s.load.locked && s.lockListed a)

/-- The state in which a write that takes a general tag acts (R26). -/
def State.tagged (s : State) : State := s.tagSet (s.tagsUse + 1)

/-- No team is in WAIT or RUN. -/
def State.allStopped (s : State) : Prop := ∀ t, s.tstate t ≠ stWAIT ∧ s.tstate t ≠ stRUN

/-- Every gate command of the device is low. -/
def State.allLow (s : State) : Prop := ∀ n, (s.leg n).gh = false ∧ (s.leg n).gl = false ∧ (s.leg n).gm = false

/-- The device is not yoked, or its image has not been locked: VIEW and the monitor do not act. -/
def State.alone (s : State) : Bool := !s.load.yoked || !s.load.locked

/-- The stores of words are in their canonical form: registers, shadow and staged copies, memory windows, snapshots. -/
def Body.canon (b : Body) : Bool :=
  cellsWf regReset b.regs && cellsWf regReset b.shadow && cellsWf regReset b.staged && cellsWf zeroWord b.mem
    && b.snaps.toList.all (fun c => cellsWf zeroWord c)

/-- The canonical form of the block, and of the block as the present tick found it. -/
def State.canon (s : State) : Bool := s.toBody.canon && s.base.canon

end Sys2Proof.Machine
end

