-- ==== Sys2Proof/Certificates/Slice0/Obligations.lean ====
section
/-!
DEFINITION. The statements about the block.  In each, `a` is the state in which the command acts: time has passed to the
command's tick (R6), with what fell due before it; `a.inTurn c` says that no command of a later rank has acted in that tick (R23,
as RankOrder says), and `.after a c` is the record that `c` has acted.  `u.yokCheck` is `u` with VIEW and the yoke's monitor brought up to
date (R344, R346), as YokeFollows says.
-/
open Sys2Proof Sys2Proof.Machine

namespace Sys2Proof.Machine

/-- The newest recorded fault is this one, detected now (R453, R460). -/
def NewestFault (u : State) (code ctx : Nat) : Prop :=
  u.rd A.EVT_LAST = BitVec.ofNat 32 code ∧ u.rd A.EVT_LASTCTX = BitVec.ofNat 32 ctx

/-- The words that a fault record writes. -/
def evtWords : List Nat :=
  [A.EVT_LAST, A.EVT_LASTCTX, A.EVT_LASTT0, A.EVT_LASTT1, A.EVT_LOGSTAT, A.EVT_LOGCNT]

end Sys2Proof.Machine

namespace Sys2Proof.Machine

/-- The tick at which a command reaches the block; an operation of a running program comes in its run (log entry 1). -/
def tickOf : Instr → Option Tick
  | .safeNLow t | .safeNHigh t => some t.tick
  | .powerOnReset t | .resetNLow t | .pgoodLow t | .restartRequest t _ _ | .resetHoldoffExpiry t
  | .resetRelease t _ | .pllLock t | .pllLockTimeout t | .dllLock t | .referenceFault t _ | .referenceHoldExpiry t
  | .dllUnlock t _ | .calibrationStep t _ | .timRateWrite t _ _ | .timSlewWrite t _ _ | .slewComplete t
  | .timeStep t _ | .ppsOutRise t | .ppsOutFall t | .ppsInEdge t _ | .flashInit t | .flashInitTimeout t
  | .memoryClear t | .selector t _ _ | .header t _ | .crcTable t _ | .bodyBlockRead t _ | .blockReread t _
  | .signature t _ | .verify t | .apply t | .overlay t _ | .paddockLock t | .inputBandExit t _ _
  | .warmupComplete t _ | .updatePoint t _ | .periodStart t _ _ | .epoch t _ _ | .compareEdge t _ _
  | .converterTrigger t _ _ _ | .restartCrossing t _ _ | .periodRestart t _ _ | .variablePeriodTimeout t _ _
  | .deadTimeEnd t _ _ | .reportChange t _ _ _ _ | .reportTimeout t _ _ | .bothOn t _ | .interlockCancel t _ _ => some t
  | .bootstrapRefresh t _ | .refreshEnd t _ _ | .legOvrWrite t _ _ _ | .teamEnable t _ _ | .teamDisable t _ _
  | .teamResume t _ _ | .groupRelease t _ | .sampleDelivery t _ | .bitstreamLoss t _ _ | .osrWrite t _ _ _
  | .sampleRelease t _ | .taskStart t _ | .commitArrival t _ | .groupDeadline t _ | .backgroundRelease t _
  | .backgroundGo t _ _ _ | .scrubStep t _ | .generatorGo t _ _ | .generatorAbort t _ _ | .captureArm t _ _
  | .captureStop t _ _ | .edgeAccept t _ _ _ _ | .positionSet t _ _ _ | .hallCodeTimeout t _ | .ssiRequest t _ _
  | .ssiGo t _ _ _ _ | .ssiFrameEnd t _ _ _ | .speedZero t _ | .probeLatch t _ _ | .compareTargetWrite t _ _ _ _
  | .compareEnable t _ _ _ _ | .comparePulseEnd t _ _ | .emulationStep t _ | .edgeTimeout t _ | .freezeDetect t _
  | .ladderRampEnd t _ | .comparatorCrossing t _ _ _ _ | .comparatorSample t _ _ _ | .tripSeen t _ | .blankingEnd t _ _
  | .tripInEdge t _ _ | .filteredTrip t _ _ | .softOffStep2 t _ _ | .tripClear t _ _ | .autoRearmRelease t _
  | .identSend t => some t
  | .identReceive t _ _ _ _ | .joinTimeout t | .heartbeatSend t | .heartbeatReceive t _ _ _ | .heartbeatTimeout t
  | .laneSyncLoss t _ | .commitFrameReceive t _ _ _ _ _ _ _ | .actInFall t | .actInRise t | .actConflict t
  | .watchdogKick t _ | .watchdogExpiry t | .viewRuleExpiry t | .actRelease t _ | .checkpoint t _ _
  | .lockstepMismatch t _ | .linkUp t _ _ | .linkDown t _ | .syncReceive t _ _ _ _ _ _ _ _ _
  | .followUpReceive t _ _ _ _ _ _ | .announceReceive t _ _ _ _ _ | .announceSend t | .syncSend t
  | .pdelayReqSend t _ | .pdelayReqReceive t _ _ _ _ | .pdelayRespReceive t _ _ _ _ _ _ _ _ | .syncTimeout t
  | .holdmaxExpiry t | .ppsLoss t | .icendCycleBoundary t | .dataFrameSend t | .receiveDeadline t
  | .icendFrameReceive t _ _ _ _ | .repairReqReceive t _ _ _ _ | .helloSend t | .helloReceive t _ _ _ _ _
  | .joinComplete t | .otherFrameReceive t _ _ _ _ | .mailboxPop t _ | .mailboxSend t _ _ _ _ | .mailboxSent t _
  | .egressFrameStart t _ _ | .flashWindowRead t _ _ _ | .flashProgramStore t _ _ _ | .flashEraseStore t _ _
  | .flswdataWrite t _ _ | .flseraseWrite t _ _ | .flsrdataRead t _ _ => some t
  | .flashFlush t _ _ | .gatherTimeout t | .flashOperationEnd t _ | .flashOperationTimeout t | .svcSelectStart t _
  | .svcSelectEnd t _ _ _ | .svcNop t | .svcRead t _ _ | .svcReadNext t _ | .svcWrite t _ _ | .svcWriteNext t _
  | .svcSelect t | .svcArm t _ | .fuseProgram t _ _ | .fuseRevoke t _ _ | .fuseRaiseFloor t _ _
  | .fuseOperationDone t _ | .pmsQueueEntry t _ _ _ | .pmsEntryStart t _ _ | .pmsEntryDone t _
  | .pmsTxWrite t _ _ _ | .pmsRxRead t _ _ | .pmsSlaveWord t _ _ | .pmsSlaveRelease t _ _ _ | .hkSlot t _ _ _ _ _
  | .hkEvaluation t | .shutdownGraceExpiry t | .shutdownClockStop t | .feedCondition t _ _ _ | .feedOverlapEnd t
  | .feedHealthy t _ | .feedRevert t | .journalCommit t _ | .journalScan t _ _ | .logWrite t _ _
  | .snapshotCaptureRead t _ _ _ | .registerWrite t _ _ _ _ | .generalTagFree t | .bitCapture t _ _
  | .decodeError t _ | .overCurrentCondition t _ _ | .laneInSync t _ | .announceReceiptTimeout t
  | .unsupportedPtpMessage t _ | .partnerClockedSsiFrame t _ => some t
  | .ceNop _ _ | .ceEnd _ _ | .ceClr _ _ _ | .ceLd _ _ _ _ | .ceAdd _ _ _ _ | .ceSub _ _ _ _ | .ceLdc _ _ _ _
  | .ceMul _ _ _ _ _ | .ceMac _ _ _ _ _ | .ceMsu _ _ _ _ _ | .ceMacs _ _ _ _ _ | .ceMsus _ _ _ _ _
  | .ceSts _ _ _ _ _ | .ceSha _ _ _ _ | .ceNeg _ _ _ | .ceAbs _ _ _ | .ceMin _ _ _ _ | .ceMax _ _ _ _
  | .ceLim _ _ _ _ | .ceLims _ _ _ _ | .ceVlim _ _ _ _ | .ceLdw _ _ _ _ | .ceLdcw _ _ _ _ | .ceAddw _ _ _ _
  | .ceBiq _ _ _ _ _ _ | .ceAmul _ _ _ _ | .ceStw _ _ _ _ | .ceTlu _ _ _ _ _ | .ceSincos _ _ _ _ | .ceAtan2 _ _ _
  | .ceDiv _ _ _ _ | .ceSqrt _ _ _ | .ceTocmp _ _ _ _ _ | .ceSkz _ _ _ _ _ | .ceSks _ _ _ _ _ | .ceSkn _ _ _ _
  | .ceSknn _ _ _ _ | .ceCap _ _ _ _ | .ceSetf _ _ _ => none

end Sys2Proof.Machine

/-- Every command completes, for every operand and state, with its own effect: a command of a tick acts on what its tick
finds, in its turn; an operation of a program acts where its run stands. -/
def Sys2Proof.Machine.Part.CommandsAct : Prop :=
  ∀ (c : Instr) (s : State),
    (∀ t, tickOf c = some t →
      (∃ u, exec c s = .next u)
      ∧ (let a := s.advance t
        a.inTurn c = true → exec c s = .next ((a.act c).after a c)))
    ∧ (tickOf c = none → exec c s = .next ((s.act c).after s c))

/-- The front command is what a step runs, with the rest waiting; an empty queue lets one tick pass (log entry 2). -/
def Sys2Proof.Machine.Part.StepFront : Prop :=
  ∀ (c : Instr) (rest : List Instr) (s : State),
    step { s with pending := c :: rest } = exec c { s with pending := rest }
      ∧ step { s with pending := [] } = .next ({ s with pending := [] }.advance (s.now + 1))

/-- A step is the front command, and every command completes. -/
def Obligations.StepRunsFront : Prop :=
  Part.StepFront ∧ Part.CommandsAct

namespace Sys2Proof.Machine

/-- What a reset leaves (R111, R121): registers at their reset words but for the cause, the fuses shown and the retained
record; gates low; memories cleared at power-on only; fuses and the fault log kept. -/
def AfterReset (a u : State) (src : RstSrc) : Prop :=
  u.rd A.IDG_RSTCAUSE = BitVec.ofNat 32 src.mask
    ∧ (∀ x, x ∉ [A.IDG_RSTCAUSE, A.BOOT_FUSESEC, A.HKP_SHDREC0, A.HKP_SHDREC1, A.HKP_SHDREC2] → u.rd x = regReset x)
    ∧ u.shadow = [] ∧ u.staged = [] ∧ u.allLow ∧ u.allStopped
    ∧ u.mem = (if src = .por then [] else a.mem) ∧ u.shutRec = (if src = .por then ShutRec.reset else a.shutRec)
    ∧ u.fuse = a.fuse ∧ u.jrn.log = a.jrn.log ∧ u.tim = { TimSt.reset with under := src == .por } ∧ u.load = LoadSt.reset ∧ u.due = []

/-- A reset hold-off has begun (R111): its cause is noted, and no team runs or waits. -/
def HoldoffBegun (a u : State) (src : RstSrc) : Prop :=
  u.load = { a.load with holdoff := some (a.now, src) } ∧ u.allStopped ∧ u.tim = a.tim ∧ u.fuse = a.fuse

end Sys2Proof.Machine

/-- POWER_ON_RESET resets at once; RESET_HOLDOFF_EXPIRY resets once the hold-off has run for 4,096 ticks. -/
def Sys2Proof.Machine.Part.ResetLeaves : Prop :=
  ∀ (s : State) (t : Tick), let a := s.advance t
    (a.inTurn (.powerOnReset t) = true → ∃ u : State, exec (.powerOnReset t) s = .next (u.yokCheck.after a (.powerOnReset t)) ∧ AfterReset a u .por)
    ∧ ∀ t0 src, a.load.holdoff = some (t0, src) → t0 + 4096 ≤ a.now →
        a.inTurn (.resetHoldoffExpiry t) = true → ∃ u : State, exec (.resetHoldoffExpiry t) s = .next (u.yokCheck.after a (.resetHoldoffExpiry t)) ∧ AfterReset a u src

/-- RESET_N, PGOOD and a keyed restart bring every team to its safe state and begin the hold-off. -/
def Sys2Proof.Machine.Part.ResetRequests : Prop :=
  ∀ (s : State) (t : Tick) (m : Master) (v : Word), let a := s.advance t
    a.tim.booting = true → a.load.holdoff = none →
      (a.inTurn (.resetNLow t) = true → ∃ u : State, exec (.resetNLow t) s = .next (u.yokCheck.after a (.resetNLow t)) ∧ HoldoffBegun a u .pin)
      ∧ (a.inTurn (.pgoodLow t) = true → ∃ u : State, exec (.pgoodLow t) s = .next (u.yokCheck.after a (.pgoodLow t)) ∧ HoldoffBegun a u .pgood)
      ∧ (a.takes m A.IDG_RESTART = true → bitsGet v 16 16 = 0xA5C3 → bitsGet v 0 1 = 1 →
          a.inTurn (.restartRequest t m v) = true → ∃ u : State, exec (.restartRequest t m v) s = .next (u.yokCheck.after a (.restartRequest t m v)) ∧ HoldoffBegun a u (if m = .svc then .svc else .fw))

/-- Output balls before start-up is done (R112, R63, R208): high impedance below the supply thresholds; above them a gate whose
command is low is driven low, the feedback outputs are off until the LEGTEAM section is applied, and the feed enables
are not driven before the first housekeeping round. -/
def Sys2Proof.Machine.Part.StartUpBalls : Prop :=
  ∀ (s : State) (n : Fin 72) (g : Fin 8) (p : Fin 8) (o : Fin 2) (q : Fin 4) (b : Bool),
    (s.tim.under = true → s.gateBalls n = none ∧ s.actBall = none ∧ s.faultBall = none ∧ s.ckBall g = none ∧ s.ppsBall = none
        ∧ s.fboBalls o = none ∧ s.fbClkBall p = none ∧ s.feedBall b = none ∧ s.linkBalls = none ∧ s.flsBalls = none
        ∧ s.pmsBalls q = [PmsPins.off])
      ∧ (s.tim.under = false →
        (s.allLow → s.gateBalls n = some ⟨false, false, false⟩)
        ∧ (s.get F.IDG_LOADSTAT_PHASE < 10 → s.fboBalls o = some ⟨false, false, false⟩ ∧ s.fbClkBall p = some false)
        ∧ (s.hk.feedsOn = false → s.feedBall b = none)
        ∧ (s.bit (F.SDM_CKCFG_EN g) = false → s.ckBall g = some false)
        ∧ (s.bit (F.SER_PMSCFG_EN q) = false → s.pmsBalls q = [PmsPins.off]))

/-- What a reset leaves, and how one comes about. -/
def Obligations.Resets : Prop :=
  Part.ResetLeaves ∧ Part.ResetRequests ∧ Part.StartUpBalls

/-- RESET_RELEASE, PLL_LOCK, PLL_LOCK_TIMEOUT and DLL_LOCK bring the clocks up. -/
def Sys2Proof.Machine.Part.ClockBringUp : Prop :=
  ∀ (s : State) (t : Tick) (test : Bool), let a := s.advance t
    (a.tim.booting = false →
      a.inTurn (.resetRelease t test) = true → ∃ u : State, exec (.resetRelease t test) s = .next (u.yokCheck.after a (.resetRelease t test)) ∧ u.get F.IDG_LOADSTAT_PHASE = 1
        ∧ u.get F.IDG_INBAND_PGOOD = 0 ∧ u.tim = { a.tim with under := false, booting := true, relAt := a.now }
        ∧ u.load = { a.load with testMode := test } ∧ RegsBut [A.IDG_LOADSTAT, A.IDG_INBAND] a u
        ∧ u = { a with regs := u.regs, same := u.same, tim := u.tim, load := u.load })
    ∧ (a.tim.booting = true → a.tim.pll = false →
        (a.inTurn (.pllLock t) = true → ∃ u : State, exec (.pllLock t) s = .next (u.yokCheck.after a (.pllLock t)) ∧ u.get F.CLK_PLLSTAT_LOCK = 1
          ∧ u.tim = { a.tim with pll := true, run := true, dev := 0, pllAt := a.now }
          ∧ u.due = a.due ++ [(a.now + 640000, .hkRound)] ∧ RegsBut [A.CLK_PLLSTAT] a u
          ∧ u = { a with regs := u.regs, same := u.same, tim := u.tim, load := u.load, hk := u.hk, due := u.due })
        ∧ (a.tim.relAt + 625000 ≤ a.now → a.load.failed = false →
            a.inTurn (.pllLockTimeout t) = true → ∃ u : State, exec (.pllLockTimeout t) s = .next (u.yokCheck.after a (.pllLockTimeout t)) ∧ u.load.failed = true ∧ u.faultN = false
              ∧ NewestFault u 0x0B41 0 ∧ RegsBut evtWords a u ∧ u = { a with regs := u.regs, same := u.same, load := u.load, jrn := u.jrn }))
    ∧ (a.clkOn = true → a.tim.pll = true → a.tim.dllAt = 0 →
        a.inTurn (.dllLock t) = true → ∃ u : State, exec (.dllLock t) s = .next (u.yokCheck.after a (.dllLock t)) ∧ u.get F.CLK_PLLSTAT_DLL_ALL = 1 ∧ u.tim.dllAt = a.now
          ∧ (a.load.testMode = false → u.get F.IDG_LOADSTAT_PHASE = 2)
          ∧ RegsBut [A.CLK_PLLSTAT, A.IDG_LOADSTAT] a u
          ∧ u = { a with regs := u.regs, same := u.same, tim := u.tim, ser := u.ser })

/-- REFERENCE_FAULT and DLL_UNLOCK stop teams and are seen by the yoke as device-level faults, the second where the line is a
leg's of a yoked team (R349); REFERENCE_HOLD_EXPIRY idles the links.  That LOCK clears at every reference fault is the
model's choice (log entry 79). -/
def Sys2Proof.Machine.Part.ClockFaults : Prop :=
  ∀ (s : State) (t : Tick) (lost : Bool) (line : Fin 362), let a := s.advance t
    a.clkOn = true →
      (a.tim.pll = true → a.tim.refAt = none →
        a.inTurn (.referenceFault t lost) = true → ∃ u : State, exec (.referenceFault t lost) s = .next (u.yokFault.yokCheck.after a (.referenceFault t lost)) ∧ u.tim.refAt = some a.now
          ∧ u.tim.frozen = some a.totalRate ∧ u.get F.CLK_PLLSTAT_REFLOSS = 1 ∧ u.get F.CLK_PLLSTAT_LOCK = 0
          ∧ u.get F.TIM_STAT_NETLOCK = 0 ∧ u.allStopped ∧ NewestFault u (if lost then 0x0B41 else 0x0B40) 0)
      ∧ (∀ t0, a.tim.refAt = some t0 → t0 + 3125000 ≤ a.now →
          a.inTurn (.referenceHoldExpiry t) = true → ∃ u : State, exec (.referenceHoldExpiry t) s = .next (u.yokCheck.after a (.referenceHoldExpiry t)) ∧ u = { a with tim := { a.tim with linksIdle := true } })
      ∧ (a.tim.dllAt ≠ 0 → line.val ∉ a.tim.deadLines →
          a.inTurn (.dllUnlock t line) = true → ∃ u : State, (exec (.dllUnlock t line) s = .next (u.yokCheck.after a (.dllUnlock t line)) ∨ exec (.dllUnlock t line) s = .next (u.yokFault.yokCheck.after a (.dllUnlock t line)))
            ∧ u.tim = { a.tim with deadLines := a.tim.deadLines ++ [line.val] } ∧ u.get F.CLK_PLLSTAT_DLL_ALL = 0
            ∧ NewestFault u 0x0B42 (min 72 (line / 5))
            ∧ ∀ n : Fin 72, n.val = line / 5 → ∀ tm, (a.leg n).team = some tm →
                u.tstate tm ≠ stWAIT ∧ u.tstate tm ≠ stRUN)

/-- Clock bring-up and clock faults. -/
def Obligations.Clocks : Prop :=
  Part.ClockBringUp ∧ Part.ClockFaults

/-- TIM_RATE_WRITE, TIM_SLEW_WRITE, SLEW_COMPLETE and TIME_STEP: a write by an owner sets the clamped rate or the offset,
another one is ignored; a step is refused while a team runs. -/
def Obligations.TimeSteering : Prop :=
  ∀ (s : State) (t : Tick) (m : Master) (v : Word), let a := s.advance t
    (a.takes m A.TIM_RATE = true →
      a.inTurn (.timRateWrite t m v) = true → ∃ u : State, exec (.timRateWrite t m v) s = .next (u.yokCheck.after a (.timRateWrite t m v))
        ∧ (a.timOwner m.writer = true → u.rd A.TIM_RATE = BitVec.ofInt 32 (clampI (-65970697) 65970697 v.toInt)
            ∧ (clampI (-65970697) 65970697 v.toInt ≠ v.toInt → u.get F.TIM_STAT_RATE_CLAMP = 1))
        ∧ (a.timOwner m.writer = false → u.rd A.TIM_RATE = a.rd A.TIM_RATE ∧ u.get F.TIM_STAT_WR_IGN = 1)
        ∧ RegsBut [A.TIM_RATE, A.TIM_STAT, A.EVT_TAGHWM] a u ∧ u = { a with regs := u.regs, same := u.same, tagsUse := a.tagsUse + 1 })
    ∧ (a.takes m A.TIM_SLEW = true →
      a.inTurn (.timSlewWrite t m v) = true → ∃ u : State, exec (.timSlewWrite t m v) s = .next (u.yokCheck.after a (.timSlewWrite t m v))
        ∧ (a.timOwner m.writer = true → u.tim.slew = v.toInt * slewUnit)
        ∧ (a.timOwner m.writer = false → u.tim = a.tim ∧ u.get F.TIM_STAT_WR_IGN = 1)
        ∧ RegsBut [A.TIM_STAT, A.EVT_TAGHWM] a u ∧ u = { a with regs := u.regs, same := u.same, tim := u.tim, tagsUse := a.tagsUse + 1 })
    ∧ (a.clkOn = true → a.tim.slew = 0 →
      a.inTurn (.slewComplete t) = true → ∃ u : State, exec (.slewComplete t) s = .next (u.yokCheck.after a (.slewComplete t)) ∧ u.get F.TIM_STAT_SLEWING = 0
        ∧ RegsBut [A.TIM_STAT, A.NET_TSTAT] a u ∧ u = { a with regs := u.regs, same := u.same })
    ∧ (a.takes m A.TIM_STEPCTL = true →
      a.inTurn (.timeStep t m) = true → ∃ u : State, exec (.timeStep t m) s = .next (u.yokCheck.after a (.timeStep t m))
        ∧ (a.anyRun = true → u.tim = a.tim ∧ u.get F.TIM_STAT_STEP_REFUSED = 1
            ∧ RegsBut [A.TIM_STAT, A.EVT_TAGHWM] a u)
        ∧ (a.anyRun = false → u.tim.dev = a.stepValue ∧ u.tim.stepAt = a.now ∧ u.get F.TIM_STAT_NETLOCK = 0))

/-- PPS_OUT rises at a whole second of device time and falls after its width; an edge of PPS_IN is stamped. -/
def Sys2Proof.Machine.Part.PpsPulses : Prop :=
  ∀ (s : State) (t : Tick) (fine : Fin 256), let a := s.advance t
    a.clkOn = true →
      (∀ x, a.secInTick = some x → a.load.locked = true → a.get F.TIM_CTL_PPSO_EN ≠ 0 → 360 ∉ a.tim.deadLines →
        x % secFine = 0 ∧ a.tim.dev ≤ x ∧ x < a.tim.dev + 256
        ∧ (a.inTurn (.ppsOutRise t) = true →
          ∃ u : State, exec (.ppsOutRise t) s = .next (u.yokCheck.after a (.ppsOutRise t))
          ∧ u = { a with tim := { a.tim with pps := true, ppsAt := a.now, ppsStamp := x } }))
      ∧ (a.tim.pps = true → a.tim.ppsAt + a.get F.TIM_CTL_PPSO_WIDTH * 312500 ≤ a.now → 360 ∉ a.tim.deadLines →
        a.inTurn (.ppsOutFall t) = true → ∃ u : State, exec (.ppsOutFall t) s = .next (u.yokCheck.after a (.ppsOutFall t)) ∧ u = { a with tim := { a.tim with pps := false } })
      ∧ (361 ∉ a.tim.deadLines →
        a.inTurn (.ppsInEdge t fine) = true → ∃ u : State, exec (.ppsInEdge t fine) s = .next (u.yokCheck.after a (.ppsInEdge t fine))
          ∧ u.rd A.TIM_PPSIN0 = BitVec.ofNat 32 (a.stampOf (a.nowF + fine))
          ∧ u.rd A.TIM_PPSIN1 = BitVec.ofNat 32 (a.stampOf (a.nowF + fine) / 2 ^ 32)
          ∧ u.rd A.TIM_PPSIN2 = BitVec.ofNat 32 (a.stampOf (a.nowF + fine) / 2 ^ 64 % 256)
          ∧ RegsBut [A.TIM_PPSIN0, A.TIM_PPSIN1, A.TIM_PPSIN2, A.TIM_RATE, A.TIM_STAT] a u)

/-- CALIBRATION_STEP: every 256 µs one line takes its table, and the engine moves on to the next of the 362 lines. -/
def Sys2Proof.Machine.Part.CalibrationRound : Prop :=
  ∀ (s : State) (t : Tick) (table : List Int), let a := s.advance t
    let line := a.get F.DLC_STAT_LINE
    a.clkOn = true → a.bit F.DLC_CTL_EN = true → a.tim.dllAt ≠ 0 → a.tim.calAt + 80000 ≤ a.now → line < 362 →
      a.inTurn (.calibrationStep t table) = true → ∃ u : State, exec (.calibrationStep t table) s = .next (u.yokCheck.after a (.calibrationStep t table))
        ∧ (line, table) ∈ u.tim.tables ∧ (∀ l x, l ≠ line → ((l, x) ∈ u.tim.tables ↔ (l, x) ∈ a.tim.tables))
        ∧ u.tim.calAt = a.now ∧ u.get F.DLC_STAT_LINE = (line + 1) % 362
        ∧ (line = 361 → u.get F.IDG_WARMSTAT_DLC = 1)
        ∧ RegsBut [A.DLC_STAT, A.IDG_WARMSTAT] a u ∧ u = { a with regs := u.regs, same := u.same, tim := u.tim }

/-- Second pulses and delay-line calibration. -/
def Obligations.PulsesAndCalibration : Prop :=
  Part.PpsPulses ∧ Part.CalibrationRound

/-- FLASH_INIT, FLASH_INIT_TIMEOUT and MEMORY_CLEAR: the first phases of the load. -/
def Sys2Proof.Machine.Part.LoadFlashAndClear : Prop :=
  ∀ (s : State) (t : Tick), let a := s.advance t
    a.clkOn = true →
      (a.get F.IDG_LOADSTAT_PHASE = 2 → a.tim.dllAt + 31250 ≤ a.now →
        (a.inTurn (.flashInit t) = true → ∃ u : State, exec (.flashInit t) s = .next (u.yokCheck.after a (.flashInit t)) ∧ u.get F.IDG_LOADSTAT_PHASE = 3
          ∧ RegsBut [A.IDG_LOADSTAT] a u ∧ u = { a with regs := u.regs, same := u.same, ser := { a.ser with bus := u.ser.bus } })
        ∧ (a.tim.dllAt + 31250 + 156250000 ≤ a.now →
          a.inTurn (.flashInitTimeout t) = true → ∃ u : State, exec (.flashInitTimeout t) s = .next (u.yokCheck.after a (.flashInitTimeout t)) ∧ u.get F.IDG_LOADSTAT_PHASE = 15
            ∧ u.load = { a.load with failed := true } ∧ u.faultN = false ∧ NewestFault u 0x0F01 0
            ∧ RegsBut (A.IDG_LOADSTAT :: evtWords) a u))
      ∧ (2 ≤ a.get F.IDG_LOADSTAT_PHASE → a.get F.IDG_LOADSTAT_PHASE ≤ 6 → a.load.cleared = false →
        a.inTurn (.memoryClear t) = true → ∃ u : State, exec (.memoryClear t) s = .next (u.yokCheck.after a (.memoryClear t))
          ∧ (∀ k, k < K.rxSlot 0 0 ∨ K.sram 0 0 ≤ k → u.memGet k = 0)
          ∧ (∀ k, K.rxSlot 0 0 ≤ k → k < K.sram 0 0 → u.memGet k = a.memGet k)
          ∧ u.upset = [] ∧ u = { a with mem := u.mem, upset := [], load := { a.load with cleared := true } })

/-- SELECTOR, HEADER, CRC_TABLE and SIGNATURE: a structure whose CRC stands moves the load to its next phase, and one whose
CRC does not asks for a re-read of it. -/
def Sys2Proof.Machine.Part.LoadStructures : Prop :=
  ∀ (s : State) (t : Tick) (b c : List Byte), let a := s.advance t
    a.clkOn = true → a.load.reread = .none →
      (a.get F.IDG_LOADSTAT_PHASE = 3 → b.length = 16 → c.length = 16 → selCrc b = true → selCrc c = true →
        a.inTurn (.selector t b c) = true → ∃ u : State, exec (.selector t b c) s = .next (u.yokCheck.after a (.selector t b c)) ∧ u.get F.IDG_LOADSTAT_PHASE = 4
          ∧ u.load.slot = (selChoose b c).1 ∧ u.load.fallback = (selChoose b c).2
          ∧ RegsBut [A.IDG_LOADSTAT, A.SER_FLSRD] a u)
      ∧ (a.get F.IDG_LOADSTAT_PHASE = 4 → b.length = 256 →
        a.inTurn (.header t b) = true → ∃ u : State, exec (.header t b) s = .next (u.yokCheck.after a (.header t b))
          ∧ (hdrCrcOk b = true → hdrRefuse b a.load.slot (a.get F.IDG_SILID_STEP) a.fuse.floor = 0 →
              u.get F.IDG_LOADSTAT_PHASE = 5 ∧ u.load.header = b ∧ u.rd A.SER_FLSRD = (u.rdShow (hdrProfile b)).rd A.SER_FLSRD
              ∧ RegsBut [A.IDG_LOADSTAT, A.SER_FLSRD] a u)
          ∧ (hdrCrcOk b = false → u.load = { a.load with reread := .header, rereads := 0 }))
      ∧ (a.get F.IDG_LOADSTAT_PHASE = 5 → b.length = hTabLen a.load.header →
        a.inTurn (.crcTable t b) = true → ∃ u : State, exec (.crcTable t b) s = .next (u.yokCheck.after a (.crcTable t b))
          ∧ (a.tableOk b = true → u.get F.IDG_LOADSTAT_PHASE = 6 ∧ u.get F.IDG_LOADSTAT_BLOCK = 0 ∧ u.load.crcTab = b
              ∧ u.load.body = [] ∧ RegsBut [A.IDG_LOADSTAT, A.SER_FLSRD] a u)
          ∧ (a.tableOk b = false → u.load = { a.load with reread := .crcTable, rereads := 0 }))
      ∧ (a.get F.IDG_LOADSTAT_PHASE = 7 → b.length = 4096 →
        a.inTurn (.signature t b) = true → ∃ u : State, exec (.signature t b) s = .next (u.yokCheck.after a (.signature t b))
          ∧ (sigCrc b = true → u.get F.IDG_LOADSTAT_PHASE = 8 ∧ u.load.sig = b
              ∧ RegsBut [A.IDG_LOADSTAT, A.SER_FLSRD] a u)
          ∧ (sigCrc b = false → u.load = { a.load with reread := .signature, rereads := 0 }))

/-- The first steps of an image load. -/
def Obligations.LoadBegins : Prop :=
  Part.LoadFlashAndClear ∧ Part.LoadStructures

/-- BODY_BLOCK_READ: the next block, once its CRC stands, joins the body; the load goes on to the block after it, or to
the signature after the last one. -/
def Sys2Proof.Machine.Part.LoadBody : Prop :=
  ∀ (s : State) (t : Tick) (b : List Byte), let a := s.advance t
    a.clkOn = true → a.load.reread = .none → a.get F.IDG_LOADSTAT_PHASE = 6 → a.load.cleared = true → b.length = 4096 →
      a.inTurn (.bodyBlockRead t b) = true → ∃ u : State, exec (.bodyBlockRead t b) s = .next (u.yokCheck.after a (.bodyBlockRead t b))
        ∧ (a.blockOk b = false → u.load = { a.load with reread := .block, rereads := 0 } ∧ RegsBut [A.SER_FLSRD] a u
            ∧ u = { a with regs := u.regs, same := u.same, ser := { a.ser with bus := u.ser.bus }, load := u.load })
        ∧ (a.blockOk b = true → 0 < a.blocksDone →
            u.load = { a.load with reread := .none, rereads := 0, body := a.load.body ++ b }
            ∧ (a.blocksDone + 1 < hBlocks a.load.header →
                u.get F.IDG_LOADSTAT_BLOCK = (a.blocksDone + 1) % 2 ^ F.IDG_LOADSTAT_BLOCK.width
                ∧ u.get F.IDG_LOADSTAT_PHASE = 6)
            ∧ (hBlocks a.load.header ≤ a.blocksDone + 1 → u.get F.IDG_LOADSTAT_PHASE = 7)
            ∧ RegsBut [A.IDG_LOADSTAT, A.SER_FLSRD] a u
            ∧ u = { a with regs := u.regs, same := u.same, mem := u.mem, upset := u.upset, load := u.load,
                           ser := { a.ser with bus := u.ser.bus } })

/-- BLOCK_REREAD: a re-read is counted; a structure that stands now is taken as a first read is, one that fails for the
third time is given up, and one that fails before that stays asked for. -/
def Sys2Proof.Machine.Part.LoadReread : Prop :=
  ∀ (s : State) (t : Tick) (b : List Byte), let a := s.advance t
    a.clkOn = true → a.load.reread ≠ .none → b.length = a.rereadLen a.load.reread →
      a.inTurn (.blockReread t b) = true → ∃ u w : State, exec (.blockReread t b) s = .next (u.yokCheck.after a (.blockReread t b))
        ∧ w = (((a.loadBus a.load.reread).bumpSat F.IDG_LOADSTAT_REREADS).modLoad
            (fun l => { l with rereads := l.rereads + 1 })).rdSelect
        ∧ w.load = { a.load with rereads := a.load.rereads + 1 }
        ∧ w.get F.IDG_LOADSTAT_REREADS = min (2 ^ F.IDG_LOADSTAT_REREADS.width - 1) (a.get F.IDG_LOADSTAT_REREADS + 1)
        ∧ (a.load.reread = .signature → sigCrc b = true → u.get F.IDG_LOADSTAT_PHASE = 8 ∧ u.load.sig = b
            ∧ u.load.reread = .none)
        ∧ (a.load.reread = .signature → sigCrc b = false → a.load.rereads < 2 → u = w)
        ∧ (a.load.reread = .signature → sigCrc b = false → 2 ≤ a.load.rereads → u = w.loadRefuse imSIGNATURE 0)
        ∧ (a.load.reread = .header → hdrCrcOk b = true → u = w.headerUse b)
        ∧ (a.load.reread = .crcTable → a.tableOk b = true → u = w.tableUse b)
        ∧ (a.load.reread = .block → a.blockOk b = true → u = w.blockUse b)

/-- The body of the image, and re-reads. -/
def Obligations.LoadBlocks : Prop :=
  Part.LoadBody ∧ Part.LoadReread

/-- VERIFY, APPLY and PADDOCK_LOCK: an image that passes every check is accepted, applied and locked; one that fails with
no other slot to try ends the load as failed. -/
def Obligations.LoadAcceptance : Prop :=
  ∀ (s : State) (t : Tick), let a := s.advance t
    a.clkOn = true →
      (a.get F.IDG_LOADSTAT_PHASE = 8 →
        a.inTurn (.verify t) = true → ∃ u : State, exec (.verify t) s = .next (u.yokCheck.after a (.verify t))
          ∧ (verifyRefuse a.load.header a.load.body a.load.sig a.load.sects a.fuse = 0 →
              u.load = { a.load with accepted := true } ∧ u.get F.IDG_LOADSTAT_PHASE = 9
              ∧ RegsBut [A.IDG_LOADSTAT] a u ∧ u = { a with regs := u.regs, same := u.same, load := u.load })
          ∧ (verifyRefuse a.load.header a.load.body a.load.sig a.load.sects a.fuse ≠ 0 →
              (a.load.fallback = false ∨ a.load.second = true) →
              u.load.failed = true ∧ u.get F.IDG_LOADSTAT_PHASE = 15 ∧ u.faultN = false ∧ u.load.body = []))
      ∧ (a.get F.IDG_LOADSTAT_PHASE = 9 →
        a.inTurn (.apply t) = true → ∃ u : State, exec (.apply t) s = .next (u.yokCheck.after a (.apply t)) ∧ u.get F.IDG_LOADSTAT_PHASE = 10)
      ∧ (a.get F.IDG_LOADSTAT_PHASE = 10 → a.load.reread = .none → a.ovlCount ≤ a.load.ovlRead →
        a.inTurn (.paddockLock t) = true → ∃ u : State, exec (.paddockLock t) s = .next (u.yokCheck.after a (.paddockLock t)) ∧ u.get F.IDG_LOADSTAT_PHASE = 11 ∧ u.load.locked = true
          ∧ u.load.supRun = true ∧ u.get F.PDK_STAT_LOCKED = 1 ∧ (a.now + 1, Deferred.imageEn) ∈ u.due)

/-- Step 3 and step 5 of the application: the Paddock in force is the image's section, and NETID gives the device its
address and starts the links. -/
def Sys2Proof.Machine.Part.AppliedSections : Prop :=
  ∀ s : State,
    s.applyPaddock.load.pdk = sectsBytes s.load.body s.load.sects [tPADDOCK]
    ∧ (∀ n, s.applyPaddock.ilkReq n = true → n < 72 →
        s.applyPaddock.get (F.LEG_EDGECFG_GSR_EN n) = 1 ∧ s.applyPaddock.get (F.LEG_EDGECFG_ILK_EN n) = 1)
    ∧ s.applyNetid.get F.NET_ADDR_ADDR = le (sectsBytes s.load.body s.load.sects [tNETID]) 0 2 % 2 ^ F.NET_ADDR_ADDR.width
    ∧ (s.tim.refAt = none → s.applyNetid.tim.linksIdle = false) ∧ s.applyNetid.load.yoked = hYoked s.load.header
    ∧ RegsBut [A.NET_ADDR] s s.applyNetid

/-- OVERLAY: an intact record that does not fit the image is skipped and counted; one that fits and is the first of its
table waits for the last record, which carries every kept one to its table. -/
def Sys2Proof.Machine.Part.Overlays : Prop :=
  ∀ (s : State) (t : Tick) (b : List Byte), let a := s.advance t
    a.clkOn = true → a.get F.IDG_LOADSTAT_PHASE = 10 → a.load.reread = .none → a.load.ovlRead < a.ovlCount →
    b.length = 20480 → ovlCrcOk b = true →
      a.inTurn (.overlay t b) = true → ∃ u : State, exec (.overlay t b) s = .next (u.yokCheck.after a (.overlay t b))
        ∧ (a.load.ovlRead + 1 < a.ovlCount →
            (a.overlayFits b = false → u.get F.BOOT_IMGID_OVL_SKIP
                = min (2 ^ F.BOOT_IMGID_OVL_SKIP.width - 1) (a.get F.BOOT_IMGID_OVL_SKIP + 1)
              ∧ u.load = { a.load with rereads := 0, ovlRead := a.load.ovlRead + 1 })
            ∧ (a.overlayFits b = true → (∀ y ∈ a.load.ovl, y.table ≠ byteAt b 4) →
              u.load = { a.load with rereads := 0, ovlRead := a.load.ovlRead + 1,
                                     ovl := a.load.ovl ++ [⟨byteAt b 4, le b 8 4, leWords (slice b 0x20 16384)⟩] }))
        ∧ (a.load.ovlRead + 1 = a.ovlCount → a.overlayFits b = false → ∀ x, a.load.ovl = [x] →
            ∀ i < 4096, u.memGet (K.table x.table i) = x.entries.getD i 0)

/-- Sections of the image and table overlays. -/
def Obligations.LoadedSections : Prop :=
  Part.AppliedSections ∧ Part.Overlays

/-- INPUT_BAND_EXIT: an input seen outside its band is held no longer. -/
def Sys2Proof.Machine.Part.BandExits : Prop :=
  ∀ (s : State) (t : Tick) (fault : Bool), let a := s.advance t
    a.clkOn = true →
      (a.inTurn (.inputBandExit t .safeN fault) = true → ∃ u : State, exec (.inputBandExit t .safeN fault) s = .next (u.yokCheck.after a (.inputBandExit t .safeN fault)) ∧ u.get F.IDG_INBAND_SAFE_N = 0
        ∧ u.safe = (if a.bit F.IDG_INBAND_SAFE_N then { a.safe with outAt := a.now } else a.safe)
        ∧ RegsBut [A.IDG_INBAND, A.IDG_WARMSTAT] a u ∧ u = { a with regs := u.regs, same := u.same, safe := u.safe })
      ∧ (a.inTurn (.inputBandExit t .pgood fault) = true → ∃ u : State, exec (.inputBandExit t .pgood fault) s = .next (u.yokCheck.after a (.inputBandExit t .pgood fault)) ∧ u.get F.IDG_INBAND_PGOOD = 0
        ∧ RegsBut [A.IDG_INBAND, A.IDG_WARMSTAT] a u ∧ u = { a with regs := u.regs, same := u.same })
      ∧ (∀ i : Fin 8, a.bitAt F.IDG_INBAND_TRIP_IN i = true →
        a.inTurn (.inputBandExit t (.tripIn i) fault) = true → ∃ u : State, exec (.inputBandExit t (.tripIn i) fault) s = .next (u.yokCheck.after a (.inputBandExit t (.tripIn i) fault)) ∧ u.bitAt F.IDG_INBAND_TRIP_IN i = false
          ∧ (u.tins[i]).ball = (if fault then a.bit (F.PRT_TINCFG_POL i) else !a.bit (F.PRT_TINCFG_POL i)))
      ∧ (∀ (k : Fin 96) (c : Cond), a.cmpMode k = 1 → a.cmpBand k c = true →
        a.inTurn (.inputBandExit t (.cmp k c) fault) = true → ∃ u : State, exec (.inputBandExit t (.cmp k c) fault) s = .next (u.yokCheck.after a (.inputBandExit t (.cmp k c) fault)) ∧ u.cmpBand k c = false)
      ∧ (∀ (n : Fin 72) (sw : Sw), a.rptBand n sw = true →
        a.inTurn (.inputBandExit t (.report n sw) fault) = true → ∃ u : State, exec (.inputBandExit t (.report n sw) fault) s = .next (u.yokCheck.after a (.inputBandExit t (.report n sw) fault)) ∧ u.rptBand n sw = false)

/-- WARMUP_COMPLETE: the over-current filter of a channel is VALID once it has run two of its periods; a history that is
counted by its events sets VALID with the last of them, and needs nothing here. -/
def Sys2Proof.Machine.Part.WarmUps : Prop :=
  ∀ (s : State) (t : Tick) (c : Fin 144), let a := s.advance t
    a.clkOn = true →
      (∀ h, (a.sdm c).histOc = some h → h + 2 * a.ocW c ≤ a.now → a.ocValid c = false →
        a.inTurn (.warmupComplete t (.overCurrent c)) = true → ∃ u : State, exec (.warmupComplete t (.overCurrent c)) s = .next (u.yokCheck.after a (.warmupComplete t (.overCurrent c))) ∧ u.get (F.SDM_STAT_OCVALID c) = 1)
      ∧ (a.inTurn (.warmupComplete t .byEvent) = true → exec (.warmupComplete t .byEvent) s = .next (a.yokCheck.after a (.warmupComplete t .byEvent)))

/-- Inputs that leave their band, and warm-up counts. -/
def Obligations.StartUpReadiness : Prop :=
  Part.BandExits ∧ Part.WarmUps

/-- UPDATE_POINT: at the centre of a team's period every shadow of the team's legs is staged, and takes effect in the legs
that have no phase of their own; at the centre of a leg with a phase its staged values take effect. -/
def Sys2Proof.Machine.Part.UpdatePoints : Prop :=
  ∀ (s : State) (t : Tick) (tm : Fin 24) (n : Fin 72), let a := s.advance t
    a.clkOn = true →
      (a.centreNow tm = true → a.updCentre tm = true → (a.team tm).updTick ≠ some a.now →
        a.inTurn (.updatePoint t (.team tm)) = true → ∃ u : State, exec (.updatePoint t (.team tm)) s = .next (u.yokCheck.after a (.updatePoint t (.team tm))) ∧ (u.team tm).updTick = some a.now
          ∧ u.get (F.TEAM_SHCTL_UPDCNT tm) = (a.get (F.TEAM_SHCTL_UPDCNT tm) + 1) % 2 ^ (F.TEAM_SHCTL_UPDCNT 0).width
          ∧ (a.bit (F.TEAM_SHCTL_HOLD tm) = false → n ∈ (a.team tm).legs →
              u.rdSt (A.LEG_CMPA n) = a.rdSh (A.LEG_CMPA n) ∧ u.rdSt (A.LEG_DT n) = a.rdSh (A.LEG_DT n)
              ∧ ((a.leg n).team = some tm → a.get (F.LEG_PHASE_PHASE n) = 0 →
                  u.rd (A.LEG_CMPA n) = a.rdSh (A.LEG_CMPA n) ∧ u.rd (A.LEG_DT n) = a.rdSh (A.LEG_DT n))))
      ∧ ((a.leg n).team = some tm → a.get (F.LEG_PHASE_PHASE n) ≠ 0 → (a.leg n).running = true → a.updCentre tm = true →
          centreOf (a.form tm) (a.leg n).pstart (a.leg n).up / 256 = a.now →
        a.inTurn (.updatePoint t (.leg n)) = true → ∃ u : State, exec (.updatePoint t (.leg n)) s = .next (u.yokCheck.after a (.updatePoint t (.leg n))) ∧ (u.leg n).updTick = some a.now
          ∧ u.rd (A.LEG_CMPA n) = a.rdSt (A.LEG_CMPA n) ∧ u.rd (A.LEG_DT n) = a.rdSt (A.LEG_DT n))

/-- PERIOD_START: the period planned for this instant starts, of a team or of a leg with a phase. -/
def Sys2Proof.Machine.Part.PeriodStarts : Prop :=
  ∀ (s : State) (t : Tick) (tm : Fin 24) (n : Fin 72) (fine : Fin 256), let a := s.advance t
    let x := a.nowF + fine
    a.clkOn = true →
      ((a.team tm).next = some x →
        a.inTurn (.periodStart t (.team tm) fine) = true → ∃ u : State, exec (.periodStart t (.team tm) fine) s = .next (u.yokCheck.after a (.periodStart t (.team tm) fine)) ∧ (u.team tm).started = true
          ∧ (u.team tm).pstart = x
          ∧ u.get (F.TEAM_PCNT_PCNT tm) = (a.get (F.TEAM_PCNT_PCNT tm) + 1) % 2 ^ (F.TEAM_PCNT_PCNT 0).width)
      ∧ (∀ e rest, (a.leg n).nexts = e :: rest → e.start = x → (a.leg n).team = some tm →
        a.inTurn (.periodStart t (.leg n) fine) = true → ∃ u : State, exec (.periodStart t (.leg n) fine) s = .next (u.yokCheck.after a (.periodStart t (.leg n) fine)) ∧ (u.leg n).pstart = x ∧ (u.leg n).up = e.len
          ∧ (u.leg n).nexts = rest ∧ u.get (F.LEG_STAT_RUN n) = 1)

/-- EPOCH: an epoch of an aligned team starts a period and gives the team its index. -/
def Sys2Proof.Machine.Part.Epochs : Prop :=
  ∀ (s : State) (t : Tick) (tm : Fin 24) (fine : Fin 256) (k : Nat), let a := s.advance t
    let x := a.nowF + fine
    a.clkOn = true → a.load.locked = true → a.yok.lockAt < a.now → a.epochAt tm x = some k → (a.team tm).legs ≠ [] →
    (a.team tm).epochAt ≠ some x →
    ((a.team tm).started = true ∨ (a.bit F.TIM_STAT_NETLOCK = true ∧ a.tim.netAt < a.now)) →
      a.inTurn (.epoch t tm fine) = true → ∃ u : State, exec (.epoch t tm fine) s = .next (u.yokCheck.after a (.epoch t tm fine)) ∧ (u.team tm).pstart = x ∧ (u.team tm).epochAt = some x
        ∧ u.rd (A.TEAM_EPOCHIDX0 tm) = BitVec.ofNat 32 k ∧ u.get (F.TEAM_ALNSTAT_ALIGNED tm) = 1
        ∧ u.get (F.TEAM_ALNSTAT_WAIT_LOCK tm) = 0

/-- Update points, period starts and epochs. -/
def Obligations.CarrierInstants : Prop :=
  Part.UpdatePoints ∧ Part.PeriodStarts ∧ Part.Epochs

/-- RESTART_CROSSING, PERIOD_RESTART and VARIABLE_PERIOD_TIMEOUT: a counted crossing, the restart it schedules, and the end
of a period without one. -/
def Sys2Proof.Machine.Part.VariablePeriods : Prop :=
  ∀ (s : State) (t : Tick) (tm : Fin 24) (n : Fin 72) (rising : Bool) (fine : Fin 256), let a := s.advance t
    let x := a.nowF + fine
    a.clkOn = true → a.leadLeg tm = some n → isVar (a.form tm) = true → (a.team tm).started = true →
      (a.get (F.TEAM_CARCFG_RSTEDGE tm) = 2 → a.get (F.TEAM_CARCFG_RSTSRC tm) < 96 → (a.team tm).restartAt = none →
          (a.team tm).pstart + a.restartE tm n + 768 ≤ a.nowF →
        a.inTurn (.restartCrossing t tm rising) = true → ∃ u : State, exec (.restartCrossing t tm rising) s = .next (u.yokCheck.after a (.restartCrossing t tm rising)) ∧ (u.team tm).valley = (a.team tm).valley + 1
          ∧ ((a.team tm).valley + 1 = a.get (F.TEAM_CARCFG_VALLEY tm) →
              (u.team tm).restartAt = some (max (a.nowF - 768 + a.get (F.TEAM_RSTDLY_DLY tm))
                ((a.team tm).pstart + a.restartMin tm n)))
          ∧ u = { a with teams := u.teams } ∧ ∀ r, r ≠ tm → u.team r = a.team r)
      ∧ ((a.team tm).restartAt = some x → x ≤ a.restartLimit tm n →
        a.inTurn (.periodRestart t tm fine) = true → ∃ u : State, exec (.periodRestart t tm fine) s = .next (u.yokCheck.after a (.periodRestart t tm fine)) ∧ (u.team tm).pstart = x
          ∧ (u.team tm).restartAt = none ∧ u.get (F.TEAM_VARSTAT_LASTEND tm) = 0)
      ∧ ((a.team tm).restartAt = none → x = a.restartLimit tm n →
        a.inTurn (.variablePeriodTimeout t tm fine) = true → ∃ u : State, exec (.variablePeriodTimeout t tm fine) s = .next (u.yokCheck.after a (.variablePeriodTimeout t tm fine)) ∧ (u.team tm).pstart = x
          ∧ u.get (F.TEAM_VARSTAT_LASTEND tm) = (if (a.restartX tm n).2 then 2 else 1)
          ∧ u.get (F.TEAM_VARSTAT_TMOCNT tm)
              = (a.get (F.TEAM_VARSTAT_TMOCNT tm) + 1) % 2 ^ (F.TEAM_VARSTAT_TMOCNT 0).width)

/-- COMPARE_EDGE and CONVERTER_TRIGGER: the commanded pulse changes at its planned instants; a trigger is counted and
stamped. -/
def Sys2Proof.Machine.Part.CompareEvents : Prop :=
  ∀ (s : State) (t : Tick) (n : Fin 72) (tm : Fin 24) (fine : Fin 256), let a := s.advance t
    let x := a.nowF + fine
    a.clkOn = true → (a.leg n).team = some tm →
      (∀ tc clip, a.onInst n = some ((x : Int), tc, clip) → (a.leg n).cmd = false →
          x < (a.leg n).pstart + perLen (a.form tm) (a.leg n).up (a.leg n).down →
        a.inTurn (.compareEdge t n fine) = true → ∃ u : State, exec (.compareEdge t n fine) s = .next (u.yokCheck.after a (.compareEdge t n fine)) ∧ (u.leg n).cmd = true ∧ (u.leg n).onDone = true)
      ∧ (∀ tc clip, a.onInst n = none → a.offInst n = some ((x : Int), tc, clip) → (a.leg n).cmd = true →
          x < (a.leg n).pstart + perLen (a.form tm) (a.leg n).up (a.leg n).down →
        a.inTurn (.compareEdge t n fine) = true → ∃ u : State, exec (.compareEdge t n fine) s = .next (u.yokCheck.after a (.compareEdge t n fine)) ∧ (u.leg n).cmd = false ∧ (u.leg n).offDone = true)
      ∧ (a.trigAt n true x = true →
        a.inTurn (.converterTrigger t n (some fine) none) = true → ∃ u : State, exec (.converterTrigger t n (some fine) none) s = .next (u.yokCheck.after a (.converterTrigger t n (some fine) none))
          ∧ u.get (F.LEG_TRGCNT_COUNT n) = (a.get (F.LEG_TRGCNT_COUNT n) + 1) % 2 ^ (F.LEG_TRGCNT_COUNT 0).width
          ∧ u.rd (A.LEG_TRGLAST0 n) = BitVec.ofNat 32 (a.stampOf x)
          ∧ (a.leadLeg tm = some n → (u.team tm).rels
              = (a.team tm).rels ++ [(a.now + a.get (F.SDM_TEAMDLY_DLY tm), (a.team tm).trgSeen == 0)]))

/-- Variable periods and compare events. -/
def Obligations.VariableCarriers : Prop :=
  Part.VariablePeriods ∧ Part.CompareEvents

/-- DEAD_TIME_END and INTERLOCK_CANCEL: a placed turn-on that nothing holds is emitted; one that is held too long is
dropped. -/
def Sys2Proof.Machine.Part.TurnOns : Prop :=
  ∀ (s : State) (t : Tick) (n : Fin 72) (p : PendOn) (fine : Fin 256), let a := s.advance t
    let x := a.nowF + fine
    a.clkOn = true → (a.leg n).pend = some p →
      (p.at_ = x → p.held = false → (a.leg n).latched = false → a.ilkGuards n p.sw = false → a.expFull n p.sw = false →
          a.deadLine n (match p.sw with | .high => 0 | .low => 1) = false →
        a.inTurn (.deadTimeEnd t n fine) = true → ∃ u : State, exec (.deadTimeEnd t n fine) s = .next (u.yokCheck.after a (.deadTimeEnd t n fine)) ∧ u.ball n p.sw = true ∧ (u.leg n).pend = none
          ∧ ∀ k, k ≠ n → u.leg k = a.leg k)
      ∧ (∀ off : Int, p.held = true → a.heldOffAt n = some off → (x : Int) + a.minp n = off →
        a.inTurn (.interlockCancel t n fine) = true → ∃ u : State, exec (.interlockCancel t n fine) s = .next (u.yokCheck.after a (.interlockCancel t n fine)) ∧ (u.leg n).pend = none
          ∧ u.get (F.LEG_EDGESTAT_ILK_DROP n) = 1 ∧ RegsBut [A.LEG_EDGESTAT n] a u ∧ ∀ k, k ≠ n → u.leg k = a.leg k)

/-- REPORT_CHANGE, REPORT_TIMEOUT and BOTH_ON: a report is stamped and shown, healthy by its polarity; one that is missing, and
two gates on at once, latch the leg, and are its first source where it was not latched. -/
def Sys2Proof.Machine.Part.GateReports : Prop :=
  ∀ (s : State) (t : Tick) (n : Fin 72) (sw : Sw) (level : Bool) (fine : Fin 256), let a := s.advance t
    a.clkOn = true →
      (a.deadLine n (match sw with | .high => 3 | .low => 4) = false →
        a.inTurn (.reportChange t n sw level fine) = true → ∃ u : State, exec (.reportChange t n sw level fine) s = .next (u.yokCheck.after a (.reportChange t n sw level fine))
          ∧ u.rd (match sw with | .high => A.LEG_RPTLASTH n | .low => A.LEG_RPTLASTL n)
              = BitVec.ofNat 32 (a.stampOf (a.nowF - 512 + fine))
          ∧ u.bit (match sw with | .high => F.LEG_EDGESTAT_HEALTHY_H n | .low => F.LEG_EDGESTAT_HEALTHY_L n)
              = (level != a.bit (F.LEG_EDGECFG_RPT_POL n)))
      ∧ (∀ e rest, a.exps n sw = e :: rest → a.gsrEn n = true →
          (e.stamp + tmoFine (a.get (F.LEG_ILKCFG_TMO n))) / 256 + 2 ≤ a.now →
        a.inTurn (.reportTimeout t n sw) = true → ∃ u : State, exec (.reportTimeout t n sw) s = .next (u.yokCheck.after a (.reportTimeout t n sw)) ∧ (u.leg n).latched = true
          ∧ ((a.leg n).latched = false → u.get (F.LEG_TRIPSTAT_LATCHED n) = 1)
          ∧ u.bitAt (F.LEG_TRIPSRC_KINDS n) (kINTERLOCK - 1) = true ∧ u.rd (A.LEG_CARRY n) = 0)
      ∧ (a.gsrEn n = true → a.bit (F.LEG_EDGESTAT_HEALTHY_H n) = false → a.bit (F.LEG_EDGESTAT_HEALTHY_L n) = false →
          (max (a.leg n).unhealH (a.leg n).unhealL + 256) / 256 + 2 ≤ a.now →
        a.inTurn (.bothOn t n) = true → ∃ u : State, exec (.bothOn t n) s = .next (u.yokCheck.after a (.bothOn t n)) ∧ (u.leg n).latched = true
          ∧ ((a.leg n).latched = false → u.get (F.LEG_TRIPSTAT_LATCHED n) = 1)
          ∧ u.bitAt (F.LEG_TRIPSRC_KINDS n) (kINTERLOCK - 1) = true)

/-- BOOTSTRAP_REFRESH and REFRESH_END: a count at its limit forces the output inactive, and GL on for its width takes the
count back to 0. -/
def Sys2Proof.Machine.Part.Bootstrap : Prop :=
  ∀ (s : State) (t : Tick) (n : Fin 72) (fine : Fin 256), let a := s.advance t
    a.clkOn = true →
      (a.hsIso n = false → (a.leg n).gh = true → a.bsCountAt n a.now = a.get (F.LEG_BSCFG_LIMIT n) →
          a.bit (F.LEG_OVRSTAT_FORCE n) = false → (a.leg n).cmd = true → (a.leg n).refresh = false →
        a.inTurn (.bootstrapRefresh t n) = true → ∃ u : State, exec (.bootstrapRefresh t n) s = .next (u.yokCheck.after a (.bootstrapRefresh t n))
          ∧ u.get (F.LEG_BSRCNT_COUNT n) = (a.get (F.LEG_BSRCNT_COUNT n) + 1) % 2 ^ (F.LEG_BSRCNT_COUNT 0).width)
      ∧ ((a.leg n).gl = true → a.glFrom n + a.bsWidth n = a.nowF + fine →
        a.inTurn (.refreshEnd t n fine) = true → ∃ u : State, exec (.refreshEnd t n fine) s = .next (u.yokCheck.after a (.refreshEnd t n fine)) ∧ u.get (F.LEG_BSCNT_COUNT n) = 0)

/-- Turn-ons, gate reports and bootstrap refresh. -/
def Obligations.GateEvents : Prop :=
  Part.TurnOns ∧ Part.GateReports ∧ Part.Bootstrap

/-- LEG_OVR_WRITE, TEAM_ENABLE, TEAM_DISABLE and TEAM_RESUME. -/
def Obligations.TeamControl : Prop :=
  ∀ (s : State) (t : Tick) (m : Master) (n : Fin 72) (tm : Fin 24) (v : Word), let a := s.advance t
    (a.takes m (A.LEG_OVR n) = true → a.pdkOn = true →
      a.inTurn (.legOvrWrite t m n v) = true → ∃ u : State, exec (.legOvrWrite t m n v) s = .next (u.yokCheck.after a (.legOvrWrite t m n v))
        ∧ u.bit (F.LEG_OVR_SWAP n) = (bitsGet v 0 1 == 1 && a.ovSwap n && a.hsIso n)
        ∧ u.bit (F.LEG_OVR_INV n) = (bitsGet v 1 1 == 1 && a.ovInv n && a.hsIso n)
        ∧ u.bit (F.LEG_OVR_FORCE n) = (bitsGet v 2 1 == 1 && a.ovForce n)
        ∧ u.legs = a.legs ∧ u.mem = a.mem)
    ∧ (a.takes m (A.TEAM_CTL tm) = true →
      (a.tstate tm = stOFF →
        a.inTurn (.teamEnable t m tm) = true → ∃ u : State, exec (.teamEnable t m tm) s = .next (u.yokCheck.after a (.teamEnable t m tm))
          ∧ ((a.safeLow || (a.team tm).barred) = false → u.tstate tm = stWAIT ∧ u.get (F.TEAM_CTL_EN tm) = 1)
          ∧ ((a.safeLow || (a.team tm).barred) = true → u.tstate tm = stOFF ∧ u.get (F.TEAM_STAT_EN_REF tm) = 1)
          ∧ ∀ r, r ≠ tm → u.tstate r = a.tstate r)
      ∧ (a.inTurn (.teamDisable t m tm) = true → ∃ u : State, exec (.teamDisable t m tm) s = .next (u.yokCheck.after a (.teamDisable t m tm)) ∧ u.get (F.TEAM_CTL_EN tm) = 0
          ∧ u.due = a.due ++ [(a.now + 1, .teamOff tm)] ∧ RegsBut [A.TEAM_CTL tm, A.EVT_TAGHWM] a u)
      ∧ (a.tstate tm = stHALTED →
        a.inTurn (.teamResume t m tm) = true → ∃ u : State, exec (.teamResume t m tm) s = .next (u.yokCheck.after a (.teamResume t m tm))
          ∧ ((a.teamTripped tm || a.safeLow || (a.team tm).barred) = false → u.tstate tm = stWAIT)
          ∧ ((a.teamTripped tm || a.safeLow || (a.team tm).barred) = true →
              u.tstate tm = stHALTED ∧ u.get (F.TEAM_STAT_RES_REF tm) = 1)))

/-- SAMPLE_DELIVERY: the sample marked for this tick is delivered, stamped with its centre, VALID by its history; marks whose
tick is past are gone; a sample that is not VALID shows a free value (log entry 3). -/
def Sys2Proof.Machine.Part.SampleDeliveries : Prop :=
  ∀ (s : State) (t : Tick) (c : Fin 144) (m : SdmMark), let a := s.advance t
    a.clkOn = true → (a.sdm c).marks.filter (fun x => x.deliver == a.now) = [m] →
      a.inTurn (.sampleDelivery t c) = true → ∃ u : State, exec (.sampleDelivery t c) s = .next (u.yokCheck.after a (.sampleDelivery t c))
        ∧ (u.sdm c).marks = (a.sdm c).marks.filter (fun x => decide (a.now < x.deliver)) ∧ (∀ d, d ≠ c → u.sdm d = a.sdm d)
        ∧ u.rd (A.SDM_RESSTAMP0 c) = BitVec.ofNat 32 m.stamp
        ∧ u.bit (F.SDM_STAT_VALID c) = (a.sdmSample c m).2.2
        ∧ ((a.sdmSample c m).2.2 = true → u.getI (F.SDM_RES_DATA c) = (a.sdmSample c m).1
            ∧ ((a.sdmSample c m).2.1 = true → u.bit (F.SDM_STAT_SAT c) = true))
        ∧ RegsBut [A.SDM_RES c, A.SDM_RESSTAMP0 c, A.SDM_RESSTAMP1 c, A.SDM_STAT c, A.SDM_CNT c] a u
        ∧ u = { a with regs := u.regs, same := u.same, sdms := u.sdms, freeCnt := u.freeCnt }

/-- BIT_CAPTURE and DECODE_ERROR: a bit enters the channel's waveform at its capture tick, with its run; a missing mid-bit
transition repeats the last bit and is counted. -/
def Sys2Proof.Machine.Part.BitCaptures : Prop :=
  ∀ (s : State) (t : Tick) (c : Fin 144) (level : Bool) (moved : List (Fin 16)) (fine : Fin 256), let a := s.advance t
    a.clkOn = true →
      (∀ g, finOf 8 (a.get (F.SDM_CFG_CKSEL c)) = some g → a.sdmMode c = sdmCLOCKED → a.get (F.SDM_CFG_CAPDLY c) ≤ a.now →
          a.ckRise g (a.now - a.get (F.SDM_CFG_CAPDLY c)) = true →
        a.inTurn (.bitCapture t c (.clocked level moved)) = true → ∃ u : State, exec (.bitCapture t c (.clocked level moved)) s = .next (u.yokCheck.after a (.bitCapture t c (.clocked level moved)))
          ∧ (u.sdm c).bits.head? = some (a.now, level != a.bit (F.SDM_CFG_POL c))
          ∧ (u.sdm c).runLen = (if (a.sdm c).runVal = (level != a.bit (F.SDM_CFG_POL c)) then (a.sdm c).runLen + 1 else 1)
          ∧ (∀ i ∈ moved, u.bitAt (F.SDM_EYE_MASK c) i = true) ∧ (∀ d, d ≠ c → u.sdm d = a.sdm d))
      ∧ (a.sdmMode c = sdmMANCHESTER →
        a.inTurn (.bitCapture t c (.manchester level fine)) = true → ∃ u : State, exec (.bitCapture t c (.manchester level fine)) s = .next (u.yokCheck.after a (.bitCapture t c (.manchester level fine)))
          ∧ (u.sdm c).bits.head? = some (a.now, level != a.bit (F.SDM_CFG_POL c))
          ∧ (u.sdm c).mids.head? = some (a.nowF - 512 + fine) ∧ (u.sdm c).good = (a.sdm c).run (a.nowF - 512 + fine)
          ∧ (u.sdm c).errs = 0 ∧ (∀ d, d ≠ c → u.sdm d = a.sdm d))
      ∧ (∀ m rest p, (a.sdm c).mids = m :: rest → manPeriod (a.sdm c).mids = some p → a.sdmMode c = sdmMANCHESTER →
          (a.sdm c).locked = true → m + p + 3 * p / 4 ≤ a.nowF →
        a.inTurn (.decodeError t c) = true → ∃ u : State, exec (.decodeError t c) s = .next (u.yokCheck.after a (.decodeError t c))
          ∧ u.get (F.SDM_ERRCNT_DECERR c) = min (2 ^ (F.SDM_ERRCNT_DECERR c).width - 1) (a.get (F.SDM_ERRCNT_DECERR c) + 1)
          ∧ (u.sdm c).bits.head? = some (a.now, (a.sdm c).runVal) ∧ (u.sdm c).errs = (a.sdm c).errs + 1
          ∧ (u.sdm c).good = 0)

/-- A running SDM_CKg is high for the 8 ticks from the ticks whose device-time count modulo 16 is PH, and low for the other 8
(R208). -/
def Sys2Proof.Machine.Part.ModulatorClock : Prop :=
  ∀ (s : State) (g : Fin 8) (k : CkSt), s.sdmCk[g] = some k → s.bit (F.SDM_CKCFG_EN g) = true → k.first ≤ s.now → 16 ≤ s.now →
    s.ckLevel g = decide ((s.devTick s.now + 16 - s.get (F.SDM_CKCFG_PH g)) % 16 < 8)

/-- Captured bits and delivered samples. -/
def Obligations.Sampling : Prop :=
  Part.SampleDeliveries ∧ Part.BitCaptures ∧ Part.ModulatorClock

/-- BITSTREAM_LOSS and OVER_CURRENT_CONDITION: a loss is recorded and both histories start again; a condition shows its
level. -/
def Obligations.SenseConditions : Prop :=
  ∀ (s : State) (t : Tick) (c : Fin 144) (det : Fin 4), let a := s.advance t
    a.clkOn = true →
      (a.lossDue c det = true →
        a.inTurn (.bitstreamLoss t c det) = true → ∃ u : State, exec (.bitstreamLoss t c det) s = .next (u.yokCheck.after a (.bitstreamLoss t c det))
          ∧ u.get (F.SDM_STAT_LOSS c) = 1 ∧ u.get (F.SDM_STAT_VALID c) = 0 ∧ u.get (F.SDM_STAT_OCVALID c) = 0
          ∧ u.get (F.SDM_STAT_WARM c) = 3 ∧ (u.sdm c).histMain = none ∧ (u.sdm c).histOc = none
          ∧ u.get (F.SDM_ERRCNT_LOSSCNT c) = min (2 ^ (F.SDM_ERRCNT_LOSSCNT c).width - 1) (a.get (F.SDM_ERRCNT_LOSSCNT c) + 1)
          ∧ NewestFault u (0x0900 + det) c)
      ∧ (a.inTurn (.overCurrentCondition t c .h) = true → ∃ u : State, exec (.overCurrentCondition t c .h) s = .next (u.yokCheck.after a (.overCurrentCondition t c .h))
          ∧ u.bit (F.SDM_STAT_OCHI_ACT c) = a.ocCond c .h a.now
          ∧ ((u.sdmTrips[c]).h).raw = a.ocCond c .h a.now)
      ∧ (a.inTurn (.overCurrentCondition t c .l) = true → ∃ u : State, exec (.overCurrentCondition t c .l) s = .next (u.yokCheck.after a (.overCurrentCondition t c .l))
          ∧ u.bit (F.SDM_STAT_OCLO_ACT c) = a.ocCond c .l a.now
          ∧ ((u.sdmTrips[c]).l).raw = a.ocCond c .l a.now)

/-- GROUP_RELEASE: the command is latched (where no derate applies) and split; the shares and what is left over add up to
it, a member that does not count gets nothing, the group's run is queued or waits, and releases due later stay due. -/
def Sys2Proof.Machine.Part.GroupReleases : Prop :=
  ∀ (s : State) (t : Tick) (g : Fin 8), let a := s.advance t
    a.clkOn = true → a.groupRelDue g = true → a.releasesOn = true →
      a.inTurn (.groupRelease t g) = true → ∃ u : State, exec (.groupRelease t g) s = .next (u.yokCheck.after a (.groupRelease t g))
        ∧ (u.groups[g]).relAt = some a.now
        ∧ (∀ d, d ∈ (u.groups[g]).relDue ↔ d ∈ (a.groups[g]).relDue ∧ a.now < d)
        ∧ (a.get F.HKP_THSTAT_LEVEL ≠ 3 → (u.groups[g]).latTq = a.getI (F.MGRP_TQCMD_TQ g))
        ∧ (u.groups[g]).shares.length = 16
        ∧ (u.groups[g]).latTq = (u.groups[g]).shares.sum
            + (if (u.groups[g]).latTq < 0 then -1 else 1) * ((u.groups[g]).short : Int)
        ∧ (∀ i : Fin 16, i.val ∉ (u.groups[g]).latLive → (u.groups[g]).shares.getD i 0 = 0)
        ∧ (∀ h, h ≠ g → u.groups[h] = a.groups[h])

/-- SAMPLE_RELEASE, BACKGROUND_RELEASE and BACKGROUND_GO: a released task that is enabled and not running waits for a lane
with its inputs, stamped with the release. -/
def Sys2Proof.Machine.Part.TaskReleases : Prop :=
  ∀ (s : State) (t : Tick) (tm : Fin 24) (b : Fin 4) (m : Master) (v : Word), let a := s.advance t
    let tk : Fin 36 := ⟨tm.val, by omega⟩
    let bk : Fin 36 := ⟨32 + b.val, by omega⟩
    a.clkOn = true → a.releasesOn = true →
      (∀ e, (a.team tm).rels.find? (fun e => e.1 == a.now) = some e → a.taskEn tk = true → a.tstate tm ≠ stUNCONF →
          a.get F.HKP_THSTAT_LEVEL < 2 → a.running tk = false →
        a.inTurn (.sampleRelease t tm) = true → ∃ (u : State) (r : RunSt), exec (.sampleRelease t tm) s = .next (u.yokCheck.after a (.sampleRelease t tm)) ∧ u.ce.ready = a.ce.ready ++ [r]
          ∧ r.task = tk ∧ r.relTick = a.now ∧ r.input.length = 64 ∧ (u.team tm).rels = (a.team tm).rels.erase e
          ∧ u.rd (A.CE_TREL tm) = BitVec.ofNat 32 (a.stampOf a.nowF))
      ∧ (a.taskEn bk = true → a.get F.HKP_THSTAT_LEVEL = 0 → a.running bk = false →
        (a.get (F.CE_BGCFG_PER b) ≠ 0 → a.yok.lockAt < a.now → (a.now - a.yok.lockAt) % a.get (F.CE_BGCFG_PER b) = 0 →
          a.inTurn (.backgroundRelease t b) = true → ∃ (u : State) (r : RunSt), exec (.backgroundRelease t b) s = .next (u.yokCheck.after a (.backgroundRelease t b)) ∧ u.ce.ready = a.ce.ready ++ [r]
            ∧ r.task = bk ∧ r.relTick = a.now ∧ r.input.length = 64
            ∧ u.rd (A.CE_TREL bk) = BitVec.ofNat 32 (a.stampOf a.nowF))
        ∧ (a.takes m (A.CE_BGCFG b) = true →
          a.inTurn (.backgroundGo t m b v) = true → ∃ (u : State) (r : RunSt), exec (.backgroundGo t m b v) s = .next (u.yokCheck.after a (.backgroundGo t m b v)) ∧ u.ce.ready = a.ce.ready ++ [r]
            ∧ r.task = bk ∧ r.relTick = a.now ∧ r.input.length = 64
            ∧ u.rd (A.CE_TREL bk) = BitVec.ofNat 32 (a.stampOf a.nowF)))

/-- Releases of groups and tasks. -/
def Obligations.EngineReleases : Prop :=
  Part.GroupReleases ∧ Part.TaskReleases

/-- TASK_START: a free lane takes a waiting run at its program's first word; on a lane of the control pool no waiting team
or group run has an earlier deadline. -/
def Sys2Proof.Machine.Part.TaskStarts : Prop :=
  ∀ (s : State) (t : Tick) (l : Fin 16) (r : RunSt), let a := s.advance t
    a.clkOn = true → a.ce.lanes[l] = none → a.nextRun l = some r →
      a.inTurn (.taskStart t l) = true → ∃ u : State, exec (.taskStart t l) s = .next (u.yokCheck.after a (.taskStart t l))
        ∧ u.ce.lanes[l] = some { r with pc := a.pStart r.task, accs := a.ce.accs[l] } ∧ u.ce.ready = a.ce.ready.erase r
        ∧ r ∈ a.ce.ready ∧ u.get (F.CE_TSTAT_RUNNING r.task) = 1
        ∧ (l.val + a.get F.CE_CTL_BGLANES < 16 → ∀ q ∈ a.ce.ready, q.task.val < 32 →
            r.task.val < 32 ∧ (r.deadline < q.deadline ∨ (r.deadline = q.deadline ∧ r.task.val ≤ q.task.val)))
        ∧ RegsBut [A.CE_TSTAT r.task, A.CE_STAT] a u ∧ u = { a with regs := u.regs, same := u.same, ce := u.ce }

/-- COMMIT_ARRIVAL and GROUP_DEADLINE: an accepted run's state words, flags and stamp take effect, a discarded run leaves
memory as it was, and a group run past its deadline is discarded and counted. -/
def Sys2Proof.Machine.Part.Commits : Prop :=
  ∀ (s : State) (t : Tick) (k : Fin 36) (g : Fin 8) (r : RunSt), let a := s.advance t
    a.clkOn = true →
      (a.endedRun k = some r → a.tagFree = true → a.stalled = [] →
        (r.discard = false → (taskGroup k = none ∨ a.now < r.deadline) → a.yokHold r = false →
          a.inTurn (.commitArrival t k) = true → ∃ u : State, exec (.commitArrival t k) s = .next (u.yokCheck.after a (.commitArrival t k))
            ∧ u.rd (A.CE_TCOMMIT k) = BitVec.ofNat 32 (a.stampOf a.nowF) ∧ u.get (F.CE_TSTAT_CONSEC k) = 0
            ∧ u.get (F.CE_TSTAT_UFLAG k) = r.flags % 2 ^ (F.CE_TSTAT_UFLAG k).width
            ∧ ∀ i < 8192, u.memGet (K.state i) = ((r.journal.filterMap (fun j => match j with
                | .state x w => if x % 8192 = i then some w else none
                | .cap _ _ => none)).getLast?).getD (a.memGet (K.state i)))
        ∧ (r.discard = true →
          a.inTurn (.commitArrival t k) = true → ∃ u : State, exec (.commitArrival t k) s = .next (u.yokCheck.after a (.commitArrival t k)) ∧ u.mem = a.mem ∧ u.shadow = a.shadow
            ∧ u.get (F.CE_TSTAT_RUNNING k) = 0))
      ∧ ((∃ q ∈ a.ce.ready, q.task.val = 24 + g ∧ q.discard = false ∧ q.deadline ≤ a.now) → a.ce.gpend[g] = none →
          a.inTurn (.groupDeadline t g) = true → ∃ u : State, exec (.groupDeadline t g) s = .next (u.yokCheck.after a (.groupDeadline t g))
            ∧ (∀ q ∈ u.ce.ready, q.task.val = 24 + g → q.discard = true)
            ∧ u.get (F.CE_TOVR_OVRCNT (24 + g)) = (a.get (F.CE_TOVR_OVRCNT (24 + g)) + 1) % 2 ^ (F.CE_TOVR_OVRCNT 0).width)

/-- Starts of runs, and their commits. -/
def Obligations.TasksAndCommits : Prop :=
  Part.TaskStarts ∧ Part.Commits

/-- SCRUB_STEP: the scrubber reads the word at its pointer and moves on; a single-bit error there is corrected and counted, an
uncorrectable word is counted, recorded and left as it is, and an upset that strikes another word stays there. -/
def Sys2Proof.Machine.Part.Scrubbing : Prop :=
  ∀ (s : State) (t : Tick) (m x : CeMem) (i w : Nat), let a := s.advance t
    let k := scrubKey allMems a.ce.scrub
    let moved (u : State) : Prop := u.ce.scrub = (a.ce.scrub + 1) % 170496 ∧ u.mem = a.mem
    let others (u : State) : Prop := ∀ j, j ≠ k → u.upsetAt j = a.upsetAt j
    a.clkOn = true → a.bit F.CE_CTL_SCRUB = true → keyWord k = some (m, i) →
      (a.upsetAt k = none →
        (a.inTurn (.scrubStep t .ok) = true → exec (.scrubStep t .ok) s
          = .next (({ a with ce := { a.ce with scrub := (a.ce.scrub + 1) % 170496 } }).yokCheck.after a (.scrubStep t .ok)))
        ∧ (w < memSize x → memKey x w ≠ k →
          a.inTurn (.scrubStep t (.corr x w)) = true → ∃ u : State, exec (.scrubStep t (.corr x w)) s = .next (u.yokCheck.after a (.scrubStep t (.corr x w)))
            ∧ u.upsetAt (memKey x w) = some (a.upsetAt (memKey x w)).isSome ∧ moved u ∧ u.regs = a.regs))
      ∧ (a.upsetAt k = some false →
        a.inTurn (.scrubStep t .ok) = true → ∃ u : State, exec (.scrubStep t .ok) s = .next (u.yokCheck.after a (.scrubStep t .ok))
          ∧ moved u ∧ u.upsetAt k = none ∧ others u
          ∧ u.get F.CE_ECCCNT_CORR = min (2 ^ F.CE_ECCCNT_CORR.width - 1) (a.get F.CE_ECCCNT_CORR + 1)
          ∧ (a.ce.corrAt.get (memIdx m) = none → NewestFault u 0x0601 (memCode m * 2 ^ 28 + i))
          ∧ RegsBut (A.CE_ECCCNT :: evtWords) a u)
      ∧ (a.upsetAt k = some true →
        a.inTurn (.scrubStep t .ok) = true → ∃ u : State, exec (.scrubStep t .ok) s = .next (u.yokCheck.after a (.scrubStep t .ok))
          ∧ moved u ∧ u.upset = a.upset
          ∧ u.get F.CE_ECCCNT_DED = min (2 ^ F.CE_ECCCNT_DED.width - 1) (a.get F.CE_ECCCNT_DED + 1)
          ∧ NewestFault u 0x0603 (memCode m * 2 ^ 28 + i)
          ∧ u.rd A.CE_ECCADDR = BitVec.ofNat 32 (memCode m * 2 ^ 28 + i)
          ∧ RegsBut (A.CE_ECCCNT :: A.CE_ECCADDR :: evtWords) a u)

/-- A read over the bus of a table word (SNAPSHOT_CAPTURE_READ is the row of every read): it corrects a single-bit error, and
returns 0 for an uncorrectable word, which is counted and recorded. -/
def Sys2Proof.Machine.Part.BusReads : Prop :=
  ∀ (s : State) (t : Tick) (m : Master) (i : Fin 4096), let a := s.advance t
    let ad := 0xD0000 + 4 * i.val
    let k := K.table 0 i
    let c : Instr := .snapshotCaptureRead t m (BitVec.ofNat 24 ad) .word
    a.mayReach m false ad = true → a.get F.CE_TBLBANK_BANK = 0 → a.inTurn c = true →
      ∃ u : State, exec c s = .next (u.yokCheck.after a c) ∧ u.mem = a.mem
        ∧ (a.upsetAt k = none → u.lastRead[m.reader] = a.memGet k ∧ RegsBut [A.CE_LOAD] a u ∧ u.upset = a.upset)
        ∧ (a.upsetAt k = some false → u.lastRead[m.reader] = a.memGet k ∧ u.upsetAt k = none
            ∧ u.get F.CE_ECCCNT_CORR = min (2 ^ F.CE_ECCCNT_CORR.width - 1) (a.get F.CE_ECCCNT_CORR + 1)
            ∧ RegsBut (A.CE_ECCCNT :: A.CE_LOAD :: evtWords) a u)
        ∧ (a.upsetAt k = some true → u.lastRead[m.reader] = 0 ∧ u.upset = a.upset
            ∧ u.get F.CE_ECCCNT_DED = min (2 ^ F.CE_ECCCNT_DED.width - 1) (a.get F.CE_ECCCNT_DED + 1)
            ∧ u.rd A.CE_ECCADDR = BitVec.ofNat 32 (memCode .table * 2 ^ 28 + i) ∧ NewestFault u 0x0604 (memCode .table * 2 ^ 28 + i))

/-- GENERATOR_GO, GENERATOR_ABORT, CAPTURE_ARM and CAPTURE_STOP. -/
def Sys2Proof.Machine.Part.GeneratorsAndCaptures : Prop :=
  ∀ (s : State) (t : Tick) (m : Master) (g : Fin 4), let a := s.advance t
    (a.takes m (A.CE_GENCTL g) = true →
      (a.bit (F.CE_GENSTAT_RUN g) = false → a.bit (F.CE_GENSTAT_WAIT g) = false → a.get (F.CE_GENCFG_MODE g) ≠ 0 →
        a.inTurn (.generatorGo t m g) = true → ∃ u : State, exec (.generatorGo t m g) s = .next (u.yokCheck.after a (.generatorGo t m g)) ∧ u.get (F.CE_GENSTAT_WAIT g) = 1
          ∧ u.get (F.CE_GENSTAT_STEP g) = 0
          ∧ (u.ce.gens[g]).start = (a.rd (A.CE_GENSTART0 g)).toNat + (a.rd (A.CE_GENSTART1 g)).toNat % 256 * 2 ^ 32
          ∧ RegsBut [A.CE_GENSTAT g, A.EVT_TAGHWM] a u)
      ∧ (a.bit (F.CE_GENSTAT_RUN g) = true ∨ a.bit (F.CE_GENSTAT_WAIT g) = true →
        a.inTurn (.generatorAbort t m g) = true → ∃ u : State, exec (.generatorAbort t m g) s = .next (u.yokCheck.after a (.generatorAbort t m g)) ∧ u.get (F.CE_GENSTAT_RUN g) = 0
          ∧ u.get (F.CE_GENSTAT_WAIT g) = 0 ∧ u.get (F.CE_GENSTAT_ABORTED g) = 1
          ∧ RegsBut [A.CE_GENSTAT g, A.EVT_TAGHWM] a u ∧ u = { a with regs := u.regs, same := u.same, tagsUse := a.tagsUse + 1 }))
    ∧ (a.takes m (A.CE_CAPCTL g) = true →
      (a.inTurn (.captureArm t m g) = true → ∃ u : State, exec (.captureArm t m g) s = .next (u.yokCheck.after a (.captureArm t m g)) ∧ u.get (F.CE_CAPSTAT_ARMED g) = 1
          ∧ u.get (F.CE_CAPSTAT_DONE g) = 0 ∧ u.get (F.CE_CAPSTAT_WRAP g) = 0
          ∧ u.get (F.CE_CAPPTR_PTR g) = a.get (F.CE_CAPRANGE_BASE g) % 2 ^ (F.CE_CAPPTR_PTR g).width
          ∧ u.rd (A.CE_CAPDROP g) = 0 ∧ u.ce.armAt[g] = some a.now
          ∧ RegsBut [A.CE_CAPSTAT g, A.CE_CAPPTR g, A.CE_CAPDROP g, A.EVT_TAGHWM] a u)
      ∧ (a.inTurn (.captureStop t m g) = true → ∃ u : State, exec (.captureStop t m g) s = .next (u.yokCheck.after a (.captureStop t m g)) ∧ u.get (F.CE_CAPSTAT_ARMED g) = 0
          ∧ RegsBut [A.CE_CAPSTAT g, A.EVT_TAGHWM] a u ∧ u = { a with regs := u.regs, same := u.same, tagsUse := a.tagsUse + 1 }))

/-- Scrubbing, generators and captures. -/
def Obligations.EngineUnits : Prop :=
  Part.Scrubbing ∧ Part.BusReads ∧ Part.GeneratorsAndCaptures

namespace Sys2Proof.Machine

/-- The run on lane l stands at this legal operation, with room in its journal, and no upset stands in a word that it reads. -/
def CeStands (s : State) (l : Fin 16) (r : RunSt) (o : Op) : Prop :=
  s.ce.lanes[l] = some r ∧ r.ended = none ∧ r.entries ≤ 508
    ∧ (∀ k ∈ State.fetchKeys r ++ s.opReads r o, s.upsetAt k = none)
    ∧ r.pc ≠ s.pStart r.task + s.pLen r.task ∧ s.memGet (K.prog (r.pc % 16384)) = o.word ∧ opLegal o.word = true

/-- It stands there, and nothing skips the operation. -/
def CeAt (s : State) (l : Fin 16) (r : RunSt) (o : Op) : Prop := CeStands s l r o ∧ r.skip = 0

/-- The command completes; the lane's run becomes `r'` and nothing else changes but the pool's load figures. -/
def CeRuns (c : Instr) (s : State) (l : Fin 16) (r' : RunSt) : Prop :=
  ∃ u : State, exec c s = .next (u.after s c) ∧ u.ce.lanes[l] = some r' ∧ (∀ k, k ≠ l → u.ce.lanes[k] = s.ce.lanes[k])
    ∧ RegsBut [A.CE_LOAD] s u
    ∧ u = { s with regs := u.regs, same := u.same, freeCnt := u.freeCnt,
                   ce := { s.ce with lanes := u.ce.lanes, busyCyc := u.ce.busyCyc, busyWin := u.ce.busyWin } }

/-- A run whose only change beside its program counter and its cycles is in its accumulators and its saturation count. -/
def AccsOnly (r r' : RunSt) (cyc : Nat) : Prop :=
  r' = { r with pc := r.pc + 1, cycles := r.cycles + cyc, accs := r'.accs, sats := r'.sats }

/-- Accumulator a takes a value, saturated to 72 bits and counted when it does (R236); the others keep theirs. -/
def AccTakes (r r' : RunSt) (a : Fin 4) (cyc : Nat) (v : Int) : Prop :=
  AccsOnly r r' cyc ∧ (∀ b : Fin 4, b ≠ a → r'.acc b = r.acc b)
    ∧ r'.acc a = clampI (-(2 ^ 71)) (2 ^ 71 - 1) v
    ∧ r'.sats = r.sats + (if -(2 ^ 71) ≤ v ∧ v < 2 ^ 71 then 0 else 1)

/-- Bits 31:0 of accumulator a take a word, and bits 71:32 become 0; nothing saturates. -/
def RawTakes (r r' : RunSt) (a : Fin 4) (v : Nat) (cyc : Nat) : Prop :=
  AccsOnly r r' cyc ∧ (∀ b : Fin 4, b ≠ a → r'.acc b = r.acc b) ∧ r'.acc a = ((v % 2 ^ 32 : Nat) : Int) ∧ r'.sats = r.sats

end Sys2Proof.Machine

/-- LD, ADD, SUB, LDC, MUL, MAC, MSU, MACS, MSUS, MIN, MAX, LIMS and SHA: the accumulator's new value, in units of
2^−61. -/
def Sys2Proof.Machine.Part.AccumulatorSums : Prop :=
  ∀ (s : State) (l : Fin 16) (a : Fin 4) (x y : Fin 1024) (n : Fin 32) (r : RunSt),
    let v := r.acc a
    let sx : Int := (s.sig r x).toInt
    let sy : Int := (s.sig r y).toInt
    let c : Int := (s.coefWord (s.coefIdx r y)).toInt
    let k := s.coefShift (s.coefIdx r y)
    (CeAt s l r ⟨0x03, a, x, 0, 0⟩ → ∃ r', CeRuns (.ceLd l a x .ok) s l r' ∧ AccTakes r r' a 1 (sx * 2 ^ 31))
    ∧ (CeAt s l r ⟨0x04, a, x, 0, 0⟩ → ∃ r', CeRuns (.ceAdd l a x .ok) s l r' ∧ AccTakes r r' a 1 (v + sx * 2 ^ 31))
    ∧ (CeAt s l r ⟨0x05, a, x, 0, 0⟩ → ∃ r', CeRuns (.ceSub l a x .ok) s l r' ∧ AccTakes r r' a 1 (v - sx * 2 ^ 31))
    ∧ (CeAt s l r ⟨0x06, a, 0, y, 0⟩ → ∃ r', CeRuns (.ceLdc l a y .ok) s l r' ∧ AccTakes r r' a 1 (c * 2 ^ (30 + k).toNat))
    ∧ (CeAt s l r ⟨0x07, a, x, y, 0⟩ → ∃ r', CeRuns (.ceMul l a x y .ok) s l r' ∧ AccTakes r r' a 1 (scaleRnd (sx * c) k))
    ∧ (CeAt s l r ⟨0x08, a, x, y, 0⟩ → ∃ r', CeRuns (.ceMac l a x y .ok) s l r' ∧ AccTakes r r' a 1 (v + scaleRnd (sx * c) k))
    ∧ (CeAt s l r ⟨0x09, a, x, y, 0⟩ → ∃ r', CeRuns (.ceMsu l a x y .ok) s l r' ∧ AccTakes r r' a 1 (v - scaleRnd (sx * c) k))
    ∧ (CeAt s l r ⟨0x0A, a, x, y, 0⟩ → ∃ r', CeRuns (.ceMacs l a x y .ok) s l r' ∧ AccTakes r r' a 1 (v + sx * sy * 2))
    ∧ (CeAt s l r ⟨0x0B, a, x, y, 0⟩ → ∃ r', CeRuns (.ceMsus l a x y .ok) s l r' ∧ AccTakes r r' a 1 (v - sx * sy * 2))
    ∧ (CeAt s l r ⟨0x10, a, x, 0, 0⟩ → ∃ r', CeRuns (.ceMin l a x .ok) s l r' ∧ AccTakes r r' a 1 (min v (sx * 2 ^ 31)))
    ∧ (CeAt s l r ⟨0x11, a, x, 0, 0⟩ → ∃ r', CeRuns (.ceMax l a x .ok) s l r' ∧ AccTakes r r' a 1 (max v (sx * 2 ^ 31)))
    ∧ (CeAt s l r ⟨0x13, a, x, 0, 0⟩ → ∃ r', CeRuns (.ceLims l a x .ok) s l r'
        ∧ AccTakes r r' a 1 (max (-(|sx| * 2 ^ 31)) (min (|sx| * 2 ^ 31) v)))
    ∧ (CeAt s l r ⟨0x0D, a, 0, n, 0⟩ → ∃ r', CeRuns (.ceSha l a n .ok) s l r' ∧ AccTakes r r' a 1 (scaleRnd v (toSigned 5 n)))

/-- NOP, CLR, LDW, LDCW, ADDW, AMUL, ATAN2, NEG, ABS and LIM.  A result the spec does not state (−2^71 negated; limits in the
wrong order) is a free value (log entry 3): the accumulator's alone. -/
def Sys2Proof.Machine.Part.AccumulatorMoves : Prop :=
  ∀ (s : State) (l : Fin 16) (a : Fin 4) (x y : Fin 1024) (r : RunSt),
    let v := r.acc a
    let ci := s.coefIdx r y
    let lo : Int := (s.coefWord ci).toInt * 2 ^ 31
    let hi : Int := (s.coefWord (s.coefIdx r (y + 1 : Nat))).toInt * 2 ^ 31
    let k : Int := s.coefShift ci - 16
    let p := (v % 2 ^ 32).toNat * (s.coefWord ci).toNat
    (CeAt s l r ⟨0x00, 0, 0, 0, 0⟩ → CeRuns (.ceNop l .ok) s l { r with pc := r.pc + 1, cycles := r.cycles + 1 })
    ∧ (CeAt s l r ⟨0x02, a, 0, 0, 0⟩ → ∃ r', CeRuns (.ceClr l a .ok) s l r' ∧ RawTakes r r' a 0 1)
    ∧ (CeAt s l r ⟨0x15, a, x, 0, 0⟩ → ∃ r', CeRuns (.ceLdw l a x .ok) s l r' ∧ RawTakes r r' a (s.sig r x).toNat 1)
    ∧ (CeAt s l r ⟨0x16, a, 0, y, 0⟩ → ∃ r', CeRuns (.ceLdcw l a y .ok) s l r' ∧ RawTakes r r' a (s.coefWord ci).toNat 1)
    ∧ (CeAt s l r ⟨0x17, a, x, 0, 0⟩ → ∃ r', CeRuns (.ceAddw l a x .ok) s l r'
        ∧ RawTakes r r' a ((v % 2 ^ 32).toNat + (s.sig r x).toNat) 1)
    ∧ (CeAt s l r ⟨0x19, a, 0, y, 0⟩ → ∃ r', CeRuns (.ceAmul l a y .ok) s l r'
        ∧ RawTakes r r' a (if 0 ≤ k then p * 2 ^ k.toNat else p / 2 ^ (-k).toNat) 1)
    ∧ (CeAt s l r ⟨0x1D, a, 0, 0, 0⟩ → ∃ r', CeRuns (.ceAtan2 l a .ok) s l r'
        ∧ RawTakes r r' a (atan2 (r.acc (a.val + 1)) v) 8)
    ∧ (CeAt s l r ⟨0x0E, a, 0, 0, 0⟩ → ∃ r', CeRuns (.ceNeg l a .ok) s l r' ∧ AccsOnly r r' 1 ∧ r'.sats = r.sats
        ∧ (∀ b : Fin 4, b ≠ a → r'.acc b = r.acc b) ∧ (v ≠ -(2 ^ 71) → r'.acc a = -v))
    ∧ (CeAt s l r ⟨0x0F, a, 0, 0, 0⟩ → ∃ r', CeRuns (.ceAbs l a .ok) s l r' ∧ AccsOnly r r' 1 ∧ r'.sats = r.sats
        ∧ (∀ b : Fin 4, b ≠ a → r'.acc b = r.acc b) ∧ (v ≠ -(2 ^ 71) → r'.acc a = |v|))
    ∧ (CeAt s l r ⟨0x12, a, 0, y, 0⟩ → ∃ r', CeRuns (.ceLim l a y .ok) s l r' ∧ AccsOnly r r' 1 ∧ r'.sats = r.sats
        ∧ (∀ b : Fin 4, b ≠ a → r'.acc b = r.acc b) ∧ (lo ≤ hi → r'.acc a = max lo (min hi v)))

/-- Operations on one accumulator. -/
def Obligations.AccumulatorOps : Prop :=
  Part.AccumulatorSums ∧ Part.AccumulatorMoves

/-- TLU, SINCOS, DIV, SQRT and VLIM: an interpolated entry is added; the square root is the nearest one; a limited vector is
no longer than its limit, and one within it stays. -/
def Obligations.AccumulatorFunctions : Prop :=
  ∀ (s : State) (l : Fin 16) (a : Fin 4) (x : Fin 1024) (y : Fin 16) (r : RunSt),
    let v := r.acc a
    let w := r.acc (a.val + 1)
    let b : Fin 4 := a + 1
    let sx : Int := (s.sig r x).toInt
    let i := (s.sig r x).toNat / 2 ^ 20
    let t0 : Int := (s.memGet (K.table y i)).toInt
    let t1 : Int := (s.memGet (K.table y ((i + 1) % 4096))).toInt
    (CeAt s l r ⟨0x1B, a, x, y, 0⟩ → ∃ r', CeRuns (.ceTlu l a x y .ok) s l r'
        ∧ AccTakes r r' a 3 (v + (t0 * 2 ^ 20 + (t1 - t0) * ((s.sig r x).toNat % 2 ^ 20 : Nat)) * 2 ^ 11))
    ∧ (CeAt s l r ⟨0x1C, a, x, 0, 0⟩ → ∃ r', CeRuns (.ceSincos l a x .ok) s l r' ∧ AccsOnly r r' 4 ∧ r'.sats = r.sats
        ∧ r'.acc a = (sinCos (s.sig r x).toNat).1 * 2 ^ 31 ∧ r'.acc b = (sinCos (s.sig r x).toNat).2 * 2 ^ 31
        ∧ ∀ d : Fin 4, d ≠ a → d ≠ b → r'.acc d = r.acc d)
    ∧ (CeAt s l r ⟨0x1E, a, x, 0, 0⟩ → ∃ r', CeRuns (.ceDiv l a x .ok) s l r' ∧ AccsOnly r r' 12
        ∧ (∀ d : Fin 4, d ≠ a → r'.acc d = r.acc d)
        ∧ (sx ≠ 0 → AccTakes r r' a 12 (divAway (v * 2 ^ 30) sx))
        ∧ (sx = 0 → r'.sats = r.sats + 1
            ∧ r'.acc a = (if v = 0 then 0 else if v < 0 then -(2 ^ 71) else 2 ^ 71 - 1)))
    ∧ (CeAt s l r ⟨0x1F, a, 0, 0, 0⟩ → ∃ r', CeRuns (.ceSqrt l a .ok) s l r' ∧ AccsOnly r r' 8
        ∧ (∀ d : Fin 4, d ≠ a → r'.acc d = r.acc d)
        ∧ (v < 0 → r'.acc a = 0 ∧ r'.sats = r.sats + 1)
        ∧ (0 ≤ v → r'.sats = r.sats ∧ 0 ≤ r'.acc a ∧ r'.acc a * r'.acc a - r'.acc a ≤ v * 2 ^ 61
            ∧ v * 2 ^ 61 ≤ r'.acc a * r'.acc a + r'.acc a))
    ∧ (CeAt s l r ⟨0x14, a, x, 0, 0⟩ → ∃ r', CeRuns (.ceVlim l a x .ok) s l r' ∧ AccsOnly r r' 6 ∧ r'.sats = r.sats
        ∧ (∀ d : Fin 4, d ≠ a → d ≠ b → r'.acc d = r.acc d)
        ∧ r'.acc a * r'.acc a + r'.acc b * r'.acc b ≤ (sx * 2 ^ 31) * (sx * 2 ^ 31)
        ∧ (v * v + w * w ≤ (sx * 2 ^ 31) * (sx * 2 ^ 31) → r'.acc a = v ∧ r'.acc b = w))

/-- STS, STW and TOCMP: the signal word takes its value, and every other signal word reads as before. -/
def Sys2Proof.Machine.Part.SignalStores : Prop :=
  ∀ (s : State) (l : Fin 16) (a m : Fin 4) (x : Fin 1024) (r : RunSt),
    let v := r.acc a
    let q := stsRound m v
    (CeAt s l r ⟨0x0C, a, x, 0, m⟩ → ∃ r', CeRuns (.ceSts l a x m .ok) s l r' ∧ r'.accs = r.accs ∧ r'.pc = r.pc + 1
        ∧ s.sig r' x = BitVec.ofInt 32 (clampI (-(2 ^ 31)) (2 ^ 31 - 1) q)
        ∧ r'.sats = r.sats + (if -(2 ^ 31) ≤ q ∧ q < 2 ^ 31 then 0 else 1)
        ∧ ∀ z : Fin 1024, z ≠ x → s.sig r' z = s.sig r z)
    ∧ (CeAt s l r ⟨0x1A, a, x, 0, 0⟩ → ∃ r', CeRuns (.ceStw l a x .ok) s l r' ∧ r'.accs = r.accs ∧ r'.pc = r.pc + 1
        ∧ s.sig r' x = BitVec.ofInt 32 v ∧ r'.sats = r.sats ∧ ∀ z : Fin 1024, z ≠ x → s.sig r' z = s.sig r z)
    ∧ (CeAt s l r ⟨0x20, a, x, 0, m⟩ → ∃ r', CeRuns (.ceTocmp l a x m .ok) s l r' ∧ r'.accs = r.accs ∧ r'.pc = r.pc + 1
        ∧ (m.val % 2 = 1 → v ≤ 0 → s.sig r' x = 0xFFFFFFFF)
        ∧ (2 ≤ m.val → 2 ^ 61 ≤ v → s.sig r' x = 0xFFFFFFFE)
        ∧ (0 < v → v < 2 ^ 61 → s.sig r' x = BitVec.ofInt 32 (min 0xFFFFFFFD (v / 2 ^ 29)))
        ∧ ∀ z : Fin 1024, z ≠ x → s.sig r' z = s.sig r z)

/-- BIQ: one second-order section in direct form II transposed; its output is the accumulator's, limited where M says so,
and its two states take their next values. -/
def Sys2Proof.Machine.Part.BiquadSections : Prop :=
  ∀ (s : State) (l : Fin 16) (a : Fin 4) (x y : Fin 1024) (m : Fin 2) (r : RunSt),
    let at_ (v : Int) : Int := clampI (-(2 ^ 31)) (2 ^ 31 - 1) (rndShift v 31)
    let coef (i : Nat) : Int := (s.coefWord (s.coefIdx r (y + i))).toInt
    let prod (u : Int) (i : Nat) : Int := scaleRnd (u * coef i) (s.coefShift (s.coefIdx r (y + i)))
    let lo := coef 5 * 2 ^ 31
    let hi := coef 6 * 2 ^ 31
    let u := at_ (r.acc a)
    let raw := clampI (-(2 ^ 71)) (2 ^ 71 - 1) (prod u 0 + s.elem r x)
    let v := if m.val = 1 then max lo (min hi raw) else raw
    CeAt s l r ⟨0x18, a, x, y, m⟩ → (m.val = 1 → lo ≤ hi) →
      ∃ r', CeRuns (.ceBiq l a x y m .ok) s l r' ∧ r'.acc a = v ∧ (∀ d : Fin 4, d ≠ a → r'.acc d = r.acc d)
        ∧ r'.cycles = r.cycles + 6
        ∧ s.elem r' x = clampI (-(2 ^ 63)) (2 ^ 63 - 1) (prod u 1 - prod (at_ v) 3 + s.elem r (x + 2))
        ∧ s.elem r' (x + 2) = clampI (-(2 ^ 63)) (2 ^ 63 - 1) (prod u 2 - prod (at_ v) 4)

/-- Signal stores and biquad sections. -/
def Obligations.StoresAndSections : Prop :=
  Part.SignalStores ∧ Part.BiquadSections

/-- SKZ, SKS, SKN, SKNN, CAP and SETF, and an operation that is skipped. -/
def Obligations.SkipsFlagsCaptures : Prop :=
  ∀ (s : State) (l : Fin 16) (a : Fin 4) (x : Fin 1024) (n : Fin 32) (m : Fin 16) (c : Fin 4) (f : Fin 8) (r : RunSt),
    let on := (s.sig r x).toNat / 2 ^ n.val % 2
    let went (k : Nat) : RunSt := { r with pc := r.pc + 1, cycles := r.cycles + 1, skip := k }
    (CeAt s l r ⟨0x21, 0, x, n, m⟩ → CeRuns (.ceSkz l x n m .ok) s l (went (if on = 0 then m + 1 else 0)))
    ∧ (CeAt s l r ⟨0x22, 0, x, n, m⟩ → CeRuns (.ceSks l x n m .ok) s l (went (if on = 1 then m + 1 else 0)))
    ∧ (CeAt s l r ⟨0x23, a, 0, 0, m⟩ → CeRuns (.ceSkn l a m .ok) s l (went (if r.acc a < 0 then m + 1 else 0)))
    ∧ (CeAt s l r ⟨0x24, a, 0, 0, m⟩ → CeRuns (.ceSknn l a m .ok) s l (went (if r.acc a < 0 then 0 else m + 1)))
    ∧ (CeAt s l r ⟨0x25, 0, x, c, 0⟩ → ∃ r', CeRuns (.ceCap l x c .ok) s l r'
        ∧ r'.journal = r.journal ++ [.cap c (s.sig r x)] ∧ r'.accs = r.accs
        ∧ r'.entries = r.entries + (if s.bit (F.CE_CAPCFG_STAMP c) ∧ c.val ∉ r.stamped then 2 else 1))
    ∧ (CeAt s l r ⟨0x26, 0, 0, f, 0⟩ → ∃ r', CeRuns (.ceSetf l f .ok) s l r' ∧ r'.flags / 2 ^ f.val % 2 = 1
        ∧ (∀ j, j ≠ f.val → r'.flags / 2 ^ j % 2 = r.flags / 2 ^ j % 2)
        ∧ r' = { r with pc := r.pc + 1, cycles := r.cycles + 1, flags := r'.flags })
    ∧ (∀ k, r.skip = k + 1 → CeStands s l r ⟨0x04, a, x, 0, 0⟩ →
        CeRuns (.ceAdd l a x .ok) s l (went k))

/-- END: the run leaves its lane with its accumulators and waits for its commit; with no general tag free it waits on the
lane. -/
def Sys2Proof.Machine.Part.RunEnds : Prop :=
  ∀ (s : State) (l : Fin 16) (r : RunSt), CeAt s l r ⟨0x01, 0, 0, 0, 0⟩ → r.cycles + 1 < 2 ^ 32 →
    let e : RunSt := { r with pc := r.pc + 1, cycles := r.cycles + 1, skip := 0, ended := some s.now }
    ∃ u : State, exec (.ceEnd l .ok) s = .next (u.after s (.ceEnd l .ok))
      ∧ (s.tagFree = true → s.stalled = [] →
          u.ce.lanes[l] = none ∧ u.ce.accs[l] = r.accs ∧ u.ce.ended = s.ce.ended ++ [e])
      ∧ (s.tagFree = false → u.ce.lanes[l] = some e ∧ u.ce.ended = s.ce.ended)
      ∧ u.get (F.CE_TCYC_MAXCYC r.task) = max (s.get (F.CE_TCYC_MAXCYC r.task)) (r.cycles + 1)
      ∧ (∀ k, k ≠ l → u.ce.lanes[k] = s.ce.lanes[k]) ∧ u.mem = s.mem

/-- A word that is not an operation, a check that fails, and a word that cannot be corrected, discard the run of a background
task, which is recorded and counted. -/
def Sys2Proof.Machine.Part.RunChecks : Prop :=
  ∀ (s : State) (l : Fin 16) (r : RunSt) (a : Fin 4) (x : Fin 1024), 32 ≤ r.task.val →
    let failed (c : Instr) (code : Nat) : Prop := ∃ u : State, exec c s = .next (u.after s c) ∧ u.ce.lanes[l] = none ∧ u.ce.accs[l] = r.accs
      ∧ u.get (F.CE_TDISC_DISCNT r.task) = (s.get (F.CE_TDISC_DISCNT r.task) + 1) % 2 ^ (F.CE_TDISC_DISCNT 0).width
      ∧ u.get (F.CE_TSTAT_RUNNING r.task) = 0 ∧ NewestFault u code r.task ∧ u.mem = s.mem
    (s.ce.lanes[l] = some r → r.ended = none → (∀ k ∈ State.fetchKeys r, s.upsetAt k = none) →
        opLegal (s.memGet (K.prog (r.pc % 16384))) = false → failed (.ceAdd l a x .ok) 0x0503)
    ∧ (s.ce.lanes[l] = some r → r.ended = none → 0 < r.cycles → r.pc ≠ s.pStart r.task + s.pLen r.task →
        s.upsetAt (K.prog (r.pc % 16384)) = some true → ∃ u : State, exec (.ceAdd l a x .ok) s = .next (u.after s (.ceAdd l a x .ok))
          ∧ u.ce.lanes[l] = none ∧ u.get (F.CE_TSTAT_RUNNING r.task) = 0 ∧ NewestFault u 0x0602 (r.pc % 16384)
          ∧ u.rd A.CE_ECCADDR = BitVec.ofNat 32 (r.pc % 16384) ∧ u.mem = s.mem)
    ∧ (CeAt s l r ⟨0x04, a, x, 0, 0⟩ → failed (.ceAdd l a x .mac) 0x0501 ∧ failed (.ceAdd l a x .func) 0x0502)

/-- How a run ends. -/
def Obligations.EngineRunEnds : Prop :=
  Part.RunEnds ∧ Part.RunChecks

/-- The words of operations and their fields are the same thing, on every value of every field. -/
def Obligations.OperationWords : Prop :=
  (∀ o : Op, o.opc < 64 → o.a < 4 → o.x < 1024 → o.y < 1024 → o.m < 16 → opOf o.word = o)
    ∧ (∀ w : Word, (opOf w).word = w)

/-- EDGE_ACCEPT: a QUAD port counts one step for an accepted step of its sequence, a PULSEDIR port one for a rising A, in the
direction DIRINV gives, on 64 bits; two levels of a QUAD port at once are a loss; levels that returned before acceptance are
counted.  The index input does not act. -/
def Sys2Proof.Machine.Part.EdgeCounts : Prop :=
  ∀ (s : State) (t : Tick) (p : Fin 8) (qa qb : Bool) (raw : Abz) (rej : Fin 4), let a := s.advance t
    let x := a.port p
    let c : Instr := .edgeAccept t p ⟨qa, qb, x.z⟩ raw rej
    let diff := (quadIdx qa qb + 4 - quadIdx x.a x.b) % 4
    let sign : Int := if a.bit (F.FBK_CFG_DIRINV p) then -1 else 1
    let still (u : State) : Prop := u.rd (A.FBK_POS0 p) = a.rd (A.FBK_POS0 p) ∧ u.rd (A.FBK_POS1 p) = a.rd (A.FBK_POS1 p)
    let moved (u : State) (d : Int) : Prop := (u.extPos p - (a.extPos p + d)) % 2 ^ 64 = 0 ∧ (u.port p).changeAt = a.now
    a.clkOn = true → a.fbkMode p = fmQUAD ∨ a.fbkMode p = fmPULSEDIR →
    a.bit (F.FBK_CFG_IDXGATE p) = false ∨ a.fbkMode p = fmPULSEDIR ∨ x.z = a.bit (F.FBK_CFG_ZPOL p) →
      a.inTurn c = true → ∃ u : State, exec c s = .next (u.yokCheck.after a c)
        ∧ (u.port p).a = qa ∧ (u.port p).b = qb ∧ (u.port p).raw = raw ∧ (∀ q, q ≠ p → u.port q = a.port q)
        ∧ u.get (F.FBK_CNT_GLITCH p) = min (2 ^ (F.FBK_CNT_GLITCH 0).width - 1) (a.get (F.FBK_CNT_GLITCH p) + rej)
        ∧ (0 < rej.val → u.get (F.FBK_STAT_GLITCH p) = 1)
        ∧ (a.fbkMode p = fmQUAD →
            (diff = 0 → still u) ∧ (diff = 1 → moved u sign) ∧ (diff = 3 → moved u (-sign))
            ∧ (diff = 2 → u.get (F.FBK_STAT_QERR p) = 1 ∧ u.get (F.FBK_STAT_LOST p) = 1
                ∧ u.get (F.FBK_STAT_POSVALID p) = 0 ∧ still u))
        ∧ (a.fbkMode p = fmPULSEDIR →
            (x.a = false → qa = true → moved u (if qb then -sign else sign))
            ∧ ((x.a = true ∨ qa = false) → still u))

/-- POSITION_SET, PROBE_LATCH and SPEED_ZERO: firmware's position, the position in effect at the probe's edge, and a speed
that has decayed. -/
def Sys2Proof.Machine.Part.PositionsAndProbes : Prop :=
  ∀ (s : State) (t : Tick) (m : Master) (p : Fin 8) (v : Word) (level : Bool), let a := s.advance t
    let stamp := a.now - a.get (F.FBK_PRBCFG_FILT p) - 2
    (a.takes m (A.FBK_POSSET p) = true →
      a.inTurn (.positionSet t m p v) = true → ∃ u : State, exec (.positionSet t m p v) s = .next (u.yokCheck.after a (.positionSet t m p v)) ∧ u.rd (A.FBK_POS0 p) = v
        ∧ u.rd (A.FBK_POS1 p) = a.rd (A.FBK_POS1 p) ∧ (u.port p).haveRef = false
        ∧ ((a.port p).frozen = false → u.get (F.FBK_STAT_POSVALID p) = 1 ∧ u.get (F.FBK_STAT_LOST p) = 0))
    ∧ (a.clkOn = true →
      (a.fbkMode p ≠ fmOFF → (a.port p).prb ≠ level → a.bit (F.FBK_PRBCFG_ARM p) = true →
          a.get (F.FBK_PRBCFG_EDGE p) = 3 →
        a.inTurn (.probeLatch t p level) = true → ∃ u : State, exec (.probeLatch t p level) s = .next (u.yokCheck.after a (.probeLatch t p level)) ∧ (u.port p).prb = level
          ∧ u.get (F.FBK_STAT_PRB p) = 1
          ∧ (u.port p).prbAt = some stamp
          ∧ (∀ h before w rest, (a.port p).hist = (h, before, w) :: rest → h ≤ stamp → u.rd (A.FBK_PRBPOS p) = w)
          ∧ (∀ h before w, (a.port p).hist = [(h, before, w)] → stamp < h → u.rd (A.FBK_PRBPOS p) = before)
          ∧ ((a.port p).hist = [] → u.rd (A.FBK_PRBPOS p) = a.rd (A.FBK_POS0 p))
          ∧ u.rd (A.FBK_PRBSTAMP0 p) = BitVec.ofNat 32 (a.stampOf (256 * stamp))
          ∧ u.bit (F.FBK_PRBCFG_ARM p) = a.bit (F.FBK_PRBCFG_CONT p))
      ∧ (a.spdDecayed p = true →
        a.inTurn (.speedZero t p) = true → ∃ u : State, exec (.speedZero t p) s = .next (u.yokCheck.after a (.speedZero t p)) ∧ u.get (F.FBK_STAT_ZERO p) = 1
          ∧ RegsBut [A.FBK_STAT p] a u ∧ u = { a with regs := u.regs, same := u.same }))

/-- Edges, positions and probes. -/
def Obligations.EdgesAndProbes : Prop :=
  Part.EdgeCounts ∧ Part.PositionsAndProbes

/-- HALL_CODE_TIMEOUT, EDGE_TIMEOUT and FREEZE_DETECT: the port is lost. -/
def Sys2Proof.Machine.Part.FeedbackLosses : Prop :=
  ∀ (s : State) (t : Tick) (p : Fin 8), let a := s.advance t
    let lost (u : State) : Prop := u.get (F.FBK_STAT_LOST p) = 1 ∧ u.get (F.FBK_STAT_LOSS p) = 1
      ∧ u.get (F.FBK_STAT_POSVALID p) = 0 ∧ u.get (F.FBK_STAT_SPDVALID p) = 0
      ∧ (a.get (F.FBK_STAT_LOST p) = 1 → a.ladderOn p = none → u.jrn = a.jrn)
    a.clkOn = true →
      (∀ t0, (a.port p).hallBad = some t0 → a.fbkMode p = fmHALL → t0 + 32 ≤ a.now →
        a.inTurn (.hallCodeTimeout t p) = true → ∃ u : State, exec (.hallCodeTimeout t p) s = .next (u.yokCheck.after a (.hallCodeTimeout t p)) ∧ lost u ∧ u.get (F.FBK_STAT_HALLBAD p) = 1
          ∧ (u.port p).hallBad = none)
      ∧ (∀ e, (a.port p).lastEv = some e → isEdgeMode (a.fbkMode p) = true → a.get (F.FBK_LOSSCFG_LOSSSH p) ≠ 0 →
          a.bit (F.FBK_STAT_SPDVALID p) = true → 0 < (a.port p).spanN →
          a.get (F.FBK_LOSSCFG_LOSSSPD p) * 65536 ≤ (a.port p).spdEv.natAbs →
          2 ^ a.get (F.FBK_LOSSCFG_LOSSSH p) * (a.port p).delta < (a.now - e) * (a.port p).spanN →
        a.inTurn (.edgeTimeout t p) = true → ∃ u : State, exec (.edgeTimeout t p) s = .next (u.yokCheck.after a (.edgeTimeout t p)) ∧ lost u)
      ∧ (∀ tm, a.fbkTeam p = some tm → a.fbkMode p ≠ fmOFF → a.get (F.FBK_FRZCFG_FRZT p) ≠ 0 →
          a.bit (F.FBK_MOTWORD_EN p) = true → (a.port p).changeAt + a.get (F.FBK_FRZCFG_FRZT p) * 256 ≤ a.now →
          a.bit (F.CE_OBS_VALID tm) = true → a.get (F.FBK_FRZCFG_FRZSPD p) * 65536 ≤ a.motWord p →
          (∃ f, (a.port p).motFrom = some f ∧ f + a.get (F.FBK_FRZCFG_FRZT p) * 256 ≤ a.now) →
        a.inTurn (.freezeDetect t p) = true → ∃ u : State, exec (.freezeDetect t p) s = .next (u.yokCheck.after a (.freezeDetect t p)) ∧ lost u ∧ u.get (F.FBK_STAT_FROZEN p) = 1)

/-- LADDER_RAMP_END: the torque ramp ends in HALTED, with FEEDBACK:LADDER_END as the fault. -/
def Sys2Proof.Machine.Part.LadderEnds : Prop :=
  ∀ (s : State) (t : Tick) (p : Fin 8) (tm : Fin 24), let a := s.advance t
    a.clkOn = true → a.ladderOn p = some tm → a.get (F.FBK_STAT_LADDER p) = 2 →
    a.rampTicks p ≤ a.now - (a.port p).rampAt →
      a.inTurn (.ladderRampEnd t p) = true → ∃ u : State, exec (.ladderRampEnd t p) s = .next (u.yokCheck.after a (.ladderRampEnd t p)) ∧ u.get (F.FBK_STAT_LADDER p) = 3
        ∧ u.get (F.FBK_RAMPF_F p) = 0 ∧ u.tstate tm = stHALTED ∧ u.get (F.TEAM_STAT_CAUSE tm) = caFAULT
        ∧ u.get (F.TEAM_SAFEFLT_FLT tm) = 0x0809 ∧ ∀ r, r ≠ tm → u.tstate r = a.tstate r

/-- Losses of feedback and the commutation ladder. -/
def Obligations.FeedbackConditions : Prop :=
  Part.FeedbackLosses ∧ Part.LadderEnds

/-- SSI_REQUEST, SSI_GO, PARTNER_CLOCKED_SSI_FRAME and SSI_FRAME_END: a frame starts on a quiet line, and a good one moves
the position by the change it shows. -/
def Sys2Proof.Machine.Part.SsiFrames : Prop :=
  ∀ (s : State) (t : Tick) (m : Master) (p : Fin 8) (v : Word) (bits : Nat), let a := s.advance t
    let x := a.port p
    let cleared := x.ssiT0 = none ∧ x.ssiEnd + 65536 ≤ a.now
    let started (u : State) : Prop := (u.port p).ssiT0 = some a.now ∧ (u.port p).ssiPartner = false
      ∧ u.get (F.FBK_STAT_SSIBUSY p) = 1
    a.clkOn = true → a.fbkMode p = fmSSI →
      (a.get (F.FBK_SSIREQ_SRC p) = 2 → a.get (F.FBK_SSIPER_PER p) ≠ 0 → x.ssiNext = some a.now → cleared →
          a.roleActive = true →
        (a.inTurn (.ssiRequest t p true) = true → ∃ u : State, exec (.ssiRequest t p true) s = .next (u.yokCheck.after a (.ssiRequest t p true)) ∧ started u
          ∧ (u.port p).ssiNext = some (a.now + a.get (F.FBK_SSIPER_PER p)) ∧ RegsBut [A.FBK_STAT p] a u)
        ∧ (a.inTurn (.ssiRequest t p false) = true → ∃ u : State, exec (.ssiRequest t p false) s = .next (u.yokCheck.after a (.ssiRequest t p false)) ∧ (u.port p).ssiT0 = none
          ∧ u.get (F.FBK_SSICNT_ERR p) = min (2 ^ (F.FBK_SSICNT_ERR p).width - 1) (a.get (F.FBK_SSICNT_ERR p) + 1)))
      ∧ (a.takes m (A.FBK_SSIREQ p) = true → a.get (F.FBK_SSIREQ_SRC p) = 3 → bitsGet v 30 2 = 3 → cleared →
          a.roleActive = true →
        a.inTurn (.ssiGo t m p v true) = true → ∃ u : State, exec (.ssiGo t m p v true) s = .next (u.yokCheck.after a (.ssiGo t m p v true)) ∧ started u)
      ∧ (a.bit (F.FBK_SSIREQ_YOKSHARE p) = true → x.ssiDrive = false → x.ssiT0 = none →
        a.inTurn (.partnerClockedSsiFrame t p) = true → ∃ u : State, exec (.partnerClockedSsiFrame t p) s = .next (u.yokCheck.after a (.partnerClockedSsiFrame t p)) ∧ (u.port p).ssiT0 = some a.now
          ∧ (u.port p).ssiPartner = true ∧ u.get (F.FBK_STAT_SSIBUSY p) = 1 ∧ RegsBut [A.FBK_STAT p] a u)
      ∧ (∀ t0, x.ssiT0 = some t0 → x.ssiPartner = false →
          t0 + 2 * a.ssiBits p * a.get (F.FBK_SSITIM_HALF p) + a.get (F.FBK_SSITIM_SMPDLY p) + 1 ≤ a.now →
        a.inTurn (.ssiFrameEnd t p bits false) = true → ∃ u : State, exec (.ssiFrameEnd t p bits false) s = .next (u.yokCheck.after a (.ssiFrameEnd t p bits false)) ∧ (u.port p).ssiT0 = none
          ∧ u.rd (A.FBK_SSIRAW0 p) = BitVec.ofNat 32 (bits % 2 ^ a.ssiBits p)
          ∧ (a.ssiGood p (bits % 2 ^ a.ssiBits p) = false → u.get (F.FBK_STAT_SSIERR p) = 1
              ∧ (u.port p).crcBad = x.crcBad + 1 ∧ u.rd (A.FBK_POS0 p) = a.rd (A.FBK_POS0 p))
          ∧ (a.ssiGood p (bits % 2 ^ a.ssiBits p) = true → a.bit (F.FBK_SSIFMT_GRAY p) = false →
              let posw := a.get (F.FBK_SSIFMT_POSW p)
              let val := bits % 2 ^ a.ssiBits p / 2 ^ (a.get (F.FBK_SSIFMT_ERRW p) + a.get (F.FBK_SSIFMT_CRCW p)) % 2 ^ posw
              (u.port p).crcBad = 0
              ∧ (x.ssiPrev = none → u.rd (A.FBK_POS0 p) = BitVec.ofNat 32 val)
              ∧ (∀ v0, x.ssiPrev = some v0 → v0 < 2 ^ posw → a.bit (F.FBK_CFG_DIRINV p) = false →
                  u.rd (A.FBK_POS0 p) = a.rd (A.FBK_POS0 p) + BitVec.ofInt 32 (toSigned posw (val + 2 ^ posw - v0)))))

/-- FBp_CLK in a frame of NB bits (R289): its half periods are low and high in turn from the request on, and after
R(NB + 1) it idles high, as it does when no frame runs on a line that the port drives. -/
def Sys2Proof.Machine.Part.SsiClock : Prop :=
  (∀ h nb d k : Nat, 0 < h → k ≤ 2 * nb → k * h ≤ d → d < (k + 1) * h → ssiLevel h nb d = decide (k % 2 = 1))
    ∧ (∀ h nb d : Nat, (2 * nb + 1) * h ≤ d → ssiLevel h nb d = true)
    ∧ (∀ (s : State) (p : Fin 8), s.tim.under = false → 10 ≤ s.get F.IDG_LOADSTAT_PHASE → s.load.failed = false →
        s.fbkMode p = fmSSI → s.bit (F.FBK_SSIREQ_YOKSHARE p) = false → (s.port p).ssiT0 = none → (s.port p).ssiEnd ≤ s.now →
          s.fbClkBall p = some true)

/-- SSI frames, and the clock of one. -/
def Obligations.SsiFrames : Prop :=
  Part.SsiFrames ∧ Part.SsiClock

/-- COMPARE_TARGET_WRITE, COMPARE_ENABLE and COMPARE_PULSE_END: a target written to an armed unit, and a unit that is armed,
are compared at once; a pulse ends after its last tick. -/
def Sys2Proof.Machine.Part.PositionCompares : Prop :=
  ∀ (s : State) (t : Tick) (m : Master) (p : Fin 8) (k : Fin 4) (v : Word), let a := s.advance t
    let fired (u : State) : Prop := u.get (F.FBK_CMPSTAT_FIRED p k) = 1
      ∧ u.get (F.FBK_CMPSTAT_FIRECNT p k) = (a.get (F.FBK_CMPSTAT_FIRECNT p k) + 1) % 2 ^ (F.FBK_CMPSTAT_FIRECNT 0 0).width
      ∧ u.rd (A.FBK_CMPSTAMP p k) = BitVec.ofNat 32 (a.stampOf a.nowF)
    (a.takes m (A.FBK_CMPTGT p k) = true →
      let behind := (a.wr (A.FBK_CMPTGT p k) v).unitBehind p k
      a.inTurn (.compareTargetWrite t m p k v) = true → ∃ u : State, exec (.compareTargetWrite t m p k v) s = .next (u.yokCheck.after a (.compareTargetWrite t m p k v))
        ∧ (a.bit (F.FBK_CMPCFG_EN p k) = false → u.rd (A.FBK_CMPTGT p k) = v
            ∧ RegsBut [A.FBK_CMPTGT p k, A.EVT_TAGHWM] a u ∧ u = { a with regs := u.regs, same := u.same, tagsUse := a.tagsUse + 1 })
        ∧ (a.bit (F.FBK_CMPCFG_EN p k) = true → (behind && a.bit (F.FBK_CMPCFG_POLICY p k)) = false →
            u.rd (A.FBK_CMPTGT p k) = v ∧ u.bit (F.FBK_CMPSTAT_BEHIND p k) = behind
            ∧ u.get (F.FBK_CMPSTAT_FIRECNT p k) = a.get (F.FBK_CMPSTAT_FIRECNT p k))
        ∧ (a.bit (F.FBK_CMPCFG_EN p k) = true → behind = true → a.bit (F.FBK_CMPCFG_POLICY p k) = true →
            fired u ∧ u.rd (A.FBK_CMPTGT p k)
              = (if a.bit (F.FBK_CMPCFG_RELOAD p k) then v + a.rd (A.FBK_CMPINC p k) else v)))
    ∧ (a.takes m (A.FBK_CMPCFG p k) = true → a.bit (F.FBK_CMPCFG_EN p k) = false →
      a.inTurn (.compareEnable t m p k v) = true → ∃ u : State, exec (.compareEnable t m p k v) s = .next (u.yokCheck.after a (.compareEnable t m p k v))
        ∧ u.get (F.FBK_CMPCFG_WIDTH p k) = max 1 (bitsGet v (F.FBK_CMPCFG_WIDTH p k).lo (F.FBK_CMPCFG_WIDTH p k).width)
        ∧ ((a.unitBehind p k && bitsGet v 30 1 == 1) = false → u.get (F.FBK_CMPCFG_EN p k) = 1
            ∧ u.bit (F.FBK_CMPSTAT_BEHIND p k) = a.unitBehind p k)
        ∧ (a.unitBehind p k = true → bitsGet v 30 1 = 1 → fired u ∧ u.get (F.FBK_CMPCFG_EN p k) = bitsGet v 29 1))
    ∧ (∀ sel b e, (a.port p).pulses[k] = some (sel, b, e) → e < a.now → a.clkOn = true →
      a.inTurn (.comparePulseEnd t p k) = true → ∃ u : State, exec (.comparePulseEnd t p k) s = .next (u.yokCheck.after a (.comparePulseEnd t p k)) ∧ (u.port p).pulses[k] = none
        ∧ ∀ j, j ≠ k → (u.port p).pulses[j] = (a.port p).pulses[j])

/-- EMULATION_STEP: a synthesised output moves by at most one count, no sooner than its spacing allows, and towards its
target. -/
def Sys2Proof.Machine.Part.EmulationSteps : Prop :=
  ∀ (s : State) (t : Tick) (o : Fin 2), let a := s.advance t
    a.clkOn = true →
      a.inTurn (.emulationStep t o) = true → ∃ u : State, exec (.emulationStep t o) s = .next (u.yokCheck.after a (.emulationStep t o))
        ∧ ((u.fbo[o]).out - (a.fbo[o]).out).natAbs ≤ 1
        ∧ ((u.fbo[o]).out ≠ (a.fbo[o]).out → a.get (F.FBO_CFG_SPACE o) ≤ a.now - (a.fbo[o]).lastStep
            ∧ (u.fbo[o]).lastStep = a.now)
        ∧ (∀ r, r ≠ o → u.fbo[r] = a.fbo[r])
        ∧ ((a.fbo[o]).cur = .div → a.outWant o = .div → a.bit (F.FBO_STAT_CATCH o) = false →
            a.get (F.FBO_CFG_SPACE o) ≤ a.now - (a.fbo[o]).lastStep →
            let target := a.outBase o .div + (a.fbo[o]).off
            (target = (a.fbo[o]).out → (u.fbo[o]).out = target)
            ∧ (target < (a.fbo[o]).out → (u.fbo[o]).out = (a.fbo[o]).out - 1)
            ∧ ((a.fbo[o]).out < target → (u.fbo[o]).out = (a.fbo[o]).out + 1)
            ∧ u.rd (A.FBO_OUTCNT o) = BitVec.ofInt 32 (u.fbo[o]).out)

/-- The interrupt request of a feedback port (R312, R294, R298): a bit of FBK_STAT that FBK_IEN enables, or FIRED of a compare
unit with EVT = 1 that it enables. -/
def Sys2Proof.Machine.Part.FeedbackRequest : Prop :=
  ∀ (s : State) (p : Fin 8),
    s.fbkIrq p = true ↔
      (∃ i : Fin 32, 2 ≤ i.val ∧ i.val ≤ 15 ∧ (s.rd (A.FBK_STAT p)).getLsbD i = true ∧ (s.rd (A.FBK_IEN p)).getLsbD i = true)
      ∨ ∃ k : Fin 4, s.bitAt (F.FBK_IEN_CMP p) k = true ∧ s.bit (F.FBK_CMPCFG_EVT p k) = true
          ∧ s.bit (F.FBK_CMPSTAT_FIRED p k) = true

/-- Position compares and encoder emulation. -/
def Obligations.ComparesAndEmulation : Prop :=
  Part.PositionCompares ∧ Part.EmulationSteps ∧ Part.FeedbackRequest

/-- COMPARATOR_CROSSING and COMPARATOR_SAMPLE: the input at mv and fr sixteenths of a millivolt moves the conditions: H is
asserted above THRHI, L below THRLO in a window and above it in a DESAT comparator, and each releases beyond the hysteresis
on the other side.  A FAST one latches every leg of its scope at the gate in this tick. -/
def Obligations.Comparators : Prop :=
  ∀ (s : State) (t : Tick) (k : Fin 96) (mv : BitVec 12) (fr : Fin 16) (fine : Fin 256), let a := s.advance t
    let x := 16 * mv.toNat + fr.val
    let hys := 25 * hysCodes (a.get (F.CMP_CFG_HYS k))
    let hi := 25 * a.get (F.CMP_THRHI_THR k)
    let lo := 25 * a.get (F.CMP_THRLO_THR k)
    let takes (u : State) (c : Cond) (lvl : Bool) : Prop := (u.srcFilt (.cmp k) c).raw = lvl
      ∧ ((a.srcFilt (.cmp k) c).raw ≠ lvl → (a.now + 3, Deferred.cmpKnown k c lvl a.now) ∈ u.due
        ∧ ((a.srcFilt (.cmp k) c).since ≠ a.now + 3 → (u.srcFilt (.cmp k) c).since = a.now + 3)
        ∧ (lvl = true → a.isFast k c = true → a.isBlankable k c = false → ∀ n ∈ a.scope (.cmp k),
            (u.leg n).latched = true ∧ ∃ y ∈ (u.leg n).fast, y.k = k ∧ y.cond = c ∧ y.stamp = a.now))
    a.clkOn = true → x ≤ 25600 →
      (a.cmpMode k = 1 →
        a.inTurn (.comparatorCrossing t k mv fr fine) = true → ∃ u : State, exec (.comparatorCrossing t k mv fr fine) s = .next (u.yokCheck.after a (.comparatorCrossing t k mv fr fine))
          ∧ (a.cmpHeld k .h = false → (hi < x → takes u .h true) ∧ (x + hys < hi → takes u .h false)
              ∧ (x ≤ hi → hi ≤ x + hys → takes u .h (a.srcFilt (.cmp k) .h).raw))
          ∧ (a.cmpHeld k .l = false → a.bit (F.CMP_CFG_FUNC k) = false → (x < lo → takes u .l true)
              ∧ (lo + hys < x → takes u .l false))
          ∧ (a.cmpHeld k .l = false → a.bit (F.CMP_CFG_FUNC k) = true → (lo < x → takes u .l true)
              ∧ (x + hys < lo → takes u .l false))
          ∧ (a.isFast k .h = false → a.isFast k .l = false → u.legs = a.legs ∧ u.regs = a.regs))
      ∧ (a.cmpSampleDue k = true →
        a.inTurn (.comparatorSample t k mv fr) = true → ∃ u : State, exec (.comparatorSample t k mv fr) s = .next (u.yokCheck.after a (.comparatorSample t k mv fr)) ∧ u.get (F.CMP_STAT_SVALID k) = 1
          ∧ (u.srcFilt (.cmp k) .h).raw = (a.cmpCondAt k .h x || a.cmpHeld k .h)
          ∧ (u.srcFilt (.cmp k) .l).raw = (a.cmpCondAt k .l x || a.cmpHeld k .l)
          ∧ (hi < x → (u.srcFilt (.cmp k) .h).raw = true) ∧ u.legs = a.legs)

/-- TRIP_SEEN and FILTERED_TRIP: a trip is recorded in the leg's registers, where the leg was not latched as its first source,
and its team halts when no soft turn-off runs and no further trip of the tick is to come. -/
def Sys2Proof.Machine.Part.Trips : Prop :=
  ∀ (s : State) (t : Tick) (n : Fin 72) (tm : Fin 24) (h : FastHit) (src : TripSrc) (c : Cond), let a := s.advance t
    a.clkOn = true → (a.same.of a.now).hold = false →
      ((a.leg n).fast = [h] → h.stamp + 2 ≤ a.now → (a.leg n).latched = true → a.bit (F.LEG_TRIPSTAT_LATCHED n) = false →
        a.inTurn (.tripSeen t n) = true → ∃ u : State, exec (.tripSeen t n) s = .next (u.yokCheck.after a (.tripSeen t n)) ∧ (u.leg n).fast = []
          ∧ u.get (F.LEG_TRIPSTAT_LATCHED n) = 1 ∧ u.get (F.LEG_TRIPSTAT_KIND n) = (a.tripInfo (.cmp h.k) h.cond).1
          ∧ u.get (F.LEG_TRIPSTAT_SRCIDX n) = h.k.val
          ∧ u.get (F.LEG_TRIPCNT_TRIPS n) = (a.get (F.LEG_TRIPCNT_TRIPS n) + 1) % 2 ^ (F.LEG_TRIPCNT_TRIPS 0).width
          ∧ u.rd (A.LEG_TRIPSTAMP0 n) = BitVec.ofNat 32 (a.stampOf (256 * h.stamp)) ∧ u.rd (A.LEG_CARRY n) = 0
          ∧ ((a.leg n).team = some tm → n ∈ (a.team tm).legs → (∀ k ∈ (a.team tm).legs, (a.leg k).seq = none) →
              a.tstate tm = stRUN → u.tstate tm = stHALTED ∧ u.get (F.TEAM_STAT_CAUSE tm) = caFAULT))
      ∧ (a.filtDue src c = true →
        a.inTurn (.filteredTrip t src c) = true → ∃ u : State, exec (.filteredTrip t src c) s = .next (u.yokCheck.after a (.filteredTrip t src c)) ∧ (u.srcFilt src c).filt = true
          ∧ ∀ k ∈ a.scope src, (u.leg k).latched = true
            ∧ ((a.leg k).latched = false → u.get (F.LEG_TRIPSTAT_LATCHED k) = 1)
            ∧ u.bitAt (F.LEG_TRIPSRC_KINDS k) ((a.tripInfo src c).1 - 1) = true)

/-- TRIP_IN_EDGE, BLANKING_END and SOFT_OFF_STEP2. -/
def Sys2Proof.Machine.Part.TripInputsAndSequences : Prop :=
  ∀ (s : State) (t : Tick) (i : Fin 8) (lvl : Bool) (n : Fin 72) (fine : Fin 256), let a := s.advance t
    a.clkOn = true →
      (a.inTurn (.tripInEdge t i lvl) = true → ∃ u : State, exec (.tripInEdge t i lvl) s = .next (u.yokCheck.after a (.tripInEdge t i lvl)) ∧ (u.tins[i]).ball = lvl
        ∧ (u.tins[i]).f.raw = (a.bitAt F.IDG_INBAND_TRIP_IN i || (lvl == a.bit (F.PRT_TINCFG_POL i)))
        ∧ (∀ j, j ≠ i → u.tins[j] = a.tins[j]) ∧ u = { a with tins := u.tins, due := u.due })
      ∧ ((a.leg n).blankEnd = a.nowF + fine → (a.leg n).blankEnd ≠ 0 →
        a.inTurn (.blankingEnd t n fine) = true → ∃ u : State, exec (.blankingEnd t n fine) s = .next (u.yokCheck.after a (.blankingEnd t n fine))
          ∧ (∀ k, a.isBlankable k .l = true → n ∈ a.scope (.cmp k) → (a.srcFilt (.cmp k) .l).raw = true →
              (u.leg n).latched = true ∧ ∃ x ∈ (u.leg n).fast, x.k = k ∧ x.stamp = a.now)
          ∧ ∀ k, k ≠ n → u.leg k = a.leg k)
      ∧ (∀ q, (a.leg n).seq = some q → q.endAt = a.nowF + fine →
        a.inTurn (.softOffStep2 t n fine) = true → ∃ u : State, exec (.softOffStep2 t n fine) s = .next (u.yokCheck.after a (.softOffStep2 t n fine)) ∧ (u.leg n).seq = none ∧ (u.leg n).gm = false
          ∧ (a.deadLine n (match q.sw with | .high => 0 | .low => 1) = false → u.ball n q.sw = false)
          ∧ u.get (F.LEG_TRIPSTAT_SEQ n) = 0)

/-- Trips, trip inputs and trip sequences. -/
def Obligations.TripPaths : Prop :=
  Part.Trips ∧ Part.TripInputsAndSequences

/-- TRIP_CLEAR and AUTO_REARM_RELEASE: a clear releases the latch where nothing stands against it, and is refused and
counted elsewhere; a pending one releases it later. -/
def Sys2Proof.Machine.Part.TripClears : Prop :=
  ∀ (s : State) (t : Tick) (m : Master) (n : Fin 72), let a := s.advance t
    let released (u : State) : Prop := (u.leg n).latched = false ∧ u.get (F.LEG_TRIPSTAT_LATCHED n) = 0
      ∧ u.get (F.LEG_TRIPSTAT_CLR_PEND n) = 0 ∧ ∀ k, k ≠ n → u.leg k = a.leg k
    (a.leg n).latched = true →
      (a.takes m (A.LEG_TRIPCLR n) = true →
        a.inTurn (.tripClear t m n) = true → ∃ u : State, exec (.tripClear t m n) s = .next (u.yokCheck.after a (.tripClear t m n))
          ∧ (a.clearable n = true → released u)
          ∧ (a.clearable n = false → u.legs = a.legs ∧ u.get (F.LEG_TRIPSTAT_CLR_REFUSED n) = 1
              ∧ u.get (F.LEG_TRIPCNT_REFUSED n) = (a.get (F.LEG_TRIPCNT_REFUSED n) + 1) % 2 ^ (F.LEG_TRIPCNT_REFUSED 0).width
              ∧ (a.bit (F.LEG_PROTCFG_AUTOREARM n) = true → u.get (F.LEG_TRIPSTAT_CLR_PEND n) = 1)
              ∧ RegsBut [A.LEG_TRIPSTAT n, A.LEG_TRIPCNT n, A.EVT_TAGHWM] a u))
      ∧ (a.clkOn = true → a.bit (F.LEG_TRIPSTAT_CLR_PEND n) = true → a.clearable n = true →
        a.inTurn (.autoRearmRelease t n) = true → ∃ u : State, exec (.autoRearmRelease t n) s = .next (u.yokCheck.after a (.autoRearmRelease t n)) ∧ released u)

/-- SAFE_N_LOW halts every team in WAIT or RUN, 16 ticks after the logic saw the edge at the ball; SAFE_N_HIGH ends the demand
after the same filter, outside the band. -/
def Sys2Proof.Machine.Part.SafeInput : Prop :=
  ∀ (s : State) (t edge : Tick), let a := s.advance t
    a.clkOn = true → a.safe.edge ≤ edge →
      (a.safe.filtLow = false → edge + 19 = a.now →
        a.inTurn (.safeNLow ⟨t, edge⟩) = true → ∃ u : State, exec (.safeNLow ⟨t, edge⟩) s = .next (u.yokCheck.after a (.safeNLow ⟨t, edge⟩)) ∧ u.safe.filtLow = true ∧ u.get F.PRT_STAT_SAFE = 1
          ∧ u.get F.PRT_SAFECNT_COUNT = min (2 ^ F.PRT_SAFECNT_COUNT.width - 1) (a.get F.PRT_SAFECNT_COUNT + 1)
          ∧ (∀ tm, a.tstate tm = stWAIT ∨ a.tstate tm = stRUN →
              u.tstate tm = stHALTED ∧ u.get (F.TEAM_STAT_CAUSE tm) = caSAFEN)
          ∧ (∀ tm, a.tstate tm ≠ stWAIT → a.tstate tm ≠ stRUN → u.tstate tm = a.tstate tm))
      ∧ (edge + 19 ≠ a.now → a.inTurn (.safeNLow ⟨t, edge⟩) = true →
          exec (.safeNLow ⟨t, edge⟩) s = .next (a.yokCheck.after a (.safeNLow ⟨t, edge⟩)))
      ∧ (a.bit F.IDG_INBAND_SAFE_N = false → a.safe.filtLow = true → max (edge + 3) a.safe.outAt + 16 = a.now →
        a.inTurn (.safeNHigh ⟨t, edge⟩) = true → ∃ u : State, exec (.safeNHigh ⟨t, edge⟩) s = .next (u.yokCheck.after a (.safeNHigh ⟨t, edge⟩)) ∧ u.safe.filtLow = false ∧ u.get F.PRT_STAT_SAFE = 0
          ∧ RegsBut [A.PRT_STAT] a u ∧ u = { a with regs := u.regs, same := u.same, safe := u.safe })

/-- Trip clears and SAFE_N. -/
def Obligations.TripEnds : Prop :=
  Part.TripClears ∧ Part.SafeInput

/-- Every command ends with VIEW and the liveness monitor (R344, R346): they change nothing on a device that is not yoked or
not locked; elsewhere VIEW shows the view, a SHADOW without it leaves SHADOW, and a device-level fault drops ACT_OUT. -/
def Obligations.YokeFollows : Prop :=
  ∀ u : State, let w := u.yokCheck
    (u.alone = true → w = u)
    ∧ w = { u with regs := w.regs, tim := w.tim, yok := w.yok, net := w.net, fbo := w.fbo, jrn := w.jrn }
    ∧ (u.alone = false → w.bit F.YOK_STAT_VIEW = u.yokView ∧ (u.yok.fault = true → w.get F.YOK_STAT_ACTOUT = 0)
        ∧ (u.role = roSHADOW → u.yokView = false → w.role ≠ roSHADOW))
    ∧ ∀ x, x / 0x10000 ∉ [9, 14, 15, 18] → x ≠ A.IDG_WARMSTAT → x ≠ A.TIM_STAT → (∀ tm, x ≠ A.TEAM_ALNSTAT tm) →
        w.rd x = u.rd x

/-- IDENT_SEND, HEARTBEAT_SEND, LANE_IN_SYNC, LANE_SYNC_LOSS and HEARTBEAT_TIMEOUT: frames carry what the device is; a lane
in sync brings the link up, and the loss of the last lane or of the heartbeats takes it down and a SHADOW or SYNC device
to STANDBY. -/
def Sys2Proof.Machine.Part.YokeLink : Prop :=
  ∀ (s : State) (t : Tick) (j : Fin 2), let a := s.advance t
    let lost (u : State) : Prop := u.get F.YOK_STAT_LINK = 0
      ∧ ((a.role = roSHADOW ∨ a.role = roSYNC) → (∀ e ∈ a.due, e.2 ≠ Deferred.claim) → u.role = roSTANDBY)
    a.clkOn = true →
      (a.load.yoked = true → a.load.locked = true → a.bit F.YOK_STAT_LINK = true → a.tim.linksIdle = false →
        ((a.yok.idTx = none ∨ a.role = roINIT) →
          a.inTurn (.identSend t) = true → ∃ u : State, exec (.identSend t) s = .next (u.yokCheck.after a (.identSend t))
            ∧ u.yok.last = some (.ident a.yok.seq a.load.stateId a.load.pdkId a.load.cfgId (a.get F.NET_ADDR_ADDR))
            ∧ u.yok.seq = (a.yok.seq + 1) % 4096 ∧ u.yok.idTx = some a.now ∧ RegsBut [A.YOK_LOAD] a u
            ∧ u = { a with regs := u.regs, same := u.same, yok := u.yok })
        ∧ (a.yok.hbTx = none →
          a.inTurn (.heartbeatSend t) = true → ∃ (u : State) (h : HbSt), exec (.heartbeatSend t) s = .next (u.yokCheck.after a (.heartbeatSend t))
            ∧ u.yok.last = some (.heartbeat a.yok.seq a.tim.dev h) ∧ h.role = a.role
            ∧ h.ready = a.bit F.YOK_STAT_READY ∧ h.view = a.bit F.YOK_STAT_VIEW ∧ u.yok.hbTx = some a.now
            ∧ RegsBut [A.YOK_LOAD] a u ∧ u = { a with regs := u.regs, same := u.same, yok := u.yok }))
      ∧ (a.load.yoked = true → a.tim.linksIdle = false →
        a.inTurn (.laneInSync t j) = true → ∃ u : State, exec (.laneInSync t j) s = .next (u.yokCheck.after a (.laneInSync t j)) ∧ u.get (laneFld j) = 1 ∧ u.get F.YOK_STAT_LINK = 1
          ∧ RegsBut [A.YOK_STAT] a u)
      ∧ (a.bit (laneFld j) = true →
        a.inTurn (.laneSyncLoss t j) = true → ∃ u : State, exec (.laneSyncLoss t j) s = .next (u.yokCheck.after a (.laneSyncLoss t j)) ∧ u.get (laneFld j) = 0
          ∧ (a.bit (laneFld (1 - j)) = true → u.role = a.role ∧ u.get F.YOK_STAT_LINK = a.get F.YOK_STAT_LINK
              ∧ NewestFault u 0x0D03 (a.load.partner % 4096))
          ∧ (a.bit (laneFld (1 - j)) = false → u.get F.YOK_STAT_LINKLOSS = 1 ∧ lost u))
      ∧ (a.bit F.YOK_STAT_LINK = true → a.yok.hbAt + a.get F.YOK_CFG_HBTMO * a.get F.YOK_CFG_HBPER * 64 ≤ a.now →
        a.inTurn (.heartbeatTimeout t) = true → ∃ u : State, exec (.heartbeatTimeout t) s = .next (u.yokCheck.after a (.heartbeatTimeout t)) ∧ u.get F.YOK_STAT_HBLOSS = 1 ∧ lost u)

/-- IDENT_RECEIVE and HEARTBEAT_RECEIVE: a good frame is kept and shown; a bad one is counted only. -/
def Sys2Proof.Machine.Part.YokeFrames : Prop :=
  ∀ (s : State) (t : Tick) (sid pid : List Byte) (addr : BitVec 12) (ofs : Int) (h : HbSt), let a := s.advance t
    let same := sid == a.load.stateId && pid == a.load.pdkId
    let counted (u : State) : Prop := RegsBut [A.YOK_ERR] a u ∧ u = { a with regs := u.regs, same := u.same }
      ∧ u.get F.YOK_ERR_CRCERR = min (2 ^ F.YOK_ERR_CRCERR.width - 1) (a.get F.YOK_ERR_CRCERR + 1)
    a.clkOn = true → a.load.yoked = true → a.tim.linksIdle = false → a.bit F.YOK_STAT_LANE0 = true →
      (a.inTurn (.identReceive t true sid pid addr) = true → ∃ u : State, exec (.identReceive t true sid pid addr) s = .next (u.yokCheck.after a (.identReceive t true sid pid addr)) ∧ u.bit F.YOK_STAT_IDMATCH = same
        ∧ u.yok.ident = some (sid, pid, addr.toNat) ∧ u.rd (A.YOK_PSTATE 0) = BitVec.ofNat 32 (le sid 0 4)
        ∧ (same = false → (a.role = roSYNC ∨ a.role = roSHADOW) → u.role = roSTANDBY
            ∧ NewestFault u 0x0D08 (a.load.partner % 4096)))
      ∧ (a.inTurn (.identReceive t false sid pid addr) = true → ∃ u : State, exec (.identReceive t false sid pid addr) s = .next (u.yokCheck.after a (.identReceive t false sid pid addr)) ∧ counted u)
      ∧ (a.inTurn (.heartbeatReceive t true ofs h) = true → ∃ u : State, exec (.heartbeatReceive t true ofs h) s = .next (u.yokCheck.after a (.heartbeatReceive t true ofs h)) ∧ u.yok.hb = some h ∧ u.yok.hbAt = a.now
        ∧ u.bit F.YOK_STAT_PREADY = h.ready ∧ u.bit F.YOK_STAT_PVIEW = h.view ∧ u.get F.YOK_STAT_LINK = 1
        ∧ (-(2 ^ 31) ≤ ofs → ofs < 2 ^ 31 → (u.rd A.YOK_OFS).toInt = ofs))
      ∧ (a.inTurn (.heartbeatReceive t false ofs h) = true → ∃ u : State, exec (.heartbeatReceive t false ofs h) s = .next (u.yokCheck.after a (.heartbeatReceive t false ofs h)) ∧ counted u)

/-- COMMIT_FRAME_RECEIVE: a SHADOW or SYNC device adopts a complete frame of its own run whole, and counts a broken one as a
failed commit of the task. -/
def Sys2Proof.Machine.Part.YokeCommits : Prop :=
  ∀ (s : State) (t : Tick) (k : Fin 36) (rel consec : Nat) (words range : List Word) (obs : Option Nat) (r : RunSt),
    let a := s.advance t
    a.clkOn = true → a.load.yoked = true → a.tim.linksIdle = false → a.bit F.YOK_STAT_LANE0 = true → (a.role = roSHADOW ∨ a.role = roSYNC) →
    a.yokedTask k = true →
      (a.yokRunOf k rel = some r → range.length ≤ 8192 →
        a.inTurn (.commitFrameReceive t true k rel consec words range obs) = true → ∃ u : State, exec (.commitFrameReceive t true k rel consec words range obs) s = .next (u.yokCheck.after a (.commitFrameReceive t true k rel consec words range obs))
          ∧ (∀ i, (hi : i < range.length) → u.memGet (K.state ((a.get (F.YOK_SMAP_BASE k) + i) % 8192)) = range[i])
          ∧ u.get (F.CE_TSTAT_CONSEC k) = consec % 2 ^ (F.CE_TSTAT_CONSEC k).width
          ∧ u.get F.YOK_CNT_ADOPTED = (a.get F.YOK_CNT_ADOPTED + 1) % 2 ^ F.YOK_CNT_ADOPTED.width
          ∧ k ∈ u.yok.adopted ∧ k ∉ u.yok.failed ∧ u.yok.pend[k] = none)
      ∧ (a.inTurn (.commitFrameReceive t false k rel consec words range obs) = true → ∃ u : State, exec (.commitFrameReceive t false k rel consec words range obs) s = .next (u.yokCheck.after a (.commitFrameReceive t false k rel consec words range obs))
          ∧ k ∈ u.yok.failed ∧ u.yok.pend[k] = none ∧ u.mem = a.mem ∧ u.shadow = a.shadow
          ∧ u.get F.YOK_ERR_CRCERR = min (2 ^ F.YOK_ERR_CRCERR.width - 1) (a.get F.YOK_ERR_CRCERR + 1))

/-- Frames of the partner. -/
def Obligations.YokePartner : Prop :=
  Part.YokeFrames ∧ Part.YokeCommits

/-- ACT_IN_FALL, ACT_IN_RISE, ACT_CONFLICT and JOIN_TIMEOUT: a SHADOW device claims in the tick after the fall, a device
alone in INIT claims after JOINTMO, and two ACTIVE devices end with the one of the higher address. -/
def Sys2Proof.Machine.Part.YokeSelector : Prop :=
  ∀ (s : State) (t : Tick), let a := s.advance t
    a.clkOn = true →
      (a.load.yoked = true → a.load.locked = true → a.yok.actIn = true → a.bit F.IDG_INBAND_ACT_IN = false →
        a.inTurn (.actInFall t) = true → ∃ u : State, exec (.actInFall t) s = .next (u.yokCheck.after a (.actInFall t)) ∧ u.yok.actIn = false
          ∧ (a.role = roSHADOW → (∀ e ∈ a.due, e.2 ≠ Deferred.claim) → (a.now + 1, Deferred.claim) ∈ u.due ∧ u.yok.td = a.now
              ∧ NewestFault u 0x0D04 (a.load.partner % 4096))
          ∧ (a.role = roACTIVE → u.role = roACTIVE ∧ u.due = a.due))
      ∧ (a.inTurn (.actInRise t) = true → ∃ u : State, exec (.actInRise t) s = .next (u.yokCheck.after a (.actInRise t)) ∧ u.yok.actIn = true ∧ u.get F.YOK_STAT_ACTIN = 1
          ∧ (a.bit F.YOK_STAT_ACTOUT = true → u.yok.both = some a.now))
      ∧ (∀ b, a.yok.both = some b → a.yok.actIn = true → a.bit F.YOK_STAT_ACTOUT = true → b + 4 ≤ a.now →
        a.inTurn (.actConflict t) = true → ∃ u : State, exec (.actConflict t) s = .next (u.yokCheck.after a (.actConflict t)) ∧ u.get F.YOK_STAT_CONFLICT = 1
          ∧ (a.load.partner < a.get F.NET_ADDR_ADDR → u.get F.YOK_STAT_ACTOUT = 0 ∧ u.role = roSTANDBY
              ∧ u.get F.YOK_RELCAUSE_CAUSE = 5)
          ∧ (a.get F.NET_ADDR_ADDR ≤ a.load.partner → u.get F.YOK_STAT_ACTOUT = 1 ∧ u.role = a.role))
      ∧ (a.role = roINIT → a.yok.hb = none → a.actLow = true → a.monitorOk = true →
          a.yok.lockAt + a.get F.YOK_CFG_JOINTMO * 312500 ≤ a.now →
        a.inTurn (.joinTimeout t) = true → ∃ u : State, exec (.joinTimeout t) s = .next (u.yokCheck.after a (.joinTimeout t)) ∧ u.role = roACTIVE ∧ u.get F.YOK_STAT_ACTOUT = 1
          ∧ u.get F.YOK_STAT_TAKEOVER = 1 ∧ u.rd A.YOK_TAKE0 = BitVec.ofNat 32 a.tim.dev)

/-- The yoke link and the selector. -/
def Obligations.YokeLinkAndSelector : Prop :=
  Part.YokeLink ∧ Part.YokeSelector

/-- WATCHDOG_KICK, WATCHDOG_EXPIRY, VIEW_RULE_EXPIRY and ACT_RELEASE: what keeps ACT_OUT high, and what drops it. -/
def Obligations.YokeReleases : Prop :=
  ∀ (s : State) (t : Tick) (m : Master), let a := s.advance t
    let released (u : State) (cause role : Nat) : Prop := u.get F.YOK_STAT_ACTOUT = 0
      ∧ u.get F.YOK_RELCAUSE_CAUSE = cause ∧ u.role = role
    (a.takes m A.YOK_WDKICK = true →
      a.inTurn (.watchdogKick t m) = true → ∃ u : State, exec (.watchdogKick t m) s = .next (u.yokCheck.after a (.watchdogKick t m)) ∧ u.yok = { a.yok with wdAt := a.now }
        ∧ RegsBut [A.EVT_TAGHWM] a u ∧ u = { a with regs := u.regs, same := u.same, yok := u.yok, tagsUse := a.tagsUse + 1 })
    ∧ (a.takes m A.YOK_CTL = true →
      (∀ h, a.yok.hb = some h → h.ready = true → a.bit F.YOK_STAT_LINK = true → a.role = roACTIVE →
          a.bit F.YOK_STAT_ACTOUT = true →
        a.inTurn (.actRelease t m) = true → ∃ u : State, exec (.actRelease t m) s = .next (u.yokCheck.after a (.actRelease t m)) ∧ released u 1 roSHADOW ∧ u.yok.relAt = a.now)
      ∧ (a.role ≠ roACTIVE →
        a.inTurn (.actRelease t m) = true → ∃ u : State, exec (.actRelease t m) s = .next (u.yokCheck.after a (.actRelease t m)) ∧ u.get F.YOK_STAT_REL_REF = 1 ∧ u.role = a.role
          ∧ RegsBut [A.YOK_STAT, A.EVT_TAGHWM] a u))
    ∧ (a.clkOn = true → a.bit F.YOK_STAT_ACTOUT = true →
      (a.wdExpired = true → a.inTurn (.watchdogExpiry t) = true → ∃ u : State, exec (.watchdogExpiry t) s = .next (u.yokCheck.after a (.watchdogExpiry t)) ∧ released u 3 roSTANDBY)
      ∧ (∀ v h, a.yok.view0 = some v → a.yok.hb = some h → a.role = roACTIVE → v + 64 ≤ a.now → h.ready = true →
          h.view = true → a.now < a.yok.hbAt + a.hbLimit →
        a.inTurn (.viewRuleExpiry t) = true → ∃ u : State, exec (.viewRuleExpiry t) s = .next (u.yokCheck.after a (.viewRuleExpiry t)) ∧ released u 4 roSTANDBY))

/-- CHECKPOINT and LOCKSTEP_MISMATCH: a checkpoint issues the queue's stores; a first mismatch reloads it, and a second one
before the next holds the pair in reset. -/
def Obligations.SupervisorPairs : Prop :=
  ∀ (s : State) (t : Tick) (q : Fin 2) (p : Fin 8) (k : Fin 4) (v : Word), let a := s.advance t
    a.clkOn = true → a.fwOk q = true →
      (a.inTurn (.checkpoint t q []) = true → ∃ u : State, exec (.checkpoint t q []) s = .next (u.yokCheck.after a (.checkpoint t q [])) ∧ (u.sup[q]).reloaded = false
        ∧ u = { a with regs := u.regs, same := u.same, sup := u.sup } ∧ ∀ x, u.rd x = a.rd x)
      ∧ (a.takes (pairMaster q) (A.FBK_CMPINC p k) = true →
        a.inTurn (.checkpoint t q [.reg (BitVec.ofNat 24 (A.FBK_CMPINC p k)) v]) = true → ∃ u : State, exec (.checkpoint t q [.reg (BitVec.ofNat 24 (A.FBK_CMPINC p k)) v]) s = .next (u.yokCheck.after a (.checkpoint t q [.reg (BitVec.ofNat 24 (A.FBK_CMPINC p k)) v]))
          ∧ (u.sup[q]).reloaded = false ∧ u.rd (A.FBK_CMPINC p k) = v
          ∧ u.get (F.SUP_CKSTAT_EGRHWM q) = max 1 (a.get (F.SUP_CKSTAT_EGRHWM q))
          ∧ RegsBut [A.FBK_CMPINC p k, A.SUP_CKSTAT q, A.EVT_TAGHWM] a u)
      ∧ ((a.sup[q]).reloaded = false →
        a.inTurn (.lockstepMismatch t q) = true → ∃ u : State, exec (.lockstepMismatch t q) s = .next (u.yokCheck.after a (.lockstepMismatch t q)) ∧ (u.sup[q]).reloaded = true
          ∧ NewestFault u 0x0701 q ∧ u.rd (A.SUP_CKLAST q) = BitVec.ofNat 32 a.tim.dev
          ∧ u.get (F.SUP_CKSTAT_RELOADS q)
              = min (2 ^ (F.SUP_CKSTAT_RELOADS q).width - 1) (a.get (F.SUP_CKSTAT_RELOADS q) + 1)
          ∧ u.fwOk q = true)
      ∧ ((a.sup[q]).reloaded = true →
        a.inTurn (.lockstepMismatch t q) = true → ∃ u : State, exec (.lockstepMismatch t q) s = .next (u.yokFault.yokCheck.after a (.lockstepMismatch t q)) ∧ u.get (F.SUP_CKSTAT_UNRECOV q) = 1
          ∧ NewestFault u 0x0702 q ∧ u.fwOk q = false)

/-- REGISTER_WRITE: a word that a master writes to a register without an action of its own is stored, and a register of the
Paddock's lock list keeps its word, with the try recorded. -/
def Sys2Proof.Machine.Part.RegisterWrites : Prop :=
  ∀ (s : State) (t : Tick) (m : Master) (p : Fin 8) (k : Fin 4) (v : Word), let a := s.advance t
    let x := A.FBK_CMPINC p k
    (a.takes m x = true →
      a.inTurn (.registerWrite t m (BitVec.ofNat 24 x) v .word) = true → ∃ u : State, exec (.registerWrite t m (BitVec.ofNat 24 x) v .word) s = .next (u.yokCheck.after a (.registerWrite t m (BitVec.ofNat 24 x) v .word)) ∧ u.rd x = v
        ∧ RegsBut [x, A.EVT_TAGHWM] a u ∧ u = { a with regs := u.regs, same := u.same, tagsUse := a.tagsUse + 1 })
    ∧ (a.mayReach m true x = true → a.tagFree = true → a.stalled = [] → a.load.locked = true → a.lockListed x = true →
      a.inTurn (.registerWrite t m (BitVec.ofNat 24 x) v .word) = true → ∃ u : State, exec (.registerWrite t m (BitVec.ofNat 24 x) v .word) s = .next (u.yokCheck.after a (.registerWrite t m (BitVec.ofNat 24 x) v .word)) ∧ u.rd x = a.rd x
        ∧ u.rd A.PDK_LASTCLIP0 = BitVec.ofNat 32 (9 * 2 ^ 24 + x) ∧ u.rd A.PDK_LASTCLIP1 = v
        ∧ u.get (F.PDK_CLIPCNT_COUNT 8) = (a.get (F.PDK_CLIPCNT_COUNT 8) + 1) % 2 ^ 32)

/-- Access width (R464): a narrow or misaligned store of a core is discarded and counted; a narrow load performs the whole
word read and returns the selected bytes; a misaligned load returns 0 and is counted.  Every one completes. -/
def Obligations.AccessWidths : Prop :=
  ∀ (s : State) (t : Tick) (m : Master) (x : BitVec 24) (v : Word) (w : Width), let a := s.advance t
    let n := x.toNat
    let counted (u : State) : Prop :=
      u.get F.IDG_ACCERR_WIDTH = min (2 ^ F.IDG_ACCERR_WIDTH.width - 1) (a.get F.IDG_ACCERR_WIDTH + 1)
        ∧ RegsBut [A.IDG_ACCERR, A.IDG_ACCADDR] a u
    m ≠ .svc →
      (a.mayReach m true n = true → (w ≠ .word ∨ n % 4 ≠ 0) →
        a.inTurn (.registerWrite t m x v w) = true → ∃ u : State, exec (.registerWrite t m x v w) s = .next (u.yokCheck.after a (.registerWrite t m x v w)) ∧ counted u ∧ u = { a with regs := u.regs, same := u.same })
      ∧ (a.mayReach m false n = true →
        (w.aligned n = true →
          a.inTurn (.snapshotCaptureRead t m x w) = true → ∃ u y : State, exec (.snapshotCaptureRead t m x w) s = .next (u.yokCheck.after a (.snapshotCaptureRead t m x w))
            ∧ exec (.snapshotCaptureRead t m (BitVec.ofNat 24 (n / 4 * 4)) .word) s = .next (y.yokCheck.after a (.snapshotCaptureRead t m (BitVec.ofNat 24 (n / 4 * 4)) .word))
            ∧ u.lastRead[m.reader] = (match w with
                | .byte => BitVec.ofNat 32 ((y.lastRead[m.reader]).toNat / 2 ^ (8 * (n % 4)) % 2 ^ 8)
                | .half => BitVec.ofNat 32 ((y.lastRead[m.reader]).toNat / 2 ^ (8 * (n % 4)) % 2 ^ 16)
                | .word => y.lastRead[m.reader])
            ∧ u = { y with lastRead := u.lastRead })
        ∧ (w.aligned n = false →
          a.inTurn (.snapshotCaptureRead t m x w) = true → ∃ u : State, exec (.snapshotCaptureRead t m x w) s = .next (u.yokCheck.after a (.snapshotCaptureRead t m x w)) ∧ u.lastRead[m.reader] = 0 ∧ counted u))

/-- SNAPSHOT_CAPTURE_READ: a read of TIM_NOW0 returns it and copies the higher words of device time into the reader's own
snapshot, from which later reads of them come. -/
def Obligations.Snapshots : Prop :=
  ∀ (s : State) (t : Tick) (m : Master), let a := s.advance t
    (a.mayReach m false A.TIM_NOW0 = true →
      a.inTurn (.snapshotCaptureRead t m (BitVec.ofNat 24 A.TIM_NOW0) .word) = true → ∃ u : State, exec (.snapshotCaptureRead t m (BitVec.ofNat 24 A.TIM_NOW0) .word) s = .next (u.yokCheck.after a (.snapshotCaptureRead t m (BitVec.ofNat 24 A.TIM_NOW0) .word))
        ∧ u.lastRead[m.reader] = BitVec.ofNat 32 a.tim.dev
        ∧ cellsGet zeroWord u.snaps[m.reader] A.TIM_NOW1 = BitVec.ofNat 32 (a.tim.dev / 2 ^ 32)
        ∧ cellsGet zeroWord u.snaps[m.reader] A.TIM_NOW2 = BitVec.ofNat 32 (a.tim.dev / 2 ^ 64)
        ∧ ∀ r, r ≠ m.reader → u.snaps[r] = a.snaps[r])
    ∧ (a.mayReach m false A.TIM_NOW1 = true →
      a.inTurn (.snapshotCaptureRead t m (BitVec.ofNat 24 A.TIM_NOW1) .word) = true → ∃ u : State, exec (.snapshotCaptureRead t m (BitVec.ofNat 24 A.TIM_NOW1) .word) s = .next (u.yokCheck.after a (.snapshotCaptureRead t m (BitVec.ofNat 24 A.TIM_NOW1) .word))
        ∧ u.lastRead[m.reader] = cellsGet zeroWord a.snaps[m.reader] A.TIM_NOW1 ∧ u.snaps = a.snaps)

/-- GENERAL_TAG_FREE: a tag frees, and what has waited longest for one takes it. -/
def Sys2Proof.Machine.Part.TagsFree : Prop :=
  ∀ (s : State) (t : Tick) (w : Writer) (p : Fin 8) (k : Fin 4) (v : Word) (rest : List Stall), let a := s.advance t
    a.clkOn = true → a.tagsUse ≤ 128 →
      (a.stalled = [] →
        a.inTurn (.generalTagFree t) = true → ∃ u : State, exec (.generalTagFree t) s = .next (u.yokCheck.after a (.generalTagFree t)) ∧ u.tagsUse = a.tagsUse - 1
          ∧ RegsBut [A.EVT_TAGHWM] a u ∧ u = { a with regs := u.regs, same := u.same, tagsUse := u.tagsUse })
      ∧ (a.stalled = .write w (A.FBK_CMPINC p k) v :: rest → 0 < a.tagsUse →
          (a.load.locked && a.lockListed (A.FBK_CMPINC p k)) = false →
        a.inTurn (.generalTagFree t) = true → ∃ u : State, exec (.generalTagFree t) s = .next (u.yokCheck.after a (.generalTagFree t)) ∧ u.tagsUse = a.tagsUse ∧ u.stalled = rest
          ∧ u.rd (A.FBK_CMPINC p k) = v ∧ RegsBut [A.FBK_CMPINC p k, A.EVT_TAGHWM] a u)

/-- Register writes and general tags. -/
def Obligations.WritesAndTags : Prop :=
  Part.RegisterWrites ∧ Part.TagsFree

/-- A write to TIM_RATE outside ±65,970,697 stores the limit and sets RATE_CLAMP; a slew that headroom limits moves less in
each tick and loses nothing (R59). -/
def Obligations.RateLimits : Prop :=
  ∀ (s : State) (t : Tick) (m : Master) (v : Word) (n : Nat), let a := s.advance t
    (a.takes m A.TIM_RATE = true → a.timOwner m.writer = true → (v.toInt < -65970697 ∨ 65970697 < v.toInt) →
      a.inTurn (.timRateWrite t m v) = true → ∃ u : State, exec (.timRateWrite t m v) s = .next (u.yokCheck.after a (.timRateWrite t m v))
        ∧ (u.rd A.TIM_RATE).toInt = (if v.toInt < 0 then -65970697 else 65970697) ∧ u.get F.TIM_STAT_RATE_CLAMP = 1)
    ∧ (0 ≤ a.tim.slew → a.slewAfter n = a.tim.slew - min a.tim.slew (n * a.slewStep true))
    ∧ (a.tim.slew ≤ 0 → a.slewAfter n = a.tim.slew + min (-a.tim.slew) (n * a.slewStep false))

/-- Time ownership (R62): a write to TIM_RATE, TIM_SLEW or TIM_STEP0 to TIM_STEP2 by a writer other than the owner is
discarded and sets WR_IGN.  Firmware owns device time while SRC selects it; the service port never does. -/
def Obligations.TimeOwnership : Prop :=
  ∀ (s : State) (t : Tick) (m : Master) (v : Word) (x : Nat), let a := s.advance t
    x ∈ [A.TIM_RATE, A.TIM_SLEW, A.TIM_STEP0, A.TIM_STEP1, A.TIM_STEP2] → a.takes m x = true →
    (a.get F.TIM_CTL_SRC ≠ 3 ∨ m = .svc) →
      a.inTurn (.registerWrite t m (BitVec.ofNat 24 x) v .word) = true → ∃ u : State, exec (.registerWrite t m (BitVec.ofNat 24 x) v .word) s = .next (u.yokCheck.after a (.registerWrite t m (BitVec.ofNat 24 x) v .word))
        ∧ u.get F.TIM_STAT_WR_IGN = 1 ∧ u.tim = a.tim ∧ RegsBut [A.TIM_STAT, A.EVT_TAGHWM] a u

/-- OSR writes (R224): in RUN the write is discarded and sets WR_REF; otherwise OSR takes it at once and the main history
restarts; the over-current filter's history and OCVALID go on. -/
def Obligations.OsrWrites : Prop :=
  ∀ (s : State) (t : Tick) (m : Master) (c : Fin 144) (v : Word), let a := s.advance t
    let run := ∃ r, a.sdmTeam c = some r ∧ a.tstate r = stRUN
    a.takes m (A.SDM_OSR c) = true →
      a.inTurn (.osrWrite t m c v) = true → ∃ u : State, exec (.osrWrite t m c v) s = .next (u.yokCheck.after a (.osrWrite t m c v))
        ∧ (run → u.get (F.SDM_OSR_OSR c) = a.get (F.SDM_OSR_OSR c) ∧ u.get (F.SDM_STAT_WR_REF c) = 1 ∧ u.sdms = a.sdms)
        ∧ (¬ run → u.get (F.SDM_OSR_OSR c) = clampN 32 256 (bitsGet v (F.SDM_OSR_OSR c).lo (F.SDM_OSR_OSR c).width)
            ∧ u.get (F.SDM_STAT_WARM c) = 3 ∧ (u.sdm c).histMain = none
            ∧ ((a.sdm c).await = .none → (u.sdm c).restartMain = true))
        ∧ (u.sdm c).histOc = (a.sdm c).histOc ∧ (u.sdm c).bits = (a.sdm c).bits
        ∧ u.get (F.SDM_STAT_OCVALID c) = a.get (F.SDM_STAT_OCVALID c)

/-- Enabling under SAFE_N (R187): while SAFE_N is low or in its band, EN of a team in OFF stays 0 and EN_REF is set; nothing
of the write is kept, so the return of SAFE_N starts no team; a write once SAFE_N has returned is accepted. -/
def Obligations.EnableUnderSafeN : Prop :=
  ∀ (s : State) (t : Tick) (m : Master) (tm : Fin 24), let a := s.advance t
    (a.takes m (A.TEAM_CTL tm) = true → a.tstate tm = stOFF → a.get (F.TEAM_CTL_EN tm) = 0 →
      ((a.safe.filtLow = true ∨ a.bit F.IDG_INBAND_SAFE_N = true) →
        a.inTurn (.teamEnable t m tm) = true → ∃ u : State, exec (.teamEnable t m tm) s = .next (u.yokCheck.after a (.teamEnable t m tm)) ∧ u.get (F.TEAM_CTL_EN tm) = 0 ∧ u.tstate tm = stOFF
          ∧ u.get (F.TEAM_STAT_EN_REF tm) = 1 ∧ RegsBut [A.TEAM_STAT tm, A.EVT_TAGHWM] a u
          ∧ u = { a with regs := u.regs, same := u.same, tagsUse := a.tagsUse + 1 })
      ∧ (a.safe.filtLow = false → a.bit F.IDG_INBAND_SAFE_N = false → (a.team tm).barred = false →
        a.inTurn (.teamEnable t m tm) = true → ∃ u : State, exec (.teamEnable t m tm) s = .next (u.yokCheck.after a (.teamEnable t m tm)) ∧ u.get (F.TEAM_CTL_EN tm) = 1
          ∧ u.tstate tm = stWAIT))
    ∧ (∀ edge : Tick, a.clkOn = true →
        a.inTurn (.safeNHigh ⟨t, edge⟩) = true → ∃ u : State, exec (.safeNHigh ⟨t, edge⟩) s = .next (u.yokCheck.after a (.safeNHigh ⟨t, edge⟩)) ∧ u.teams = a.teams
          ∧ ∀ r, u.tstate r = a.tstate r ∧ u.get (F.TEAM_CTL_EN r) = a.get (F.TEAM_CTL_EN r))

/-- One command of each rank of R23, in the order of the ranks, reads after them (R465). -/
def Sys2Proof.Machine.onePerRank (t e : Tick) (k : Fin 96) (v : BitVec 12) (r : Fin 16) (n : Fin 72) (f : Fin 256) (c : Carr)
    (tm : Fin 24) (l : Fin 36) (q : Fin 4) : List Instr :=
  [.comparatorCrossing t k v r f, .interlockCancel t n f, .blankingEnd t n f, .safeNLow ⟨t, e⟩, .autoRearmRelease t n,
    .compareEdge t n f, .updatePoint t c, .converterTrigger t n (some f) none, .sampleRelease t tm, .commitArrival t l,
    .svcNop t, .pmsRxRead t .supA q]

/-- The order of the commands of one tick (R23, R24): the ranks follow each other, and the legs of one rank; a command is
put in before those that it precedes, which keeps their order; and one that comes late makes its tick act again in that
order (log entry 1). -/
def Sys2Proof.Machine.Part.RankOrder : Prop :=
  let kept : List Instr → Prop := List.Pairwise (fun d e => comesBefore e d = false)
  (∀ t e k v r n f c tm l q, (onePerRank t e k v r n f c tm l q).Pairwise (fun d e => comesBefore d e = true))
    ∧ (∀ (t : Tick) (n n' : Fin 72) (x y : Fin 256), comesBefore (.compareEdge t n x) (.compareEdge t n' y) = decide (n < n'))
    ∧ (∀ c l, kept l → kept (insertTurn c l) ∧ (insertTurn c l).Perm (c :: l))
    ∧ (∀ (c : Instr) (s : State) (t : Tick), tickOf c = some t → let a := s.advance t
        a.inTurn c = false → (a.replay (a.actedNow.takeWhile (fun d => !comesBefore c d))).finds c = true →
          exec c s = .next (a.replay (insertTurn c a.actedNow)))

/-- Writes of 1 to a W1C bit (R470, for TEAM_STAT.EN_REF): a bit that the device has set in the tick of the write stays set,
and one that it has not set in that tick becomes 0; a refused enable is such a set. -/
def Sys2Proof.Machine.Part.SameTickBits : Prop :=
  ∀ (s : State) (t : Tick) (m : Master) (tm : Fin 24) (v : Word), let a := s.advance t
    let x := A.TEAM_STAT tm
    (a.takes m x = true →
      a.inTurn (.registerWrite t m (BitVec.ofNat 24 x) v .word) = true → ∃ u : State, exec (.registerWrite t m (BitVec.ofNat 24 x) v .word) s = .next (u.yokCheck.after a (.registerWrite t m (BitVec.ofNat 24 x) v .word))
        ∧ u.get (F.TEAM_STAT_EN_REF tm)
            = (if v.getLsbD 16 && !(a.keptBits x).getLsbD 16 then 0 else a.get (F.TEAM_STAT_EN_REF tm))
        ∧ (a.same.tick ≠ a.now → v.getLsbD 16 = true → u.get (F.TEAM_STAT_EN_REF tm) = 0)
        ∧ RegsBut [x, A.EVT_TAGHWM] a u ∧ u = { a with regs := u.regs, same := u.same, tagsUse := a.tagsUse + 1 })
    ∧ (a.takes m (A.TEAM_CTL tm) = true → a.tstate tm = stOFF → a.safeLow = true →
      a.inTurn (.teamEnable t m tm) = true → ∃ u : State, exec (.teamEnable t m tm) s = .next (u.yokCheck.after a (.teamEnable t m tm)) ∧ u.get (F.TEAM_STAT_EN_REF tm) = 1
        ∧ (u.keptBits x).getLsbD 16 = true)

/-- What the commands of one tick do to each other. -/
def Obligations.SameTickWrites : Prop :=
  Part.RankOrder ∧ Part.SameTickBits

/-- LINK_UP and LINK_DOWN. -/
def Sys2Proof.Machine.Part.NetLinks : Prop :=
  ∀ (s : State) (t : Tick) (p : Fin 3) (rf : Bool), let a := s.advance t
    a.clkOn = true →
      (a.portRole p ≠ 0 → a.tim.linksIdle = false → a.bit (F.NET_PSTAT_LINK p) = false →
        a.inTurn (.linkUp t p rf) = true → ∃ u : State, exec (.linkUp t p rf) s = .next (u.yokCheck.after a (.linkUp t p rf)) ∧ u.get (F.NET_PSTAT_LINK p) = 1
          ∧ u.get (F.NET_PSTAT_SYNC p) = 1 ∧ u.bit (F.NET_PSTAT_ANDONE p) = a.bit (F.NET_PCFG_AN p)
          ∧ u.bit (F.NET_PSTAT_RFAULT p) = (a.bit (F.NET_PCFG_AN p) && rf) ∧ RegsBut [A.NET_PSTAT p] a u
          ∧ u = { a with regs := u.regs, same := u.same, net := u.net } ∧ u.net.ports = a.net.ports)
      ∧ (a.bit (F.NET_PSTAT_LINK p) = true →
        a.inTurn (.linkDown t p) = true → ∃ u : State, exec (.linkDown t p) s = .next (u.yokCheck.after a (.linkDown t p)) ∧ u.get (F.NET_PSTAT_LINK p) = 0
          ∧ u.get (F.NET_PSTAT_PDVALID p) = 0 ∧ NewestFault u 0x0C02 p
          ∧ u.get (F.NET_PSTAT_DOWNCNT p) = (a.get (F.NET_PSTAT_DOWNCNT p) + 1) % 2 ^ (F.NET_PSTAT_DOWNCNT p).width
          ∧ (u.nport p).qFwd = [] ∧ (u.nport p).qOwn = [] ∧ (u.nport p).qPtp = [] ∧ (u.nport p).qOther = []
          ∧ (∀ q, q ≠ p → u.nport q = a.nport q)
          ∧ RegsBut (A.NET_PSTAT p :: A.NET_MBXTXSTAT :: evtWords) a u)

/-- SYNC_SEND, ANNOUNCE_SEND, PDELAY_REQ_SEND, PDELAY_REQ_RECEIVE and UNSUPPORTED_PTP_MESSAGE: what waits at the egress. -/
def Sys2Proof.Machine.Part.PtpSends : Prop :=
  ∀ (s : State) (t : Tick) (p : Fin 3) (ps seq : Nat) (src : PtpId), let a := s.advance t
    let dom := a.get F.NET_PTPCFG_DOMAIN
    a.clkOn = true →
      (a.stage = stBW → a.servo.syncAt + a.syncTicks ≤ a.now →
        a.inTurn (.syncSend t) = true → ∃ u : State, exec (.syncSend t) s = .next (u.yokCheck.after a (.syncSend t)) ∧ u.servo.syncAt = a.now
          ∧ u.servo.syncSeq = (a.servo.syncSeq + 1) % 65536 ∧ u = { a with net := u.net }
          ∧ ∀ q, (u.nport q).qPtp = (a.nport q).qPtp
              ++ (if a.portUp q then [.ptp (.sync (a.portId q) a.servo.syncSeq dom false 0 0 0) none] else []))
      ∧ (a.stage = stBW → a.servo.annTxAt + logTicks (a.getI F.NET_PTPCFG_LOGANN) ≤ a.now →
        a.inTurn (.announceSend t) = true → ∃ u : State, exec (.announceSend t) s = .next (u.yokCheck.after a (.announceSend t)) ∧ u.servo.annTxAt = a.now
          ∧ u.servo.annSeq = (a.servo.annSeq + 1) % 65536 ∧ u = { a with net := u.net }
          ∧ ∀ q, (u.nport q).qPtp = (a.nport q).qPtp
              ++ (if a.portUp q then [.ptp (.announce (a.portId q) a.servo.annSeq dom a.ownGm) none] else []))
      ∧ (a.portUp p = true →
        (a.nport p |>.pdAt) + logTicks (a.getI F.NET_PTPCFG_LOGPD) ≤ a.now →
        a.inTurn (.pdelayReqSend t p) = true → ∃ u : State, exec (.pdelayReqSend t p) s = .next (u.yokCheck.after a (.pdelayReqSend t p)) ∧ (u.nport p).pdOpen = true
          ∧ (u.nport p).pdSeq = ((a.nport p).pdSeq + 1) % 65536
          ∧ (u.nport p).qPtp = (a.nport p).qPtp ++ [.ptp (.pdReq (a.portId p) (((a.nport p).pdSeq + 1) % 65536)) none]
          ∧ ((a.nport p).pdOpen = true → 2 ≤ (a.nport p).pdMiss → u.get (F.NET_PSTAT_PDVALID p) = 0)
          ∧ RegsBut [A.NET_PSTAT p] a u)
      ∧ (a.portUp p = true →
        (a.inTurn (.pdelayReqReceive t p ps src seq) = true → ∃ u : State, exec (.pdelayReqReceive t p ps src seq) s = .next (u.yokCheck.after a (.pdelayReqReceive t p ps src seq))
          ∧ (u.nport p).qPtp = (a.nport p).qPtp ++ [.ptp (.pdResp src seq 0) (some (a.rxStamp p ps))]
          ∧ u.get (F.NET_FRMCNT_RX p) = (a.get (F.NET_FRMCNT_RX p) + 1) % 2 ^ (F.NET_FRMCNT_RX p).width
          ∧ RegsBut [A.NET_FRMCNT p] a u)
        ∧ (a.inTurn (.unsupportedPtpMessage t p) = true → ∃ u : State, exec (.unsupportedPtpMessage t p) s = .next (u.yokCheck.after a (.unsupportedPtpMessage t p))
          ∧ u.get (F.NET_ERRCNT_DISC p) = min (2 ^ (F.NET_ERRCNT_DISC p).width - 1) (a.get (F.NET_ERRCNT_DISC p) + 1)
          ∧ RegsBut [A.NET_FRMCNT p, A.NET_ERRCNT p] a u ∧ u = { a with regs := u.regs, same := u.same }))

/-- SYNC_RECEIVE, FOLLOW_UP_RECEIVE, ANNOUNCE_RECEIVE and PDELAY_RESP_RECEIVE: a message goes out of every other port that
has not seen it; the only copy of the Bellwether's Sync gives the offset; an Announce joins the selection; a response gives
the link's delay. -/
def Sys2Proof.Machine.Part.PtpReceives : Prop :=
  ∀ (s : State) (t : Tick) (p : Fin 3) (ps seq dom hops : Nat) (src req : PtpId) (g : GmData) (origin corr ts : Int),
    let a := s.advance t
    let m : PtpMsg := .sync src seq dom false origin corr (min 255 (hops + 1))
    let base := a.rxStamp p ps - a.get (F.NET_PDELAY_DLY p) - a.getI (F.NET_ASYM_ASYM p)
    let alone_ := ∀ q, q ≠ p → a.portUp q = false
    let rx (u : State) : Prop := u.get (F.NET_FRMCNT_RX p) = (a.get (F.NET_FRMCNT_RX p) + 1) % 2 ^ (F.NET_FRMCNT_RX p).width
    a.clkOn = true → a.portUp p = true →
      (a.inTurn (.syncReceive t p ps src seq dom false origin corr hops) = true → ∃ u : State, exec (.syncReceive t p ps src seq dom false origin corr hops) s = .next (u.yokCheck.after a (.syncReceive t p ps src seq dom false origin corr hops)) ∧ rx u
        ∧ (∀ q, q ≠ p → a.portUp q = true → src.clk ≠ a.clockId → a.wasSeen q m = false →
            (u.nport q).qPtp = (a.nport q).qPtp ++ [.ptp m (some base)])
        ∧ (a.usable p src dom = false → u.servo = a.servo)
        ∧ (a.usable p src dom = true → alone_ → a.servo.used ≠ some seq →
            u.servo.used = some seq ∧ u.servo.lastSync = a.now ∧ u.rd A.NET_OFS = sat32 (base - origin - corr)))
      ∧ (∀ e, (a.nport p).two = [e] → e.src = src → e.seq = seq →
        a.inTurn (.followUpReceive t p src seq dom origin corr) = true → ∃ u : State, exec (.followUpReceive t p src seq dom origin corr) s = .next (u.yokCheck.after a (.followUpReceive t p src seq dom origin corr)) ∧ rx u
          ∧ (u.nport p).two = []
          ∧ (a.usable p src dom = true → alone_ → a.servo.used ≠ some seq → u.servo.used = some seq
              ∧ u.rd A.NET_OFS = sat32 (e.rx - (origin + (e.corr + corr) + a.get (F.NET_PDELAY_DLY p)
                  + a.getI (F.NET_ASYM_ASYM p)))))
      ∧ (dom = a.get F.NET_PTPCFG_DOMAIN → src.clk ≠ a.clockId → g.id ≠ a.clockId → 0 < a.annTimeout →
        a.inTurn (.announceReceive t p src seq dom g) = true → ∃ u : State, exec (.announceReceive t p src seq dom g) s = .next (u.yokCheck.after a (.announceReceive t p src seq dom g)) ∧ rx u ∧ u.servo.annAt = a.now
          ∧ (g, a.now) ∈ u.servo.foreign)
      ∧ (∀ t1, (a.nport p).pdT1 = some t1 → req = a.portId p → seq = (a.nport p).pdSeq → (a.nport p).pdOpen = true →
        a.inTurn (.pdelayRespReceive t p ps false false req seq ts corr) = true → ∃ u : State, exec (.pdelayRespReceive t p ps false false req seq ts corr) s = .next (u.yokCheck.after a (.pdelayRespReceive t p ps false false req seq ts corr)) ∧ rx u
          ∧ (u.nport p).pdOpen = false ∧ (u.nport p).pdMiss = 0 ∧ (u.nport p).pdGood = min 8 ((a.nport p).pdGood + 1)
          ∧ (7 ≤ (a.nport p).pdGood → u.get (F.NET_PSTAT_PDVALID p) = 1)
          ∧ ((a.nport p).pdHist = [] → (a.rxStamp p ps - t1 - corr) % 2 = 0 →
              u.rd (A.NET_PDELAY p) = BitVec.ofInt 32 ((a.rxStamp p ps - t1 - corr) / 2)))

/-- PTP messages sent and received. -/
def Obligations.PtpMessages : Prop :=
  Part.PtpSends ∧ Part.PtpReceives

/-- SYNC_TIMEOUT, HOLDMAX_EXPIRY, PPS_LOSS and ANNOUNCE_RECEIPT_TIMEOUT. -/
def Obligations.ServoTimeouts : Prop :=
  ∀ (s : State) (t : Tick), let a := s.advance t
    let tp := a.get F.NET_TSTAT_TPORT
    a.clkOn = true →
      (3 ≤ a.stage → a.stage ≤ 5 → a.servo.lastSync + 3 * a.syncTicks ≤ a.now →
        a.inTurn (.syncTimeout t) = true → ∃ u : State, exec (.syncTimeout t) s = .next (u.yokCheck.after a (.syncTimeout t)) ∧ u.stage = stHOLD ∧ u.get F.TIM_STAT_HOLDOVER = 1
          ∧ NewestFault u 0x0C04 tp ∧ u.bit F.TIM_STAT_NETLOCK = a.bit F.TIM_STAT_NETLOCK ∧ u.net = a.net)
      ∧ (a.stage = stHOLD → a.bit F.TIM_STAT_NETLOCK = true →
          a.servo.lastSync + a.get F.NET_SERVOCFG_HOLDMAX * 16 * 312500 ≤ a.now →
        a.inTurn (.holdmaxExpiry t) = true → ∃ u : State, exec (.holdmaxExpiry t) s = .next (u.yokCheck.after a (.holdmaxExpiry t)) ∧ u.get F.TIM_STAT_NETLOCK = 0 ∧ u.stage = stHOLD
          ∧ NewestFault u 0x0C05 tp)
      ∧ (a.stage = stBW → a.get F.TIM_CTL_SRC = 2 → a.servo.ppsHold = none → a.servo.ppsAt + 625000000 ≤ a.now →
        a.inTurn (.ppsLoss t) = true → ∃ u : State, exec (.ppsLoss t) s = .next (u.yokCheck.after a (.ppsLoss t)) ∧ u.servo.ppsHold = some a.now ∧ u.servo.ppsGood = 0
          ∧ NewestFault u 0x0C07 0 ∧ RegsBut evtWords a u)
      ∧ (a.stage ≠ stSOFF → a.stage ≠ stBW → a.load.locked = true → a.servo.annAt + a.annTimeout ≤ a.now →
        a.inTurn (.announceReceiptTimeout t) = true → ∃ u : State, exec (.announceReceiptTimeout t) s = .next (u.yokCheck.after a (.announceReceiptTimeout t)) ∧ u.servo.annAt = a.now
          ∧ (∀ e ∈ u.servo.foreign, a.now < e.2 + a.annTimeout)
          ∧ ((∀ e ∈ a.servo.foreign, e.2 + a.annTimeout ≤ a.now) → a.clockClass = 255 →
              u.servo.gm = none ∧ (a.stage = stACQ → u.stage = stLISTEN)))

/-- ICEND_CYCLE_BOUNDARY, DATA_FRAME_SEND and RECEIVE_DEADLINE: once a cycle each; the deadline delivers what the cycle's
frames held. -/
def Obligations.IcendCycles : Prop :=
  ∀ (s : State) (t : Tick) (base : Nat) (ws : List Word), let a := s.advance t
    let c := a.cyc % 2 ^ 32
    a.clkOn = true →
      (a.load.locked = true → a.cycDue 0 = true → a.net.bnd ≠ some a.cyc →
        a.inTurn (.icendCycleBoundary t) = true → ∃ u : State, exec (.icendCycleBoundary t) s = .next (u.yokCheck.after a (.icendCycleBoundary t)) ∧ u.net.bnd = some a.cyc
          ∧ u.get F.NET_WINUSE_LAST = min 65535 a.net.lastDone
          ∧ u.net.wins = a.net.wins.filter (fun w => decide (a.cyc < w.cyc + 5))
          ∧ RegsBut [A.NET_WINUSE, A.NET_SRCUSE] a u)
      ∧ (a.icendOn = true → a.bit F.NET_JOIN_JOINED = true → a.refused = false →
          a.cycDue (if a.bit F.NET_ADDR_HI then (a.rd A.NET_TXOFSHI).toNat else (a.rd A.NET_TXOFS).toNat) = true →
          a.net.sentCyc ≠ some a.cyc →
        a.inTurn (.dataFrameSend t) = true → ∃ (u : State) (n : Nat), exec (.dataFrameSend t) s = .next (u.yokCheck.after a (.dataFrameSend t)) ∧ 1 ≤ n ∧ n ≤ 5 ∧ u.net.sentCyc = some a.cyc
          ∧ u.net.seq = (a.net.seq + n) % 65536 ∧ u.get F.NET_PUBCFG_BLOCKS = n
          ∧ u.net.kept.length = a.net.kept.length + 1)
      ∧ (a.load.locked = true → a.cycDue (a.rd A.NET_RXDL).toNat = true → a.net.dlCyc ≠ some a.cyc →
        a.inTurn (.receiveDeadline t) = true → ∃ u : State, exec (.receiveDeadline t) s = .next (u.yokCheck.after a (.receiveDeadline t)) ∧ u.net.dlCyc = some a.cyc
          ∧ u.net.held = a.net.held.filter (fun x => x.cyc != c) ∧ u.net.kept = a.net.kept.filter (fun x => x.cyc != c)
          ∧ (a.net.held.filter (fun x => x.cyc == c) = [⟨c, .state base ws⟩] → a.tagFree = true → a.stalled = [] →
              a.get F.NET_RXSTATE_BASE ≤ base →
              base + ws.length ≤ min 8192 (a.get F.NET_RXSTATE_BASE + a.get F.NET_RXSTATE_LEN) →
              ∀ i, (hi : i < ws.length) → u.memGet (K.state (base + i)) = ws[i]))

namespace Sys2Proof.Machine

/-- A whole ring frame of version 1 with a good header check, from another device. -/
def RingFrame (a : State) (p : Fin 3) (b : List Byte) : Prop :=
  a.portUp p = true ∧ p ≠ 2 ∧ 24 ≤ b.length ∧ le b 20 4 = hdrCrc b ∧ (iceHdr b).ver = 1 ∧ (iceHdr b).inj ≠ a.ownAddr

end Sys2Proof.Machine

/-- ICEND_FRAME_RECEIVE and REPAIR_REQ_RECEIVE: a frame with a broken header is counted; a good block of a new source is
held for the deadline of its cycle; the first request for a block of a kept frame is served. -/
def Sys2Proof.Machine.Part.IcendFrames : Prop :=
  ∀ (s : State) (t : Tick) (p : Fin 3) (b : List Byte) (blk : IceBlk) (q : Nat × Nat × Bool) (k : KeptFrame),
    let a := s.advance t
    let h := iceHdr b
    let rx (u : State) : Prop := u.get (F.NET_FRMCNT_RX p) = (a.get (F.NET_FRMCNT_RX p) + 1) % 2 ^ (F.NET_FRMCNT_RX p).width
    a.clkOn = true →
      (a.portUp p = true → b.length < 24 → byteAt b 1 = ftDATA →
        a.inTurn (.icendFrameReceive t p b true false) = true → ∃ u : State, exec (.icendFrameReceive t p b true false) s = .next (u.yokCheck.after a (.icendFrameReceive t p b true false)) ∧ rx u
          ∧ u.get (F.NET_ERRCNT_HDRERR p) = min (2 ^ (F.NET_ERRCNT_HDRERR p).width - 1) (a.get (F.NET_ERRCNT_HDRERR p) + 1)
          ∧ u = { a with regs := u.regs, same := u.same } ∧ RegsBut [A.NET_FRMCNT p, A.NET_ERRCNT p] a u)
      ∧ (RingFrame a p b → byteAt b 1 = ftDATA → a.addressed h.dst = true → a.refused = false → a.icendOn = true →
          a.cycleOk h.cyc = true → iceBlks h.blkcnt (b.drop 24) = [blk] → blk.st = .good →
          a.net.wins.find? (fun w => w.src == h.src && w.hi == h.hi) = none → a.net.wins.length < 128 →
        a.inTurn (.icendFrameReceive t p b true false) = true → ∃ u : State, exec (.icendFrameReceive t p b true false) s = .next (u.yokCheck.after a (.icendFrameReceive t p b true false)) ∧ rx u
          ∧ u.net.held = a.net.held
              ++ (parseItems blk.words.length blk.words ⟨[], [], 0⟩).items.map (fun i => ⟨h.cyc, i⟩))
      ∧ (RingFrame a p b → byteAt b 1 = ftREQ → h.dst = a.ownAddr → a.icendOn = true →
          iceBlks h.blkcnt (b.drop 24) = [blk] → blk.st = .good → rprItems blk.words = [q] → a.net.kept = [k] →
          k.cyc = h.cyc → (iceHdr k.payload).src = q.2.1 → (iceHdr k.payload).hi = q.2.2 → q.1 ∉ k.served →
          (∃ x ∈ iceBlks (iceHdr k.payload).blkcnt (k.payload.drop 24), x.seq = q.1) →
        a.inTurn (.repairReqReceive t p b true false) = true → ∃ u : State, exec (.repairReqReceive t p b true false) s = .next (u.yokCheck.after a (.repairReqReceive t p b true false)) ∧ rx u
          ∧ u.get F.NET_RPRCNT_SERVED = (a.get F.NET_RPRCNT_SERVED + 1) % 2 ^ F.NET_RPRCNT_SERVED.width
          ∧ ∃ x ∈ u.net.kept, x.payload = k.payload ∧ q.1 ∈ x.served)

/-- HELLO_SEND, HELLO_RECEIVE and JOIN_COMPLETE: a station is heard, an older one with the same address refuses this device,
and two seconds without one join it. -/
def Sys2Proof.Machine.Part.IcendJoin : Prop :=
  ∀ (s : State) (t : Tick) (p : Fin 3) (mac : BitVec 48) (b : List Byte) (blk : IceBlk) (t0 : Tick) (addr age : Nat),
    let a := s.advance t
    let h := iceHdr b
    a.clkOn = true →
      (a.net.hello0 = some t0 → a.net.helloAt = none → a.refused = false → a.icendOn = true →
        a.inTurn (.helloSend t) = true → ∃ u : State, exec (.helloSend t) s = .next (u.yokCheck.after a (.helloSend t)) ∧ u.net.helloAt = some a.now
          ∧ (a.ownAddr, a.now) ∈ u.net.stations)
      ∧ (RingFrame a p b → byteAt b 1 = ftHELLO → h.hops = 0 → iceBlks h.blkcnt (b.drop 24) = [blk] → blk.st = .good →
          helloItem blk.words = some (addr, age) →
        a.inTurn (.helloReceive t p mac b true false) = true → ∃ u : State, exec (.helloReceive t p mac b true false) s = .next (u.yokCheck.after a (.helloReceive t p mac b true false)) ∧ u.get (F.NET_PSTAT_PEERBX p) = 1
          ∧ (u.nport p).far = some addr
          ∧ (addr / 64 = a.ownSeg → (addr, a.now) ∈ u.net.stations)
          ∧ (addr = a.ownAddr → mac.toNat ≠ a.load.mac → a.icendOn = true → a.refused = false → a.helloAge < age →
              u.get F.NET_JOIN_REFUSED = 1 ∧ u.get F.NET_JOIN_JOINED = 0))
      ∧ (∀ ta, a.net.hello0 = some t0 → a.net.helloAt = some ta → t0 + 625000000 ≤ a.now → a.refused = false →
          a.icendOn = true →
        a.inTurn (.joinComplete t) = true → ∃ u : State, exec (.joinComplete t) s = .next (u.yokCheck.after a (.joinComplete t)) ∧ u.get F.NET_JOIN_JOINED = 1
          ∧ RegsBut [A.NET_JOIN] a u ∧ u = { a with regs := u.regs, same := u.same })

/-- Icend frames received, and joining. -/
def Obligations.IcendReceives : Prop :=
  Part.IcendFrames ∧ Part.IcendJoin

/-- OTHER_FRAME_RECEIVE, MAILBOX_POP, MAILBOX_SEND, MAILBOX_SENT and EGRESS_FRAME_START: the mailbox ring, its transmit slots,
and the egress. -/
def Sys2Proof.Machine.Part.Mailbox : Prop :=
  ∀ (s : State) (t : Tick) (m : Master) (p : Fin 3) (o : List Byte) (ps : Nat) (u4 : Fin 4) (len : BitVec 11),
    let a := s.advance t
    (a.clkOn = true →
      (a.portUp p = true → 60 ≤ o.length → o.length ≤ 1518 → beNat (slice o 12 2) ≠ 0x8808 →
          beNat (slice o 0 6) = a.load.mac → a.net.rx.length < 16 →
        a.inTurn (.otherFrameReceive t p o true ps) = true → ∃ (u : State) (x : MailIn), exec (.otherFrameReceive t p o true ps) s = .next (u.yokCheck.after a (.otherFrameReceive t p o true ps)) ∧ u.net.rx = a.net.rx ++ [x]
          ∧ x.slot = a.net.rxNext ∧ x.port = p.val ∧ x.len = o.length ∧ u.net.rxNext = (a.net.rxNext + 1) % 16
          ∧ ∀ i, (hi : i < (frameWords o).length) → u.memGet (K.rxSlot a.net.rxNext i) = (frameWords o)[i])
      ∧ (∀ e, a.net.txEnd[u4] = some e → e ≤ a.now →
        a.inTurn (.mailboxSent t u4) = true → ∃ u : State, exec (.mailboxSent t u4) s = .next (u.yokCheck.after a (.mailboxSent t u4)) ∧ u.bitAt F.NET_MBXTXSTAT_BUSY u4 = false
          ∧ u.bitAt F.NET_MBXTXSTAT_DONE u4 = true ∧ u.net.txEnd[u4] = none ∧ RegsBut [A.NET_MBXTXSTAT] a u)
      ∧ (∀ f r, a.portUp p = true → (a.nport p).busyTill ≤ a.now → (a.nport p).qFwd = .icend f :: r →
        a.inTurn (.egressFrameStart t p ps) = true → ∃ u : State, exec (.egressFrameStart t p ps) s = .next (u.yokCheck.after a (.egressFrameStart t p ps)) ∧ (u.nport p).qFwd = r
          ∧ (u.nport p).last = some (.icend f) ∧ a.now < (u.nport p).busyTill
          ∧ u.get (F.NET_FRMCNT_TX p) = (a.get (F.NET_FRMCNT_TX p) + 1) % 2 ^ (F.NET_FRMCNT_TX p).width
          ∧ RegsBut [A.NET_FRMCNT p] a u ∧ ∀ q, q ≠ p → u.nport q = a.nport q))
    ∧ (a.takes m A.NET_MBXRXPOP = true →
      a.inTurn (.mailboxPop t m) = true → ∃ u : State, exec (.mailboxPop t m) s = .next (u.yokCheck.after a (.mailboxPop t m)) ∧ u.net.rx = a.net.rx.drop 1
        ∧ (a.net.rx.length ≤ 1 → u.rd A.NET_MBXRXSTAT = 0)
        ∧ RegsBut [A.NET_MBXRXSTAT, A.NET_MBXRXT, A.EVT_TAGHWM] a u ∧ u.mem = a.mem)
    ∧ (a.takes m A.NET_MBXTXCTL = true →
      (a.bitAt F.NET_MBXTXSTAT_BUSY u4 = false → a.portUp p = true → 14 ≤ len.toNat → len.toNat ≤ 1518 →
          occFine len.toNat ≤ a.tc - (a.rd A.NET_RXDL).toNat →
        a.inTurn (.mailboxSend t m ⟨p.val, by omega⟩ u4 len) = true → ∃ u : State, exec (.mailboxSend t m ⟨p.val, by omega⟩ u4 len) s = .next (u.yokCheck.after a (.mailboxSend t m ⟨p.val, by omega⟩ u4 len))
          ∧ u.bitAt F.NET_MBXTXSTAT_BUSY u4 = true
          ∧ (u.nport p).qOther = (a.nport p).qOther ++ [.mail u4 (a.slotOctets u4 len.toNat)]
          ∧ RegsBut [A.NET_MBXTXSTAT, A.EVT_TAGHWM] a u)
      ∧ (len.toNat < 14 →
        a.inTurn (.mailboxSend t m ⟨p.val, by omega⟩ u4 len) = true → ∃ u : State, exec (.mailboxSend t m ⟨p.val, by omega⟩ u4 len) s = .next (u.yokCheck.after a (.mailboxSend t m ⟨p.val, by omega⟩ u4 len))
          ∧ u.bitAt F.NET_MBXTXSTAT_ERR u4 = true ∧ u.net = a.net ∧ RegsBut [A.NET_MBXTXSTAT, A.EVT_TAGHWM] a u))

/-- The mailbox's interrupt request (R368): a received frame is held and IERX is 1, or a DONE bit is set and IETX is 1. -/
def Sys2Proof.Machine.Part.MailboxRequest : Prop :=
  ∀ s : State, s.mbxIrq = true ↔
    (s.bit F.NET_MBXCFG_IERX = true ∧ s.net.rx ≠ [])
      ∨ (s.bit F.NET_MBXCFG_IETX = true ∧ ∃ k : Fin 4, s.bitAt F.NET_MBXTXSTAT_DONE k = true)

/-- Link states and the mailbox. -/
def Obligations.NetworkLinksAndMailbox : Prop :=
  Part.NetLinks ∧ Part.Mailbox ∧ Part.MailboxRequest

namespace Sys2Proof.Machine

/-- Nothing runs, waits or gathers at the flash port. -/
def FlashIdle (a : State) : Prop :=
  a.ser.queue = [] ∧ a.ser.blocked = [] ∧ a.ser.run = none ∧ a.ser.gather = none ∧ a.ser.closed = false

/-- Bytes that gather from address `ad` in an idle port: nothing is sent to the flash yet (R411). -/
def Gathers (a u : State) (ad : Nat) (b : List Byte) (w : Writer) : Prop :=
  u.ser = { a.ser with gather := some ⟨ad / 256, b.mapIdx (fun i x => ((ad + i) % 256, x)), w, a.now⟩ }
    ∧ u.get F.SER_FLSSTAT_GATHER = 1 ∧ u.get F.SER_FLSSTAT_BUSY = 0

/-- An operation has begun in the flash, and its counter has counted it; the port puts a write enable on the flash and then the
operation at its address (R411). -/
def FlashBegun (a u : State) (op : FlsEntry) : Prop :=
  u.ser = { a.ser with gather := none, run := some ⟨op, a.now, false, false⟩, bus := u.ser.bus }
    ∧ u.ser.bus.map FlsTxn.cmd = [a.get F.SER_FLSOPC_WREN, match op with
        | .prog .. => a.get F.SER_FLSOPC_PP
        | .erase .. => a.get F.SER_FLSOPC_SE]
    ∧ u.ser.bus.map FlsTxn.addr = [none, some op.range.1] ∧ u.get F.SER_FLSSTAT_BUSY = 1
    ∧ u.get F.SER_FLSCNT_PROGS = (a.get F.SER_FLSCNT_PROGS + (match op with | .prog .. => 1 | .erase .. => 0)) % 2 ^ 16
    ∧ u.get F.SER_FLSCNT_ERASES = (a.get F.SER_FLSCNT_ERASES + (match op with | .prog .. => 0 | .erase .. => 1)) % 2 ^ 16

end Sys2Proof.Machine

/-- FLASH_PROGRAM_STORE, FLSWDATA_WRITE, FLASH_ERASE_STORE and FLSERASE_WRITE: program bytes gather, an erase begins, and a
write into a range that the device protects is recorded and goes no further. -/
def Sys2Proof.Machine.Part.FlashStores : Prop :=
  ∀ (s : State) (t : Tick) (q : Fin 2) (m : Master) (ad : BitVec 24) (b : List Byte) (v : Word),
    let a := s.advance t
    let w := (pairMaster q).writer
    let e := v.toNat % 2 ^ 24
    FlashIdle a →
      (a.clkOn = true → a.fwOk q = true → 0 < b.length → ad.toNat % 256 + b.length ≤ 256 →
        (a.flsProtected ad.toNat b.length = false →
          a.inTurn (.flashProgramStore t q ad b) = true → ∃ u : State, exec (.flashProgramStore t q ad b) s = .next (u.yokCheck.after a (.flashProgramStore t q ad b)) ∧ Gathers a u ad.toNat b w
            ∧ RegsBut [A.SER_FLSSTAT] a u ∧ u = { a with regs := u.regs, same := u.same, ser := u.ser })
        ∧ (a.flsProtected ad.toNat b.length = true →
          a.inTurn (.flashProgramStore t q ad b) = true → ∃ u : State, exec (.flashProgramStore t q ad b) s = .next (u.yokCheck.after a (.flashProgramStore t q ad b)) ∧ u.get F.SER_FLSSTAT_PROT = 1
            ∧ NewestFault u 0x0F05 ad.toNat ∧ u.ser = a.ser ∧ RegsBut (A.SER_FLSSTAT :: evtWords) a u))
      ∧ (a.clkOn = true → a.fwOk q = true → a.flsProtected (ad.toNat / 4096 * 4096) 4096 = false →
        a.inTurn (.flashEraseStore t q ad) = true → ∃ u : State, exec (.flashEraseStore t q ad) s = .next (u.yokCheck.after a (.flashEraseStore t q ad)) ∧ FlashBegun a u (.erase ad.toNat w)
          ∧ RegsBut [A.SER_FLSSTAT, A.SER_FLSCNT] a u)
      ∧ (a.takes m A.SER_FLSWDATA = true → a.flsProtected a.flsAddr 4 = false →
        a.inTurn (.flswdataWrite t m v) = true → ∃ u : State, exec (.flswdataWrite t m v) s = .next (u.yokCheck.after a (.flswdataWrite t m v)) ∧ Gathers a u a.flsAddr (leBytes 4 v.toNat) m.writer
          ∧ u.get F.SER_FLSADDR_ADDR = (a.flsAddr + 4) % 2 ^ 24
          ∧ RegsBut [A.SER_FLSSTAT, A.SER_FLSADDR, A.EVT_TAGHWM] a u)
      ∧ (a.takes m A.SER_FLSERASE = true → a.flsProtected (e / 4096 * 4096) 4096 = false →
        a.inTurn (.flseraseWrite t m v) = true → ∃ u : State, exec (.flseraseWrite t m v) s = .next (u.yokCheck.after a (.flseraseWrite t m v)) ∧ FlashBegun a u (.erase e m.writer)
          ∧ RegsBut [A.SER_FLSSTAT, A.SER_FLSCNT, A.EVT_TAGHWM] a u)

/-- FLASH_WINDOW_READ and FLSRDATA_READ: a load, or a fetch within the XIP range, is served from the line cache, or fills a line with what the flash answers;
SER_FLSRDATA gives the word at SER_FLSADDR, which moves on by 4. -/
def Sys2Proof.Machine.Part.FlashReads : Prop :=
  ∀ (s : State) (t : Tick) (q : Fin 2) (m : Master) (ad : BitVec 24) (line : List Byte) (d : Word) (fetch : Bool),
    let a := s.advance t
    let base := ad.toNat / 64 * 64
    let off := ad.toNat / 4 * 4 - base
    let got (u : State) (l : List Byte) : Prop := u.lastRead[(pairMaster q).reader] = BitVec.ofNat 32 (le l off 4)
      ∧ RegsBut [A.SER_FLSSTAT] a u
    FlashIdle a →
      (a.clkOn = true → a.fwOk q = true → (fetch = true → a.xipFetch ad.toNat = true) →
        (∀ l, a.ser.lines.find? (fun x => x.1 == base) = some l →
          a.inTurn (.flashWindowRead t ⟨q, fetch⟩ ad line) = true → ∃ u : State, exec (.flashWindowRead t ⟨q, fetch⟩ ad line) s = .next (u.yokCheck.after a (.flashWindowRead t ⟨q, fetch⟩ ad line)) ∧ got u l.2 ∧ u.ser = a.ser)
        ∧ (a.ser.lines.find? (fun x => x.1 == base) = none → line.length = 64 →
          a.inTurn (.flashWindowRead t ⟨q, fetch⟩ ad line) = true → ∃ u : State, exec (.flashWindowRead t ⟨q, fetch⟩ ad line) s = .next (u.yokCheck.after a (.flashWindowRead t ⟨q, fetch⟩ ad line)) ∧ got u line ∧ (base, line) ∈ u.ser.lines
            ∧ u.ser.bus.map FlsTxn.addr = [some base] ∧ u.ser.bus.map FlsTxn.inp = [64]))
      ∧ (a.mayReach m false A.SER_FLSRDATA = true →
        a.inTurn (.flsrdataRead t m d) = true → ∃ u : State, exec (.flsrdataRead t m d) s = .next (u.yokCheck.after a (.flsrdataRead t m d)) ∧ u.lastRead[m.reader] = d
          ∧ u.get F.SER_FLSADDR_ADDR = (a.flsAddr + 4) % 2 ^ 24
          ∧ RegsBut [A.SER_FLSADDR, A.SER_FLSSTAT, A.CE_LOAD] a u)

/-- A transaction of the flash port (R406 to R408): a command byte, the address bytes, dummy cycles and data, each at its
own lanes; FLS_CS_N is low and FLS_SCK falls and rises once in each cycle; nothing is driven in the dummy cycles and
while data are read; a 4 KiB read at the boot profile takes 16,424 cycles. -/
def Sys2Proof.Machine.Part.FlashTransactions : Prop :=
  (∀ (x : FlsTxn) (a : Nat), x.addr = some a → x.cl ≤ 3 → x.al ≤ 3 → x.dl ≤ 3 →
    x.drive.length = 8 / 2 ^ x.cl + x.abytes * (8 / 2 ^ x.al) + x.dummy + (x.out.length + x.inp) * (8 / 2 ^ x.dl)
      ∧ x.pins.length = 2 * x.drive.length ∧ (∀ y ∈ x.pins, y.csN = false)
      ∧ (∀ i (hi : i < x.drive.length), 8 / 2 ^ x.cl + x.abytes * (8 / 2 ^ x.al) ≤ i → x.out = [] →
          x.drive[i] = List.replicate 8 none))
    ∧ (∀ (s : State) (a : Nat), s.rdProfile = ⟨0x3B, 0, 0, 1, 3, 8, 2, false⟩ → (s.readTxn a 4096 2).drive.length = 16424)

/-- Stores to and loads from the flash. -/
def Obligations.FlashAccesses : Prop :=
  Part.FlashStores ∧ Part.FlashReads ∧ Part.FlashTransactions

/-- FLASH_FLUSH, GATHER_TIMEOUT, FLASH_OPERATION_END and FLASH_OPERATION_TIMEOUT: gathered bytes are programmed; a program
whose read-back differs is repeated once and then recorded; an operation beyond its time is recorded and the flash reset,
and a flash that stays busy loses its queue. -/
def Obligations.FlashOperations : Prop :=
  ∀ (s : State) (t : Tick) (m : Master) (v : Word) (good : Bool) (g : FlsGather) (r : FlsRun), let a := s.advance t
    let ended (u : State) : Prop := u.ser.run = none ∧ u.get F.SER_FLSSTAT_BUSY = 0
      ∧ ∀ l ∈ u.ser.lines, overlap l.1 64 r.op.range.1 r.op.range.2 = false
    let limit := match r.op with
      | .prog .. => a.get F.SER_FLSTMO_PROG * 3125
      | .erase .. => a.get F.SER_FLSTMO_ERASE * 312500
    (a.ser.run = none → a.ser.gather = some g →
      (a.takes m A.SER_FLSCTL = true →
        a.inTurn (.flashFlush t m v) = true → ∃ u : State, exec (.flashFlush t m v) s = .next (u.yokCheck.after a (.flashFlush t m v)) ∧ FlashBegun a u g.entry)
      ∧ (a.clkOn = true → g.at_ + 625 ≤ a.now →
        a.inTurn (.gatherTimeout t) = true → ∃ u : State, exec (.gatherTimeout t) s = .next (u.yokCheck.after a (.gatherTimeout t)) ∧ FlashBegun a u g.entry
          ∧ RegsBut [A.SER_FLSSTAT, A.SER_FLSCNT] a u))
    ∧ (a.clkOn = true → a.ser.run = some r →
      (r.resetWait = false →
        (a.ser.queue = [] → a.ser.blocked = [] →
          (good = true ∨ (match r.op with | .prog .. => false | .erase .. => true) = true) →
          a.inTurn (.flashOperationEnd t good) = true → ∃ u : State, exec (.flashOperationEnd t good) s = .next (u.yokCheck.after a (.flashOperationEnd t good)) ∧ ended u ∧ RegsBut [A.SER_FLSSTAT] a u)
        ∧ (∀ x b w, r.op = .prog x b w → a.bit F.SER_FLSCTL_VERIFY = true →
          (r.again = false →
            a.inTurn (.flashOperationEnd t false) = true → ∃ u : State, exec (.flashOperationEnd t false) s = .next (u.yokCheck.after a (.flashOperationEnd t false)) ∧ u.get F.SER_FLSSTAT_RETRY = 1
              ∧ u.ser = { a.ser with run := some { r with again := true, start := a.now }, bus := u.ser.bus })
          ∧ (r.again = true → a.ser.queue = [] → a.ser.blocked = [] →
            a.inTurn (.flashOperationEnd t false) = true → ∃ u : State, exec (.flashOperationEnd t false) s = .next (u.yokCheck.after a (.flashOperationEnd t false)) ∧ ended u
              ∧ u.get F.SER_FLSSTAT_VERIFY = 1 ∧ NewestFault u 0x0F04 x))
        ∧ (r.start + limit ≤ a.now →
          a.inTurn (.flashOperationTimeout t) = true → ∃ u : State, exec (.flashOperationTimeout t) s = .next (u.yokCheck.after a (.flashOperationTimeout t)) ∧ u.get F.SER_FLSSTAT_TMO = 1
            ∧ u.ser.run = some { r with resetWait := true, start := a.now } ∧ u.ser.queue = a.ser.queue
            ∧ NewestFault u (match r.op with | .prog .. => 0x0F02 | .erase .. => 0x0F03) r.op.range.1))
      ∧ (r.resetWait = true → r.start + 31250 + a.get F.SER_FLSTMO_ERASE * 312500 ≤ a.now → a.ser.blocked = [] →
        a.inTurn (.flashOperationTimeout t) = true → ∃ u : State, exec (.flashOperationTimeout t) s = .next (u.yokCheck.after a (.flashOperationTimeout t)) ∧ u.ser.run = none ∧ u.ser.queue = []
          ∧ NewestFault u 0x0F07 r.op.range.1))

/-- FUSE_PROGRAM, FUSE_REVOKE, FUSE_RAISE_FLOOR and FUSE_OPERATION_DONE: the service port starts an operation that no rule
refuses, and a refused one says why; a good read-back changes the fuses and shows it, another one changes nothing. -/
def Obligations.Fuses : Prop :=
  ∀ (s : State) (t : Tick) (k : Fin 4) (f : BitVec 6), let a := s.advance t
    let begun (u : State) (op : FuseOp) : Prop := u.ser.fuseOp = some op ∧ u.get F.SER_FUSESTAT_BUSY = 1 ∧ u.fuse = a.fuse
      ∧ RegsBut [A.SER_FUSESTAT, A.EVT_TAGHWM] a u
    let refused (u : State) (c : Nat) : Prop := u.get F.SER_FUSESTAT_ERR = 1 ∧ u.get F.SER_FUSESTAT_CODE = c
      ∧ u.fuse = a.fuse ∧ u.ser = a.ser ∧ RegsBut [A.SER_FUSESTAT, A.EVT_TAGHWM] a u
    let show_ (u : State) : Prop := u.get F.SER_FUSESTAT_BUSY = 0 ∧ u.get F.SER_FUSESTAT_DONE = 1 ∧ u.ser.fuseOp = none
      ∧ u.get F.SER_FUSESTAT_CODE = 0 ∧ RegsBut [A.SER_FUSESTAT, A.BOOT_FUSESEC] a u
    (a.ser.fuseOp = none → a.takes .svc A.SER_FUSECTL = true →
      (a.allStopped →
        ((a.fuse.keys[k]).prog = false →
          (a.inTurn (.fuseProgram t .svc k) = true → ∃ u : State, exec (.fuseProgram t .svc k) s = .next (u.yokCheck.after a (.fuseProgram t .svc k)) ∧ begun u (.program k))
          ∧ (a.inTurn (.fuseRevoke t .svc k) = true → ∃ u : State, exec (.fuseRevoke t .svc k) s = .next (u.yokCheck.after a (.fuseRevoke t .svc k)) ∧ refused u 2))
        ∧ ((a.fuse.keys[k]).prog = true →
          (a.inTurn (.fuseRevoke t .svc k) = true → ∃ u : State, exec (.fuseRevoke t .svc k) s = .next (u.yokCheck.after a (.fuseRevoke t .svc k)) ∧ begun u (.revoke k))
          ∧ (a.inTurn (.fuseProgram t .svc k) = true → ∃ u : State, exec (.fuseProgram t .svc k) s = .next (u.yokCheck.after a (.fuseProgram t .svc k)) ∧ refused u 2))
        ∧ (a.fuse.floor < f.toNat → f.toNat ≤ a.get F.BOOT_IMGID_SEC_VER →
          a.inTurn (.fuseRaiseFloor t .svc f) = true → ∃ u : State, exec (.fuseRaiseFloor t .svc f) s = .next (u.yokCheck.after a (.fuseRaiseFloor t .svc f)) ∧ begun u (.floor f.toNat))
        ∧ ((f.toNat ≤ a.fuse.floor ∨ a.get F.BOOT_IMGID_SEC_VER < f.toNat) →
          a.inTurn (.fuseRaiseFloor t .svc f) = true → ∃ u : State, exec (.fuseRaiseFloor t .svc f) s = .next (u.yokCheck.after a (.fuseRaiseFloor t .svc f)) ∧ refused u 3))
      ∧ (∀ tm, (a.tstate tm = stRUN ∨ a.tstate tm = stWAIT) →
          a.inTurn (.fuseRaiseFloor t .svc f) = true → ∃ u : State, exec (.fuseRaiseFloor t .svc f) s = .next (u.yokCheck.after a (.fuseRaiseFloor t .svc f)) ∧ refused u 1))
    ∧ (∀ op, a.ser.fuseOp = some op →
      (a.inTurn (.fuseOperationDone t true) = true → ∃ u : State, exec (.fuseOperationDone t true) s = .next (u.yokCheck.after a (.fuseOperationDone t true)) ∧ show_ u
        ∧ (op = .program k → (u.fuse.keys[k]).prog = true ∧ (u.fuse.keys[k]).hash = a.fuseKey
            ∧ u.fuse.floor = a.fuse.floor ∧ ∀ j, j ≠ k → u.fuse.keys[j] = a.fuse.keys[j])
        ∧ (op = .revoke k → (u.fuse.keys[k]).rev = true ∧ (u.fuse.keys[k]).hash = (a.fuse.keys[k]).hash
            ∧ u.fuse.floor = a.fuse.floor ∧ ∀ j, j ≠ k → u.fuse.keys[j] = a.fuse.keys[j])
        ∧ (∀ n, op = .floor n → n < 64 → u.get F.BOOT_FUSESEC_SEC_FLOOR = n ∧ u.fuse = { a.fuse with floor := n }))
      ∧ (a.inTurn (.fuseOperationDone t false) = true → ∃ u : State, exec (.fuseOperationDone t false) s = .next (u.yokCheck.after a (.fuseOperationDone t false)) ∧ u.get F.SER_FUSESTAT_ERR = 1
        ∧ u.get F.SER_FUSESTAT_CODE = 4 ∧ u.fuse = a.fuse ∧ u.ser.fuseOp = none ∧ RegsBut [A.SER_FUSESTAT] a u))

/-- The PMS rows: an entry queues, starts, moves its words and completes; both FIFOs are read and written by their
registers; a slave gives and takes a word at a time, and a select that ends inside a word says after how many bits. -/
def Sys2Proof.Machine.Part.PortRows : Prop :=
  ∀ (s : State) (t : Tick) (m : Master) (q : Fin 4) (v w : Word) (ans : List Word) (n : Fin 33) (e : PmsEntry)
      (r : PmsRun), let a := s.advance t
    let others (u : State) : Prop := ∀ p, p ≠ q → u.pms p = a.pms p
    let got := lowBits (a.get (F.SER_PMSCFG_SWLEN q) + 1) v
    (a.takes m (A.SER_PMSQ q) = true →
      (a.pmsTaken q = false → (0 < (pmsEntry v).ntx ∨ 0 < (pmsEntry v).nrx) →
          ((pmsEntry v).lanes = 0 → (pmsEntry v).nrx = 0) →
          ((pmsEntry v).lanes = 3 → q.val % 2 = 0 ∧ a.bit (F.SER_PMSCFG_PAIR q) = true) → (a.pms q).queue.length < 16 →
        a.inTurn (.pmsQueueEntry t m q v) = true → ∃ u : State, exec (.pmsQueueEntry t m q v) s = .next (u.yokCheck.after a (.pmsQueueEntry t m q v))
          ∧ u.pms q = { a.pms q with queue := (a.pms q).queue ++ [pmsEntry v] } ∧ others u
          ∧ u.get (F.SER_PMSSTAT_QLVL q) = (a.pms q).queue.length + 1 ∧ RegsBut [A.SER_PMSSTAT q, A.EVT_TAGHWM] a u)
      ∧ ((a.pmsTaken q = true ∨ 16 ≤ (a.pms q).queue.length ∨ ((pmsEntry v).lanes = 0 ∧ 0 < (pmsEntry v).nrx)) →
        a.inTurn (.pmsQueueEntry t m q v) = true → ∃ u : State, exec (.pmsQueueEntry t m q v) s = .next (u.yokCheck.after a (.pmsQueueEntry t m q v)) ∧ u.ser = a.ser
          ∧ u.get (F.SER_PMSSTAT_QERR q) = 1 ∧ RegsBut [A.SER_PMSSTAT q, A.EVT_TAGHWM] a u))
    ∧ (a.takes m (A.SER_PMSTX q) = true → (a.pms q).run = none → (a.pms q).tx.length < 64 →
      a.inTurn (.pmsTxWrite t m q v) = true → ∃ u : State, exec (.pmsTxWrite t m q v) s = .next (u.yokCheck.after a (.pmsTxWrite t m q v))
        ∧ u.pms q = { a.pms q with tx := (a.pms q).tx ++ [v] } ∧ others u
        ∧ u.get (F.SER_PMSSTAT_TXLVL q) = (a.pms q).tx.length + 1 ∧ RegsBut [A.SER_PMSSTAT q, A.EVT_TAGHWM] a u)
    ∧ (a.mayReach m false (A.SER_PMSRX q) = true → (a.pms q).run = none →
      (∀ x l, (a.pms q).rx = x :: l → a.inTurn (.pmsRxRead t m q) = true → ∃ u : State, exec (.pmsRxRead t m q) s = .next (u.yokCheck.after a (.pmsRxRead t m q))
          ∧ u.lastRead[m.reader] = x ∧ u.pms q = { a.pms q with rx := l } ∧ others u)
      ∧ ((a.pms q).rx = [] → a.inTurn (.pmsRxRead t m q) = true → ∃ u : State, exec (.pmsRxRead t m q) s = .next (u.yokCheck.after a (.pmsRxRead t m q)) ∧ u.lastRead[m.reader] = 0
          ∧ u.get (F.SER_PMSSTAT_RXUNF q) = 1 ∧ u.ser = a.ser))
    ∧ (a.clkOn = true → a.bit (F.SER_PMSCFG_EN q) = true → a.pmsTaken q = false →
      (a.pmsSlave q = false → (a.pms q).run = none → (a.pms q).queue = [e] → e.lanes = 0 → e.wbits = 32 → e.ntx = 2 →
          e.nrx = 0 → (a.pms q).tx = [v, w] → (a.pms q).rx = [] → ans.length = 2 →
        a.inTurn (.pmsEntryStart t q ans) = true → ∃ u : State, exec (.pmsEntryStart t q ans) s = .next (u.yokCheck.after a (.pmsEntryStart t q ans)) ∧ u.get (F.SER_PMSSTAT_BUSY q) = 1
          ∧ u.pms q = { a.pms q with queue := [], run := some ⟨e, [v, w], 0, []⟩, tx := [], rx := ans } ∧ others u)
      ∧ (a.pmsSlave q = true →
        (∀ c x l, (a.pms q).cur = some c → (a.pms q).tx = x :: l → (a.pms q).rx.length < 64 →
          a.inTurn (.pmsSlaveWord t q v) = true → ∃ u : State, exec (.pmsSlaveWord t q v) s = .next (u.yokCheck.after a (.pmsSlaveWord t q v)) ∧ u.get (F.SER_PMSSTAT_SLVSEL q) = 1
            ∧ u.pms q = { a.pms q with cur := some x, tx := l, rx := (a.pms q).rx ++ [got] } ∧ others u)
        ∧ (0 < n.val → n.val ≤ a.get (F.SER_PMSCFG_SWLEN q) → (a.pms q).cur.isSome = true → (a.pms q).rx.length < 64 →
          a.inTurn (.pmsSlaveRelease t q n v) = true → ∃ u : State, exec (.pmsSlaveRelease t q n v) s = .next (u.yokCheck.after a (.pmsSlaveRelease t q n v)) ∧ u.get (F.SER_PMSSTAT_SLVSEL q) = 0
            ∧ u.get (F.SER_PMSSTAT_ODDREL q) = 1 ∧ u.get (F.SER_PMSODD_BITS q) = n.val
            ∧ u.pms q = { a.pms q with cur := none, rx := (a.pms q).rx ++ [lowBits n v] } ∧ others u)))
    ∧ (a.clkOn = true → (a.pms q).run = some r → r.complete = true →
      a.inTurn (.pmsEntryDone t q) = true → ∃ u : State, exec (.pmsEntryDone t q) s = .next (u.yokCheck.after a (.pmsEntryDone t q)) ∧ u.pms q = { a.pms q with run := none }
        ∧ u.get (F.SER_PMSSTAT_DONE q) = 1 ∧ others u ∧ RegsBut [A.SER_PMSSTAT q] a u)

/-- The interrupt request of a peripheral port (R434). -/
def Sys2Proof.Machine.Part.PortRequest : Prop :=
  ∀ (s : State) (q : Fin 4), s.pmsIrq q = true ↔
    (s.bit (F.SER_PMSCFG_IEDONE q) = true ∧ s.bit (F.SER_PMSSTAT_DONE q) = true)
      ∨ (s.bit (F.SER_PMSCFG_IERX q) = true ∧ 32 ≤ s.get (F.SER_PMSSTAT_RXLVL q))
      ∨ (s.bit (F.SER_PMSCFG_IEERR q) = true ∧ (s.bit (F.SER_PMSSTAT_ODDREL q) = true ∨ s.bit (F.SER_PMSSTAT_QERR q) = true
          ∨ s.bit (F.SER_PMSSTAT_TXUNF q) = true ∨ s.bit (F.SER_PMSSTAT_RXOVF q) = true ∨ s.bit (F.SER_PMSSTAT_RXUNF q) = true))

/-- The peripheral ports and their interrupt requests. -/
def Obligations.PeripheralPorts : Prop :=
  Part.PortRows ∧ Part.PortRequest

namespace Sys2Proof.Machine

/-- The reply to the last frame: its status bits 7 to 3, address and data; in pipelined mode it is loaded at once. -/
def Replies (a u : State) (stat addr : Nat) (d : Word) : Prop :=
  u.ser.svc.stat = stat ∧ u.ser.svc.addr = addr ∧ u.ser.svc.data = d
    ∧ (a.svcMode = mdSELECTED → u.ser.svc.shift = u.svcReply)

end Sys2Proof.Machine

/-- SVC_SELECT_START and SVC_SELECT_END: a select fixes the mode and loads the reply; its end takes the last 72 bits in chain
mode, discards them without a good CRC, and disarms the port. -/
def Sys2Proof.Machine.Part.ServiceSelects : Prop :=
  ∀ (s : State) (t : Tick) (byp : Bool) (k : Nat) (b : BitVec 72) (ext : Word), let a := s.advance t
    let mode := if a.ser.svc.selNext then 1 else if byp then 2 else 0
    let ended (u : State) : Prop := u.ser.svc.sel = false ∧ u.svcMode = mdCHAIN ∧ u.svcArmed = false
    let good := crc8 64 (b.toNat / 256) = b.toNat % 256
    a.svcOn = true → a.ser.svc.pend = none →
      (a.ser.svc.sel = false →
        a.inTurn (.svcSelectStart t byp) = true → ∃ u : State, exec (.svcSelectStart t byp) s = .next (u.yokCheck.after a (.svcSelectStart t byp)) ∧ u.svcMode = mode
          ∧ u.ser.svc = { a.ser.svc with sel := true, selNext := false, shift := u.svcReply }
          ∧ RegsBut [A.SER_SVCSTAT] a u)
      ∧ (a.ser.svc.sel = true →
        ((a.svcMode = mdBYPASS ∨ (a.svcMode = mdSELECTED ∧ k = 0)) →
          a.inTurn (.svcSelectEnd t k b ext) = true → ∃ u : State, exec (.svcSelectEnd t k b ext) s = .next (u.yokCheck.after a (.svcSelectEnd t k b ext)) ∧ ended u
            ∧ u.ser = { a.ser with svc := { a.ser.svc with sel := false } } ∧ RegsBut [A.SER_SVCSTAT] a u)
        ∧ (a.svcMode = mdCHAIN → 72 ≤ k →
          (¬ good → a.inTurn (.svcSelectEnd t k b ext) = true → ∃ u : State, exec (.svcSelectEnd t k b ext) s = .next (u.yokCheck.after a (.svcSelectEnd t k b ext)) ∧ ended u
            ∧ u.ser.svc = { a.ser.svc with sel := false, stat := 128, addr := 0, data := 0 }
            ∧ u.get F.SER_SVCCNT_CRCERR = min 255 (a.get F.SER_SVCCNT_CRCERR + 1)
            ∧ RegsBut [A.SER_SVCSTAT, A.SER_SVCCNT] a u)
          ∧ (good → b.toNat / 2 ^ 64 = 0xC0 →
            a.inTurn (.svcSelectEnd t k b ext) = true → ∃ u : State, exec (.svcSelectEnd t k b ext) s = .next (u.yokCheck.after a (.svcSelectEnd t k b ext)) ∧ ended u
              ∧ u.ser.svc = { a.ser.svc with sel := false, selNext := true, stat := 0, addr := 0, data := 0 }
              ∧ RegsBut [A.SER_SVCSTAT] a u)))

/-- SVC_NOP, SVC_SELECT, SVC_ARM, SVC_READ, SVC_READ_NEXT, SVC_WRITE and SVC_WRITE_NEXT in either mode: READ and WRITE set
the pointer, the _NEXT commands move it on by 4 and refuse at the end of its page; a privileged access without an armed
port is discarded and counted; a write without a free tag waits. -/
def Sys2Proof.Machine.Part.ServiceFrames : Prop :=
  ∀ (s : State) (t : Tick) (p : Fin 8) (k : Fin 4) (ad : BitVec 24) (v ext : Word), let a := s.advance t
    let x := A.FBK_CMPINC p k
    let at_ := ad.toNat / 4 * 4
    let next := a.get F.SER_SVCSTAT_PTR + 4 = x ∧ a.svcAtEnd = false ∧ a.ser.svc.ptrSet = true
    let points (u : State) (n : Nat) : Prop := u.get F.SER_SVCSTAT_PTR = n
    let atEnd (u : State) : Prop := Replies a u 64 (a.get F.SER_SVCSTAT_PTR) 0 ∧ u.get F.SER_SVCSTAT_SAT = 1
      ∧ points u (a.get F.SER_SVCSTAT_PTR) ∧ u.get F.SER_SVCCNT_OVR = min 255 (a.get F.SER_SVCCNT_OVR + 1)
      ∧ RegsBut [A.SER_SVCSTAT, A.SER_SVCCNT] a u
    a.svcOn = true → a.svcMode ≠ mdBYPASS → a.ser.svc.pend = none →
      (a.inTurn (.svcNop t) = true → ∃ u : State, exec (.svcNop t) s = .next (u.yokCheck.after a (.svcNop t)) ∧ Replies a u 0 0 0 ∧ u.regs = a.regs)
      ∧ (a.svcMode = mdCHAIN → a.inTurn (.svcSelect t) = true → ∃ u : State, exec (.svcSelect t) s = .next (u.yokCheck.after a (.svcSelect t)) ∧ Replies a u 0 0 0
          ∧ u.ser.svc.selNext = true ∧ u.regs = a.regs)
      ∧ (a.svcMode = mdSELECTED →
        (a.inTurn (.svcArm t v) = true → ∃ u : State, exec (.svcArm t v) s = .next (u.yokCheck.after a (.svcArm t v)) ∧ Replies a u 0 0 0
          ∧ u.svcArmed = (a.svcArmed || v == 0x5A3CC3A5) ∧ RegsBut [A.SER_SVCSTAT] a u)
        ∧ (a.inTurn (.svcSelect t) = true → ∃ u : State, exec (.svcSelect t) s = .next (u.yokCheck.after a (.svcSelect t)) ∧ Replies a u 8 0 0 ∧ u.regs = a.regs))
      ∧ (a.svcDenied false at_ = true →
        a.inTurn (.svcRead t ad ext) = true → ∃ u : State, exec (.svcRead t ad ext) s = .next (u.yokCheck.after a (.svcRead t ad ext)) ∧ Replies a u 32 at_ 0
          ∧ u.get F.SER_SVCCNT_PRIV = min 255 (a.get F.SER_SVCCNT_PRIV + 1) ∧ RegsBut [A.SER_SVCCNT] a u)
      ∧ (a.svcDenied true at_ = true →
        a.inTurn (.svcWrite t ad v) = true → ∃ u : State, exec (.svcWrite t ad v) s = .next (u.yokCheck.after a (.svcWrite t ad v)) ∧ Replies a u 32 at_ 0
          ∧ u.get F.SER_SVCCNT_PRIV = min 255 (a.get F.SER_SVCCNT_PRIV + 1) ∧ RegsBut [A.SER_SVCCNT] a u)
      ∧ (a.load.locked = true →
        (a.inTurn (.svcRead t (BitVec.ofNat 24 x) ext) = true → ∃ u : State, exec (.svcRead t (BitVec.ofNat 24 x) ext) s = .next (u.yokCheck.after a (.svcRead t (BitVec.ofNat 24 x) ext)) ∧ Replies a u 0 x (a.rd x)
          ∧ points u x ∧ u.get F.SER_SVCSTAT_SAT = 0 ∧ u.lastRead[2] = a.rd x)
        ∧ (next → a.inTurn (.svcReadNext t ext) = true → ∃ u : State, exec (.svcReadNext t ext) s = .next (u.yokCheck.after a (.svcReadNext t ext)) ∧ Replies a u 0 x (a.rd x) ∧ points u x))
      ∧ (a.ser.svc.ptrSet = true → a.svcAtEnd = true →
        (a.inTurn (.svcReadNext t ext) = true → ∃ u : State, exec (.svcReadNext t ext) s = .next (u.yokCheck.after a (.svcReadNext t ext)) ∧ atEnd u)
        ∧ (a.inTurn (.svcWriteNext t v) = true → ∃ u : State, exec (.svcWriteNext t v) s = .next (u.yokCheck.after a (.svcWriteNext t v)) ∧ atEnd u))
      ∧ (a.takes .svc x = true →
        (a.inTurn (.svcWrite t (BitVec.ofNat 24 x) v) = true → ∃ u : State, exec (.svcWrite t (BitVec.ofNat 24 x) v) s = .next (u.yokCheck.after a (.svcWrite t (BitVec.ofNat 24 x) v)) ∧ Replies a u 0 x v ∧ points u x
          ∧ u.rd x = v ∧ RegsBut [x, A.SER_SVCSTAT, A.EVT_TAGHWM] a u)
        ∧ (next → a.inTurn (.svcWriteNext t v) = true → ∃ u : State, exec (.svcWriteNext t v) s = .next (u.yokCheck.after a (.svcWriteNext t v)) ∧ Replies a u 0 x v ∧ points u x
          ∧ u.rd x = v ∧ RegsBut [x, A.SER_SVCSTAT, A.EVT_TAGHWM] a u))
      ∧ (a.svcMay true x = true → a.tagFree = false →
        a.inTurn (.svcWrite t (BitVec.ofNat 24 x) v) = true → ∃ u : State, exec (.svcWrite t (BitVec.ofNat 24 x) v) s = .next (u.yokCheck.after a (.svcWrite t (BitVec.ofNat 24 x) v)) ∧ u.ser.svc.pend = some (x, v)
          ∧ u.stalled = a.stalled ++ [.svc] ∧ u.rd x = a.rd x)

/-- Selects and frames of the service port. -/
def Obligations.ServicePort : Prop :=
  Part.ServiceSelects ∧ Part.ServiceFrames

/-- HK_SLOT: the slot's result is shown; a die sensor keeps its reading for the evaluation, a supply outside its band is
recorded, and a feed's voltage is formed. -/
def Sys2Proof.Machine.Part.HousekeepingSlots : Prop :=
  ∀ (s : State) (t : Tick) (ch : Fin 64) (code : BitVec 12) (temp : Int) (flag out : Bool), let a := s.advance t
    let shown (u : State) : Prop := u.get (F.HKP_CH_CODE ch) = code.toNat ∧ u.get (F.HKP_CH_DONE ch) = 1
    let mv : Int := 125 * code.toNat - 256000
    a.slotDue ch = true →
      (∀ i : Fin 16, i.val = ch.val →
        a.inTurn (.hkSlot t ch code temp flag out) = true → ∃ u : State, exec (.hkSlot t ch code temp flag out) s = .next (u.yokCheck.after a (.hkSlot t ch code temp flag out)) ∧ shown u
          ∧ (u.hk.ts[i]).reading = some temp ∧ (u.hk.ts[i]).flagged = flag ∧ (∀ j, j ≠ i → u.hk.ts[j] = a.hk.ts[j])
          ∧ RegsBut [A.HKP_CH ch] a u)
      ∧ (∀ k : Fin 5, k.val + 16 = ch.val →
        (out = false → a.inTurn (.hkSlot t ch code temp flag out) = true → ∃ u : State, exec (.hkSlot t ch code temp flag out) s = .next (u.yokCheck.after a (.hkSlot t ch code temp flag out)) ∧ shown u
          ∧ u = { a with regs := u.regs, same := u.same } ∧ RegsBut [A.HKP_CH ch] a u)
        ∧ (out = true → a.hk.vddAt[k] = none →
          a.inTurn (.hkSlot t ch code temp flag out) = true → ∃ u : State, exec (.hkSlot t ch code temp flag out) s = .next (u.yokCheck.after a (.hkSlot t ch code temp flag out)) ∧ shown u ∧ NewestFault u 0x0B06 k
            ∧ RegsBut (A.HKP_CH ch :: evtWords) a u))
      ∧ (∀ b : Bool, ch.val = (if b then 22 else 21) →
        a.inTurn (.hkSlot t ch code temp flag out) = true → ∃ (u : State) (d : Int), exec (.hkSlot t ch code temp flag out) s = .next (u.yokCheck.after a (.hkSlot t ch code temp flag out)) ∧ shown u
          ∧ (d = 0 ∨ (d = 1 ∧ mv % 64 ≠ 0)) ∧ u.getI (if b then F.HKP_FEEDV_VB else F.HKP_FEEDV_VA) = mv / 64 + d
          ∧ u.get (if b then F.HKP_FEEDV_VA else F.HKP_FEEDV_VB) = a.get (if b then F.HKP_FEEDV_VA else F.HKP_FEEDV_VB)
          ∧ RegsBut [A.HKP_CH ch, A.HKP_FEEDV] a u)
      ∧ (22 < ch.val →
        a.inTurn (.hkSlot t ch code temp flag out) = true → ∃ u : State, exec (.hkSlot t ch code temp flag out) s = .next (u.yokCheck.after a (.hkSlot t ch code temp flag out)) ∧ shown u ∧ u = { a with regs := u.regs, same := u.same }
          ∧ RegsBut [A.HKP_CH ch] a u)

/-- HK_EVALUATION: the hottest sensor gives the temperature; warning and throttle level follow it; at the shut-down
threshold every team stops and the flash port closes; an implausible reading loses its sensor. -/
def Sys2Proof.Machine.Part.HousekeepingEvaluation : Prop :=
  ∀ (s : State) (t : Tick) (r : Fin 16 → Int), let a := s.advance t
    let low := a.getI F.HKP_THTHR_TEMP - (a.get F.HKP_THCFG_HYS : Int)
    a.tim.pll = true → a.now = a.hk.roundAt + 16 * slotTicks → (∀ i : Fin 16, (a.hk.ts[i]).reading = some (r i)) →
      ((∀ i : Fin 16, (a.hk.ts[i]).lost = false ∧ (a.hk.ts[i]).plausible (r i) (a.get F.HKP_TSCFG_JUMP) = true) →
          a.bit F.HKP_STAT_VALID = true → a.hk.shut = none →
        a.inTurn (.hkEvaluation t) = true → ∃ (u : State) (i : Fin 16), exec (.hkEvaluation t) s = .next (u.yokCheck.after a (.hkEvaluation t)) ∧ u.getI F.HKP_TMAX_TEMP = r i
          ∧ u.get F.HKP_TMAX_SENSOR = i.val ∧ (∀ j, r j ≤ r i) ∧ u.get F.HKP_TSSTAT_NVALID = 16
          ∧ (a.getI F.HKP_THWARN_TEMP ≤ r i → u.get F.HKP_THSTAT_WARN = 1)
          ∧ (a.getI F.HKP_THTHR_TEMP + 2 * (a.get F.HKP_THCFG_STEP : Int) ≤ r i → u.get F.HKP_THSTAT_LEVEL = 3)
          ∧ (a.hk.tRecov = none → r i < low → u.get F.HKP_THSTAT_LEVEL = 0)
          ∧ (a.getI F.HKP_THSHD_TEMP ≤ r i → u.allStopped ∧ u.ser.closed = true ∧ u.ser.queue = []
              ∧ u.shutRec = ⟨true, false, 0, a.tim.dev, 0, 0⟩ ∧ ∃ x, u.hk.shut = some x ∧ x.td = a.now)
          ∧ (r i < a.getI F.HKP_THSHD_TEMP → u.hk.shut = none ∧ u.shutRec = a.shutRec ∧ u.ser = a.ser))
      ∧ ∀ i : Fin 16, (a.hk.ts[i]).lost = false → (a.hk.ts[i]).plausible (r i) (a.get F.HKP_TSCFG_JUMP) = false →
          0 < a.get F.HKP_TSCFG_RECN →
        a.inTurn (.hkEvaluation t) = true → ∃ u : State, exec (.hkEvaluation t) s = .next (u.yokCheck.after a (.hkEvaluation t)) ∧ (u.hk.ts[i]).lost = true
          ∧ u.get (F.HKP_TS_SUB i) = 1 ∧ u.get (F.HKP_TS_VALID i) = 0

/-- Slots and the evaluation of the round. -/
def Obligations.HousekeepingRounds : Prop :=
  Part.HousekeepingSlots ∧ Part.HousekeepingEvaluation

/-- SHUTDOWN_GRACE_EXPIRY and SHUTDOWN_CLOCK_STOP: the flash operation that outlasts the grace is abandoned and recorded;
then the clocks stop with every gate low. -/
def Sys2Proof.Machine.Part.ShutdownSteps : Prop :=
  ∀ (s : State) (t : Tick) (x : ShutSt), let a := s.advance t
    a.hk.shut = some x →
      (∀ r, a.ser.run = some r → x.td + a.get F.HKP_SHDCFG_GRACE * 156250 ≤ a.now →
        a.inTurn (.shutdownGraceExpiry t) = true → ∃ u : State, exec (.shutdownGraceExpiry t) s = .next (u.yokCheck.after a (.shutdownGraceExpiry t)) ∧ u.ser.run = none
          ∧ u.get F.SER_FLSSTAT_ABORT = 1 ∧ NewestFault u 0x0F06 r.op.range.1
          ∧ u.shutRec = { a.shutRec with aborted := true, abortAt := a.tim.dev, abortAddr := r.op.range.1 })
      ∧ (a.tim.stopped = false → x.td + 4096 ≤ a.now → a.ser.run = none → (x.aborted = true → x.flashEnd ≤ a.now) →
        a.inTurn (.shutdownClockStop t) = true → ∃ u : State, exec (.shutdownClockStop t) s = .next (u.yokCheck.yokCheck.after a (.shutdownClockStop t)) ∧ u.tim.stopped = true
          ∧ u.tim.linksIdle = true ∧ u.allLow ∧ u.get F.YOK_STAT_ACTOUT = 0 ∧ RegsBut [A.YOK_STAT] a u)

namespace Sys2Proof.Machine

/-- The feed that a flag names, as the live one. -/
def liveOf (b : Bool) : Live := if b then .b else .a

/-- EN of a feed. -/
def State.enOf (s : State) (b : Bool) : Bool := if b then s.hk.enB else s.hk.enA

end Sys2Proof.Machine

/-- FEED_CONDITION, FEED_OVERLAP_END, FEED_HEALTHY and FEED_REVERT: the other feed takes over, with an overlap at
under-voltage and at once at over-voltage; a feed free of conditions for 10 ms is healthy; and the preferred feed returns. -/
def Sys2Proof.Machine.Part.CabinetFeeds : Prop :=
  ∀ (s : State) (t : Tick) (b : Bool) (c : FeedCond), let a := s.advance t
    let o := !b
    let swapped (u : State) (n det : Nat) : Prop := u.hk.live = liveOf o ∧ u.enOf o = true
      ∧ u.get F.HKP_FEEDSTAT_CHGCNT = (a.get F.HKP_FEEDSTAT_CHGCNT + 1) % 65536 ∧ NewestFault u 0x0B04 (n + det * 256)
      ∧ RegsBut (A.HKP_FEEDSTAT :: A.EVT_TAGHWM :: A.EVT_BPCNT :: evtWords) a u
    let pref := a.bit F.HKP_FEEDCFG_PREF
    let ovl := a.now + (a.get F.HKP_FEEDCFG_OVL * 625 + 1) / 2
    (a.inTurn (.feedCondition t b c false) = true → ∃ u : State, exec (.feedCondition t b c false) s = .next (u.yokCheck.after a (.feedCondition t b c false)) ∧ u.hk.live = a.hk.live ∧ u.enOf b = a.enOf b
        ∧ u.enOf o = a.enOf o ∧ u.feed o = a.feed o ∧ RegsBut [A.HKP_FEEDSTAT, A.EVT_TAGHWM, A.EVT_BPCNT] a u
        ∧ (match c with
            | .uv => (u.feed b).uv = false
            | .ov => (u.feed b).ov = false
            | .rev => (u.feed b).rev = false))
    ∧ (a.hk.feedsOn = true → a.hk.live = liveOf b → (a.feed o).healthy = true → (a.feed o).bad = false →
      (a.inTurn (.feedCondition t b .uv true) = true → ∃ u : State, exec (.feedCondition t b .uv true) s = .next (u.yokCheck.after a (.feedCondition t b .uv true)) ∧ swapped u (b2n o) 1 ∧ u.enOf b = a.enOf b
        ∧ u.hk.ovlEnd = some (ovl, b))
      ∧ (c ≠ .uv → a.inTurn (.feedCondition t b c true) = true → ∃ u : State, exec (.feedCondition t b c true) s = .next (u.yokCheck.after a (.feedCondition t b c true))
        ∧ swapped u (b2n o) (match c with | .uv => 1 | .ov => 2 | .rev => 3) ∧ u.enOf b = false ∧ u.hk.ovlEnd = none))
    ∧ (a.hk.feedsOn = true → a.hk.live = liveOf b → (a.feed o).healthy = false → c ≠ .uv →
      a.inTurn (.feedCondition t b c true) = true → ∃ u : State, exec (.feedCondition t b c true) s = .next (u.yokCheck.after a (.feedCondition t b c true)) ∧ u.enOf b = false ∧ u.hk.live = a.hk.live
        ∧ NewestFault u 0x0B05 0)
    ∧ (∀ t0, a.hk.ovlEnd = some (t0, b) → t0 ≤ a.now →
      a.inTurn (.feedOverlapEnd t) = true → ∃ u : State, exec (.feedOverlapEnd t) s = .next (u.yokCheck.after a (.feedOverlapEnd t)) ∧ u.enOf b = false ∧ u.enOf o = a.enOf o
        ∧ u.hk.ovlEnd = none ∧ RegsBut [A.HKP_FEEDSTAT] a u)
    ∧ ((a.feed b).free = true → (a.feed b).healthy = false → (a.feed b).freeAt + 3125000 ≤ a.now →
      a.inTurn (.feedHealthy t b) = true → ∃ u : State, exec (.feedHealthy t b) s = .next (u.yokCheck.after a (.feedHealthy t b)) ∧ (u.feed b).healthy = true
        ∧ (u.feed b).healthyAt = a.now ∧ u.feed o = a.feed o ∧ RegsBut [A.HKP_FEEDSTAT] a u)
    ∧ (a.bit F.HKP_FEEDCFG_REVERT = true → a.hk.feedsOn = true → pref = o → a.hk.live = liveOf b →
        (a.feed o).healthy = true → (a.feed o).bad = false → (a.feed o).healthyAt + 312500000 ≤ a.now →
      a.inTurn (.feedRevert t) = true → ∃ u : State, exec (.feedRevert t) s = .next (u.yokCheck.after a (.feedRevert t)) ∧ swapped u (b2n o) 0 ∧ u.hk.ovlEnd = some (ovl, b))

/-- Thermal shut-down and cabinet feeds. -/
def Obligations.ShutdownAndFeeds : Prop :=
  Part.ShutdownSteps ∧ Part.CabinetFeeds

/-- LOG_WRITE, JOURNAL_COMMIT and JOURNAL_SCAN: a record queues for the journal; a write whose read-back agrees commits the
oldest one and moves the sequence on, another one takes a slot and is counted; the scan finds the newest record. -/
def Obligations.FaultLog : Prop :=
  ∀ (s : State) (t : Tick) (m : Master) (v : Word) (r : FaultRec) (rest : List FaultRec) (e : JEntry) (b : Fin 128),
    let a := s.advance t
    let who := match m with | .supA => 1 | .supB => 2 | .svc => 0
    let new : FaultRec := ⟨v.toNat % 65536, a.rd A.EVT_LOGWRCTX, a.tim.dev, who⟩
    let seq := a.get F.EVT_LOGSEQ_SEQ
    (a.takes m A.EVT_LOGWR = true →
      a.inTurn (.logWrite t m v) = true → ∃ u : State, exec (.logWrite t m v) s = .next (u.yokCheck.after a (.logWrite t m v)) ∧ NewestFault u (v.toNat % 65536) (a.rd A.EVT_LOGWRCTX).toNat
        ∧ (a.jrn.queue.length < 64 → u.jrn = { a.jrn with queue := a.jrn.queue ++ [new] })
        ∧ (64 ≤ a.jrn.queue.length → u.jrn = a.jrn
            ∧ u.get F.EVT_LOGCNT_DROP = min 65535 (a.get F.EVT_LOGCNT_DROP + 1))
        ∧ RegsBut (A.EVT_TAGHWM :: evtWords) a u)
    ∧ (a.clkOn = true → a.jrn.queue = r :: rest → a.jrnBusy = true →
      (a.jrn.slot < 127 → 1 < a.jrnSectors → a.jrn.sector < a.jrnSectors →
        a.inTurn (.journalCommit t true) = true → ∃ u : State, exec (.journalCommit t true) s = .next (u.yokCheck.after a (.journalCommit t true)) ∧ u.jrn.queue = rest
          ∧ ⟨a.jrn.sector, a.jrn.slot, seq, r⟩ ∈ u.jrn.log ∧ u.get F.EVT_LOGSEQ_SEQ = (seq + 1) % 2 ^ 32
          ∧ u.jrn.slot = a.jrn.slot + 1 ∧ u.jrn.sector = a.jrn.sector
          ∧ (∀ x ∈ u.jrn.log, x.sector ≠ (a.jrn.sector + 1) % a.jrnSectors)
          ∧ RegsBut [A.EVT_LOGSTAT, A.EVT_LOGSEQ, A.SER_FLSCNT] a u)
      ∧ (0 < a.jrn.slot → a.jrn.slot < 127 →
        a.inTurn (.journalCommit t false) = true → ∃ u : State, exec (.journalCommit t false) s = .next (u.yokCheck.after a (.journalCommit t false)) ∧ u.jrn = { a.jrn with slot := a.jrn.slot + 1 }
          ∧ u.get F.EVT_LOGCNT_RETRY = min 65535 (a.get F.EVT_LOGCNT_RETRY + 1) ∧ u.get F.EVT_LOGSEQ_SEQ = seq))
    ∧ (a.clkOn = true → a.bit F.EVT_LOGSTAT_SCAN = true →
      (a.inTurn (.journalScan t [] none) = true → ∃ u : State, exec (.journalScan t [] none) s = .next (u.yokCheck.after a (.journalScan t [] none)) ∧ u.jrn.ready = true ∧ u.jrn.log = []
        ∧ u.jrn.sector = 0 ∧ u.jrn.slot = 0 ∧ u.rd A.EVT_LOGSEQ = 0 ∧ u.bit F.EVT_LOGSTAT_SCAN = false)
      ∧ (1 < a.jrnSectors → e.sector < a.jrnSectors →
        a.inTurn (.journalScan t [e] (some b)) = true → ∃ u : State, exec (.journalScan t [e] (some b)) s = .next (u.yokCheck.after a (.journalScan t [e] (some b))) ∧ u.jrn.ready = true ∧ u.jrn.log = [e]
          ∧ u.jrn.sector = e.sector ∧ u.jrn.slot = b ∧ u.rd A.EVT_LOGSEQ = BitVec.ofNat 32 (e.seq + 1)
          ∧ u.jrn.queue = a.jrn.queue))

/-- At reset every store of words is in its canonical form and holds nothing. -/
def Obligations.ResetCanonical : Prop :=
  State.reset.canon = true ∧ (∀ x, State.reset.rd x = regReset x) ∧ (∀ k, State.reset.memGet k = 0)
    ∧ State.reset.pending = []

/-- Every step keeps the canonical form of the stores of words: equal contents are equal data, whatever ran before. -/
def Obligations.StepsKeepCanonical : Prop :=
  ∀ s u : State, s.canon = true → step s = .next u → u.canon = true
end

