-- ==== Sys2Proof/Laws/Cells.lean ====
section
/-!
SUPPORT. Laws of the sparse store of words and of the bit fields of a word: read after write, and the canonical form.
-/
namespace Sys2Proof.Machine

/-! ## Read after write -/

theorem cellsGet_put_same (d : Nat → Word) (c : Cells) (a : Nat) (w : Word) : cellsGet d (cellsPut c a w) a = w := by
  induction c with
  | nil => simp [cellsPut, cellsGet]
  | cons p r ih =>
    obtain ⟨k, v⟩ := p
    simp only [cellsPut]
    split
    · simp [cellsGet]
    · split
      · simp [cellsGet]
      · simp [cellsGet, *]

theorem cellsGet_put_ne (d : Nat → Word) (c : Cells) {a b : Nat} (w : Word) (h : b ≠ a) :
    cellsGet d (cellsPut c a w) b = cellsGet d c b := by
  induction c with
  | nil => simp [cellsPut, cellsGet, h.symm]
  | cons p r ih =>
    obtain ⟨k, v⟩ := p
    simp only [cellsPut]
    split
    · subst_vars; simp [cellsGet, h.symm]
    · split
      · simp [cellsGet, h.symm]
      · simp [cellsGet, ih]

theorem cellsGet_drop_same (d : Nat → Word) (c : Cells) (a : Nat) :
    cellsGet d (c.filter (fun p => p.1 ≠ a)) a = d a := by
  induction c with
  | nil => rfl
  | cons p r ih =>
    obtain ⟨k, v⟩ := p
    by_cases h : k = a
    · simpa [List.filter, h] using ih
    · simpa [List.filter, h, cellsGet] using ih

theorem cellsGet_drop_ne (d : Nat → Word) (c : Cells) {a b : Nat} (h : b ≠ a) :
    cellsGet d (c.filter (fun p => p.1 ≠ a)) b = cellsGet d c b := by
  induction c with
  | nil => rfl
  | cons p r ih =>
    obtain ⟨k, v⟩ := p
    by_cases hk : k = a
    · subst hk; simpa [List.filter, cellsGet, h.symm] using ih
    · simp only [List.filter, ne_eq, hk, not_false_eq_true, decide_true, cellsGet]
      split
      · rfl
      · simpa using ih

/-- A word reads back as written. -/
@[simp] theorem cellsGet_set_same (d : Nat → Word) (c : Cells) (a : Nat) (w : Word) : cellsGet d (cellsSet d c a w) a = w := by
  unfold cellsSet
  split
  · rw [cellsGet_drop_same]; exact Eq.symm ‹_›
  · exact cellsGet_put_same d c a w

/-- A write leaves every other word as it was. -/
theorem cellsGet_set_ne (d : Nat → Word) (c : Cells) {a b : Nat} (w : Word) (h : b ≠ a) :
    cellsGet d (cellsSet d c a w) b = cellsGet d c b := by
  unfold cellsSet
  split
  · exact cellsGet_drop_ne d c h
  · exact cellsGet_put_ne d c w h

/-! ## The canonical form -/

/-- Every key of a store lies above `k`. -/
def cellsAbove (k : Nat) (c : Cells) : Prop := ∀ p ∈ c, k < p.1

theorem cellsWf_cons (d : Nat → Word) (k : Nat) (w : Word) (r : Cells) :
    cellsWf d ((k, w) :: r) = true ↔ w ≠ d k ∧ cellsAbove k r ∧ cellsWf d r = true := by
  induction r generalizing k w with
  | nil => simp [cellsWf, cellsAbove]
  | cons p r ih =>
    obtain ⟨k', w'⟩ := p
    have hr := ih k' w'
    simp only [cellsWf, Bool.and_eq_true, bne_iff_ne, ne_eq, decide_eq_true_eq] at hr ⊢
    constructor
    · rintro ⟨⟨h1, h2⟩, h3⟩
      obtain ⟨g1, g2, g3⟩ := hr.mp h3
      refine ⟨h1, ?_, h3⟩
      intro p hp
      rcases List.mem_cons.mp hp with rfl | hp
      · exact h2
      · exact lt_trans h2 (g2 p hp)
    · rintro ⟨h1, h2, h3⟩
      exact ⟨⟨h1, h2 _ (List.mem_cons_self ..)⟩, h3⟩

/-- Dropping entries keeps the form. -/
theorem cellsWf_filter (d : Nat → Word) (f : Nat × Word → Bool) (c : Cells) (h : cellsWf d c = true) :
    cellsWf d (c.filter f) = true := by
  induction c with
  | nil => rfl
  | cons p r ih =>
    obtain ⟨k, w⟩ := p
    obtain ⟨h1, h2, h3⟩ := (cellsWf_cons d k w r).mp h
    simp only [List.filter]
    split
    · exact (cellsWf_cons d k w _).mpr ⟨h1, fun p hp => h2 p (List.mem_filter.mp hp).1, ih h3⟩
    · exact ih h3

theorem mem_cellsPut {c : Cells} {a : Nat} {w : Word} {p : Nat × Word} (h : p ∈ cellsPut c a w) : p = (a, w) ∨ p ∈ c := by
  induction c with
  | nil => simpa [cellsPut] using h
  | cons q r ih =>
    obtain ⟨k, v⟩ := q
    simp only [cellsPut] at h
    split at h
    · rcases List.mem_cons.mp h with h | h
      · exact .inl h
      · exact .inr (List.mem_cons_of_mem _ h)
    · split at h
      · rcases List.mem_cons.mp h with h | h
        · exact .inl h
        · exact .inr h
      · rcases List.mem_cons.mp h with h | h
        · exact .inr (h ▸ List.mem_cons_self ..)
        · rcases ih h with h | h
          · exact .inl h
          · exact .inr (List.mem_cons_of_mem _ h)

theorem cellsWf_put (d : Nat → Word) (c : Cells) (a : Nat) (w : Word) (hw : w ≠ d a) (h : cellsWf d c = true) :
    cellsWf d (cellsPut c a w) = true := by
  induction c with
  | nil => simp [cellsPut, cellsWf, hw]
  | cons p r ih =>
    obtain ⟨k, v⟩ := p
    obtain ⟨h1, h2, h3⟩ := (cellsWf_cons d k v r).mp h
    simp only [cellsPut]
    split
    · subst_vars; exact (cellsWf_cons d _ w r).mpr ⟨hw, h2, h3⟩
    · split
      · refine (cellsWf_cons d a w _).mpr ⟨hw, ?_, h⟩
        intro p hp
        rcases List.mem_cons.mp hp with rfl | hp
        · assumption
        · exact lt_trans ‹a < k› (h2 p hp)
      · refine (cellsWf_cons d k v _).mpr ⟨h1, ?_, ih h3⟩
        intro p hp
        rcases mem_cellsPut hp with rfl | hp
        · show k < a; omega
        · exact h2 p hp

/-- A write keeps the form. -/
theorem cellsWf_set (d : Nat → Word) (c : Cells) (a : Nat) (w : Word) (h : cellsWf d c = true) :
    cellsWf d (cellsSet d c a w) = true := by
  unfold cellsSet
  split
  · exact cellsWf_filter d _ c h
  · exact cellsWf_put d c a w ‹_› h

/-! ## Bit fields -/

theorem bitsSet_toNat (w : Word) {lo width : Nat} (v : Nat) (h : lo + width ≤ 32) :
    (bitsSet w lo width v).toNat
      = w.toNat % 2 ^ lo + (v % 2 ^ width) * 2 ^ lo + (w.toNat / 2 ^ (lo + width)) * 2 ^ (lo + width) := by
  rw [bitsSet, BitVec.toNat_ofNat, Nat.mod_eq_of_lt]
  have h1 : w.toNat % 2 ^ lo + (v % 2 ^ width) * 2 ^ lo < 2 ^ (lo + width) := by
    have a : w.toNat % 2 ^ lo < 2 ^ lo := Nat.mod_lt _ (Nat.two_pow_pos lo)
    have b : v % 2 ^ width + 1 ≤ 2 ^ width := Nat.mod_lt _ (Nat.two_pow_pos width)
    calc w.toNat % 2 ^ lo + (v % 2 ^ width) * 2 ^ lo < 2 ^ lo + (v % 2 ^ width) * 2 ^ lo := by omega
      _ = (v % 2 ^ width + 1) * 2 ^ lo := by ring
      _ ≤ 2 ^ width * 2 ^ lo := Nat.mul_le_mul_right _ b
      _ = 2 ^ (lo + width) := by rw [Nat.pow_add, Nat.mul_comm]
  have h2 : w.toNat / 2 ^ (lo + width) + 1 ≤ 2 ^ (32 - (lo + width)) := by
    have : w.toNat < 2 ^ (32 - (lo + width)) * 2 ^ (lo + width) := by
      rw [← Nat.pow_add, Nat.sub_add_cancel h]; exact w.isLt
    exact Nat.div_lt_of_lt_mul (by rwa [Nat.mul_comm])
  calc _ < 2 ^ (lo + width) + (w.toNat / 2 ^ (lo + width)) * 2 ^ (lo + width) := by omega
    _ = (w.toNat / 2 ^ (lo + width) + 1) * 2 ^ (lo + width) := by ring
    _ ≤ 2 ^ (32 - (lo + width)) * 2 ^ (lo + width) := Nat.mul_le_mul_right _ h2
    _ = 2 ^ 32 := by rw [← Nat.pow_add, Nat.sub_add_cancel h]

/-- A bit of a word with a field replaced. -/
theorem bitsSet_testBit (w : Word) {lo width : Nat} (v i : Nat) (h : lo + width ≤ 32) :
    (bitsSet w lo width v).toNat.testBit i
      = if lo ≤ i ∧ i < lo + width then v.testBit (i - lo) else w.toNat.testBit i := by
  rw [bitsSet_toNat w v h]
  have e : w.toNat % 2 ^ lo + (v % 2 ^ width) * 2 ^ lo + (w.toNat / 2 ^ (lo + width)) * 2 ^ (lo + width)
      = 2 ^ (lo + width) * (w.toNat / 2 ^ (lo + width)) + (2 ^ lo * (v % 2 ^ width) + w.toNat % 2 ^ lo) := by ring
  have a : w.toNat % 2 ^ lo < 2 ^ lo := Nat.mod_lt _ (Nat.two_pow_pos lo)
  have b : v % 2 ^ width < 2 ^ width := Nat.mod_lt _ (Nat.two_pow_pos width)
  have c : 2 ^ lo * (v % 2 ^ width) + w.toNat % 2 ^ lo < 2 ^ (lo + width) := by
    rw [Nat.pow_add]
    calc _ < 2 ^ lo * (v % 2 ^ width) + 2 ^ lo := by omega
      _ = 2 ^ lo * (v % 2 ^ width + 1) := by ring
      _ ≤ 2 ^ lo * 2 ^ width := Nat.mul_le_mul_left _ b
  rw [e, Nat.testBit_two_pow_mul_add _ c, Nat.testBit_two_pow_mul_add _ a]
  by_cases h1 : i < lo + width
  · by_cases h2 : i < lo
    · have : ¬ lo ≤ i := by omega
      simp [h1, h2, this, Nat.testBit_mod_two_pow]
    · have h3 : lo ≤ i := by omega
      have : i - lo < width := by omega
      simp [h1, h2, h3, Nat.testBit_mod_two_pow, this]
  · have h2 : lo + width ≤ i := by omega
    simp [h1, Nat.testBit_div_two_pow, Nat.sub_add_cancel h2]

theorem bitsGet_testBit (w : Word) (lo width i : Nat) :
    (bitsGet w lo width).testBit i = (decide (i < width) && w.toNat.testBit (lo + i)) := by
  simp [bitsGet, Nat.testBit_mod_two_pow, Nat.testBit_shiftRight]

/-- A field reads back as written. -/
theorem bitsGet_set_same (w : Word) {lo width : Nat} (v : Nat) (h : lo + width ≤ 32) :
    bitsGet (bitsSet w lo width v) lo width = v % 2 ^ width := by
  apply Nat.eq_of_testBit_eq
  intro i
  rw [bitsGet_testBit, bitsSet_testBit w v _ h, Nat.testBit_mod_two_pow]
  by_cases hi : i < width
  · have h1 : lo ≤ lo + i := by omega
    have h2 : lo + i < lo + width := by omega
    simp [hi]
  · simp [hi]

/-- A write of one field leaves another field of the word as it was. -/
theorem bitsGet_set_ne (w : Word) {lo width : Nat} (v : Nat) {lo' width' : Nat} (h : lo + width ≤ 32)
    (d : lo' + width' ≤ lo ∨ lo + width ≤ lo') :
    bitsGet (bitsSet w lo width v) lo' width' = bitsGet w lo' width' := by
  apply Nat.eq_of_testBit_eq
  intro i
  rw [bitsGet_testBit, bitsGet_testBit, bitsSet_testBit w v _ h]
  by_cases hi : i < width'
  · have : ¬ (lo ≤ lo' + i ∧ lo' + i < lo + width) := by omega
    simp [hi, this]
  · simp [hi]

end Sys2Proof.Machine
end

