-- ==== Sys2Proof/Laws/State.lean ====
section
/-!
SUPPORT. Laws of the state's updates: what each field, register, shadow, staged and memory word is after each update, so
that a proof never unfolds a record update.
-/
namespace Sys2Proof.Machine

variable (s : State) (a b : Nat) (w : Word) (f g : Fld) (v : Nat)
variable (n : Fin 72) (t : Fin 24) (gr : Fin 8) (k : Fin 96) (i : Fin 8) (c : Fin 144) (p : Fin 8) (o : Fin 2)
variable (fL : LegSt → LegSt) (fT : TeamSt → TeamSt) (fG : GroupSt → GroupSt) (fC : CmpSt → CmpSt) (fI : TinSt → TinSt)
variable (fD : SdmTripSt → SdmTripSt) (fS : SdmSt → SdmSt) (fP : PortSt → PortSt) (fO : OutSt → OutSt) (fE : CeSt → CeSt)
variable (fY : YokSt → YokSt) (fM : TimSt → TimSt) (fLd : LoadSt → LoadSt) (fN : NetSt → NetSt) (fSr : SerSt → SerSt)
variable (fH : HkSt → HkSt) (fJ : JrnSt → JrnSt) (d0 : Tick) (df : Deferred) (pD : Deferred → Bool) (up : TickUp)

/-! `wr` -/
@[simp] theorem State.wr_now : (s.wr a w).now = s.now := rfl
@[simp] theorem State.wr_regs : (s.wr a w).regs = cellsSet regReset s.regs a w := rfl
@[simp] theorem State.wr_shadow : (s.wr a w).shadow = s.shadow := rfl
@[simp] theorem State.wr_staged : (s.wr a w).staged = s.staged := rfl
@[simp] theorem State.wr_mem : (s.wr a w).mem = s.mem := rfl
@[simp] theorem State.wr_upset : (s.wr a w).upset = s.upset := rfl
@[simp] theorem State.wr_tim : (s.wr a w).tim = s.tim := rfl
@[simp] theorem State.wr_load : (s.wr a w).load = s.load := rfl
@[simp] theorem State.wr_fuse : (s.wr a w).fuse = s.fuse := rfl
@[simp] theorem State.wr_legs : (s.wr a w).legs = s.legs := rfl
@[simp] theorem State.wr_teams : (s.wr a w).teams = s.teams := rfl
@[simp] theorem State.wr_groups : (s.wr a w).groups = s.groups := rfl
@[simp] theorem State.wr_cmps : (s.wr a w).cmps = s.cmps := rfl
@[simp] theorem State.wr_tins : (s.wr a w).tins = s.tins := rfl
@[simp] theorem State.wr_sdmTrips : (s.wr a w).sdmTrips = s.sdmTrips := rfl
@[simp] theorem State.wr_safe : (s.wr a w).safe = s.safe := rfl
@[simp] theorem State.wr_sdms : (s.wr a w).sdms = s.sdms := rfl
@[simp] theorem State.wr_sdmCk : (s.wr a w).sdmCk = s.sdmCk := rfl
@[simp] theorem State.wr_ce : (s.wr a w).ce = s.ce := rfl
@[simp] theorem State.wr_fbk : (s.wr a w).fbk = s.fbk := rfl
@[simp] theorem State.wr_fbo : (s.wr a w).fbo = s.fbo := rfl
@[simp] theorem State.wr_yok : (s.wr a w).yok = s.yok := rfl
@[simp] theorem State.wr_net : (s.wr a w).net = s.net := rfl
@[simp] theorem State.wr_ser : (s.wr a w).ser = s.ser := rfl
@[simp] theorem State.wr_hk : (s.wr a w).hk = s.hk := rfl
@[simp] theorem State.wr_shutRec : (s.wr a w).shutRec = s.shutRec := rfl
@[simp] theorem State.wr_jrn : (s.wr a w).jrn = s.jrn := rfl
@[simp] theorem State.wr_sup : (s.wr a w).sup = s.sup := rfl
@[simp] theorem State.wr_due : (s.wr a w).due = s.due := rfl
@[simp] theorem State.wr_snaps : (s.wr a w).snaps = s.snaps := rfl
@[simp] theorem State.wr_lastRead : (s.wr a w).lastRead = s.lastRead := rfl
@[simp] theorem State.wr_tagsUse : (s.wr a w).tagsUse = s.tagsUse := rfl
@[simp] theorem State.wr_stalled : (s.wr a w).stalled = s.stalled := rfl
@[simp] theorem State.wr_same : (s.wr a w).same = s.same := rfl
@[simp] theorem State.wr_freeCnt : (s.wr a w).freeCnt = s.freeCnt := rfl
@[simp] theorem State.wr_base : (s.wr a w).base = s.base := rfl
@[simp] theorem State.wr_acted : (s.wr a w).acted = s.acted := rfl
@[simp] theorem State.wr_actedAt : (s.wr a w).actedAt = s.actedAt := rfl
@[simp] theorem State.wr_pending : (s.wr a w).pending = s.pending := rfl
@[simp] theorem State.wr_rdSh : (s.wr a w).rdSh b = s.rdSh b := rfl
@[simp] theorem State.wr_rdSt : (s.wr a w).rdSt b = s.rdSt b := rfl
@[simp] theorem State.wr_memGet : (s.wr a w).memGet b = s.memGet b := rfl

/-! `wrSh` -/
@[simp] theorem State.wrSh_now : (s.wrSh a w).now = s.now := rfl
@[simp] theorem State.wrSh_regs : (s.wrSh a w).regs = s.regs := rfl
@[simp] theorem State.wrSh_shadow : (s.wrSh a w).shadow = cellsSet regReset s.shadow a w := rfl
@[simp] theorem State.wrSh_staged : (s.wrSh a w).staged = s.staged := rfl
@[simp] theorem State.wrSh_mem : (s.wrSh a w).mem = s.mem := rfl
@[simp] theorem State.wrSh_upset : (s.wrSh a w).upset = s.upset := rfl
@[simp] theorem State.wrSh_tim : (s.wrSh a w).tim = s.tim := rfl
@[simp] theorem State.wrSh_load : (s.wrSh a w).load = s.load := rfl
@[simp] theorem State.wrSh_fuse : (s.wrSh a w).fuse = s.fuse := rfl
@[simp] theorem State.wrSh_legs : (s.wrSh a w).legs = s.legs := rfl
@[simp] theorem State.wrSh_teams : (s.wrSh a w).teams = s.teams := rfl
@[simp] theorem State.wrSh_groups : (s.wrSh a w).groups = s.groups := rfl
@[simp] theorem State.wrSh_cmps : (s.wrSh a w).cmps = s.cmps := rfl
@[simp] theorem State.wrSh_tins : (s.wrSh a w).tins = s.tins := rfl
@[simp] theorem State.wrSh_sdmTrips : (s.wrSh a w).sdmTrips = s.sdmTrips := rfl
@[simp] theorem State.wrSh_safe : (s.wrSh a w).safe = s.safe := rfl
@[simp] theorem State.wrSh_sdms : (s.wrSh a w).sdms = s.sdms := rfl
@[simp] theorem State.wrSh_sdmCk : (s.wrSh a w).sdmCk = s.sdmCk := rfl
@[simp] theorem State.wrSh_ce : (s.wrSh a w).ce = s.ce := rfl
@[simp] theorem State.wrSh_fbk : (s.wrSh a w).fbk = s.fbk := rfl
@[simp] theorem State.wrSh_fbo : (s.wrSh a w).fbo = s.fbo := rfl
@[simp] theorem State.wrSh_yok : (s.wrSh a w).yok = s.yok := rfl
@[simp] theorem State.wrSh_net : (s.wrSh a w).net = s.net := rfl
@[simp] theorem State.wrSh_ser : (s.wrSh a w).ser = s.ser := rfl
@[simp] theorem State.wrSh_hk : (s.wrSh a w).hk = s.hk := rfl
@[simp] theorem State.wrSh_shutRec : (s.wrSh a w).shutRec = s.shutRec := rfl
@[simp] theorem State.wrSh_jrn : (s.wrSh a w).jrn = s.jrn := rfl
@[simp] theorem State.wrSh_sup : (s.wrSh a w).sup = s.sup := rfl
@[simp] theorem State.wrSh_due : (s.wrSh a w).due = s.due := rfl
@[simp] theorem State.wrSh_snaps : (s.wrSh a w).snaps = s.snaps := rfl
@[simp] theorem State.wrSh_lastRead : (s.wrSh a w).lastRead = s.lastRead := rfl
@[simp] theorem State.wrSh_tagsUse : (s.wrSh a w).tagsUse = s.tagsUse := rfl
@[simp] theorem State.wrSh_stalled : (s.wrSh a w).stalled = s.stalled := rfl
@[simp] theorem State.wrSh_same : (s.wrSh a w).same = s.same := rfl
@[simp] theorem State.wrSh_freeCnt : (s.wrSh a w).freeCnt = s.freeCnt := rfl
@[simp] theorem State.wrSh_base : (s.wrSh a w).base = s.base := rfl
@[simp] theorem State.wrSh_acted : (s.wrSh a w).acted = s.acted := rfl
@[simp] theorem State.wrSh_actedAt : (s.wrSh a w).actedAt = s.actedAt := rfl
@[simp] theorem State.wrSh_pending : (s.wrSh a w).pending = s.pending := rfl
@[simp] theorem State.wrSh_rd : (s.wrSh a w).rd b = s.rd b := rfl
@[simp] theorem State.wrSh_get : (s.wrSh a w).get g = s.get g := rfl
@[simp] theorem State.wrSh_bit : (s.wrSh a w).bit g = s.bit g := rfl
@[simp] theorem State.wrSh_rdSt : (s.wrSh a w).rdSt b = s.rdSt b := rfl
@[simp] theorem State.wrSh_memGet : (s.wrSh a w).memGet b = s.memGet b := rfl

/-! `wrSt` -/
@[simp] theorem State.wrSt_now : (s.wrSt a w).now = s.now := rfl
@[simp] theorem State.wrSt_regs : (s.wrSt a w).regs = s.regs := rfl
@[simp] theorem State.wrSt_shadow : (s.wrSt a w).shadow = s.shadow := rfl
@[simp] theorem State.wrSt_staged : (s.wrSt a w).staged = cellsSet regReset s.staged a w := rfl
@[simp] theorem State.wrSt_mem : (s.wrSt a w).mem = s.mem := rfl
@[simp] theorem State.wrSt_upset : (s.wrSt a w).upset = s.upset := rfl
@[simp] theorem State.wrSt_tim : (s.wrSt a w).tim = s.tim := rfl
@[simp] theorem State.wrSt_load : (s.wrSt a w).load = s.load := rfl
@[simp] theorem State.wrSt_fuse : (s.wrSt a w).fuse = s.fuse := rfl
@[simp] theorem State.wrSt_legs : (s.wrSt a w).legs = s.legs := rfl
@[simp] theorem State.wrSt_teams : (s.wrSt a w).teams = s.teams := rfl
@[simp] theorem State.wrSt_groups : (s.wrSt a w).groups = s.groups := rfl
@[simp] theorem State.wrSt_cmps : (s.wrSt a w).cmps = s.cmps := rfl
@[simp] theorem State.wrSt_tins : (s.wrSt a w).tins = s.tins := rfl
@[simp] theorem State.wrSt_sdmTrips : (s.wrSt a w).sdmTrips = s.sdmTrips := rfl
@[simp] theorem State.wrSt_safe : (s.wrSt a w).safe = s.safe := rfl
@[simp] theorem State.wrSt_sdms : (s.wrSt a w).sdms = s.sdms := rfl
@[simp] theorem State.wrSt_sdmCk : (s.wrSt a w).sdmCk = s.sdmCk := rfl
@[simp] theorem State.wrSt_ce : (s.wrSt a w).ce = s.ce := rfl
@[simp] theorem State.wrSt_fbk : (s.wrSt a w).fbk = s.fbk := rfl
@[simp] theorem State.wrSt_fbo : (s.wrSt a w).fbo = s.fbo := rfl
@[simp] theorem State.wrSt_yok : (s.wrSt a w).yok = s.yok := rfl
@[simp] theorem State.wrSt_net : (s.wrSt a w).net = s.net := rfl
@[simp] theorem State.wrSt_ser : (s.wrSt a w).ser = s.ser := rfl
@[simp] theorem State.wrSt_hk : (s.wrSt a w).hk = s.hk := rfl
@[simp] theorem State.wrSt_shutRec : (s.wrSt a w).shutRec = s.shutRec := rfl
@[simp] theorem State.wrSt_jrn : (s.wrSt a w).jrn = s.jrn := rfl
@[simp] theorem State.wrSt_sup : (s.wrSt a w).sup = s.sup := rfl
@[simp] theorem State.wrSt_due : (s.wrSt a w).due = s.due := rfl
@[simp] theorem State.wrSt_snaps : (s.wrSt a w).snaps = s.snaps := rfl
@[simp] theorem State.wrSt_lastRead : (s.wrSt a w).lastRead = s.lastRead := rfl
@[simp] theorem State.wrSt_tagsUse : (s.wrSt a w).tagsUse = s.tagsUse := rfl
@[simp] theorem State.wrSt_stalled : (s.wrSt a w).stalled = s.stalled := rfl
@[simp] theorem State.wrSt_same : (s.wrSt a w).same = s.same := rfl
@[simp] theorem State.wrSt_freeCnt : (s.wrSt a w).freeCnt = s.freeCnt := rfl
@[simp] theorem State.wrSt_base : (s.wrSt a w).base = s.base := rfl
@[simp] theorem State.wrSt_acted : (s.wrSt a w).acted = s.acted := rfl
@[simp] theorem State.wrSt_actedAt : (s.wrSt a w).actedAt = s.actedAt := rfl
@[simp] theorem State.wrSt_pending : (s.wrSt a w).pending = s.pending := rfl
@[simp] theorem State.wrSt_rd : (s.wrSt a w).rd b = s.rd b := rfl
@[simp] theorem State.wrSt_get : (s.wrSt a w).get g = s.get g := rfl
@[simp] theorem State.wrSt_bit : (s.wrSt a w).bit g = s.bit g := rfl
@[simp] theorem State.wrSt_rdSh : (s.wrSt a w).rdSh b = s.rdSh b := rfl
@[simp] theorem State.wrSt_memGet : (s.wrSt a w).memGet b = s.memGet b := rfl

/-! `memSet` -/
@[simp] theorem State.memSet_now : (s.memSet a w).now = s.now := rfl
@[simp] theorem State.memSet_regs : (s.memSet a w).regs = s.regs := rfl
@[simp] theorem State.memSet_shadow : (s.memSet a w).shadow = s.shadow := rfl
@[simp] theorem State.memSet_staged : (s.memSet a w).staged = s.staged := rfl
@[simp] theorem State.memSet_mem : (s.memSet a w).mem = cellsSet zeroWord s.mem a w := rfl
@[simp] theorem State.memSet_upset : (s.memSet a w).upset = s.upset.filter (fun e => e.1 != a) := rfl
@[simp] theorem State.memSet_tim : (s.memSet a w).tim = s.tim := rfl
@[simp] theorem State.memSet_load : (s.memSet a w).load = s.load := rfl
@[simp] theorem State.memSet_fuse : (s.memSet a w).fuse = s.fuse := rfl
@[simp] theorem State.memSet_legs : (s.memSet a w).legs = s.legs := rfl
@[simp] theorem State.memSet_teams : (s.memSet a w).teams = s.teams := rfl
@[simp] theorem State.memSet_groups : (s.memSet a w).groups = s.groups := rfl
@[simp] theorem State.memSet_cmps : (s.memSet a w).cmps = s.cmps := rfl
@[simp] theorem State.memSet_tins : (s.memSet a w).tins = s.tins := rfl
@[simp] theorem State.memSet_sdmTrips : (s.memSet a w).sdmTrips = s.sdmTrips := rfl
@[simp] theorem State.memSet_safe : (s.memSet a w).safe = s.safe := rfl
@[simp] theorem State.memSet_sdms : (s.memSet a w).sdms = s.sdms := rfl
@[simp] theorem State.memSet_sdmCk : (s.memSet a w).sdmCk = s.sdmCk := rfl
@[simp] theorem State.memSet_ce : (s.memSet a w).ce = s.ce := rfl
@[simp] theorem State.memSet_fbk : (s.memSet a w).fbk = s.fbk := rfl
@[simp] theorem State.memSet_fbo : (s.memSet a w).fbo = s.fbo := rfl
@[simp] theorem State.memSet_yok : (s.memSet a w).yok = s.yok := rfl
@[simp] theorem State.memSet_net : (s.memSet a w).net = s.net := rfl
@[simp] theorem State.memSet_ser : (s.memSet a w).ser = s.ser := rfl
@[simp] theorem State.memSet_hk : (s.memSet a w).hk = s.hk := rfl
@[simp] theorem State.memSet_shutRec : (s.memSet a w).shutRec = s.shutRec := rfl
@[simp] theorem State.memSet_jrn : (s.memSet a w).jrn = s.jrn := rfl
@[simp] theorem State.memSet_sup : (s.memSet a w).sup = s.sup := rfl
@[simp] theorem State.memSet_due : (s.memSet a w).due = s.due := rfl
@[simp] theorem State.memSet_snaps : (s.memSet a w).snaps = s.snaps := rfl
@[simp] theorem State.memSet_lastRead : (s.memSet a w).lastRead = s.lastRead := rfl
@[simp] theorem State.memSet_tagsUse : (s.memSet a w).tagsUse = s.tagsUse := rfl
@[simp] theorem State.memSet_stalled : (s.memSet a w).stalled = s.stalled := rfl
@[simp] theorem State.memSet_same : (s.memSet a w).same = s.same := rfl
@[simp] theorem State.memSet_freeCnt : (s.memSet a w).freeCnt = s.freeCnt := rfl
@[simp] theorem State.memSet_base : (s.memSet a w).base = s.base := rfl
@[simp] theorem State.memSet_acted : (s.memSet a w).acted = s.acted := rfl
@[simp] theorem State.memSet_actedAt : (s.memSet a w).actedAt = s.actedAt := rfl
@[simp] theorem State.memSet_pending : (s.memSet a w).pending = s.pending := rfl
@[simp] theorem State.memSet_rd : (s.memSet a w).rd b = s.rd b := rfl
@[simp] theorem State.memSet_get : (s.memSet a w).get g = s.get g := rfl
@[simp] theorem State.memSet_bit : (s.memSet a w).bit g = s.bit g := rfl
@[simp] theorem State.memSet_rdSh : (s.memSet a w).rdSh b = s.rdSh b := rfl
@[simp] theorem State.memSet_rdSt : (s.memSet a w).rdSt b = s.rdSt b := rfl

/-! `put` -/
@[simp] theorem State.put_now : (s.put f v).now = s.now := rfl
@[simp] theorem State.put_regs : (s.put f v).regs = cellsSet regReset s.regs f.addr (bitsSet (s.rd f.addr) f.lo f.width v) := rfl
@[simp] theorem State.put_shadow : (s.put f v).shadow = s.shadow := rfl
@[simp] theorem State.put_staged : (s.put f v).staged = s.staged := rfl
@[simp] theorem State.put_mem : (s.put f v).mem = s.mem := rfl
@[simp] theorem State.put_upset : (s.put f v).upset = s.upset := rfl
@[simp] theorem State.put_tim : (s.put f v).tim = s.tim := rfl
@[simp] theorem State.put_load : (s.put f v).load = s.load := rfl
@[simp] theorem State.put_fuse : (s.put f v).fuse = s.fuse := rfl
@[simp] theorem State.put_legs : (s.put f v).legs = s.legs := rfl
@[simp] theorem State.put_teams : (s.put f v).teams = s.teams := rfl
@[simp] theorem State.put_groups : (s.put f v).groups = s.groups := rfl
@[simp] theorem State.put_cmps : (s.put f v).cmps = s.cmps := rfl
@[simp] theorem State.put_tins : (s.put f v).tins = s.tins := rfl
@[simp] theorem State.put_sdmTrips : (s.put f v).sdmTrips = s.sdmTrips := rfl
@[simp] theorem State.put_safe : (s.put f v).safe = s.safe := rfl
@[simp] theorem State.put_sdms : (s.put f v).sdms = s.sdms := rfl
@[simp] theorem State.put_sdmCk : (s.put f v).sdmCk = s.sdmCk := rfl
@[simp] theorem State.put_ce : (s.put f v).ce = s.ce := rfl
@[simp] theorem State.put_fbk : (s.put f v).fbk = s.fbk := rfl
@[simp] theorem State.put_fbo : (s.put f v).fbo = s.fbo := rfl
@[simp] theorem State.put_yok : (s.put f v).yok = s.yok := rfl
@[simp] theorem State.put_net : (s.put f v).net = s.net := rfl
@[simp] theorem State.put_ser : (s.put f v).ser = s.ser := rfl
@[simp] theorem State.put_hk : (s.put f v).hk = s.hk := rfl
@[simp] theorem State.put_shutRec : (s.put f v).shutRec = s.shutRec := rfl
@[simp] theorem State.put_jrn : (s.put f v).jrn = s.jrn := rfl
@[simp] theorem State.put_sup : (s.put f v).sup = s.sup := rfl
@[simp] theorem State.put_due : (s.put f v).due = s.due := rfl
@[simp] theorem State.put_snaps : (s.put f v).snaps = s.snaps := rfl
@[simp] theorem State.put_lastRead : (s.put f v).lastRead = s.lastRead := rfl
@[simp] theorem State.put_tagsUse : (s.put f v).tagsUse = s.tagsUse := rfl
@[simp] theorem State.put_stalled : (s.put f v).stalled = s.stalled := rfl
@[simp] theorem State.put_same : (s.put f v).same = s.same := rfl
@[simp] theorem State.put_freeCnt : (s.put f v).freeCnt = s.freeCnt := rfl
@[simp] theorem State.put_base : (s.put f v).base = s.base := rfl
@[simp] theorem State.put_acted : (s.put f v).acted = s.acted := rfl
@[simp] theorem State.put_actedAt : (s.put f v).actedAt = s.actedAt := rfl
@[simp] theorem State.put_pending : (s.put f v).pending = s.pending := rfl
@[simp] theorem State.put_rdSh : (s.put f v).rdSh b = s.rdSh b := rfl
@[simp] theorem State.put_rdSt : (s.put f v).rdSt b = s.rdSt b := rfl
@[simp] theorem State.put_memGet : (s.put f v).memGet b = s.memGet b := rfl

/-! `modLeg` -/
@[simp] theorem State.modLeg_now : (s.modLeg n fL).now = s.now := rfl
@[simp] theorem State.modLeg_regs : (s.modLeg n fL).regs = s.regs := rfl
@[simp] theorem State.modLeg_shadow : (s.modLeg n fL).shadow = s.shadow := rfl
@[simp] theorem State.modLeg_staged : (s.modLeg n fL).staged = s.staged := rfl
@[simp] theorem State.modLeg_mem : (s.modLeg n fL).mem = s.mem := rfl
@[simp] theorem State.modLeg_upset : (s.modLeg n fL).upset = s.upset := rfl
@[simp] theorem State.modLeg_tim : (s.modLeg n fL).tim = s.tim := rfl
@[simp] theorem State.modLeg_load : (s.modLeg n fL).load = s.load := rfl
@[simp] theorem State.modLeg_fuse : (s.modLeg n fL).fuse = s.fuse := rfl
@[simp] theorem State.modLeg_legs : (s.modLeg n fL).legs = s.legs.set n (fL s.legs[n]) := rfl
@[simp] theorem State.modLeg_teams : (s.modLeg n fL).teams = s.teams := rfl
@[simp] theorem State.modLeg_groups : (s.modLeg n fL).groups = s.groups := rfl
@[simp] theorem State.modLeg_cmps : (s.modLeg n fL).cmps = s.cmps := rfl
@[simp] theorem State.modLeg_tins : (s.modLeg n fL).tins = s.tins := rfl
@[simp] theorem State.modLeg_sdmTrips : (s.modLeg n fL).sdmTrips = s.sdmTrips := rfl
@[simp] theorem State.modLeg_safe : (s.modLeg n fL).safe = s.safe := rfl
@[simp] theorem State.modLeg_sdms : (s.modLeg n fL).sdms = s.sdms := rfl
@[simp] theorem State.modLeg_sdmCk : (s.modLeg n fL).sdmCk = s.sdmCk := rfl
@[simp] theorem State.modLeg_ce : (s.modLeg n fL).ce = s.ce := rfl
@[simp] theorem State.modLeg_fbk : (s.modLeg n fL).fbk = s.fbk := rfl
@[simp] theorem State.modLeg_fbo : (s.modLeg n fL).fbo = s.fbo := rfl
@[simp] theorem State.modLeg_yok : (s.modLeg n fL).yok = s.yok := rfl
@[simp] theorem State.modLeg_net : (s.modLeg n fL).net = s.net := rfl
@[simp] theorem State.modLeg_ser : (s.modLeg n fL).ser = s.ser := rfl
@[simp] theorem State.modLeg_hk : (s.modLeg n fL).hk = s.hk := rfl
@[simp] theorem State.modLeg_shutRec : (s.modLeg n fL).shutRec = s.shutRec := rfl
@[simp] theorem State.modLeg_jrn : (s.modLeg n fL).jrn = s.jrn := rfl
@[simp] theorem State.modLeg_sup : (s.modLeg n fL).sup = s.sup := rfl
@[simp] theorem State.modLeg_due : (s.modLeg n fL).due = s.due := rfl
@[simp] theorem State.modLeg_snaps : (s.modLeg n fL).snaps = s.snaps := rfl
@[simp] theorem State.modLeg_lastRead : (s.modLeg n fL).lastRead = s.lastRead := rfl
@[simp] theorem State.modLeg_tagsUse : (s.modLeg n fL).tagsUse = s.tagsUse := rfl
@[simp] theorem State.modLeg_stalled : (s.modLeg n fL).stalled = s.stalled := rfl
@[simp] theorem State.modLeg_same : (s.modLeg n fL).same = s.same := rfl
@[simp] theorem State.modLeg_freeCnt : (s.modLeg n fL).freeCnt = s.freeCnt := rfl
@[simp] theorem State.modLeg_base : (s.modLeg n fL).base = s.base := rfl
@[simp] theorem State.modLeg_acted : (s.modLeg n fL).acted = s.acted := rfl
@[simp] theorem State.modLeg_actedAt : (s.modLeg n fL).actedAt = s.actedAt := rfl
@[simp] theorem State.modLeg_pending : (s.modLeg n fL).pending = s.pending := rfl
@[simp] theorem State.modLeg_rd : (s.modLeg n fL).rd b = s.rd b := rfl
@[simp] theorem State.modLeg_get : (s.modLeg n fL).get g = s.get g := rfl
@[simp] theorem State.modLeg_bit : (s.modLeg n fL).bit g = s.bit g := rfl
@[simp] theorem State.modLeg_rdSh : (s.modLeg n fL).rdSh b = s.rdSh b := rfl
@[simp] theorem State.modLeg_rdSt : (s.modLeg n fL).rdSt b = s.rdSt b := rfl
@[simp] theorem State.modLeg_memGet : (s.modLeg n fL).memGet b = s.memGet b := rfl

/-! `modTeam` -/
@[simp] theorem State.modTeam_now : (s.modTeam t fT).now = s.now := rfl
@[simp] theorem State.modTeam_regs : (s.modTeam t fT).regs = s.regs := rfl
@[simp] theorem State.modTeam_shadow : (s.modTeam t fT).shadow = s.shadow := rfl
@[simp] theorem State.modTeam_staged : (s.modTeam t fT).staged = s.staged := rfl
@[simp] theorem State.modTeam_mem : (s.modTeam t fT).mem = s.mem := rfl
@[simp] theorem State.modTeam_upset : (s.modTeam t fT).upset = s.upset := rfl
@[simp] theorem State.modTeam_tim : (s.modTeam t fT).tim = s.tim := rfl
@[simp] theorem State.modTeam_load : (s.modTeam t fT).load = s.load := rfl
@[simp] theorem State.modTeam_fuse : (s.modTeam t fT).fuse = s.fuse := rfl
@[simp] theorem State.modTeam_legs : (s.modTeam t fT).legs = s.legs := rfl
@[simp] theorem State.modTeam_teams : (s.modTeam t fT).teams = s.teams.set t (fT s.teams[t]) := rfl
@[simp] theorem State.modTeam_groups : (s.modTeam t fT).groups = s.groups := rfl
@[simp] theorem State.modTeam_cmps : (s.modTeam t fT).cmps = s.cmps := rfl
@[simp] theorem State.modTeam_tins : (s.modTeam t fT).tins = s.tins := rfl
@[simp] theorem State.modTeam_sdmTrips : (s.modTeam t fT).sdmTrips = s.sdmTrips := rfl
@[simp] theorem State.modTeam_safe : (s.modTeam t fT).safe = s.safe := rfl
@[simp] theorem State.modTeam_sdms : (s.modTeam t fT).sdms = s.sdms := rfl
@[simp] theorem State.modTeam_sdmCk : (s.modTeam t fT).sdmCk = s.sdmCk := rfl
@[simp] theorem State.modTeam_ce : (s.modTeam t fT).ce = s.ce := rfl
@[simp] theorem State.modTeam_fbk : (s.modTeam t fT).fbk = s.fbk := rfl
@[simp] theorem State.modTeam_fbo : (s.modTeam t fT).fbo = s.fbo := rfl
@[simp] theorem State.modTeam_yok : (s.modTeam t fT).yok = s.yok := rfl
@[simp] theorem State.modTeam_net : (s.modTeam t fT).net = s.net := rfl
@[simp] theorem State.modTeam_ser : (s.modTeam t fT).ser = s.ser := rfl
@[simp] theorem State.modTeam_hk : (s.modTeam t fT).hk = s.hk := rfl
@[simp] theorem State.modTeam_shutRec : (s.modTeam t fT).shutRec = s.shutRec := rfl
@[simp] theorem State.modTeam_jrn : (s.modTeam t fT).jrn = s.jrn := rfl
@[simp] theorem State.modTeam_sup : (s.modTeam t fT).sup = s.sup := rfl
@[simp] theorem State.modTeam_due : (s.modTeam t fT).due = s.due := rfl
@[simp] theorem State.modTeam_snaps : (s.modTeam t fT).snaps = s.snaps := rfl
@[simp] theorem State.modTeam_lastRead : (s.modTeam t fT).lastRead = s.lastRead := rfl
@[simp] theorem State.modTeam_tagsUse : (s.modTeam t fT).tagsUse = s.tagsUse := rfl
@[simp] theorem State.modTeam_stalled : (s.modTeam t fT).stalled = s.stalled := rfl
@[simp] theorem State.modTeam_same : (s.modTeam t fT).same = s.same := rfl
@[simp] theorem State.modTeam_freeCnt : (s.modTeam t fT).freeCnt = s.freeCnt := rfl
@[simp] theorem State.modTeam_base : (s.modTeam t fT).base = s.base := rfl
@[simp] theorem State.modTeam_acted : (s.modTeam t fT).acted = s.acted := rfl
@[simp] theorem State.modTeam_actedAt : (s.modTeam t fT).actedAt = s.actedAt := rfl
@[simp] theorem State.modTeam_pending : (s.modTeam t fT).pending = s.pending := rfl
@[simp] theorem State.modTeam_rd : (s.modTeam t fT).rd b = s.rd b := rfl
@[simp] theorem State.modTeam_get : (s.modTeam t fT).get g = s.get g := rfl
@[simp] theorem State.modTeam_bit : (s.modTeam t fT).bit g = s.bit g := rfl
@[simp] theorem State.modTeam_rdSh : (s.modTeam t fT).rdSh b = s.rdSh b := rfl
@[simp] theorem State.modTeam_rdSt : (s.modTeam t fT).rdSt b = s.rdSt b := rfl
@[simp] theorem State.modTeam_memGet : (s.modTeam t fT).memGet b = s.memGet b := rfl

/-! `modGroup` -/
@[simp] theorem State.modGroup_now : (s.modGroup gr fG).now = s.now := rfl
@[simp] theorem State.modGroup_regs : (s.modGroup gr fG).regs = s.regs := rfl
@[simp] theorem State.modGroup_shadow : (s.modGroup gr fG).shadow = s.shadow := rfl
@[simp] theorem State.modGroup_staged : (s.modGroup gr fG).staged = s.staged := rfl
@[simp] theorem State.modGroup_mem : (s.modGroup gr fG).mem = s.mem := rfl
@[simp] theorem State.modGroup_upset : (s.modGroup gr fG).upset = s.upset := rfl
@[simp] theorem State.modGroup_tim : (s.modGroup gr fG).tim = s.tim := rfl
@[simp] theorem State.modGroup_load : (s.modGroup gr fG).load = s.load := rfl
@[simp] theorem State.modGroup_fuse : (s.modGroup gr fG).fuse = s.fuse := rfl
@[simp] theorem State.modGroup_legs : (s.modGroup gr fG).legs = s.legs := rfl
@[simp] theorem State.modGroup_teams : (s.modGroup gr fG).teams = s.teams := rfl
@[simp] theorem State.modGroup_groups : (s.modGroup gr fG).groups = s.groups.set gr (fG s.groups[gr]) := rfl
@[simp] theorem State.modGroup_cmps : (s.modGroup gr fG).cmps = s.cmps := rfl
@[simp] theorem State.modGroup_tins : (s.modGroup gr fG).tins = s.tins := rfl
@[simp] theorem State.modGroup_sdmTrips : (s.modGroup gr fG).sdmTrips = s.sdmTrips := rfl
@[simp] theorem State.modGroup_safe : (s.modGroup gr fG).safe = s.safe := rfl
@[simp] theorem State.modGroup_sdms : (s.modGroup gr fG).sdms = s.sdms := rfl
@[simp] theorem State.modGroup_sdmCk : (s.modGroup gr fG).sdmCk = s.sdmCk := rfl
@[simp] theorem State.modGroup_ce : (s.modGroup gr fG).ce = s.ce := rfl
@[simp] theorem State.modGroup_fbk : (s.modGroup gr fG).fbk = s.fbk := rfl
@[simp] theorem State.modGroup_fbo : (s.modGroup gr fG).fbo = s.fbo := rfl
@[simp] theorem State.modGroup_yok : (s.modGroup gr fG).yok = s.yok := rfl
@[simp] theorem State.modGroup_net : (s.modGroup gr fG).net = s.net := rfl
@[simp] theorem State.modGroup_ser : (s.modGroup gr fG).ser = s.ser := rfl
@[simp] theorem State.modGroup_hk : (s.modGroup gr fG).hk = s.hk := rfl
@[simp] theorem State.modGroup_shutRec : (s.modGroup gr fG).shutRec = s.shutRec := rfl
@[simp] theorem State.modGroup_jrn : (s.modGroup gr fG).jrn = s.jrn := rfl
@[simp] theorem State.modGroup_sup : (s.modGroup gr fG).sup = s.sup := rfl
@[simp] theorem State.modGroup_due : (s.modGroup gr fG).due = s.due := rfl
@[simp] theorem State.modGroup_snaps : (s.modGroup gr fG).snaps = s.snaps := rfl
@[simp] theorem State.modGroup_lastRead : (s.modGroup gr fG).lastRead = s.lastRead := rfl
@[simp] theorem State.modGroup_tagsUse : (s.modGroup gr fG).tagsUse = s.tagsUse := rfl
@[simp] theorem State.modGroup_stalled : (s.modGroup gr fG).stalled = s.stalled := rfl
@[simp] theorem State.modGroup_same : (s.modGroup gr fG).same = s.same := rfl
@[simp] theorem State.modGroup_freeCnt : (s.modGroup gr fG).freeCnt = s.freeCnt := rfl
@[simp] theorem State.modGroup_base : (s.modGroup gr fG).base = s.base := rfl
@[simp] theorem State.modGroup_acted : (s.modGroup gr fG).acted = s.acted := rfl
@[simp] theorem State.modGroup_actedAt : (s.modGroup gr fG).actedAt = s.actedAt := rfl
@[simp] theorem State.modGroup_pending : (s.modGroup gr fG).pending = s.pending := rfl
@[simp] theorem State.modGroup_rd : (s.modGroup gr fG).rd b = s.rd b := rfl
@[simp] theorem State.modGroup_get : (s.modGroup gr fG).get g = s.get g := rfl
@[simp] theorem State.modGroup_bit : (s.modGroup gr fG).bit g = s.bit g := rfl
@[simp] theorem State.modGroup_rdSh : (s.modGroup gr fG).rdSh b = s.rdSh b := rfl
@[simp] theorem State.modGroup_rdSt : (s.modGroup gr fG).rdSt b = s.rdSt b := rfl
@[simp] theorem State.modGroup_memGet : (s.modGroup gr fG).memGet b = s.memGet b := rfl

/-! `modCmp` -/
@[simp] theorem State.modCmp_now : (s.modCmp k fC).now = s.now := rfl
@[simp] theorem State.modCmp_regs : (s.modCmp k fC).regs = s.regs := rfl
@[simp] theorem State.modCmp_shadow : (s.modCmp k fC).shadow = s.shadow := rfl
@[simp] theorem State.modCmp_staged : (s.modCmp k fC).staged = s.staged := rfl
@[simp] theorem State.modCmp_mem : (s.modCmp k fC).mem = s.mem := rfl
@[simp] theorem State.modCmp_upset : (s.modCmp k fC).upset = s.upset := rfl
@[simp] theorem State.modCmp_tim : (s.modCmp k fC).tim = s.tim := rfl
@[simp] theorem State.modCmp_load : (s.modCmp k fC).load = s.load := rfl
@[simp] theorem State.modCmp_fuse : (s.modCmp k fC).fuse = s.fuse := rfl
@[simp] theorem State.modCmp_legs : (s.modCmp k fC).legs = s.legs := rfl
@[simp] theorem State.modCmp_teams : (s.modCmp k fC).teams = s.teams := rfl
@[simp] theorem State.modCmp_groups : (s.modCmp k fC).groups = s.groups := rfl
@[simp] theorem State.modCmp_cmps : (s.modCmp k fC).cmps = s.cmps.set k (fC s.cmps[k]) := rfl
@[simp] theorem State.modCmp_tins : (s.modCmp k fC).tins = s.tins := rfl
@[simp] theorem State.modCmp_sdmTrips : (s.modCmp k fC).sdmTrips = s.sdmTrips := rfl
@[simp] theorem State.modCmp_safe : (s.modCmp k fC).safe = s.safe := rfl
@[simp] theorem State.modCmp_sdms : (s.modCmp k fC).sdms = s.sdms := rfl
@[simp] theorem State.modCmp_sdmCk : (s.modCmp k fC).sdmCk = s.sdmCk := rfl
@[simp] theorem State.modCmp_ce : (s.modCmp k fC).ce = s.ce := rfl
@[simp] theorem State.modCmp_fbk : (s.modCmp k fC).fbk = s.fbk := rfl
@[simp] theorem State.modCmp_fbo : (s.modCmp k fC).fbo = s.fbo := rfl
@[simp] theorem State.modCmp_yok : (s.modCmp k fC).yok = s.yok := rfl
@[simp] theorem State.modCmp_net : (s.modCmp k fC).net = s.net := rfl
@[simp] theorem State.modCmp_ser : (s.modCmp k fC).ser = s.ser := rfl
@[simp] theorem State.modCmp_hk : (s.modCmp k fC).hk = s.hk := rfl
@[simp] theorem State.modCmp_shutRec : (s.modCmp k fC).shutRec = s.shutRec := rfl
@[simp] theorem State.modCmp_jrn : (s.modCmp k fC).jrn = s.jrn := rfl
@[simp] theorem State.modCmp_sup : (s.modCmp k fC).sup = s.sup := rfl
@[simp] theorem State.modCmp_due : (s.modCmp k fC).due = s.due := rfl
@[simp] theorem State.modCmp_snaps : (s.modCmp k fC).snaps = s.snaps := rfl
@[simp] theorem State.modCmp_lastRead : (s.modCmp k fC).lastRead = s.lastRead := rfl
@[simp] theorem State.modCmp_tagsUse : (s.modCmp k fC).tagsUse = s.tagsUse := rfl
@[simp] theorem State.modCmp_stalled : (s.modCmp k fC).stalled = s.stalled := rfl
@[simp] theorem State.modCmp_same : (s.modCmp k fC).same = s.same := rfl
@[simp] theorem State.modCmp_freeCnt : (s.modCmp k fC).freeCnt = s.freeCnt := rfl
@[simp] theorem State.modCmp_base : (s.modCmp k fC).base = s.base := rfl
@[simp] theorem State.modCmp_acted : (s.modCmp k fC).acted = s.acted := rfl
@[simp] theorem State.modCmp_actedAt : (s.modCmp k fC).actedAt = s.actedAt := rfl
@[simp] theorem State.modCmp_pending : (s.modCmp k fC).pending = s.pending := rfl
@[simp] theorem State.modCmp_rd : (s.modCmp k fC).rd b = s.rd b := rfl
@[simp] theorem State.modCmp_get : (s.modCmp k fC).get g = s.get g := rfl
@[simp] theorem State.modCmp_bit : (s.modCmp k fC).bit g = s.bit g := rfl
@[simp] theorem State.modCmp_rdSh : (s.modCmp k fC).rdSh b = s.rdSh b := rfl
@[simp] theorem State.modCmp_rdSt : (s.modCmp k fC).rdSt b = s.rdSt b := rfl
@[simp] theorem State.modCmp_memGet : (s.modCmp k fC).memGet b = s.memGet b := rfl

/-! `modTin` -/
@[simp] theorem State.modTin_now : (s.modTin i fI).now = s.now := rfl
@[simp] theorem State.modTin_regs : (s.modTin i fI).regs = s.regs := rfl
@[simp] theorem State.modTin_shadow : (s.modTin i fI).shadow = s.shadow := rfl
@[simp] theorem State.modTin_staged : (s.modTin i fI).staged = s.staged := rfl
@[simp] theorem State.modTin_mem : (s.modTin i fI).mem = s.mem := rfl
@[simp] theorem State.modTin_upset : (s.modTin i fI).upset = s.upset := rfl
@[simp] theorem State.modTin_tim : (s.modTin i fI).tim = s.tim := rfl
@[simp] theorem State.modTin_load : (s.modTin i fI).load = s.load := rfl
@[simp] theorem State.modTin_fuse : (s.modTin i fI).fuse = s.fuse := rfl
@[simp] theorem State.modTin_legs : (s.modTin i fI).legs = s.legs := rfl
@[simp] theorem State.modTin_teams : (s.modTin i fI).teams = s.teams := rfl
@[simp] theorem State.modTin_groups : (s.modTin i fI).groups = s.groups := rfl
@[simp] theorem State.modTin_cmps : (s.modTin i fI).cmps = s.cmps := rfl
@[simp] theorem State.modTin_tins : (s.modTin i fI).tins = s.tins.set i (fI s.tins[i]) := rfl
@[simp] theorem State.modTin_sdmTrips : (s.modTin i fI).sdmTrips = s.sdmTrips := rfl
@[simp] theorem State.modTin_safe : (s.modTin i fI).safe = s.safe := rfl
@[simp] theorem State.modTin_sdms : (s.modTin i fI).sdms = s.sdms := rfl
@[simp] theorem State.modTin_sdmCk : (s.modTin i fI).sdmCk = s.sdmCk := rfl
@[simp] theorem State.modTin_ce : (s.modTin i fI).ce = s.ce := rfl
@[simp] theorem State.modTin_fbk : (s.modTin i fI).fbk = s.fbk := rfl
@[simp] theorem State.modTin_fbo : (s.modTin i fI).fbo = s.fbo := rfl
@[simp] theorem State.modTin_yok : (s.modTin i fI).yok = s.yok := rfl
@[simp] theorem State.modTin_net : (s.modTin i fI).net = s.net := rfl
@[simp] theorem State.modTin_ser : (s.modTin i fI).ser = s.ser := rfl
@[simp] theorem State.modTin_hk : (s.modTin i fI).hk = s.hk := rfl
@[simp] theorem State.modTin_shutRec : (s.modTin i fI).shutRec = s.shutRec := rfl
@[simp] theorem State.modTin_jrn : (s.modTin i fI).jrn = s.jrn := rfl
@[simp] theorem State.modTin_sup : (s.modTin i fI).sup = s.sup := rfl
@[simp] theorem State.modTin_due : (s.modTin i fI).due = s.due := rfl
@[simp] theorem State.modTin_snaps : (s.modTin i fI).snaps = s.snaps := rfl
@[simp] theorem State.modTin_lastRead : (s.modTin i fI).lastRead = s.lastRead := rfl
@[simp] theorem State.modTin_tagsUse : (s.modTin i fI).tagsUse = s.tagsUse := rfl
@[simp] theorem State.modTin_stalled : (s.modTin i fI).stalled = s.stalled := rfl
@[simp] theorem State.modTin_same : (s.modTin i fI).same = s.same := rfl
@[simp] theorem State.modTin_freeCnt : (s.modTin i fI).freeCnt = s.freeCnt := rfl
@[simp] theorem State.modTin_base : (s.modTin i fI).base = s.base := rfl
@[simp] theorem State.modTin_acted : (s.modTin i fI).acted = s.acted := rfl
@[simp] theorem State.modTin_actedAt : (s.modTin i fI).actedAt = s.actedAt := rfl
@[simp] theorem State.modTin_pending : (s.modTin i fI).pending = s.pending := rfl
@[simp] theorem State.modTin_rd : (s.modTin i fI).rd b = s.rd b := rfl
@[simp] theorem State.modTin_get : (s.modTin i fI).get g = s.get g := rfl
@[simp] theorem State.modTin_bit : (s.modTin i fI).bit g = s.bit g := rfl
@[simp] theorem State.modTin_rdSh : (s.modTin i fI).rdSh b = s.rdSh b := rfl
@[simp] theorem State.modTin_rdSt : (s.modTin i fI).rdSt b = s.rdSt b := rfl
@[simp] theorem State.modTin_memGet : (s.modTin i fI).memGet b = s.memGet b := rfl

/-! `modSdmTrip` -/
@[simp] theorem State.modSdmTrip_now : (s.modSdmTrip c fD).now = s.now := rfl
@[simp] theorem State.modSdmTrip_regs : (s.modSdmTrip c fD).regs = s.regs := rfl
@[simp] theorem State.modSdmTrip_shadow : (s.modSdmTrip c fD).shadow = s.shadow := rfl
@[simp] theorem State.modSdmTrip_staged : (s.modSdmTrip c fD).staged = s.staged := rfl
@[simp] theorem State.modSdmTrip_mem : (s.modSdmTrip c fD).mem = s.mem := rfl
@[simp] theorem State.modSdmTrip_upset : (s.modSdmTrip c fD).upset = s.upset := rfl
@[simp] theorem State.modSdmTrip_tim : (s.modSdmTrip c fD).tim = s.tim := rfl
@[simp] theorem State.modSdmTrip_load : (s.modSdmTrip c fD).load = s.load := rfl
@[simp] theorem State.modSdmTrip_fuse : (s.modSdmTrip c fD).fuse = s.fuse := rfl
@[simp] theorem State.modSdmTrip_legs : (s.modSdmTrip c fD).legs = s.legs := rfl
@[simp] theorem State.modSdmTrip_teams : (s.modSdmTrip c fD).teams = s.teams := rfl
@[simp] theorem State.modSdmTrip_groups : (s.modSdmTrip c fD).groups = s.groups := rfl
@[simp] theorem State.modSdmTrip_cmps : (s.modSdmTrip c fD).cmps = s.cmps := rfl
@[simp] theorem State.modSdmTrip_tins : (s.modSdmTrip c fD).tins = s.tins := rfl
@[simp] theorem State.modSdmTrip_sdmTrips : (s.modSdmTrip c fD).sdmTrips = s.sdmTrips.set c (fD s.sdmTrips[c]) := rfl
@[simp] theorem State.modSdmTrip_safe : (s.modSdmTrip c fD).safe = s.safe := rfl
@[simp] theorem State.modSdmTrip_sdms : (s.modSdmTrip c fD).sdms = s.sdms := rfl
@[simp] theorem State.modSdmTrip_sdmCk : (s.modSdmTrip c fD).sdmCk = s.sdmCk := rfl
@[simp] theorem State.modSdmTrip_ce : (s.modSdmTrip c fD).ce = s.ce := rfl
@[simp] theorem State.modSdmTrip_fbk : (s.modSdmTrip c fD).fbk = s.fbk := rfl
@[simp] theorem State.modSdmTrip_fbo : (s.modSdmTrip c fD).fbo = s.fbo := rfl
@[simp] theorem State.modSdmTrip_yok : (s.modSdmTrip c fD).yok = s.yok := rfl
@[simp] theorem State.modSdmTrip_net : (s.modSdmTrip c fD).net = s.net := rfl
@[simp] theorem State.modSdmTrip_ser : (s.modSdmTrip c fD).ser = s.ser := rfl
@[simp] theorem State.modSdmTrip_hk : (s.modSdmTrip c fD).hk = s.hk := rfl
@[simp] theorem State.modSdmTrip_shutRec : (s.modSdmTrip c fD).shutRec = s.shutRec := rfl
@[simp] theorem State.modSdmTrip_jrn : (s.modSdmTrip c fD).jrn = s.jrn := rfl
@[simp] theorem State.modSdmTrip_sup : (s.modSdmTrip c fD).sup = s.sup := rfl
@[simp] theorem State.modSdmTrip_due : (s.modSdmTrip c fD).due = s.due := rfl
@[simp] theorem State.modSdmTrip_snaps : (s.modSdmTrip c fD).snaps = s.snaps := rfl
@[simp] theorem State.modSdmTrip_lastRead : (s.modSdmTrip c fD).lastRead = s.lastRead := rfl
@[simp] theorem State.modSdmTrip_tagsUse : (s.modSdmTrip c fD).tagsUse = s.tagsUse := rfl
@[simp] theorem State.modSdmTrip_stalled : (s.modSdmTrip c fD).stalled = s.stalled := rfl
@[simp] theorem State.modSdmTrip_same : (s.modSdmTrip c fD).same = s.same := rfl
@[simp] theorem State.modSdmTrip_freeCnt : (s.modSdmTrip c fD).freeCnt = s.freeCnt := rfl
@[simp] theorem State.modSdmTrip_base : (s.modSdmTrip c fD).base = s.base := rfl
@[simp] theorem State.modSdmTrip_acted : (s.modSdmTrip c fD).acted = s.acted := rfl
@[simp] theorem State.modSdmTrip_actedAt : (s.modSdmTrip c fD).actedAt = s.actedAt := rfl
@[simp] theorem State.modSdmTrip_pending : (s.modSdmTrip c fD).pending = s.pending := rfl
@[simp] theorem State.modSdmTrip_rd : (s.modSdmTrip c fD).rd b = s.rd b := rfl
@[simp] theorem State.modSdmTrip_get : (s.modSdmTrip c fD).get g = s.get g := rfl
@[simp] theorem State.modSdmTrip_bit : (s.modSdmTrip c fD).bit g = s.bit g := rfl
@[simp] theorem State.modSdmTrip_rdSh : (s.modSdmTrip c fD).rdSh b = s.rdSh b := rfl
@[simp] theorem State.modSdmTrip_rdSt : (s.modSdmTrip c fD).rdSt b = s.rdSt b := rfl
@[simp] theorem State.modSdmTrip_memGet : (s.modSdmTrip c fD).memGet b = s.memGet b := rfl

/-! `modSdm` -/
@[simp] theorem State.modSdm_now : (s.modSdm c fS).now = s.now := rfl
@[simp] theorem State.modSdm_regs : (s.modSdm c fS).regs = s.regs := rfl
@[simp] theorem State.modSdm_shadow : (s.modSdm c fS).shadow = s.shadow := rfl
@[simp] theorem State.modSdm_staged : (s.modSdm c fS).staged = s.staged := rfl
@[simp] theorem State.modSdm_mem : (s.modSdm c fS).mem = s.mem := rfl
@[simp] theorem State.modSdm_upset : (s.modSdm c fS).upset = s.upset := rfl
@[simp] theorem State.modSdm_tim : (s.modSdm c fS).tim = s.tim := rfl
@[simp] theorem State.modSdm_load : (s.modSdm c fS).load = s.load := rfl
@[simp] theorem State.modSdm_fuse : (s.modSdm c fS).fuse = s.fuse := rfl
@[simp] theorem State.modSdm_legs : (s.modSdm c fS).legs = s.legs := rfl
@[simp] theorem State.modSdm_teams : (s.modSdm c fS).teams = s.teams := rfl
@[simp] theorem State.modSdm_groups : (s.modSdm c fS).groups = s.groups := rfl
@[simp] theorem State.modSdm_cmps : (s.modSdm c fS).cmps = s.cmps := rfl
@[simp] theorem State.modSdm_tins : (s.modSdm c fS).tins = s.tins := rfl
@[simp] theorem State.modSdm_sdmTrips : (s.modSdm c fS).sdmTrips = s.sdmTrips := rfl
@[simp] theorem State.modSdm_safe : (s.modSdm c fS).safe = s.safe := rfl
@[simp] theorem State.modSdm_sdms : (s.modSdm c fS).sdms = s.sdms.set c (fS s.sdms[c]) := rfl
@[simp] theorem State.modSdm_sdmCk : (s.modSdm c fS).sdmCk = s.sdmCk := rfl
@[simp] theorem State.modSdm_ce : (s.modSdm c fS).ce = s.ce := rfl
@[simp] theorem State.modSdm_fbk : (s.modSdm c fS).fbk = s.fbk := rfl
@[simp] theorem State.modSdm_fbo : (s.modSdm c fS).fbo = s.fbo := rfl
@[simp] theorem State.modSdm_yok : (s.modSdm c fS).yok = s.yok := rfl
@[simp] theorem State.modSdm_net : (s.modSdm c fS).net = s.net := rfl
@[simp] theorem State.modSdm_ser : (s.modSdm c fS).ser = s.ser := rfl
@[simp] theorem State.modSdm_hk : (s.modSdm c fS).hk = s.hk := rfl
@[simp] theorem State.modSdm_shutRec : (s.modSdm c fS).shutRec = s.shutRec := rfl
@[simp] theorem State.modSdm_jrn : (s.modSdm c fS).jrn = s.jrn := rfl
@[simp] theorem State.modSdm_sup : (s.modSdm c fS).sup = s.sup := rfl
@[simp] theorem State.modSdm_due : (s.modSdm c fS).due = s.due := rfl
@[simp] theorem State.modSdm_snaps : (s.modSdm c fS).snaps = s.snaps := rfl
@[simp] theorem State.modSdm_lastRead : (s.modSdm c fS).lastRead = s.lastRead := rfl
@[simp] theorem State.modSdm_tagsUse : (s.modSdm c fS).tagsUse = s.tagsUse := rfl
@[simp] theorem State.modSdm_stalled : (s.modSdm c fS).stalled = s.stalled := rfl
@[simp] theorem State.modSdm_same : (s.modSdm c fS).same = s.same := rfl
@[simp] theorem State.modSdm_freeCnt : (s.modSdm c fS).freeCnt = s.freeCnt := rfl
@[simp] theorem State.modSdm_base : (s.modSdm c fS).base = s.base := rfl
@[simp] theorem State.modSdm_acted : (s.modSdm c fS).acted = s.acted := rfl
@[simp] theorem State.modSdm_actedAt : (s.modSdm c fS).actedAt = s.actedAt := rfl
@[simp] theorem State.modSdm_pending : (s.modSdm c fS).pending = s.pending := rfl
@[simp] theorem State.modSdm_rd : (s.modSdm c fS).rd b = s.rd b := rfl
@[simp] theorem State.modSdm_get : (s.modSdm c fS).get g = s.get g := rfl
@[simp] theorem State.modSdm_bit : (s.modSdm c fS).bit g = s.bit g := rfl
@[simp] theorem State.modSdm_rdSh : (s.modSdm c fS).rdSh b = s.rdSh b := rfl
@[simp] theorem State.modSdm_rdSt : (s.modSdm c fS).rdSt b = s.rdSt b := rfl
@[simp] theorem State.modSdm_memGet : (s.modSdm c fS).memGet b = s.memGet b := rfl

/-! `modPort` -/
@[simp] theorem State.modPort_now : (s.modPort p fP).now = s.now := rfl
@[simp] theorem State.modPort_regs : (s.modPort p fP).regs = s.regs := rfl
@[simp] theorem State.modPort_shadow : (s.modPort p fP).shadow = s.shadow := rfl
@[simp] theorem State.modPort_staged : (s.modPort p fP).staged = s.staged := rfl
@[simp] theorem State.modPort_mem : (s.modPort p fP).mem = s.mem := rfl
@[simp] theorem State.modPort_upset : (s.modPort p fP).upset = s.upset := rfl
@[simp] theorem State.modPort_tim : (s.modPort p fP).tim = s.tim := rfl
@[simp] theorem State.modPort_load : (s.modPort p fP).load = s.load := rfl
@[simp] theorem State.modPort_fuse : (s.modPort p fP).fuse = s.fuse := rfl
@[simp] theorem State.modPort_legs : (s.modPort p fP).legs = s.legs := rfl
@[simp] theorem State.modPort_teams : (s.modPort p fP).teams = s.teams := rfl
@[simp] theorem State.modPort_groups : (s.modPort p fP).groups = s.groups := rfl
@[simp] theorem State.modPort_cmps : (s.modPort p fP).cmps = s.cmps := rfl
@[simp] theorem State.modPort_tins : (s.modPort p fP).tins = s.tins := rfl
@[simp] theorem State.modPort_sdmTrips : (s.modPort p fP).sdmTrips = s.sdmTrips := rfl
@[simp] theorem State.modPort_safe : (s.modPort p fP).safe = s.safe := rfl
@[simp] theorem State.modPort_sdms : (s.modPort p fP).sdms = s.sdms := rfl
@[simp] theorem State.modPort_sdmCk : (s.modPort p fP).sdmCk = s.sdmCk := rfl
@[simp] theorem State.modPort_ce : (s.modPort p fP).ce = s.ce := rfl
@[simp] theorem State.modPort_fbk : (s.modPort p fP).fbk = s.fbk.set p (fP s.fbk[p]) := rfl
@[simp] theorem State.modPort_fbo : (s.modPort p fP).fbo = s.fbo := rfl
@[simp] theorem State.modPort_yok : (s.modPort p fP).yok = s.yok := rfl
@[simp] theorem State.modPort_net : (s.modPort p fP).net = s.net := rfl
@[simp] theorem State.modPort_ser : (s.modPort p fP).ser = s.ser := rfl
@[simp] theorem State.modPort_hk : (s.modPort p fP).hk = s.hk := rfl
@[simp] theorem State.modPort_shutRec : (s.modPort p fP).shutRec = s.shutRec := rfl
@[simp] theorem State.modPort_jrn : (s.modPort p fP).jrn = s.jrn := rfl
@[simp] theorem State.modPort_sup : (s.modPort p fP).sup = s.sup := rfl
@[simp] theorem State.modPort_due : (s.modPort p fP).due = s.due := rfl
@[simp] theorem State.modPort_snaps : (s.modPort p fP).snaps = s.snaps := rfl
@[simp] theorem State.modPort_lastRead : (s.modPort p fP).lastRead = s.lastRead := rfl
@[simp] theorem State.modPort_tagsUse : (s.modPort p fP).tagsUse = s.tagsUse := rfl
@[simp] theorem State.modPort_stalled : (s.modPort p fP).stalled = s.stalled := rfl
@[simp] theorem State.modPort_same : (s.modPort p fP).same = s.same := rfl
@[simp] theorem State.modPort_freeCnt : (s.modPort p fP).freeCnt = s.freeCnt := rfl
@[simp] theorem State.modPort_base : (s.modPort p fP).base = s.base := rfl
@[simp] theorem State.modPort_acted : (s.modPort p fP).acted = s.acted := rfl
@[simp] theorem State.modPort_actedAt : (s.modPort p fP).actedAt = s.actedAt := rfl
@[simp] theorem State.modPort_pending : (s.modPort p fP).pending = s.pending := rfl
@[simp] theorem State.modPort_rd : (s.modPort p fP).rd b = s.rd b := rfl
@[simp] theorem State.modPort_get : (s.modPort p fP).get g = s.get g := rfl
@[simp] theorem State.modPort_bit : (s.modPort p fP).bit g = s.bit g := rfl
@[simp] theorem State.modPort_rdSh : (s.modPort p fP).rdSh b = s.rdSh b := rfl
@[simp] theorem State.modPort_rdSt : (s.modPort p fP).rdSt b = s.rdSt b := rfl
@[simp] theorem State.modPort_memGet : (s.modPort p fP).memGet b = s.memGet b := rfl

/-! `modOut` -/
@[simp] theorem State.modOut_now : (s.modOut o fO).now = s.now := rfl
@[simp] theorem State.modOut_regs : (s.modOut o fO).regs = s.regs := rfl
@[simp] theorem State.modOut_shadow : (s.modOut o fO).shadow = s.shadow := rfl
@[simp] theorem State.modOut_staged : (s.modOut o fO).staged = s.staged := rfl
@[simp] theorem State.modOut_mem : (s.modOut o fO).mem = s.mem := rfl
@[simp] theorem State.modOut_upset : (s.modOut o fO).upset = s.upset := rfl
@[simp] theorem State.modOut_tim : (s.modOut o fO).tim = s.tim := rfl
@[simp] theorem State.modOut_load : (s.modOut o fO).load = s.load := rfl
@[simp] theorem State.modOut_fuse : (s.modOut o fO).fuse = s.fuse := rfl
@[simp] theorem State.modOut_legs : (s.modOut o fO).legs = s.legs := rfl
@[simp] theorem State.modOut_teams : (s.modOut o fO).teams = s.teams := rfl
@[simp] theorem State.modOut_groups : (s.modOut o fO).groups = s.groups := rfl
@[simp] theorem State.modOut_cmps : (s.modOut o fO).cmps = s.cmps := rfl
@[simp] theorem State.modOut_tins : (s.modOut o fO).tins = s.tins := rfl
@[simp] theorem State.modOut_sdmTrips : (s.modOut o fO).sdmTrips = s.sdmTrips := rfl
@[simp] theorem State.modOut_safe : (s.modOut o fO).safe = s.safe := rfl
@[simp] theorem State.modOut_sdms : (s.modOut o fO).sdms = s.sdms := rfl
@[simp] theorem State.modOut_sdmCk : (s.modOut o fO).sdmCk = s.sdmCk := rfl
@[simp] theorem State.modOut_ce : (s.modOut o fO).ce = s.ce := rfl
@[simp] theorem State.modOut_fbk : (s.modOut o fO).fbk = s.fbk := rfl
@[simp] theorem State.modOut_fbo : (s.modOut o fO).fbo = s.fbo.set o (fO s.fbo[o]) := rfl
@[simp] theorem State.modOut_yok : (s.modOut o fO).yok = s.yok := rfl
@[simp] theorem State.modOut_net : (s.modOut o fO).net = s.net := rfl
@[simp] theorem State.modOut_ser : (s.modOut o fO).ser = s.ser := rfl
@[simp] theorem State.modOut_hk : (s.modOut o fO).hk = s.hk := rfl
@[simp] theorem State.modOut_shutRec : (s.modOut o fO).shutRec = s.shutRec := rfl
@[simp] theorem State.modOut_jrn : (s.modOut o fO).jrn = s.jrn := rfl
@[simp] theorem State.modOut_sup : (s.modOut o fO).sup = s.sup := rfl
@[simp] theorem State.modOut_due : (s.modOut o fO).due = s.due := rfl
@[simp] theorem State.modOut_snaps : (s.modOut o fO).snaps = s.snaps := rfl
@[simp] theorem State.modOut_lastRead : (s.modOut o fO).lastRead = s.lastRead := rfl
@[simp] theorem State.modOut_tagsUse : (s.modOut o fO).tagsUse = s.tagsUse := rfl
@[simp] theorem State.modOut_stalled : (s.modOut o fO).stalled = s.stalled := rfl
@[simp] theorem State.modOut_same : (s.modOut o fO).same = s.same := rfl
@[simp] theorem State.modOut_freeCnt : (s.modOut o fO).freeCnt = s.freeCnt := rfl
@[simp] theorem State.modOut_base : (s.modOut o fO).base = s.base := rfl
@[simp] theorem State.modOut_acted : (s.modOut o fO).acted = s.acted := rfl
@[simp] theorem State.modOut_actedAt : (s.modOut o fO).actedAt = s.actedAt := rfl
@[simp] theorem State.modOut_pending : (s.modOut o fO).pending = s.pending := rfl
@[simp] theorem State.modOut_rd : (s.modOut o fO).rd b = s.rd b := rfl
@[simp] theorem State.modOut_get : (s.modOut o fO).get g = s.get g := rfl
@[simp] theorem State.modOut_bit : (s.modOut o fO).bit g = s.bit g := rfl
@[simp] theorem State.modOut_rdSh : (s.modOut o fO).rdSh b = s.rdSh b := rfl
@[simp] theorem State.modOut_rdSt : (s.modOut o fO).rdSt b = s.rdSt b := rfl
@[simp] theorem State.modOut_memGet : (s.modOut o fO).memGet b = s.memGet b := rfl

/-! `modCe` -/
@[simp] theorem State.modCe_now : (s.modCe fE).now = s.now := rfl
@[simp] theorem State.modCe_regs : (s.modCe fE).regs = s.regs := rfl
@[simp] theorem State.modCe_shadow : (s.modCe fE).shadow = s.shadow := rfl
@[simp] theorem State.modCe_staged : (s.modCe fE).staged = s.staged := rfl
@[simp] theorem State.modCe_mem : (s.modCe fE).mem = s.mem := rfl
@[simp] theorem State.modCe_upset : (s.modCe fE).upset = s.upset := rfl
@[simp] theorem State.modCe_tim : (s.modCe fE).tim = s.tim := rfl
@[simp] theorem State.modCe_load : (s.modCe fE).load = s.load := rfl
@[simp] theorem State.modCe_fuse : (s.modCe fE).fuse = s.fuse := rfl
@[simp] theorem State.modCe_legs : (s.modCe fE).legs = s.legs := rfl
@[simp] theorem State.modCe_teams : (s.modCe fE).teams = s.teams := rfl
@[simp] theorem State.modCe_groups : (s.modCe fE).groups = s.groups := rfl
@[simp] theorem State.modCe_cmps : (s.modCe fE).cmps = s.cmps := rfl
@[simp] theorem State.modCe_tins : (s.modCe fE).tins = s.tins := rfl
@[simp] theorem State.modCe_sdmTrips : (s.modCe fE).sdmTrips = s.sdmTrips := rfl
@[simp] theorem State.modCe_safe : (s.modCe fE).safe = s.safe := rfl
@[simp] theorem State.modCe_sdms : (s.modCe fE).sdms = s.sdms := rfl
@[simp] theorem State.modCe_sdmCk : (s.modCe fE).sdmCk = s.sdmCk := rfl
@[simp] theorem State.modCe_ce : (s.modCe fE).ce = fE s.ce := rfl
@[simp] theorem State.modCe_fbk : (s.modCe fE).fbk = s.fbk := rfl
@[simp] theorem State.modCe_fbo : (s.modCe fE).fbo = s.fbo := rfl
@[simp] theorem State.modCe_yok : (s.modCe fE).yok = s.yok := rfl
@[simp] theorem State.modCe_net : (s.modCe fE).net = s.net := rfl
@[simp] theorem State.modCe_ser : (s.modCe fE).ser = s.ser := rfl
@[simp] theorem State.modCe_hk : (s.modCe fE).hk = s.hk := rfl
@[simp] theorem State.modCe_shutRec : (s.modCe fE).shutRec = s.shutRec := rfl
@[simp] theorem State.modCe_jrn : (s.modCe fE).jrn = s.jrn := rfl
@[simp] theorem State.modCe_sup : (s.modCe fE).sup = s.sup := rfl
@[simp] theorem State.modCe_due : (s.modCe fE).due = s.due := rfl
@[simp] theorem State.modCe_snaps : (s.modCe fE).snaps = s.snaps := rfl
@[simp] theorem State.modCe_lastRead : (s.modCe fE).lastRead = s.lastRead := rfl
@[simp] theorem State.modCe_tagsUse : (s.modCe fE).tagsUse = s.tagsUse := rfl
@[simp] theorem State.modCe_stalled : (s.modCe fE).stalled = s.stalled := rfl
@[simp] theorem State.modCe_same : (s.modCe fE).same = s.same := rfl
@[simp] theorem State.modCe_freeCnt : (s.modCe fE).freeCnt = s.freeCnt := rfl
@[simp] theorem State.modCe_base : (s.modCe fE).base = s.base := rfl
@[simp] theorem State.modCe_acted : (s.modCe fE).acted = s.acted := rfl
@[simp] theorem State.modCe_actedAt : (s.modCe fE).actedAt = s.actedAt := rfl
@[simp] theorem State.modCe_pending : (s.modCe fE).pending = s.pending := rfl
@[simp] theorem State.modCe_rd : (s.modCe fE).rd b = s.rd b := rfl
@[simp] theorem State.modCe_get : (s.modCe fE).get g = s.get g := rfl
@[simp] theorem State.modCe_bit : (s.modCe fE).bit g = s.bit g := rfl
@[simp] theorem State.modCe_rdSh : (s.modCe fE).rdSh b = s.rdSh b := rfl
@[simp] theorem State.modCe_rdSt : (s.modCe fE).rdSt b = s.rdSt b := rfl
@[simp] theorem State.modCe_memGet : (s.modCe fE).memGet b = s.memGet b := rfl

/-! `modYok` -/
@[simp] theorem State.modYok_now : (s.modYok fY).now = s.now := rfl
@[simp] theorem State.modYok_regs : (s.modYok fY).regs = s.regs := rfl
@[simp] theorem State.modYok_shadow : (s.modYok fY).shadow = s.shadow := rfl
@[simp] theorem State.modYok_staged : (s.modYok fY).staged = s.staged := rfl
@[simp] theorem State.modYok_mem : (s.modYok fY).mem = s.mem := rfl
@[simp] theorem State.modYok_upset : (s.modYok fY).upset = s.upset := rfl
@[simp] theorem State.modYok_tim : (s.modYok fY).tim = s.tim := rfl
@[simp] theorem State.modYok_load : (s.modYok fY).load = s.load := rfl
@[simp] theorem State.modYok_fuse : (s.modYok fY).fuse = s.fuse := rfl
@[simp] theorem State.modYok_legs : (s.modYok fY).legs = s.legs := rfl
@[simp] theorem State.modYok_teams : (s.modYok fY).teams = s.teams := rfl
@[simp] theorem State.modYok_groups : (s.modYok fY).groups = s.groups := rfl
@[simp] theorem State.modYok_cmps : (s.modYok fY).cmps = s.cmps := rfl
@[simp] theorem State.modYok_tins : (s.modYok fY).tins = s.tins := rfl
@[simp] theorem State.modYok_sdmTrips : (s.modYok fY).sdmTrips = s.sdmTrips := rfl
@[simp] theorem State.modYok_safe : (s.modYok fY).safe = s.safe := rfl
@[simp] theorem State.modYok_sdms : (s.modYok fY).sdms = s.sdms := rfl
@[simp] theorem State.modYok_sdmCk : (s.modYok fY).sdmCk = s.sdmCk := rfl
@[simp] theorem State.modYok_ce : (s.modYok fY).ce = s.ce := rfl
@[simp] theorem State.modYok_fbk : (s.modYok fY).fbk = s.fbk := rfl
@[simp] theorem State.modYok_fbo : (s.modYok fY).fbo = s.fbo := rfl
@[simp] theorem State.modYok_yok : (s.modYok fY).yok = fY s.yok := rfl
@[simp] theorem State.modYok_net : (s.modYok fY).net = s.net := rfl
@[simp] theorem State.modYok_ser : (s.modYok fY).ser = s.ser := rfl
@[simp] theorem State.modYok_hk : (s.modYok fY).hk = s.hk := rfl
@[simp] theorem State.modYok_shutRec : (s.modYok fY).shutRec = s.shutRec := rfl
@[simp] theorem State.modYok_jrn : (s.modYok fY).jrn = s.jrn := rfl
@[simp] theorem State.modYok_sup : (s.modYok fY).sup = s.sup := rfl
@[simp] theorem State.modYok_due : (s.modYok fY).due = s.due := rfl
@[simp] theorem State.modYok_snaps : (s.modYok fY).snaps = s.snaps := rfl
@[simp] theorem State.modYok_lastRead : (s.modYok fY).lastRead = s.lastRead := rfl
@[simp] theorem State.modYok_tagsUse : (s.modYok fY).tagsUse = s.tagsUse := rfl
@[simp] theorem State.modYok_stalled : (s.modYok fY).stalled = s.stalled := rfl
@[simp] theorem State.modYok_same : (s.modYok fY).same = s.same := rfl
@[simp] theorem State.modYok_freeCnt : (s.modYok fY).freeCnt = s.freeCnt := rfl
@[simp] theorem State.modYok_base : (s.modYok fY).base = s.base := rfl
@[simp] theorem State.modYok_acted : (s.modYok fY).acted = s.acted := rfl
@[simp] theorem State.modYok_actedAt : (s.modYok fY).actedAt = s.actedAt := rfl
@[simp] theorem State.modYok_pending : (s.modYok fY).pending = s.pending := rfl
@[simp] theorem State.modYok_rd : (s.modYok fY).rd b = s.rd b := rfl
@[simp] theorem State.modYok_get : (s.modYok fY).get g = s.get g := rfl
@[simp] theorem State.modYok_bit : (s.modYok fY).bit g = s.bit g := rfl
@[simp] theorem State.modYok_rdSh : (s.modYok fY).rdSh b = s.rdSh b := rfl
@[simp] theorem State.modYok_rdSt : (s.modYok fY).rdSt b = s.rdSt b := rfl
@[simp] theorem State.modYok_memGet : (s.modYok fY).memGet b = s.memGet b := rfl

/-! `modTim` -/
@[simp] theorem State.modTim_now : (s.modTim fM).now = s.now := rfl
@[simp] theorem State.modTim_regs : (s.modTim fM).regs = s.regs := rfl
@[simp] theorem State.modTim_shadow : (s.modTim fM).shadow = s.shadow := rfl
@[simp] theorem State.modTim_staged : (s.modTim fM).staged = s.staged := rfl
@[simp] theorem State.modTim_mem : (s.modTim fM).mem = s.mem := rfl
@[simp] theorem State.modTim_upset : (s.modTim fM).upset = s.upset := rfl
@[simp] theorem State.modTim_tim : (s.modTim fM).tim = fM s.tim := rfl
@[simp] theorem State.modTim_load : (s.modTim fM).load = s.load := rfl
@[simp] theorem State.modTim_fuse : (s.modTim fM).fuse = s.fuse := rfl
@[simp] theorem State.modTim_legs : (s.modTim fM).legs = s.legs := rfl
@[simp] theorem State.modTim_teams : (s.modTim fM).teams = s.teams := rfl
@[simp] theorem State.modTim_groups : (s.modTim fM).groups = s.groups := rfl
@[simp] theorem State.modTim_cmps : (s.modTim fM).cmps = s.cmps := rfl
@[simp] theorem State.modTim_tins : (s.modTim fM).tins = s.tins := rfl
@[simp] theorem State.modTim_sdmTrips : (s.modTim fM).sdmTrips = s.sdmTrips := rfl
@[simp] theorem State.modTim_safe : (s.modTim fM).safe = s.safe := rfl
@[simp] theorem State.modTim_sdms : (s.modTim fM).sdms = s.sdms := rfl
@[simp] theorem State.modTim_sdmCk : (s.modTim fM).sdmCk = s.sdmCk := rfl
@[simp] theorem State.modTim_ce : (s.modTim fM).ce = s.ce := rfl
@[simp] theorem State.modTim_fbk : (s.modTim fM).fbk = s.fbk := rfl
@[simp] theorem State.modTim_fbo : (s.modTim fM).fbo = s.fbo := rfl
@[simp] theorem State.modTim_yok : (s.modTim fM).yok = s.yok := rfl
@[simp] theorem State.modTim_net : (s.modTim fM).net = s.net := rfl
@[simp] theorem State.modTim_ser : (s.modTim fM).ser = s.ser := rfl
@[simp] theorem State.modTim_hk : (s.modTim fM).hk = s.hk := rfl
@[simp] theorem State.modTim_shutRec : (s.modTim fM).shutRec = s.shutRec := rfl
@[simp] theorem State.modTim_jrn : (s.modTim fM).jrn = s.jrn := rfl
@[simp] theorem State.modTim_sup : (s.modTim fM).sup = s.sup := rfl
@[simp] theorem State.modTim_due : (s.modTim fM).due = s.due := rfl
@[simp] theorem State.modTim_snaps : (s.modTim fM).snaps = s.snaps := rfl
@[simp] theorem State.modTim_lastRead : (s.modTim fM).lastRead = s.lastRead := rfl
@[simp] theorem State.modTim_tagsUse : (s.modTim fM).tagsUse = s.tagsUse := rfl
@[simp] theorem State.modTim_stalled : (s.modTim fM).stalled = s.stalled := rfl
@[simp] theorem State.modTim_same : (s.modTim fM).same = s.same := rfl
@[simp] theorem State.modTim_freeCnt : (s.modTim fM).freeCnt = s.freeCnt := rfl
@[simp] theorem State.modTim_base : (s.modTim fM).base = s.base := rfl
@[simp] theorem State.modTim_acted : (s.modTim fM).acted = s.acted := rfl
@[simp] theorem State.modTim_actedAt : (s.modTim fM).actedAt = s.actedAt := rfl
@[simp] theorem State.modTim_pending : (s.modTim fM).pending = s.pending := rfl
@[simp] theorem State.modTim_rd : (s.modTim fM).rd b = s.rd b := rfl
@[simp] theorem State.modTim_get : (s.modTim fM).get g = s.get g := rfl
@[simp] theorem State.modTim_bit : (s.modTim fM).bit g = s.bit g := rfl
@[simp] theorem State.modTim_rdSh : (s.modTim fM).rdSh b = s.rdSh b := rfl
@[simp] theorem State.modTim_rdSt : (s.modTim fM).rdSt b = s.rdSt b := rfl
@[simp] theorem State.modTim_memGet : (s.modTim fM).memGet b = s.memGet b := rfl

/-! `modLoad` -/
@[simp] theorem State.modLoad_now : (s.modLoad fLd).now = s.now := rfl
@[simp] theorem State.modLoad_regs : (s.modLoad fLd).regs = s.regs := rfl
@[simp] theorem State.modLoad_shadow : (s.modLoad fLd).shadow = s.shadow := rfl
@[simp] theorem State.modLoad_staged : (s.modLoad fLd).staged = s.staged := rfl
@[simp] theorem State.modLoad_mem : (s.modLoad fLd).mem = s.mem := rfl
@[simp] theorem State.modLoad_upset : (s.modLoad fLd).upset = s.upset := rfl
@[simp] theorem State.modLoad_tim : (s.modLoad fLd).tim = s.tim := rfl
@[simp] theorem State.modLoad_load : (s.modLoad fLd).load = fLd s.load := rfl
@[simp] theorem State.modLoad_fuse : (s.modLoad fLd).fuse = s.fuse := rfl
@[simp] theorem State.modLoad_legs : (s.modLoad fLd).legs = s.legs := rfl
@[simp] theorem State.modLoad_teams : (s.modLoad fLd).teams = s.teams := rfl
@[simp] theorem State.modLoad_groups : (s.modLoad fLd).groups = s.groups := rfl
@[simp] theorem State.modLoad_cmps : (s.modLoad fLd).cmps = s.cmps := rfl
@[simp] theorem State.modLoad_tins : (s.modLoad fLd).tins = s.tins := rfl
@[simp] theorem State.modLoad_sdmTrips : (s.modLoad fLd).sdmTrips = s.sdmTrips := rfl
@[simp] theorem State.modLoad_safe : (s.modLoad fLd).safe = s.safe := rfl
@[simp] theorem State.modLoad_sdms : (s.modLoad fLd).sdms = s.sdms := rfl
@[simp] theorem State.modLoad_sdmCk : (s.modLoad fLd).sdmCk = s.sdmCk := rfl
@[simp] theorem State.modLoad_ce : (s.modLoad fLd).ce = s.ce := rfl
@[simp] theorem State.modLoad_fbk : (s.modLoad fLd).fbk = s.fbk := rfl
@[simp] theorem State.modLoad_fbo : (s.modLoad fLd).fbo = s.fbo := rfl
@[simp] theorem State.modLoad_yok : (s.modLoad fLd).yok = s.yok := rfl
@[simp] theorem State.modLoad_net : (s.modLoad fLd).net = s.net := rfl
@[simp] theorem State.modLoad_ser : (s.modLoad fLd).ser = s.ser := rfl
@[simp] theorem State.modLoad_hk : (s.modLoad fLd).hk = s.hk := rfl
@[simp] theorem State.modLoad_shutRec : (s.modLoad fLd).shutRec = s.shutRec := rfl
@[simp] theorem State.modLoad_jrn : (s.modLoad fLd).jrn = s.jrn := rfl
@[simp] theorem State.modLoad_sup : (s.modLoad fLd).sup = s.sup := rfl
@[simp] theorem State.modLoad_due : (s.modLoad fLd).due = s.due := rfl
@[simp] theorem State.modLoad_snaps : (s.modLoad fLd).snaps = s.snaps := rfl
@[simp] theorem State.modLoad_lastRead : (s.modLoad fLd).lastRead = s.lastRead := rfl
@[simp] theorem State.modLoad_tagsUse : (s.modLoad fLd).tagsUse = s.tagsUse := rfl
@[simp] theorem State.modLoad_stalled : (s.modLoad fLd).stalled = s.stalled := rfl
@[simp] theorem State.modLoad_same : (s.modLoad fLd).same = s.same := rfl
@[simp] theorem State.modLoad_freeCnt : (s.modLoad fLd).freeCnt = s.freeCnt := rfl
@[simp] theorem State.modLoad_base : (s.modLoad fLd).base = s.base := rfl
@[simp] theorem State.modLoad_acted : (s.modLoad fLd).acted = s.acted := rfl
@[simp] theorem State.modLoad_actedAt : (s.modLoad fLd).actedAt = s.actedAt := rfl
@[simp] theorem State.modLoad_pending : (s.modLoad fLd).pending = s.pending := rfl
@[simp] theorem State.modLoad_rd : (s.modLoad fLd).rd b = s.rd b := rfl
@[simp] theorem State.modLoad_get : (s.modLoad fLd).get g = s.get g := rfl
@[simp] theorem State.modLoad_bit : (s.modLoad fLd).bit g = s.bit g := rfl
@[simp] theorem State.modLoad_rdSh : (s.modLoad fLd).rdSh b = s.rdSh b := rfl
@[simp] theorem State.modLoad_rdSt : (s.modLoad fLd).rdSt b = s.rdSt b := rfl
@[simp] theorem State.modLoad_memGet : (s.modLoad fLd).memGet b = s.memGet b := rfl

/-! `modNet` -/
@[simp] theorem State.modNet_now : (s.modNet fN).now = s.now := rfl
@[simp] theorem State.modNet_regs : (s.modNet fN).regs = s.regs := rfl
@[simp] theorem State.modNet_shadow : (s.modNet fN).shadow = s.shadow := rfl
@[simp] theorem State.modNet_staged : (s.modNet fN).staged = s.staged := rfl
@[simp] theorem State.modNet_mem : (s.modNet fN).mem = s.mem := rfl
@[simp] theorem State.modNet_upset : (s.modNet fN).upset = s.upset := rfl
@[simp] theorem State.modNet_tim : (s.modNet fN).tim = s.tim := rfl
@[simp] theorem State.modNet_load : (s.modNet fN).load = s.load := rfl
@[simp] theorem State.modNet_fuse : (s.modNet fN).fuse = s.fuse := rfl
@[simp] theorem State.modNet_legs : (s.modNet fN).legs = s.legs := rfl
@[simp] theorem State.modNet_teams : (s.modNet fN).teams = s.teams := rfl
@[simp] theorem State.modNet_groups : (s.modNet fN).groups = s.groups := rfl
@[simp] theorem State.modNet_cmps : (s.modNet fN).cmps = s.cmps := rfl
@[simp] theorem State.modNet_tins : (s.modNet fN).tins = s.tins := rfl
@[simp] theorem State.modNet_sdmTrips : (s.modNet fN).sdmTrips = s.sdmTrips := rfl
@[simp] theorem State.modNet_safe : (s.modNet fN).safe = s.safe := rfl
@[simp] theorem State.modNet_sdms : (s.modNet fN).sdms = s.sdms := rfl
@[simp] theorem State.modNet_sdmCk : (s.modNet fN).sdmCk = s.sdmCk := rfl
@[simp] theorem State.modNet_ce : (s.modNet fN).ce = s.ce := rfl
@[simp] theorem State.modNet_fbk : (s.modNet fN).fbk = s.fbk := rfl
@[simp] theorem State.modNet_fbo : (s.modNet fN).fbo = s.fbo := rfl
@[simp] theorem State.modNet_yok : (s.modNet fN).yok = s.yok := rfl
@[simp] theorem State.modNet_net : (s.modNet fN).net = fN s.net := rfl
@[simp] theorem State.modNet_ser : (s.modNet fN).ser = s.ser := rfl
@[simp] theorem State.modNet_hk : (s.modNet fN).hk = s.hk := rfl
@[simp] theorem State.modNet_shutRec : (s.modNet fN).shutRec = s.shutRec := rfl
@[simp] theorem State.modNet_jrn : (s.modNet fN).jrn = s.jrn := rfl
@[simp] theorem State.modNet_sup : (s.modNet fN).sup = s.sup := rfl
@[simp] theorem State.modNet_due : (s.modNet fN).due = s.due := rfl
@[simp] theorem State.modNet_snaps : (s.modNet fN).snaps = s.snaps := rfl
@[simp] theorem State.modNet_lastRead : (s.modNet fN).lastRead = s.lastRead := rfl
@[simp] theorem State.modNet_tagsUse : (s.modNet fN).tagsUse = s.tagsUse := rfl
@[simp] theorem State.modNet_stalled : (s.modNet fN).stalled = s.stalled := rfl
@[simp] theorem State.modNet_same : (s.modNet fN).same = s.same := rfl
@[simp] theorem State.modNet_freeCnt : (s.modNet fN).freeCnt = s.freeCnt := rfl
@[simp] theorem State.modNet_base : (s.modNet fN).base = s.base := rfl
@[simp] theorem State.modNet_acted : (s.modNet fN).acted = s.acted := rfl
@[simp] theorem State.modNet_actedAt : (s.modNet fN).actedAt = s.actedAt := rfl
@[simp] theorem State.modNet_pending : (s.modNet fN).pending = s.pending := rfl
@[simp] theorem State.modNet_rd : (s.modNet fN).rd b = s.rd b := rfl
@[simp] theorem State.modNet_get : (s.modNet fN).get g = s.get g := rfl
@[simp] theorem State.modNet_bit : (s.modNet fN).bit g = s.bit g := rfl
@[simp] theorem State.modNet_rdSh : (s.modNet fN).rdSh b = s.rdSh b := rfl
@[simp] theorem State.modNet_rdSt : (s.modNet fN).rdSt b = s.rdSt b := rfl
@[simp] theorem State.modNet_memGet : (s.modNet fN).memGet b = s.memGet b := rfl

/-! `modSer` -/
@[simp] theorem State.modSer_now : (s.modSer fSr).now = s.now := rfl
@[simp] theorem State.modSer_regs : (s.modSer fSr).regs = s.regs := rfl
@[simp] theorem State.modSer_shadow : (s.modSer fSr).shadow = s.shadow := rfl
@[simp] theorem State.modSer_staged : (s.modSer fSr).staged = s.staged := rfl
@[simp] theorem State.modSer_mem : (s.modSer fSr).mem = s.mem := rfl
@[simp] theorem State.modSer_upset : (s.modSer fSr).upset = s.upset := rfl
@[simp] theorem State.modSer_tim : (s.modSer fSr).tim = s.tim := rfl
@[simp] theorem State.modSer_load : (s.modSer fSr).load = s.load := rfl
@[simp] theorem State.modSer_fuse : (s.modSer fSr).fuse = s.fuse := rfl
@[simp] theorem State.modSer_legs : (s.modSer fSr).legs = s.legs := rfl
@[simp] theorem State.modSer_teams : (s.modSer fSr).teams = s.teams := rfl
@[simp] theorem State.modSer_groups : (s.modSer fSr).groups = s.groups := rfl
@[simp] theorem State.modSer_cmps : (s.modSer fSr).cmps = s.cmps := rfl
@[simp] theorem State.modSer_tins : (s.modSer fSr).tins = s.tins := rfl
@[simp] theorem State.modSer_sdmTrips : (s.modSer fSr).sdmTrips = s.sdmTrips := rfl
@[simp] theorem State.modSer_safe : (s.modSer fSr).safe = s.safe := rfl
@[simp] theorem State.modSer_sdms : (s.modSer fSr).sdms = s.sdms := rfl
@[simp] theorem State.modSer_sdmCk : (s.modSer fSr).sdmCk = s.sdmCk := rfl
@[simp] theorem State.modSer_ce : (s.modSer fSr).ce = s.ce := rfl
@[simp] theorem State.modSer_fbk : (s.modSer fSr).fbk = s.fbk := rfl
@[simp] theorem State.modSer_fbo : (s.modSer fSr).fbo = s.fbo := rfl
@[simp] theorem State.modSer_yok : (s.modSer fSr).yok = s.yok := rfl
@[simp] theorem State.modSer_net : (s.modSer fSr).net = s.net := rfl
@[simp] theorem State.modSer_ser : (s.modSer fSr).ser = fSr s.ser := rfl
@[simp] theorem State.modSer_hk : (s.modSer fSr).hk = s.hk := rfl
@[simp] theorem State.modSer_shutRec : (s.modSer fSr).shutRec = s.shutRec := rfl
@[simp] theorem State.modSer_jrn : (s.modSer fSr).jrn = s.jrn := rfl
@[simp] theorem State.modSer_sup : (s.modSer fSr).sup = s.sup := rfl
@[simp] theorem State.modSer_due : (s.modSer fSr).due = s.due := rfl
@[simp] theorem State.modSer_snaps : (s.modSer fSr).snaps = s.snaps := rfl
@[simp] theorem State.modSer_lastRead : (s.modSer fSr).lastRead = s.lastRead := rfl
@[simp] theorem State.modSer_tagsUse : (s.modSer fSr).tagsUse = s.tagsUse := rfl
@[simp] theorem State.modSer_stalled : (s.modSer fSr).stalled = s.stalled := rfl
@[simp] theorem State.modSer_same : (s.modSer fSr).same = s.same := rfl
@[simp] theorem State.modSer_freeCnt : (s.modSer fSr).freeCnt = s.freeCnt := rfl
@[simp] theorem State.modSer_base : (s.modSer fSr).base = s.base := rfl
@[simp] theorem State.modSer_acted : (s.modSer fSr).acted = s.acted := rfl
@[simp] theorem State.modSer_actedAt : (s.modSer fSr).actedAt = s.actedAt := rfl
@[simp] theorem State.modSer_pending : (s.modSer fSr).pending = s.pending := rfl
@[simp] theorem State.modSer_rd : (s.modSer fSr).rd b = s.rd b := rfl
@[simp] theorem State.modSer_get : (s.modSer fSr).get g = s.get g := rfl
@[simp] theorem State.modSer_bit : (s.modSer fSr).bit g = s.bit g := rfl
@[simp] theorem State.modSer_rdSh : (s.modSer fSr).rdSh b = s.rdSh b := rfl
@[simp] theorem State.modSer_rdSt : (s.modSer fSr).rdSt b = s.rdSt b := rfl
@[simp] theorem State.modSer_memGet : (s.modSer fSr).memGet b = s.memGet b := rfl

/-! `modHk` -/
@[simp] theorem State.modHk_now : (s.modHk fH).now = s.now := rfl
@[simp] theorem State.modHk_regs : (s.modHk fH).regs = s.regs := rfl
@[simp] theorem State.modHk_shadow : (s.modHk fH).shadow = s.shadow := rfl
@[simp] theorem State.modHk_staged : (s.modHk fH).staged = s.staged := rfl
@[simp] theorem State.modHk_mem : (s.modHk fH).mem = s.mem := rfl
@[simp] theorem State.modHk_upset : (s.modHk fH).upset = s.upset := rfl
@[simp] theorem State.modHk_tim : (s.modHk fH).tim = s.tim := rfl
@[simp] theorem State.modHk_load : (s.modHk fH).load = s.load := rfl
@[simp] theorem State.modHk_fuse : (s.modHk fH).fuse = s.fuse := rfl
@[simp] theorem State.modHk_legs : (s.modHk fH).legs = s.legs := rfl
@[simp] theorem State.modHk_teams : (s.modHk fH).teams = s.teams := rfl
@[simp] theorem State.modHk_groups : (s.modHk fH).groups = s.groups := rfl
@[simp] theorem State.modHk_cmps : (s.modHk fH).cmps = s.cmps := rfl
@[simp] theorem State.modHk_tins : (s.modHk fH).tins = s.tins := rfl
@[simp] theorem State.modHk_sdmTrips : (s.modHk fH).sdmTrips = s.sdmTrips := rfl
@[simp] theorem State.modHk_safe : (s.modHk fH).safe = s.safe := rfl
@[simp] theorem State.modHk_sdms : (s.modHk fH).sdms = s.sdms := rfl
@[simp] theorem State.modHk_sdmCk : (s.modHk fH).sdmCk = s.sdmCk := rfl
@[simp] theorem State.modHk_ce : (s.modHk fH).ce = s.ce := rfl
@[simp] theorem State.modHk_fbk : (s.modHk fH).fbk = s.fbk := rfl
@[simp] theorem State.modHk_fbo : (s.modHk fH).fbo = s.fbo := rfl
@[simp] theorem State.modHk_yok : (s.modHk fH).yok = s.yok := rfl
@[simp] theorem State.modHk_net : (s.modHk fH).net = s.net := rfl
@[simp] theorem State.modHk_ser : (s.modHk fH).ser = s.ser := rfl
@[simp] theorem State.modHk_hk : (s.modHk fH).hk = fH s.hk := rfl
@[simp] theorem State.modHk_shutRec : (s.modHk fH).shutRec = s.shutRec := rfl
@[simp] theorem State.modHk_jrn : (s.modHk fH).jrn = s.jrn := rfl
@[simp] theorem State.modHk_sup : (s.modHk fH).sup = s.sup := rfl
@[simp] theorem State.modHk_due : (s.modHk fH).due = s.due := rfl
@[simp] theorem State.modHk_snaps : (s.modHk fH).snaps = s.snaps := rfl
@[simp] theorem State.modHk_lastRead : (s.modHk fH).lastRead = s.lastRead := rfl
@[simp] theorem State.modHk_tagsUse : (s.modHk fH).tagsUse = s.tagsUse := rfl
@[simp] theorem State.modHk_stalled : (s.modHk fH).stalled = s.stalled := rfl
@[simp] theorem State.modHk_same : (s.modHk fH).same = s.same := rfl
@[simp] theorem State.modHk_freeCnt : (s.modHk fH).freeCnt = s.freeCnt := rfl
@[simp] theorem State.modHk_base : (s.modHk fH).base = s.base := rfl
@[simp] theorem State.modHk_acted : (s.modHk fH).acted = s.acted := rfl
@[simp] theorem State.modHk_actedAt : (s.modHk fH).actedAt = s.actedAt := rfl
@[simp] theorem State.modHk_pending : (s.modHk fH).pending = s.pending := rfl
@[simp] theorem State.modHk_rd : (s.modHk fH).rd b = s.rd b := rfl
@[simp] theorem State.modHk_get : (s.modHk fH).get g = s.get g := rfl
@[simp] theorem State.modHk_bit : (s.modHk fH).bit g = s.bit g := rfl
@[simp] theorem State.modHk_rdSh : (s.modHk fH).rdSh b = s.rdSh b := rfl
@[simp] theorem State.modHk_rdSt : (s.modHk fH).rdSt b = s.rdSt b := rfl
@[simp] theorem State.modHk_memGet : (s.modHk fH).memGet b = s.memGet b := rfl

/-! `modJrn` -/
@[simp] theorem State.modJrn_now : (s.modJrn fJ).now = s.now := rfl
@[simp] theorem State.modJrn_regs : (s.modJrn fJ).regs = s.regs := rfl
@[simp] theorem State.modJrn_shadow : (s.modJrn fJ).shadow = s.shadow := rfl
@[simp] theorem State.modJrn_staged : (s.modJrn fJ).staged = s.staged := rfl
@[simp] theorem State.modJrn_mem : (s.modJrn fJ).mem = s.mem := rfl
@[simp] theorem State.modJrn_upset : (s.modJrn fJ).upset = s.upset := rfl
@[simp] theorem State.modJrn_tim : (s.modJrn fJ).tim = s.tim := rfl
@[simp] theorem State.modJrn_load : (s.modJrn fJ).load = s.load := rfl
@[simp] theorem State.modJrn_fuse : (s.modJrn fJ).fuse = s.fuse := rfl
@[simp] theorem State.modJrn_legs : (s.modJrn fJ).legs = s.legs := rfl
@[simp] theorem State.modJrn_teams : (s.modJrn fJ).teams = s.teams := rfl
@[simp] theorem State.modJrn_groups : (s.modJrn fJ).groups = s.groups := rfl
@[simp] theorem State.modJrn_cmps : (s.modJrn fJ).cmps = s.cmps := rfl
@[simp] theorem State.modJrn_tins : (s.modJrn fJ).tins = s.tins := rfl
@[simp] theorem State.modJrn_sdmTrips : (s.modJrn fJ).sdmTrips = s.sdmTrips := rfl
@[simp] theorem State.modJrn_safe : (s.modJrn fJ).safe = s.safe := rfl
@[simp] theorem State.modJrn_sdms : (s.modJrn fJ).sdms = s.sdms := rfl
@[simp] theorem State.modJrn_sdmCk : (s.modJrn fJ).sdmCk = s.sdmCk := rfl
@[simp] theorem State.modJrn_ce : (s.modJrn fJ).ce = s.ce := rfl
@[simp] theorem State.modJrn_fbk : (s.modJrn fJ).fbk = s.fbk := rfl
@[simp] theorem State.modJrn_fbo : (s.modJrn fJ).fbo = s.fbo := rfl
@[simp] theorem State.modJrn_yok : (s.modJrn fJ).yok = s.yok := rfl
@[simp] theorem State.modJrn_net : (s.modJrn fJ).net = s.net := rfl
@[simp] theorem State.modJrn_ser : (s.modJrn fJ).ser = s.ser := rfl
@[simp] theorem State.modJrn_hk : (s.modJrn fJ).hk = s.hk := rfl
@[simp] theorem State.modJrn_shutRec : (s.modJrn fJ).shutRec = s.shutRec := rfl
@[simp] theorem State.modJrn_jrn : (s.modJrn fJ).jrn = fJ s.jrn := rfl
@[simp] theorem State.modJrn_sup : (s.modJrn fJ).sup = s.sup := rfl
@[simp] theorem State.modJrn_due : (s.modJrn fJ).due = s.due := rfl
@[simp] theorem State.modJrn_snaps : (s.modJrn fJ).snaps = s.snaps := rfl
@[simp] theorem State.modJrn_lastRead : (s.modJrn fJ).lastRead = s.lastRead := rfl
@[simp] theorem State.modJrn_tagsUse : (s.modJrn fJ).tagsUse = s.tagsUse := rfl
@[simp] theorem State.modJrn_stalled : (s.modJrn fJ).stalled = s.stalled := rfl
@[simp] theorem State.modJrn_same : (s.modJrn fJ).same = s.same := rfl
@[simp] theorem State.modJrn_freeCnt : (s.modJrn fJ).freeCnt = s.freeCnt := rfl
@[simp] theorem State.modJrn_base : (s.modJrn fJ).base = s.base := rfl
@[simp] theorem State.modJrn_acted : (s.modJrn fJ).acted = s.acted := rfl
@[simp] theorem State.modJrn_actedAt : (s.modJrn fJ).actedAt = s.actedAt := rfl
@[simp] theorem State.modJrn_pending : (s.modJrn fJ).pending = s.pending := rfl
@[simp] theorem State.modJrn_rd : (s.modJrn fJ).rd b = s.rd b := rfl
@[simp] theorem State.modJrn_get : (s.modJrn fJ).get g = s.get g := rfl
@[simp] theorem State.modJrn_bit : (s.modJrn fJ).bit g = s.bit g := rfl
@[simp] theorem State.modJrn_rdSh : (s.modJrn fJ).rdSh b = s.rdSh b := rfl
@[simp] theorem State.modJrn_rdSt : (s.modJrn fJ).rdSt b = s.rdSt b := rfl
@[simp] theorem State.modJrn_memGet : (s.modJrn fJ).memGet b = s.memGet b := rfl

/-! `defer` -/
@[simp] theorem State.defer_now : (s.defer d0 df).now = s.now := rfl
@[simp] theorem State.defer_regs : (s.defer d0 df).regs = s.regs := rfl
@[simp] theorem State.defer_shadow : (s.defer d0 df).shadow = s.shadow := rfl
@[simp] theorem State.defer_staged : (s.defer d0 df).staged = s.staged := rfl
@[simp] theorem State.defer_mem : (s.defer d0 df).mem = s.mem := rfl
@[simp] theorem State.defer_upset : (s.defer d0 df).upset = s.upset := rfl
@[simp] theorem State.defer_tim : (s.defer d0 df).tim = s.tim := rfl
@[simp] theorem State.defer_load : (s.defer d0 df).load = s.load := rfl
@[simp] theorem State.defer_fuse : (s.defer d0 df).fuse = s.fuse := rfl
@[simp] theorem State.defer_legs : (s.defer d0 df).legs = s.legs := rfl
@[simp] theorem State.defer_teams : (s.defer d0 df).teams = s.teams := rfl
@[simp] theorem State.defer_groups : (s.defer d0 df).groups = s.groups := rfl
@[simp] theorem State.defer_cmps : (s.defer d0 df).cmps = s.cmps := rfl
@[simp] theorem State.defer_tins : (s.defer d0 df).tins = s.tins := rfl
@[simp] theorem State.defer_sdmTrips : (s.defer d0 df).sdmTrips = s.sdmTrips := rfl
@[simp] theorem State.defer_safe : (s.defer d0 df).safe = s.safe := rfl
@[simp] theorem State.defer_sdms : (s.defer d0 df).sdms = s.sdms := rfl
@[simp] theorem State.defer_sdmCk : (s.defer d0 df).sdmCk = s.sdmCk := rfl
@[simp] theorem State.defer_ce : (s.defer d0 df).ce = s.ce := rfl
@[simp] theorem State.defer_fbk : (s.defer d0 df).fbk = s.fbk := rfl
@[simp] theorem State.defer_fbo : (s.defer d0 df).fbo = s.fbo := rfl
@[simp] theorem State.defer_yok : (s.defer d0 df).yok = s.yok := rfl
@[simp] theorem State.defer_net : (s.defer d0 df).net = s.net := rfl
@[simp] theorem State.defer_ser : (s.defer d0 df).ser = s.ser := rfl
@[simp] theorem State.defer_hk : (s.defer d0 df).hk = s.hk := rfl
@[simp] theorem State.defer_shutRec : (s.defer d0 df).shutRec = s.shutRec := rfl
@[simp] theorem State.defer_jrn : (s.defer d0 df).jrn = s.jrn := rfl
@[simp] theorem State.defer_sup : (s.defer d0 df).sup = s.sup := rfl
@[simp] theorem State.defer_due : (s.defer d0 df).due = s.due ++ [(d0, df)] := rfl
@[simp] theorem State.defer_snaps : (s.defer d0 df).snaps = s.snaps := rfl
@[simp] theorem State.defer_lastRead : (s.defer d0 df).lastRead = s.lastRead := rfl
@[simp] theorem State.defer_tagsUse : (s.defer d0 df).tagsUse = s.tagsUse := rfl
@[simp] theorem State.defer_stalled : (s.defer d0 df).stalled = s.stalled := rfl
@[simp] theorem State.defer_same : (s.defer d0 df).same = s.same := rfl
@[simp] theorem State.defer_freeCnt : (s.defer d0 df).freeCnt = s.freeCnt := rfl
@[simp] theorem State.defer_base : (s.defer d0 df).base = s.base := rfl
@[simp] theorem State.defer_acted : (s.defer d0 df).acted = s.acted := rfl
@[simp] theorem State.defer_actedAt : (s.defer d0 df).actedAt = s.actedAt := rfl
@[simp] theorem State.defer_pending : (s.defer d0 df).pending = s.pending := rfl
@[simp] theorem State.defer_rd : (s.defer d0 df).rd b = s.rd b := rfl
@[simp] theorem State.defer_get : (s.defer d0 df).get g = s.get g := rfl
@[simp] theorem State.defer_bit : (s.defer d0 df).bit g = s.bit g := rfl
@[simp] theorem State.defer_rdSh : (s.defer d0 df).rdSh b = s.rdSh b := rfl
@[simp] theorem State.defer_rdSt : (s.defer d0 df).rdSt b = s.rdSt b := rfl
@[simp] theorem State.defer_memGet : (s.defer d0 df).memGet b = s.memGet b := rfl

/-! `undefer` -/
@[simp] theorem State.undefer_now : (s.undefer pD).now = s.now := rfl
@[simp] theorem State.undefer_regs : (s.undefer pD).regs = s.regs := rfl
@[simp] theorem State.undefer_shadow : (s.undefer pD).shadow = s.shadow := rfl
@[simp] theorem State.undefer_staged : (s.undefer pD).staged = s.staged := rfl
@[simp] theorem State.undefer_mem : (s.undefer pD).mem = s.mem := rfl
@[simp] theorem State.undefer_upset : (s.undefer pD).upset = s.upset := rfl
@[simp] theorem State.undefer_tim : (s.undefer pD).tim = s.tim := rfl
@[simp] theorem State.undefer_load : (s.undefer pD).load = s.load := rfl
@[simp] theorem State.undefer_fuse : (s.undefer pD).fuse = s.fuse := rfl
@[simp] theorem State.undefer_legs : (s.undefer pD).legs = s.legs := rfl
@[simp] theorem State.undefer_teams : (s.undefer pD).teams = s.teams := rfl
@[simp] theorem State.undefer_groups : (s.undefer pD).groups = s.groups := rfl
@[simp] theorem State.undefer_cmps : (s.undefer pD).cmps = s.cmps := rfl
@[simp] theorem State.undefer_tins : (s.undefer pD).tins = s.tins := rfl
@[simp] theorem State.undefer_sdmTrips : (s.undefer pD).sdmTrips = s.sdmTrips := rfl
@[simp] theorem State.undefer_safe : (s.undefer pD).safe = s.safe := rfl
@[simp] theorem State.undefer_sdms : (s.undefer pD).sdms = s.sdms := rfl
@[simp] theorem State.undefer_sdmCk : (s.undefer pD).sdmCk = s.sdmCk := rfl
@[simp] theorem State.undefer_ce : (s.undefer pD).ce = s.ce := rfl
@[simp] theorem State.undefer_fbk : (s.undefer pD).fbk = s.fbk := rfl
@[simp] theorem State.undefer_fbo : (s.undefer pD).fbo = s.fbo := rfl
@[simp] theorem State.undefer_yok : (s.undefer pD).yok = s.yok := rfl
@[simp] theorem State.undefer_net : (s.undefer pD).net = s.net := rfl
@[simp] theorem State.undefer_ser : (s.undefer pD).ser = s.ser := rfl
@[simp] theorem State.undefer_hk : (s.undefer pD).hk = s.hk := rfl
@[simp] theorem State.undefer_shutRec : (s.undefer pD).shutRec = s.shutRec := rfl
@[simp] theorem State.undefer_jrn : (s.undefer pD).jrn = s.jrn := rfl
@[simp] theorem State.undefer_sup : (s.undefer pD).sup = s.sup := rfl
@[simp] theorem State.undefer_due : (s.undefer pD).due = s.due.filter (fun e => !pD e.2) := rfl
@[simp] theorem State.undefer_snaps : (s.undefer pD).snaps = s.snaps := rfl
@[simp] theorem State.undefer_lastRead : (s.undefer pD).lastRead = s.lastRead := rfl
@[simp] theorem State.undefer_tagsUse : (s.undefer pD).tagsUse = s.tagsUse := rfl
@[simp] theorem State.undefer_stalled : (s.undefer pD).stalled = s.stalled := rfl
@[simp] theorem State.undefer_same : (s.undefer pD).same = s.same := rfl
@[simp] theorem State.undefer_freeCnt : (s.undefer pD).freeCnt = s.freeCnt := rfl
@[simp] theorem State.undefer_base : (s.undefer pD).base = s.base := rfl
@[simp] theorem State.undefer_acted : (s.undefer pD).acted = s.acted := rfl
@[simp] theorem State.undefer_actedAt : (s.undefer pD).actedAt = s.actedAt := rfl
@[simp] theorem State.undefer_pending : (s.undefer pD).pending = s.pending := rfl
@[simp] theorem State.undefer_rd : (s.undefer pD).rd b = s.rd b := rfl
@[simp] theorem State.undefer_get : (s.undefer pD).get g = s.get g := rfl
@[simp] theorem State.undefer_bit : (s.undefer pD).bit g = s.bit g := rfl
@[simp] theorem State.undefer_rdSh : (s.undefer pD).rdSh b = s.rdSh b := rfl
@[simp] theorem State.undefer_rdSt : (s.undefer pD).rdSt b = s.rdSt b := rfl
@[simp] theorem State.undefer_memGet : (s.undefer pD).memGet b = s.memGet b := rfl

/-! `raise` -/
@[simp] theorem State.raise_now : (s.raise f).now = s.now := rfl
@[simp] theorem State.raise_shadow : (s.raise f).shadow = s.shadow := rfl
@[simp] theorem State.raise_staged : (s.raise f).staged = s.staged := rfl
@[simp] theorem State.raise_mem : (s.raise f).mem = s.mem := rfl
@[simp] theorem State.raise_upset : (s.raise f).upset = s.upset := rfl
@[simp] theorem State.raise_tim : (s.raise f).tim = s.tim := rfl
@[simp] theorem State.raise_load : (s.raise f).load = s.load := rfl
@[simp] theorem State.raise_fuse : (s.raise f).fuse = s.fuse := rfl
@[simp] theorem State.raise_legs : (s.raise f).legs = s.legs := rfl
@[simp] theorem State.raise_teams : (s.raise f).teams = s.teams := rfl
@[simp] theorem State.raise_groups : (s.raise f).groups = s.groups := rfl
@[simp] theorem State.raise_cmps : (s.raise f).cmps = s.cmps := rfl
@[simp] theorem State.raise_tins : (s.raise f).tins = s.tins := rfl
@[simp] theorem State.raise_sdmTrips : (s.raise f).sdmTrips = s.sdmTrips := rfl
@[simp] theorem State.raise_safe : (s.raise f).safe = s.safe := rfl
@[simp] theorem State.raise_sdms : (s.raise f).sdms = s.sdms := rfl
@[simp] theorem State.raise_sdmCk : (s.raise f).sdmCk = s.sdmCk := rfl
@[simp] theorem State.raise_ce : (s.raise f).ce = s.ce := rfl
@[simp] theorem State.raise_fbk : (s.raise f).fbk = s.fbk := rfl
@[simp] theorem State.raise_fbo : (s.raise f).fbo = s.fbo := rfl
@[simp] theorem State.raise_yok : (s.raise f).yok = s.yok := rfl
@[simp] theorem State.raise_net : (s.raise f).net = s.net := rfl
@[simp] theorem State.raise_ser : (s.raise f).ser = s.ser := rfl
@[simp] theorem State.raise_hk : (s.raise f).hk = s.hk := rfl
@[simp] theorem State.raise_shutRec : (s.raise f).shutRec = s.shutRec := rfl
@[simp] theorem State.raise_jrn : (s.raise f).jrn = s.jrn := rfl
@[simp] theorem State.raise_sup : (s.raise f).sup = s.sup := rfl
@[simp] theorem State.raise_due : (s.raise f).due = s.due := rfl
@[simp] theorem State.raise_snaps : (s.raise f).snaps = s.snaps := rfl
@[simp] theorem State.raise_lastRead : (s.raise f).lastRead = s.lastRead := rfl
@[simp] theorem State.raise_tagsUse : (s.raise f).tagsUse = s.tagsUse := rfl
@[simp] theorem State.raise_stalled : (s.raise f).stalled = s.stalled := rfl
@[simp] theorem State.raise_freeCnt : (s.raise f).freeCnt = s.freeCnt := rfl
@[simp] theorem State.raise_base : (s.raise f).base = s.base := rfl
@[simp] theorem State.raise_acted : (s.raise f).acted = s.acted := rfl
@[simp] theorem State.raise_actedAt : (s.raise f).actedAt = s.actedAt := rfl
@[simp] theorem State.raise_pending : (s.raise f).pending = s.pending := rfl
@[simp] theorem State.raise_regs : (s.raise f).regs = (s.put f 1).regs := rfl
@[simp] theorem State.raise_same : (s.raise f).same
    = { s.same.of s.now with bits := (f.addr, f.lo) :: (s.same.of s.now).bits } := rfl
@[simp] theorem State.raise_rd : (s.raise f).rd b = (s.put f 1).rd b := rfl
@[simp] theorem State.raise_get : (s.raise f).get g = (s.put f 1).get g := rfl
@[simp] theorem State.raise_bit : (s.raise f).bit g = (s.put f 1).bit g := rfl
@[simp] theorem State.raise_rdSh : (s.raise f).rdSh b = s.rdSh b := rfl
@[simp] theorem State.raise_rdSt : (s.raise f).rdSt b = s.rdSt b := rfl
@[simp] theorem State.raise_memGet : (s.raise f).memGet b = s.memGet b := rfl

/-! `noteUp` -/
@[simp] theorem State.noteUp_now : (s.noteUp up).now = s.now := rfl
@[simp] theorem State.noteUp_shadow : (s.noteUp up).shadow = s.shadow := rfl
@[simp] theorem State.noteUp_staged : (s.noteUp up).staged = s.staged := rfl
@[simp] theorem State.noteUp_mem : (s.noteUp up).mem = s.mem := rfl
@[simp] theorem State.noteUp_upset : (s.noteUp up).upset = s.upset := rfl
@[simp] theorem State.noteUp_tim : (s.noteUp up).tim = s.tim := rfl
@[simp] theorem State.noteUp_load : (s.noteUp up).load = s.load := rfl
@[simp] theorem State.noteUp_fuse : (s.noteUp up).fuse = s.fuse := rfl
@[simp] theorem State.noteUp_legs : (s.noteUp up).legs = s.legs := rfl
@[simp] theorem State.noteUp_teams : (s.noteUp up).teams = s.teams := rfl
@[simp] theorem State.noteUp_groups : (s.noteUp up).groups = s.groups := rfl
@[simp] theorem State.noteUp_cmps : (s.noteUp up).cmps = s.cmps := rfl
@[simp] theorem State.noteUp_tins : (s.noteUp up).tins = s.tins := rfl
@[simp] theorem State.noteUp_sdmTrips : (s.noteUp up).sdmTrips = s.sdmTrips := rfl
@[simp] theorem State.noteUp_safe : (s.noteUp up).safe = s.safe := rfl
@[simp] theorem State.noteUp_sdms : (s.noteUp up).sdms = s.sdms := rfl
@[simp] theorem State.noteUp_sdmCk : (s.noteUp up).sdmCk = s.sdmCk := rfl
@[simp] theorem State.noteUp_ce : (s.noteUp up).ce = s.ce := rfl
@[simp] theorem State.noteUp_fbk : (s.noteUp up).fbk = s.fbk := rfl
@[simp] theorem State.noteUp_fbo : (s.noteUp up).fbo = s.fbo := rfl
@[simp] theorem State.noteUp_yok : (s.noteUp up).yok = s.yok := rfl
@[simp] theorem State.noteUp_net : (s.noteUp up).net = s.net := rfl
@[simp] theorem State.noteUp_ser : (s.noteUp up).ser = s.ser := rfl
@[simp] theorem State.noteUp_hk : (s.noteUp up).hk = s.hk := rfl
@[simp] theorem State.noteUp_shutRec : (s.noteUp up).shutRec = s.shutRec := rfl
@[simp] theorem State.noteUp_jrn : (s.noteUp up).jrn = s.jrn := rfl
@[simp] theorem State.noteUp_sup : (s.noteUp up).sup = s.sup := rfl
@[simp] theorem State.noteUp_due : (s.noteUp up).due = s.due := rfl
@[simp] theorem State.noteUp_snaps : (s.noteUp up).snaps = s.snaps := rfl
@[simp] theorem State.noteUp_lastRead : (s.noteUp up).lastRead = s.lastRead := rfl
@[simp] theorem State.noteUp_tagsUse : (s.noteUp up).tagsUse = s.tagsUse := rfl
@[simp] theorem State.noteUp_stalled : (s.noteUp up).stalled = s.stalled := rfl
@[simp] theorem State.noteUp_freeCnt : (s.noteUp up).freeCnt = s.freeCnt := rfl
@[simp] theorem State.noteUp_base : (s.noteUp up).base = s.base := rfl
@[simp] theorem State.noteUp_acted : (s.noteUp up).acted = s.acted := rfl
@[simp] theorem State.noteUp_actedAt : (s.noteUp up).actedAt = s.actedAt := rfl
@[simp] theorem State.noteUp_pending : (s.noteUp up).pending = s.pending := rfl
@[simp] theorem State.noteUp_regs : (s.noteUp up).regs = s.regs := rfl
@[simp] theorem State.noteUp_same : (s.noteUp up).same
    = { s.same.of s.now with ups := up :: (s.same.of s.now).ups } := rfl
@[simp] theorem State.noteUp_rd : (s.noteUp up).rd b = s.rd b := rfl
@[simp] theorem State.noteUp_get : (s.noteUp up).get g = s.get g := rfl
@[simp] theorem State.noteUp_bit : (s.noteUp up).bit g = s.bit g := rfl
@[simp] theorem State.noteUp_rdSh : (s.noteUp up).rdSh b = s.rdSh b := rfl
@[simp] theorem State.noteUp_rdSt : (s.noteUp up).rdSt b = s.rdSt b := rfl
@[simp] theorem State.noteUp_memGet : (s.noteUp up).memGet b = s.memGet b := rfl

/-! ## Read after write -/

@[simp] theorem State.rd_wr_same : (s.wr a w).rd a = w := cellsGet_set_same ..
@[simp] theorem State.rdSh_wrSh_same : (s.wrSh a w).rdSh a = w := cellsGet_set_same ..
@[simp] theorem State.rdSt_wrSt_same : (s.wrSt a w).rdSt a = w := cellsGet_set_same ..
@[simp] theorem State.memGet_set_same : (s.memSet a w).memGet a = w := cellsGet_set_same ..

variable {a b f g}

theorem State.rd_wr_ne (h : b ≠ a) : (s.wr a w).rd b = s.rd b := cellsGet_set_ne _ _ _ h
theorem State.rdSh_wrSh_ne (h : b ≠ a) : (s.wrSh a w).rdSh b = s.rdSh b := cellsGet_set_ne _ _ _ h
theorem State.rdSt_wrSt_ne (h : b ≠ a) : (s.wrSt a w).rdSt b = s.rdSt b := cellsGet_set_ne _ _ _ h
theorem State.memGet_set_ne (h : b ≠ a) : (s.memSet a w).memGet b = s.memGet b := cellsGet_set_ne _ _ _ h

/-- A store to a field is a store of its word. -/
theorem State.put_eq_wr : s.put f v = s.wr f.addr (bitsSet (s.rd f.addr) f.lo f.width v) := rfl

theorem State.rd_put_same : (s.put f v).rd f.addr = bitsSet (s.rd f.addr) f.lo f.width v := cellsGet_set_same ..
theorem State.rd_put_ne (h : b ≠ f.addr) : (s.put f v).rd b = s.rd b := cellsGet_set_ne _ _ _ h

/-- A field reads back as stored, modulo its width. -/
theorem State.get_put_same (h : f.lo + f.width ≤ 32) : (s.put f v).get f = v % 2 ^ f.width := by
  unfold State.get; rw [State.rd_put_same, bitsGet_set_same _ _ h]

/-- A field of another word keeps its value. -/
theorem State.get_put_word (h : g.addr ≠ f.addr) : (s.put f v).get g = s.get g := by
  unfold State.get; rw [State.rd_put_ne _ _ h]

/-- A field at other bits of the word keeps its value. -/
theorem State.get_put_bits (h : f.lo + f.width ≤ 32) (d : g.lo + g.width ≤ f.lo ∨ f.lo + f.width ≤ g.lo) :
    (s.put f v).get g = s.get g := by
  by_cases e : g.addr = f.addr
  · unfold State.get; rw [e, State.rd_put_same, bitsGet_set_ne _ _ h d]
  · exact State.get_put_word s v e

theorem State.get_wr_same : (s.wr f.addr w).get f = bitsGet w f.lo f.width := by
  unfold State.get; rw [State.rd_wr_same]

theorem State.get_wr_word (h : g.addr ≠ a) : (s.wr a w).get g = s.get g := by
  unfold State.get; rw [State.rd_wr_ne _ _ h]

/-- A bit that the device sets reads 1. -/
theorem State.get_raise_same (h : f.lo + f.width ≤ 32) (w1 : f.width = 1) : (s.raise f).get f = 1 := by
  rw [State.raise_get, State.get_put_same _ _ h, w1]; rfl

/-- A maximum that the device raises is the larger of both values. -/
theorem State.get_raiseMax_same (h : f.lo + f.width ≤ 32) (lt : v < 2 ^ f.width) :
    (s.raiseMax f v).get f = max (s.get f) v := by
  unfold State.raiseMax State.putMax
  rw [State.noteUp_get]
  split
  · rw [State.get_put_same _ _ h, Nat.mod_eq_of_lt lt]; omega
  · omega

/-- Nothing set in this tick: a write clears every W1C bit that it names, and no update is made again (R470). -/
theorem State.keptBits_old (h : s.same.tick ≠ s.now) : s.keptBits a = 0 := by
  simp [State.keptBits, SameTick.of, h]

theorem State.redoUps_old (h : s.same.tick ≠ s.now) : s.redoUps a = s := by
  simp [State.redoUps, SameTick.of, h]

/-! ## Folds -/

/-- What every effect of a list keeps, the list keeps. -/
theorem each_keeps {α : Type} (P : State → Prop) (l : List α) (e : α → State → State)
    (h : ∀ x ∈ l, ∀ s, P s → P (e x s)) (s : State) (hs : P s) : P (each l e s) := by
  induction l generalizing s with
  | nil => exact hs
  | cons x r ih =>
    exact ih (fun y hy => h y (List.mem_cons_of_mem _ hy)) _ (h x (List.mem_cons_self ..) s hs)

/-- A part of the state that no effect of a list changes. -/
theorem each_const {α β : Type} (q : State → β) (l : List α) (e : α → State → State)
    (h : ∀ x ∈ l, ∀ s, q (e x s) = q s) (s : State) : q (each l e s) = q s :=
  each_keeps (fun u => q u = q s) l e (fun x hx u hu => (h x hx u).trans hu) s rfl

end Sys2Proof.Machine
end

