-- ==== Sys2Proof/Laws/Fabric.lean ====
section
/-!
SUPPORT. Laws of how a command reaches the block: the two timed forms, a master's accesses, a step, and the canonical form
under the updates that every meaning is built from.
-/
namespace Sys2Proof.Machine

variable (s : State) (m : Master) (a : Nat) (v : Word)

/-! ## Timed commands -/

theorem State.at_on (f : State → State) (h : s.clkOn = true) : s.at_ f = (f s).yokCheck := by
  simp [State.at_, h]

theorem State.at_off (f : State → State) (h : s.clkOn = false) : s.at_ f = s := by
  simp [State.at_, h]

theorem State.any_eq (f : State → State) : s.any_ f = (f s).yokCheck := rfl

/-- A command in its turn acts on what its tick gives it. -/
theorem State.command_inTurn (t : Tick) (c : Instr) (h : (s.advance t).inTurn c = true) :
    s.command t c = ((s.advance t).act c).after (s.advance t) c := by
  simp [State.command, h]

/-- A command that comes in after ones of a later turn: its tick acts again, in the order of the ranks (R23). -/
theorem State.command_late (t : Tick) (c : Instr) (h : (s.advance t).inTurn c = false)
    (k : ((s.advance t).replay ((s.advance t).actedNow.takeWhile (fun d => !comesBefore c d))).finds c = true) :
    s.command t c = (s.advance t).replay (insertTurn c (s.advance t).actedNow) := by
  simp [State.command, h, k]

/-- An event that is not due at its turn acts where it comes. -/
theorem State.command_placed (t : Tick) (c : Instr) (h : (s.advance t).inTurn c = false)
    (k : ((s.advance t).replay ((s.advance t).actedNow.takeWhile (fun d => !comesBefore c d))).finds c = false) :
    s.command t c = ((s.advance t).act c).after (s.advance t) c := by
  simp [State.command, h, k]

/-- In a tick in which nothing has acted, every command is in its turn. -/
theorem State.inTurn_first (c : Instr) (h : s.actedNow = []) : s.inTurn c = true := by
  simp [State.inTurn, h]

/-- The record of a tick changes nothing else. -/
@[simp] theorem State.after_toBody (u : State) (c : Instr) : (u.after s c).toBody = u.toBody := rfl
@[simp] theorem State.after_pending (u : State) (c : Instr) : (u.after s c).pending = u.pending := rfl

/-! ## The order of a tick (R23, R24) -/

theorem comesBefore_asymm {c d : Instr} (h : comesBefore c d = true) : comesBefore d c = false := by
  unfold comesBefore at *
  cases hc : turnOf c <;> cases hd : turnOf d <;> simp_all
  omega

theorem comesBefore_trans {c d e : Instr} (h : comesBefore c d = true) (k : comesBefore d e = true) :
    comesBefore c e = true := by
  unfold comesBefore at *
  cases hc : turnOf c <;> cases hd : turnOf d <;> cases he : turnOf e <;> simp_all
  omega

theorem mem_insertTurn {c e : Instr} {l : List Instr} : e ∈ insertTurn c l ↔ e = c ∨ e ∈ l := by
  induction l with
  | nil => simp [insertTurn]
  | cons d r ih =>
    simp only [insertTurn]
    split
    · simp
    · simp [ih, or_left_comm]

/-! ## A step -/

theorem step_idle (h : s.pending = []) : step s = .next (s.advance (s.now + 1)) := by
  simp [step, h]

theorem step_front (c : Instr) (r : List Instr) (h : s.pending = c :: r) : step s = exec c { s with pending := r } := by
  simp [step, h]

theorem withFetchWord_same (n w : Nat) : s.withFetchWord n w = s := rfl

/-! ## Accesses -/

theorem State.masterWrite_unreached (h : s.mayReach m true a = false) : s.masterWrite m a v = s := by
  simp [State.masterWrite, h]

theorem State.masterWrite_pair (r : Fin 2) (h : s.mayReach m true a = true) (p : m.pair = some r) :
    s.masterWrite m a v = s.issue m.writer a v := by
  simp [State.masterWrite, h, p]

theorem State.masterWrite_svc (h : s.mayReach m true a = true) (p : m.pair = none) :
    s.masterWrite m a v = s.svcIssue a v := by
  simp [State.masterWrite, h, p]

theorem State.mayIssue_free (x : Stall) (h : s.tagFree = true) (q : s.stalled = []) : s.mayIssue x = true := by
  simp [State.mayIssue, h, q]

theorem State.issueAs_takes (x : Stall) (f : State → State) (h : s.mayIssue x = true) :
    s.issueAs x f = f (s.tagSet (s.tagsUse + 1)) := by
  simp [State.issueAs, h]

theorem State.issueAs_waits (x : Stall) (f : State → State) (h : s.mayIssue x = false) : s.issueAs x f = s.stall x := by
  simp [State.issueAs, h]

theorem State.issue_takes (w : Writer) (h : s.tagFree = true) (q : s.stalled = []) :
    s.issue w a v = (s.tagSet (s.tagsUse + 1)).writeReg w a v :=
  s.issueAs_takes _ _ (s.mayIssue_free _ h q)

theorem State.issue_waits (w : Writer) (h : s.mayIssue (.write w a v) = false) :
    s.issue w a v = s.stall (.write w a v) :=
  s.issueAs_waits _ _ h

theorem State.masterRead_unreached (h : s.mayReach m false a = false) : s.masterRead m a v = s := by
  simp [State.masterRead, h]

/-- A store that is narrow or misaligned reaches no register: it is counted (R464). -/
theorem State.registerWrite_discards (w : Width) (n : m ≠ .svc) (h : ¬(w = .word ∧ a % 4 = 0))
    (r : s.mayReach m true a = true) : s.registerWrite m a v w = s.accErr m.writer true 3 a := by
  cases m <;> simp_all [State.registerWrite]

/-! ## The canonical form -/

theorem State.canon_wr (h : s.canon = true) : (s.wr a v).canon = true := by
  simp only [State.canon, Body.canon, Bool.and_eq_true] at h ⊢
  simp_all [cellsWf_set]

theorem State.canon_wrSh (h : s.canon = true) : (s.wrSh a v).canon = true := by
  simp only [State.canon, Body.canon, Bool.and_eq_true] at h ⊢
  simp_all [cellsWf_set]

theorem State.canon_wrSt (h : s.canon = true) : (s.wrSt a v).canon = true := by
  simp only [State.canon, Body.canon, Bool.and_eq_true] at h ⊢
  simp_all [cellsWf_set]

theorem State.canon_memSet (h : s.canon = true) : (s.memSet a v).canon = true := by
  simp only [State.canon, Body.canon, Bool.and_eq_true] at h ⊢
  simp_all [cellsWf_set]

theorem State.canon_put (f : Fld) (n : Nat) (h : s.canon = true) : (s.put f n).canon = true := s.canon_wr _ _ h

theorem State.canon_raise (f : Fld) (h : s.canon = true) : (s.raise f).canon = true := s.canon_put f 1 h

theorem State.canon_noteUp (x : TickUp) (h : s.canon = true) : (s.noteUp x).canon = true := h

/-- A list of updates keeps the canonical form when each of them does. -/
theorem State.canon_each {α : Type} (l : List α) (e : α → State → State)
    (k : ∀ x ∈ l, ∀ u : State, u.canon = true → (e x u).canon = true) (h : s.canon = true) : (each l e s).canon = true :=
  each_keeps (fun u => u.canon = true) l e k s h

end Sys2Proof.Machine
end

