-- ==== Sys2Proof/Tests/Slice0.lean ====
section
/-!
SUPPORT. The modeller's own tests: an ill-formed operand for each check of Instr.wf, values that the spec itself works
out, and for every obligation states that meet its hypotheses together.
-/
open Sys2Proof Sys2Proof.Machine
namespace Sys2Proof.Tests
set_option Elab.async false

/-- What a command of this tick finds in a state meets these hypotheses, and every command is in its turn there. -/
def meets (s : State) (P : State → Bool) : Bool := P (s.advance 0) && (s.advance 0).actedNow.isEmpty

/-! ## Small states -/

/-- A device whose clocks run, alone, at tick 1,000,000. -/
def dev : State := { State.reset with now := 1000000, tim := { TimSt.reset with
  under := false, booting := true, pll := true, run := true, dev := 256000000, dllAt := 5, linksIdle := false } }
/-- The same device with its image locked and its supervisors running. -/
def up : State := { dev with load := { dev.load with locked := true, supRun := true } }
/-- The same with a yoked image. -/
def yk : State := { up with load := { up.load with yoked := true } }
/-- A state with its load phase. -/
def ph (n : Nat) : State := dev.put F.IDG_LOADSTAT_PHASE n
/-- Team 3 with leg 5, its carrier some fine steps into its period. -/
def carr (form pos : Nat) : State :=
  let u := (up.put (F.TEAM_CARCFG_FORM 3) form).put (F.TEAM_STAT_STATE 3) 3
  let u := (u.put (F.TEAM_PER_PER 3) 1000).modTeam 3 (fun x => { x with legs := [5], started := true, pstart := 256000000 - pos, up := 256000, down := 256000 })
  u.modLeg 5 (fun l => { l with team := some 3, running := true, pstart := 256000000 - pos, up := 256000, down := 256000 })
/-- A run of task 35, released at tick 5, at its first word. -/
def run0 : RunSt := { RunSt.blank 35 with relTick := 5, deadline := 2000000, input := List.replicate 64 0x40000003, accs := #v[0x123456789ABCDEF012#72, BitVec.ofInt 72 (-0x2345678901234567), 77#72, 5#72] }
/-- No team is in WAIT or RUN. -/
def stopped (u : State) : Bool := (List.finRange 24).all (fun t => u.tstate t != stWAIT && u.tstate t != stRUN)
/-- A copy of the selector. -/
def selB : List Byte := let b : List Byte := [0x42, 0x58, 0x53, 0x4C, 7, 0, 0, 0, 1, 1, 0, 0]; b ++ (leBytes 4 (crc32c b))
/-- A load at its set-up phase: a Paddock whose first leg record asks for its interlock, and a network identity. -/
def apS : State := dev.modLoad (fun l => { l with header := List.replicate 0x20 2, body := List.replicate 0x1C7 0 ++ [2] ++ List.replicate 40 7, sects := [⟨tPADDOCK, 0, 0, 0, 0x1C8, 0⟩, ⟨tNETID, 0, 0, 0x1C8, 32, 0⟩] })
/-- Lane 15 runs a program of one word. -/
def ceOn (o : Op) : State :=
  let u := (up.memSet (K.desc 35 0) 0x00100000).memSet (K.prog 0) o.word
  let u := ((u.memSet (K.coef 5) 0x60000001).memSet (K.coef 6) 0x20000000).memSet (K.shift 1) 0x00000300
  { u with ce := { u.ce with lanes := u.ce.lanes.set 15 (some run0) } }
/-- The run on lane 15. -/
def r15 (u : State) : RunSt := (u.ce.lanes[15]).getD run0
/-- The run on lane 15 is live and stands at this operation. -/
def at15 (a : State) (o : Op) : Bool := a.ce.lanes[15] == some run0 && run0.ended.isNone && run0.entries ≤ 508 && run0.pc != a.pStart run0.task + a.pLen run0.task && a.memGet (K.prog 0) == o.word && opLegal o.word
  && (State.fetchKeys run0 ++ a.opReads run0 o).all (fun k => a.upsetAt k == none)
/-- Three ports in use with their links up. -/
def net3 : State :=
  let f (u : State) (p : Fin 3) : State := (((u.put (F.NET_PCFG_EN p) 1).put (F.NET_PCFG_ROLE p) (if p = 2 then 2 else 1)).put (F.NET_PSTAT_LINK p) 1).put (F.NET_PSTAT_PDVALID p) 1
  (((f (f (f up 0) 1) 2).put F.NET_ADDR_ADDR 0x123).put F.NET_CFG_ICEND_EN 1).modLoad (fun l => { l with mac := 0x0123456789AB, partner := 7 })
/-- The same with one port. -/
def net1 : State := (net3.put (F.NET_PSTAT_LINK 0) 0).put (F.NET_PSTAT_LINK 2) 0
/-- The Bellwether 99. -/
def gm9 : GmData := { prio1 := 1, cls := 6, acc := 1, var := 1, prio2 := 1, id := 99 }
/-- Its port 1. -/
def src9 : PtpId := { clk := 99, port := 1 }
/-- The device as a follower of the Bellwether 99. -/
def slv (u : State) : State := (u.modServo (fun v => { v with gm := some gm9, annAt := 1000000 })).put F.NET_TSTAT_STAGE 2
/-- An Icend frame of one block. -/
def frm (ft hops src dst cyc seq : Nat) (ws : List Word) : List Byte :=
  icePayload { ver := 1, ftype := ft, hops := hops, flags := 0, src := src, dst := dst, inj := src, blkcnt := 1, cyc := cyc } [ownBlk seq ws]
/-- A frame of the ring that a port in use takes. -/
def ring (a : State) (p : Fin 3) (b : List Byte) : Bool := a.portUp p && p != 2 && 24 ≤ b.length && le b 20 4 == hdrCrc b && (iceHdr b).ver == 1 && (iceHdr b).inj != a.ownAddr
/-- All 16 sensors read, at the evaluation. -/
def hot (t0 t9 : Int) : State :=
  let x : TsSt := { TsSt.reset with reading := some t0, prev := some t0, lastGood := t0 }
  let h := { up.hk with roundAt := 0, ts := (Vector.replicate 16 x).set 9 { x with reading := some t9, prev := some t9 } }
  ({ up with now := 16 * 9984, hk := h }.put F.HKP_STAT_VALID 1)
/-- The same with a sensor over its limit. -/
def hotd : State := hot 400 1600

/-! ## Ill-formed operands are refused (WellFormed) -/

theorem test_wf_calibrationStep : (Instr.calibrationStep 0 [0, 0]).wf = false := by decide +kernel
theorem test_wf_selector : (Instr.selector 0 [0] []).wf = false := by decide +kernel
theorem test_wf_header : (Instr.header 0 []).wf = false := by decide +kernel
theorem test_wf_crcTable : (Instr.crcTable 0 [0]).wf = false := by decide +kernel
theorem test_wf_bodyBlockRead : (Instr.bodyBlockRead 0 [0]).wf = false := by decide +kernel
theorem test_wf_signature : (Instr.signature 0 []).wf = false := by decide +kernel
theorem test_wf_overlay : (Instr.overlay 0 [0]).wf = false := by decide +kernel
theorem test_wf_identReceive : (Instr.identReceive 0 true [1] [2] 0).wf = false := by decide +kernel
theorem test_wf_heartbeatReceive : (Instr.heartbeatReceive 0 true 0 ⟨6, false, false, false, false, 0, 0⟩).wf = false := by
  decide +kernel
theorem test_wf_commitFrameReceive : (Instr.commitFrameReceive 0 true 0 0 0 (List.replicate 33 0) [] none).wf = false := by
  decide +kernel
theorem test_wf_checkpoint : (Instr.checkpoint 0 0 [.prog 1 [0, 0]]).wf = false := by decide +kernel
theorem test_wf_syncReceive : (Instr.syncReceive 0 0 3200 ⟨1, 1⟩ 0 0 false 0 0 0).wf = false := by decide +kernel
theorem test_wf_followUpReceive : (Instr.followUpReceive 0 0 ⟨1, 1⟩ 65536 0 0 0).wf = false := by decide +kernel
theorem test_wf_announceReceive : (Instr.announceReceive 0 0 ⟨1, 1⟩ 0 256 gm9).wf = false := by decide +kernel
theorem test_wf_pdelayReqReceive : (Instr.pdelayReqReceive 0 0 3200 ⟨1, 1⟩ 0).wf = false := by decide +kernel
theorem test_wf_pdelayRespReceive : (Instr.pdelayRespReceive 0 0 0 false false ⟨1, 1⟩ 65536 0 0).wf = false := by
  decide +kernel
theorem test_wf_icendFrameReceive : (Instr.icendFrameReceive 0 0 (List.replicate 1501 0) true false).wf = false := by
  decide +kernel
theorem test_wf_repairReqReceive : (Instr.repairReqReceive 0 0 (List.replicate 1501 0) true false).wf = false := by
  decide +kernel
theorem test_wf_helloReceive : (Instr.helloReceive 0 0 0 (List.replicate 1501 0) true false).wf = false := by decide +kernel
theorem test_wf_otherFrameReceive : (Instr.otherFrameReceive 0 0 [] true 3200).wf = false := by decide +kernel
theorem test_wf_egressFrameStart : (Instr.egressFrameStart 0 0 3200).wf = false := by decide +kernel
theorem test_wf_flashWindowRead : (Instr.flashWindowRead 0 ⟨0, false⟩ 0 [0]).wf = false := by decide +kernel
theorem test_wf_flashProgramStore : (Instr.flashProgramStore 0 0 2 [0, 0, 0, 0]).wf = false := by decide +kernel
theorem test_wf_pmsEntryStart : (Instr.pmsEntryStart 0 0 (List.replicate 511 0)).wf = false := by decide +kernel
theorem test_wf_journalScan : (Instr.journalScan 0 [⟨0, 128, 0, ⟨0, 0, 0, 0⟩⟩] none).wf = false := by
  decide +kernel

theorem test_wf_comparatorCrossing : (Instr.comparatorCrossing 0 0 1600 1 0).wf = false := by decide +kernel
theorem test_wf_comparatorSample : (Instr.comparatorSample 0 0 1600 1).wf = false := by decide +kernel

/-! ## Values that the spec itself works out -/

/-- R75: the check value of CRC-32C. -/
theorem test_crc32c : crc32c [0x31, 0x32, 0x33, 0x34, 0x35, 0x36, 0x37, 0x38, 0x39] = 0xE3069283 := by decide +kernel

/-- R419: the check value of the service port's CRC-8. -/
theorem test_crc8 : crc8 72 0x313233343536373839 = 0xDF := by decide +kernel

/-- The words of the PI current regulator of "Control engine: machine and arithmetic". -/
theorem test_operation_words :
    Op.word ⟨0x03, 1, 0x000, 0x000, 0⟩ = 0x0D000000 ∧ Op.word ⟨0x05, 1, 0x001, 0x000, 0⟩ = 0x15004000
    ∧ Op.word ⟨0x18, 1, 0x090, 0x040, 1⟩ = 0x61240401 ∧ Op.word ⟨0x0C, 1, 0x040, 0x000, 0⟩ = 0x31100000
    ∧ Op.word ⟨0x01, 0, 0, 0, 0⟩ = 0x04000000 ∧ opOf 0x61240401 = ⟨0x18, 1, 0x090, 0x040, 1⟩ := by decide +kernel

/-- The edges of LEG9 in "Example: a centre-aligned inverter leg". -/
theorem test_updown_plan : planOf foUPDOWN false 0x00094780 0x00094700 3200000 3200000 = .edges 608128 2592000 := by
  decide +kernel

/-- The three periods of "Example: a 180 ns pulse carried across three periods". -/
theorem test_carry :
    let p (c : Int) := policy 2 1600000 16000 16000 21600 c 30400 none
    ((p 0).la, (p 0).carry) = (37600, 7200) ∧ ((p 7200).la, (p 7200).carry) = (0, -7200)
    ∧ ((p (-7200)).la, (p (-7200)).carry) = (37600, 0) := by decide +kernel

/-- "Example: one dithered pair": the depth and the deviation. -/
theorem test_dither : effDepth 250 12500 10000 15000 foUPDOWN = 250 ∧ ditherDev 0xC5 250 foUPDOWN = 134 := by decide +kernel

/-- TEAM20 of "Example: a constant-on-time DC/DC leg with valley switching". -/
def valley : State :=
  let u := ((dev.wr (A.TEAM_CARCFG 20) 0x00202842).wr (A.TEAM_PER 20) 0xC35).wr (A.LEG_CMPA 60) 0x00023280
  { u with load := { u.load with pdk := List.replicate 0x180 0 ++ [0xE8, 3, 0, 0, 0x35, 0x0C, 0, 0] ++ List.replicate 0x3FC 0 ++ [0, 0xE0, 0, 0] } }

theorem test_restart_bounds : valley.restartE 20 60 = 256000 ∧ valley.restartX 20 60 = (800000, false) := by decide +kernel

/-- FB3 of "Example: an incremental thruster encoder with index check". -/
def enc (pos ref : Word) : State :=
  let u := (((dev.wr (A.FBK_CFG 3) 0x00055101).wr (A.FBK_SPDK 3) 0x00077359).wr (A.FBK_IDXN 3) 0x4000).wr (A.FBK_IDXTOL 3) 4
  let u := (u.wr (A.FBK_POS0 3) pos).putB (F.FBK_STAT_POSVALID 3) true
  u.modPort 3 (fun x => { x with ref := ref, haveRef := true })

theorem test_speed : (enc 0 0).spdOf 3 4 95367 = 0x051EB9AB := by decide +kernel

theorem test_index :
    (let u := (enc 0x10002 0xC000).indexEvent 3 0
     (u.rd (A.FBK_POS0 3), u.rd (A.FBK_IDXCOR 3), (u.port 3).ref) = (0x10000, 0xFFFFFFFE, 0x10000))
    ∧ (let u := (enc 0xFFFF 0x10000).indexEvent 3 0
       (u.rd (A.FBK_POS0 3), u.rd (A.FBK_IDXCOR 3), (u.port 3).ref) = (0x10000, 1, 0x10000))
    ∧ (let u := (enc 0x1400B 0x10000).indexEvent 3 0
       (u.rd (A.FBK_POS0 3), u.get (F.FBK_STAT_POSVALID 3), u.get (F.FBK_STAT_IDXERR 3)) = (0x1400B, 0, 1)) := by
  decide +kernel

/-- FB0 of "Example: an SSI sensor lost at speed": the bits of its frame and its crossover speed. -/
theorem test_ssi_frame : (dev.wr (A.FBK_SSIFMT 0) 0x60622000).ssiBits 0 = 40
    ∧ ((dev.wr (A.FBK_LADCFG 0) 0x061B147B).wr (A.FBK_RATED 0) 0x40000000).xover 0 = 85901312
    ∧ (dev.wr (A.FBK_LADCFG 0) 0x061B147B).rampTicks 0 = 31260000 := by decide +kernel

/-- The sense delay of TEAM0 in "Example: current and DC-link voltage of LEG0". -/
theorem test_sense_delay :
    let u := ((((up.wr (A.SDM_CFG 0) 0x4018C021).wr (A.SDM_TRG 0) 0x00004300).wr (A.SDM_OSR 0) 0x00100040).put
      (F.TEAM_STAT_STATE 0) 1).modTeam 0 (fun x => { x with legs := [0] })
    (u.modLeg 0 (fun l => { l with team := some 0 }) |>.teamDly 0).rd (A.SDM_TEAMDLY 0) = 0x608 := by decide +kernel

/-! ## States that meet the obligations' hypotheses -/

/-- A header for slot 0: nine sections, a body of one block, the journal at 2000h. -/
def hdB : List Byte :=
  let b : List Byte := [0x42, 0x58, 0x49, 0x4D, 1, 0, 9, 0, 0x24, 0x72, 0, 0, 0, 0, 0xFF, 0xFF, 0, 0x10, 0, 0, 0, 0x30, 0, 0]
    ++ List.replicate 0x40 0 ++ leBytes 4 0x2000 ++ leBytes 4 0x10000 ++ List.replicate 11 0 ++ [2, 3] ++ List.replicate 143 0
  b ++ leBytes 4 (crc32c b)

/-- A function of a number, applied once the number is known. -/
def forced (f : Nat → Nat) : Nat → Nat
  | 0 => f 0
  | n + 1 => f (n + 1)

/-- The CRC register after some octets, each step computed before the next. -/
def crcRun : List Byte → Nat → Nat
  | [], r => r
  | b :: l, r => forced (crcRun l) (crcByte r b)

theorem forced_eq (f : Nat → Nat) (n : Nat) : forced f n = f n := by cases n <;> rfl

theorem crcRun_eq (l : List Byte) (r : Nat) : crcRun l r = l.foldl crcByte r := by
  induction l generalizing r with
  | nil => rfl
  | cons b l ih => exact (forced_eq (crcRun l) (crcByte r b)).trans (ih _)

theorem crc32c_run : crc32c = fun l => Nat.xor (crcRun l 0xFFFFFFFF) 0xFFFFFFFF := by
  funext l
  rw [crcRun_eq, crc32c]

/-- `n` octets whose CRC-32C is FFFFFFFFh. -/
def ones (n : Nat) : List Byte := [0xFF, 0xFF, 0xFF, 0xFF] ++ List.replicate (n - 4) 0
/-- A signature block whose CRC stands. -/
def sigGood : List Byte := ones 0xFFC ++ [0xFF, 0xFF, 0xFF, 0xFF]
/-- A signature block whose CRC does not stand. -/
def sigBad : List Byte := ones 4096
/-- A load whose CRC table has 4,096 octets of CRC-32C FFFFFFFFh. -/
def tabAt : State := (ph 5).modLoad (fun l =>
  { l with header := List.replicate 0x10 0 ++ leBytes 4 4096 ++ List.replicate 0x5C 0 ++ [0xFF, 0xFF, 0xFF, 0xFF] })
/-- A load in its body: one block read, and a table that holds a CRC for the next one. -/
def bodyAt (len : Nat) : State := (ph 6).modLoad (fun l =>
  { l with cleared := true, body := List.replicate 4096 0, header := List.replicate 0x10 0 ++ leBytes 4 len, crcTab := [0, 0, 0, 0, 0xFF, 0xFF, 0xFF, 0xFF] })

/-- States that meet the hypotheses of LoadStructures, clause by clause. -/
theorem witness_LoadStructures :
    meets (ph 3) (fun a => decide (a.load.reread = .none ∧ selB.length = 16 ∧ selCrc selB = true ∧ a.clkOn = true)) =
      true ∧
    meets (ph 4) (fun a => decide (hdB.length = 256 ∧ hdrCrcOk hdB = true ∧ a.clkOn = true ∧ a.load.reread = .none ∧ 
       hdrRefuse hdB a.load.slot (a.get F.IDG_SILID_STEP) a.fuse.floor = 0)) = true ∧
    meets (ph 4) (fun a => decide ((List.replicate 256 (1 : Byte)).length = 256 ∧ hdrCrcOk (List.replicate 256 1) =
      false ∧ a.clkOn = true ∧ a.load.reread = .none)) = true ∧
    meets tabAt (fun a => decide (hTabLen a.load.header = 4096 ∧ a.tableOk (ones 4096) = true ∧ a.clkOn = true ∧ a.load.reread = .none)) = true ∧
    meets tabAt (fun a => decide (hTabLen a.load.header = 4096 ∧ a.tableOk (List.replicate 4096 0) = false ∧ a.clkOn = true ∧ a.load.reread = .none)) = true ∧
    meets (ph 7) (fun a => decide (sigGood.length = 4096 ∧ sigCrc sigGood = true ∧ a.clkOn = true ∧ a.load.reread = .none)) = true ∧
    meets (ph 7) (fun a => decide (sigBad.length = 4096 ∧ sigCrc sigBad = false ∧ a.clkOn = true ∧ a.load.reread = .none)) = true := by
  simp only [selCrc, hdrCrcOk, State.tableOk, sigCrc, crcStands, crc32c_run]
  decide +kernel


/-- States that meet the hypotheses of LoadBody, clause by clause. -/
theorem witness_LoadBody :
    meets (bodyAt 8192) (fun a => decide (a.clkOn = true ∧ a.load.reread = .none ∧ a.get F.IDG_LOADSTAT_PHASE = 6 ∧
      a.load.cleared = true ∧ (ones 4096).length = 4096 ∧ a.blockOk (ones 4096) = true ∧ 0 < a.blocksDone ∧
      hBlocks a.load.header ≤ a.blocksDone + 1)) = true ∧
    meets (bodyAt 12288) (fun a => decide (a.clkOn = true ∧ a.load.reread = .none ∧ a.get F.IDG_LOADSTAT_PHASE = 6 ∧
      a.load.cleared = true ∧ (ones 4096).length = 4096 ∧ a.blockOk (ones 4096) = true ∧ 0 < a.blocksDone ∧
      a.blocksDone + 1 < hBlocks a.load.header)) = true ∧
    meets (bodyAt 8192) (fun a => decide (a.clkOn = true ∧ a.load.reread = .none ∧ a.get F.IDG_LOADSTAT_PHASE = 6 ∧
      a.load.cleared = true ∧ sigGood.length = 4096 ∧ a.blockOk sigGood = false)) = true := by
  simp only [State.blockOk, crc32c_run]
  decide +kernel

/-- A load that waits for a structure to be read again. -/
def again (s : State) (x : Reread) (n : Nat) : State := s.modLoad (fun l => { l with reread := x, rereads := n })

/-- States that meet the hypotheses of LoadReread, clause by clause. -/
theorem witness_LoadReread :
    meets (again (ph 7) .signature 2) (fun a => decide (a.clkOn = true ∧ a.load.reread = .signature ∧
      sigGood.length = a.rereadLen a.load.reread ∧ sigCrc sigGood = true)) = true ∧
    meets (again (ph 7) .signature 1) (fun a => decide (a.clkOn = true ∧ a.load.reread = .signature ∧
      sigBad.length = a.rereadLen a.load.reread ∧ sigCrc sigBad = false ∧ a.load.rereads < 2)) = true ∧
    meets (again (ph 7) .signature 2) (fun a => decide (a.clkOn = true ∧ a.load.reread = .signature ∧
      sigBad.length = a.rereadLen a.load.reread ∧ sigCrc sigBad = false ∧ 2 ≤ a.load.rereads)) = true ∧
    meets (again (ph 4) .header 0) (fun a => decide (a.clkOn = true ∧ a.load.reread = .header ∧
      hdB.length = a.rereadLen a.load.reread ∧ hdrCrcOk hdB = true)) = true ∧
    meets (again tabAt .crcTable 0) (fun a => decide (a.clkOn = true ∧ a.load.reread = .crcTable ∧
      (ones 4096).length = a.rereadLen a.load.reread ∧ a.tableOk (ones 4096) = true)) = true ∧
    meets (again (bodyAt 8192) .block 0) (fun a => decide (a.clkOn = true ∧ a.load.reread = .block ∧
      (ones 4096).length = a.rereadLen a.load.reread ∧ a.blockOk (ones 4096) = true)) = true := by
  simp only [State.blockOk, State.tableOk, hdrCrcOk, sigCrc, crcStands, crc32c_run]
  decide +kernel

/-- An overlay record of CRC-32C FFFFFFFFh for a table, its entries 0 but for the first. -/
def ovRec (table : Byte) (w : Nat) : List Byte :=
  [0x42, 0x58, 0x54, 0x4F, table, 0, 0, 0, 9, 0, 0, 0, 0, 0, 0, 0] ++ List.replicate 16 3 ++ leBytes 4 w
    ++ List.replicate 16380 0 ++ [0xFF, 0xFF, 0xFF, 0xFF] ++ List.replicate 4060 0
/-- A load that reads its overlay area, of `n` records; the image permits overlays for table 0. -/
def ovAt (n : Nat) (l : List Overlay) : State := (ph 10).modLoad (fun x =>
  { x with stateId := List.replicate 16 3, ovlLen := n * 20480, ovlRead := 0, ovl := l, sects := [⟨tCETABLE, 0, 1, 0, 16384, 0xD0000⟩] })

/-- States that meet the hypotheses of Overlays, clause by clause. -/
theorem witness_Overlays :
    meets (ovAt 2 []) (fun a => decide (a.clkOn = true ∧ a.get F.IDG_LOADSTAT_PHASE = 10 ∧ a.load.reread = .none ∧
      (ovRec 0 150800758).length = 20480 ∧ ovlCrcOk (ovRec 0 150800758) = true ∧ a.load.ovlRead + 1 < a.ovlCount ∧
      a.overlayFits (ovRec 0 150800758) = true ∧ a.load.ovl = [])) = true ∧
    meets (ovAt 2 []) (fun a => decide (a.clkOn = true ∧ a.get F.IDG_LOADSTAT_PHASE = 10 ∧ a.load.reread = .none ∧
      (ovRec 1 2867364418).length = 20480 ∧ ovlCrcOk (ovRec 1 2867364418) = true ∧ a.load.ovlRead + 1 < a.ovlCount ∧
      a.overlayFits (ovRec 1 2867364418) = false)) = true ∧
    meets (ovAt 1 [⟨2, 1, [5, 6]⟩]) (fun a => decide (a.clkOn = true ∧ a.get F.IDG_LOADSTAT_PHASE = 10 ∧
      a.load.reread = .none ∧ a.load.ovlRead + 1 = a.ovlCount ∧
      a.overlayFits (ovRec 1 2867364418) = false ∧ a.load.ovl = [⟨2, 1, [5, 6]⟩])) = true := by
  simp only [ovlCrcOk, crcStands, crc32c_run]
  decide +kernel

/-- States that meet the hypotheses of ResetLeaves, clause by clause. -/
theorem witness_ResetLeaves :
    meets (((up.put F.HKP_THSTAT_LEVEL 2).memSet 5 7).modLoad (fun l => { l with holdoff := some (995904, .svc) }))
      (fun a => decide (a.load.holdoff = some (995904, .svc) ∧ 995904 + 4096 ≤ a.now)) = true := by
  decide +kernel

/-- States that meet the hypotheses of ResetRequests, clause by clause. -/
theorem witness_ResetRequests :
    meets (((up.put (F.TEAM_STAT_STATE 3) 3).put (F.TEAM_STAT_STATE 4) 2)) (fun a => decide (a.tim.booting = true ∧
      a.load.holdoff = none ∧ a.takes .supB A.IDG_RESTART = true ∧ bitsGet 0xA5C30001 16 16 = 0xA5C3)) = true ∧
    meets (((up.put (F.TEAM_STAT_STATE 3) 3).put (F.TEAM_STAT_STATE 4) 2)) (fun a => decide (a.tim.booting = true ∧
      a.load.holdoff = none ∧ a.takes .supB A.IDG_RESTART = true ∧ bitsGet 0xA5C30001 16 16 = 0xA5C3)) = true ∧
    meets (((up.put (F.TEAM_STAT_STATE 3) 3).put (F.TEAM_STAT_STATE 4) 2)) (fun a => decide (a.tim.booting = true ∧
      a.load.holdoff = none ∧ a.takes .supB A.IDG_RESTART = true ∧ bitsGet 0xA5C30001 16 16 = 0xA5C3)) = true ∧
    meets (((up.put (F.TEAM_STAT_STATE 3) 3).put (F.TEAM_STAT_STATE 4) 2).put F.SER_SVCSTAT_MODE 1 |>.put
      F.SER_SVCSTAT_ARMED 1) (fun a => decide (a.takes .svc A.IDG_RESTART = true ∧ a.tim.booting = true ∧
      a.load.holdoff = none ∧ a.takes .supB A.IDG_RESTART = true ∧ bitsGet 0xA5C30001 16 16 = 0xA5C3)) = true := by
  decide +kernel

/-- States that meet the hypotheses of ClockBringUp, clause by clause. -/
theorem witness_ClockBringUp :
    meets (State.reset.put F.IDG_INBAND_PGOOD 1) (fun a => decide (a.tim.booting = false)) = true ∧
    meets ({ State.reset with now := 700000, tim := { TimSt.reset with booting := true, relAt := 75000 } }) (fun a =>
      decide (a.tim.booting = true ∧ a.tim.pll = false)) = true ∧
    meets ({ State.reset with now := 700000, tim := { TimSt.reset with booting := true, relAt := 75000 } }) (fun a =>
      decide (a.tim.relAt + 625000 ≤ a.now ∧ a.load.failed = false)) = true ∧
    meets ({ dev with tim := { dev.tim with dllAt := 0 } }) (fun a => decide (a.clkOn = true ∧ a.tim.pll = true ∧
      a.tim.dllAt = 0 ∧ a.load.testMode = false)) = true := by
  decide +kernel

/-- States that meet the hypotheses of ClockFaults, clause by clause. -/
theorem witness_ClockFaults :
    meets (((up.put (F.TEAM_STAT_STATE 3) 3).put (F.TEAM_STAT_STATE 4) 2)) (fun a => decide (a.clkOn = true ∧
      a.tim.pll = true ∧ a.tim.refAt = none)) = true ∧
    meets (((up.put (F.TEAM_STAT_STATE 3) 3).put (F.TEAM_STAT_STATE 4) 2)) (fun a => decide (a.clkOn = true ∧
      a.tim.pll = true ∧ a.tim.refAt = none)) = true ∧
    meets ({ up with now := 4000000, tim := { up.tim with refAt := some 875000 } }) (fun a => decide (a.tim.refAt =
      some 875000 ∧ 875000 + 3125000 ≤ a.now ∧ a.clkOn = true ∧ a.tim.pll = true)) = true ∧
    meets (((up.put (F.TEAM_STAT_STATE 3) 3).put (F.TEAM_STAT_STATE 4) 2).modLeg 71 (fun l =>
      { l with team := some 3 }) |>.modTeam 3 (fun x => { x with legs := [71] })) (fun a => decide (a.tim.dllAt ≠ 0 ∧
      359 ∉ a.tim.deadLines ∧ (a.leg 71).team = some 3 ∧ a.clkOn = true ∧ a.tim.pll = true ∧ a.tim.refAt = none)) =
      true ∧
    meets (((up.put (F.TEAM_STAT_STATE 3) 3).put (F.TEAM_STAT_STATE 4) 2)) (fun a => decide (361 ∉ a.tim.deadLines ∧
      a.clkOn = true ∧ a.tim.pll = true ∧ a.tim.refAt = none)) = true := by
  decide +kernel

/-- States that meet the hypotheses of TimeSteering, clause by clause. -/
theorem witness_TimeSteering :
    meets ((up.put F.TIM_CTL_SRC 3)) (fun a => decide (a.takes .supA A.TIM_RATE = true ∧ a.timOwner .supA = true ∧
      clampI (-65970697) 65970697 (0x7FFFFFFF : Word).toInt ≠ (0x7FFFFFFF : Word).toInt ∧ a.clkOn = true)) = true ∧
    meets ((up.put F.TIM_CTL_SRC 1)) (fun a => decide (a.takes .supA A.TIM_RATE = true ∧ a.timOwner .supA = false ∧
      a.clkOn = true ∧ clampI (-65970697) 65970697 (0x7FFFFFFF : Word).toInt ≠ (0x7FFFFFFF : Word).toInt)) = true ∧
    meets ((up.put F.TIM_CTL_SRC 3)) (fun a => decide (a.takes .supB A.TIM_SLEW = true ∧ a.timOwner .supB = true ∧
      a.clkOn = true ∧ a.takes .supA A.TIM_RATE = true ∧ a.timOwner .supA = true ∧ clampI (-65970697) 65970697
      (0x7FFFFFFF : Word).toInt ≠ (0x7FFFFFFF : Word).toInt)) = true ∧
    meets ((up.put F.TIM_CTL_SRC 1)) (fun a => decide (a.takes .supB A.TIM_SLEW = true ∧ a.timOwner .supB = false ∧
      a.clkOn = true ∧ a.takes .supA A.TIM_RATE = true ∧ clampI (-65970697) 65970697 (0x7FFFFFFF : Word).toInt ≠
      (0x7FFFFFFF : Word).toInt)) = true ∧
    meets (up) (fun a => decide (a.tim.slew = 0 ∧ a.clkOn = true ∧ a.takes .supA A.TIM_RATE = true ∧ clampI
      (-65970697) 65970697 (0x7FFFFFFF : Word).toInt ≠ (0x7FFFFFFF : Word).toInt)) = true ∧
    meets (((up.put (F.TEAM_STAT_STATE 3) 3).put (F.TEAM_STAT_STATE 4) 2)) (fun a => decide (a.takes .supA
      A.TIM_STEPCTL = true ∧ a.anyRun = true ∧ a.clkOn = true ∧ a.takes .supA A.TIM_RATE = true ∧ clampI (-65970697)
      65970697 (0x7FFFFFFF : Word).toInt ≠ (0x7FFFFFFF : Word).toInt)) = true := by
  decide +kernel

/-- States that meet the hypotheses of PpsPulses, clause by clause. -/
theorem witness_PpsPulses :
    meets (({ up with tim := { up.tim with dev := 80000000000 - 100 } }).put F.TIM_CTL_PPSO_EN 1) (fun a => decide
      (a.clkOn = true ∧ a.secInTick = some 80000000000 ∧ a.load.locked = true ∧ a.get F.TIM_CTL_PPSO_EN ≠ 0 ∧ 360 ∉ a.tim.deadLines)) = true ∧
    meets ((({ up with tim := { up.tim with pps := true, ppsAt := 900 } }).put F.TIM_CTL_PPSO_EN 1).put
      F.TIM_CTL_PPSO_WIDTH 3) (fun a => decide (a.tim.pps = true ∧ a.tim.ppsAt + a.get F.TIM_CTL_PPSO_WIDTH * 312500 ≤
      a.now ∧ a.clkOn = true ∧ a.get F.TIM_CTL_PPSO_EN ≠ 0 ∧ 360 ∉ a.tim.deadLines)) = true ∧
    meets (up) (fun a => decide (361 ∉ a.tim.deadLines ∧ a.clkOn = true ∧ 360 ∉ a.tim.deadLines)) = true := by
  decide +kernel

/-- States that meet the hypotheses of CalibrationRound, clause by clause. -/
theorem witness_CalibrationRound :
    meets (((up.modTim (fun t => { t with calAt := 920000, tables := [(361, []), (4, [1])] })).put F.DLC_CTL_EN 1).put
      F.DLC_STAT_LINE 0) (fun a => decide (a.clkOn = true ∧ a.bit F.DLC_CTL_EN = true ∧ a.tim.dllAt ≠ 0 ∧ a.tim.calAt
      + 80000 ≤ a.now ∧ a.get F.DLC_STAT_LINE < 362)) = true := by
  decide +kernel

/-- States that meet the hypotheses of LoadFlashAndClear, clause by clause. -/
theorem witness_LoadFlashAndClear :
    meets (ph 2) (fun a => decide (a.get F.IDG_LOADSTAT_PHASE = 2 ∧ a.tim.dllAt + 31250 ≤ a.now ∧ a.clkOn = true)) =
      true ∧
    meets ({ ph 2 with now := 156281255 }) (fun a => decide (a.tim.dllAt + 31250 + 156250000 ≤ a.now ∧ a.clkOn = true
      ∧ a.get F.IDG_LOADSTAT_PHASE = 2 ∧ a.tim.dllAt + 31250 ≤ a.now)) = true ∧
    meets (((ph 6).memSet (K.rxSlot 0 0) 7).memSet (K.state 3) 7) (fun a => decide (2 ≤ a.get F.IDG_LOADSTAT_PHASE ∧
      a.get F.IDG_LOADSTAT_PHASE ≤ 6 ∧ a.load.cleared = false ∧ a.clkOn = true ∧ a.tim.dllAt + 31250 ≤ a.now)) = true := by
  decide +kernel

/-- States that meet the hypotheses of LoadAcceptance, clause by clause. -/
theorem witness_LoadAcceptance :
    meets ((ph 8).modLoad (fun l => { l with body := [1], sig := List.replicate 4096 0 })) (fun a => decide (a.get
      F.IDG_LOADSTAT_PHASE = 8 ∧ verifyRefuse a.load.header a.load.body a.load.sig a.load.sects a.fuse ≠ 0 ∧
      a.load.fallback = false ∧ a.clkOn = true)) = true ∧
    meets (ph 9) (fun a => decide (a.get F.IDG_LOADSTAT_PHASE = 9 ∧ a.clkOn = true ∧ verifyRefuse a.load.header
      a.load.body a.load.sig a.load.sects a.fuse ≠ 0 ∧ a.load.fallback = false)) = true ∧
    meets (ph 10) (fun a => decide (a.get F.IDG_LOADSTAT_PHASE = 10 ∧ a.load.reread = .none ∧ a.ovlCount ≤
      a.load.ovlRead ∧ a.clkOn = true ∧ verifyRefuse a.load.header a.load.body a.load.sig a.load.sects a.fuse ≠ 0 ∧
      a.load.fallback = false)) = true := by
  decide +kernel

/-- States that meet the hypotheses of BandExits, clause by clause. -/
theorem witness_BandExits :
    meets (((up.put ⟨A.IDG_INBAND, 0, 32⟩ 0xFFFFFFFF))) (fun a => decide (a.clkOn = true)) = true ∧
    meets (((up.put ⟨A.IDG_INBAND, 0, 32⟩ 0xFFFFFFFF))) (fun a => decide (a.clkOn = true)) = true ∧
    meets (((up.put ⟨A.IDG_INBAND, 0, 32⟩ 0xFFFFFFFF))) (fun a => decide (a.bitAt F.IDG_INBAND_TRIP_IN 7 = true ∧
      a.clkOn = true)) = true ∧
    meets (((up.put ⟨A.IDG_INBAND, 0, 32⟩ 0xFFFFFFFF)).put (F.CMP_CFG_MODE 95) 1 |>.put (F.CMP_STAT_INBAND_L 95) 1)
      (fun a => decide (a.cmpMode 95 = 1 ∧ a.cmpBand 95 .l = true ∧ a.clkOn = true)) = true ∧
    meets (((up.put ⟨A.IDG_INBAND, 0, 32⟩ 0xFFFFFFFF)).put (F.LEG_EDGESTAT_INBAND_H 71) 1) (fun a => decide (a.rptBand
      71 .high = true ∧ a.clkOn = true)) = true := by
  decide +kernel

/-- States that meet the hypotheses of WarmUps, clause by clause. -/
theorem witness_WarmUps :
    meets ((up.put (F.SDM_OSR_OCOSR 143) 1).modSdm 143 (fun c => { c with histOc := some 999968 })) (fun a => decide
      (a.clkOn = true ∧ (a.sdm 143).histOc = some 999968 ∧ 999968 + 2 * a.ocW 143 ≤ a.now ∧ a.ocValid 143 = false)) =
      true := by
  decide +kernel

/-- States that meet the hypotheses of UpdatePoints, clause by clause. -/
theorem witness_UpdatePoints :
    meets ({ ((carr 1 128000).put (F.TEAM_UPDMODE_MODE 3) 2) with shadow := [(A.LEG_CMPA 5, 77), (A.LEG_DT 5, 88)] })
      (fun a => decide (a.clkOn = true ∧ a.centreNow 3 = true ∧ a.updCentre 3 = true ∧ (a.team 3).updTick ≠ some a.now
      ∧ a.bit (F.TEAM_SHCTL_HOLD 3) = false ∧ 5 ∈ (a.team 3).legs ∧ (a.leg 5).team = some 3 ∧ a.get (F.LEG_PHASE_PHASE
      5) = 0)) = true ∧
    meets
      ({ (((carr 1 128000).put (F.TEAM_UPDMODE_MODE 3) 2).put (F.LEG_PHASE_PHASE 5) 5) with staged := [(A.LEG_CMPA 5, 77), (A.LEG_DT 5, 88)] })
      (fun a => decide ((a.leg 5).team = some 3 ∧ a.get (F.LEG_PHASE_PHASE 5) ≠ 0 ∧ (a.leg 5).running = true ∧
      a.updCentre 3 = true ∧ centreOf (a.form 3) (a.leg 5).pstart (a.leg 5).up / 256 = a.now ∧ a.clkOn = true ∧
      a.centreNow 3 = true ∧ (a.team 3).updTick ≠ some a.now ∧ a.bit (F.TEAM_SHCTL_HOLD 3) = false ∧ 5 ∈ (a.team
      3).legs)) = true := by
  decide +kernel

/-- States that meet the hypotheses of PeriodStarts, clause by clause. -/
theorem witness_PeriodStarts :
    meets ((carr 1 256000).modTeam 3 (fun x => { x with next := some 256000255 })) (fun a => decide ((a.team 3).next =
      some (a.nowF + 255) ∧ a.clkOn = true)) = true ∧
    meets ((carr 1 256000).modLeg 5 (fun l => { l with nexts := [{ start := 256000255, len := 99, team := 256000255, phase := 0 }] })) (fun a => decide ((a.leg
      5).nexts = [{ start := a.nowF + 255, len := 99, team := 256000255, phase := 0 }] ∧ (a.leg 5).team = some 3 ∧ a.clkOn = true)) = true := by
  decide +kernel

/-- States that meet the hypotheses of Epochs, clause by clause. -/
theorem witness_Epochs :
    meets (((carr 1 256000).put (F.TEAM_ALNCFG_ALIGN 3) 1).put (F.TEAM_EPOCHINT_INT 3) 1000 |>.modYok (fun y =>
      { y with lockAt := 900 }) |>.modTim (fun t => { t with netAt := 5 }) |>.modTeam 3 (fun x =>
      { x with started := false }) |>.put F.TIM_STAT_NETLOCK 1) (fun a => decide (a.load.locked = true ∧ a.yok.lockAt
      < a.now ∧ a.epochAt 3 a.nowF = some 1000 ∧ (a.team 3).legs ≠ [] ∧ (a.team 3).epochAt ≠ some a.nowF ∧ a.bit
      F.TIM_STAT_NETLOCK = true ∧ a.tim.netAt < a.now ∧ a.clkOn = true)) = true ∧
    meets (((carr 1 256000).put (F.TEAM_ALNCFG_ALIGN 3) 1).put (F.TEAM_EPOCHINT_INT 3) 1000 |>.modYok (fun y =>
      { y with lockAt := 900 }) |>.modTim (fun t => { t with netAt := 5 })) (fun a => decide (a.epochAt 3 a.nowF =
      some 1000 ∧ (a.team 3).started = true ∧ a.clkOn = true ∧ a.load.locked = true ∧ a.yok.lockAt < a.now ∧ (a.team
      3).legs ≠ [] ∧ (a.team 3).epochAt ≠ some a.nowF)) = true := by
  decide +kernel

/-- States that meet the hypotheses of VariablePeriods, clause by clause. -/
theorem witness_VariablePeriods :
    meets (((carr 2 100000).put (F.TEAM_CARCFG_RSTEDGE 3) 2).put (F.TEAM_CARCFG_RSTSRC 3) 95 |>.put
      (F.TEAM_CARCFG_VALLEY 3) 1 |>.modTeam 3 (fun x => { x with restartAt := none }) |>.modLeg 5 (fun l =>
      { l with plan := .edges 0 9000 })) (fun a => decide (a.leadLeg 3 = some 5 ∧ isVar (a.form 3) = true ∧ (a.team
      3).started = true ∧ a.get (F.TEAM_CARCFG_RSTEDGE 3) = 2 ∧ a.get (F.TEAM_CARCFG_RSTSRC 3) < 96 ∧ (a.team
      3).restartAt = none ∧ (a.team 3).pstart + a.restartE 3 5 + 768 ≤ a.nowF ∧ (a.team 3).valley + 1 = a.get
      (F.TEAM_CARCFG_VALLEY 3) ∧ a.clkOn = true)) = true ∧
    meets (((carr 2 100000).put (F.TEAM_CARCFG_RSTEDGE 3) 2).put (F.TEAM_CARCFG_RSTSRC 3) 95 |>.put
      (F.TEAM_CARCFG_VALLEY 3) 1 |>.modTeam 3 (fun x => { x with restartAt := some 256000007 }) |>.modLeg 5 (fun l =>
      { l with plan := .edges 0 9000 })) (fun a => decide (a.leadLeg 3 = some 5 ∧ isVar (a.form 3) = true ∧ (a.team
      3).started = true ∧ (a.team 3).restartAt = some (a.nowF + 7) ∧ a.nowF + 7 ≤ a.restartLimit 3 5 ∧ a.clkOn = true
      ∧ a.get (F.TEAM_CARCFG_RSTEDGE 3) = 2 ∧ a.get (F.TEAM_CARCFG_RSTSRC 3) < 96 ∧ (a.team 3).pstart + a.restartE 3 5
      + 768 ≤ a.nowF ∧ (a.team 3).valley + 1 = a.get (F.TEAM_CARCFG_VALLEY 3))) = true ∧
    meets (((carr 2 256000).put (F.TEAM_CARCFG_RSTEDGE 3) 2).put (F.TEAM_CARCFG_RSTSRC 3) 95 |>.put
      (F.TEAM_CARCFG_VALLEY 3) 1 |>.modTeam 3 (fun x => { x with restartAt := none }) |>.modLeg 5 (fun l =>
      { l with plan := .edges 0 9000 }) |>.put (F.TEAM_VARSTAT_LASTEND 3) 2) (fun a => decide (a.leadLeg 3 = some 5 ∧
      isVar (a.form 3) = true ∧ (a.team 3).started = true ∧ (a.team 3).restartAt = none ∧ a.nowF = a.restartLimit 3 5
      ∧ a.clkOn = true ∧ a.get (F.TEAM_CARCFG_RSTEDGE 3) = 2 ∧ a.get (F.TEAM_CARCFG_RSTSRC 3) < 96 ∧ (a.team 3).pstart
      + a.restartE 3 5 + 768 ≤ a.nowF ∧ (a.team 3).valley + 1 = a.get (F.TEAM_CARCFG_VALLEY 3))) = true := by
  decide +kernel

/-- States that meet the hypotheses of CompareEvents, clause by clause. -/
theorem witness_CompareEvents :
    meets ((carr 0 1000).modLeg 5 (fun l => { l with plan := .edges 1007 9007, cmd := false, onDone := false })) (fun
      a => decide ((a.leg 5).team = some 3 ∧ a.onInst 5 = some (256000007, 256000007, false) ∧ (a.leg 5).cmd = false ∧
      a.nowF + 7 < (a.leg 5).pstart + perLen (a.form 3) (a.leg 5).up (a.leg 5).down ∧ a.clkOn = true)) = true ∧
    meets ((carr 0 1000).modLeg 5 (fun l => { l with plan := .edges 0 1007, cmd := true, onDone := true })) (fun a =>
      decide (a.onInst 5 = none ∧ a.offInst 5 = some (256000007, 256000007, false) ∧ (a.leg 5).cmd = true ∧ a.clkOn =
      true ∧ (a.leg 5).team = some 3 ∧ a.nowF + 7 < (a.leg 5).pstart + perLen (a.form 3) (a.leg 5).up (a.leg 5).down))
      = true ∧
    meets (((carr 0 1000).wr (A.LEG_CMPC 5) 1007).put (F.LEG_CTL_TRGC_SEL 5) 1 |>.put (F.SDM_TEAMDLY_DLY 3) 4) (fun a
      => decide (a.trigAt 5 true (a.nowF + 7) = true ∧ a.leadLeg 3 = some 5 ∧ a.clkOn = true ∧ (a.leg 5).team = some 3
      ∧ (a.leg 5).cmd = false ∧ a.nowF + 7 < (a.leg 5).pstart + perLen (a.form 3) (a.leg 5).up (a.leg 5).down)) = true := by
  decide +kernel

/-- States that meet the hypotheses of TurnOns, clause by clause. -/
theorem witness_TurnOns :
    meets ((carr 0 1000).modLeg 5 (fun l =>
      { l with pend := some { sw := .low, at_ := 256000007, due := 256000007, held := false, etcId := none }, plan := .edges 1207 9007 }))
      (fun a => decide ((a.leg 5).pend = some
      { sw := .low, at_ := a.nowF + 7, due := 256000007, held := false, etcId := none } ∧ (a.leg 5).latched = false ∧
      a.ilkGuards 5 .low = false ∧ a.expFull 5 .low = false ∧ a.deadLine 5 1 = false ∧ a.clkOn = true)) = true ∧
    meets ((carr 0 1000).modLeg 5 (fun l =>
      { l with pend := some { sw := .low, at_ := 256000007, due := 256000007, held := true, etcId := none }, plan := .edges 1207 9007 })
      |>.put (F.LEG_MINP_MINP 5) 200) (fun a => decide (a.heldOffAt 5 = some 256000207 ∧ ((a.nowF + 7 : Nat) : Int) +
      a.minp 5 = 256000207 ∧ a.clkOn = true ∧ (a.leg 5).latched = false ∧ a.ilkGuards 5 .low = false ∧ a.expFull 5
      .low = false ∧ a.deadLine 5 1 = false)) = true := by
  decide +kernel

/-- States that meet the hypotheses of GateReports, clause by clause. -/
theorem witness_GateReports :
    meets ((carr 0 1000).put (F.LEG_EDGESTAT_HEALTHY_H 5) 0) (fun a => decide (a.deadLine 5 3 = false ∧ a.clkOn =
      true)) = true ∧
    meets ((carr 0 1000).put (F.LEG_EDGECFG_GSR_EN 5) 1 |>.put (F.LEG_ILKCFG_TMO 5) 1 |>.modLeg 5 (fun l =>
      { l with expL := [{ stamp := 255991000, turnOn := true, etcId := none }] }) |>.put (F.LEG_EDGESTAT_HEALTHY_L 5)
      1 |>.put (F.LEG_EDGESTAT_HEALTHY_H 5) 1) (fun a => decide (a.exps 5 .low =
      { stamp := 255991000, turnOn := true, etcId := none } :: [] ∧ a.gsrEn 5 = true ∧ (255991000 + tmoFine (a.get
      (F.LEG_ILKCFG_TMO 5))) / 256 + 2 ≤ a.now ∧ a.clkOn = true ∧ a.deadLine 5 3 = false)) = true ∧
    meets ((carr 0 1000).put (F.LEG_EDGECFG_GSR_EN 5) 1 |>.put (F.LEG_EDGESTAT_HEALTHY_L 5) 0 |>.put
      (F.LEG_EDGESTAT_HEALTHY_H 5) 0 |>.modLeg 5 (fun l => { l with unhealH := 255990000, unhealL := 255990000 }))
      (fun a => decide (a.bit (F.LEG_EDGESTAT_HEALTHY_H 5) = false ∧ a.bit (F.LEG_EDGESTAT_HEALTHY_L 5) = false ∧ (max
      (a.leg 5).unhealH (a.leg 5).unhealL + 256) / 256 + 2 ≤ a.now ∧ a.clkOn = true ∧ a.deadLine 5 3 = false)) = true := by
  decide +kernel

/-- States that meet the hypotheses of Bootstrap, clause by clause. -/
theorem witness_Bootstrap :
    meets ((carr 0 1000).modLeg 5 (fun l => { l with gh := true, cmd := true, bsAt := 999000 }) |>.put
      (F.LEG_BSCFG_LIMIT 5) 900) (fun a => decide (a.hsIso 5 = false ∧ (a.leg 5).gh = true ∧ a.bsCountAt 5 a.now =
      a.get (F.LEG_BSCFG_LIMIT 5) ∧ a.bit (F.LEG_OVRSTAT_FORCE 5) = false ∧ (a.leg 5).cmd = true ∧ (a.leg 5).refresh = false ∧
      a.clkOn = true)) = true ∧
    meets ((carr 0 1000).modLeg 5 (fun l => { l with gl := true, glOnAt := 256000007 - up.bsWidth 5 }) |>.put
      (F.LEG_BSCNT_COUNT 5) 50) (fun a => decide ((a.leg 5).gl = true ∧ a.glFrom 5 + a.bsWidth 5 = a.nowF + 7 ∧
      a.clkOn = true ∧ a.hsIso 5 = false ∧ a.protected_ 5 = false ∧ (a.leg 5).refresh = false)) = true := by
  decide +kernel

/-- States that meet the hypotheses of TeamControl, clause by clause. -/
theorem witness_TeamControl :
    meets (up |>.modLoad (fun l => { l with pdk := List.replicate 0x1C7 0 ++ [29] ++ List.replicate 4000 0 })) (fun a
      => decide (a.takes .supA (A.LEG_OVR 0) = true ∧ a.pdkOn = true)) = true ∧
    meets ((carr 0 1000).put (F.TEAM_STAT_STATE 3) 1 |>.put F.SER_SVCSTAT_MODE 1 |>.put F.SER_SVCSTAT_ARMED 1 |>.put
      F.IDG_INBAND_SAFE_N 0 |> (fun x : State => { x with safe := { x.safe with filtLow := false } })) (fun a => decide (a.takes .supB
      (A.TEAM_CTL 3) = true ∧ a.tstate 3 = stOFF ∧ (a.safeLow || (a.team 3).barred) = false ∧ a.takes .supA (A.LEG_OVR
      0) = true)) = true ∧
    meets ((carr 0 1000).put (F.TEAM_STAT_STATE 3) 3 |>.put F.SER_SVCSTAT_MODE 1 |>.put F.SER_SVCSTAT_ARMED 1 |>.put
      (F.TEAM_CTL_EN 3) 1) (fun a => decide (a.takes .supB (A.TEAM_CTL 3) = true ∧ a.takes .supA (A.LEG_OVR 0) =
      true)) = true ∧
    meets ((carr 0 1000).put (F.TEAM_STAT_STATE 3) 4 |>.put F.SER_SVCSTAT_MODE 1 |>.put F.SER_SVCSTAT_ARMED 1 |>.put
      F.IDG_INBAND_SAFE_N 0 |> (fun x : State => { x with safe := { x.safe with filtLow := false } })) (fun a => decide (a.takes .supB
      (A.TEAM_CTL 3) = true ∧ a.tstate 3 = stHALTED ∧ (a.teamTripped 3 || a.safeLow || (a.team 3).barred) = false ∧
      a.takes .supA (A.LEG_OVR 0) = true)) = true ∧
    meets ((carr 0 1000).put (F.TEAM_STAT_STATE 3) 4 |>.put F.SER_SVCSTAT_MODE 1 |>.put F.SER_SVCSTAT_ARMED 1) (fun a
      => decide ((a.teamTripped 3 || a.safeLow || (a.team 3).barred) = true ∧ a.takes .supA (A.LEG_OVR 0) = true)) =
      true := by
  decide +kernel

/-- States that meet the hypotheses of SampleDeliveries, clause by clause. -/
theorem witness_SampleDeliveries :
    meets ((up.put (F.SDM_STAT_OCVALID 143) 1).put (F.SDM_CFG_MODE 143) 1 |>.modSdm 143 (fun c =>
      { c with ocAt := 999999, marks := [{ centre := 999900, deliver := 1000000, osr := 1, stamp := 5 }], histMain := some 5, bits := [(999990, true), (999000, false)] }))
      (fun a => decide (a.clkOn = true ∧ (a.sdm 143).marks.filter (fun x => x.deliver == a.now) =
      [{ centre := 999900, deliver := a.now, osr := 1, stamp := 5 }] ∧ (a.sdmSample 143
      { centre := 999900, deliver := a.now, osr := 1, stamp := 5 }).2.2 = true)) = true ∧
    meets ((up.put (F.SDM_STAT_OCVALID 143) 1).put (F.SDM_CFG_MODE 143) 1 |>.modSdm 143 (fun c =>
      { c with ocAt := 999999, marks := [{ centre := 999900, deliver := 1000000, osr := 1, stamp := 5 }], histMain := none, bits := [(999990, true), (999000, false)] }))
      (fun a => decide ((a.sdmSample 143 { centre := 999900, deliver := a.now, osr := 1, stamp := 5 }).2.2 = false ∧
      a.clkOn = true ∧ (a.sdm 143).marks.filter (fun x => x.deliver == a.now) = [{ centre := 999900, deliver := a.now, osr := 1, stamp := 5 }])) = true := by
  decide +kernel

/-- States that meet the hypotheses of BitCaptures, clause by clause. -/
theorem witness_BitCaptures :
    meets
      ({ (up.put (F.SDM_CKCFG_EN 7) 1).put (F.SDM_CFG_CKSEL 143) 7 |>.put (F.SDM_CFG_MODE 143) 1 |>.put (F.SDM_CFG_CAPDLY 143) 0 |>.put (F.SDM_CFG_POL 143) 1 |>.modSdm 143 (fun c => { c with ocAt := 999999, runVal := false, runLen := 9 }) with sdmCk := Vector.replicate 8 (some { first := 16, old := none }) })
      (fun a => decide (finOf 8 (a.get (F.SDM_CFG_CKSEL 143)) = some 7 ∧ a.sdmMode 143 = sdmCLOCKED ∧ a.get
      (F.SDM_CFG_CAPDLY 143) ≤ a.now ∧ a.ckRise 7 (a.now - a.get (F.SDM_CFG_CAPDLY 143)) = true ∧ a.clkOn = true)) =
      true ∧
    meets ((up.put (F.SDM_CFG_MODE 143) 2).modSdm 143 (fun c =>
      { c with ocAt := 999999, runVal := true, good := 4, errs := 2, locked := true, mids := (List.range 17).map (fun i => 256000000 - 2600 - 1280 * i) }))
      (fun a => decide (a.sdmMode 143 = sdmMANCHESTER ∧ a.clkOn = true ∧ finOf 8 (a.get (F.SDM_CFG_CKSEL 143)) = some
      7 ∧ a.get (F.SDM_CFG_CAPDLY 143) ≤ a.now)) = true ∧
    meets ((up.put (F.SDM_CFG_MODE 143) 2).modSdm 143 (fun c =>
      { c with ocAt := 999999, runVal := true, good := 4, errs := 2, locked := true, mids := (List.range 17).map (fun i => 256000000 - 2600 - 1280 * i) }))
      (fun a => decide (manPeriod (a.sdm 143).mids = some 1280 ∧ (a.sdm 143).locked = true ∧ 255997400 + 1280 + 3 *
      1280 / 4 ≤ a.nowF ∧ a.clkOn = true ∧ finOf 8 (a.get (F.SDM_CFG_CKSEL 143)) = some 7 ∧ a.get (F.SDM_CFG_CAPDLY
      143) ≤ a.now)) = true := by
  decide +kernel

/-- States that meet the hypotheses of SenseConditions, clause by clause. -/
theorem witness_SenseConditions :
    meets ((up.put (F.SDM_CFG_MODE 143) 1).put (F.SDM_CFG_RUNMAX 143) 8 |>.put (F.SDM_STAT_OCVALID 143) 1 |>.modSdm
      143 (fun c =>
      { c with ocAt := 999999, await := .none, runLen := 10000, histOc := some 999900, histMain := some 9 })) (fun a
      => decide (a.lossDue 143 1 = true ∧ a.clkOn = true)) = true ∧
    meets ((up.put (F.SDM_CFG_MODE 143) 1).put (F.SDM_CFG_LOSSTRIP 143) 1 |>.modSdm 143 (fun c =>
      { c with ocAt := 999999 })) (fun a => decide (a.ocCond 143 .h a.now = true ∧ a.clkOn = true)) = true ∧
    meets ((((up.put (F.SDM_STAT_OCVALID 143) 1).put (F.SDM_CFG_MODE 143) 1 |>.modSdm 143 (fun c =>
      { c with ocAt := 999999, marks := [{ centre := 999900, deliver := 1000000, osr := 1, stamp := 5 }], histMain := none, bits := [(999990, true), (999000, false)] }))).put
      (F.SDM_STAT_OCVALID 143) 1 |>.put (F.SDM_CFG_OCEN 143) 1 |>.put (F.SDM_OCHI_THR 143) 5 |>.put (F.SDM_OCLO_THR
      143) 5 |>.modSdm 143 (fun c => { c with bits := [(999900, true)], ocAt := 999998, histOc := some 0 })) (fun a =>
      decide (a.clkOn = true)) = true ∧
    meets ((up.put (F.SDM_CFG_MODE 143) 1).put (F.SDM_CFG_LOSSTRIP 143) 1 |>.modSdm 143 (fun c =>
      { c with ocAt := 999999 })) (fun a => decide (a.ocCond 143 .l a.now = true ∧ a.clkOn = true)) = true ∧
    meets ((((up.put (F.SDM_STAT_OCVALID 143) 1).put (F.SDM_CFG_MODE 143) 1 |>.modSdm 143 (fun c =>
      { c with ocAt := 999999, marks := [{ centre := 999900, deliver := 1000000, osr := 1, stamp := 5 }], histMain := none, bits := [(999990, true), (999000, false)] }))).put
      (F.SDM_STAT_OCVALID 143) 1 |>.put (F.SDM_CFG_OCEN 143) 1 |>.put (F.SDM_OCHI_THR 143) 5 |>.put (F.SDM_OCLO_THR
      143) 5 |>.modSdm 143 (fun c => { c with bits := [(999900, true)], ocAt := 999998, histOc := some 0 })) (fun a =>
      decide (a.clkOn = true)) = true := by
  decide +kernel

/-- States that meet the hypotheses of GroupReleases, clause by clause. -/
theorem witness_GroupReleases :
    meets ((up.put F.CE_CTL_EN 1).put (F.MGRP_TQCMD_TQ 7) 0x7fffffff |>.put (F.HKP_THSTAT_LEVEL) 0 |>.modGroup 7 (fun
      g => { g with enabled := true, relDue := [1000000, 1000001], liveView := [0, 1] })) (fun a => decide (a.groupRelDue 7
      = true ∧ a.releasesOn = true ∧ a.clkOn = true)) = true := by
  decide +kernel

/-- States that meet the hypotheses of TaskReleases, clause by clause. -/
theorem witness_TaskReleases :
    meets ((((carr 0 1000).put F.CE_CTL_EN 1).memSet (K.desc 3 4) 0x80000000).modTeam 3 (fun x =>
      { x with rels := [(1000000, true)] })) (fun a => decide (a.releasesOn = true ∧ (a.team 3).rels.find? (fun e =>
      e.1 == a.now) = some (a.now, true) ∧ a.taskEn 3 = true ∧ a.tstate 3 ≠ stUNCONF ∧ a.get F.HKP_THSTAT_LEVEL < 2 ∧
      a.running 3 = false ∧ a.clkOn = true)) = true ∧
    meets (((up.put F.CE_CTL_EN 1).memSet (K.desc 35 4) 0x80000000).put (F.CE_BGCFG_PER 3) 1000 |>.modYok (fun y =>
      { y with lockAt := 999000 })) (fun a => decide (a.releasesOn = true ∧ a.taskEn 35 = true ∧ a.get
      F.HKP_THSTAT_LEVEL = 0 ∧ a.running 35 = false ∧ a.get (F.CE_BGCFG_PER 3) ≠ 0 ∧ a.yok.lockAt < a.now ∧ (a.now -
      a.yok.lockAt) % a.get (F.CE_BGCFG_PER 3) = 0 ∧ a.clkOn = true ∧ a.get F.HKP_THSTAT_LEVEL < 2 ∧ a.running 3 =
      false)) = true ∧
    meets (((up.put F.CE_CTL_EN 1).memSet (K.desc 35 4) 0x80000000).put (F.CE_BGCFG_PER 3) 1000 |>.modYok (fun y =>
      { y with lockAt := 999000 })) (fun a => decide (a.releasesOn = true ∧ a.taskEn 35 = true ∧ a.get
      F.HKP_THSTAT_LEVEL = 0 ∧ a.running 35 = false ∧ a.takes .supA (A.CE_BGCFG 3) = true ∧ a.clkOn = true ∧ a.get
      F.HKP_THSTAT_LEVEL < 2 ∧ a.running 3 = false)) = true ∧
    meets (((up.put F.CE_CTL_EN 1).memSet (K.desc 35 4) 0x80000000).put (F.CE_BGCFG_PER 3) 1000 |>.modYok (fun y =>
      { y with lockAt := 999000 })) (fun a => decide (a.releasesOn = true ∧ a.taskEn 35 = true ∧ a.get
      F.HKP_THSTAT_LEVEL = 0 ∧ a.running 35 = false ∧ a.clkOn = true ∧ a.get F.HKP_THSTAT_LEVEL < 2 ∧ a.running 3 =
      false)) = true := by
  decide +kernel

/-- States that meet the hypotheses of TaskStarts, clause by clause. -/
theorem witness_TaskStarts :
    meets (((up.put F.CE_CTL_EN 1).modCe (fun c =>
      { c with ready := [{ run0 with task := 35, deadline := 7 }, { run0 with task := 4, deadline := 900 }, { run0 with task := 2, deadline := 900 }] })))
      (fun a => decide (a.ce.lanes[3] = none ∧ a.nextRun 3 = some ({ run0 with task := 2, deadline := 900 }) ∧ a.clkOn
      = true)) = true := by
  decide +kernel

/-- States that meet the hypotheses of Commits, clause by clause. -/
theorem witness_Commits :
    meets (((up.put F.CE_CTL_EN 1).put (F.CE_TSTAT_RUNNING 35) 1).modCe (fun c =>
      { c with ended := [{ run0 with ended := some 7, discard := false, flags := 0x81, journal := [.state 8190 1, .cap 2 9, .state 8190 2, .state 3 4] }] }))
      (fun a => decide ((a.endedRun 35).isSome ∧ a.tagFree = true ∧ a.stalled = [] ∧ taskGroup 35 = none ∧ a.yokHold
      run0 = false ∧ a.clkOn = true)) = true ∧
    meets (((up.put F.CE_CTL_EN 1).put (F.CE_TSTAT_RUNNING 35) 1).modCe (fun c =>
      { c with ended := [{ run0 with ended := some 7, discard := true, flags := 0x81, journal := [.state 8190 1, .cap 2 9, .state 8190 2, .state 3 4] }] }))
      (fun a => decide (a.clkOn = true ∧ (a.endedRun 35).isSome ∧ a.tagFree = true ∧ a.stalled = [] ∧ taskGroup 35 =
      none ∧ a.yokHold run0 = false)) = true ∧
    meets (((up.put F.CE_CTL_EN 1).put (F.CE_TSTAT_RUNNING 31) 1).modCe (fun c =>
      { c with ended := [{ run0 with task := 31, deadline := 1000001, ended := some 7, discard := false, flags := 0x81, journal := [.state 8190 1, .cap 2 9, .state 8190 2, .state 3 4] }] }))
      (fun a => decide ((a.endedRun 31).isSome ∧ a.now < 1000001 ∧ (a.endedRun 31).map (fun r => r.deadline) = some
      1000001 ∧ a.clkOn = true ∧ a.tagFree = true ∧ a.stalled = [] ∧ taskGroup 35 = none ∧ a.yokHold run0 = false)) =
      true ∧
    meets (((up.put F.CE_CTL_EN 1).modCe (fun c => { c with ready := [{ run0 with task := 31, deadline := 900 }] })))
      (fun a => decide (a.ce.ready = [{ run0 with task := 31, deadline := 900 }] ∧ a.ce.gpend[7] = none ∧ a.clkOn =
      true ∧ a.tagFree = true ∧ a.stalled = [] ∧ taskGroup 35 = none ∧ a.yokHold run0 = false)) = true := by
  decide +kernel

/-- States that meet the hypotheses of Scrubbing, clause by clause. -/
theorem witness_Scrubbing :
    meets (up.put F.CE_CTL_SCRUB 1 |>.modCe (fun c => { c with scrub := 170495 })) (fun a => decide (a.clkOn = true ∧
      a.bit F.CE_CTL_SCRUB = true ∧ keyWord (scrubKey allMems a.ce.scrub) = some (.desc, 4607) ∧
      a.upsetAt (scrubKey allMems a.ce.scrub) = none ∧ 65535 < memSize .capture ∧
      memKey .capture 65535 ≠ scrubKey allMems a.ce.scrub)) = true ∧
    meets ({ up with upset := [(memKey .program 5, false), (memKey .state 9, true)] }.put F.CE_CTL_SCRUB 1 |>.modCe
      (fun c => { c with scrub := 5 })) (fun a => decide (a.clkOn = true ∧ a.bit F.CE_CTL_SCRUB = true ∧
      keyWord (scrubKey allMems a.ce.scrub) = some (.program, 5) ∧
      a.upsetAt (scrubKey allMems a.ce.scrub) = some false)) = true ∧
    meets ({ up with upset := [(memKey .coef 0, true)] }.put F.CE_CTL_SCRUB 1 |>.modCe (fun c =>
      { c with scrub := 16384 })) (fun a => decide (a.clkOn = true ∧ a.bit F.CE_CTL_SCRUB = true ∧
      keyWord (scrubKey allMems a.ce.scrub) = some (.coef, 0) ∧
      a.upsetAt (scrubKey allMems a.ce.scrub) = some true)) = true := by
  decide +kernel

/-- States that meet the hypotheses of BusReads, clause by clause. -/
theorem witness_BusReads :
    meets (up.memSet (K.table 0 4095) 9) (fun a => decide (a.mayReach .supB false (0xD0000 + 4 * 4095) = true ∧
      a.get F.CE_TBLBANK_BANK = 0 ∧ a.upsetAt (K.table 0 4095) = none)) = true ∧
    meets ({ up.memSet (K.table 0 4095) 9 with upset := [(K.table 0 4095, false)] }) (fun a =>
      decide (a.mayReach .supB false (0xD0000 + 4 * 4095) = true ∧ a.get F.CE_TBLBANK_BANK = 0 ∧
      a.upsetAt (K.table 0 4095) = some false)) = true ∧
    meets ({ up.memSet (K.table 0 4095) 9 with upset := [(K.table 0 4095, true)] }) (fun a =>
      decide (a.mayReach .supB false (0xD0000 + 4 * 4095) = true ∧ a.get F.CE_TBLBANK_BANK = 0 ∧
      a.upsetAt (K.table 0 4095) = some true)) = true := by
  decide +kernel

/-- States that meet the hypotheses of GeneratorsAndCaptures, clause by clause. -/
theorem witness_GeneratorsAndCaptures :
    meets (up.put (F.CE_GENCFG_MODE 3) 5 |>.wr (A.CE_GENSTART0 3) 0xFFFFFFFF |>.wr (A.CE_GENSTART1 3) 0xFF) (fun a =>
      decide (a.takes .supA (A.CE_GENCTL 3) = true ∧ a.bit (F.CE_GENSTAT_RUN 3) = false ∧ a.bit (F.CE_GENSTAT_WAIT 3)
      = false ∧ a.get (F.CE_GENCFG_MODE 3) ≠ 0)) = true ∧
    meets (up.put (F.CE_GENCFG_MODE 3) 5 |>.wr (A.CE_GENSTART0 3) 0xFFFFFFFF |>.wr (A.CE_GENSTART1 3) 0xFF |>.put
      (F.CE_GENSTAT_RUN 3) 1) (fun a => decide ((a.bit (F.CE_GENSTAT_RUN 3) = true ∨ a.bit (F.CE_GENSTAT_WAIT 3) =
      true) ∧ a.takes .supA (A.CE_GENCTL 3) = true ∧ a.bit (F.CE_GENSTAT_WAIT 3) = false ∧ a.get (F.CE_GENCFG_MODE 3)
      ≠ 0)) = true ∧
    meets (up.put (F.CE_CAPSTAT_DONE 3) 1 |>.put (F.CE_CAPSTAT_WRAP 3) 1 |>.put (F.CE_CAPRANGE_BASE 3) 0x3FFF |>.put
      (F.CE_CAPSTAT_ARMED 3) 0 |>.wr (A.CE_CAPDROP 3) 7) (fun a => decide (a.takes .supA (A.CE_CAPCTL 3) = true ∧
      a.takes .supA (A.CE_GENCTL 3) = true ∧ a.bit (F.CE_GENSTAT_RUN 3) = false ∧ a.bit (F.CE_GENSTAT_WAIT 3) =
      false)) = true ∧
    meets (up.put (F.CE_CAPSTAT_DONE 3) 1 |>.put (F.CE_CAPSTAT_WRAP 3) 1 |>.put (F.CE_CAPRANGE_BASE 3) 0x3FFF |>.put
      (F.CE_CAPSTAT_ARMED 3) 1 |>.wr (A.CE_CAPDROP 3) 7) (fun a => decide (a.takes .supA (A.CE_GENCTL 3) = true ∧
      a.bit (F.CE_GENSTAT_RUN 3) = false ∧ a.bit (F.CE_GENSTAT_WAIT 3) = false)) = true := by
  decide +kernel

/-- States that meet the hypotheses of AccumulatorSums, clause by clause. -/
theorem witness_AccumulatorSums :
    meets (ceOn (⟨3, 0, 0, 0, 0⟩ : Op)) (fun a => decide (at15 a (⟨3, 0, 0, 0, 0⟩ : Op))) = true ∧
    meets (ceOn (⟨4, 0, 63, 0, 0⟩ : Op)) (fun a => decide (at15 a (⟨4, 0, 63, 0, 0⟩ : Op))) = true ∧
    meets (ceOn (⟨5, 0, 63, 0, 0⟩ : Op)) (fun a => decide (at15 a (⟨5, 0, 63, 0, 0⟩ : Op))) = true ∧
    meets (ceOn (⟨6, 0, 0, 5, 0⟩ : Op)) (fun a => decide (at15 a (⟨6, 0, 0, 5, 0⟩ : Op))) = true ∧
    meets (ceOn (⟨7, 0, 1, 5, 0⟩ : Op)) (fun a => decide (at15 a (⟨7, 0, 1, 5, 0⟩ : Op))) = true ∧
    meets (ceOn (⟨8, 0, 1, 5, 0⟩ : Op)) (fun a => decide (at15 a (⟨8, 0, 1, 5, 0⟩ : Op))) = true ∧
    meets (ceOn (⟨9, 0, 1, 5, 0⟩ : Op)) (fun a => decide (at15 a (⟨9, 0, 1, 5, 0⟩ : Op))) = true ∧
    meets (ceOn (⟨10, 0, 1, 2, 0⟩ : Op)) (fun a => decide (at15 a (⟨10, 0, 1, 2, 0⟩ : Op))) = true ∧
    meets (ceOn (⟨11, 0, 1, 2, 0⟩ : Op)) (fun a => decide (at15 a (⟨11, 0, 1, 2, 0⟩ : Op))) = true ∧
    meets (ceOn (⟨16, 0, 1, 0, 0⟩ : Op)) (fun a => decide (at15 a (⟨16, 0, 1, 0, 0⟩ : Op))) = true ∧
    meets (ceOn (⟨17, 0, 1, 0, 0⟩ : Op)) (fun a => decide (at15 a (⟨17, 0, 1, 0, 0⟩ : Op))) = true ∧
    meets (ceOn (⟨19, 0, 1, 0, 0⟩ : Op)) (fun a => decide (at15 a (⟨19, 0, 1, 0, 0⟩ : Op))) = true ∧
    meets (ceOn (⟨13, 0, 0, 29, 0⟩ : Op)) (fun a => decide (at15 a (⟨13, 0, 0, 29, 0⟩ : Op))) = true := by
  decide +kernel

/-- States that meet the hypotheses of AccumulatorMoves, clause by clause. -/
theorem witness_AccumulatorMoves :
    meets (ceOn (⟨2, 0, 0, 0, 0⟩ : Op)) (fun a => decide (at15 a (⟨2, 0, 0, 0, 0⟩ : Op))) = true ∧
    meets (ceOn (⟨21, 0, 2, 0, 0⟩ : Op)) (fun a => decide (at15 a (⟨21, 0, 2, 0, 0⟩ : Op))) = true ∧
    meets (ceOn (⟨22, 0, 0, 5, 0⟩ : Op)) (fun a => decide (at15 a (⟨22, 0, 0, 5, 0⟩ : Op))) = true ∧
    meets (ceOn (⟨23, 0, 5, 0, 0⟩ : Op)) (fun a => decide (at15 a (⟨23, 0, 5, 0, 0⟩ : Op))) = true ∧
    meets (ceOn (⟨25, 0, 0, 5, 0⟩ : Op)) (fun a => decide (at15 a (⟨25, 0, 0, 5, 0⟩ : Op))) = true ∧
    meets (ceOn (⟨29, 0, 0, 0, 0⟩ : Op)) (fun a => decide (at15 a (⟨29, 0, 0, 0, 0⟩ : Op))) = true ∧
    meets (ceOn (⟨14, 0, 0, 0, 0⟩ : Op)) (fun a => decide (at15 a (⟨14, 0, 0, 0, 0⟩ : Op))) = true ∧
    meets (ceOn (⟨15, 0, 0, 0, 0⟩ : Op)) (fun a => decide (at15 a (⟨15, 0, 0, 0, 0⟩ : Op))) = true ∧
    meets (ceOn (⟨18, 0, 0, 6, 0⟩ : Op)) (fun a => decide (at15 a (⟨18, 0, 0, 6, 0⟩ : Op))) = true ∧
    meets (ceOn (⟨0, 0, 0, 0, 0⟩ : Op)) (fun a => decide (at15 a (⟨0, 0, 0, 0, 0⟩ : Op))) = true := by
  decide +kernel

/-- States that meet the hypotheses of AccumulatorFunctions, clause by clause. -/
theorem witness_AccumulatorFunctions :
    meets (ceOn (⟨27, 0, 1, 15, 0⟩ : Op)) (fun a => decide (at15 a (⟨27, 0, 1, 15, 0⟩ : Op))) = true ∧
    meets (ceOn (⟨28, 0, 1, 0, 0⟩ : Op)) (fun a => decide (at15 a (⟨28, 0, 1, 0, 0⟩ : Op))) = true ∧
    meets (ceOn (⟨30, 0, 1, 0, 0⟩ : Op)) (fun a => decide (at15 a (⟨30, 0, 1, 0, 0⟩ : Op))) = true ∧
    meets (ceOn (⟨30, 0, 112, 0, 0⟩ : Op)) (fun a => decide (at15 a (⟨30, 0, 112, 0, 0⟩ : Op))) = true ∧
    meets (ceOn (⟨31, 0, 0, 0, 0⟩ : Op)) (fun a => decide (at15 a (⟨31, 0, 0, 0, 0⟩ : Op))) = true ∧
    meets (ceOn (⟨20, 0, 1, 0, 0⟩ : Op)) (fun a => decide (at15 a (⟨20, 0, 1, 0, 0⟩ : Op))) = true := by
  decide +kernel

/-- States that meet the hypotheses of SignalStores, clause by clause. -/
theorem witness_SignalStores :
    meets (ceOn (⟨12, 0, 64, 0, 0⟩ : Op)) (fun a => decide (at15 a (⟨12, 0, 64, 0, 0⟩ : Op))) = true ∧
    meets (ceOn (⟨32, 0, 65, 0, 0⟩ : Op)) (fun a => decide (at15 a (⟨32, 0, 65, 0, 0⟩ : Op))) = true ∧
    meets (ceOn (⟨26, 0, 96, 0, 0⟩ : Op)) (fun a => decide (at15 a (⟨26, 0, 96, 0, 0⟩ : Op))) = true := by
  decide +kernel

/-- States that meet the hypotheses of BiquadSections, clause by clause. -/
theorem witness_BiquadSections :
    meets (ceOn (⟨24, 0, 98, 5, 0⟩ : Op)) (fun a => decide (at15 a (⟨24, 0, 98, 5, 0⟩ : Op))) = true := by
  decide +kernel

/-- States that meet the hypotheses of SkipsFlagsCaptures, clause by clause. -/
theorem witness_SkipsFlagsCaptures :
    meets (ceOn (⟨33, 0, 1, 30, 15⟩ : Op)) (fun a => decide (at15 a (⟨33, 0, 1, 30, 15⟩ : Op))) = true ∧
    meets (ceOn (⟨34, 0, 1, 30, 15⟩ : Op)) (fun a => decide (at15 a (⟨34, 0, 1, 30, 15⟩ : Op))) = true ∧
    meets (ceOn (⟨35, 1, 0, 0, 3⟩ : Op)) (fun a => decide (at15 a (⟨35, 1, 0, 0, 3⟩ : Op))) = true ∧
    meets (ceOn (⟨36, 1, 0, 0, 3⟩ : Op)) (fun a => decide (at15 a (⟨36, 1, 0, 0, 3⟩ : Op))) = true ∧
    meets (ceOn (⟨37, 0, 1, 3, 0⟩ : Op)) (fun a => decide (at15 a (⟨37, 0, 1, 3, 0⟩ : Op))) = true ∧
    meets (ceOn (⟨38, 0, 0, 7, 0⟩ : Op)) (fun a => decide (at15 a (⟨38, 0, 0, 7, 0⟩ : Op))) = true := by
  decide +kernel

/-- States that meet the hypotheses of RunEnds, clause by clause. -/
theorem witness_RunEnds :
    meets (ceOn (⟨1, 0, 0, 0, 0⟩ : Op)) (fun a => decide (at15 a (⟨1, 0, 0, 0, 0⟩ : Op))) = true ∧
    meets ({ ceOn (⟨1, 0, 0, 0, 0⟩ : Op) with tagsUse := 128 }) (fun a => decide (a.tagFree = false ∧ at15 a (⟨1, 0,
      0, 0, 0⟩ : Op))) = true := by
  decide +kernel

/-- States that meet the hypotheses of RunChecks, clause by clause. -/
theorem witness_RunChecks :
    meets (ceOn (⟨4, 2, 9, 0, 0⟩ : Op)) (fun a => decide (at15 a (⟨4, 2, 9, 0, 0⟩ : Op)) && decide (32 ≤ run0.task.val))
      = true ∧
    meets ((ceOn (⟨4, 2, 9, 0, 0⟩ : Op)).memSet (K.prog 0) 0xFFFFFFFF) (fun a => decide (32 ≤ run0.task.val ∧
      a.ce.lanes[15] = some run0 ∧ run0.ended = none ∧ (State.fetchKeys run0).all (fun k => a.upsetAt k == none) ∧
      opLegal (a.memGet (K.prog (run0.pc % 16384))) = false)) = true ∧
    meets ({ (ceOn (⟨4, 2, 9, 0, 0⟩ : Op)) with upset := [(K.prog 0, true)] } |>.modCe (fun c =>
      { c with lanes := c.lanes.set 15 (some { run0 with cycles := 1 }) })) (fun a => decide (32 ≤ run0.task.val ∧
      a.ce.lanes[15] = some { run0 with cycles := 1 } ∧ run0.pc ≠ a.pStart run0.task + a.pLen run0.task ∧
      a.upsetAt (K.prog (run0.pc % 16384)) = some true)) = true := by
  decide +kernel

/-- States that meet the hypotheses of EdgeCounts, clause by clause. -/
theorem witness_EdgeCounts :
    meets (((up.put (F.FBK_CFG_MODE 7) 1).put (F.FBK_CFG_IDXGATE 7) 0).put (F.FBK_CFG_DIRINV 7) 0 |>.wr (A.FBK_POS0 7)
      0xFFFFFFFF |>.wr (A.FBK_POS1 7) 0 |>.put (F.FBK_STAT_POSVALID 7) 1 |>.modPort 7 (fun x =>
      { x with a := false, b := false })) (fun a => decide (a.clkOn = true ∧ a.fbkMode 7 = fmQUAD ∧ a.bit
      (F.FBK_CFG_IDXGATE 7) = false ∧ (quadIdx true false + 4 - quadIdx (a.port 7).a (a.port 7).b) % 4 = 1)) = true ∧
    meets (((up.put (F.FBK_CFG_MODE 7) 2).put (F.FBK_CFG_IDXGATE 7) 1).put (F.FBK_CFG_DIRINV 7) 0 |>.wr (A.FBK_POS0 7)
      0xFFFFFFFF |>.wr (A.FBK_POS1 7) 0x7FFFFFFF |>.put (F.FBK_STAT_POSVALID 7) 1 |>.modPort 7 (fun x =>
      { x with a := false, b := false })) (fun a => decide (a.fbkMode 7 = fmPULSEDIR ∧ a.clkOn = true ∧ (quadIdx true
      false + 4 - quadIdx (a.port 7).a (a.port 7).b) % 4 = 1)) = true ∧
    meets (((up.put (F.FBK_CFG_MODE 7) 1).put (F.FBK_CFG_IDXGATE 7) 1).put (F.FBK_CFG_DIRINV 7) 0 |>.wr (A.FBK_POS0 7)
      5 |>.wr (A.FBK_POS1 7) 0 |>.put (F.FBK_STAT_POSVALID 7) 1 |>.modPort 7 (fun x =>
      { x with a := true, b := false })) (fun a => decide ((a.port 7).z = a.bit (F.FBK_CFG_ZPOL 7) ∧ a.clkOn = true ∧
      a.fbkMode 7 = fmQUAD)) = true := by
  decide +kernel

/-- States that meet the hypotheses of PositionsAndProbes, clause by clause. -/
theorem witness_PositionsAndProbes :
    meets ((up.put (F.FBK_CFG_MODE 7) 1).put (F.FBK_STAT_LOST 7) 1 |>.modPort 7 (fun x => { x with haveRef := true }))
      (fun a => decide (a.takes .supA (A.FBK_POSSET 7) = true ∧ (a.port 7).frozen = false ∧ a.clkOn = true)) = true ∧
    meets ((up.put (F.FBK_CFG_MODE 7) 1).put (F.FBK_PRBCFG_ARM 7) 1 |>.put (F.FBK_PRBCFG_EDGE 7) 3 |>.put
      (F.FBK_PRBCFG_FILT 7) 3 |>.put (F.FBK_PRBCFG_CONT 7) 0 |>.wr (A.FBK_POS0 7) 9 |>.modPort 7 (fun x =>
      { x with hist := [(999995, 3, 4), (999000, 2, 3)] })) (fun a => decide (a.fbkMode 7 ≠ fmOFF ∧ (a.port 7).prb
      ≠ true ∧ a.bit (F.FBK_PRBCFG_ARM 7) = true ∧ a.get (F.FBK_PRBCFG_EDGE 7) = 3 ∧ a.clkOn = true ∧ a.takes .supA
      (A.FBK_POSSET 7) = true ∧ (a.port 7).frozen = false)) = true ∧
    meets ((up.put (F.FBK_CFG_MODE 7) 1).put (F.FBK_STAT_SPDVALID 7) 1 |>.put (F.FBK_SPDMIN_MIN 7) 0xFFFF |>.modPort 7
      (fun x => { x with lastEv := some 5, spanN := 1, delta := 9, spdEv := -100 })) (fun a => decide (a.spdDecayed 7
      = true ∧ a.clkOn = true ∧ a.takes .supA (A.FBK_POSSET 7) = true ∧ (a.port 7).frozen = false)) = true := by
  decide +kernel

/-- States that meet the hypotheses of FeedbackLosses, clause by clause. -/
theorem witness_FeedbackLosses :
    meets ((up.put (F.FBK_CFG_MODE 7) 3).modPort 7 (fun x => { x with hallBad := some 999968 }) |>.put
      (F.FBK_STAT_LOST 7) 0 |>.put (F.FBK_STAT_POSVALID 7) 1) (fun a => decide ((a.port 7).hallBad = some 999968 ∧
      a.fbkMode 7 = fmHALL ∧ a.clkOn = true)) = true ∧
    meets ((up.put (F.FBK_CFG_MODE 7) 1).put (F.FBK_STAT_SPDVALID 7) 1 |>.put (F.FBK_LOSSCFG_LOSSSH 7) 1 |>.put
      (F.FBK_LOSSCFG_LOSSSPD 7) 1 |>.modPort 7 (fun x =>
      { x with lastEv := some 999000, spanN := 2, delta := 900, spdEv := -65536 }) |>.put (F.FBK_STAT_LOST 7) 0 |>.put
      (F.FBK_STAT_POSVALID 7) 1) (fun a => decide ((a.port 7).lastEv = some 999000 ∧ isEdgeMode (a.fbkMode 7) = true ∧
      a.get (F.FBK_LOSSCFG_LOSSSH 7) ≠ 0 ∧ a.bit (F.FBK_STAT_SPDVALID 7) = true ∧ 0 < (a.port 7).spanN ∧ a.get
      (F.FBK_LOSSCFG_LOSSSPD 7) * 65536 ≤ (a.port 7).spdEv.natAbs ∧ 2 ^ a.get (F.FBK_LOSSCFG_LOSSSH 7) * (a.port
      7).delta < (a.now - 999000) * (a.port 7).spanN ∧ a.clkOn = true)) = true ∧
    meets ((up.put (F.FBK_CFG_MODE 7) 1).put (F.FBK_CFG_TEAM 7) 23 |>.put (F.FBK_FRZCFG_FRZT 7) 1 |>.put
      (F.FBK_MOTWORD_EN 7) 1 |>.put (F.CE_OBS_VALID 23) 1 |>.put (F.FBK_FRZCFG_FRZSPD 7) 1 |>.put (F.FBK_MOTWORD_SWORD
      7) 8191 |>.memSet (K.state 8191) 0x80000000 |>.modPort 7 (fun x => { x with mot := 2147483648, motFrom := some 999744 }) |>.put
      (F.FBK_STAT_LOST 7) 0 |>.put (F.FBK_STAT_POSVALID 7) 1) (fun
      a => decide (a.fbkTeam 7 = some 23 ∧ a.fbkMode 7 ≠ fmOFF ∧ a.get (F.FBK_FRZCFG_FRZT 7) ≠ 0 ∧ a.bit
      (F.FBK_MOTWORD_EN 7) = true ∧ (a.port 7).changeAt + a.get (F.FBK_FRZCFG_FRZT 7) * 256 ≤ a.now ∧ a.bit
      (F.CE_OBS_VALID 23) = true ∧ a.get (F.FBK_FRZCFG_FRZSPD 7) * 65536 ≤ a.motWord 7 ∧
      (a.port 7).motFrom = some 999744 ∧ 999744 + a.get (F.FBK_FRZCFG_FRZT 7) * 256 ≤ a.now ∧ a.clkOn = true)) = true := by
  decide +kernel

/-- States that meet the hypotheses of LadderEnds, clause by clause. -/
theorem witness_LadderEnds :
    meets (((carr 0 1000).put (F.FBK_CFG_TEAM 7) 3).put (F.FBK_CFG_LADEN 7) 1 |>.put (F.CE_OBS_MODE 3) 2 |>.put
      (F.FBK_STAT_LADDER 7) 2 |>.put (F.FBK_LADCFG_RAMPT 7) 1 |>.modPort 7 (fun x => { x with rampAt := 980000 }))
      (fun a => decide (a.ladderOn 7 = some 3 ∧ a.get (F.FBK_STAT_LADDER 7) = 2 ∧ a.rampTicks 7 ≤ a.now - (a.port
      7).rampAt ∧ a.clkOn = true)) = true := by
  decide +kernel

/-- States that meet the hypotheses of SsiFrames, clause by clause. -/
theorem witness_SsiFrames :
    meets ((up.put (F.FBK_CFG_MODE 7) 4).put (F.FBK_SSIREQ_SRC 7) 2 |>.put (F.FBK_SSIPER_PER 7) 5000 |>.put
      F.YOK_STAT_ROLE 4 |>.modPort 7 (fun x => { x with ssiNext := some 1000000, ssiEnd := 934464 })) (fun a => decide
      (a.fbkMode 7 = fmSSI ∧ (a.port 7).ssiT0 = none ∧ (a.port 7).ssiEnd + 65536 ≤ a.now ∧ a.get (F.FBK_SSIREQ_SRC 7)
      = 2 ∧ a.get (F.FBK_SSIPER_PER 7) ≠ 0 ∧ (a.port 7).ssiNext = some a.now ∧ a.roleActive = true ∧ a.clkOn = true))
      = true ∧
    meets ((up.put (F.FBK_CFG_MODE 7) 4).put (F.FBK_SSIREQ_SRC 7) 2 |>.put (F.FBK_SSIPER_PER 7) 5000 |>.put
      F.YOK_STAT_ROLE 4 |>.modPort 7 (fun x => { x with ssiNext := some 1000000, ssiEnd := 934464 })) (fun a => decide
      (a.clkOn = true ∧ a.fbkMode 7 = fmSSI ∧ (a.port 7).ssiT0 = none ∧ (a.port 7).ssiEnd + 65536 ≤ a.now ∧ a.get
      (F.FBK_SSIREQ_SRC 7) = 2 ∧ a.get (F.FBK_SSIPER_PER 7) ≠ 0 ∧ (a.port 7).ssiNext = some a.now ∧ a.roleActive =
      true)) = true ∧
    meets ((up.put (F.FBK_CFG_MODE 7) 4).put (F.FBK_SSIREQ_SRC 7) 3 |>.put (F.FBK_SSIPER_PER 7) 5000 |>.put
      F.YOK_STAT_ROLE 4 |>.modPort 7 (fun x => { x with ssiNext := some 1000000, ssiEnd := 934464 })) (fun a => decide
      (a.fbkMode 7 = fmSSI ∧ (a.port 7).ssiT0 = none ∧ (a.port 7).ssiEnd + 65536 ≤ a.now ∧ (a.takes .svc (A.FBK_SSIREQ
      7) = true ∨ a.takes .supB (A.FBK_SSIREQ 7) = true) ∧ a.get (F.FBK_SSIREQ_SRC 7) = 3 ∧ bitsGet 0xC0000000 30 2 =
      3 ∧ a.clkOn = true ∧ a.get (F.FBK_SSIPER_PER 7) ≠ 0 ∧ (a.port 7).ssiNext = some a.now ∧ a.roleActive = true)) =
      true ∧
    meets ((up.put (F.FBK_CFG_MODE 7) 4).put (F.FBK_SSIREQ_SRC 7) 3 |>.put (F.FBK_SSIPER_PER 7) 5000 |>.put
      F.YOK_STAT_ROLE 5 |>.modPort 7 (fun x => { x with ssiNext := some 1000000, ssiEnd := 934464 }) |>.put
      (F.FBK_SSIREQ_YOKSHARE 7) 1) (fun a => decide (a.bit (F.FBK_SSIREQ_YOKSHARE 7) = true ∧ (a.port 7).ssiDrive = false ∧
      a.clkOn = true ∧ a.fbkMode 7 = fmSSI ∧ (a.port 7).ssiT0 = none ∧ (a.port 7).ssiEnd + 65536 ≤ a.now ∧ a.get
      (F.FBK_SSIPER_PER 7) ≠ 0 ∧ (a.port 7).ssiNext = some a.now)) = true ∧
    meets (((up.put (F.FBK_CFG_MODE 7) 4).put (F.FBK_SSIREQ_SRC 7) 2 |>.put (F.FBK_SSIPER_PER 7) 5000 |>.put
      F.YOK_STAT_ROLE 4 |>.modPort 7 (fun x => { x with ssiNext := some 1000000, ssiEnd := 934464 })).put
      (F.FBK_SSIFMT_POSW 7) 12 |>.put (F.FBK_SSIFMT_ERRW 7) 1 |>.put (F.FBK_SSIFMT_CRCW 7) 0 |>.put
      (F.FBK_SSIFMT_ERRPOL 7) 0 |>.put (F.FBK_SSITIM_HALF 7) 40 |>.put (F.FBK_SSITIM_SMPDLY 7) 2 |>.wr (A.FBK_POS0 7)
      100 |>.modPort 7 (fun x => { x with ssiT0 := some 998957, ssiPrev := none, crcBad := 2 })) (fun a => decide
      ((a.port 7).ssiT0 = some 998957 ∧ (a.port 7).ssiPartner = false ∧ 998957 + 2 * a.ssiBits 7 * a.get
      (F.FBK_SSITIM_HALF 7) + a.get (F.FBK_SSITIM_SMPDLY 7) + 1 ≤ a.now ∧ a.bit (F.FBK_SSIFMT_GRAY 7) = false ∧
      a.clkOn = true ∧ a.fbkMode 7 = fmSSI ∧ (a.port 7).ssiEnd + 65536 ≤ a.now ∧ a.get (F.FBK_SSIREQ_SRC 7) = 2 ∧
      a.get (F.FBK_SSIPER_PER 7) ≠ 0 ∧ (a.port 7).ssiNext = some a.now ∧ a.roleActive = true)) = true := by
  decide +kernel

/-- States that meet the hypotheses of PositionCompares, clause by clause. -/
theorem witness_PositionCompares :
    meets (((up.put (F.FBK_CFG_MODE 7) 1).put (F.FBK_STAT_ZERO 7) 0).put (F.FBK_STAT_SPDVALID 7) 1 |>.put
      (F.FBK_STAT_DIR 7) 0 |>.wr (A.FBK_POS0 7) 100 |>.put (F.FBK_CMPCFG_EN 7 3) 0 |>.put (F.FBK_CMPCFG_POLICY 7 3) 1
      |>.put (F.FBK_CMPCFG_RELOAD 7 3) 1 |>.wr (A.FBK_CMPINC 7 3) 40) (fun a => decide (a.takes .supA (A.FBK_CMPTGT 7
      3) = true ∧ (a.wr (A.FBK_CMPTGT 7 3) 50).unitBehind 7 3 = true ∧ a.clkOn = true)) = true ∧
    meets ((((up.put (F.FBK_CFG_MODE 7) 1).put (F.FBK_STAT_ZERO 7) 0).put (F.FBK_STAT_SPDVALID 7) 1 |>.put
      (F.FBK_STAT_DIR 7) 0 |>.wr (A.FBK_POS0 7) 100 |>.put (F.FBK_CMPCFG_EN 7 3) 0 |>.put (F.FBK_CMPCFG_POLICY 7 3) 0
      |>.put (F.FBK_CMPCFG_RELOAD 7 3) 0 |>.wr (A.FBK_CMPINC 7 3) 40).wr (A.FBK_CMPTGT 7 3) 50) (fun a => decide
      (a.takes .supA (A.FBK_CMPCFG 7 3) = true ∧ a.bit (F.FBK_CMPCFG_EN 7 3) = false ∧ a.unitBehind 7 3 = true ∧
      a.clkOn = true ∧ a.takes .supA (A.FBK_CMPTGT 7 3) = true ∧ (a.wr (A.FBK_CMPTGT 7 3) 50).unitBehind 7 3 = true))
      = true ∧
    meets (up.modPort 7 (fun x => { x with pulses := Vector.replicate 4 (some (1, 5, 999999)) })) (fun a => decide
      ((a.port 7).pulses[(3 : Fin 4)] = some (1, 5, 999999) ∧ a.clkOn = true ∧ a.takes .supA (A.FBK_CMPTGT 7 3) =
      true)) = true := by
  decide +kernel

/-- States that meet the hypotheses of EmulationSteps, clause by clause. -/
theorem witness_EmulationSteps :
    meets ((up.put (F.FBK_CFG_MODE 7) 1).put (F.FBO_CFG_MODE 1) 2 |>.put (F.FBO_CFG_SRC 1) 7 |>.put (F.FBO_CFG_SPACE
      1) 5 |>.put (F.FBO_RATIO_N 1) 3 |>.put (F.FBO_RATIO_M 1) 4 |>.wr (A.FBK_POS0 7) 100 |>.wr (A.FBK_POS1 7) 0
      |>.modOut 1 (fun x => { x with cur := .div, out := 77, off := 2, lastStep := 999995 })) (fun a => decide
      ((a.fbo[1]).cur = .div ∧ a.outWant 1 = .div ∧ a.bit (F.FBO_STAT_CATCH 1) = false ∧ a.clkOn = true)) = true := by
  decide +kernel

/-- States that meet the hypotheses of Comparators, clause by clause. -/
theorem witness_Comparators :
    meets ((carr 0 1000).put (F.CMP_CFG_MODE 95) 1 |>.put (F.CMP_MAP_PATH_H 95) 1 |>.put (F.CMP_CFG_FUNC 95) 0 |>.put
      (F.CMP_STAT_INBAND_H 95) 0 |>.put (F.CMP_STAT_INBAND_L 95) 0 |>.put (F.CMP_CFG_HYS 95) 1 |>.put (F.CMP_THRHI_THR 95) 600 |>.put
      (F.CMP_THRLO_THR 95) 400 |>.modCmp 95 (fun x =>
      { x with scope := [5], h := { x.h with raw := false }, l := { x.l with raw := false } })) (fun a => decide (a.clkOn = true ∧ a.cmpMode 95 = 1 ∧ a.cmpHeld 95 .h = false ∧ 25 * a.get (F.CMP_THRHI_THR 95) < 15001 ∧
      (a.srcFilt (.cmp 95) .h).raw ≠ true ∧ a.isFast 95 .h = true ∧ a.isBlankable 95 .h = false ∧ 5 ∈ a.scope (.cmp 95))) = true ∧
    meets ((carr 0 1000).put (F.CMP_CFG_MODE 95) 1 |>.put (F.CMP_MAP_PATH_H 95) 1 |>.put (F.CMP_CFG_FUNC 95) 0 |>.put
      (F.CMP_STAT_INBAND_H 95) 0 |>.put (F.CMP_STAT_INBAND_L 95) 0 |>.put (F.CMP_CFG_HYS 95) 1 |>.put (F.CMP_THRHI_THR 95) 600 |>.put
      (F.CMP_THRLO_THR 95) 400 |>.modCmp 95 (fun x =>
      { x with scope := [5], h := { x.h with raw := true }, l := { x.l with raw := false } })) (fun a => decide (a.clkOn = true ∧ a.cmpMode 95 = 1 ∧ a.cmpHeld 95 .h = false ∧
      14899 + 25 * hysCodes (a.get (F.CMP_CFG_HYS 95)) < 25 * a.get (F.CMP_THRHI_THR 95))) = true ∧
    meets ((carr 0 1000).put (F.CMP_CFG_MODE 95) 1 |>.put (F.CMP_MAP_PATH_H 95) 1 |>.put (F.CMP_CFG_FUNC 95) 0 |>.put
      (F.CMP_STAT_INBAND_H 95) 0 |>.put (F.CMP_STAT_INBAND_L 95) 0 |>.put (F.CMP_CFG_HYS 95) 1 |>.put (F.CMP_THRHI_THR 95) 600 |>.put
      (F.CMP_THRLO_THR 95) 400 |>.modCmp 95 (fun x =>
      { x with scope := [5], h := { x.h with raw := true }, l := { x.l with raw := false } })) (fun a => decide (a.clkOn = true ∧ a.cmpMode 95 = 1 ∧ a.cmpHeld 95 .h = false ∧
      15000 ≤ 25 * a.get (F.CMP_THRHI_THR 95) ∧ 25 * a.get (F.CMP_THRHI_THR 95) ≤ 14900 + 25 * hysCodes (a.get (F.CMP_CFG_HYS 95)))) = true ∧
    meets ((carr 0 1000).put (F.CMP_CFG_MODE 95) 1 |>.put (F.CMP_MAP_PATH_L 95) 1 |>.put (F.CMP_CFG_FUNC 95) 0 |>.put
      (F.CMP_STAT_INBAND_H 95) 0 |>.put (F.CMP_STAT_INBAND_L 95) 0 |>.put (F.CMP_CFG_HYS 95) 1 |>.put (F.CMP_THRHI_THR 95) 600 |>.put
      (F.CMP_THRLO_THR 95) 400 |>.modCmp 95 (fun x =>
      { x with scope := [5], h := { x.h with raw := false }, l := { x.l with raw := false } })) (fun a => decide (a.clkOn = true ∧ a.cmpMode 95 = 1 ∧ a.cmpHeld 95 .l = false ∧ a.bit (F.CMP_CFG_FUNC 95) = false ∧
      9999 < 25 * a.get (F.CMP_THRLO_THR 95) ∧ (a.srcFilt (.cmp 95) .l).raw ≠ true ∧ a.isFast 95 .l = true ∧ a.isBlankable 95 .l = false)) = true ∧
    meets ((carr 0 1000).put (F.CMP_CFG_MODE 95) 1 |>.put (F.CMP_MAP_PATH_L 95) 1 |>.put (F.CMP_CFG_FUNC 95) 0 |>.put
      (F.CMP_STAT_INBAND_H 95) 0 |>.put (F.CMP_STAT_INBAND_L 95) 0 |>.put (F.CMP_CFG_HYS 95) 1 |>.put (F.CMP_THRHI_THR 95) 600 |>.put
      (F.CMP_THRLO_THR 95) 400 |>.modCmp 95 (fun x =>
      { x with scope := [5], h := { x.h with raw := false }, l := { x.l with raw := true } })) (fun a => decide (a.clkOn = true ∧ a.cmpMode 95 = 1 ∧ a.cmpHeld 95 .l = false ∧ a.bit (F.CMP_CFG_FUNC 95) = false ∧
      25 * a.get (F.CMP_THRLO_THR 95) + 25 * hysCodes (a.get (F.CMP_CFG_HYS 95)) < 10101)) = true ∧
    meets ((carr 0 1000).put (F.CMP_CFG_MODE 95) 1 |>.put (F.CMP_MAP_PATH_L 95) 1 |>.put (F.CMP_CFG_FUNC 95) 1 |>.put
      (F.CMP_STAT_INBAND_H 95) 0 |>.put (F.CMP_STAT_INBAND_L 95) 0 |>.put (F.CMP_CFG_HYS 95) 1 |>.put (F.CMP_THRHI_THR 95) 600 |>.put
      (F.CMP_THRLO_THR 95) 400 |>.modCmp 95 (fun x =>
      { x with scope := [5], h := { x.h with raw := false }, l := { x.l with raw := false } })) (fun a => decide (a.clkOn = true ∧ a.cmpMode 95 = 1 ∧ a.cmpHeld 95 .l = false ∧ a.bit (F.CMP_CFG_FUNC 95) = true ∧
      25 * a.get (F.CMP_THRLO_THR 95) < 10001)) = true ∧
    meets ((carr 0 1000).put (F.CMP_CFG_MODE 95) 1 |>.put (F.CMP_MAP_PATH_L 95) 1 |>.put (F.CMP_CFG_FUNC 95) 1 |>.put
      (F.CMP_STAT_INBAND_H 95) 0 |>.put (F.CMP_STAT_INBAND_L 95) 0 |>.put (F.CMP_CFG_HYS 95) 1 |>.put (F.CMP_THRHI_THR 95) 600 |>.put
      (F.CMP_THRLO_THR 95) 400 |>.modCmp 95 (fun x =>
      { x with scope := [5], h := { x.h with raw := false }, l := { x.l with raw := true } })) (fun a => decide (a.clkOn = true ∧ a.cmpMode 95 = 1 ∧ a.cmpHeld 95 .l = false ∧ a.bit (F.CMP_CFG_FUNC 95) = true ∧
      9899 + 25 * hysCodes (a.get (F.CMP_CFG_HYS 95)) < 25 * a.get (F.CMP_THRLO_THR 95))) = true ∧
    meets ((carr 0 1000).put (F.CMP_CFG_MODE 95) 1 |>.put (F.CMP_MAP_PATH_H 95) 1 |>.put (F.CMP_CFG_FUNC 95) 0 |>.put
      (F.CMP_STAT_INBAND_H 95) 0 |>.put (F.CMP_STAT_INBAND_L 95) 0 |>.put (F.CMP_CFG_HYS 95) 1 |>.put (F.CMP_THRHI_THR 95) 600 |>.put
      (F.CMP_THRLO_THR 95) 400 |>.modCmp 95 (fun x =>
      { x with scope := [5], h := { x.h with raw := false }, l := { x.l with raw := false } }) |>.put (F.CMP_MAP_PATH_H 95) 2) (fun a => decide (a.clkOn = true ∧ a.cmpMode 95 = 1 ∧ a.isFast 95 .h = false ∧ a.isFast 95 .l = false)) = true ∧
    meets ({ (((carr 0 1000).put (F.CMP_CFG_MODE 95) 2 |>.put (F.CMP_MAP_PATH_H 95) 1 |>.put (F.CMP_CFG_FUNC 95) 0 |>.put
      (F.CMP_STAT_INBAND_H 95) 0 |>.put (F.CMP_STAT_INBAND_L 95) 0 |>.put (F.CMP_CFG_HYS 95) 1 |>.put (F.CMP_THRHI_THR 95) 600 |>.put
      (F.CMP_THRLO_THR 95) 400 |>.modCmp 95 (fun x =>
      { x with scope := [5], h := { x.h with raw := false }, l := { x.l with raw := false } })).put (F.CMP_CFG_SPER 95) 0) with tim := { up.tim with pllAt := 1000000 - 125 - 32 * 95 - 3200 } }) (fun a => decide (a.clkOn = true ∧ a.cmpSampleDue 95 = true ∧ 25 * a.get (F.CMP_THRHI_THR 95) < 25600)) = true := by
  decide +kernel

/-- States that meet the hypotheses of Trips, clause by clause. -/
theorem witness_Trips :
    meets (((carr 0 1000).put (F.CMP_CFG_MODE 95) 1 |>.put (F.CMP_MAP_PATH_H 95) 1 |>.put (F.CMP_CFG_FUNC 95) 0 |>.put
      (F.CMP_STAT_INBAND_H 95) 0 |>.put (F.CMP_STAT_INBAND_L 95) 0 |>.modCmp 95 (fun x =>
      { x with scope := [5], h := { x.h with raw := true }, l := { x.l with raw := false } })).modLeg 5 (fun l =>
      { l with fast := [{ k := 95, cond := .h, stamp := 999998 }], latched := true }) |>.put (F.LEG_TRIPSTAT_LATCHED
      5) 0) (fun a => decide ((a.leg 5).fast = [{ k := 95, cond := .h, stamp := 999998 }] ∧ (a.leg 5).latched = true ∧
      a.bit (F.LEG_TRIPSTAT_LATCHED 5) = false ∧ (a.leg 5).team = some 3 ∧ (a.leg 5).seq = none ∧ a.tstate 3 = stRUN ∧
      a.clkOn = true ∧ (a.same.of a.now).hold = false)) = true ∧
    meets ((carr 0 1000).modTin 7 (fun x =>
      { x with scope := [5, 6], f := { x.f with raw := true, since := 5, prev := [] } })) (fun a => decide (a.filtDue
      (.tin 7) .h = true ∧ a.scope (.tin 7) = [5, 6] ∧ a.clkOn = true ∧ (a.same.of a.now).hold = false ∧ a.bit (F.LEG_TRIPSTAT_LATCHED 5) = false ∧
      (a.leg 5).team = some 3 ∧ (a.leg 5).seq = none ∧ a.tstate 3 = stRUN)) = true ∧
    meets ((carr 0 1000).modSdmTrip 143 (fun x =>
      { x with scope := [5, 6], h := { x.h with raw := true, since := 5 } })) (fun a => decide (a.filtDue (.sdm 143)
      .h = true ∧ a.scope (.sdm 143) = [5, 6] ∧ a.clkOn = true ∧ (a.same.of a.now).hold = false ∧ a.bit (F.LEG_TRIPSTAT_LATCHED 5) = false ∧ (a.leg
      5).team = some 3 ∧ (a.leg 5).seq = none ∧ a.tstate 3 = stRUN)) = true ∧
    meets ((carr 0 1000).put (F.CMP_MAP_PATH_H 95) 2 |>.put (F.CMP_CFG_MODE 95) 1 |>.modCmp 95 (fun x =>
      { x with scope := [5, 6], h := { x.h with raw := true, since := 5 } })) (fun a => decide (a.filtDue (.cmp 95) .h
      = true ∧ a.scope (.cmp 95) = [5, 6] ∧ a.clkOn = true ∧ (a.same.of a.now).hold = false ∧ a.bit (F.LEG_TRIPSTAT_LATCHED 5) = false ∧ (a.leg 5).team
      = some 3 ∧ (a.leg 5).seq = none ∧ a.tstate 3 = stRUN)) = true := by
  decide +kernel

/-- States that meet the hypotheses of TripInputsAndSequences, clause by clause. -/
theorem witness_TripInputsAndSequences :
    meets (up.put (F.PRT_TINCFG_POL 7) 0 |>.put F.IDG_INBAND_TRIP_IN 0) (fun a => decide (a.clkOn = true)) = true ∧
    meets (((carr 0 1000).put (F.CMP_CFG_MODE 95) 1 |>.put (F.CMP_MAP_PATH_L 95) 1 |>.put (F.CMP_CFG_FUNC 95) 1 |>.put
      (F.CMP_STAT_INBAND_H 95) 0 |>.put (F.CMP_STAT_INBAND_L 95) 0 |>.modCmp 95 (fun x =>
      { x with scope := [5], h := { x.h with raw := false }, l := { x.l with raw := true } })).modLeg 5 (fun l =>
      { l with blankEnd := 256000007 })) (fun a => decide ((a.leg 5).blankEnd = a.nowF + 7 ∧ a.isBlankable 95 .l =
      true ∧ 5 ∈ a.scope (.cmp 95) ∧ (a.srcFilt (.cmp 95) .l).raw = true ∧ a.clkOn = true)) = true ∧
    meets ((carr 0 1000).modLeg 5 (fun l =>
      { l with gh := true, gl := true, gm := true, seq := some { sw := .high, endAt := 256000007 } }) |>.put
      (F.LEG_TRIPSTAT_SEQ 5) 1) (fun a => decide ((a.leg 5).seq = some { sw := .high, endAt := a.nowF + 7 } ∧ a.clkOn
      = true)) = true := by
  decide +kernel

/-- States that meet the hypotheses of TripClears, clause by clause. -/
theorem witness_TripClears :
    meets ((carr 0 1000).modLeg 5 (fun l => { l with latched := true }) |>.put (F.LEG_TRIPSTAT_LATCHED 5) 1) (fun a =>
      decide (a.bit (F.LEG_TRIPSTAT_LATCHED 5) = true ∧ a.takes .supA (A.LEG_TRIPCLR 5) = true ∧ a.clearable 5 = true
      ∧ (a.leg 5).latched = true ∧ a.clkOn = true)) = true ∧
    meets ((carr 0 1000).modLeg 5 (fun l =>
      { l with latched := true, seq := some { sw := .high, endAt := 256009999 } }) |>.put (F.LEG_TRIPSTAT_LATCHED 5)
      1) (fun a => decide (a.clearable 5 = false ∧ (a.leg 5).latched = true ∧ a.clkOn = true ∧ a.bit (F.LEG_TRIPSTAT_LATCHED 5) = true ∧ a.takes
      .supA (A.LEG_TRIPCLR 5) = true)) = true ∧
    meets ((carr 0 1000).modLeg 5 (fun l =>
      { l with latched := true, seq := some { sw := .high, endAt := 256009999 } }) |>.put (F.LEG_TRIPSTAT_LATCHED 5) 1
      |>.put (F.LEG_PROTCFG_AUTOREARM 5) 1) (fun a => decide (a.clearable 5 = false ∧ a.bit (F.LEG_PROTCFG_AUTOREARM
      5) = true ∧ (a.leg 5).latched = true ∧ a.clkOn = true ∧ a.bit (F.LEG_TRIPSTAT_LATCHED 5) = true ∧ a.takes .supA (A.LEG_TRIPCLR 5) = true))
      = true ∧
    meets ((carr 0 1000).modLeg 5 (fun l => { l with latched := true }) |>.put (F.LEG_TRIPSTAT_LATCHED 5) 1 |>.put
      (F.LEG_TRIPSTAT_CLR_PEND 5) 1) (fun a => decide (a.bit (F.LEG_TRIPSTAT_CLR_PEND 5) = true ∧ a.clearable 5 = true
      ∧ (a.leg 5).latched = true ∧ a.clkOn = true ∧ a.bit (F.LEG_TRIPSTAT_LATCHED 5) = true ∧ a.takes .supA (A.LEG_TRIPCLR 5) = true)) = true := by
  decide +kernel

/-- States that meet the hypotheses of SafeInput, clause by clause. -/
theorem witness_SafeInput :
    meets (((carr 0 1000).put (F.TEAM_STAT_STATE 4) 2).put (F.TEAM_STAT_STATE 6) 1 |>.put (F.TEAM_STAT_STATE 7) 4 |>
      (fun x : State => { x with safe := { filtLow := false, edge := 5, outAt := 9 } }) |>.put F.IDG_INBAND_SAFE_N 0) (fun a => decide (a.clkOn = true ∧
      a.safe.edge ≤ 999981 ∧ a.safe.filtLow = false ∧ 999981 + 19 = a.now)) = true ∧
    meets (((carr 0 1000).put (F.TEAM_STAT_STATE 4) 2).put (F.TEAM_STAT_STATE 6) 1 |>.put (F.TEAM_STAT_STATE 7) 4 |>
      (fun x : State => { x with safe := { filtLow := false, edge := 5, outAt := 9 } }) |>.put F.IDG_INBAND_SAFE_N 0) (fun a => decide (a.clkOn = true ∧
      a.safe.edge ≤ 999982 ∧ 999982 + 19 ≠ a.now)) = true ∧
    meets (((carr 0 1000).put (F.TEAM_STAT_STATE 4) 2).put (F.TEAM_STAT_STATE 6) 1 |>.put (F.TEAM_STAT_STATE 7) 4 |>
      (fun x : State => { x with safe := { filtLow := true, edge := 5, outAt := 999984 } }) |>.put F.IDG_INBAND_SAFE_N 0 |>.put F.PRT_STAT_SAFE 1)
      (fun a => decide (a.clkOn = true ∧ a.safe.edge ≤ 999900 ∧ a.bit F.IDG_INBAND_SAFE_N = false ∧ a.safe.filtLow = true ∧
      max (999900 + 3) a.safe.outAt + 16 = a.now)) = true ∧
    meets (((carr 0 1000).put (F.TEAM_STAT_STATE 4) 2).put (F.TEAM_STAT_STATE 6) 1 |>.put (F.TEAM_STAT_STATE 7) 4 |>
      (fun x : State => { x with safe := { filtLow := true, edge := 5, outAt := 9 } }) |>.put F.IDG_INBAND_SAFE_N 0 |>.put F.PRT_STAT_SAFE 1)
      (fun a => decide (a.clkOn = true ∧ a.safe.edge ≤ 999981 ∧ a.bit F.IDG_INBAND_SAFE_N = false ∧ a.safe.filtLow = true ∧
      max (999981 + 3) a.safe.outAt + 16 = a.now)) = true := by
  decide +kernel

/-- States that meet the hypotheses of YokeFollows, clause by clause. -/
theorem witness_YokeFollows :
    meets ((yk.put F.YOK_STAT_ROLE 4 |>.put F.YOK_STAT_LINK 1 |>.put F.YOK_STAT_LANE0 1 |>.modLoad (fun l =>
      { l with partner := 7, stateId := List.replicate 16 1, pdkId := List.replicate 32 2, cfgId := List.replicate 16 3 })
      |>.put F.NET_ADDR_ADDR 5 |>.modYok (fun y => { y with hbAt := 999990 })).modYok (fun y =>
      { y with fault := true }) |>.put F.YOK_STAT_ACTOUT 1) (fun a => decide (a.alone = false ∧ a.yok.fault = true)) =
      true ∧
    meets ((yk.put F.YOK_STAT_ROLE 3 |>.put F.YOK_STAT_LINK 1 |>.put F.YOK_STAT_LANE0 1 |>.modLoad (fun l =>
      { l with partner := 7, stateId := List.replicate 16 1, pdkId := List.replicate 32 2, cfgId := List.replicate 16 3 })
      |>.put F.NET_ADDR_ADDR 5 |>.modYok (fun y => { y with hbAt := 999990 })).put (F.TEAM_STAT_STATE 3) 2 |>.put
      (F.FBK_CFG_TEAM 2) 3 |>.put (F.FBK_STAT_LOST 2) 1 |>.put (F.YOK_TEAMS_TEAMS) 0xFFFFFF) (fun a => decide (a.alone
      = false ∧ a.role = roSHADOW ∧ a.yokView = false)) = true ∧
    meets (up) (fun a => decide (a.alone = true)) = true := by
  decide +kernel

/-- States that meet the hypotheses of YokeLink, clause by clause. -/
theorem witness_YokeLink :
    meets (yk.put F.YOK_STAT_ROLE 1 |>.put F.YOK_STAT_LINK 1 |>.put F.YOK_STAT_LANE0 1 |>.modLoad (fun l =>
      { l with partner := 7, stateId := List.replicate 16 1, pdkId := List.replicate 32 2, cfgId := List.replicate 16 3 })
      |>.put F.NET_ADDR_ADDR 5 |>.modYok (fun y => { y with hbAt := 999990 })) (fun a => decide (a.load.yoked = true ∧
      a.load.locked = true ∧ a.bit F.YOK_STAT_LINK = true ∧ (a.yok.idTx = none ∨ a.role = roINIT) ∧ a.tim.linksIdle = false ∧ a.clkOn = true)) =
      true ∧
    meets (yk.put F.YOK_STAT_ROLE 1 |>.put F.YOK_STAT_LINK 1 |>.put F.YOK_STAT_LANE0 1 |>.modLoad (fun l =>
      { l with partner := 7, stateId := List.replicate 16 1, pdkId := List.replicate 32 2, cfgId := List.replicate 16 3 })
      |>.put F.NET_ADDR_ADDR 5 |>.modYok (fun y => { y with hbAt := 999990 }) |>.modYok (fun y =>
      { y with seq := 4095 })) (fun a => decide (a.yok.hbTx = none ∧ a.tim.linksIdle = false ∧ a.clkOn = true ∧ a.load.yoked = true ∧
      a.load.locked = true ∧ a.bit F.YOK_STAT_LINK = true ∧ (a.yok.idTx = none ∨ a.role = roINIT))) = true ∧
    meets ((yk.put F.YOK_STAT_ROLE 3 |>.put F.YOK_STAT_LINK 1 |>.put F.YOK_STAT_LANE0 1 |>.modLoad (fun l =>
      { l with partner := 7, stateId := List.replicate 16 1, pdkId := List.replicate 32 2, cfgId := List.replicate 16 3 })
      |>.put F.NET_ADDR_ADDR 5 |>.modYok (fun y => { y with hbAt := 999990 })).put F.YOK_STAT_LANE0 0 |>.put
      F.YOK_STAT_LINK 0) (fun a => decide (a.load.yoked = true ∧ a.tim.linksIdle = false ∧ a.tim.linksIdle = false ∧ a.clkOn = true ∧
      a.load.locked = true ∧ (a.yok.idTx = none ∨ a.role = roINIT))) = true ∧
    meets ((yk.put F.YOK_STAT_ROLE 3 |>.put F.YOK_STAT_LINK 1 |>.put F.YOK_STAT_LANE0 1 |>.modLoad (fun l =>
      { l with partner := 7, stateId := List.replicate 16 1, pdkId := List.replicate 32 2, cfgId := List.replicate 16 3 })
      |>.put F.NET_ADDR_ADDR 5 |>.modYok (fun y => { y with hbAt := 999990 })).put F.YOK_STAT_LANE1 1) (fun a =>
      decide (a.bit (laneFld 1) = true ∧ a.bit (laneFld 0) = true ∧ a.tim.linksIdle = false ∧ a.clkOn = true ∧ a.load.yoked = true ∧
      a.load.locked = true ∧ a.bit F.YOK_STAT_LINK = true ∧ (a.yok.idTx = none ∨ a.role = roINIT))) = true ∧
    meets (yk.put F.YOK_STAT_ROLE 2 |>.put F.YOK_STAT_LINK 1 |>.put F.YOK_STAT_LANE0 1 |>.modLoad (fun l =>
      { l with partner := 7, stateId := List.replicate 16 1, pdkId := List.replicate 32 2, cfgId := List.replicate 16 3 })
      |>.put F.NET_ADDR_ADDR 5 |>.modYok (fun y => { y with hbAt := 999990 })) (fun a => decide (a.bit (laneFld 0) =
      true ∧ a.bit (laneFld 1) = false ∧ a.due = [] ∧ a.tim.linksIdle = false ∧ a.clkOn = true ∧ a.load.yoked = true ∧ a.load.locked = true ∧
      a.bit F.YOK_STAT_LINK = true ∧ (a.yok.idTx = none ∨ a.role = roINIT))) = true ∧
    meets (yk.put F.YOK_STAT_ROLE 2 |>.put F.YOK_STAT_LINK 1 |>.put F.YOK_STAT_LANE0 1 |>.modLoad (fun l =>
      { l with partner := 7, stateId := List.replicate 16 1, pdkId := List.replicate 32 2, cfgId := List.replicate 16 3 })
      |>.put F.NET_ADDR_ADDR 5 |>.modYok (fun y => { y with hbAt := 5 })) (fun a => decide (a.bit F.YOK_STAT_LINK =
      true ∧ a.yok.hbAt + a.get F.YOK_CFG_HBTMO * a.get F.YOK_CFG_HBPER * 64 ≤ a.now ∧ a.tim.linksIdle = false ∧ a.clkOn = true ∧ a.load.yoked =
      true ∧ a.load.locked = true ∧ (a.yok.idTx = none ∨ a.role = roINIT))) = true := by
  decide +kernel

/-- States that meet the hypotheses of YokeFrames, clause by clause. -/
theorem witness_YokeFrames :
    meets (yk.put F.YOK_STAT_ROLE 3 |>.put F.YOK_STAT_LINK 1 |>.put F.YOK_STAT_LANE0 1 |>.modLoad (fun l =>
      { l with partner := 7, stateId := List.replicate 16 1, pdkId := List.replicate 32 2, cfgId := List.replicate 16 3 })
      |>.put F.NET_ADDR_ADDR 5 |>.modYok (fun y => { y with hbAt := 999990 })) (fun a => decide (a.bit
      F.YOK_STAT_LANE0 = true ∧ a.tim.linksIdle = false ∧ a.clkOn = true)) = true ∧
    meets (yk.put F.YOK_STAT_ROLE 3 |>.put F.YOK_STAT_LINK 1 |>.put F.YOK_STAT_LANE0 1 |>.modLoad (fun l =>
      { l with partner := 7, stateId := List.replicate 16 1, pdkId := List.replicate 32 2, cfgId := List.replicate 16 3 })
      |>.put F.NET_ADDR_ADDR 5 |>.modYok (fun y => { y with hbAt := 999990 })) (fun a => decide (a.tim.linksIdle = false ∧ a.clkOn = true ∧
      a.bit F.YOK_STAT_LANE0 = true)) = true ∧
    meets (yk.put F.YOK_STAT_ROLE 3 |>.put F.YOK_STAT_LINK 1 |>.put F.YOK_STAT_LANE0 1 |>.modLoad (fun l =>
      { l with partner := 7, stateId := List.replicate 16 1, pdkId := List.replicate 32 2, cfgId := List.replicate 16 3 })
      |>.put F.NET_ADDR_ADDR 5 |>.modYok (fun y => { y with hbAt := 999990 })) (fun a => decide (a.tim.linksIdle = false ∧ a.clkOn = true ∧
      a.bit F.YOK_STAT_LANE0 = true)) = true := by
  decide +kernel

/-- States that meet the hypotheses of YokeCommits, clause by clause. -/
theorem witness_YokeCommits :
    meets ((yk.put F.YOK_STAT_ROLE 2 |>.put F.YOK_STAT_LINK 1 |>.put F.YOK_STAT_LANE0 1 |>.modLoad (fun l =>
      { l with partner := 7, stateId := List.replicate 16 1, pdkId := List.replicate 32 2, cfgId := List.replicate 16 3 })
      |>.put F.NET_ADDR_ADDR 5 |>.modYok (fun y => { y with hbAt := 999990 })).put (F.YOK_SMAP_EN 35) 1 |>.put
      (F.YOK_SMAP_BASE 35) 8190 |>.modYok (fun y =>
      { y with pend := y.pend.set 35 (some { run0 with relStamp := 77 }), failed := [35] }) |>.memSet (K.desc 35 4)
      0x80000000) (fun a => decide ((a.role = roSHADOW ∨ a.role = roSYNC) ∧ a.yokedTask 35 = true ∧ a.yokRunOf 35 77 =
      some { run0 with relStamp := 77 } ∧ a.tim.linksIdle = false ∧ a.clkOn = true)) = true ∧
    meets ((yk.put F.YOK_STAT_ROLE 2 |>.put F.YOK_STAT_LINK 1 |>.put F.YOK_STAT_LANE0 1 |>.modLoad (fun l =>
      { l with partner := 7, stateId := List.replicate 16 1, pdkId := List.replicate 32 2, cfgId := List.replicate 16 3 })
      |>.put F.NET_ADDR_ADDR 5 |>.modYok (fun y => { y with hbAt := 999990 })).put (F.YOK_SMAP_EN 35) 1 |>.put
      (F.YOK_SMAP_BASE 35) 8190 |>.modYok (fun y =>
      { y with pend := y.pend.set 35 (some { run0 with relStamp := 77 }), failed := [] }) |>.memSet (K.desc 35 4)
      0x80000000) (fun a => decide (a.tim.linksIdle = false ∧ a.clkOn = true ∧ (a.role = roSHADOW ∨ a.role = roSYNC) ∧ a.yokedTask 35 = true ∧
      a.yokRunOf 35 77 = some { run0 with relStamp := 77 })) = true := by
  decide +kernel

/-- States that meet the hypotheses of YokeSelector, clause by clause. -/
theorem witness_YokeSelector :
    meets ((yk.put F.YOK_STAT_ROLE 3 |>.put F.YOK_STAT_LINK 1 |>.put F.YOK_STAT_LANE0 1 |>.modLoad (fun l =>
      { l with partner := 7, stateId := List.replicate 16 1, pdkId := List.replicate 32 2, cfgId := List.replicate 16 3 })
      |>.put F.NET_ADDR_ADDR 5 |>.modYok (fun y => { y with hbAt := 999990 })).put F.IDG_INBAND_ACT_IN 0 |>.modYok
      (fun y => { y with actIn := true })) (fun a => decide (a.role = roSHADOW ∧ a.due = [] ∧ a.load.yoked = true ∧
      a.load.locked = true ∧ a.yok.actIn = true ∧ a.bit F.IDG_INBAND_ACT_IN = false ∧ a.clkOn = true)) = true ∧
    meets ((yk.put F.YOK_STAT_ROLE 4 |>.put F.YOK_STAT_LINK 1 |>.put F.YOK_STAT_LANE0 1 |>.modLoad (fun l =>
      { l with partner := 7, stateId := List.replicate 16 1, pdkId := List.replicate 32 2, cfgId := List.replicate 16 3 })
      |>.put F.NET_ADDR_ADDR 5 |>.modYok (fun y => { y with hbAt := 999990 })).put F.IDG_INBAND_ACT_IN 0 |>.modYok
      (fun y => { y with actIn := true })) (fun a => decide (a.role = roACTIVE ∧ a.load.yoked = true ∧
      a.load.locked = true ∧ a.yok.actIn = true ∧ a.bit F.IDG_INBAND_ACT_IN = false ∧ a.clkOn = true)) = true ∧
    meets ((yk.put F.YOK_STAT_ROLE 4 |>.put F.YOK_STAT_LINK 1 |>.put F.YOK_STAT_LANE0 1 |>.modLoad (fun l =>
      { l with partner := 7, stateId := List.replicate 16 1, pdkId := List.replicate 32 2, cfgId := List.replicate 16 3 })
      |>.put F.NET_ADDR_ADDR 5 |>.modYok (fun y => { y with hbAt := 999990 })).put F.IDG_INBAND_ACT_IN 0 |>.modYok
      (fun y => { y with actIn := false }) |>.put F.YOK_STAT_ACTOUT 1) (fun a => decide (a.bit F.YOK_STAT_ACTOUT =
      true ∧ a.clkOn = true)) = true ∧
    meets ((yk.put F.YOK_STAT_ROLE 4 |>.put F.YOK_STAT_LINK 1 |>.put F.YOK_STAT_LANE0 1 |>.modLoad (fun l =>
      { l with partner := 7, stateId := List.replicate 16 1, pdkId := List.replicate 32 2, cfgId := List.replicate 16 3 })
      |>.put F.NET_ADDR_ADDR 9 |>.modYok (fun y => { y with hbAt := 999990 })).put F.IDG_INBAND_ACT_IN 0 |>.modYok
      (fun y => { y with actIn := true, both := some 999996 }) |>.put F.YOK_STAT_ACTOUT 1) (fun a => decide
      (a.yok.both = some 999996 ∧ a.yok.actIn = true ∧ a.bit F.YOK_STAT_ACTOUT = true ∧ a.clkOn = true)) = true ∧
    meets ((yk.put F.YOK_STAT_ROLE 1 |>.put F.YOK_STAT_LINK 1 |>.put F.YOK_STAT_LANE0 1 |>.modLoad (fun l =>
      { l with partner := 7, stateId := List.replicate 16 1, pdkId := List.replicate 32 2, cfgId := List.replicate 16 3 })
      |>.put F.NET_ADDR_ADDR 9 |>.modYok (fun y => { y with hbAt := 999990 })).put F.IDG_INBAND_ACT_IN 0 |>.modYok
      (fun y => { y with actIn := false }) |>.put F.YOK_CFG_JOINTMO 1 |>.put F.YOK_WDCFG_WDT 0) (fun a => decide
      (a.role = roINIT ∧ a.yok.hb = none ∧ a.actLow = true ∧ a.monitorOk = true ∧ a.yok.lockAt + a.get
      F.YOK_CFG_JOINTMO * 312500 ≤ a.now ∧ a.clkOn = true)) = true := by
  decide +kernel

/-- States that meet the hypotheses of YokeReleases, clause by clause. -/
theorem witness_YokeReleases :
    meets ((yk.put F.YOK_STAT_ROLE 4 |>.put F.YOK_STAT_LINK 1 |>.put F.YOK_STAT_LANE0 1 |>.modLoad (fun l =>
      { l with partner := 7, stateId := List.replicate 16 1, pdkId := List.replicate 32 2, cfgId := List.replicate 16 3 })
      |>.put F.NET_ADDR_ADDR 5 |>.modYok (fun y => { y with hbAt := 999990 })).put F.IDG_INBAND_ACT_IN 0) (fun a =>
      decide (a.takes .supA A.YOK_WDKICK = true ∧ a.clkOn = true)) = true ∧
    meets ((yk.put F.YOK_STAT_ROLE 4 |>.put F.YOK_STAT_LINK 1 |>.put F.YOK_STAT_LANE0 1 |>.modLoad (fun l =>
      { l with partner := 7, stateId := List.replicate 16 1, pdkId := List.replicate 32 2, cfgId := List.replicate 16 3 })
      |>.put F.NET_ADDR_ADDR 5 |>.modYok (fun y => { y with hbAt := 999990 })).put F.IDG_INBAND_ACT_IN 0 |>.put
      F.YOK_STAT_ACTOUT 1 |>.modYok (fun y =>
      { y with hb := some { role := 4, ready := true, view := true, netlock := true, pref := false, runMask := 5, tripMask := 6 }, view0 := some 999936 }))
      (fun a => decide (a.takes .supB A.YOK_CTL = true ∧ a.bit F.YOK_STAT_LINK = true ∧ a.role = roACTIVE ∧ a.bit
      F.YOK_STAT_ACTOUT = true ∧ a.clkOn = true ∧ a.takes .supA A.YOK_WDKICK = true)) = true ∧
    meets ((yk.put F.YOK_STAT_ROLE 3 |>.put F.YOK_STAT_LINK 1 |>.put F.YOK_STAT_LANE0 1 |>.modLoad (fun l =>
      { l with partner := 7, stateId := List.replicate 16 1, pdkId := List.replicate 32 2, cfgId := List.replicate 16 3 })
      |>.put F.NET_ADDR_ADDR 5 |>.modYok (fun y => { y with hbAt := 999990 })).put F.IDG_INBAND_ACT_IN 0) (fun a =>
      decide (a.role ≠ roACTIVE ∧ a.takes .supB A.YOK_CTL = true ∧ a.clkOn = true ∧ a.takes .supA A.YOK_WDKICK =
      true)) = true ∧
    meets ((yk.put F.YOK_STAT_ROLE 4 |>.put F.YOK_STAT_LINK 1 |>.put F.YOK_STAT_LANE0 1 |>.modLoad (fun l =>
      { l with partner := 7, stateId := List.replicate 16 1, pdkId := List.replicate 32 2, cfgId := List.replicate 16 3 })
      |>.put F.NET_ADDR_ADDR 5 |>.modYok (fun y => { y with hbAt := 999990 })).put F.IDG_INBAND_ACT_IN 0 |>.put
      F.YOK_STAT_ACTOUT 1 |>.modYok (fun y =>
      { y with hb := some { role := 4, ready := true, view := true, netlock := true, pref := false, runMask := 5, tripMask := 6 }, view0 := some 999936 })
      |>.put F.YOK_WDCFG_WDT 1) (fun a => decide (a.wdExpired = true ∧ a.bit F.YOK_STAT_ACTOUT = true ∧ a.clkOn = true
      ∧ a.takes .supA A.YOK_WDKICK = true)) = true ∧
    meets ((yk.put F.YOK_STAT_ROLE 4 |>.put F.YOK_STAT_LINK 1 |>.put F.YOK_STAT_LANE0 1 |>.modLoad (fun l =>
      { l with partner := 7, stateId := List.replicate 16 1, pdkId := List.replicate 32 2, cfgId := List.replicate 16 3 })
      |>.put F.NET_ADDR_ADDR 5 |>.modYok (fun y => { y with hbAt := 999990 })).put F.IDG_INBAND_ACT_IN 0 |>.put
      F.YOK_STAT_ACTOUT 1 |>.modYok (fun y =>
      { y with hb := some { role := 4, ready := true, view := true, netlock := true, pref := false, runMask := 5, tripMask := 6 }, view0 := some 999936 })
      |>.put F.YOK_WDCFG_WDT 0) (fun a => decide (a.yok.view0 = some 999936 ∧ a.role = roACTIVE ∧ a.now < a.yok.hbAt +
      a.hbLimit ∧ a.clkOn = true ∧ a.takes .supA A.YOK_WDKICK = true)) = true := by
  decide +kernel

/-- States that meet the hypotheses of SupervisorPairs, clause by clause. -/
theorem witness_SupervisorPairs :
    meets (up |> (fun x : State => { x with sup := Vector.replicate 2 { reloaded := true } })) (fun a => decide
      (a.fwOk 1 = true ∧ a.clkOn = true)) = true ∧
    meets (up |> (fun x : State => { x with sup := Vector.replicate 2 { reloaded := true } })) (fun a => decide
      (a.takes (pairMaster 1) (A.FBK_CMPINC 7 3) = true ∧ a.clkOn = true ∧ a.fwOk 1 = true)) = true ∧
    meets (up |> (fun x : State => { x with sup := Vector.replicate 2 { reloaded := false } })) (fun a => decide
      ((a.sup[1]).reloaded = false ∧ a.clkOn = true ∧ a.fwOk 1 = true)) = true := by
  decide +kernel

/-- States that meet the hypotheses of RegisterWrites, clause by clause. -/
theorem witness_RegisterWrites :
    meets (up.put F.SER_SVCSTAT_MODE 1 |>.put F.SER_SVCSTAT_ARMED 1) (fun a => decide (a.takes .supA (A.FBK_CMPINC 7
      3) = true)) = true ∧
    meets (up.put F.SER_SVCSTAT_MODE 1 |>.put F.SER_SVCSTAT_ARMED 1 |>.modLoad (fun l =>
      { l with pdk := [0, 0, 0, 0, 1, 0] ++ List.replicate 0xCFA 0 ++ leBytes 4 (A.FBK_CMPINC 7 3) ++ [1, 0, 0, 0] }))
      (fun a => decide (a.mayReach .supA true (A.FBK_CMPINC 7 3) = true ∧ a.tagFree = true ∧ a.stalled = [] ∧
      a.load.locked = true ∧ a.lockListed (A.FBK_CMPINC 7 3) = true ∧ a.lockListed (A.FBK_CMPINC 7 3 + 4) = false)) =
      true := by
  decide +kernel

/-- States that meet the hypotheses of AccessWidths, clause by clause. -/
theorem witness_AccessWidths :
    meets (up) (fun a => decide (a.mayReach .supB true (A.FBK_CMPINC 7 3 + 0) = true)) = true ∧
    meets (up.wr (A.FBK_CMPINC 7 3) 0x89ABCDEF) (fun a => decide (Width.aligned .byte (A.FBK_CMPINC 7 3 + 0) = true ∧
      a.mayReach .supB true (A.FBK_CMPINC 7 3 + 0) = true)) = true ∧
    meets (up) (fun a => decide (a.mayReach .supB true (A.FBK_CMPINC 7 3 + 1) = true ∧ a.mayReach .supB true
      (A.FBK_CMPINC 7 3 + 0) = true)) = true ∧
    meets (up.wr (A.FBK_CMPINC 7 3) 0x89ABCDEF) (fun a => decide (Width.aligned .word (A.FBK_CMPINC 7 3 + 1) = false ∧
      a.mayReach .supB true (A.FBK_CMPINC 7 3 + 0) = true)) = true := by
  decide +kernel

/-- States that meet the hypotheses of Snapshots, clause by clause. -/
theorem witness_Snapshots :
    meets
      (({ up with tim := { up.tim with dev := 0x123456789ABCDEF012 }, snaps := Vector.replicate 4 [(A.TIM_NOW1, 7)] }).put
      F.SER_SVCSTAT_MODE 1 |>.put F.SER_SVCSTAT_ARMED 1) (fun a => decide (a.mayReach .supA false A.TIM_NOW0 = true))
      = true := by
  decide +kernel

/-- States that meet the hypotheses of TagsFree, clause by clause. -/
theorem witness_TagsFree :
    meets ({ up with tagsUse := 128 }) (fun a => decide (a.clkOn = true ∧ a.tagsUse ≤ 128 ∧ a.stalled = [])) = true ∧
    meets (up) (fun a => decide (a.stalled = [] ∧ a.clkOn = true ∧ a.tagsUse ≤ 128)) = true ∧
    meets ({ up with tagsUse := 128, stalled := [.write .supA (A.FBK_CMPINC 7 3) 9, .note] }) (fun a => decide
      (a.stalled = .write .supA (A.FBK_CMPINC 7 3) 9 :: [.note] ∧ 0 < a.tagsUse ∧ (a.load.locked && a.lockListed
      (A.FBK_CMPINC 7 3)) = false ∧ a.clkOn = true ∧ a.tagsUse ≤ 128)) = true := by
  decide +kernel

/-- States that meet the hypotheses of RateLimits, clause by clause. -/
theorem witness_RateLimits :
    meets (up.put F.TIM_CTL_SRC 3) (fun a => decide (a.takes .supA A.TIM_RATE = true ∧ a.timOwner .supA = true)) =
      true ∧
    meets (up.put F.TIM_CTL_SRC 3) (fun a => decide (a.takes .supA A.TIM_RATE = true ∧ a.timOwner .supA = true)) =
      true ∧
    meets (up.modTim (fun t => { t with slew := 10 ^ 18 })) (fun a => decide (0 ≤ a.tim.slew ∧ a.takes .supA
      A.TIM_RATE = true)) = true ∧
    meets (up.modTim (fun t => { t with slew := -(10 ^ 18) })) (fun a => decide (a.tim.slew ≤ 0 ∧ a.takes .supA
      A.TIM_RATE = true)) = true := by
  decide +kernel

/-- States that meet the hypotheses of TimeOwnership, clause by clause. -/
theorem witness_TimeOwnership :
    meets ((up.put F.SER_SVCSTAT_MODE 1 |>.put F.SER_SVCSTAT_ARMED 1).put F.TIM_CTL_SRC 0) (fun a => decide (a.takes
      .supA A.TIM_RATE = true)) = true ∧
    meets ((up.put F.SER_SVCSTAT_MODE 1 |>.put F.SER_SVCSTAT_ARMED 1).put F.TIM_CTL_SRC 0) (fun a => decide (a.takes
      .supA A.TIM_STEP0 = true ∧ a.takes .supA A.TIM_RATE = true)) = true := by
  decide +kernel

/-- States that meet the hypotheses of OsrWrites, clause by clause. -/
theorem witness_OsrWrites :
    meets ((carr 0 1000).put (F.SDM_CFG_MODE 143) 1 |>.put (F.SDM_TRG_LEG 143) 5 |>.put (F.TEAM_STAT_STATE 3) 3
      |>.modSdm 143 (fun c => { c with await := .none, histMain := some 5, histOc := some 999000, ocAt := 999999 })
      |>.put (F.SDM_STAT_OCVALID 143) 1) (fun a => decide (a.takes .supA (A.SDM_OSR 143) = true ∧ a.sdmTeam 143 = some
      3 ∧ a.tstate 3 = stRUN)) = true ∧
    meets ((carr 0 1000).put (F.SDM_CFG_MODE 143) 1 |>.put (F.SDM_TRG_LEG 143) 5 |>.put (F.TEAM_STAT_STATE 3) 2
      |>.modSdm 143 (fun c => { c with await := .none, histMain := some 5, histOc := some 999000, ocAt := 999999 })
      |>.put (F.SDM_STAT_OCVALID 143) 1) (fun a => decide (a.takes .supA (A.SDM_OSR 143) = true ∧ a.sdmTeam 143 = some
      3 ∧ a.tstate 3 ≠ stRUN)) = true := by
  decide +kernel

/-- States that meet the hypotheses of EnableUnderSafeN, clause by clause. -/
theorem witness_EnableUnderSafeN :
    meets ((carr 0 1000).put (F.TEAM_STAT_STATE 3) 1 |> (fun x : State => { x with safe := { x.safe with filtLow := true } })
      |>.put F.IDG_INBAND_SAFE_N 0) (fun a => decide (a.takes .supA (A.TEAM_CTL 3) = true ∧ a.tstate 3 = stOFF ∧ a.get
      (F.TEAM_CTL_EN 3) = 0 ∧ (a.safe.filtLow = true ∨ a.bit F.IDG_INBAND_SAFE_N = true) ∧ a.clkOn = true)) = true ∧
    meets ((carr 0 1000).put (F.TEAM_STAT_STATE 3) 1 |> (fun x : State => { x with safe := { x.safe with filtLow := false } })
      |>.put F.IDG_INBAND_SAFE_N 0) (fun a => decide (a.safe.filtLow = false ∧ a.bit F.IDG_INBAND_SAFE_N = false ∧
      (a.team 3).barred = false ∧ a.clkOn = true ∧ a.takes .supA (A.TEAM_CTL 3) = true ∧ a.tstate 3 = stOFF ∧ a.get
      (F.TEAM_CTL_EN 3) = 0)) = true ∧
    meets ((carr 0 1000).put (F.TEAM_STAT_STATE 3) 1 |> (fun x : State => { x with safe := { x.safe with filtLow := true } })
      |>.put F.IDG_INBAND_SAFE_N 0) (fun a => decide (a.clkOn = true ∧ a.takes .supA (A.TEAM_CTL 3) = true ∧ a.tstate
      3 = stOFF ∧ a.get (F.TEAM_CTL_EN 3) = 0 ∧ (a.safe.filtLow = true ∨ a.bit F.IDG_INBAND_SAFE_N = true))) = true := by
  decide +kernel

/-- States that meet the hypotheses of SameTickWrites, clause by clause. -/
theorem witness_SameTickWrites :
    meets ((carr 0 1000).put (F.TEAM_STAT_EN_REF 3) 1) (fun a => decide (a.takes .supA (A.TEAM_STAT 3) = true ∧
      a.same.tick ≠ a.now ∧ (0x10000#32).getLsbD 16 = true)) = true ∧
    meets ((carr 0 1000).put (F.TEAM_STAT_STATE 3) 1 |>.put F.IDG_INBAND_SAFE_N 1) (fun a => decide (a.takes .supA
      (A.TEAM_CTL 3) = true ∧ a.tstate 3 = stOFF ∧ a.safeLow = true ∧ a.clkOn = true)) = true := by
  decide +kernel

/-- R470: a refused enable and a clear of EN_REF in one tick leave the bit set, whichever comes first; a clear in the next
tick takes it back. -/
theorem test_w1c_in_tick :
    (let u := (carr 0 1000).put F.IDG_INBAND_SAFE_N 1
     let e (u : State) : State := u.raise (F.TEAM_STAT_EN_REF 3)
     let c (u : State) : State := u.writeReg .supA (A.TEAM_STAT 3) 0x10000
     (c (e u)).bit (F.TEAM_STAT_EN_REF 3) && (e (c u)).bit (F.TEAM_STAT_EN_REF 3)
       && !(c { e u with now := u.now + 1 }).bit (F.TEAM_STAT_EN_REF 3)) = true := by
  decide +kernel

/-- States that meet the hypotheses of NetLinks, clause by clause. -/
theorem witness_NetLinks :
    meets ((net3.put (F.NET_PSTAT_LINK 1) 0).put (F.NET_PCFG_AN 1) 1) (fun a => decide (a.portRole 1 ≠ 0 ∧
      a.tim.linksIdle = false ∧ a.bit (F.NET_PSTAT_LINK 1) = false ∧ a.clkOn = true)) = true ∧
    meets (net3.modNPort 1 (fun x => { x with qFwd := [.mail 1 []], qPtp := [.mail 1 []], qOther := [.mail 1 []] }))
      (fun a => decide (a.bit (F.NET_PSTAT_LINK 1) = true ∧ a.clkOn = true ∧ a.portRole 1 ≠ 0 ∧ a.tim.linksIdle =
      false)) = true := by
  decide +kernel

/-- States that meet the hypotheses of PtpSends, clause by clause. -/
theorem witness_PtpSends :
    meets ((net1.put F.NET_TSTAT_STAGE 1) |> (fun x : State =>
      { x with now := 2000000000, tim := { x.tim with dev := 512000000000 } })) (fun a => decide (a.stage = stBW ∧
      a.servo.syncAt + a.syncTicks ≤ a.now ∧ a.clkOn = true)) = true ∧
    meets ((net1.put F.NET_TSTAT_STAGE 1) |> (fun x : State =>
      { x with now := 2000000000, tim := { x.tim with dev := 512000000000 } })) (fun a => decide (a.servo.annTxAt +
      logTicks (a.getI F.NET_PTPCFG_LOGANN) ≤ a.now ∧ a.clkOn = true ∧ a.stage = stBW ∧ a.servo.syncAt + a.syncTicks ≤
      a.now)) = true ∧
    meets ((net1.put F.NET_TSTAT_STAGE 1) |> (fun x : State =>
      { x with now := 2000000000, tim := { x.tim with dev := 512000000000 } }) |>.modNPort 1 (fun x =>
      { x with pdOpen := true, pdMiss := 2, pdSeq := 65535 })) (fun a => decide (a.portUp 1 = true ∧ (a.nport 1
      |>.pdAt) + logTicks (a.getI F.NET_PTPCFG_LOGPD) ≤ a.now ∧ (a.nport 1).pdOpen = true ∧ 2 ≤ (a.nport 1).pdMiss ∧
      a.clkOn = true ∧ a.stage = stBW ∧ a.servo.syncAt + a.syncTicks ≤ a.now)) = true ∧
    meets (net3) (fun a => decide (a.portUp 2 = true ∧ a.clkOn = true)) = true ∧
    meets (net3) (fun a => decide (a.clkOn = true)) = true := by
  decide +kernel

/-- States that meet the hypotheses of PtpReceives, clause by clause. -/
theorem witness_PtpReceives :
    meets (slv net3) (fun a => decide (a.portUp 1 = true ∧ a.portUp 2 = true ∧ src9.clk ≠ a.clockId ∧ a.wasSeen 2
      (.sync src9 9 0 false 100 5 4) = false ∧ a.clkOn = true)) = true ∧
    meets (slv net1) (fun a => decide (a.usable 1 src9 (net3.get F.NET_PTPCFG_DOMAIN) = true ∧ a.portUp 0 = false ∧
      a.portUp 2 = false ∧ a.servo.used ≠ some 9 ∧ a.clkOn = true ∧ a.portUp 1 = true ∧ src9.clk ≠ a.clockId ∧
      a.wasSeen 2 (.sync src9 9 0 false 100 5 4) = false)) = true ∧
    meets (net1) (fun a => decide (a.usable 1 src9 (net3.get F.NET_PTPCFG_DOMAIN) = false ∧ a.clkOn = true ∧ a.portUp
      1 = true ∧ src9.clk ≠ a.clockId ∧ a.wasSeen 2 (.sync src9 9 0 false 100 5 4) = false)) = true ∧
    meets ((slv net1).modNPort 1 (fun x =>
      { x with two := [{ src := src9, seq := 9, rx := 500000, corr := 6, hops := 3 }] })) (fun a => decide ((a.nport
      1).two = [{ src := src9, seq := 9, rx := 500000, corr := 6, hops := 3 }] ∧ a.usable 1 src9 (net3.get
      F.NET_PTPCFG_DOMAIN) = true ∧ a.clkOn = true ∧ a.portUp 1 = true ∧ src9.clk ≠ a.clockId ∧ a.wasSeen 2 (.sync
      src9 9 0 false 100 5 4) = false)) = true ∧
    meets (net1) (fun a => decide ((net3.get F.NET_PTPCFG_DOMAIN) = a.get F.NET_PTPCFG_DOMAIN ∧ src9.clk ≠ a.clockId ∧
      gm9.id ≠ a.clockId ∧ 0 < a.annTimeout ∧ a.clkOn = true ∧ a.portUp 1 = true ∧ a.wasSeen 2 (.sync src9 9 0 false
      100 5 4) = false)) = true ∧
    meets (net1.modNPort 1 (fun x =>
      { x with pdT1 := some 100, pdSeq := 9, pdOpen := true, pdGood := 7, pdMiss := 2 }) |>.put (F.NET_PSTAT_PDVALID
      1) 0) (fun a => decide ((a.nport 1).pdT1 = some 100 ∧ 9 = (a.nport 1).pdSeq ∧ (a.nport 1).pdOpen = true ∧ 7 ≤
      (a.nport 1).pdGood ∧ (a.nport 1).pdHist = [] ∧ a.clkOn = true ∧ a.portUp 1 = true ∧ src9.clk ≠ a.clockId ∧
      a.wasSeen 2 (.sync src9 9 0 false 100 5 4) = false)) = true := by
  decide +kernel

/-- States that meet the hypotheses of ServoTimeouts, clause by clause. -/
theorem witness_ServoTimeouts :
    meets ((slv net1).put F.NET_TSTAT_STAGE 3 |>.put F.TIM_STAT_NETLOCK 1 |> (fun x : State =>
      { x with now := 200000000000, tim := { x.tim with dev := 512000000000 } })) (fun a => decide (3 ≤ a.stage ∧
      a.stage ≤ 5 ∧ a.servo.lastSync + 3 * a.syncTicks ≤ a.now ∧ a.clkOn = true)) = true ∧
    meets ((slv net1).put F.NET_TSTAT_STAGE 6 |>.put F.TIM_STAT_NETLOCK 1 |> (fun x : State =>
      { x with now := 200000000000, tim := { x.tim with dev := 512000000000 } })) (fun a => decide (a.stage = stHOLD ∧
      a.bit F.TIM_STAT_NETLOCK = true ∧ a.servo.lastSync + a.get F.NET_SERVOCFG_HOLDMAX * 16 * 312500 ≤ a.now ∧
      a.clkOn = true ∧ a.servo.lastSync + 3 * a.syncTicks ≤ a.now)) = true ∧
    meets ((slv net1).put F.NET_TSTAT_STAGE 1 |>.put F.TIM_STAT_NETLOCK 1 |> (fun x : State =>
      { x with now := 200000000000, tim := { x.tim with dev := 512000000000 } }) |>.put F.TIM_CTL_SRC 2) (fun a =>
      decide (a.stage = stBW ∧ a.get F.TIM_CTL_SRC = 2 ∧ a.servo.ppsHold = none ∧ a.servo.ppsAt + 625000000 ≤ a.now ∧
      a.clkOn = true ∧ a.servo.lastSync + 3 * a.syncTicks ≤ a.now)) = true ∧
    meets ((slv net1).put F.NET_TSTAT_STAGE 2 |>.put F.TIM_STAT_NETLOCK 1 |> (fun x : State =>
      { x with now := 200000000000, tim := { x.tim with dev := 512000000000 } }) |>.put F.NET_CFG_BW_EN 0 |>.modServo
      (fun v => { v with foreign := [(gm9, 5)] })) (fun a => decide (a.servo.annAt + a.annTimeout ≤ a.now ∧ 5 +
      a.annTimeout ≤ a.now ∧ a.clockClass = 255 ∧ a.clkOn = true ∧ a.servo.lastSync + 3 * a.syncTicks ≤ a.now)) = true := by
  decide +kernel

/-- States that meet the hypotheses of IcendCycles, clause by clause. -/
theorem witness_IcendCycles :
    meets (net3 |> (fun x : State => { x with tim := { x.tim with dev := x.tc * 1000 + 0 } }) |>.modNet (fun n =>
      { n with lastDone := 70000, wins := [⟨1, false, 0, 0, 995⟩, ⟨2, false, 0, 0, 996⟩], held := [⟨1000, .state 20 [1, 2]⟩, ⟨999, .state 20 [3]⟩], kept := [⟨1000, [], []⟩, ⟨7, [], []⟩] }))
      (fun a => decide (a.load.locked = true ∧ a.cycDue 0 = true ∧ a.net.bnd ≠ some a.cyc ∧ a.clkOn = true)) = true ∧
    meets (net3 |> (fun x : State => { x with tim := { x.tim with dev := x.tc * 1000 + 500 } }) |>.modNet (fun n =>
      { n with lastDone := 70000, wins := [⟨1, false, 0, 0, 995⟩, ⟨2, false, 0, 0, 996⟩], held := [⟨1000, .state 20 [1, 2]⟩, ⟨999, .state 20 [3]⟩], kept := [⟨1000, [], []⟩, ⟨7, [], []⟩] })
      |>.put F.NET_JOIN_JOINED 1 |>.put F.NET_ADDR_HI 0 |>.wr A.NET_TXOFS 300 |>.wr A.NET_TXOFSHI 400 |>.modNet (fun n
      => { n with seq := 65535 })) (fun a => decide (a.icendOn = true ∧ a.bit F.NET_JOIN_JOINED = true ∧ a.refused =
      false ∧ a.cycDue (if a.bit F.NET_ADDR_HI then (a.rd A.NET_TXOFSHI).toNat else (a.rd A.NET_TXOFS).toNat) = true ∧
      a.net.sentCyc ≠ some a.cyc ∧ a.clkOn = true ∧ a.load.locked = true ∧ a.net.bnd ≠ some a.cyc)) = true ∧
    meets (net3 |> (fun x : State => { x with tim := { x.tim with dev := x.tc * 1000 + 900 } }) |>.modNet (fun n =>
      { n with lastDone := 70000, wins := [⟨1, false, 0, 0, 995⟩, ⟨2, false, 0, 0, 996⟩], held := [⟨1000, .state 20 [1, 2]⟩, ⟨999, .state 20 [3]⟩], kept := [⟨1000, [], []⟩, ⟨7, [], []⟩] })
      |>.wr A.NET_RXDL 800 |>.put F.NET_RXSTATE_BASE 16 |>.put F.NET_RXSTATE_LEN 6) (fun a => decide (a.cycDue (a.rd
      A.NET_RXDL).toNat = true ∧ a.net.dlCyc ≠ some a.cyc ∧ a.get F.NET_RXSTATE_BASE ≤ 20 ∧ 20 + 2 ≤ min 8192 (a.get
      F.NET_RXSTATE_BASE + a.get F.NET_RXSTATE_LEN) ∧ a.clkOn = true ∧ a.load.locked = true ∧ a.net.bnd ≠ some a.cyc))
      = true := by
  decide +kernel

/-- States that meet the hypotheses of IcendFrames, clause by clause. -/
theorem witness_IcendFrames :
    meets (net3) (fun a => decide (a.portUp 1 = true ∧ byteAt (List.replicate 23 1) 1 = ftDATA ∧ a.clkOn = true)) =
      true ∧
    meets (net3 |> (fun x : State => { x with tim := { x.tim with dev := x.tc * 1000 + 900 } }) |>.modNet (fun n =>
      { n with lastDone := 70000, wins := [⟨1, false, 0, 0, 995⟩, ⟨2, false, 0, 0, 996⟩], held := [⟨1000, .state 20 [1, 2]⟩, ⟨999, .state 20 [3]⟩], kept := [⟨1000, [], []⟩, ⟨7, [], []⟩] }))
      (fun a => decide (ring a 1 (frm 1 3 0x155 0x123 1001 44 [itemHdr 1 1 0x2005, 0x77, itemHdr 1 3 0x4010, 1, 2, 3])
      ∧ a.addressed (iceHdr (frm 1 3 0x155 0x123 1001 44 [itemHdr 1 1 0x2005, 0x77, itemHdr 1 3 0x4010, 1, 2, 3])).dst
      = true ∧ a.cycleOk (iceHdr (frm 1 3 0x155 0x123 1001 44 [itemHdr 1 1 0x2005, 0x77, itemHdr 1 3 0x4010, 1, 2,
      3])).cyc = true ∧ iceBlks 1 ((frm 1 3 0x155 0x123 1001 44 [itemHdr 1 1 0x2005, 0x77, itemHdr 1 3 0x4010, 1, 2,
      3]).drop 24) = [ownBlk 44 [itemHdr 1 1 0x2005, 0x77, itemHdr 1 3 0x4010, 1, 2, 3]] ∧ a.clkOn = true ∧ a.portUp 1
      = true ∧ byteAt (List.replicate 23 1) 1 = ftDATA)) = true ∧
    meets (net3 |> (fun x : State => { x with tim := { x.tim with dev := x.tc * 1000 + 900 } }) |>.modNet (fun n =>
      { n with lastDone := 70000, wins := [⟨1, false, 0, 0, 995⟩, ⟨2, false, 0, 0, 996⟩], held := [⟨1000, .state 20 [1, 2]⟩, ⟨999, .state 20 [3]⟩], kept := [⟨1000, [], []⟩, ⟨7, [], []⟩] }))
      (fun a => decide (ring a 1 (frm 1 3 0x155 0xFFF 1001 44 [itemHdr 1 1 0x2005, 0x77, itemHdr 1 3 0x4010, 1, 2, 3])
      ∧ a.addressed (iceHdr (frm 1 3 0x155 0xFFF 1001 44 [itemHdr 1 1 0x2005, 0x77, itemHdr 1 3 0x4010, 1, 2, 3])).dst
      = true ∧ a.cycleOk (iceHdr (frm 1 3 0x155 0xFFF 1001 44 [itemHdr 1 1 0x2005, 0x77, itemHdr 1 3 0x4010, 1, 2,
      3])).cyc = true ∧ iceBlks 1 ((frm 1 3 0x155 0xFFF 1001 44 [itemHdr 1 1 0x2005, 0x77, itemHdr 1 3 0x4010, 1, 2,
      3]).drop 24) = [ownBlk 44 [itemHdr 1 1 0x2005, 0x77, itemHdr 1 3 0x4010, 1, 2, 3]] ∧ a.clkOn = true ∧ a.portUp 1
      = true ∧ byteAt (List.replicate 23 1) 1 = ftDATA)) = true ∧
    meets (net3 |> (fun x : State => { x with tim := { x.tim with dev := x.tc * 1000 + 900 } }) |>.modNet (fun n =>
      { n with lastDone := 70000, wins := [⟨1, false, 0, 0, 995⟩, ⟨2, false, 0, 0, 996⟩], held := [⟨1000, .state 20 [1, 2]⟩, ⟨999, .state 20 [3]⟩], kept := [⟨1000, [], []⟩, ⟨7, [], []⟩] }))
      (fun a => decide (ring a 1 (frm 1 3 0x155 (0x123 / 64 * 64 + 63) 1001 44 [itemHdr 1 1 0x2005, 0x77, itemHdr 1 3
      0x4010, 1, 2, 3]) ∧ a.addressed (iceHdr (frm 1 3 0x155 (0x123 / 64 * 64 + 63) 1001 44 [itemHdr 1 1 0x2005, 0x77,
      itemHdr 1 3 0x4010, 1, 2, 3])).dst = true ∧ a.cycleOk (iceHdr (frm 1 3 0x155 (0x123 / 64 * 64 + 63) 1001 44
      [itemHdr 1 1 0x2005, 0x77, itemHdr 1 3 0x4010, 1, 2, 3])).cyc = true ∧ iceBlks 1 ((frm 1 3 0x155 (0x123 / 64 *
      64 + 63) 1001 44 [itemHdr 1 1 0x2005, 0x77, itemHdr 1 3 0x4010, 1, 2, 3]).drop 24) = [ownBlk 44 [itemHdr 1 1
      0x2005, 0x77, itemHdr 1 3 0x4010, 1, 2, 3]] ∧ a.clkOn = true ∧ a.portUp 1 = true ∧ byteAt (List.replicate 23 1)
      1 = ftDATA)) = true ∧
    meets ((net3 |> (fun x : State => { x with tim := { x.tim with dev := x.tc * 1000 + 500 } }) |>.modNet (fun n =>
      { n with lastDone := 70000, wins := [⟨1, false, 0, 0, 995⟩, ⟨2, false, 0, 0, 996⟩], held := [⟨1000, .state 20 [1, 2]⟩, ⟨999, .state 20 [3]⟩], kept := [⟨1000, [], []⟩, ⟨7, [], []⟩] })).modNet
      (fun n => { n with kept := [⟨1000, (frm 1 0 0x144 0xFFF 1000 45 [itemHdr 1 1 0x2005, 0x77]), [44]⟩] })) (fun a
      => decide (ring a 0 (frm 2 3 0x155 0x123 1000 0 [itemHdr 0x10 1 45, 0x144]) ∧ (iceHdr (frm 2 3 0x155 0x123 1000
      0 [itemHdr 0x10 1 45, 0x144])).dst = a.ownAddr ∧ rprItems [itemHdr 0x10 1 45, 0x144] = [(45, 0x144, false)] ∧
      (iceHdr (frm 1 0 0x144 0xFFF 1000 45 [itemHdr 1 1 0x2005, 0x77])).src = 0x144 ∧ (iceHdr (frm 1 0 0x144 0xFFF
      1000 45 [itemHdr 1 1 0x2005, 0x77])).hi = false ∧ a.clkOn = true ∧ a.portUp 1 = true ∧ byteAt (List.replicate 23
      1) 1 = ftDATA)) = true := by
  decide +kernel

/-- States that meet the hypotheses of IcendJoin, clause by clause. -/
theorem witness_IcendJoin :
    meets (net3.modNet (fun n => { n with hello0 := some 5, helloAt := none }) |> (fun x : State =>
      { x with now := 700000000, tim := { x.tim with dev := x.tc * 1000 } })) (fun a => decide (a.net.hello0 = some 5
      ∧ a.net.helloAt = none ∧ a.refused = false ∧ a.icendOn = true ∧ a.clkOn = true)) = true ∧
    meets (net3.modNet (fun n => { n with hello0 := some 5, helloAt := none }) |> (fun x : State =>
      { x with now := 700000000, tim := { x.tim with dev := x.tc * 1000 } }) |>.put F.NET_JOIN_JOINED 1) (fun a =>
      decide (ring a 1 (frm 4 0 0x155 0xFFF 0 0 [itemHdr 0x20 2 0, 0x123, 0x10000000]) ∧ helloItem [itemHdr 0x20 2 0,
      0x123, 0x10000000] = some (0x123, 0x10000000) ∧ a.clkOn = true ∧ a.net.hello0 = some 5 ∧ a.net.helloAt = none ∧
      a.refused = false ∧ a.icendOn = true)) = true ∧
    meets (net3.modNet (fun n => { n with hello0 := some 5, helloAt := some 7 }) |> (fun x : State =>
      { x with now := 700000000, tim := { x.tim with dev := x.tc * 1000 } })) (fun a => decide (a.net.helloAt = some 7
      ∧ 5 + 625000000 ≤ a.now ∧ a.clkOn = true ∧ a.net.hello0 = some 5 ∧ a.refused = false ∧ a.icendOn = true)) = true := by
  decide +kernel

/-- States that meet the hypotheses of Mailbox, clause by clause. -/
theorem witness_Mailbox :
    meets (net3.modNet (fun n => { n with rxNext := 15, rx := [⟨1, 0, 60, 5⟩] })) (fun a => decide (a.portUp 2 = true
      ∧ beNat (slice ([1, 0x23, 0x45, 0x67, 0x89, 0xAB] ++ List.replicate 55 7 : List Byte) 12 2) ≠ 0x8808 ∧ beNat
      (slice ([1, 0x23, 0x45, 0x67, 0x89, 0xAB] ++ List.replicate 55 7 : List Byte) 0 6) = a.load.mac ∧
      a.net.rx.length < 16 ∧ a.clkOn = true)) = true ∧
    meets (net3.modNet (fun n => { n with txEnd := Vector.replicate 4 (some 1000000) }) |>.put F.NET_MBXTXSTAT_BUSY
      15) (fun a => decide (a.net.txEnd[(3 : Fin 4)] = some a.now ∧ a.clkOn = true ∧ a.portUp 2 = true ∧ beNat (slice
      ([1, 0x23, 0x45, 0x67, 0x89, 0xAB] ++ List.replicate 55 7 : List Byte) 12 2) ≠ 0x8808 ∧ beNat (slice ([1, 0x23,
      0x45, 0x67, 0x89, 0xAB] ++ List.replicate 55 7 : List Byte) 0 6) = a.load.mac ∧ a.net.rx.length < 16)) = true ∧
    meets (net3.modNPort 1 (fun x => { x with qFwd := [.icend [1, 2], .icend [3]], busyTill := 1000000 })) (fun a =>
      decide (a.portUp 1 = true ∧ (a.nport 1).busyTill ≤ a.now ∧ a.clkOn = true ∧ a.portUp 2 = true ∧ beNat (slice
      ([1, 0x23, 0x45, 0x67, 0x89, 0xAB] ++ List.replicate 55 7 : List Byte) 12 2) ≠ 0x8808 ∧ beNat (slice ([1, 0x23,
      0x45, 0x67, 0x89, 0xAB] ++ List.replicate 55 7 : List Byte) 0 6) = a.load.mac ∧ a.net.rx.length < 16)) = true ∧
    meets (net3.modNet (fun n => { n with rx := [⟨1, 0, 60, 5⟩] }) |>.wr A.NET_MBXRXSTAT 99) (fun a => decide (a.takes
      .supA A.NET_MBXRXPOP = true ∧ a.clkOn = true ∧ a.portUp 2 = true ∧ beNat (slice ([1, 0x23, 0x45, 0x67, 0x89,
      0xAB] ++ List.replicate 55 7 : List Byte) 12 2) ≠ 0x8808 ∧ beNat (slice ([1, 0x23, 0x45, 0x67, 0x89, 0xAB] ++
      List.replicate 55 7 : List Byte) 0 6) = a.load.mac ∧ a.net.rx.length < 16)) = true ∧
    meets (net3.memSet (K.txSlot 3 0) 0x01020304) (fun a => decide (a.takes .supB A.NET_MBXTXCTL = true ∧ a.bitAt
      F.NET_MBXTXSTAT_BUSY 3 = false ∧ occFine 14 ≤ a.tc - (a.rd A.NET_RXDL).toNat ∧ a.clkOn = true ∧ a.portUp 2 =
      true ∧ beNat (slice ([1, 0x23, 0x45, 0x67, 0x89, 0xAB] ++ List.replicate 55 7 : List Byte) 12 2) ≠ 0x8808 ∧
      beNat (slice ([1, 0x23, 0x45, 0x67, 0x89, 0xAB] ++ List.replicate 55 7 : List Byte) 0 6) = a.load.mac ∧
      a.net.rx.length < 16)) = true ∧
    meets (net3) (fun a => decide (a.clkOn = true ∧ a.portUp 2 = true ∧ beNat (slice ([1, 0x23, 0x45, 0x67, 0x89,
      0xAB] ++ List.replicate 55 7 : List Byte) 12 2) ≠ 0x8808 ∧ beNat (slice ([1, 0x23, 0x45, 0x67, 0x89, 0xAB] ++
      List.replicate 55 7 : List Byte) 0 6) = a.load.mac ∧ a.net.rx.length < 16)) = true := by
  decide +kernel

/-- States that meet the hypotheses of FlashStores, clause by clause. -/
theorem witness_FlashStores :
    meets (up) (fun a => decide (a.ser.queue = [] ∧ a.ser.blocked = [] ∧ a.ser.run = none ∧ a.ser.gather = none ∧
      a.ser.closed = false ∧ a.flsProtected 0xFFFFFE 2 = false ∧ a.clkOn = true)) = true ∧
    meets (up.modLoad (fun l => { l with accepted := true })) (fun a => decide (a.ser.queue = [] ∧ a.ser.blocked = []
      ∧ a.ser.run = none ∧ a.ser.gather = none ∧ a.ser.closed = false ∧ a.flsProtected (slotBase 0 + 5) 2 = true ∧
      a.clkOn = true ∧ a.flsProtected 0xFFFFFE 2 = false)) = true ∧
    meets (up) (fun a => decide (a.flsProtected (0xFFFFFE / 4096 * 4096) 4096 = false ∧ a.clkOn = true ∧ a.ser.queue =
      [] ∧ a.ser.blocked = [] ∧ a.ser.run = none ∧ a.ser.gather = none ∧ a.ser.closed = false ∧ a.flsProtected
      0xFFFFFE 2 = false)) = true ∧
    meets (up.put F.SER_SVCSTAT_MODE 1 |>.put F.SER_SVCSTAT_ARMED 1 |>.put F.SER_FLSADDR_ADDR 0xFFFFFE) (fun a =>
      decide (a.takes .supA A.SER_FLSWDATA = true ∧ a.flsProtected a.flsAddr 4 = false ∧ a.clkOn = true ∧ a.ser.queue
      = [] ∧ a.ser.blocked = [] ∧ a.ser.run = none ∧ a.ser.gather = none ∧ a.ser.closed = false ∧ a.flsProtected
      0xFFFFFE 2 = false)) = true ∧
    meets (up.put F.SER_SVCSTAT_MODE 1 |>.put F.SER_SVCSTAT_ARMED 1) (fun a => decide (a.takes .supA A.SER_FLSERASE =
      true ∧ a.clkOn = true ∧ a.ser.queue = [] ∧ a.ser.blocked = [] ∧ a.ser.run = none ∧ a.ser.gather = none ∧
      a.ser.closed = false ∧ a.flsProtected 0xFFFFFE 2 = false)) = true := by
  decide +kernel

/-- States that meet the hypotheses of FlashReads, clause by clause. -/
theorem witness_FlashReads :
    meets (up.modSer (fun x =>
      { x with lines := [(0x40, ((List.range 64).map (fun i => BitVec.ofNat 8 i) : List Byte))] })
      |>.modLoad (fun l => { l with xip := true, xipLo := 0, xipHi := 0x2000 })) (fun a => decide (a.fwOk 1 = true ∧
      a.xipFetch 0x44 = true ∧ a.ser.lines.find? (fun x => x.1 == 0x40) ≠ none ∧ a.ser.queue = [] ∧ a.ser.blocked = [] ∧ a.ser.run = none ∧ a.ser.gather = none ∧ a.ser.closed = false ∧ a.clkOn
      = true)) = true ∧
    meets (up.modSer (fun x => { x with lines := (List.range 16).map (fun i => (i * 64, [])) })) (fun a => decide
      (a.ser.lines.find? (fun x => x.1 == 0x1000) = none ∧ ((List.range 64).map (fun i => BitVec.ofNat 8 i) : List
      Byte).length = 64 ∧ a.clkOn = true ∧ a.ser.queue = [] ∧ a.ser.blocked = [] ∧ a.ser.run = none ∧ a.ser.gather =
      none ∧ a.ser.closed = false)) = true ∧
    meets (up.put F.SER_SVCSTAT_MODE 1 |>.put F.SER_SVCSTAT_ARMED 1 |>.put F.SER_FLSADDR_ADDR 0xFFFFFE) (fun a =>
      decide (a.mayReach .supA false A.SER_FLSRDATA = true ∧ a.clkOn = true ∧ a.ser.queue = [] ∧ a.ser.blocked = [] ∧
      a.ser.run = none ∧ a.ser.gather = none ∧ a.ser.closed = false)) = true := by
  decide +kernel

/-- States that meet the hypotheses of FlashOperations, clause by clause. -/
theorem witness_FlashOperations :
    meets (up.modSer (fun x => { x with gather := some ⟨5, [(3, 1), (5, 2)], .supA, 999375⟩ })) (fun a => decide
      (a.ser.run = none ∧ a.takes .supA A.SER_FLSCTL = true ∧ a.clkOn = true)) = true ∧
    meets (up.modSer (fun x => { x with gather := some ⟨5, [(3, 1), (5, 2)], .supA, 999375⟩ })) (fun a => decide
      (999375 + 625 ≤ a.now ∧ a.clkOn = true ∧ a.ser.run = none ∧ a.takes .supA A.SER_FLSCTL = true)) = true ∧
    meets (up.modSer (fun x =>
      { x with run := some ⟨.prog 0x503 [1, 2] .supA, 5, false, false⟩, lines := [(0x500, []), (0x1000, [])] }) |>.put
      F.SER_FLSCTL_VERIFY 1) (fun a => decide ((a.ser.run.map FlsRun.resetWait) = some false ∧ a.ser.queue = [] ∧
      a.ser.blocked = [] ∧ a.clkOn = true ∧ a.takes .supA A.SER_FLSCTL = true)) = true ∧
    meets (up.modSer (fun x =>
      { x with run := some ⟨.erase 0x1003 .supA, 5, false, false⟩, lines := [(0x500, []), (0x1000, [])] }) |>.put
      F.SER_FLSCTL_VERIFY 1) (fun a => decide (a.clkOn = true ∧ a.takes .supA A.SER_FLSCTL = true)) = true ∧
    meets (up.modSer (fun x =>
      { x with run := some ⟨.prog 0x503 [1, 2] .supA, 5, false, false⟩, lines := [(0x500, []), (0x1000, [])] }) |>.put
      F.SER_FLSCTL_VERIFY 1) (fun a => decide (a.bit F.SER_FLSCTL_VERIFY = true ∧ a.clkOn = true ∧ a.takes .supA
      A.SER_FLSCTL = true)) = true ∧
    meets ((up.modSer (fun x =>
      { x with run := some ⟨.prog 0x503 [1, 2] .supA, 687500, false, false⟩, lines := [(0x500, []), (0x1000, [])] })
      |>.put F.SER_FLSCTL_VERIFY 1).put F.SER_FLSTMO_PROG 100) (fun a => decide (687500 + a.get F.SER_FLSTMO_PROG *
      3125 ≤ a.now ∧ a.clkOn = true ∧ a.takes .supA A.SER_FLSCTL = true)) = true ∧
    meets ((up.modSer (fun x =>
      { x with run := some ⟨.erase 0x1003 .supA, 62500, false, false⟩, lines := [(0x500, []), (0x1000, [])] }) |>.put
      F.SER_FLSCTL_VERIFY 1).put F.SER_FLSTMO_ERASE 3) (fun a => decide (62500 + a.get F.SER_FLSTMO_ERASE * 312500 ≤
      a.now ∧ a.clkOn = true ∧ a.takes .supA A.SER_FLSCTL = true)) = true ∧
    meets ((up.modSer (fun x =>
      { x with run := some ⟨.erase 0x1003 .supA, 31250, false, true⟩, lines := [(0x500, []), (0x1000, [])] }) |>.put
      F.SER_FLSCTL_VERIFY 1).put F.SER_FLSTMO_ERASE 3 |>.modSer (fun x => { x with queue := [.erase 5 .supA] })) (fun
      a => decide (31250 + 31250 + a.get F.SER_FLSTMO_ERASE * 312500 ≤ a.now ∧ a.clkOn = true ∧ a.takes .supA
      A.SER_FLSCTL = true)) = true := by
  decide +kernel

/-- States that meet the hypotheses of Fuses, clause by clause. -/
theorem witness_Fuses :
    meets ((up.put F.SER_SVCSTAT_MODE 1 |>.put F.SER_SVCSTAT_ARMED 1).put F.BOOT_IMGID_SEC_VER 20 |> (fun x : State =>
      { x with fuse := { x.fuse with keys := x.fuse.keys.set 3 { hash := List.replicate 32 9, prog := false, rev := false }, floor := 5 } }))
      (fun a => decide (a.ser.fuseOp = none ∧ a.takes .svc A.SER_FUSECTL = true ∧ stopped a ∧ (a.fuse.keys[3]).prog =
      false)) = true ∧
    meets ((up.put F.SER_SVCSTAT_MODE 1 |>.put F.SER_SVCSTAT_ARMED 1).put F.BOOT_IMGID_SEC_VER 20 |> (fun x : State =>
      { x with fuse := { x.fuse with keys := x.fuse.keys.set 3 { hash := List.replicate 32 9, prog := false, rev := false }, floor := 5 } }))
      (fun a => decide (a.ser.fuseOp = none ∧ a.takes .svc A.SER_FUSECTL = true ∧ stopped a ∧ (a.fuse.keys[3]).prog =
      false)) = true ∧
    meets ((up.put F.SER_SVCSTAT_MODE 1 |>.put F.SER_SVCSTAT_ARMED 1).put F.BOOT_IMGID_SEC_VER 20 |> (fun x : State =>
      { x with fuse := { x.fuse with keys := x.fuse.keys.set 3 { hash := List.replicate 32 9, prog := true, rev := false }, floor := 5 } }))
      (fun a => decide (a.ser.fuseOp = none ∧ a.takes .svc A.SER_FUSECTL = true ∧ stopped a)) = true ∧
    meets ((up.put F.SER_SVCSTAT_MODE 1 |>.put F.SER_SVCSTAT_ARMED 1).put F.BOOT_IMGID_SEC_VER 20 |> (fun x : State =>
      { x with fuse := { x.fuse with keys := x.fuse.keys.set 3 { hash := List.replicate 32 9, prog := true, rev := false }, floor := 5 } }))
      (fun a => decide (a.ser.fuseOp = none ∧ a.takes .svc A.SER_FUSECTL = true ∧ stopped a)) = true ∧
    meets ((up.put F.SER_SVCSTAT_MODE 1 |>.put F.SER_SVCSTAT_ARMED 1).put F.BOOT_IMGID_SEC_VER 20 |> (fun x : State =>
      { x with fuse := { x.fuse with keys := x.fuse.keys.set 3 { hash := List.replicate 32 9, prog := true, rev := false }, floor := 5 } })
      |>.modSer (fun x => { x with fuseOp := some (.program 2) }) |>.put F.SER_FUSESTAT_BUSY 1 |>.put
      F.SER_FUSESTAT_CODE 3 |>.wr (A.SER_FUSEKEY 7) 0x01020304) (fun a => decide (a.ser.fuseOp = some (.program 2) ∧
      a.takes .svc A.SER_FUSECTL = true ∧ stopped a)) = true ∧
    meets ((up.put F.SER_SVCSTAT_MODE 1 |>.put F.SER_SVCSTAT_ARMED 1).put F.BOOT_IMGID_SEC_VER 20 |> (fun x : State =>
      { x with fuse := { x.fuse with keys := x.fuse.keys.set 3 { hash := List.replicate 32 9, prog := true, rev := false }, floor := 5 } })
      |>.modSer (fun x => { x with fuseOp := some (.revoke 3) }) |>.put F.SER_FUSESTAT_BUSY 1 |>.put
      F.SER_FUSESTAT_CODE 3 |>.wr (A.SER_FUSEKEY 7) 0x01020304) (fun a => decide (a.takes .svc A.SER_FUSECTL = true ∧
      stopped a)) = true := by
  decide +kernel

/-- States that meet the hypotheses of PeripheralPorts, clause by clause. -/
theorem witness_PeripheralPorts :
    meets (up.put (F.SER_PMSCFG_PAIR 2) 0) (fun a => decide (a.takes .supA (A.SER_PMSQ 3) = true ∧ a.pmsTaken 3 =
      false ∧ (0 < (pmsEntry (fieldOf (F.SER_PMSQ_WLEN 0) 15 ||| fieldOf (F.SER_PMSQ_LANES 0) 0 ||| fieldOf
      (F.SER_PMSQ_NTX 0) 255 ||| fieldOf (F.SER_PMSQ_NRX 0) 0)).ntx ∨ 0 < (pmsEntry (fieldOf (F.SER_PMSQ_WLEN 0) 15
      ||| fieldOf (F.SER_PMSQ_LANES 0) 0 ||| fieldOf (F.SER_PMSQ_NTX 0) 255 ||| fieldOf (F.SER_PMSQ_NRX 0) 0)).nrx) ∧
      ((pmsEntry (fieldOf (F.SER_PMSQ_WLEN 0) 15 ||| fieldOf (F.SER_PMSQ_LANES 0) 0 ||| fieldOf (F.SER_PMSQ_NTX 0) 255
      ||| fieldOf (F.SER_PMSQ_NRX 0) 0)).lanes = 0 → (pmsEntry (fieldOf (F.SER_PMSQ_WLEN 0) 15 ||| fieldOf
      (F.SER_PMSQ_LANES 0) 0 ||| fieldOf (F.SER_PMSQ_NTX 0) 255 ||| fieldOf (F.SER_PMSQ_NRX 0) 0)).nrx = 0) ∧
      ((pmsEntry (fieldOf (F.SER_PMSQ_WLEN 0) 15 ||| fieldOf (F.SER_PMSQ_LANES 0) 0 ||| fieldOf (F.SER_PMSQ_NTX 0) 255
      ||| fieldOf (F.SER_PMSQ_NRX 0) 0)).lanes = 3 → a.bit (F.SER_PMSCFG_PAIR 3) = true) ∧ a.clkOn = true)) = true ∧
    meets (up.put (F.SER_PMSCFG_PAIR 2) 0) (fun a => decide (a.takes .supA (A.SER_PMSQ 3) = true ∧ a.clkOn = true ∧
      a.pmsTaken 3 = false ∧ (0 < (pmsEntry (fieldOf (F.SER_PMSQ_WLEN 0) 15 ||| fieldOf (F.SER_PMSQ_LANES 0) 0 |||
      fieldOf (F.SER_PMSQ_NTX 0) 255 ||| fieldOf (F.SER_PMSQ_NRX 0) 0)).ntx ∨ 0 < (pmsEntry (fieldOf (F.SER_PMSQ_WLEN
      0) 15 ||| fieldOf (F.SER_PMSQ_LANES 0) 0 ||| fieldOf (F.SER_PMSQ_NTX 0) 255 ||| fieldOf (F.SER_PMSQ_NRX 0)
      0)).nrx) ∧ ((pmsEntry (fieldOf (F.SER_PMSQ_WLEN 0) 15 ||| fieldOf (F.SER_PMSQ_LANES 0) 0 ||| fieldOf
      (F.SER_PMSQ_NTX 0) 255 ||| fieldOf (F.SER_PMSQ_NRX 0) 0)).lanes = 0 → (pmsEntry (fieldOf (F.SER_PMSQ_WLEN 0) 15
      ||| fieldOf (F.SER_PMSQ_LANES 0) 0 ||| fieldOf (F.SER_PMSQ_NTX 0) 255 ||| fieldOf (F.SER_PMSQ_NRX 0) 0)).nrx =
      0) ∧ ((pmsEntry (fieldOf (F.SER_PMSQ_WLEN 0) 15 ||| fieldOf (F.SER_PMSQ_LANES 0) 0 ||| fieldOf (F.SER_PMSQ_NTX
      0) 255 ||| fieldOf (F.SER_PMSQ_NRX 0) 0)).lanes = 3 → a.bit (F.SER_PMSCFG_PAIR 3) = true))) = true ∧
    meets (up.modPms 3 (fun x => { x with queue := List.replicate 16 (pmsEntry 0) })) (fun a => decide (a.clkOn = true
      ∧ a.takes .supA (A.SER_PMSQ 3) = true ∧ a.pmsTaken 3 = false ∧ (0 < (pmsEntry (fieldOf (F.SER_PMSQ_WLEN 0) 15
      ||| fieldOf (F.SER_PMSQ_LANES 0) 0 ||| fieldOf (F.SER_PMSQ_NTX 0) 255 ||| fieldOf (F.SER_PMSQ_NRX 0) 0)).ntx ∨ 0
      < (pmsEntry (fieldOf (F.SER_PMSQ_WLEN 0) 15 ||| fieldOf (F.SER_PMSQ_LANES 0) 0 ||| fieldOf (F.SER_PMSQ_NTX 0)
      255 ||| fieldOf (F.SER_PMSQ_NRX 0) 0)).nrx) ∧ ((pmsEntry (fieldOf (F.SER_PMSQ_WLEN 0) 15 ||| fieldOf
      (F.SER_PMSQ_LANES 0) 0 ||| fieldOf (F.SER_PMSQ_NTX 0) 255 ||| fieldOf (F.SER_PMSQ_NRX 0) 0)).lanes = 0 →
      (pmsEntry (fieldOf (F.SER_PMSQ_WLEN 0) 15 ||| fieldOf (F.SER_PMSQ_LANES 0) 0 ||| fieldOf (F.SER_PMSQ_NTX 0) 255
      ||| fieldOf (F.SER_PMSQ_NRX 0) 0)).nrx = 0) ∧ ((pmsEntry (fieldOf (F.SER_PMSQ_WLEN 0) 15 ||| fieldOf
      (F.SER_PMSQ_LANES 0) 0 ||| fieldOf (F.SER_PMSQ_NTX 0) 255 ||| fieldOf (F.SER_PMSQ_NRX 0) 0)).lanes = 3 → a.bit
      (F.SER_PMSCFG_PAIR 3) = true))) = true ∧
    meets (up.modPms 3 (fun x => { x with tx := List.replicate 63 5 })) (fun a => decide (a.takes .supB (A.SER_PMSTX
      3) = true ∧ (a.pms 3).run = none ∧ (a.pms 3).tx.length < 64 ∧ a.clkOn = true ∧ a.takes .supA (A.SER_PMSQ 3) =
      true ∧ a.pmsTaken 3 = false ∧ (0 < (pmsEntry (fieldOf (F.SER_PMSQ_WLEN 0) 15 ||| fieldOf (F.SER_PMSQ_LANES 0) 0
      ||| fieldOf (F.SER_PMSQ_NTX 0) 255 ||| fieldOf (F.SER_PMSQ_NRX 0) 0)).ntx ∨ 0 < (pmsEntry (fieldOf
      (F.SER_PMSQ_WLEN 0) 15 ||| fieldOf (F.SER_PMSQ_LANES 0) 0 ||| fieldOf (F.SER_PMSQ_NTX 0) 255 ||| fieldOf
      (F.SER_PMSQ_NRX 0) 0)).nrx) ∧ ((pmsEntry (fieldOf (F.SER_PMSQ_WLEN 0) 15 ||| fieldOf (F.SER_PMSQ_LANES 0) 0 |||
      fieldOf (F.SER_PMSQ_NTX 0) 255 ||| fieldOf (F.SER_PMSQ_NRX 0) 0)).lanes = 0 → (pmsEntry (fieldOf
      (F.SER_PMSQ_WLEN 0) 15 ||| fieldOf (F.SER_PMSQ_LANES 0) 0 ||| fieldOf (F.SER_PMSQ_NTX 0) 255 ||| fieldOf
      (F.SER_PMSQ_NRX 0) 0)).nrx = 0) ∧ ((pmsEntry (fieldOf (F.SER_PMSQ_WLEN 0) 15 ||| fieldOf (F.SER_PMSQ_LANES 0) 0
      ||| fieldOf (F.SER_PMSQ_NTX 0) 255 ||| fieldOf (F.SER_PMSQ_NRX 0) 0)).lanes = 3 → a.bit (F.SER_PMSCFG_PAIR 3) =
      true))) = true ∧
    meets (up.modPms 3 (fun x => { x with rx := [7, 8] })) (fun a => decide (a.mayReach .supA false (A.SER_PMSRX 3) =
      true ∧ a.clkOn = true ∧ a.takes .supA (A.SER_PMSQ 3) = true ∧ a.pmsTaken 3 = false ∧ (0 < (pmsEntry (fieldOf
      (F.SER_PMSQ_WLEN 0) 15 ||| fieldOf (F.SER_PMSQ_LANES 0) 0 ||| fieldOf (F.SER_PMSQ_NTX 0) 255 ||| fieldOf
      (F.SER_PMSQ_NRX 0) 0)).ntx ∨ 0 < (pmsEntry (fieldOf (F.SER_PMSQ_WLEN 0) 15 ||| fieldOf (F.SER_PMSQ_LANES 0) 0
      ||| fieldOf (F.SER_PMSQ_NTX 0) 255 ||| fieldOf (F.SER_PMSQ_NRX 0) 0)).nrx) ∧ ((pmsEntry (fieldOf
      (F.SER_PMSQ_WLEN 0) 15 ||| fieldOf (F.SER_PMSQ_LANES 0) 0 ||| fieldOf (F.SER_PMSQ_NTX 0) 255 ||| fieldOf
      (F.SER_PMSQ_NRX 0) 0)).lanes = 0 → (pmsEntry (fieldOf (F.SER_PMSQ_WLEN 0) 15 ||| fieldOf (F.SER_PMSQ_LANES 0) 0
      ||| fieldOf (F.SER_PMSQ_NTX 0) 255 ||| fieldOf (F.SER_PMSQ_NRX 0) 0)).nrx = 0) ∧ ((pmsEntry (fieldOf
      (F.SER_PMSQ_WLEN 0) 15 ||| fieldOf (F.SER_PMSQ_LANES 0) 0 ||| fieldOf (F.SER_PMSQ_NTX 0) 255 ||| fieldOf
      (F.SER_PMSQ_NRX 0) 0)).lanes = 3 → a.bit (F.SER_PMSCFG_PAIR 3) = true))) = true ∧
    meets (up) (fun a => decide (a.clkOn = true ∧ a.takes .supA (A.SER_PMSQ 3) = true ∧ a.pmsTaken 3 = false ∧ (0 <
      (pmsEntry (fieldOf (F.SER_PMSQ_WLEN 0) 15 ||| fieldOf (F.SER_PMSQ_LANES 0) 0 ||| fieldOf (F.SER_PMSQ_NTX 0) 255
      ||| fieldOf (F.SER_PMSQ_NRX 0) 0)).ntx ∨ 0 < (pmsEntry (fieldOf (F.SER_PMSQ_WLEN 0) 15 ||| fieldOf
      (F.SER_PMSQ_LANES 0) 0 ||| fieldOf (F.SER_PMSQ_NTX 0) 255 ||| fieldOf (F.SER_PMSQ_NRX 0) 0)).nrx) ∧ ((pmsEntry
      (fieldOf (F.SER_PMSQ_WLEN 0) 15 ||| fieldOf (F.SER_PMSQ_LANES 0) 0 ||| fieldOf (F.SER_PMSQ_NTX 0) 255 |||
      fieldOf (F.SER_PMSQ_NRX 0) 0)).lanes = 0 → (pmsEntry (fieldOf (F.SER_PMSQ_WLEN 0) 15 ||| fieldOf
      (F.SER_PMSQ_LANES 0) 0 ||| fieldOf (F.SER_PMSQ_NTX 0) 255 ||| fieldOf (F.SER_PMSQ_NRX 0) 0)).nrx = 0) ∧
      ((pmsEntry (fieldOf (F.SER_PMSQ_WLEN 0) 15 ||| fieldOf (F.SER_PMSQ_LANES 0) 0 ||| fieldOf (F.SER_PMSQ_NTX 0) 255
      ||| fieldOf (F.SER_PMSQ_NRX 0) 0)).lanes = 3 → a.bit (F.SER_PMSCFG_PAIR 3) = true))) = true ∧
    meets (up.put (F.SER_PMSCFG_EN 3) 1 |>.put (F.SER_PMSCFG_ROLE 3) 0 |>.modPms 3 (fun x =>
      { x with queue := [{ cont := false, cs := false, lanes := 0, dummy := 0, wbits := 32, ntx := 2, nrx := 0 }], tx := [0x80000001, 5] }))
      (fun a => decide (a.bit (F.SER_PMSCFG_EN 3) = true ∧ a.pmsTaken 3 = false ∧ a.pmsSlave 3 = false ∧ a.clkOn =
      true ∧ a.takes .supA (A.SER_PMSQ 3) = true ∧ (0 < (pmsEntry (fieldOf (F.SER_PMSQ_WLEN 0) 15 ||| fieldOf
      (F.SER_PMSQ_LANES 0) 0 ||| fieldOf (F.SER_PMSQ_NTX 0) 255 ||| fieldOf (F.SER_PMSQ_NRX 0) 0)).ntx ∨ 0 < (pmsEntry
      (fieldOf (F.SER_PMSQ_WLEN 0) 15 ||| fieldOf (F.SER_PMSQ_LANES 0) 0 ||| fieldOf (F.SER_PMSQ_NTX 0) 255 |||
      fieldOf (F.SER_PMSQ_NRX 0) 0)).nrx) ∧ ((pmsEntry (fieldOf (F.SER_PMSQ_WLEN 0) 15 ||| fieldOf (F.SER_PMSQ_LANES
      0) 0 ||| fieldOf (F.SER_PMSQ_NTX 0) 255 ||| fieldOf (F.SER_PMSQ_NRX 0) 0)).lanes = 0 → (pmsEntry (fieldOf
      (F.SER_PMSQ_WLEN 0) 15 ||| fieldOf (F.SER_PMSQ_LANES 0) 0 ||| fieldOf (F.SER_PMSQ_NTX 0) 255 ||| fieldOf
      (F.SER_PMSQ_NRX 0) 0)).nrx = 0) ∧ ((pmsEntry (fieldOf (F.SER_PMSQ_WLEN 0) 15 ||| fieldOf (F.SER_PMSQ_LANES 0) 0
      ||| fieldOf (F.SER_PMSQ_NTX 0) 255 ||| fieldOf (F.SER_PMSQ_NRX 0) 0)).lanes = 3 → a.bit (F.SER_PMSCFG_PAIR 3) =
      true))) = true ∧
    meets (up.put (F.SER_PMSCFG_EN 3) 1 |>.put (F.SER_PMSCFG_ROLE 3) 1 |>.put (F.SER_PMSCFG_SWLEN 3) 15 |>.modPms 3
      (fun x => { x with cur := some 1, tx := [2, 3], rx := [4] })) (fun a => decide (a.pmsSlave 3 = true ∧ (a.pms
      3).cur = some 1 ∧ a.clkOn = true ∧ a.takes .supA (A.SER_PMSQ 3) = true ∧ a.pmsTaken 3 = false ∧ (0 < (pmsEntry
      (fieldOf (F.SER_PMSQ_WLEN 0) 15 ||| fieldOf (F.SER_PMSQ_LANES 0) 0 ||| fieldOf (F.SER_PMSQ_NTX 0) 255 |||
      fieldOf (F.SER_PMSQ_NRX 0) 0)).ntx ∨ 0 < (pmsEntry (fieldOf (F.SER_PMSQ_WLEN 0) 15 ||| fieldOf (F.SER_PMSQ_LANES
      0) 0 ||| fieldOf (F.SER_PMSQ_NTX 0) 255 ||| fieldOf (F.SER_PMSQ_NRX 0) 0)).nrx) ∧ ((pmsEntry (fieldOf
      (F.SER_PMSQ_WLEN 0) 15 ||| fieldOf (F.SER_PMSQ_LANES 0) 0 ||| fieldOf (F.SER_PMSQ_NTX 0) 255 ||| fieldOf
      (F.SER_PMSQ_NRX 0) 0)).lanes = 0 → (pmsEntry (fieldOf (F.SER_PMSQ_WLEN 0) 15 ||| fieldOf (F.SER_PMSQ_LANES 0) 0
      ||| fieldOf (F.SER_PMSQ_NTX 0) 255 ||| fieldOf (F.SER_PMSQ_NRX 0) 0)).nrx = 0) ∧ ((pmsEntry (fieldOf
      (F.SER_PMSQ_WLEN 0) 15 ||| fieldOf (F.SER_PMSQ_LANES 0) 0 ||| fieldOf (F.SER_PMSQ_NTX 0) 255 ||| fieldOf
      (F.SER_PMSQ_NRX 0) 0)).lanes = 3 → a.bit (F.SER_PMSCFG_PAIR 3) = true))) = true ∧
    meets (up.put (F.SER_PMSCFG_EN 3) 1 |>.put (F.SER_PMSCFG_ROLE 3) 1 |>.put (F.SER_PMSCFG_SWLEN 3) 15 |>.modPms 3
      (fun x => { x with cur := some 1, tx := [2, 3], rx := [4] })) (fun a => decide (1 ≤ a.get (F.SER_PMSCFG_SWLEN 3)
      ∧ a.clkOn = true ∧ a.takes .supA (A.SER_PMSQ 3) = true ∧ a.pmsTaken 3 = false ∧ (0 < (pmsEntry (fieldOf
      (F.SER_PMSQ_WLEN 0) 15 ||| fieldOf (F.SER_PMSQ_LANES 0) 0 ||| fieldOf (F.SER_PMSQ_NTX 0) 255 ||| fieldOf
      (F.SER_PMSQ_NRX 0) 0)).ntx ∨ 0 < (pmsEntry (fieldOf (F.SER_PMSQ_WLEN 0) 15 ||| fieldOf (F.SER_PMSQ_LANES 0) 0
      ||| fieldOf (F.SER_PMSQ_NTX 0) 255 ||| fieldOf (F.SER_PMSQ_NRX 0) 0)).nrx) ∧ ((pmsEntry (fieldOf
      (F.SER_PMSQ_WLEN 0) 15 ||| fieldOf (F.SER_PMSQ_LANES 0) 0 ||| fieldOf (F.SER_PMSQ_NTX 0) 255 ||| fieldOf
      (F.SER_PMSQ_NRX 0) 0)).lanes = 0 → (pmsEntry (fieldOf (F.SER_PMSQ_WLEN 0) 15 ||| fieldOf (F.SER_PMSQ_LANES 0) 0
      ||| fieldOf (F.SER_PMSQ_NTX 0) 255 ||| fieldOf (F.SER_PMSQ_NRX 0) 0)).nrx = 0) ∧ ((pmsEntry (fieldOf
      (F.SER_PMSQ_WLEN 0) 15 ||| fieldOf (F.SER_PMSQ_LANES 0) 0 ||| fieldOf (F.SER_PMSQ_NTX 0) 255 ||| fieldOf
      (F.SER_PMSQ_NRX 0) 0)).lanes = 3 → a.bit (F.SER_PMSCFG_PAIR 3) = true))) = true ∧
    meets (up.put (F.SER_PMSCFG_EN 3) 1 |>.modPms 3 (fun x =>
      { x with run := some ⟨{ cont := false, cs := false, lanes := 0, dummy := 0, wbits := 32, ntx := 2, nrx := 0 }, [1, 2], 0, []⟩ }))
      (fun a => decide (((a.pms 3).run.map PmsRun.complete) = some true ∧ a.clkOn = true ∧ a.takes .supA (A.SER_PMSQ
      3) = true ∧ a.pmsTaken 3 = false ∧ (0 < (pmsEntry (fieldOf (F.SER_PMSQ_WLEN 0) 15 ||| fieldOf (F.SER_PMSQ_LANES
      0) 0 ||| fieldOf (F.SER_PMSQ_NTX 0) 255 ||| fieldOf (F.SER_PMSQ_NRX 0) 0)).ntx ∨ 0 < (pmsEntry (fieldOf
      (F.SER_PMSQ_WLEN 0) 15 ||| fieldOf (F.SER_PMSQ_LANES 0) 0 ||| fieldOf (F.SER_PMSQ_NTX 0) 255 ||| fieldOf
      (F.SER_PMSQ_NRX 0) 0)).nrx) ∧ ((pmsEntry (fieldOf (F.SER_PMSQ_WLEN 0) 15 ||| fieldOf (F.SER_PMSQ_LANES 0) 0 |||
      fieldOf (F.SER_PMSQ_NTX 0) 255 ||| fieldOf (F.SER_PMSQ_NRX 0) 0)).lanes = 0 → (pmsEntry (fieldOf
      (F.SER_PMSQ_WLEN 0) 15 ||| fieldOf (F.SER_PMSQ_LANES 0) 0 ||| fieldOf (F.SER_PMSQ_NTX 0) 255 ||| fieldOf
      (F.SER_PMSQ_NRX 0) 0)).nrx = 0) ∧ ((pmsEntry (fieldOf (F.SER_PMSQ_WLEN 0) 15 ||| fieldOf (F.SER_PMSQ_LANES 0) 0
      ||| fieldOf (F.SER_PMSQ_NTX 0) 255 ||| fieldOf (F.SER_PMSQ_NRX 0) 0)).lanes = 3 → a.bit (F.SER_PMSCFG_PAIR 3) =
      true))) = true := by
  decide +kernel

/-- States that meet the hypotheses of ServiceSelects, clause by clause. -/
theorem witness_ServiceSelects :
    meets (up.put F.SER_SVCSTAT_MODE 0 |>.put F.SER_SVCSTAT_ARMED 0 |>.modSvc (fun x =>
      { x with sel := false, selNext := false, stat := 8, addr := 4, data := 9 })) (fun a => decide (a.svcOn = true ∧
      a.ser.svc.pend = none)) = true ∧
    meets (up.put F.SER_SVCSTAT_MODE 2 |>.put F.SER_SVCSTAT_ARMED 1 |>.modSvc (fun x =>
      { x with sel := true, selNext := false, stat := 8, addr := 4, data := 9 })) (fun a => decide ((a.svcMode =
      mdBYPASS ∨ a.svcMode = mdSELECTED) ∧ a.svcOn = true ∧ a.ser.svc.pend = none)) = true ∧
    meets (up.put F.SER_SVCSTAT_MODE 0 |>.put F.SER_SVCSTAT_ARMED 1 |>.modSvc (fun x =>
      { x with sel := true, selNext := false, stat := 8, addr := 4, data := 9 })) (fun a => decide (a.svcMode =
      mdCHAIN ∧ crc8 64 0 ≠ 1 ∧ a.svcOn = true ∧ a.ser.svc.pend = none)) = true ∧
    meets (up.put F.SER_SVCSTAT_MODE 0 |>.put F.SER_SVCSTAT_ARMED 1 |>.modSvc (fun x =>
      { x with sel := true, selNext := false, stat := 8, addr := 4, data := 9 })) (fun a => decide (crc8 64
      (((BitVec.ofNat 72 (0xC000000000000000 * 256 + crc8 64 0xC000000000000000))).toNat / 256) = ((BitVec.ofNat 72
      (0xC000000000000000 * 256 + crc8 64 0xC000000000000000))).toNat % 256 ∧ ((BitVec.ofNat 72 (0xC000000000000000 *
      256 + crc8 64 0xC000000000000000))).toNat / 2 ^ 64 = 0xC0 ∧ a.svcOn = true ∧ a.ser.svc.pend = none)) = true := by
  decide +kernel

/-- States that meet the hypotheses of ServiceFrames, clause by clause. -/
theorem witness_ServiceFrames :
    meets (up.put F.SER_SVCSTAT_MODE 0 |>.put F.SER_SVCSTAT_ARMED 0 |>.modSvc (fun x =>
      { x with sel := true, ptrSet := true }) |>.put F.SER_SVCSTAT_PTR (A.FBK_CMPINC 7 3 - 4) |>.wr (A.FBK_CMPINC 7 3)
      0x89ABCDEF) (fun a => decide (a.svcOn = true ∧ a.svcMode ≠ mdBYPASS ∧ a.ser.svc.pend = none)) = true ∧
    meets (up.put F.SER_SVCSTAT_MODE 0 |>.put F.SER_SVCSTAT_ARMED 0 |>.modSvc (fun x =>
      { x with sel := true, ptrSet := true }) |>.put F.SER_SVCSTAT_PTR (A.FBK_CMPINC 7 3 - 4) |>.wr (A.FBK_CMPINC 7 3)
      0x89ABCDEF) (fun a => decide (a.svcOn = true ∧ a.svcMode ≠ mdBYPASS ∧ a.ser.svc.pend = none)) = true ∧
    meets (up.put F.SER_SVCSTAT_MODE 0 |>.put F.SER_SVCSTAT_ARMED 0 |>.modSvc (fun x =>
      { x with sel := true, ptrSet := true }) |>.put F.SER_SVCSTAT_PTR (A.FBK_CMPINC 7 3 - 4) |>.wr (A.FBK_CMPINC 7 3)
      0x89ABCDEF) (fun a => decide (a.load.locked = true ∧ a.svcOn = true ∧ a.svcMode ≠ mdBYPASS ∧ a.ser.svc.pend =
      none)) = true ∧
    meets (up.put F.SER_SVCSTAT_MODE 0 |>.put F.SER_SVCSTAT_ARMED 0 |>.modSvc (fun x =>
      { x with sel := true, ptrSet := true }) |>.put F.SER_SVCSTAT_PTR (A.FBK_CMPINC 7 3 - 4) |>.wr (A.FBK_CMPINC 7 3)
      0x89ABCDEF) (fun a => decide (a.get F.SER_SVCSTAT_PTR + 4 = (A.FBK_CMPINC 7 3) ∧ a.svcAtEnd = false ∧
      a.ser.svc.ptrSet = true ∧ a.svcOn = true ∧ a.svcMode ≠ mdBYPASS ∧ a.ser.svc.pend = none)) = true ∧
    meets (up.put F.SER_SVCSTAT_MODE 0 |>.put F.SER_SVCSTAT_ARMED 0 |>.modSvc (fun x =>
      { x with sel := true, ptrSet := true }) |>.put F.SER_SVCSTAT_PTR (A.FBK_CMPINC 7 3 - 4) |>.wr (A.FBK_CMPINC 7 3)
      0x89ABCDEF) (fun a => decide (a.takes .svc (A.FBK_CMPINC 7 3) = true ∧ a.svcOn = true ∧ a.svcMode ≠ mdBYPASS ∧
      a.ser.svc.pend = none)) = true ∧
    meets (up.put F.SER_SVCSTAT_MODE 0 |>.put F.SER_SVCSTAT_ARMED 0 |>.modSvc (fun x =>
      { x with sel := true, ptrSet := true }) |>.put F.SER_SVCSTAT_PTR (A.FBK_CMPINC 7 3 - 4) |>.wr (A.FBK_CMPINC 7 3)
      0x89ABCDEF) (fun a => decide (a.takes .svc (A.FBK_CMPINC 7 3) = true ∧ a.svcOn = true ∧ a.svcMode ≠ mdBYPASS ∧
      a.ser.svc.pend = none)) = true ∧
    meets
      ({ (up.put F.SER_SVCSTAT_MODE 0 |>.put F.SER_SVCSTAT_ARMED 0 |>.modSvc (fun x => { x with sel := true, ptrSet := true }) |>.put F.SER_SVCSTAT_PTR (A.FBK_CMPINC 7 3 - 4) |>.wr (A.FBK_CMPINC 7 3) 0x89ABCDEF) with tagsUse := 128 })
      (fun a => decide (a.svcMay true (A.FBK_CMPINC 7 3) = true ∧ a.tagFree = false ∧ a.svcOn = true ∧ a.svcMode ≠
      mdBYPASS ∧ a.ser.svc.pend = none)) = true ∧
    meets (up.put F.SER_SVCSTAT_MODE 0 |>.put F.SER_SVCSTAT_ARMED 0 |>.modSvc (fun x =>
      { x with sel := true, ptrSet := true }) |>.put F.SER_SVCSTAT_PTR 0x97FFC |>.wr (A.FBK_CMPINC 7 3) 0x89ABCDEF)
      (fun a => decide (a.ser.svc.ptrSet = true ∧ a.svcAtEnd = true ∧ a.svcOn = true ∧ a.svcMode ≠ mdBYPASS ∧
      a.ser.svc.pend = none)) = true ∧
    meets (up.put F.SER_SVCSTAT_MODE 0 |>.put F.SER_SVCSTAT_ARMED 0 |>.modSvc (fun x =>
      { x with sel := true, ptrSet := true }) |>.put F.SER_SVCSTAT_PTR 0x97FFC |>.wr (A.FBK_CMPINC 7 3) 0x89ABCDEF)
      (fun a => decide (a.ser.svc.ptrSet = true ∧ a.svcAtEnd = true ∧ a.svcOn = true ∧ a.svcMode ≠ mdBYPASS ∧
      a.ser.svc.pend = none)) = true ∧
    meets (up.put F.SER_SVCSTAT_MODE 1 |>.put F.SER_SVCSTAT_ARMED 0 |>.modSvc (fun x =>
      { x with sel := true, ptrSet := true }) |>.put F.SER_SVCSTAT_PTR (A.FBK_CMPINC 7 3 - 4) |>.wr (A.FBK_CMPINC 7 3)
      0x89ABCDEF) (fun a => decide (a.svcOn = true ∧ a.svcMode ≠ mdBYPASS ∧ a.ser.svc.pend = none)) = true ∧
    meets (up.put F.SER_SVCSTAT_MODE 1 |>.put F.SER_SVCSTAT_ARMED 0 |>.modSvc (fun x =>
      { x with sel := true, ptrSet := true }) |>.put F.SER_SVCSTAT_PTR (A.FBK_CMPINC 7 3 - 4) |>.wr (A.FBK_CMPINC 7 3)
      0x89ABCDEF) (fun a => decide (a.svcOn = true ∧ a.svcMode ≠ mdBYPASS ∧ a.ser.svc.pend = none)) = true ∧
    meets (up.put F.SER_SVCSTAT_MODE 0 |>.put F.SER_SVCSTAT_ARMED 0 |>.modSvc (fun x =>
      { x with sel := true, ptrSet := true }) |>.put F.SER_SVCSTAT_PTR 0 |>.wr (A.FBK_CMPINC 7 3) 0x89ABCDEF) (fun a
      => decide (a.svcDenied true A.SER_FUSECTL = true ∧ a.svcOn = true ∧ a.svcMode ≠ mdBYPASS ∧ a.ser.svc.pend =
      none)) = true ∧
    meets (up.put F.SER_SVCSTAT_MODE 0 |>.put F.SER_SVCSTAT_ARMED 0 |>.modSvc (fun x =>
      { x with sel := true, ptrSet := true }) |>.put F.SER_SVCSTAT_PTR 0 |>.wr (A.FBK_CMPINC 7 3) 0x89ABCDEF) (fun a
      => decide ((a.svcDenied false 0x20000 = true ∨ a.svcDenied false (A.PDK_STAT + 0) = true ∨ true = true) ∧
      a.svcOn = true ∧ a.svcMode ≠ mdBYPASS ∧ a.ser.svc.pend = none)) = true := by
  decide +kernel

/-- States that meet the hypotheses of HousekeepingSlots, clause by clause. -/
theorem witness_HousekeepingSlots :
    meets ({ up with now := 9984 * 1, hk := { up.hk with roundAt := 0 } }) (fun a => decide (a.slotDue 0 = true)) =
      true ∧
    meets ({ up with now := 9984 * 17, hk := { up.hk with roundAt := 0 } }) (fun a => decide (a.slotDue 16 = true)) =
      true ∧
    meets ({ up with now := 9984 * 17, hk := { up.hk with roundAt := 0 } }) (fun a => decide (a.hk.vddAt[(0 : Fin 5)]
      = none)) = true ∧
    meets ({ up with now := 9984 * 22, hk := { up.hk with roundAt := 0 } } |>.put F.HKP_FEEDV_VB 99) (fun a => decide
      (a.slotDue 21 = true)) = true := by
  decide +kernel

/-- States that meet the hypotheses of HousekeepingEvaluation, clause by clause. -/
theorem witness_HousekeepingEvaluation :
    meets ((hot 400 (hotd.getI F.HKP_THWARN_TEMP)).put (F.TEAM_STAT_STATE 3) 3) (fun a => decide (a.tim.pll = true ∧
      a.now = a.hk.roundAt + 16 * slotTicks ∧ a.bit F.HKP_STAT_VALID = true ∧ a.hk.shut = none ∧ (List.finRange
      16).all (fun i => !(a.hk.ts[i]).lost && ((a.hk.ts[i]).reading.map (fun r => (a.hk.ts[i]).plausible r (a.get
      F.HKP_TSCFG_JUMP))) == some true))) = true ∧
    meets ((hot 400 2801)) (fun a => decide ((a.hk.ts[(9 : Fin 16)]).plausible 2801 (a.get F.HKP_TSCFG_JUMP) = false ∧
      0 < a.get F.HKP_TSCFG_RECN ∧ a.tim.pll = true ∧ a.now = a.hk.roundAt + 16 * slotTicks ∧ a.bit F.HKP_STAT_VALID =
      true ∧ a.hk.shut = none)) = true := by
  decide +kernel

/-- States that meet the hypotheses of ShutdownSteps, clause by clause. -/
theorem witness_ShutdownSteps :
    meets
      ({ (up.modSer (fun x => { x with run := some ⟨.prog 0x503 [1, 2] .supA, 5, false, false⟩, lines := [(0x500, []), (0x1000, [])] }) |>.put F.SER_FLSCTL_VERIFY 1) with now := 100000000, hk := { up.hk with shut := some { td := 5, dev := 6, cause := 0, flashDone := false, flashEnd := 0, aborted := false } }, shutRec := ⟨true, false, 0, 6, 0, 0⟩ })
      (fun a => decide (a.hk.shut = some
      { td := 5, dev := 6, cause := 0, flashDone := false, flashEnd := 0, aborted := false } ∧ 5 + a.get
      F.HKP_SHDCFG_GRACE * 156250 ≤ a.now)) = true ∧
    meets
      ({ up with hk := { up.hk with shut := some { td := 5, dev := 6, cause := 0, flashDone := false, flashEnd := 0, aborted := false } } }
      |>.modLeg 5 (fun l => { l with gh := true, gm := true }) |>.put F.YOK_STAT_ACTOUT 1) (fun a => decide
      (a.tim.stopped = false ∧ 5 + 4096 ≤ a.now ∧ a.ser.run = none ∧ a.hk.shut = some
      { td := 5, dev := 6, cause := 0, flashDone := false, flashEnd := 0, aborted := false })) = true := by
  decide +kernel

/-- States that meet the hypotheses of CabinetFeeds, clause by clause. -/
theorem witness_CabinetFeeds :
    meets
      ({ up with hk := { up.hk with feedsOn := true, live := .a, enA := true, enB := false, feedA := { FeedSt.reset with healthy := false, freeAt := 5 }, feedB := { FeedSt.reset with healthy := true, freeAt := 5 } } }
      |>.put F.HKP_FEEDCFG_OVL 7) (fun a => decide (a.hk.feedsOn = true ∧ (a.hk.feedB).healthy = true ∧
      (a.hk.feedB).bad = false)) = true ∧
    meets
      ({ up with hk := { up.hk with feedsOn := true, live := .a, enA := true, enB := false, feedA := { FeedSt.reset with healthy := false, freeAt := 5 }, feedB := { FeedSt.reset with healthy := false, freeAt := 5 } } }
      |>.put F.HKP_FEEDCFG_OVL 7) (fun a => decide ((a.hk.feedB).healthy = false)) = true ∧
    meets
      ({ ({ up with hk := { up.hk with feedsOn := true, live := .a, enA := true, enB := false, feedA := { FeedSt.reset with healthy := false, freeAt := 5 }, feedB := { FeedSt.reset with healthy := false, freeAt := 5 } } } |>.put F.HKP_FEEDCFG_OVL 7) with now := 3125005 })
      (fun a => decide ((a.hk.feedA).free = true ∧ (a.hk.feedA).freeAt + 3125000 ≤ a.now)) = true ∧
    meets
      ({ ({ up with hk := { up.hk with feedsOn := true, live := .a, enA := true, enB := false, feedA := { FeedSt.reset with healthy := false, freeAt := 5 }, feedB := { FeedSt.reset with healthy := true, freeAt := 5 } } } |>.put F.HKP_FEEDCFG_OVL 7 |>.put F.HKP_FEEDCFG_REVERT 1 |>.put F.HKP_FEEDCFG_PREF 1) with now := 400000000 })
      (fun a => decide (a.bit F.HKP_FEEDCFG_REVERT = true ∧ a.bit F.HKP_FEEDCFG_PREF = true ∧ (a.hk.feedB).healthyAt +
      312500000 ≤ a.now)) = true := by
  decide +kernel

/-- States that meet the hypotheses of FaultLog, clause by clause. -/
theorem witness_FaultLog :
    meets (up.wr A.EVT_LOGWRCTX 0xFEDCBA98 |>.modJrn (fun j => { j with queue := List.replicate 63 ⟨1, 2, 3, 0⟩ })
      |>.put F.SER_SVCSTAT_MODE 1) (fun a => decide (a.takes .supA A.EVT_LOGWR = true ∧ a.clkOn = true)) = true ∧
    meets (up.modJrn (fun j =>
      { j with queue := [⟨1, 2, 3, 0⟩, ⟨4, 5, 6, 0⟩], ready := true, sector := 0, slot := 0, log := [⟨0, 3, 4, ⟨9, 9, 9, 0⟩⟩, ⟨1, 0, 5, ⟨8, 8, 8, 0⟩⟩] })
      |>.modLoad (fun l => { l with jrnLen := 4096 * 3 }) |>.wr A.EVT_LOGSEQ 0xFFFFFFFF) (fun a => decide (a.jrnBusy =
      true ∧ a.jrn.slot < 127 ∧ 1 < a.jrnSectors ∧ a.jrn.sector < a.jrnSectors ∧ a.clkOn = true ∧ a.takes .supA
      A.EVT_LOGWR = true)) = true ∧
    meets (up.modJrn (fun j =>
      { j with queue := [⟨1, 2, 3, 0⟩, ⟨4, 5, 6, 0⟩], ready := true, sector := 2, slot := 126, log := [⟨0, 3, 4, ⟨9, 9, 9, 0⟩⟩, ⟨1, 0, 5, ⟨8, 8, 8, 0⟩⟩] })
      |>.modLoad (fun l => { l with jrnLen := 4096 * 3 }) |>.wr A.EVT_LOGSEQ 0xFFFFFFFF) (fun a => decide (a.clkOn =
      true ∧ a.takes .supA A.EVT_LOGWR = true)) = true ∧
    meets ((up.modJrn (fun j =>
      { j with queue := [⟨1, 2, 3, 0⟩, ⟨4, 5, 6, 0⟩], ready := true, sector := 0, slot := 0, log := [⟨0, 3, 4, ⟨9, 9, 9, 0⟩⟩, ⟨1, 0, 5, ⟨8, 8, 8, 0⟩⟩] })
      |>.modLoad (fun l => { l with jrnLen := 4096 * 3 }) |>.wr A.EVT_LOGSEQ 0xFFFFFFFF).put F.EVT_LOGSTAT_SCAN 1)
      (fun a => decide (a.bit F.EVT_LOGSTAT_SCAN = true ∧ a.clkOn = true ∧ a.takes .supA A.EVT_LOGWR = true)) = true ∧
    meets ((up.modJrn (fun j =>
      { j with queue := [⟨1, 2, 3, 0⟩, ⟨4, 5, 6, 0⟩], ready := true, sector := 0, slot := 0, log := [⟨0, 3, 4, ⟨9, 9, 9, 0⟩⟩, ⟨1, 0, 5, ⟨8, 8, 8, 0⟩⟩] })
      |>.modLoad (fun l => { l with jrnLen := 4096 * 3 }) |>.wr A.EVT_LOGSEQ 0xFFFFFFFF).put F.EVT_LOGSTAT_SCAN 1)
      (fun a => decide (1 < a.jrnSectors ∧ a.clkOn = true ∧ a.takes .supA A.EVT_LOGWR = true)) = true := by
  decide +kernel

/-- States that meet the hypotheses of AppliedSections. -/
theorem witness_AppliedSections : apS.applyPaddock.ilkReq 0 = true := by decide +kernel

/-- States that meet the hypotheses of OperationWords: the largest fields. -/
theorem witness_OperationWords :
    let o : Op := ⟨63, 3, 1023, 1023, 15⟩
    o.opc < 64 ∧ o.a < 4 ∧ o.x < 1024 ∧ o.y < 1024 ∧ o.m < 16 := by decide +kernel

/-- A state that meets the hypotheses of StepsKeepCanonical: at reset, the step answers a next state. -/
theorem witness_StepsKeepCanonical : State.reset.canon = true ∧ ∃ u, step State.reset = .next u :=
  ⟨by decide +kernel, _, rfl⟩

/-- States for further clauses of CabinetFeeds, Fuses, ServiceFrames, HousekeepingSlots, HousekeepingEvaluation and FaultLog. -/
theorem witness_further_ports :
    meets (up.modHk (fun h => { h with ovlEnd := some (5, true), enA := true, enB := true, live := .a, feedsOn := true }))
      (fun a => decide (a.hk.ovlEnd = some (5, true) ∧ 5 ≤ a.now)) = true ∧
    meets (up.modHk (fun h => { h with ovlEnd := some (1000000, false) }))
      (fun a => decide (a.hk.ovlEnd = some (1000000, false) ∧ 1000000 ≤ a.now)) = true ∧
    meets (up.modSer (fun x => { x with fuseOp := some (.floor 63) })) (fun a => decide (a.ser.fuseOp = some (.floor 63))) = true ∧
    meets ((up.put F.SER_SVCSTAT_MODE 1 |>.put F.SER_SVCSTAT_ARMED 1).put (F.TEAM_STAT_STATE 3) 3)
      (fun a => decide (a.ser.fuseOp = none ∧ a.takes .svc A.SER_FUSECTL = true ∧ a.tstate 3 = stRUN)) = true ∧
    meets (up.put F.SER_SVCSTAT_MODE 1) (fun a => decide (a.svcMode = mdSELECTED ∧ a.svcOn = true ∧ a.ser.svc.pend = none
      ∧ a.svcDenied true A.SER_FUSECTL = true)) = true ∧
    meets (up.put F.SER_SVCSTAT_MODE 0) (fun a => decide (a.svcMode = mdCHAIN ∧ a.svcDenied false A.PDK_STAT = true)) = true ∧
    meets { up with now := 9984 * 24, hk := { up.hk with roundAt := 0 } } (fun a => decide (a.slotDue 23 = true)) = true ∧
    meets (hot 400 2240) (fun a => decide (a.getI F.HKP_THSHD_TEMP ≤ 2240 ∧ a.hk.shut = none)) = true ∧
    meets (up.modJrn (fun j => { j with queue := List.replicate 64 ⟨1, 2, 3, 0⟩ }))
      (fun a => decide (64 ≤ a.jrn.queue.length)) = true := by
  decide +kernel

/-- States for further clauses of the engine's operations and of PositionCompares: a skipped operation, a rounded store that
saturates, an armed compare unit. -/
theorem witness_further_units :
    meets (ceOn ⟨4, 0, 1, 0, 0⟩ |> (fun u : State => { u with ce := { u.ce with lanes := u.ce.lanes.set 15 (some { run0 with skip := 3 }) } }))
      (fun a => decide ((a.ce.lanes[15]).map (fun r => r.skip) = some 3)) = true ∧
    meets (ceOn ⟨0x20, 0, 65, 0, 3⟩ |> (fun u : State => { u with ce := { u.ce with lanes := u.ce.lanes.set 15 (some { run0 with accs := #v[BitVec.ofInt 72 (2 ^ 61), 0, 0, 0] }) } }))
      (fun a => decide ((a.ce.lanes[15]).map (fun r => r.accs[0].toInt) = some (2 ^ 61))) = true ∧
    meets ((up.put (F.FBK_CFG_MODE 7) 1).put (F.FBK_CMPCFG_EN 7 3) 1)
      (fun a => decide (a.bit (F.FBK_CMPCFG_EN 7 3) = true ∧ a.takes .supA (A.FBK_CMPTGT 7 3) = true)) = true := by
  decide +kernel

/-- A state for RankOrder: a stop of SAFE_N comes after a service frame of its tick. -/
theorem witness_RankOrder :
    let s : State := { up with acted := [.svcNop 1000000], actedAt := 1000000, base := up.toBody }
    let a := s.advance 1000000
    let c : Instr := .safeNLow ⟨1000000, 999981⟩
    tickOf c = some 1000000 ∧ a.inTurn c = false
      ∧ (a.replay (a.actedNow.takeWhile (fun d => !comesBefore c d))).finds c = true ∧ insertTurn c a.actedNow = [c, .svcNop 1000000] := by
  decide +kernel

/-- States for StartUpBalls, ModulatorClock and SsiClock. -/
theorem witness_Balls :
    State.reset.tim.under = true ∧ up.tim.under = false ∧ up.get F.IDG_LOADSTAT_PHASE < 10 ∧ up.hk.feedsOn = false
      ∧ (let s := { (up.put (F.SDM_CKCFG_EN 7) 1).put (F.SDM_CKCFG_PH 7) 15 with sdmCk := up.sdmCk.set 7 (some ⟨999999, none⟩) }
        s.sdmCk[(7 : Fin 8)] = some ⟨999999, none⟩ ∧ s.bit (F.SDM_CKCFG_EN 7) = true ∧ 999999 ≤ s.now ∧ 16 ≤ s.now)
      ∧ (let s := (up.put F.IDG_LOADSTAT_PHASE 12).put (F.FBK_CFG_MODE 7) fmSSI
        s.get F.IDG_LOADSTAT_PHASE = 12 ∧ s.load.failed = false ∧ s.fbkMode 7 = fmSSI ∧ (s.port 7).ssiT0 = none
          ∧ (s.port 7).ssiEnd ≤ s.now) := by
  decide +kernel

end Sys2Proof.Tests
end

section
/-!
PROOFS. Chapter 02, device time: a master's write that takes a general tag (R26), the owner rule of R62, and the limits of
R59 on rate and slew.
-/
namespace Sys2Proof.Machine

/-! ## The general tag of a write (R26) -/

section Tag
variable (s : State) (n : Nat)

@[simp] theorem State.putMax_tim (f : Fld) : (s.putMax f n).tim = s.tim := by
  unfold State.putMax; split <;> simp

@[simp] theorem State.putMax_load (f : Fld) : (s.putMax f n).load = s.load := by
  unfold State.putMax; split <;> simp

@[simp] theorem State.tagSet_tim : (s.tagSet n).tim = s.tim := by
  rw [State.tagSet, State.raiseMax, State.noteUp_tim, State.putMax_tim, State.put_tim]

@[simp] theorem State.tagSet_load : (s.tagSet n).load = s.load := by
  rw [State.tagSet, State.raiseMax, State.noteUp_load, State.putMax_load, State.put_load]

/-- Storing the tags in use writes EVT_TAGHWM and no other register. -/
theorem State.rd_tagSet_ne {b : Nat} (h : b ≠ A.EVT_TAGHWM) : (s.tagSet n).rd b = s.rd b := by
  unfold State.tagSet State.raiseMax State.putMax
  rw [State.noteUp_rd]
  split
  · rw [State.rd_put_ne _ _ h, State.rd_put_ne _ _ h]; rfl
  · rw [State.rd_put_ne _ _ h]; rfl

theorem State.get_tagSet_word {g : Fld} (h : g.addr ≠ A.EVT_TAGHWM) : (s.tagSet n).get g = s.get g := by
  unfold State.get; rw [State.rd_tagSet_ne s n h]

@[simp] theorem State.tagged_tim : s.tagged.tim = s.tim := s.tagSet_tim _
@[simp] theorem State.tagged_load : s.tagged.load = s.load := s.tagSet_load _

/-- The owner of device time is the same once the write holds its tag. -/
@[simp] theorem State.tagged_timOwner (w : Writer) : s.tagged.timOwner w = s.timOwner w := by
  unfold State.timOwner State.tagged
  rw [State.get_tagSet_word s _ (g := F.TIM_CTL_SRC) (by decide)]

end Tag

/-! ## A write that takes effect -/

section Taken
variable {s : State} {m : Master} {a : Nat}

theorem State.takes_iff : s.takes m a = true ↔
    s.mayReach m true a = true ∧ s.tagFree = true ∧ s.stalled = [] ∧ (s.load.locked && s.lockListed a) = false := by
  simp only [State.takes, Bool.and_eq_true, Bool.not_eq_true', List.isEmpty_iff, and_assoc]

/-- A write that takes effect acts in the state that holds its tag, whichever master makes it. -/
theorem State.masterWrite_takes (v : Word) (h : s.takes m a = true) :
    s.masterWrite m a v = s.tagged.writeReg m.writer a v := by
  obtain ⟨hreach, htag, hfree, -⟩ := State.takes_iff.mp h
  cases hp : m.pair with
  | some r => rw [s.masterWrite_pair m a v r hreach hp, s.issue_takes a v m.writer htag hfree]; rfl
  | none =>
    obtain rfl : m = .svc := by cases m <;> simp_all [Master.pair]
    rw [s.masterWrite_svc .svc a v hreach hp, State.svcIssue, if_pos (s.mayIssue_free _ htag hfree)]; rfl

/-- The lock list bars a write that takes effect neither before nor after it took its tag. -/
theorem State.tagged_lockGuard (w : Writer) (v : Word) (f : State → State) (h : s.takes m a = true) :
    s.tagged.lockGuard w a v f = f s.tagged := by
  obtain ⟨-, -, -, hopen⟩ := State.takes_iff.mp h
  have hbyte : s.tagged.pdkByte = s.pdkByte := by funext i; rw [State.pdkByte, State.tagged_load]; rfl
  have hle : s.tagged.pdkLe = s.pdkLe := by funext i n; rw [State.pdkLe, hbyte]; rfl
  have hlisted : s.tagged.lockListed a = s.lockListed a := by rw [State.lockListed, hle]; rfl
  simp [State.lockGuard, hlisted, hopen]

theorem State.registerWrite_word (v : Word) (h : a % 4 = 0) : s.registerWrite m a v .word = s.masterWrite m a v := by
  cases m <;> simp [State.registerWrite, h, Nat.div_mul_cancel (Nat.dvd_of_mod_eq_zero h)]

end Taken

/-! ## The words that R62 gives to the owner of device time -/

section Owned
variable {s : State} {m : Master} {w : Writer} {a : Nat} {v : Word}

/-- TIM_RATE, TIM_SLEW and TIM_STEP0 to TIM_STEP2. -/
def ownedWords : List Nat := [A.TIM_RATE, A.TIM_SLEW, A.TIM_STEP0, A.TIM_STEP1, A.TIM_STEP2]

/-- Each of them is an aligned word of the TIM block and the first word of its register. -/
theorem ownedWords_mapped : ∀ a ∈ ownedWords, a % 4 = 0 ∧ a < 0x20000 ∧ a ≠ A.IDG_PINCFG 0
    ∧ (regAt a).map (fun e => e.1.base) = some a := by
  decide +kernel

theorem State.winKey_below (h : a < 0x0A4000) : s.winKey a = none := by
  unfold State.winKey
  repeat rw [if_neg (by omega)]

/-- A write to an owned word goes to its register, past the lock list. -/
theorem State.tagged_writeReg_owned (ha : a ∈ ownedWords) (h : s.takes m a = true) {u : State}
    (hact : ∀ r idx, r.base = a → s.tagged.actWrite w r idx a v = some u) : s.tagged.writeReg w a v = u := by
  obtain ⟨-, hlow, hpin, hmap⟩ := ownedWords_mapped a ha
  obtain ⟨⟨r, idx⟩, hreg, hbase⟩ := Option.map_eq_some_iff.mp hmap
  rw [State.writeReg, if_neg (by unfold unmappedFrom; omega), if_neg (by omega), State.winKey_below (by omega), hreg]
  dsimp only
  rw [if_neg (fun c => hpin (hbase ▸ c.1)), State.regWrite, State.tagged_lockGuard _ _ _ h, hact r _ hbase]

/-- A writer that does not own device time gets nowhere at an owned word but to WR_IGN. -/
theorem State.actWrite_not_owner {r : RegDef} {idx : List Nat} (hr : r.base ∈ ownedWords) (ho : s.timOwner w = false) :
    s.actWrite w r idx a v = some s.timIgnored := by
  simp only [ownedWords, List.mem_cons, List.not_mem_nil, or_false] at hr
  rcases hr with hr | hr | hr | hr | hr <;>
    simp [State.actWrite, hr, A.IDG_RESTART, A.TIM_RATE, A.TIM_SLEW, A.TIM_SLEWCFG, A.TIM_STEP0, A.TIM_STEP1, A.TIM_STEP2,
      State.rateWrite, State.slewWrite, State.stepWordWrite, ho]

/-- A master other than the owner writes an owned word: the write takes its tag and is discarded (R62). -/
theorem State.masterWrite_not_owner (ha : a ∈ ownedWords) (h : s.takes m a = true) (ho : s.timOwner m.writer = false) :
    s.masterWrite m a v = s.tagged.timIgnored := by
  rw [State.masterWrite_takes v h]
  refine State.tagged_writeReg_owned ha h fun r idx hr => State.actWrite_not_owner (hr ▸ ha) ?_
  rw [State.tagged_timOwner, ho]

/-- Supervisor firmware owns device time under SRC = 0b11, and no other master ever does (R62). -/
theorem State.timOwner_master : s.timOwner m.writer = true ↔ s.get F.TIM_CTL_SRC = 3 ∧ m ≠ .svc := by
  cases m <;> simp [State.timOwner, Master.writer, Writer.isFw]

/-- A write that the owner rule discards leaves WR_IGN, and beside it only its general tag. -/
theorem State.timIgnored_frame : s.tagged.timIgnored.get F.TIM_STAT_WR_IGN = 1 ∧ s.tagged.timIgnored.tim = s.tim
    ∧ RegsBut [A.TIM_STAT, A.EVT_TAGHWM] s s.tagged.timIgnored := by
  refine ⟨State.get_raise_same _ (by decide) rfl, by rw [State.timIgnored, State.raise_tim, State.tagged_tim], ?_⟩
  intro b hb
  obtain ⟨hstat, htag⟩ : b ≠ A.TIM_STAT ∧ b ≠ A.EVT_TAGHWM := by simpa using hb
  rw [State.timIgnored, State.raise_rd, State.rd_put_ne _ _ hstat, State.tagged, State.rd_tagSet_ne _ _ htag]

end Owned

theorem exec_registerWrite_inTurn (s : State) (t : Tick) (m : Master) (b : BitVec 24) (v : Word) (w : Width)
    (h : (s.advance t).inTurn (.registerWrite t m b v w) = true) :
    exec (.registerWrite t m b v w) s = .next (((s.advance t).registerWrite m b.toNat v w).yokCheck.after (s.advance t)
      (.registerWrite t m b v w)) :=
  congrArg Host.Outcome.next (s.command_inTurn t _ h)

/-- Settles O42: an owned word goes to its register's own write, which asks for the owner, and a master is the owner under
SRC = 0b11 alone, the service port never. -/
theorem timeOwnership : Obligations.TimeOwnership := by
  unfold Obligations.TimeOwnership
  intro s t m v x a hx htakes howner hturn
  obtain ⟨haligned, hlow, -, -⟩ := ownedWords_mapped x hx
  have haddr : (BitVec.ofNat 24 x).toNat = x := by rw [BitVec.toNat_ofNat, Nat.mod_eq_of_lt (by omega)]
  have hother : a.timOwner m.writer = false := by
    rw [Bool.eq_false_iff, Ne, State.timOwner_master]; tauto
  refine ⟨a.tagged.timIgnored, ?_, State.timIgnored_frame⟩
  rw [exec_registerWrite_inTurn s t m _ v .word hturn, haddr, State.registerWrite_word v haligned,
    State.masterWrite_not_owner hx htakes hother]

/-! ## The rate clamp and the headroom of a slew (R59) -/

section Rate
variable (s : State) (n : Nat)

/-- What the limit of R59 stores for a rate outside it, and that it is outside. -/
theorem clampI_rate_outside {r : Int} (h : r < -65970697 ∨ 65970697 < r) :
    clampI (-65970697) 65970697 r = (if r < 0 then -65970697 else 65970697) ∧ clampI (-65970697) 65970697 r ≠ r := by
  unfold clampI; split_ifs <;> omega

/-- A rate outside the limits is stored at the limit, and RATE_CLAMP is set. -/
theorem State.rateSet_outside {r : Int} (h : r < -65970697 ∨ 65970697 < r) :
    ((s.rateSet r).rd A.TIM_RATE).toInt = (if r < 0 then -65970697 else 65970697)
      ∧ (s.rateSet r).get F.TIM_STAT_RATE_CLAMP = 1 := by
  obtain ⟨hlimit, hne⟩ := clampI_rate_outside h
  rw [State.rateSet, if_neg hne, hlimit]
  refine ⟨?_, State.get_raise_same _ (by decide) rfl⟩
  rw [State.raise_rd, State.rd_put_ne _ _ (by decide), State.rd_wr_same]
  split <;> rfl

/-- The owner's write to TIM_RATE sets the rate. -/
theorem State.masterWrite_rate {m : Master} (v : Word) (h : s.takes m A.TIM_RATE = true)
    (ho : s.timOwner m.writer = true) : s.masterWrite m A.TIM_RATE v = s.tagged.rateSet v.toInt := by
  rw [State.masterWrite_takes v h]
  refine State.tagged_writeReg_owned (by decide) h fun r idx hr => ?_
  simp [State.actWrite, hr, A.TIM_RATE, A.IDG_RESTART, State.rateWrite, ho, wInt]

/-- TIM_RATE_WRITE by the owner, outside the limits (R59). -/
theorem exec_timRateWrite_outside (t : Tick) (m : Master) (v : Word) (h : (s.advance t).takes m A.TIM_RATE = true)
    (ho : (s.advance t).timOwner m.writer = true) (hv : v.toInt < -65970697 ∨ 65970697 < v.toInt)
    (hturn : (s.advance t).inTurn (.timRateWrite t m v) = true) :
    ∃ u : State, exec (.timRateWrite t m v) s = .next (u.yokCheck.after (s.advance t) (.timRateWrite t m v))
      ∧ (u.rd A.TIM_RATE).toInt = (if v.toInt < 0 then -65970697 else 65970697) ∧ u.get F.TIM_STAT_RATE_CLAMP = 1 := by
  refine ⟨(s.advance t).tagged.rateSet v.toInt, ?_, State.rateSet_outside _ hv⟩
  rw [← State.masterWrite_rate _ v h ho]
  exact congrArg Host.Outcome.next (s.command_inTurn t _ hturn)

theorem State.slewStep_nonneg (up : Bool) : 0 ≤ s.slewStep up := le_max_left ..

/-- A frozen control word slews nothing out (R46). -/
theorem State.slewAfter_frozen (h : s.tim.frozen.isSome = true) : s.slewAfter n = s.tim.slew := by
  simp [State.slewAfter, h]

/-- While the control word is not frozen, what is left of an offset upwards falls by the headroom of each tick (R58). -/
theorem State.slewAfter_of_nonneg (h : s.tim.frozen = none) (hr : 0 ≤ s.tim.slew) :
    s.slewAfter n = s.tim.slew - min s.tim.slew (n * s.slewStep true) := by
  have hup : 0 ≤ n * s.slewStep true := Int.mul_nonneg (Int.natCast_nonneg n) (s.slewStep_nonneg _)
  have hdown : 0 ≤ n * s.slewStep false := Int.mul_nonneg (Int.natCast_nonneg n) (s.slewStep_nonneg _)
  simp only [State.slewAfter, h, Option.isSome_none, Bool.false_eq_true, if_false]
  split <;> omega

/-- The same of an offset downwards. -/
theorem State.slewAfter_of_nonpos (h : s.tim.frozen = none) (hr : s.tim.slew ≤ 0) :
    s.slewAfter n = s.tim.slew + min (-s.tim.slew) (n * s.slewStep false) := by
  have hdown : 0 ≤ n * s.slewStep false := Int.mul_nonneg (Int.natCast_nonneg n) (s.slewStep_nonneg _)
  simp only [State.slewAfter, h, Option.isSome_none, Bool.false_eq_true, if_false]
  split <;> omega

end Rate

/-- A device whose root PLL runs, with one fine step left to slew. -/
def slewing : State :=
  { State.reset with
    tim := { TimSt.reset with under := false, booting := true, pll := true, run := true, slew := slewUnit } }

/-- It loses its reference (REFERENCE_FAULT): the PLL control word is frozen with the offset still to slew (R46). -/
def slewFrozen : State := slewing.command 0 (.referenceFault 0 true)

theorem slewFrozen_advance : (slewFrozen.advance 0).tim.frozen.isSome = true ∧ 0 < (slewFrozen.advance 0).tim.slew
    ∧ 0 < (slewFrozen.advance 0).slewStep true := by
  decide +kernel

/-- Refutes O41: after a reference fault the control word is frozen (R46), and a remaining offset stays however many ticks
pass, where the statement has the headroom's share of each tick taken from it.  Its first clause stands
(`exec_timRateWrite_outside`), and the other two stand while no control word is frozen (`State.slewAfter_of_nonneg`,
`State.slewAfter_of_nonpos`). -/
theorem not_rateLimits : ¬ Obligations.RateLimits := by
  unfold Obligations.RateLimits
  intro h
  obtain ⟨-, hslew, -⟩ := h slewFrozen 0 .supA 0 1
  obtain ⟨hfrozen, hleft, hstep⟩ := slewFrozen_advance
  have hdrop := hslew hleft.le
  rw [State.slewAfter_frozen _ _ hfrozen] at hdrop
  omega

end Sys2Proof.Machine
end

section
/-!
PROOFS. Chapter 07, teams: a write to TEAM_CTL.EN, which enters WAIT or is refused (R185, R187), and the return of SAFE_N
(R328).
-/
namespace Sys2Proof.Machine

/-! ## What a general tag leaves unchanged (R26) -/

section TagFrame
variable (s : State) (n : Nat)

/-- A field and a maximum, stored one after the other, change the register file and the record of the tick alone. -/
theorem State.put_raiseMax_frame (f g : Fld) (k : Nat) :
    ∃ regs same, (s.put f k).raiseMax g n = { s with regs := regs, same := same } := by
  unfold State.raiseMax State.putMax
  split <;> exact ⟨_, _, rfl⟩

/-- Storing the tags in use changes the register file, the record of the tick and that number, and nothing else. -/
theorem State.tagSet_frame : ∃ regs same, s.tagSet n = { s with regs := regs, same := same, tagsUse := n } :=
  State.put_raiseMax_frame { s with tagsUse := n } n F.EVT_TAGHWM_NOW F.EVT_TAGHWM_HWM n

@[simp] theorem State.tagSet_safe : (s.tagSet n).safe = s.safe := by
  obtain ⟨_, _, h⟩ := s.tagSet_frame n; rw [h]

@[simp] theorem State.tagSet_teams : (s.tagSet n).teams = s.teams := by
  obtain ⟨_, _, h⟩ := s.tagSet_frame n; rw [h]

/-- A write that holds its tag and only sets a W1C bit. -/
theorem State.tagged_raise_eq (f : Fld) :
    s.tagged.raise f
      = { s with regs := (s.tagged.raise f).regs, same := (s.tagged.raise f).same, tagsUse := s.tagsUse + 1 } := by
  obtain ⟨_, _, h⟩ := s.tagSet_frame (s.tagsUse + 1)
  rw [State.tagged, h]; rfl

/-- Such a write changes the bit's word and EVT_TAGHWM. -/
theorem State.tagged_raise_regsBut (f : Fld) : RegsBut [f.addr, A.EVT_TAGHWM] s (s.tagged.raise f) := by
  intro b hb
  obtain ⟨hword, htag⟩ : b ≠ f.addr ∧ b ≠ A.EVT_TAGHWM := by simpa using hb
  rw [State.raise_rd, State.rd_put_ne _ _ hword, State.tagged, State.rd_tagSet_ne _ _ htag]

end TagFrame

/-! ## The words of a team -/

section TeamWords
variable (s : State) (tm : Fin 24)

theorem teamStat_ne_tagHwm : A.TEAM_STAT tm ≠ A.EVT_TAGHWM := by unfold A.TEAM_STAT A.EVT_TAGHWM; omega

theorem teamCtl_ne_tagHwm : A.TEAM_CTL tm ≠ A.EVT_TAGHWM := by unfold A.TEAM_CTL A.EVT_TAGHWM; omega

theorem teamCtl_ne_teamStat (r : Fin 24) : A.TEAM_CTL tm ≠ A.TEAM_STAT r := by unfold A.TEAM_CTL A.TEAM_STAT; omega

@[simp] theorem State.tagged_tstate : s.tagged.tstate tm = s.tstate tm :=
  State.get_tagSet_word _ _ (teamStat_ne_tagHwm tm)

@[simp] theorem State.tagged_get_en : s.tagged.get (F.TEAM_CTL_EN tm) = s.get (F.TEAM_CTL_EN tm) :=
  State.get_tagSet_word _ _ (teamCtl_ne_tagHwm tm)

/-- A write's tag decides nothing about SAFE_N. -/
@[simp] theorem State.tagged_safeLow : s.tagged.safeLow = s.safeLow := by
  unfold State.safeLow State.bit State.tagged
  rw [State.tagSet_safe, State.get_tagSet_word s _ (g := F.IDG_INBAND_SAFE_N) (by decide)]

@[simp] theorem State.tagged_team : s.tagged.team tm = s.team tm := by
  unfold State.team State.tagged; rw [State.tagSet_teams]

theorem State.safeLow_iff : s.safeLow = true ↔ s.safe.filtLow = true ∨ s.bit F.IDG_INBAND_SAFE_N = true := by
  simp [State.safeLow]

end TeamWords

/-! ## A write to TEAM_CTL (R205) -/

section TeamCtl
variable {s : State} {m : Master} {w : Writer} {tm : Fin 24} {v : Word}

/-- The address of a team's TEAM_CTL finds that register, with the team as its index. -/
theorem teamCtl_mapped : ∀ tm : Fin 24,
    (regAt (A.TEAM_CTL tm)).map (fun e => (e.1.base, e.2)) = some (A.TEAM_CTL 0, [tm.val]) := by
  decide +kernel

theorem State.actWrite_teamCtl {r : RegDef} {a : Nat} (hr : r.base = A.TEAM_CTL 0) :
    s.actWrite w r [tm.val] a v = some (s.ctlWrite w tm v) := by
  simp [State.actWrite, hr, finOf, A.TEAM_CTL, A.IDG_RESTART, A.TIM_RATE, A.TIM_SLEW, A.TIM_SLEWCFG, A.TIM_STEP0,
    A.TIM_STEP1, A.TIM_STEP2, A.TIM_STEPCTL, A.LEG_OVR, A.LEG_TRIPCLR]

/-- A master's write to TEAM_CTL that takes effect holds its tag and goes to its team. -/
theorem State.masterWrite_teamCtl (h : s.takes m (A.TEAM_CTL tm) = true) :
    s.masterWrite m (A.TEAM_CTL tm) v
      = s.tagged.teamCtlWrite tm (wbit v (F.TEAM_CTL_EN tm)) (wbit v (F.TEAM_CTL_RESUME tm)) := by
  obtain ⟨⟨r, idx⟩, hreg, hinst⟩ := Option.map_eq_some_iff.mp (teamCtl_mapped tm)
  obtain ⟨hbase, rfl⟩ := Prod.mk.inj hinst
  have haddr : 0x60050 ≤ A.TEAM_CTL tm ∧ A.TEAM_CTL tm < 0x70000 := by unfold A.TEAM_CTL; omega
  have hpin : r.base ≠ A.IDG_PINCFG 0 := by rw [hbase]; decide
  have hnotImage : m.writer ≠ .image := by cases m <;> decide
  rw [State.masterWrite_takes v h, State.writeReg, if_neg (by unfold unmappedFrom; omega), if_neg (by omega),
    State.winKey_below (by omega), hreg]
  dsimp only
  rw [if_neg (fun c => hpin c.1), State.regWrite, State.tagged_lockGuard _ _ _ h, State.actWrite_teamCtl hbase]
  dsimp only
  rw [State.ctlWrite, if_neg hnotImage]

/-- The word of TEAM_ENABLE has EN and not RESUME. -/
theorem bitOf_en : wbit (bitOf (F.TEAM_CTL_EN tm)) (F.TEAM_CTL_EN tm) = true
    ∧ wbit (bitOf (F.TEAM_CTL_EN tm)) (F.TEAM_CTL_RESUME tm) = false := by
  simp [wbit, bitOf, bitsGet, F.TEAM_CTL_EN, F.TEAM_CTL_RESUME]

theorem State.teamCtlWrite_enable : s.teamCtlWrite tm true false = s.teamEnable tm := by
  simp [State.teamCtlWrite]

/-- TEAM_ENABLE that takes effect (R187). -/
theorem exec_teamEnable_takes (s : State) (t : Tick) (h : (s.advance t).takes m (A.TEAM_CTL tm) = true)
    (hturn : (s.advance t).inTurn (.teamEnable t m tm) = true) :
    exec (.teamEnable t m tm) s
      = .next (((s.advance t).tagged.teamEnable tm).yokCheck.after (s.advance t) (.teamEnable t m tm)) := by
  obtain ⟨hen, hresume⟩ := bitOf_en (tm := tm)
  have hwrite : (s.advance t).masterWrite m (A.TEAM_CTL tm) (bitOf (F.TEAM_CTL_EN tm))
      = (s.advance t).tagged.teamEnable tm := by
    rw [State.masterWrite_teamCtl h, hen, hresume, State.teamCtlWrite_enable]
  rw [← hwrite]
  exact congrArg Host.Outcome.next (s.command_inTurn t _ hturn)

end TeamCtl

/-! ## A team in OFF is enabled or refused (R185, R187) -/

section Enable
variable {s : State} {tm : Fin 24}

/-- The ladder stages of the ports stand outside every other block's words (R309). -/
theorem State.ladderClear_get (p : Nat → Bool) {g : Fld}
    (h : ∀ k, g.addr ≠ A.FBK_STAT k ∧ g.addr ≠ A.FBK_RAMPF k) : (s.ladderClear tm p).get g = s.get g := by
  refine each_const (State.get · g) _ _ (fun k _ u => ?_) s
  split
  · obtain ⟨hstat, hramp⟩ := h k
    rw [State.get_put_word (f := F.FBK_RAMPF_F k) _ _ hramp, State.get_put_word (f := F.FBK_STAT_LADDER k) _ _ hstat]
  · rfl

/-- A team that enters WAIT changes no field outside the feedback ports but its state. -/
theorem State.enterWait_get {g : Fld} (h : g.addr < 0x90000) :
    (s.enterWait tm).get g = (s.put (F.TEAM_STAT_STATE tm) stWAIT).get g := by
  have hports : ∀ k, g.addr ≠ A.FBK_STAT k ∧ g.addr ≠ A.FBK_RAMPF k := by
    intro k; unfold A.FBK_STAT A.FBK_RAMPF; omega
  exact (each_const (State.get · g) _ _ (fun _ _ u => u.modLeg_get ..) _).trans (State.ladderClear_get _ hports)

theorem State.enterWait_tstate : (s.enterWait tm).tstate tm = stWAIT := by
  rw [State.tstate, State.enterWait_get (by show A.TEAM_STAT tm < _; unfold A.TEAM_STAT; omega),
    State.get_put_same _ _ (by simp [F.TEAM_STAT_STATE])]
  rfl

theorem State.enterWait_en (r : Fin 24) : (s.enterWait tm).get (F.TEAM_CTL_EN r) = s.get (F.TEAM_CTL_EN r) := by
  rw [State.enterWait_get (by show A.TEAM_CTL r < _; unfold A.TEAM_CTL; omega),
    State.get_put_word _ _ (teamCtl_ne_teamStat r tm)]

/-- A refused enable sets EN_REF and does nothing else. -/
theorem State.teamEnable_refused (hoff : s.tstate tm = stOFF) (h : (s.safeLow || (s.team tm).barred) = true) :
    s.teamEnable tm = s.raise (F.TEAM_STAT_EN_REF tm) := by
  rw [State.teamEnable, if_pos hoff, if_pos h]

/-- An accepted enable sets EN, and the team enters WAIT. -/
theorem State.teamEnable_accepted (hoff : s.tstate tm = stOFF) (h : (s.safeLow || (s.team tm).barred) = false) :
    s.teamEnable tm = (s.putB (F.TEAM_CTL_EN tm) true).enterWait tm := by
  rw [State.teamEnable, if_pos hoff, if_neg (by rw [h]; decide)]

/-- EN_REF stands beside EN and the state of every team. -/
theorem State.raise_enRef (r : Fin 24) : (s.raise (F.TEAM_STAT_EN_REF tm)).get (F.TEAM_CTL_EN r) = s.get (F.TEAM_CTL_EN r)
    ∧ (s.raise (F.TEAM_STAT_EN_REF tm)).tstate r = s.tstate r := by
  refine ⟨?_, ?_⟩
  · rw [State.raise_get, State.get_put_word _ _ (teamCtl_ne_teamStat r tm)]
  · rw [State.tstate, State.raise_get, State.get_put_bits _ _ (by simp [F.TEAM_STAT_EN_REF])
      (by simp [F.TEAM_STAT_EN_REF, F.TEAM_STAT_STATE])]; rfl

/-- A write of 1 to EN of a team in OFF while SAFE_N is low or in its band (R187). -/
theorem exec_teamEnable_safeLow (s : State) (t : Tick) {m : Master} (h : (s.advance t).takes m (A.TEAM_CTL tm) = true)
    (hoff : (s.advance t).tstate tm = stOFF) (hsafe : (s.advance t).safeLow = true)
    (hturn : (s.advance t).inTurn (.teamEnable t m tm) = true) :
    exec (.teamEnable t m tm) s = .next (((s.advance t).tagged.raise (F.TEAM_STAT_EN_REF tm)).yokCheck.after (s.advance t)
      (.teamEnable t m tm)) := by
  rw [exec_teamEnable_takes s t h hturn, State.teamEnable_refused (by simpa using hoff) (by simp [hsafe])]

end Enable

/-! ## SAFE_N returns (R328) -/

section SafeReturn
variable (s : State) (edge : Tick)

/-- The return of SAFE_N reaches no team. -/
theorem State.safeNHigh_teams : (s.safeNHigh edge).teams = s.teams := by
  unfold State.safeNHigh
  split
  · rfl
  · exact State.put_teams ..

/-- The return of SAFE_N changes PRT_STAT and no other register. -/
theorem State.safeNHigh_get {g : Fld} (h : g.addr ≠ A.PRT_STAT) : (s.safeNHigh edge).get g = s.get g := by
  unfold State.safeNHigh
  split
  · rfl
  · exact State.get_put_word (f := F.PRT_STAT_SAFE) _ _ h

/-- No team changes its state or its EN with it. -/
theorem State.safeNHigh_team_words (r : Fin 24) : (s.safeNHigh edge).tstate r = s.tstate r
    ∧ (s.safeNHigh edge).get (F.TEAM_CTL_EN r) = s.get (F.TEAM_CTL_EN r) := by
  have hstat : A.TEAM_STAT r ≠ A.PRT_STAT := by unfold A.TEAM_STAT A.PRT_STAT; omega
  have hctl : A.TEAM_CTL r ≠ A.PRT_STAT := by unfold A.TEAM_CTL A.PRT_STAT; omega
  exact ⟨State.safeNHigh_get s edge hstat, State.safeNHigh_get s edge hctl⟩

theorem exec_safeNHigh_inTurn (t : Tick) (hclk : (s.advance t).clkOn = true)
    (hturn : (s.advance t).inTurn (.safeNHigh ⟨t, edge⟩) = true) :
    exec (.safeNHigh ⟨t, edge⟩) s
      = .next (((s.advance t).safeNHigh edge).yokCheck.after (s.advance t) (.safeNHigh ⟨t, edge⟩)) := by
  rw [← State.at_on _ (State.safeNHigh · edge) hclk]
  exact congrArg Host.Outcome.next (s.command_inTurn t _ hturn)

end SafeReturn

/-- Settles O44: a write under SAFE_N goes to `State.teamEnable`, which sets EN_REF alone; once SAFE_N has returned it sets
EN and the team enters WAIT; and the return itself writes PRT_STAT alone. -/
theorem enableUnderSafeN : Obligations.EnableUnderSafeN := by
  unfold Obligations.EnableUnderSafeN
  intro s t m tm a
  refine ⟨fun htakes hoff hen => ⟨fun hsafe hturn => ?refused, fun hlevel hband hbarred hturn => ?accepted⟩,
    fun edge hclk hturn => ?returned⟩
  case refused =>
    obtain ⟨henKept, hoffKept⟩ := State.raise_enRef (s := a.tagged) (tm := tm) tm
    refine ⟨a.tagged.raise (F.TEAM_STAT_EN_REF tm), ?_, ?_, ?_, ?_, a.tagged_raise_regsBut (F.TEAM_STAT_EN_REF tm),
      a.tagged_raise_eq _⟩
    · exact exec_teamEnable_safeLow s t htakes hoff (a.safeLow_iff.mpr hsafe) hturn
    · rw [henKept, State.tagged_get_en, hen]
    · rw [hoffKept, State.tagged_tstate, hoff]
    · exact State.get_raise_same _ (by simp [F.TEAM_STAT_EN_REF]) rfl
  case accepted =>
    have hopen : (a.tagged.safeLow || (a.tagged.team tm).barred) = false := by
      rw [State.tagged_safeLow, State.tagged_team, State.safeLow, hlevel, hband, hbarred]; rfl
    refine ⟨a.tagged.teamEnable tm, exec_teamEnable_takes s t htakes hturn, ?_⟩
    rw [State.teamEnable_accepted (by simpa using hoff) hopen, State.enterWait_en]
    exact ⟨State.get_put_same _ _ (by simp [F.TEAM_CTL_EN]), State.enterWait_tstate⟩
  case returned =>
    exact ⟨a.safeNHigh edge, exec_safeNHigh_inTurn s edge t hclk hturn, a.safeNHigh_teams edge,
      a.safeNHigh_team_words edge⟩

end Sys2Proof.Machine
end

section
/-!
PROOFS. Chapter 08, sigma-delta channels: a write to SDM_OSR, which reaches OSR unless the bound team is in RUN (R224).
-/
namespace Sys2Proof.Machine

/-! ## What the records of a write leave unchanged -/

/-- The channels, the legs, and the words from the team block up to the EVT block but the one at `a` are the same. -/
structure SenseFrame (a : Nat) (s u : State) : Prop where
  sdms : u.sdms = s.sdms
  legs : u.legs = s.legs
  rd : ∀ b, 0x60000 ≤ b → b < 0x120000 → b ≠ a → u.rd b = s.rd b

namespace SenseFrame
variable {s u x : State} {a : Nat}

theorem refl : SenseFrame a s s := ⟨rfl, rfl, fun _ _ _ _ => rfl⟩

theorem trans (h : SenseFrame a s u) (k : SenseFrame a u x) : SenseFrame a s x :=
  ⟨k.sdms.trans h.sdms, k.legs.trans h.legs, fun b hlo hhi hne => (k.rd b hlo hhi hne).trans (h.rd b hlo hhi hne)⟩

theorem wr_self (w : Word) (h : SenseFrame a s u) : SenseFrame a s (u.wr a w) :=
  ⟨h.sdms, h.legs, fun b hlo hhi hne => (State.rd_wr_ne _ _ hne).trans (h.rd b hlo hhi hne)⟩

/-- A word of another block. -/
theorem wr {b : Nat} (w : Word) (h : SenseFrame a s u) (hb : b < 0x60000 ∨ 0x120000 ≤ b) : SenseFrame a s (u.wr b w) :=
  ⟨h.sdms, h.legs, fun d hlo hhi hne => (State.rd_wr_ne _ _ (by omega)).trans (h.rd d hlo hhi hne)⟩

theorem modJrn (f : JrnSt → JrnSt) (h : SenseFrame a s u) : SenseFrame a s (u.modJrn f) := ⟨h.sdms, h.legs, h.rd⟩

/-- A general tag goes to EVT_TAGHWM (R26). -/
theorem tagged : SenseFrame a s s.tagged := by
  obtain ⟨_, _, h⟩ := s.tagSet_frame (s.tagsUse + 1)
  refine ⟨by rw [State.tagged, h], by rw [State.tagged, h], fun b _ hhi _ => s.rd_tagSet_ne _ ?_⟩
  unfold A.EVT_TAGHWM; omega

/-- A fault record goes to the EVT block and the journal (R453). -/
theorem record (code ctx : Nat) (h : SenseFrame a s u) : SenseFrame a s (u.record code ctx) := by
  have hlast (r : FaultRec) : SenseFrame a s (u.evtLast r) :=
    (((h.wr _ (by decide)).wr _ (by decide)).wr _ (by decide)).wr _ (by decide)
  unfold State.record State.recordAt State.jrnQueue
  dsimp only
  split
  · exact ((hlast _).modJrn _).wr _ (by decide)
  · exact (hlast _).wr _ (by decide)

/-- A write to a locked field goes to the PDK block and to a fault record (R31, R473). -/
theorem paddock_locked (d : Nat) (v : Word) (w : Writer) (h : SenseFrame a s u) : SenseFrame a s (u.paddock 9 d v w) := by
  have hclip (x y z : Word) : SenseFrame a s
      ((((u.wr A.PDK_LASTCLIP0 x).wr A.PDK_LASTCLIP1 y).wr A.PDK_LASTCLIP2 z).bump (F.PDK_CLIPCNT_COUNT (9 - 1))) :=
    (((h.wr x (by decide)).wr y (by decide)).wr z (by decide)).wr _ (by decide)
  unfold State.paddock
  dsimp only
  split_ifs
  · exact hclip ..
  · exact (hclip ..).record ..
  · exact ((hclip ..).record ..).modJrn _

/-- A field of a word within the frame. -/
theorem get (h : SenseFrame a s u) {f : Fld} (hlo : 0x60000 ≤ f.addr) (hhi : f.addr < 0x120000) (hne : f.addr ≠ a) :
    u.get f = s.get f := by
  unfold State.get; rw [h.rd _ hlo hhi hne]

variable {c : Fin 144}

/-- The binding of a channel lies in SDM_CFG, SDM_TRG and its leg (R213), not in SDM_OSR. -/
theorem sdmTeam (h : SenseFrame (A.SDM_OSR c) s u) : u.sdmTeam c = s.sdmTeam c := by
  have hmode : u.get (F.SDM_CFG_MODE c) = s.get (F.SDM_CFG_MODE c) := by
    apply h.get <;> simp only [F.SDM_CFG_MODE, A.SDM_CFG, A.SDM_OSR] <;> omega
  have hleg : u.get (F.SDM_TRG_LEG c) = s.get (F.SDM_TRG_LEG c) := by
    apply h.get <;> simp only [F.SDM_TRG_LEG, A.SDM_TRG, A.SDM_OSR] <;> omega
  unfold State.sdmTeam State.sdmMode State.leg
  rw [hmode, hleg, h.legs]

theorem tstate (h : SenseFrame (A.SDM_OSR c) s u) (r : Fin 24) : u.tstate r = s.tstate r := by
  apply h.get <;> simp only [F.TEAM_STAT_STATE, A.TEAM_STAT, A.SDM_OSR] <;> omega

end SenseFrame

/-! ## A write to SDM_OSR as a word (R9, R473) -/

section OsrWord
variable {s : State} {m : Master} {w : Writer} {r : RegDef} {c : Fin 144} {v : Word}

/-- The Paddock holds no limit for SDM_OSR. -/
theorem State.boundWord_sdmOsr (hr : r.base = A.SDM_OSR 0) (i : Nat) (x : Word) : s.boundWord r.base i x = (x, 0) := by
  simp [State.boundWord, hr, A.SDM_OSR, A.LEG_ILKCFG, A.LEG_EDGECFG, A.SDM_OCHI, A.SDM_OCLO, A.SDM_CFG]

/-- Storing a word of SDM_OSR changes that word and the records of the write alone. -/
theorem State.plainWrite_sdmOsr (hr : r.base = A.SDM_OSR 0) (i a : Nat) : SenseFrame a s (s.plainWrite w r i a v) := by
  have hup : r.base ∉ upWords := by rw [hr]; decide
  unfold State.plainWrite
  rw [State.boundWord_sdmOsr hr]
  dsimp only
  rw [if_pos rfl, if_neg hup]
  split
  · exact (SenseFrame.refl.paddock_locked ..).wr_self _
  · exact SenseFrame.refl.wr_self _

/-- The state in which a write to SDM_OSR comes to OSR: the other fields are stored, and OSR is as it was. -/
def State.osrHeld (s : State) (w : Writer) (r : RegDef) (c : Fin 144) (v : Word) : State :=
  (s.plainWrite w r c (A.SDM_OSR c) v).put (F.SDM_OSR_OSR c) (s.get (F.SDM_OSR_OSR c))

theorem State.osrHeld_frame (hr : r.base = A.SDM_OSR 0) : SenseFrame (A.SDM_OSR c) s (s.osrHeld w r c v) :=
  (State.plainWrite_sdmOsr hr ..).wr_self _

theorem State.osrHeld_get_osr : (s.osrHeld w r c v).get (F.SDM_OSR_OSR c) = s.get (F.SDM_OSR_OSR c) :=
  (State.get_put_same _ _ (by simp [F.SDM_OSR_OSR])).trans (Nat.mod_eq_of_lt (Nat.mod_lt _ (Nat.two_pow_pos _)))

/-- The address of a channel's SDM_OSR finds that register, with the channel as its index. -/
theorem sdmOsr_mapped : ∀ c : Fin 144,
    (regAt (A.SDM_OSR c)).map (fun e => (e.1.base, e.2)) = some (A.SDM_OSR 0, [c.val]) := by
  decide +kernel

theorem State.actWrite_sdmOsr {a : Nat} (hr : r.base = A.SDM_OSR 0) (hw : w ≠ .image) :
    s.actWrite w r [c.val] a v
      = some ((s.osrHeld w r c v).osrWrite c (bitsGet v (F.SDM_OSR_OSR c).lo (F.SDM_OSR_OSR c).width)) := by
  simp [State.actWrite, hr, finOf, A.SDM_OSR, A.IDG_RESTART, A.TIM_RATE, A.TIM_SLEW, A.TIM_SLEWCFG, A.TIM_STEP0,
    A.TIM_STEP1, A.TIM_STEP2, A.TIM_STEPCTL, A.LEG_OVR, A.LEG_TRIPCLR, A.TEAM_CTL, A.TEAM_SP, A.MGRP_TQCMD,
    State.osrWordWrite, hw, State.osrHeld]

/-- A master's write that takes effect does what its register's own write does. -/
theorem State.masterWrite_acts {a : Nat} {idx : List Nat} {u : State} (h : s.takes m a = true)
    (hlo : 0x022000 ≤ a) (hhi : a < 0x0A4000) (hreg : regAt a = some (r, idx)) (hpin : r.base ≠ A.IDG_PINCFG 0)
    (hact : s.tagged.actWrite m.writer r idx a v = some u) : s.masterWrite m a v = u := by
  rw [State.masterWrite_takes v h, State.writeReg, if_neg (by unfold unmappedFrom; omega), if_neg (by omega),
    State.winKey_below hhi, hreg]
  dsimp only
  rw [if_neg (fun e => hpin e.1), State.regWrite, State.tagged_lockGuard _ _ _ h]
  dsimp only
  rw [hact]

/-- A master's write to SDM_OSR that takes effect comes to OSR in a state whose channels and teams are as they were. -/
theorem State.masterWrite_sdmOsr (h : s.takes m (A.SDM_OSR c) = true) :
    ∃ u, SenseFrame (A.SDM_OSR c) s u ∧ u.get (F.SDM_OSR_OSR c) = s.get (F.SDM_OSR_OSR c)
      ∧ s.masterWrite m (A.SDM_OSR c) v
        = u.osrWrite c (bitsGet v (F.SDM_OSR_OSR c).lo (F.SDM_OSR_OSR c).width) := by
  obtain ⟨⟨r, idx⟩, hreg, hinst⟩ := Option.map_eq_some_iff.mp (sdmOsr_mapped c)
  obtain ⟨hbase, rfl⟩ := Prod.mk.inj hinst
  have haddr : 0x70008 ≤ A.SDM_OSR c ∧ A.SDM_OSR c < 0x78000 := by unfold A.SDM_OSR; omega
  have hpin : r.base ≠ A.IDG_PINCFG 0 := by rw [hbase]; decide
  have hmaster : m.writer ≠ .image := by cases m <;> decide
  refine ⟨s.tagged.osrHeld m.writer r c v, SenseFrame.tagged.trans (State.osrHeld_frame hbase), ?_,
    State.masterWrite_acts h (by omega) (by omega) hreg hpin (State.actWrite_sdmOsr hbase hmaster)⟩
  exact State.osrHeld_get_osr.trans (State.get_tagSet_word _ _ (by simp only [F.SDM_OSR_OSR, A.EVT_TAGHWM]; omega))

end OsrWord

/-! ## The write of OSR (R224) -/

section Osr
variable (s : State) (c : Fin 144) (n : Nat)

/-- The team to which the channel is bound is in RUN. -/
def State.senseRuns : Prop := ∃ r, s.sdmTeam c = some r ∧ s.tstate r = stRUN

theorem SenseFrame.senseRuns {s u : State} {c : Fin 144} (h : SenseFrame (A.SDM_OSR c) s u) :
    u.senseRuns c ↔ s.senseRuns c := by
  simp only [State.senseRuns, h.sdmTeam, h.tstate]

/-- A channel whose main history is to restart (R221); the over-current filter's goes on. -/
def SdmSt.restarted (x : SdmSt) : SdmSt :=
  { x with histMain := none, restartMain := x.await == .none || x.restartMain }

/-- A channel whose histories run restarts the main one at its next capture. -/
theorem SdmSt.restarted_of_running {x : SdmSt} (h : x.await = .none) : x.restarted.restartMain = true := by
  simp [SdmSt.restarted, h]

/-- OSR with its new value, and the main history to restart. -/
def State.osrRestart : State :=
  (((s.put (F.SDM_OSR_OSR c) (clampN 32 256 n)).modSdm c SdmSt.restarted).putB (F.SDM_STAT_VALID c) false).put
    (F.SDM_STAT_WARM c) 3

variable {s c}

/-- In RUN the write sets WR_REF and does nothing else. -/
theorem State.osrWrite_run (h : s.senseRuns c) : s.osrWrite c n = s.raise (F.SDM_STAT_WR_REF c) := by
  obtain ⟨r, hteam, hrun⟩ := h
  simp [State.osrWrite, hteam, hrun]

/-- Otherwise OSR takes it, and the bound team's sense delay follows. -/
theorem State.osrWrite_open_cases (h : ¬ s.senseRuns c) :
    s.osrWrite c n = s.osrRestart c n ∨ ∃ r, s.osrWrite c n = (s.osrRestart c n).teamDly r := by
  cases hteam : s.sdmTeam c with
  | none => exact .inl (by simp [State.osrWrite, hteam]; rfl)
  | some r =>
    have hrun : s.tstate r ≠ stRUN := fun e => h ⟨r, hteam, e⟩
    exact .inr ⟨r, by simp [State.osrWrite, hteam, hrun]; rfl⟩

/-- The sense delay is a word of its own: all else that the write leaves is that of the restart. -/
theorem State.osrWrite_open_frame (h : ¬ s.senseRuns c) : (s.osrWrite c n).sdms = (s.osrRestart c n).sdms
    ∧ ∀ g : Fld, g.addr < 0x78100 → (s.osrWrite c n).get g = (s.osrRestart c n).get g := by
  rcases State.osrWrite_open_cases n h with e | ⟨r, e⟩
  · rw [e]; exact ⟨rfl, fun _ _ => rfl⟩
  · rw [e]
    refine ⟨State.put_sdms .., fun g hg => State.get_put_word _ _ ?_⟩
    simp only [F.SDM_TEAMDLY_DLY, A.SDM_TEAMDLY]; omega

theorem State.osrRestart_sdm : (s.osrRestart c n).sdm c = (s.sdm c).restarted := by
  simp [State.osrRestart, State.sdm, State.putB]

theorem sdmOsr_ne_sdmStat : A.SDM_OSR c ≠ A.SDM_STAT c := by unfold A.SDM_OSR A.SDM_STAT; omega

/-- OSR takes the nearer limit of its range, and WARM starts from 3. -/
theorem State.osrRestart_get : (s.osrRestart c n).get (F.SDM_OSR_OSR c) = clampN 32 256 n
    ∧ (s.osrRestart c n).get (F.SDM_STAT_WARM c) = 3
    ∧ (s.osrRestart c n).get (F.SDM_STAT_OCVALID c) = s.get (F.SDM_STAT_OCVALID c) := by
  have hlimit : clampN 32 256 n < 2 ^ (F.SDM_OSR_OSR c).width := by
    simp only [clampN, F.SDM_OSR_OSR]; split_ifs <;> omega
  refine ⟨?_, State.get_put_same _ _ (by simp [F.SDM_STAT_WARM]), ?_⟩
  · rw [State.osrRestart, State.get_put_word _ _ sdmOsr_ne_sdmStat, State.putB,
      State.get_put_word _ _ sdmOsr_ne_sdmStat, State.modSdm_get, State.get_put_same _ _ (by simp [F.SDM_OSR_OSR]),
      Nat.mod_eq_of_lt hlimit]
  · rw [State.osrRestart, State.get_put_bits _ _ (by simp [F.SDM_STAT_WARM])
      (by simp [F.SDM_STAT_WARM, F.SDM_STAT_OCVALID]), State.putB, State.get_put_bits _ _ (by simp [F.SDM_STAT_VALID])
      (by simp [F.SDM_STAT_VALID, F.SDM_STAT_OCVALID]),
      State.modSdm_get, State.get_put_word _ _ sdmOsr_ne_sdmStat.symm]

/-- A write outside RUN: the value that OSR and WARM take, the OCVALID that stays, and the channel with its main history
restarted. -/
theorem State.osrWrite_open (h : ¬ s.senseRuns c) :
    (s.osrWrite c n).get (F.SDM_OSR_OSR c) = clampN 32 256 n ∧ (s.osrWrite c n).get (F.SDM_STAT_WARM c) = 3
      ∧ (s.osrWrite c n).get (F.SDM_STAT_OCVALID c) = s.get (F.SDM_STAT_OCVALID c)
      ∧ (s.osrWrite c n).sdm c = (s.sdm c).restarted := by
  obtain ⟨hsdms, hget⟩ := State.osrWrite_open_frame n h
  obtain ⟨hosr, hwarm, hvalid⟩ := State.osrRestart_get (s := s) (c := c) n
  have hosrWord : A.SDM_OSR c < 0x78100 := by unfold A.SDM_OSR; omega
  have hstatWord : A.SDM_STAT c < 0x78100 := by unfold A.SDM_STAT; omega
  refine ⟨(hget _ hosrWord).trans hosr, (hget _ hstatWord).trans hwarm, (hget _ hstatWord).trans hvalid, ?_⟩
  rw [State.sdm, hsdms]; exact State.osrRestart_sdm n

/-- WR_REF stands beside OSR and OCVALID. -/
theorem State.raise_wrRef_get : (s.raise (F.SDM_STAT_WR_REF c)).get (F.SDM_OSR_OSR c) = s.get (F.SDM_OSR_OSR c)
    ∧ (s.raise (F.SDM_STAT_WR_REF c)).get (F.SDM_STAT_OCVALID c) = s.get (F.SDM_STAT_OCVALID c) := by
  refine ⟨by rw [State.raise_get, State.get_put_word _ _ sdmOsr_ne_sdmStat], ?_⟩
  rw [State.raise_get, State.get_put_bits _ _ (by simp [F.SDM_STAT_WR_REF])
    (by simp [F.SDM_STAT_WR_REF, F.SDM_STAT_OCVALID])]

end Osr

/-- OSR_WRITE that takes effect (R224). -/
theorem exec_osrWrite_takes (s : State) (t : Tick) {m : Master} {c : Fin 144} (v : Word)
    (h : (s.advance t).takes m (A.SDM_OSR c) = true) (hturn : (s.advance t).inTurn (.osrWrite t m c v) = true) :
    ∃ u, SenseFrame (A.SDM_OSR c) (s.advance t) u ∧ u.get (F.SDM_OSR_OSR c) = (s.advance t).get (F.SDM_OSR_OSR c)
      ∧ exec (.osrWrite t m c v) s
        = .next ((u.osrWrite c (bitsGet v (F.SDM_OSR_OSR c).lo (F.SDM_OSR_OSR c).width)).yokCheck.after (s.advance t)
          (.osrWrite t m c v)) := by
  obtain ⟨u, hframe, hold, hwrite⟩ := State.masterWrite_sdmOsr (v := v) h
  refine ⟨u, hframe, hold, ?_⟩
  rw [← hwrite]
  exact congrArg Host.Outcome.next (s.command_inTurn t _ hturn)

/-- Settles O43: the write comes to OSR with the channels and the teams as they were; a bound team in RUN leaves WR_REF
alone, and otherwise OSR takes the value, and of the channel the main history alone restarts. -/
theorem osrWrites : Obligations.OsrWrites := by
  unfold Obligations.OsrWrites
  intro s t m c v a run htakes hturn
  obtain ⟨u, hframe, hold, hexec⟩ := exec_osrWrite_takes s t v htakes hturn
  have hsdm : u.sdm c = a.sdm c := by unfold State.sdm; rw [hframe.sdms]
  have hocvalid : u.get (F.SDM_STAT_OCVALID c) = a.get (F.SDM_STAT_OCVALID c) := by
    apply hframe.get <;> simp only [F.SDM_STAT_OCVALID, A.SDM_STAT, A.SDM_OSR] <;> omega
  refine ⟨_, hexec, ?_⟩
  by_cases hrun : run
  case pos =>
    obtain ⟨hosr, hvalid⟩ := State.raise_wrRef_get (s := u) (c := c)
    rw [State.osrWrite_run _ (hframe.senseRuns.mpr hrun)]
    refine ⟨fun _ => ⟨hosr.trans hold, State.get_raise_same _ (by simp [F.SDM_STAT_WR_REF]) rfl, hframe.sdms⟩,
      fun h => absurd hrun h, ?_⟩
    exact ⟨congrArg SdmSt.histOc hsdm, congrArg SdmSt.bits hsdm, hvalid.trans hocvalid⟩
  case neg =>
    obtain ⟨hosr, hwarm, hvalid, hnew⟩ := State.osrWrite_open (bitsGet v (F.SDM_OSR_OSR c).lo (F.SDM_OSR_OSR c).width)
      (hframe.senseRuns.not.mpr hrun)
    rw [hnew, hsdm]
    exact ⟨fun h => absurd h hrun, fun _ => ⟨hosr, hwarm, rfl, SdmSt.restarted_of_running⟩, rfl, rfl,
      hvalid.trans hocvalid⟩

end Sys2Proof.Machine
end

section
/-!
PROOFS. Chapter 17, registers: the width of a core's access (R464).
-/
namespace Sys2Proof.Machine

/-! ## What an access error changes (R462, R464) -/

section AccErr
variable (s : State) (w : Writer) (wr : Bool) (a : Nat)

/-- An access error stores its count and IDG_ACCADDR, and changes nothing beside the register file. -/
theorem State.accErr_frame (kind : Nat) : s.accErr w wr kind a
    = { s with regs := (s.accErr w wr kind a).regs, same := (s.accErr w wr kind a).same } := rfl

theorem State.accErr_regsBut (kind : Nat) : RegsBut [A.IDG_ACCERR, A.IDG_ACCADDR] s (s.accErr w wr kind a) := by
  intro b hb
  obtain ⟨hcount, haddr⟩ : b ≠ A.IDG_ACCERR ∧ b ≠ A.IDG_ACCADDR := by simpa using hb
  rw [State.accErr, State.rd_wr_ne _ _ haddr, State.bumpSat, State.rd_put_ne]
  split_ifs <;> exact hcount

/-- A width error counts in IDG_ACCERR.WIDTH, up to the field's largest value. -/
theorem State.accErr_width_count : (s.accErr w wr 3 a).get F.IDG_ACCERR_WIDTH
    = min (2 ^ F.IDG_ACCERR_WIDTH.width - 1) (s.get F.IDG_ACCERR_WIDTH + 1) := by
  have hfits : min (2 ^ F.IDG_ACCERR_WIDTH.width - 1) (s.get F.IDG_ACCERR_WIDTH + 1) < 2 ^ F.IDG_ACCERR_WIDTH.width :=
    (Nat.min_le_left ..).trans_lt (by decide)
  calc (s.accErr w wr 3 a).get F.IDG_ACCERR_WIDTH
      = (s.bumpSat F.IDG_ACCERR_WIDTH).get F.IDG_ACCERR_WIDTH := State.get_wr_word _ _ (by decide)
    _ = satAdd (2 ^ F.IDG_ACCERR_WIDTH.width - 1) (s.get F.IDG_ACCERR_WIDTH) 1 % 2 ^ F.IDG_ACCERR_WIDTH.width :=
      State.get_put_same _ _ (by decide)
    _ = _ := Nat.mod_eq_of_lt hfits

/-- The registers show one width error more: its count, IDG_ACCADDR, and nothing else (R464). -/
def WidthCounted (s u : State) : Prop :=
  u.get F.IDG_ACCERR_WIDTH = min (2 ^ F.IDG_ACCERR_WIDTH.width - 1) (s.get F.IDG_ACCERR_WIDTH + 1)
    ∧ RegsBut [A.IDG_ACCERR, A.IDG_ACCADDR] s u

theorem State.accErr_widthCounted : WidthCounted s (s.accErr w wr 3 a) :=
  ⟨s.accErr_width_count w wr a, s.accErr_regsBut w wr a 3⟩

/-- It is a matter of the register file: what a load hands to its reader does not touch it. -/
theorem WidthCounted.withLastRead {s u : State} (l : Vector Word 4) (h : WidthCounted s u) :
    WidthCounted s { u with lastRead := l } := h

end AccErr

/-! ## A core's load (R464) -/

section Load
variable {s : State} {m : Master} {a : Nat} {w : Width}

/-- What a core reaches does not depend on the address. -/
theorem State.mayReach_core (hcore : m ≠ .svc) (wr : Bool) (b : Nat) : s.mayReach m wr a = s.mayReach m wr b := by
  cases m with
  | supA => rfl
  | supB => rfl
  | svc => exact absurd rfl hcore

/-- An aligned load reads the whole word, and only the bytes that it returns are its own. -/
theorem State.registerRead_aligned (hcore : m ≠ .svc) (hreach : s.mayReach m false a = true) (h : w.aligned a = true) :
    s.registerRead m a w
      = { s.registerRead m (a / 4 * 4) .word with
          lastRead := (s.registerRead m (a / 4 * 4) .word).lastRead.set m.reader
            (selBytes w a (s.registerRead m (a / 4 * 4) .word).lastRead[m.reader]) } := by
  have hreachWord : s.mayReach m false (a / 4 * 4) = true := State.mayReach_core hcore false a ▸ hreach
  have hword : Width.word.aligned (a / 4 * 4) = true := by simp [Width.aligned]
  cases m
  case svc => exact absurd rfl hcore
  all_goals simp [State.registerRead, hreach, hreachWord, h, hword, selBytes]

/-- A misaligned load returns 0 and is counted. -/
theorem State.registerRead_misaligned (hcore : m ≠ .svc) (hreach : s.mayReach m false a = true)
    (h : w.aligned a = false) :
    s.registerRead m a w = { s.accErr m.writer false 3 a with lastRead := s.lastRead.set m.reader 0 } := by
  cases m
  case svc => exact absurd rfl hcore
  all_goals simp [State.registerRead, hreach, h]

end Load

theorem exec_snapshotCaptureRead_inTurn (s : State) (t : Tick) (m : Master) (b : BitVec 24) (w : Width)
    (h : (s.advance t).inTurn (.snapshotCaptureRead t m b w) = true) :
    exec (.snapshotCaptureRead t m b w) s = .next (((s.advance t).registerRead m b.toNat w).yokCheck.after (s.advance t)
      (.snapshotCaptureRead t m b w)) :=
  congrArg Host.Outcome.next (s.command_inTurn t _ h)

/-- Loads of a tick take their turn at one rank, whatever they read (R23). -/
theorem State.inTurn_snapshotCaptureRead {s : State} {t : Tick} {m : Master} {b : BitVec 24} {w : Width} (c : BitVec 24)
    (v : Width) (h : s.inTurn (.snapshotCaptureRead t m b w) = true) :
    s.inTurn (.snapshotCaptureRead t m c v) = true := h

/-- Settles O38: a store that is not of an aligned word comes to an access error alone, an aligned load to the load of its
whole word with the selected bytes kept, and a misaligned load to an access error with 0 read. -/
theorem accessWidths : Obligations.AccessWidths := by
  unfold Obligations.AccessWidths
  intro s t m x v w a n counted hcore
  refine ⟨fun hreach hbad hturn => ?store, fun hreach => ⟨fun haligned hturn => ?load, fun hmis hturn => ?misaligned⟩⟩
  case store =>
    refine ⟨a.accErr m.writer true 3 n, ?_, a.accErr_widthCounted _ _ _, a.accErr_frame _ _ _ _⟩
    rw [exec_registerWrite_inTurn s t m x v w hturn, State.registerWrite_discards _ _ _ _ w hcore (by tauto) hreach]
  case load =>
    have hbase : (BitVec.ofNat 24 (n / 4 * 4)).toNat = n / 4 * 4 := by
      rw [BitVec.toNat_ofNat, Nat.mod_eq_of_lt (by omega)]
    refine ⟨a.registerRead m n w, a.registerRead m (n / 4 * 4) .word,
      exec_snapshotCaptureRead_inTurn s t m x w hturn, ?_, ?_, ?_⟩
    · rw [exec_snapshotCaptureRead_inTurn s t m _ .word (State.inTurn_snapshotCaptureRead _ _ hturn), hbase]
    · rw [State.registerRead_aligned hcore hreach haligned]
      cases w <;> simp [selBytes, bitsGet, Nat.shiftRight_eq_div_pow]
    · rw [State.registerRead_aligned hcore hreach haligned]
  case misaligned =>
    refine ⟨_, exec_snapshotCaptureRead_inTurn s t m x w hturn, ?_⟩
    rw [State.registerRead_misaligned hcore hreach hmis]
    exact ⟨Vector.getElem_set_self _, (a.accErr_widthCounted _ _ _).withLastRead _⟩

end Sys2Proof.Machine
end

section
/-!
PROOFS. How a command reaches the block (O1): every command of a tick is `State.command`, every operation of a program
`State.inRun`; and what each of the two timed forms answers in its turn.
-/
namespace Sys2Proof.Machine

/-- A command that carries a tick reaches the block at that tick, and an operation of a program in its run. -/
theorem exec_eq (c : Instr) (s : State) :
    exec c s = .next (match tickOf c with
      | some t => s.command t c
      | none => s.inRun c) := by
  cases c <;> rfl

variable {c : Instr} {s : State} {t : Tick} {f : State → State}

theorem exec_timed (h : tickOf c = some t) : exec c s = .next (s.command t c) := by
  rw [exec_eq, h]

theorem exec_untimed (h : tickOf c = none) : exec c s = .next ((s.act c).after s c) := by
  rw [exec_eq, h]; rfl

/-- A command of a tick, in its turn, acts on what the tick finds. -/
theorem exec_inTurn (h : tickOf c = some t) (hturn : (s.advance t).inTurn c = true) :
    exec c s = .next (((s.advance t).act c).after (s.advance t) c) := by
  rw [exec_timed h, s.command_inTurn t c hturn]

/-- A command that needs no clock, in its turn. -/
theorem exec_any (h : tickOf c = some t) (hact : (s.advance t).act c = (s.advance t).any_ f)
    (hturn : (s.advance t).inTurn c = true) :
    exec c s = .next ((f (s.advance t)).yokCheck.after (s.advance t) c) := by
  rw [exec_inTurn h hturn, hact, State.any_eq]

/-- A command that needs CLK_TIME, in its turn. -/
theorem exec_at (h : tickOf c = some t) (hact : (s.advance t).act c = (s.advance t).at_ f)
    (hclk : (s.advance t).clkOn = true) (hturn : (s.advance t).inTurn c = true) :
    exec c s = .next ((f (s.advance t)).yokCheck.after (s.advance t) c) := by
  rw [exec_inTurn h hturn, hact, State.at_on _ f hclk]

theorem stepFront : Part.StepFront := fun _ _ _ => ⟨step_front _ _ _ rfl, step_idle _ rfl⟩

theorem commandsAct : Part.CommandsAct :=
  fun c _ => ⟨fun _ h => ⟨⟨_, exec_timed h⟩, exec_inTurn h⟩, exec_untimed (c := c)⟩

/-- Settles O1. -/
theorem stepRunsFront : Obligations.StepRunsFront := ⟨stepFront, commandsAct⟩

/-- Settles O58: nothing is stored at reset, and an empty store is in its form and reads as its default. -/
theorem resetCanonical : Obligations.ResetCanonical :=
  ⟨by decide, fun _ => rfl, fun _ => rfl, rfl⟩

/-! ## Operation words (R238) -/

/-- The word of an operation whose fields fit is the number that the fields spell. -/
theorem Op.word_toNat {o : Op} (hopc : o.opc < 64) (ha : o.a < 4) (hx : o.x < 1024) (hy : o.y < 1024) (hm : o.m < 16) :
    o.word.toNat = o.opc * 2 ^ 26 + o.a * 2 ^ 24 + o.x * 2 ^ 14 + o.y * 2 ^ 4 + o.m := by
  rw [Op.word, BitVec.toNat_ofNat, Nat.mod_eq_of_lt (by omega)]

theorem bitsGet_eq (w : Word) (lo width : Nat) : bitsGet w lo width = w.toNat / 2 ^ lo % 2 ^ width := by
  rw [bitsGet, Nat.shiftRight_eq_div_pow]

/-- Fields that fit come back from their word. -/
theorem opOf_word (o : Op) (hopc : o.opc < 64) (ha : o.a < 4) (hx : o.x < 1024) (hy : o.y < 1024) (hm : o.m < 16) :
    opOf o.word = o := by
  simp only [opOf, bitsGet_eq, Op.word_toNat hopc ha hx hy hm]
  obtain ⟨opc, a, x, y, m⟩ := o
  dsimp only at hopc ha hx hy hm ⊢
  rw [Op.mk.injEq]
  omega

/-- The five fields take up every bit of a word. -/
theorem word_opOf (w : Word) : (opOf w).word = w := by
  refine BitVec.eq_of_toNat_eq ?_
  have hw : w.toNat < 2 ^ 32 := w.isLt
  rw [Op.word, BitVec.toNat_ofNat]
  simp only [opOf, bitsGet_eq]
  omega

/-- Settles O25. -/
theorem operationWords : Obligations.OperationWords := ⟨opOf_word, word_opOf⟩

end Sys2Proof.Machine
end

section
/-!
PROOFS. Every step keeps the canonical form of the stores (O59): one lemma per update of the state, each written as the
update itself is, and the step from them.
-/
namespace Sys2Proof.Machine

/-- Stores of words in their canonical form, and the canonical form of the block that a tick found. -/
structure StoresCanon (regs shadow staged mem : Cells) (snaps : Vector Cells 4) (base : Body) : Prop where
  regs : cellsWf regReset regs = true
  shadow : cellsWf regReset shadow = true
  staged : cellsWf regReset staged = true
  mem : cellsWf zeroWord mem = true
  snaps : ∀ c ∈ snaps.toList, cellsWf zeroWord c = true
  base : base.canon = true

/-- The canonical form of a state, as a matter of its stores alone: an update of anything else keeps it as it is. -/
def State.Canon (s : State) : Prop := StoresCanon s.regs s.shadow s.staged s.mem s.snaps s.base

theorem State.canon_iff (s : State) : s.canon = true ↔ s.Canon := by
  simp only [State.canon, Body.canon, Bool.and_eq_true, List.all_eq_true]
  constructor
  · rintro ⟨⟨⟨⟨⟨h1, h2⟩, h3⟩, h4⟩, h5⟩, h6⟩
    refine ⟨h1, h2, h3, h4, h5, ?_⟩
    simp only [Body.canon, Bool.and_eq_true, List.all_eq_true]
    exact h6
  · rintro ⟨h1, h2, h3, h4, h5, h6⟩
    simp only [Body.canon, Bool.and_eq_true, List.all_eq_true] at h6
    exact ⟨⟨⟨⟨⟨h1, h2⟩, h3⟩, h4⟩, h5⟩, h6⟩

section Forms
variable {p : Prop} [Decidable p] {s u : State}

theorem State.Canon.ite (h : s.Canon) (k : u.Canon) : (if p then s else u).Canon := by
  split <;> assumption

theorem State.Canon.dite {s : p → State} {u : ¬ p → State} (h : ∀ x, (s x).Canon) (k : ∀ x, (u x).Canon) :
    (if x : p then s x else u x).Canon := by
  split
  · exact h _
  · exact k _

theorem State.Canon.ite2 {α : Type} {s u : α × State} (h : s.2.Canon) (k : u.2.Canon) :
    (if p then s else u).2.Canon := by
  split <;> assumption

theorem State.Canon.ite1 {α : Type} {s u : State × α} (h : s.1.Canon) (k : u.1.Canon) :
    (if p then s else u).1.Canon := by
  split <;> assumption

theorem State.Canon.foldl {α : Type} {l : List α} {e : State → α → State} (h : s.Canon)
    (k : ∀ u x, u.Canon → (e u x).Canon) : (l.foldl e s).Canon := by
  induction l generalizing s with
  | nil => exact h
  | cons x r ih => exact ih (k s x h)

/-- Steps that carry a value beside the state. -/
theorem State.Canon.foldl2 {α β : Type} {l : List α} {e : β × State → α → β × State} {x : β × State}
    (h : x.2.Canon) (k : ∀ u y, u.2.Canon → (e u y).2.Canon) : (l.foldl e x).2.Canon := by
  induction l generalizing x with
  | nil => exact h
  | cons y r ih => exact ih (k x y h)

/-- A state that is there is canonical. -/
def CanonIf (o : Option State) : Prop := ∀ u, o = some u → u.Canon

theorem CanonIf.some (h : s.Canon) : CanonIf (some s) := fun _ e => Option.some.inj e ▸ h

theorem CanonIf.none : CanonIf none := fun _ e => absurd e (by simp)

theorem CanonIf.ite {o o' : Option State} (h : CanonIf o) (k : CanonIf o') : CanonIf (if p then o else o') := by
  split <;> assumption

end Forms

variable {s : State} {a : Nat} {w : Word}

theorem State.Canon.updNow {v} (h : s.Canon) : ({ s with now := v } : State).Canon := h
theorem State.Canon.updUpset {v} (h : s.Canon) : ({ s with upset := v } : State).Canon := h
theorem State.Canon.updTim {v} (h : s.Canon) : ({ s with tim := v } : State).Canon := h
theorem State.Canon.updLoad {v} (h : s.Canon) : ({ s with load := v } : State).Canon := h
theorem State.Canon.updFuse {v} (h : s.Canon) : ({ s with fuse := v } : State).Canon := h
theorem State.Canon.updLegs {v} (h : s.Canon) : ({ s with legs := v } : State).Canon := h
theorem State.Canon.updTeams {v} (h : s.Canon) : ({ s with teams := v } : State).Canon := h
theorem State.Canon.updGroups {v} (h : s.Canon) : ({ s with groups := v } : State).Canon := h
theorem State.Canon.updCmps {v} (h : s.Canon) : ({ s with cmps := v } : State).Canon := h
theorem State.Canon.updTins {v} (h : s.Canon) : ({ s with tins := v } : State).Canon := h
theorem State.Canon.updSdmTrips {v} (h : s.Canon) : ({ s with sdmTrips := v } : State).Canon := h
theorem State.Canon.updSafe {v} (h : s.Canon) : ({ s with safe := v } : State).Canon := h
theorem State.Canon.updSdms {v} (h : s.Canon) : ({ s with sdms := v } : State).Canon := h
theorem State.Canon.updSdmCk {v} (h : s.Canon) : ({ s with sdmCk := v } : State).Canon := h
theorem State.Canon.updCe {v} (h : s.Canon) : ({ s with ce := v } : State).Canon := h
theorem State.Canon.updFbk {v} (h : s.Canon) : ({ s with fbk := v } : State).Canon := h
theorem State.Canon.updFbo {v} (h : s.Canon) : ({ s with fbo := v } : State).Canon := h
theorem State.Canon.updYok {v} (h : s.Canon) : ({ s with yok := v } : State).Canon := h
theorem State.Canon.updNet {v} (h : s.Canon) : ({ s with net := v } : State).Canon := h
theorem State.Canon.updSer {v} (h : s.Canon) : ({ s with ser := v } : State).Canon := h
theorem State.Canon.updHk {v} (h : s.Canon) : ({ s with hk := v } : State).Canon := h
theorem State.Canon.updShutRec {v} (h : s.Canon) : ({ s with shutRec := v } : State).Canon := h
theorem State.Canon.updJrn {v} (h : s.Canon) : ({ s with jrn := v } : State).Canon := h
theorem State.Canon.updSup {v} (h : s.Canon) : ({ s with sup := v } : State).Canon := h
theorem State.Canon.updDue {v} (h : s.Canon) : ({ s with due := v } : State).Canon := h
theorem State.Canon.updLastRead {v} (h : s.Canon) : ({ s with lastRead := v } : State).Canon := h
theorem State.Canon.updTagsUse {v} (h : s.Canon) : ({ s with tagsUse := v } : State).Canon := h
theorem State.Canon.updStalled {v} (h : s.Canon) : ({ s with stalled := v } : State).Canon := h
theorem State.Canon.updSame {v} (h : s.Canon) : ({ s with same := v } : State).Canon := h
theorem State.Canon.updFreeCnt {v} (h : s.Canon) : ({ s with freeCnt := v } : State).Canon := h

theorem State.Canon.wr (h : s.Canon) : (s.wr a w).Canon := { h with regs := cellsWf_set _ _ _ _ h.regs }
theorem State.Canon.wrSh (h : s.Canon) : (s.wrSh a w).Canon := { h with shadow := cellsWf_set _ _ _ _ h.shadow }
theorem State.Canon.wrSt (h : s.Canon) : (s.wrSt a w).Canon := { h with staged := cellsWf_set _ _ _ _ h.staged }
theorem State.Canon.memSet (h : s.Canon) : (s.memSet a w).Canon := { h with mem := cellsWf_set _ _ _ _ h.mem }

/-- The first write that waits takes a tag. -/
def State.unstallFirst (u : State) : State := match u.stalled with
  | [] => u
  | x :: r => (({ u with stalled := r } : State).tagSet (u.tagsUse + 1)).unstall x

theorem State.tagFreed_eq : s.tagFreed = (s.tagSet (s.tagsUse - 1)).unstallFirst := rfl

/-! ## Fields, stamps and records -/

theorem State.Canon.put {f v} (h : s.Canon) : (s.put f v).Canon := h.wr

theorem State.Canon.putB {f b} (h : s.Canon) : (s.putB f b).Canon := h.put

theorem State.Canon.putI {f v} (h : s.Canon) : (s.putI f v).Canon := h.put

theorem State.Canon.bump {f} (h : s.Canon) : (s.bump f).Canon := h.put

theorem State.Canon.bumpSat {f} (h : s.Canon) : (s.bumpSat f).Canon := h.put

theorem State.Canon.setBit {f i b} (h : s.Canon) : (s.setBit f i b).Canon := h.putB

theorem State.Canon.raise {f} (h : s.Canon) : (s.raise f).Canon := h.putB.updSame

theorem State.Canon.raiseBit {f i} (h : s.Canon) : (s.raiseBit f i).Canon := h.raise

theorem State.Canon.raiseIf {f b} (h : s.Canon) : (s.raiseIf f b).Canon := h.raise.ite h.putB

theorem State.Canon.noteUp {x} (h : s.Canon) : (s.noteUp x).Canon := h.updSame

theorem State.Canon.putMax {f v} (h : s.Canon) : (s.putMax f v).Canon := h.put.ite h

theorem State.Canon.raiseMax {f v} (h : s.Canon) : (s.raiseMax f v).Canon := h.putMax.noteUp

theorem State.Canon.bumpUp {f} (h : s.Canon) : (s.bumpUp f).Canon := h.bump.noteUp

theorem State.Canon.redoUps {a} (h : s.Canon) : (s.redoUps a).Canon :=
  h.foldl fun _ _ h => (by split; exacts [h.putMax.ite h, h.bump.ite h])

theorem State.Canon.modLeg {n f} (h : s.Canon) : (s.modLeg n f).Canon := h.updLegs

theorem State.Canon.modTeam {t f} (h : s.Canon) : (s.modTeam t f).Canon := h.updTeams

theorem State.Canon.modGroup {g f} (h : s.Canon) : (s.modGroup g f).Canon := h.updGroups

theorem State.Canon.modCmp {k f} (h : s.Canon) : (s.modCmp k f).Canon := h.updCmps

theorem State.Canon.modTin {i f} (h : s.Canon) : (s.modTin i f).Canon := h.updTins

theorem State.Canon.modSdmTrip {c f} (h : s.Canon) : (s.modSdmTrip c f).Canon := h.updSdmTrips

theorem State.Canon.modSdm {c f} (h : s.Canon) : (s.modSdm c f).Canon := h.updSdms

theorem State.Canon.modPort {p f} (h : s.Canon) : (s.modPort p f).Canon := h.updFbk

theorem State.Canon.modOut {m f} (h : s.Canon) : (s.modOut m f).Canon := h.updFbo

theorem State.Canon.modCe {f} (h : s.Canon) : (s.modCe f).Canon := h.updCe

theorem State.Canon.modYok {f} (h : s.Canon) : (s.modYok f).Canon := h.updYok

theorem State.Canon.modTim {f} (h : s.Canon) : (s.modTim f).Canon := h.updTim

theorem State.Canon.modLoad {f} (h : s.Canon) : (s.modLoad f).Canon := h.updLoad

theorem State.Canon.modNet {f} (h : s.Canon) : (s.modNet f).Canon := h.updNet

theorem State.Canon.modServo {f} (h : s.Canon) : (s.modServo f).Canon := h.modNet

theorem State.Canon.modNPort {p f} (h : s.Canon) : (s.modNPort p f).Canon := h.modNet

theorem State.Canon.modSer {f} (h : s.Canon) : (s.modSer f).Canon := h.updSer

theorem State.Canon.modPms {q f} (h : s.Canon) : (s.modPms q f).Canon := h.modSer

theorem State.Canon.modSvc {f} (h : s.Canon) : (s.modSvc f).Canon := h.modSer

theorem State.Canon.modHk {f} (h : s.Canon) : (s.modHk f).Canon := h.updHk

theorem State.Canon.modJrn {f} (h : s.Canon) : (s.modJrn f).Canon := h.updJrn

theorem State.Canon.each {α : Type} {l : List α} {f} (h : s.Canon) (k : ∀ y u, u.Canon → (f y u).Canon) :
    (Machine.each l f s).Canon :=
  h.foldl fun _ _ h => k _ _ h

theorem State.Canon.putStamp {a0 a1 x} (h : s.Canon) : (s.putStamp a0 a1 x).Canon := h.wr.put

theorem State.Canon.defer {t d} (h : s.Canon) : (s.defer t d).Canon := h.updDue

theorem State.Canon.undefer {p} (h : s.Canon) : (s.undefer p).Canon := h.updDue

theorem State.Canon.tagSet {n} (h : s.Canon) : (s.tagSet n).Canon := h.updTagsUse.put.raiseMax

theorem State.Canon.stall {x} (h : s.Canon) : (s.stall x).Canon := h.updStalled.bumpUp.defer

theorem State.Canon.issueAs {x f} (h : s.Canon) (k : ∀ u, u.Canon → (f u).Canon) : (s.issueAs x f).Canon :=
  (k _ h.tagSet).ite h.stall

theorem State.Canon.notify (h : s.Canon) : s.notify.Canon := h.issueAs fun _ h => h

theorem State.Canon.free (h : s.Canon) : s.free.2.Canon := h.updFreeCnt

theorem State.Canon.roundFree {num den} (h : s.Canon) : (s.roundFree num den).2.Canon := State.Canon.ite2 h h.free

theorem State.Canon.jrnQueue {r} (h : s.Canon) : (s.jrnQueue r).Canon := h.modJrn.put.ite h.bumpSat

theorem State.Canon.evtLast {r} (h : s.Canon) : (s.evtLast r).Canon := h.wr.wr.putStamp

theorem State.Canon.recordAt {code ctx time writer} (h : s.Canon) : (s.recordAt code ctx time writer).Canon :=
  h.evtLast.jrnQueue

theorem State.Canon.record {code ctx} (h : s.Canon) : (s.record code ctx).Canon := h.recordAt

theorem State.Canon.paddock {det addr v w} (h : s.Canon) : (s.paddock det addr v w).Canon :=
  h.wr.wr.wr.bump.ite (h.wr.wr.wr.bump.record.ite h.wr.wr.wr.bump.record.modJrn)

theorem State.Canon.lockGuard {w a v f} (h : s.Canon) (k : ∀ u, u.Canon → (f u).Canon) : (s.lockGuard w a v f).Canon
  :=
  h.paddock.ite (k _ h)

/-! ## Gates -/

theorem State.Canon.bsStore {n t c} (h : s.Canon) : (s.bsStore n t c).Canon := h.put.putB.modLeg

theorem State.Canon.bsSync {n t} (h : s.Canon) : (s.bsSync n t).Canon := h.bsStore

theorem State.Canon.bsExit {n} (h : s.Canon) : (s.bsExit n).Canon := h.bsStore.modLeg

theorem State.Canon.setBall {n sw lvl at_} (h : s.Canon) : (s.setBall n sw lvl at_).Canon :=
  h.ite (by split; exacts [h.bsSync.modLeg.modLeg, h.bsSync.modLeg.modLeg.bsStore.modLeg.ite h.bsSync.modLeg.modLeg])

theorem State.Canon.setExps {n sw l} (h : s.Canon) : (s.setExps n sw l).Canon := by
  unfold State.setExps
  split <;> exact h.modLeg

theorem State.Canon.openExp {n sw turnOn at_ id} (h : s.Canon) : (s.openExp n sw turnOn at_ id).Canon :=
  h.setExps.ite h

theorem State.Canon.etcFail {n id} (h : s.Canon) : (s.etcFail n id).Canon := by
  unfold State.etcFail
  split
  · exact h
  · split
    · exact h
    · exact h.modLeg

theorem State.Canon.cancelPend {n} (h : s.Canon) : (s.cancelPend n).Canon := by
  unfold State.cancelPend
  split
  · exact h
  · exact h.modLeg.etcFail

theorem State.Canon.carryZero {n} (h : s.Canon) : (s.carryZero n).Canon := h.modLeg.wr

theorem State.Canon.emitRaw {n sw lvl at_ id} (h : s.Canon) : (s.emitRaw n sw lvl at_ id).Canon :=
  h.ite (((h.raiseBit.ite h).setBall).openExp)

theorem State.Canon.latchGate {n stamp} (h : s.Canon) : (s.latchGate n stamp).Canon := by
  unfold State.latchGate
  dsimp only
  exact h.ite (by split; exacts [h.modLeg, h.modLeg.modLeg.ite h.modLeg.emitRaw])

theorem State.Canon.groupDrop {t} (h : s.Canon) : (s.groupDrop t).Canon := h.each fun _ _ h => h.modGroup.ite h

theorem State.Canon.liveUpdate {t} (h : s.Canon) : (s.liveUpdate t).Canon := h.putB.modTeam.groupDrop.ite h.putB

theorem State.Canon.tripRecord {n first kind idx cond stamp code ctx} (h : s.Canon) :
  (s.tripRecord n first kind idx cond stamp code ctx).Canon :=
  h.raiseBit.ite h.raiseBit.putB.put.put.put.bump.putStamp.recordAt.modLeg

theorem State.Canon.tripEffect {n} (h : s.Canon) : (s.tripEffect n).Canon := by
  unfold State.tripEffect
  dsimp only
  split
  · exact h.cancelPend.carryZero.putB.modLeg.liveUpdate
  · exact h.cancelPend.carryZero.putB.modLeg

theorem State.Canon.tripLatch {n kind idx cond code ctx} (h : s.Canon) : (s.tripLatch n kind idx cond code ctx).Canon
  :=
  h.latchGate.tripRecord.tripEffect

theorem State.Canon.emitSafe {n sw} (h : s.Canon) : (s.emitSafe n sw).Canon := h.emitRaw.tripLatch.ite h.emitRaw

theorem State.Canon.ascPlace {n sw} (h : s.Canon) : (s.ascPlace n sw).Canon := h.modLeg

theorem State.Canon.ascShow {t} (h : s.Canon) : (s.ascShow t).Canon := by
  unfold State.ascShow
  split
  · exact h
  · exact h.put.ite h

theorem State.Canon.ascCheck {t} (h : s.Canon) : (s.ascCheck t).Canon :=
  h.ite (by split; exacts [h, (h.putB.each fun _ _ h => h.ascPlace).ite h])

theorem State.Canon.safeEntry {t} (h : s.Canon) : (s.safeEntry t).Canon :=
  ((((h.each fun _ _ h => h.cancelPend.emitSafe.emitSafe).each fun _ _ h => h.carryZero).put).putB).ascCheck

theorem State.Canon.ladderClear {t p} (h : s.Canon) : (s.ladderClear t p).Canon :=
  h.each fun _ _ h => h.put.put.ite h

theorem State.Canon.genAbort {g} (h : s.Canon) : (s.genAbort g).Canon := h.putB.putB.raise.ite h

theorem State.Canon.genHalt {t} (h : s.Canon) : (s.genHalt t).Canon := h.each fun _ _ h => h.genAbort.ite h

theorem State.Canon.haltTeam {t cause flt} (h : s.Canon) : (s.haltTeam t cause flt).Canon :=
  (((((((h.put.put.put.ite h.put.put).genHalt).ladderClear).safeEntry).ite
    ((h.put.put.put.ite h.put.put).genHalt)).modTeam).liveUpdate).ite h

theorem State.Canon.teamTripCheck {t} (h : s.Canon) : (s.teamTripCheck t).Canon :=
  h.ite (((h.haltTeam.ite h).ascCheck).ascShow)

theorem State.Canon.tripsDone {l} (h : s.Canon) : (s.tripsDone l).Canon := h.each fun _ _ h => h.teamTripCheck

theorem State.Canon.tripLeg {n kind idx cond code ctx} (h : s.Canon) : (s.tripLeg n kind idx cond code ctx).Canon :=
  h.tripLatch.tripsDone

theorem State.Canon.ilkTrip {n det sw} (h : s.Canon) : (s.ilkTrip n det sw).Canon := h.tripLeg

theorem State.Canon.emitEdge {n sw lvl at_ id} (h : s.Canon) : (s.emitEdge n sw lvl at_ id).Canon :=
  h.ite (h.emitRaw.ilkTrip.ite h.emitRaw)

theorem State.Canon.ilkDrop {n} (h : s.Canon) : (s.ilkDrop n).Canon := h.cancelPend.raise.modLeg

theorem State.Canon.pendFor {n want} (h : s.Canon) : (s.pendFor n want).Canon := by
  unfold State.pendFor
  split
  · exact h.ite (h.ilkDrop.ite h.cancelPend)
  · exact h

theorem State.Canon.stage7 {n want at_ id} (h : s.Canon) : (s.stage7 n want at_ id).Canon := by
  unfold State.stage7
  refine h.ite ?_
  extract_lets high low waiting
  have hhigh : high.Canon := h.emitEdge.ite h
  have hwaiting : waiting.Canon := (hhigh.emitEdge.ite hhigh).pendFor
  split
  · exact hwaiting
  · exact hwaiting.ite (hwaiting.ascPlace.ite hwaiting.modLeg)

theorem State.Canon.stageOut {n at_ id} (h : s.Canon) : (s.stageOut n at_ id).Canon :=
  ((h.modLeg.raise.bump.ite h).putB).stage7

/-! ## Carriers -/

theorem State.Canon.setCarry {n c} (h : s.Canon) : (s.setCarry n c).Canon := h.wr

theorem State.Canon.withTeam {n f} (h : s.Canon) (k : ∀ t, (f t).Canon) : (s.withTeam n f).Canon := by
  unfold State.withTeam
  split
  · exact k _
  · exact h

theorem State.Canon.mpSchedule {n mH mL hAt lAt} (h : s.Canon) : (s.mpSchedule n mH mL hAt lAt).Canon :=
  ((h.undefer.modLeg.defer.ite h.undefer.modLeg).defer).ite (h.undefer.modLeg.defer.ite h.undefer.modLeg)

theorem State.Canon.mpCountNow {n m} (h : s.Canon) : (s.mpCountNow n m).Canon := by
  unfold State.mpCountNow
  split
  · exact h
  · exact h.modLeg.raise.bump
  · exact h.modLeg.raise.bump
  · exact h.modLeg.raise.bump
  · exact h.modLeg.raise.bump

theorem State.Canon.evalVar {n t} (h : s.Canon) : (s.evalVar n t).Canon := by
  unfold State.evalVar
  split <;> exact (((h.raise.ite h).setCarry).modLeg).mpSchedule

theorem State.Canon.polSeen {n} (h : s.Canon) : (s.polSeen n).Canon := h.ite h.carryZero.modLeg

theorem State.Canon.evalFixed {n t again x} (h : s.Canon) : (s.evalFixed n t again x).Canon := by
  unfold State.evalFixed
  exact h.modLeg.carryZero.modLeg.ite (by
      split <;> exact (by
          split <;> exact (by
              split <;> exact ((((((h.modLeg.raise.ite h.modLeg).raise).setCarry).ite
                ((h.modLeg.raise.ite h.modLeg).setCarry)).ite (h.modLeg.raise.ite h.modLeg)).modLeg).mpSchedule)))

theorem State.Canon.evalLeg {n again x} (h : s.Canon) : (s.evalLeg n again x).Canon :=
  h.withTeam fun _ => (h.ite h.evalVar).ite (h.polSeen.ite h.polSeen.evalFixed)

theorem State.Canon.etcCheck {n} (h : s.Canon) : (s.etcCheck n).Canon := (h.putB.ite h).modLeg

theorem State.Canon.etcEndPeriod {n} (h : s.Canon) : (s.etcEndPeriod n).Canon := h.modLeg.etcCheck

theorem State.Canon.etcOpen {n toActive tc} (h : s.Canon) : (s.etcOpen n toActive tc).2.Canon :=
  State.Canon.ite2 h.modLeg.modLeg h.modLeg

theorem State.Canon.cmdOn {n x tc clip} (h : s.Canon) : (s.cmdOn n x tc clip).Canon :=
  (((h.raise.ite h).etcOpen).modLeg).stageOut

theorem State.Canon.cmdOff {n x tc clip} (h : s.Canon) : (s.cmdOff n x tc clip).Canon :=
  (((h.raise.ite h).etcOpen).modLeg).stageOut

theorem State.Canon.pulseNow {n x} (h : s.Canon) : (s.pulseNow n x).Canon := by
  unfold State.pulseNow
  dsimp only
  split
  · exact (State.Canon.cmdOff (by split; exacts [h.cmdOn.ite h, h])).ite (by split; exacts [h.cmdOn.ite h, h])
  · split
    · exact h.cmdOn.ite h
    · exact h

theorem State.Canon.heldLate {n x} (h : s.Canon) : (s.heldLate n x).Canon := by
  unfold State.heldLate
  split
  · exact h.ilkDrop.ite h
  · exact h

theorem State.Canon.legBegin {n} (h : s.Canon) : (s.legBegin n).Canon := h.evalLeg.modLeg

theorem State.Canon.legPeriod {n x up} (h : s.Canon) : (s.legPeriod n x up).Canon := by
  unfold State.legPeriod
  split <;> exact
    ((((((((((h.raise.ite h).etcEndPeriod).modLeg).putB).putStamp).legBegin).etcOpen).modLeg).stageOut).ite
    ((((((h.raise.ite h).etcEndPeriod).modLeg).putB).putStamp).legBegin)).heldLate

theorem State.Canon.legGap {n t x} (h : s.Canon) : (s.legGap n t x).Canon := by
  unfold State.legGap
  dsimp only
  split
  · exact h.cmdOff.ite h
  · exact h

theorem State.Canon.rephase {n} (h : s.Canon) : (s.rephase n).Canon := h.modLeg

theorem State.Canon.stageLeg {n} (h : s.Canon) : (s.stageLeg n).Canon := ((h.each fun _ _ h => h.wrSt).rephase).putB

theorem State.Canon.activateLeg {n} (h : s.Canon) : (s.activateLeg n).Canon := ((h.each fun _ _ h => h.wr).put).putB

theorem State.Canon.ovrUpdate {n} (h : s.Canon) : (s.ovrUpdate n).Canon :=
  (h.put.put.ite h.put.put.putB).ite (((h.put.put.ite h.put.put.putB).carryZero).stageOut)

theorem State.Canon.legUpdate {n} (h : s.Canon) : (s.legUpdate n).Canon := h.ovrUpdate.activateLeg.modLeg

theorem State.Canon.teamCopy {t} (h : s.Canon) : (s.teamCopy t).Canon := by
  unfold State.teamCopy
  exact h.bump.modTeam.modTeam.ite ((((((h.bump.modTeam.putB.raise.ite h.bump.modTeam).modTeam).each fun _ _ h =>
    h.stageLeg.putB).wrSt).wrSt).wr)

theorem State.Canon.applyPer {t} (h : s.Canon) : (s.applyPer t).Canon := h.wr.put.ite h.wr

theorem State.Canon.epochIdx {t k} (h : s.Canon) : (s.epochIdx t k).Canon := h.wr.put

theorem State.Canon.perRefuse {t} (h : s.Canon) : (s.perRefuse t).Canon := ((h.wrSh.ite h).wrSt).raise

theorem State.Canon.epochActs {t x k} (h : s.Canon) : (s.epochActs t x k).Canon := by
  unfold State.epochActs
  extract_lets marked lock warm seeded dithered settled aligned
  have hwarm : warm.Canon := h.modTeam.epochIdx.putB.ite h.modTeam.epochIdx
  have hseeded : seeded.Canon := hwarm.put.putB.ite hwarm
  have hdithered : dithered.Canon := hseeded.putB.ite hwarm
  have haligned : aligned.Canon := hdithered.putB.putB
  exact haligned.ite (haligned.applyPer.ite haligned.perRefuse)

theorem State.Canon.periodLen {t} (h : s.Canon) : (s.periodLen t).2.Canon :=
  State.Canon.ite2 ((h.ite h.applyPer).modTeam) (State.Canon.ite2 ((((h.ite h.applyPer).put).putB).modTeam)
    ((h.ite h.applyPer).putB))

theorem State.Canon.firstRun {n} (h : s.Canon) : (s.firstRun n).Canon := h.legBegin.modLeg.ite h

theorem State.Canon.enterRun {t} (h : s.Canon) : (s.enterRun t).Canon :=
  (h.put.put.putB.each fun _ _ h => h.cancelPend.bsExit.modLeg.firstRun.stageOut).liveUpdate

theorem State.Canon.loopClose {t} (h : s.Canon) : (s.loopClose t).Canon := h.modTeam.enterRun.ite h.modTeam

theorem State.Canon.teamStart {t x} (h : s.Canon) : (s.teamStart t x).Canon := by
  unfold State.teamStart
  extract_lets form upd copied acted prev wasStarted
  have hcopied : copied.Canon := h.teamCopy.ite h
  have hacted : acted.Canon := by
    unfold acted
    split
    · exact hcopied.epochActs
    · exact hcopied
  have leg {v w : Prop} [Decidable v] [Decidable w] {n x f ph l t x'} {u : State} (h : u.Canon) :
      State.Canon (if v then (((if upd then u.legUpdate n else u).put (F.LEG_PHASE_PHASE n) ph).legPeriod n x l)
        else (if w then (u.modLeg n f).legGap n t x' else u.modLeg n f)) :=
    (h.legUpdate.ite h).put.legPeriod.ite (h.modLeg.legGap.ite h.modLeg)
  exact .ite (.loopClose (.each hacted.periodLen.modTeam.put.bump fun _ _ h => leg h))
    (.each hacted.periodLen.modTeam.put.bump fun _ _ h => leg h)

theorem State.Canon.legStart {n x} (h : s.Canon) : (s.legStart n x).Canon := by
  unfold State.legStart
  split
  · exact (h.withTeam fun _ => ((h.modLeg.legUpdate.ite h.modLeg).put).legPeriod).ite h
  · exact h

theorem State.Canon.legCentre {n} (h : s.Canon) : (s.legCentre n).Canon :=
  h.withTeam fun _ => h.legUpdate.evalLeg.pulseNow.heldLate.stageOut.ite h

theorem State.Canon.teamCentre {t} (h : s.Canon) : (s.teamCentre t).Canon := by
  unfold State.teamCentre
  exact ((((((h.teamCopy.applyPer.ite h.teamCopy).modTeam).ite (h.teamCopy.applyPer.ite h.teamCopy)).put).ite
    (((h.teamCopy.applyPer.ite h.teamCopy).modTeam).ite (h.teamCopy.applyPer.ite h.teamCopy))).each fun _ _ h =>
    ((h.modLeg.ite h).legCentre).ite h).loopClose

/-! ## Edges -/

theorem State.Canon.compareEdge {n fine} (h : s.Canon) : (s.compareEdge n fine).Canon := by
  refine h.withTeam fun t => ?_
  dsimp only
  split
  · exact h.cmdOn
  · exact h.cmdOff
  · exact h.legGap.ite h

theorem State.Canon.restartCrossing {t rising} (h : s.Canon) : (s.restartCrossing t rising).Canon := by
  unfold State.restartCrossing
  split
  · exact h
  · exact (h.modTeam.modTeam.ite h.modTeam).ite h

theorem State.Canon.restartStretch {t n} (h : s.Canon) : (s.restartStretch t n).Canon := h.mpCountNow.modLeg

theorem State.Canon.periodRestart {t fine} (h : s.Canon) : (s.periodRestart t fine).Canon := by
  unfold State.periodRestart
  split
  · exact (((h.restartStretch.ite h).put).teamStart).ite h
  · exact h

theorem State.Canon.periodTimeout {t fine} (h : s.Canon) : (s.periodTimeout t fine).Canon := by
  unfold State.periodTimeout
  split
  · exact h
  · exact ((h.bump.put.restartStretch.ite h.bump.put).teamStart).ite h

theorem State.Canon.turnOn {n p} (h : s.Canon) : (s.turnOn n p).Canon :=
  h.modLeg.emitEdge.withTeam fun _ => h.modLeg.emitEdge.ascShow

theorem State.Canon.deadTimeEnd {n fine} (h : s.Canon) : (s.deadTimeEnd n fine).Canon := by
  unfold State.deadTimeEnd
  split
  · exact h
  · exact ((h.turnOn.ite (h.modLeg.ite h.modLeg.raise)).ite h.turnOn).ite h

theorem State.Canon.ilkCancel {n fine} (h : s.Canon) : (s.ilkCancel n fine).Canon := by
  unfold State.ilkCancel
  split
  · exact h.ilkDrop.ite h
  · exact h

theorem State.Canon.storeCor {n} (h : s.Canon) : (s.storeCor n).Canon := h.putI.putI

theorem State.Canon.etcUpdate {n r h' l} (h : s.Canon) : (s.etcUpdate n r h' l).Canon :=
  ((((((h.raise.ite h).modLeg).ite ((h.raise.ite h).modLeg)).storeCor).ite (h.raise.ite h)).modLeg).etcCheck

theorem State.Canon.etcReport {n sw stamp id} (h : s.Canon) : (s.etcReport n sw stamp id).Canon := by
  unfold State.etcReport
  dsimp only
  split
  · exact h
  · split
    · exact (by split; exacts [h.modLeg.etcUpdate, h.modLeg])
    · exact h.modLeg

theorem State.Canon.etcRestart {n id} (h : s.Canon) : (s.etcRestart n id).Canon := h.etcFail.putB

theorem State.Canon.reportSeen {n sw healthy stamp} (h : s.Canon) : (s.reportSeen n sw healthy stamp).Canon := by
  unfold State.reportSeen
  split <;> exact h.wr.putB.modLeg

theorem State.Canon.releaseHeld {n} (h : s.Canon) : (s.releaseHeld n).Canon := by
  unfold State.releaseHeld
  split
  · exact h.modLeg.ite h
  · exact h

theorem State.Canon.forceCheck {n} (h : s.Canon) : (s.forceCheck n).Canon := h.stageOut.ite h

theorem State.Canon.ilkMax {n d} (h : s.Canon) : (s.ilkMax n d).Canon := h.raiseMax

theorem State.Canon.expMissing {n sw} (h : s.Canon) : (s.expMissing n sw).Canon := by
  unfold State.expMissing
  split
  · exact h.setExps.etcRestart.ilkTrip
  · exact h

theorem State.Canon.reportChange {n sw level fine} (h : s.Canon) : (s.reportChange n sw level fine).Canon := by
  unfold State.reportChange
  extract_lets stamp healthy missed seen judged released
  have hseen : seen.Canon := .reportSeen (h.each fun _ _ h => h.expMissing.ite h)
  have hjudged : judged.Canon := by
    unfold judged
    split
    · exact .ite (.etcReport (.ite hseen.setExps.ilkMax hseen.setExps)) hseen.ilkTrip
    · exact hseen.bumpSat.ite hseen.ilkTrip
  have hreleased : released.Canon := hjudged.releaseHeld.forceCheck.ite hjudged
  exact h.ite (hseen.ite (hreleased.withTeam fun _ => hreleased.ascCheck.ite hreleased))

theorem State.Canon.reportTimeout {n sw} (h : s.Canon) : (s.reportTimeout n sw).Canon := by
  unfold State.reportTimeout
  split
  · exact h.expMissing.ite h
  · exact h

theorem State.Canon.bothOn {n} (h : s.Canon) : (s.bothOn n).Canon := h.ilkTrip.ite h

theorem State.Canon.rptPolarity {n} (h : s.Canon) : (s.rptPolarity n).Canon :=
  (h.ite h.putB).ite ((h.ite h.putB).putB)

theorem State.Canon.bootRefresh {n} (h : s.Canon) : (s.bootRefresh n).Canon := h.bsSync.stageOut.ite h.bsSync

theorem State.Canon.refreshEnd {n fine} (h : s.Canon) : (s.refreshEnd n fine).Canon :=
  h.bsStore.modLeg.stageOut.ite h

theorem State.Canon.ovrWrite {w n v} (h : s.Canon) : (s.ovrWrite w n v).Canon :=
  (((((h.paddock.raise.ite h).putB).putB).putB).defer).ite ((((h.paddock.raise.ite h).putB).putB).putB)

theorem State.Canon.forceNow {n} (h : s.Canon) : (s.forceNow n).Canon := h.putB.carryZero.modLeg.stageOut.ite h

theorem State.Canon.legTrigger {n c d} (h : s.Canon) : (s.legTrigger n c d).Canon := by
  unfold State.legTrigger
  dsimp only
  split
  · exact h
  · exact h.bump.putStamp.put

theorem State.Canon.enterWait {t} (h : s.Canon) : (s.enterWait t).Canon :=
  h.put.ladderClear.each fun _ _ h => h.modLeg

theorem State.Canon.teamEnable {t} (h : s.Canon) : (s.teamEnable t).Canon :=
  (h.raise.ite h.putB.enterWait).ite h.putB

theorem State.Canon.teamDisable {t} (h : s.Canon) : (s.teamDisable t).Canon := h.putB.defer

theorem State.Canon.teamOffNow {t} (h : s.Canon) : (s.teamOffNow t).Canon :=
  ((h.put.put.ladderClear.safeEntry.ite h.put.put).liveUpdate).ite h

theorem State.Canon.teamResume {t} (h : s.Canon) : (s.teamResume t).Canon := (h.raise.ite h.enterWait).ite h

theorem State.Canon.teamCtlWrite {t en resume} (h : s.Canon) : (s.teamCtlWrite t en resume).Canon :=
  (h.teamEnable.teamResume.ite h.teamEnable).ite h.teamDisable

/-! ## Protection -/

theorem State.Canon.modFilt {src c f} (h : s.Canon) : (s.modFilt src c f).Canon := by
  unfold State.modFilt
  split
  · exact h.modCmp
  · exact h.modCmp
  · exact h.modSdmTrip
  · exact h.modSdmTrip
  · exact h.modTin
  · exact h

theorem State.Canon.activeUpdate {src} (h : s.Canon) : (s.activeUpdate src).Canon := h.each fun _ _ h => h.putB

theorem State.Canon.filtTripLegs {src c l} (h : s.Canon) : (s.filtTripLegs src c l).Canon := by
  unfold State.filtTripLegs
  split <;> exact (h.each fun _ _ h => h.tripLatch).tripsDone

theorem State.Canon.fastAssert {k c x} (h : s.Canon) : (s.fastAssert k c x).Canon :=
  h.each fun _ _ h => h.ite h.latchGate.modLeg

theorem State.Canon.fastSeen {n h'} (h : s.Canon) : (s.fastSeen n h').Canon := by
  unfold State.fastSeen
  split <;> exact h.tripRecord

theorem State.Canon.tripSeen {n} (h : s.Canon) : (s.tripSeen n).Canon :=
  h.ite (((h.modLeg.each fun _ _ h => h.fastSeen).tripEffect).tripsDone)

theorem State.Canon.setCond {src c lvl at_} (h : s.Canon) : (s.setCond src c lvl at_).Canon :=
  h.ite (h.modFilt.ite h.modFilt.defer)

theorem State.Canon.tinStat {src} (h : s.Canon) : (s.tinStat src).Canon := by
  unfold State.tinStat
  split
  · exact h.setBit
  · exact h

theorem State.Canon.filtRelease {src c} (h : s.Canon) : (s.filtRelease src c).Canon :=
  h.modFilt.tinStat.activeUpdate.ite h

theorem State.Canon.filteredTrip {src c} (h : s.Canon) : (s.filteredTrip src c).Canon :=
  h.modFilt.tinStat.filtTripLegs.activeUpdate.ite h

theorem State.Canon.cmpShow {k c lvl stamp} (h : s.Canon) : (s.cmpShow k c lvl stamp).Canon :=
  (State.Canon.wr (by split <;> exact h.putB.raise.bump.ite h.putB)).wr

theorem State.Canon.cmpHold {k c} (h : s.Canon) : (s.cmpHold k c).Canon :=
  (h.cmpShow.fastAssert.ite h.cmpShow).ite h

theorem State.Canon.cmpKnownNow {k c lvl stamp} (h : s.Canon) : (s.cmpKnownNow k c lvl stamp).Canon :=
  h.cmpShow.activeUpdate

theorem State.Canon.cmpCondEdge {k c lvl fine} (h : s.Canon) : (s.cmpCondEdge k c lvl fine).Canon :=
  h.ite (h.setCond.defer.fastAssert.ite h.setCond.defer)

theorem State.Canon.cmpCrossing {k v fine} (h : s.Canon) : (s.cmpCrossing k v fine).Canon :=
  h.cmpCondEdge.cmpCondEdge

theorem State.Canon.cmpSampleCond {k c lvl} (h : s.Canon) : (s.cmpSampleCond k c lvl).Canon :=
  ((h.modFilt.cmpShow.ite h.modFilt).modFilt).ite (h.modFilt.cmpShow.ite h.modFilt)

theorem State.Canon.cmpSample {k v} (h : s.Canon) : (s.cmpSample k v).Canon :=
  h.putB.cmpSampleCond.cmpSampleCond.activeUpdate.ite h

theorem State.Canon.cmpPaths {k} (h : s.Canon) : (s.cmpPaths k).Canon :=
  (((h.put.ite h).put).ite (h.put.ite h)).ite h

theorem State.Canon.cmpSetup {k} (h : s.Canon) : (s.cmpSetup k).Canon := by
  unfold State.cmpSetup
  dsimp only
  split_ifs
  · exact h
  · exact h.cmpPaths.putB.modFilt.putB.defer.modFilt.putB.defer.activeUpdate
  · exact h.cmpPaths.modFilt.putB.defer.modFilt.putB.defer.activeUpdate

theorem State.Canon.cmpLock {k} (h : s.Canon) : (s.cmpLock k).Canon := by
  have one (c : Cond) {u : State} (h : u.Canon) : State.Canon (if (u.srcFilt (.cmp k) c).raw then u
      else
        let at_ := if u.cmpMode k = 1 then u.now + 3 else u.now
        let s := (u.setCond (.cmp k) c true at_).defer at_ (.cmpKnown k c true u.now)
        if s.isFast k c then s.fastAssert k c s.nowF else s) :=
    h.ite (.ite h.setCond.defer.fastAssert h.setCond.defer)
  exact .ite (.activeUpdate (one .l (one .h h.modCmp.putB))) h.modCmp

theorem State.Canon.blankingEnd {n fine} (h : s.Canon) : (s.blankingEnd n fine).Canon :=
  (h.each fun _ _ h => h.latchGate.modLeg.ite h).ite h

theorem State.Canon.softOffStep2 {n fine} (h : s.Canon) : (s.softOffStep2 n fine).Canon := by
  unfold State.softOffStep2
  split
  · exact h.emitRaw.modLeg.putB.tripsDone.ite h
  · exact h

theorem State.Canon.releaseLatch {n} (h : s.Canon) : (s.releaseLatch n).Canon := h.modLeg.putB.putB.putB.putB.bsExit

theorem State.Canon.tripClear {n} (h : s.Canon) : (s.tripClear n).Canon :=
  h.ite (h.releaseLatch.ite (h.raise.bump.putB.ite h.raise.bump))

theorem State.Canon.autoRearm {n} (h : s.Canon) : (s.autoRearm n).Canon := h.releaseLatch.ite h

theorem State.Canon.tinEdge {i lvl} (h : s.Canon) : (s.tinEdge i lvl).Canon := h.modTin.setCond

theorem State.Canon.tinPolarity {i} (h : s.Canon) : (s.tinPolarity i).Canon := h.setCond

theorem State.Canon.tinSetup {i} (h : s.Canon) : (s.tinSetup i).Canon := h.modFilt.tinStat.activeUpdate

theorem State.Canon.safeNLow {edge} (h : s.Canon) : (s.safeNLow edge).Canon :=
  h.ite (h.updSafe.putB.bumpSat.each fun _ _ h => h.haltTeam)

theorem State.Canon.safeNHigh {edge} (h : s.Canon) : (s.safeNHigh edge).Canon := h.ite h.updSafe.putB

theorem State.Canon.inbandUpdate (h : s.Canon) : s.inbandUpdate.Canon := h.putB.putB.putB

theorem State.Canon.cmpBandExit {k c fault} (h : s.Canon) : (s.cmpBandExit k c fault).Canon := by
  unfold State.cmpBandExit
  extract_lets left restarted shown judged
  have hleft : left.Canon := by
    unfold left
    split <;> exact h.putB
  have hrestarted : restarted.Canon := hleft.modFilt
  have hshown : shown.Canon := by
    refine .ite ?_ hrestarted.cmpShow
    split <;> exact hrestarted.putB
  have hjudged : judged.Canon := hleft.ite hshown.activeUpdate
  exact h.ite hjudged.inbandUpdate

theorem State.Canon.tinBandExit {i fault} (h : s.Canon) : (s.tinBandExit i fault).Canon :=
  h.ite ((h.setBit.modTin.ite h.setBit.modTin.modFilt.tinStat.activeUpdate).inbandUpdate)

theorem State.Canon.rptBandExit {n sw fault} (h : s.Canon) : (s.rptBandExit n sw fault).Canon := by
  unfold State.rptBandExit
  extract_lets left seen checked released
  have hleft : left.Canon := by
    unfold left
    split <;> exact h.putB
  have hseen : seen.Canon := hleft.reportSeen
  have hchecked : checked.Canon := hseen.releaseHeld.forceCheck
  have hreleased : released.Canon := hseen.ite (hchecked.withTeam fun _ => hchecked.ascCheck)
  exact h.ite hreleased.inbandUpdate

theorem State.Canon.safeBandExit (h : s.Canon) : s.safeBandExit.Canon := h.updSafe.putB.inbandUpdate.ite h

/-! ## Groups and teams -/

theorem State.Canon.groupLock {g bad} (h : s.Canon) : (s.groupLock g bad).Canon :=
  h.ite (h.putB.putB.ite (h.putB.putB.modGroup.each fun _ _ h => h.put))

theorem State.Canon.capUse (h : s.Canon) : s.capUse.Canon := h.put.put.put

theorem State.Canon.groupReenter {g} (h : s.Canon) : (s.groupReenter g).Canon := h.modGroup.ite h

theorem State.Canon.remoteDrop {g m} (h : s.Canon) : (s.remoteDrop g m).Canon := h.modGroup.modGroup.ite h.modGroup

theorem State.Canon.remoteAlive {g m} (h : s.Canon) : (s.remoteAlive g m).Canon := h.ite h.modGroup

theorem State.Canon.tqLatched {g} (h : s.Canon) : (s.tqLatched g).2.Canon := State.Canon.ite2 h.roundFree h

theorem State.Canon.groupLatch {g} (h : s.Canon) : (s.groupLatch g).Canon := by
  unfold State.groupLatch
  split <;> exact h.tqLatched.modGroup.put.putB.putI.put.ite h.tqLatched.modGroup.put.putB.putI.put.bump

theorem State.Canon.spWrite {t src v} (h : s.Canon) : (s.spWrite t src v).Canon := h.raise.ite h.wr.put.putB

theorem State.Canon.tqWrite {g v} (h : s.Canon) : (s.tqWrite g v).Canon := h.wr.putB

theorem State.Canon.groupCommit {g shares} (h : s.Canon) : (s.groupCommit g shares).Canon :=
  h.ite (h.each fun _ _ h => State.Canon.ite (by split; exacts [h.putI.spWrite, h.putI]) h.putI)

/-! ## Operations of a program -/

theorem State.Canon.freeAcc (h : s.Canon) : s.freeAcc.2.Canon := h.free.free.free

theorem State.Canon.clampAcc {v lo hi} (h : s.Canon) : (s.clampAcc v lo hi).2.Canon := State.Canon.ite2 h h.freeAcc

theorem State.Canon.consecUp {k flt} (h : s.Canon) : (s.consecUp k flt).Canon := by
  unfold State.consecUp
  dsimp only
  split
  · exact (((h.put.record.ite h.put).record).each fun _ _ h => h.haltTeam).ite (h.put.record.ite h.put)
  · exact h.put

theorem State.Canon.freeLane {l} (h : s.Canon) : (s.freeLane l).Canon :=
  State.Canon.put (by split; exacts [h.modCe, h])

theorem State.Canon.readyShow (h : s.Canon) : s.readyShow.Canon := h.put

theorem State.Canon.queueRun {r} (h : s.Canon) : (s.queueRun r).Canon := h.modCe.readyShow.ite h.modCe

theorem State.Canon.groupNext {k} (h : s.Canon) : (s.groupNext k).Canon := by
  unfold State.groupNext
  split
  · split
    · exact h.modCe.putB.queueRun
    · exact h
  · exact h

theorem State.Canon.cycCount {r} (h : s.Canon) : (s.cycCount r).Canon := h.raiseMax.raise.ite h.raiseMax

theorem State.Canon.runFail {l r code ctx} (h : s.Canon) : (s.runFail l r code ctx).Canon :=
  h.freeLane.record.bump.cycCount.putB.consecUp.groupNext

theorem State.Canon.eccCorr {m w} (h : s.Canon) : (s.eccCorr m w).Canon := h.bumpSat.ite h.bumpSat.record.modCe

theorem State.Canon.eccDed {m w} (h : s.Canon) : (s.eccDed m w).Canon := h.bumpSat.wr

theorem State.Canon.strike {x1} (h : s.Canon) : (s.strike x1).Canon := by
  unfold State.strike
  dsimp only
  split
  · exact h.ite h.updUpset
  · exact h.ite h.updUpset
  · exact h

theorem State.Canon.eccRead {k} (h : s.Canon) : (s.eccRead k).2.Canon := by
  unfold State.eccRead
  split
  · exact h.updUpset.eccCorr
  · exact h
  · exact h

theorem State.Canon.eccReads {l} (h : s.Canon) : (s.eccReads l).2.Canon := by
  induction l generalizing s with
  | nil => exact h
  | cons k l ih =>
    have read := h.eccRead (k := k)
    unfold State.eccReads
    split <;> rename_i e <;> rw [e] at read
    · exact read
    · exact ih read

theorem State.Canon.busWord {k} (h : s.Canon) : (s.busWord k).2.Canon := by
  have read := h.eccRead (k := k)
  unfold State.busWord
  split <;> rename_i e <;> rw [e] at read
  · exact read
  · exact read.eccDed.record

theorem State.Canon.loadSync (h : s.Canon) : s.loadSync.Canon := by
  unfold State.loadSync
  refine h.ite ?_
  dsimp only
  split
  · exact (h.raiseMax.ite h.putMax).put.modCe
  · exact (h.roundFree.raiseMax.ite h.roundFree.putMax).put.modCe

theorem State.Canon.busyAdd {l n} (h : s.Canon) : (s.busyAdd l n).Canon := h.loadSync.modCe.ite h

theorem State.Canon.runPut {l r} (h : s.Canon) : (s.runPut l r).Canon := h.runFail.ite h.modCe

theorem State.Canon.dedFail {l r e} (h : s.Canon) : (s.dedFail l r e).Canon := h.eccDed.runFail

theorem State.Canon.ceOp {l o chk body} (h : s.Canon) (k : ∀ u r, u.Canon → (body u r).1.Canon) :
    (s.ceOp l o chk body).Canon := by
  unfold State.ceOp
  dsimp only
  split
  · exact h.strike
  · rename_i r _
    refine h.strike.ite (h.strike.runFail.ite ?_)
    have fetched := (h.strike (x1 := chk)).eccReads (l := State.fetchKeys r)
    split <;> rename_i e <;> rw [e] at fetched
    · exact fetched.busyAdd.dedFail
    · refine fetched.runFail.ite (h.strike.ite (fetched.busyAdd.runPut.ite ?_))
      rename_i s1
      have read := (fetched.busyAdd (l := l) (n := opCycles o.opc)).eccReads (l := s1.opReads r o)
      split <;> rename_i e <;> rw [e] at read
      · exact read.dedFail
      · split
        · exact read.runFail
        · exact read.runFail
        · exact (k _ _ read).runPut

theorem State.Canon.pureOp {f r} (h : s.Canon) : (Machine.pureOp f s r).1.Canon := h

theorem State.Canon.bodyAcc {a f x2 x3} (h : x2.Canon) : (Machine.bodyAcc a f x2 x3).1.Canon := h.pureOp

theorem State.Canon.bodySTS {a x m x3 x4} (h : x3.Canon) : (Machine.bodySTS a x m x3 x4).1.Canon := h.pureOp

theorem State.Canon.bodyNeg {a cond r} (h : s.Canon) : (Machine.bodyNeg a cond s r).1.Canon := by
  unfold Machine.bodyNeg
  exact .ite1 h (.ite1 h.freeAcc h)

theorem State.Canon.bodyLIM {a y r} (h : s.Canon) : (Machine.bodyLIM a y s r).1.Canon := h.clampAcc

theorem State.Canon.bodyVLIM {a x x2 x3} (h : x2.Canon) : (Machine.bodyVLIM a x x2 x3).1.Canon := h.pureOp

theorem State.Canon.bodyBIQ {a x y m r} (h : s.Canon) : (Machine.bodyBIQ a x y m s r).1.Canon := by
  unfold Machine.bodyBIQ
  exact State.Canon.ite2 h.clampAcc h

theorem State.Canon.bodyAMUL {a y x2 x3} (h : x2.Canon) : (Machine.bodyAMUL a y x2 x3).1.Canon := h.pureOp

theorem State.Canon.bodyTLU {a x y x3 x4} (h : x3.Canon) : (Machine.bodyTLU a x y x3 x4).1.Canon := h.pureOp

theorem State.Canon.bodySINCOS {a x x2 x3} (h : x2.Canon) : (Machine.bodySINCOS a x x2 x3).1.Canon := h.pureOp

theorem State.Canon.bodyDIV {a x x2 x3} (h : x2.Canon) : (Machine.bodyDIV a x x2 x3).1.Canon := h.pureOp

theorem State.Canon.bodySQRT {a x1 x2} (h : x1.Canon) : (Machine.bodySQRT a x1 x2).1.Canon := h.pureOp

theorem State.Canon.bodySkip {m cond x2 x3} (h : x2.Canon) : (Machine.bodySkip m cond x2 x3).1.Canon := h.pureOp

theorem State.Canon.bodyCAP {x y x2 x3} (h : x2.Canon) : (Machine.bodyCAP x y x2 x3).1.Canon := h.pureOp

theorem State.Canon.bodySETF {y x1 x2} (h : x1.Canon) : (Machine.bodySETF y x1 x2).1.Canon := h.pureOp

theorem State.Canon.ceEnd {l o chk} (h : s.Canon) : (s.ceEnd l o chk).Canon := by
  have op := h.ceOp (l := l) (o := o) (chk := chk)
    (body := fun s r => (s, { r with skip := 0, ended := some s.now })) fun _ _ h => h
  unfold State.ceEnd
  dsimp only
  split
  · exact op
  · exact op.ite (.cycCount (op.freeLane.modCe.ite op))

theorem State.Canon.scrubStep {chk} (h : s.Canon) : (s.scrubStep chk).Canon := by
  have read (k : Nat) {u : State} (h : u.Canon) : (match u.eccRead k with
      | (none, s) => s
      | (some (m, w), s) => (s.eccDed m w).record (fcode cECC 3) (eccCtx m w)).Canon := by
    have read := h.eccRead (k := k)
    split <;> rename_i e <;> rw [e] at read
    · exact read
    · exact read.eccDed.record
  unfold State.scrubStep
  exact h.strike.ite (read _ h.strike.modCe)

/-! ## Sigma-delta channels -/

theorem State.Canon.ckStart {g} (h : s.Canon) : (s.ckStart g).Canon := h.updSdmCk.ite h

theorem State.Canon.sdmSat {c sat t} (h : s.Canon) : (s.sdmSat c sat t).Canon := ((h.raise.ite h.putB).bump).ite h

theorem State.Canon.ocPeak {c r} (h : s.Canon) : (s.ocPeak c r).Canon :=
  (((h.putI.ite h).putI).ite (h.putI.ite h)).ite h

theorem State.Canon.ocTick {c t} (h : s.Canon) : (s.ocTick c t).Canon := by
  unfold State.ocTick
  split <;> exact h.putI.sdmSat.ocPeak

theorem State.Canon.ocPeakNow {c} (h : s.Canon) : (s.ocPeakNow c).Canon := h.ite h.ocPeak

theorem State.Canon.ocTicks {c t0 k} (h : s.Canon) : (s.ocTicks c t0 k).Canon := by
  induction k with
  | zero => exact h
  | succ k ih => exact ih.ocTick

theorem State.Canon.ocSync {c t} (h : s.Canon) : (s.ocSync c t).Canon := h.ite h.ocTicks.modSdm

theorem State.Canon.ocCondSet {c cond} (h : s.Canon) : (s.ocCondSet c cond).Canon :=
  (State.Canon.setCond (by split <;> exact h.putB)).activeUpdate

theorem State.Canon.ocConds {c} (h : s.Canon) : (s.ocConds c).Canon := h.ocCondSet.ocCondSet

theorem State.Canon.overCurrent {c cond} (h : s.Canon) : (s.overCurrent c cond).Canon := h.ocSync.ocCondSet

theorem State.Canon.sdmHistLost {c a} (h : s.Canon) : (s.sdmHistLost c a).Canon :=
  h.ocSync.modSdm.putB.putB.setBit.put.ocConds

theorem State.Canon.sdmSetup {c} (h : s.Canon) : (s.sdmSetup c).Canon := h.ite h.modSdm.sdmHistLost

theorem State.Canon.sdmHistStart {c k} (h : s.Canon) : (s.sdmHistStart c k).Canon := h.modSdm.putB

theorem State.Canon.sdmBit {c k b} (h : s.Canon) : (s.sdmBit c k b).Canon := by
  unfold State.sdmBit
  dsimp only
  split
  · exact h.ocSync.modSdm.sdmHistStart.ite h.ocSync.modSdm
  · exact h.ocSync.modSdm.sdmHistStart.ite h.ocSync.modSdm
  · exact h.ocSync.modSdm
  · exact h.ocSync.modSdm.modSdm.ite h.ocSync.modSdm

theorem State.Canon.captureClocked {c level trans} (h : s.Canon) : (s.captureClocked c level trans).Canon := by
  unfold State.captureClocked
  split
  · exact h
  · exact ((h.each fun _ _ h => h.raiseBit).sdmBit).ite h

theorem State.Canon.captureMan {c rising fine} (h : s.Canon) : (s.captureMan c rising fine).Canon :=
  h.ite ((((h.modSdm.modSdm.putB.put.ite h.modSdm.modSdm.putB).sdmBit).sdmHistStart).ite
    ((h.modSdm.modSdm.putB.put.ite h.modSdm.modSdm.putB).sdmBit))

theorem State.Canon.decodeError {c} (h : s.Canon) : (s.decodeError c).Canon := by
  unfold State.decodeError
  split
  · exact h.bumpSat.modSdm.sdmBit.ite h
  · exact h

theorem State.Canon.sdmLoss {c det} (h : s.Canon) : (s.sdmLoss c det).Canon :=
  (h.record.raise.bumpSat.sdmHistLost.ite h.record.raise.bumpSat.modSdm.putB.put.sdmHistLost).ite h

theorem State.Canon.ocWarm {c} (h : s.Canon) : (s.ocWarm c).Canon := by
  unfold State.ocWarm
  split
  · exact h.ocSync.putB.ocSync.ocConds.ite h
  · exact h

theorem State.Canon.markChan {c isC isD x} (h : s.Canon) : (s.markChan c isC isD x).Canon :=
  h.ite (h.raise.bump.ite h.modSdm)

theorem State.Canon.converterTrigger {n c d} (h : s.Canon) : (s.converterTrigger n c d).Canon := by
  unfold State.converterTrigger
  dsimp only
  split
  · exact h
  · exact (h.legTrigger.each fun _ _ h => h.markChan).withTeam fun _ =>
      ((h.legTrigger.each fun _ _ h => h.markChan).modTeam).ite (h.legTrigger.each fun _ _ h => h.markChan)

theorem State.Canon.sdmDeliverOne {c m} (h : s.Canon) : (s.sdmDeliverOne c m).Canon := by
  unfold State.sdmDeliverOne
  split <;> exact ((((h.putI.ite h.free.wr).sdmSat).wr).wr).putB

theorem State.Canon.sdmDeliver {c} (h : s.Canon) : (s.sdmDeliver c).Canon :=
  h.modSdm.each fun _ _ h => h.sdmDeliverOne

theorem State.Canon.teamDly {t} (h : s.Canon) : (s.teamDly t).Canon := h.put

theorem State.Canon.osrWrite {c osr} (h : s.Canon) : (s.osrWrite c osr).Canon :=
  h.raise.ite (by split; exacts [h.put.modSdm.putB.put.teamDly, h.put.modSdm.putB.put])

theorem State.Canon.sdmRephase {g last} (h : s.Canon) : (s.sdmRephase g last).Canon := by
  unfold State.sdmRephase
  split
  · exact h
  · exact h.updSdmCk.each fun _ _ h => h.sdmHistLost

/-! ## Feedback -/

theorem State.Canon.motSee {p} (h : s.Canon) : (s.motSee p).Canon := h.modPort.modPort

theorem State.Canon.outPins {m} (h : s.Canon) : (s.outPins m).Canon := by
  unfold State.outPins
  dsimp only
  split <;> exact h.modOut.putB.putB.putB.wr

theorem State.Canon.outRefresh {m} (h : s.Canon) : (s.outRefresh m).Canon :=
  h.outPins.ite (h.modOut.putB.outPins.ite h.putB.modOut.outPins)

theorem State.Canon.outsRefresh (h : s.Canon) : s.outsRefresh.Canon := h.outRefresh.outRefresh

theorem State.Canon.outAngle {m} (h : s.Canon) : (s.outAngle m).Canon := h.modOut

theorem State.Canon.outStep {m} (h : s.Canon) : (s.outStep m).Canon :=
  (((((h.outAngle.outRefresh.modOut.ite h.outAngle.outRefresh).modOut).putB).ite
    (h.outAngle.outRefresh.modOut.ite h.outAngle.outRefresh)).outPins).ite h.outAngle.outRefresh

theorem State.Canon.ladderRamp {p t} (h : s.Canon) : (s.ladderRamp p t).Canon := h.put.modPort.put.record.liveUpdate

theorem State.Canon.ladderTick {p} (h : s.Canon) : (s.ladderTick p).Canon := by
  unfold State.ladderTick
  split
  · exact h
  · exact h.ite (h.put.ite (h.ladderRamp.ite h))

theorem State.Canon.ladderEntry {p v} (h : s.Canon) : (s.ladderEntry p v).Canon := by
  unfold State.ladderEntry
  split
  · exact h
  · exact h.ite (h.put.record.ladderTick.ite h.ladderRamp)

theorem State.Canon.ladderTicks (h : s.Canon) : s.ladderTicks.Canon := h.each fun _ _ h => h.motSee.ladderTick

theorem State.Canon.ladderEnd {p} (h : s.Canon) : (s.ladderEnd p).Canon := by
  unfold State.ladderEnd
  split
  · exact h
  · exact h.put.put.record.haltTeam.ite h

theorem State.Canon.spdRestart {p} (h : s.Canon) : (s.spdRestart p).Canon := h.modPort.putB

theorem State.Canon.portLoss {p det at_} (h : s.Canon) : (s.portLoss p det at_).Canon :=
  ((((((((h.ite h.recordAt).wr).raise).putB).putB).spdRestart).modPort).ladderEntry).outsRefresh

theorem State.Canon.posValid {p} (h : s.Canon) : (s.posValid p).Canon := h.ite h.putB.putB.outsRefresh.ladderTick

theorem State.Canon.unitFireBase {p k stamp} (h : s.Canon) : (s.unitFireBase p k stamp).Canon := by
  unfold State.unitFireBase
  extract_lets fired counted stamped noted out pulsed
  have hnoted : noted.Canon := h.raise.bump.wr.notify.ite h.raise.bump.wr
  have hpulsed : pulsed.Canon := hnoted.ite hnoted.modPort
  exact hpulsed.wr.ite hpulsed.putB

theorem State.Canon.unitMark {p k} (h : s.Canon) : (s.unitMark p k).Canon := h.raiseIf

theorem State.Canon.unitFire {p k stamp} (h : s.Canon) : (s.unitFire p k stamp).Canon :=
  h.unitFireBase.unitMark.ite h.unitFireBase

theorem State.Canon.unitEval {p k} (h : s.Canon) : (s.unitEval p k).Canon :=
  h.ite (h.raiseIf.unitFire.ite h.raiseIf)

theorem State.Canon.wrapCount {p p0 d} (h : s.Canon) : (s.wrapCount p p0 d).Canon := h.wr

theorem State.Canon.histAdd {p p0 w stamp} (h : s.Canon) : (s.histAdd p p0 w stamp).Canon := by
  unfold State.histAdd
  dsimp only
  split
  · exact h.modPort.wr.ite h.modPort
  · exact h.modPort

theorem State.Canon.portMove {p d stamp} (h : s.Canon) : (s.portMove p d stamp).Canon :=
  h.ite (h.wr.wrapCount.wr.modPort.histAdd.each fun _ _ h => h.unitFireBase)

theorem State.Canon.portJump {p w stamp} (h : s.Canon) : (s.portJump p w stamp).Canon :=
  h.ite (h.wr.wr.histAdd.each fun _ _ h => (h.raise.raise.ite h).unitEval)

theorem State.Canon.portEvent {p d stamp} (h : s.Canon) : (s.portEvent p d stamp).Canon := by
  unfold State.portEvent
  extract_lets neg turn moved cum turned slow restarted zeroed warmed x n
  have hmoved : moved.Canon := h.modPort
  have hrestarted : restarted.Canon := hmoved.putB.raise.notify.wr.spdRestart
  have hzeroed : zeroed.Canon := hrestarted.putB.ite hrestarted
  have hwarmed : warmed.Canon := hmoved.modPort
  refine hzeroed.modPort.ite ?_
  split
  · exact hwarmed
  · extract_lets delta r q sat speed span valid zero
    have hspan : span.Canon := (hwarmed.raise.ite hwarmed).wr.modPort
    exact hwarmed.ite (hspan.putB.ite hspan).putB.ladderTick

theorem State.Canon.portStep {p d stamp} (h : s.Canon) : (s.portStep p d stamp).Canon :=
  h.portMove.portEvent.each fun _ _ h => h.unitMark

theorem State.Canon.indexEvent {p stamp} (h : s.Canon) : (s.indexEvent p stamp).Canon := by
  unfold State.indexEvent
  extract_lets pos shown counted idxn r first ref d e ref2 c corrected moved noted missed lost
  have hcounted : counted.Canon := h.wr.bump
  have hmoved : moved.Canon := hcounted.wr.modPort
  have hnoted : noted.Canon := hmoved.ite hmoved.raise
  exact .ite (hcounted.ite hcounted.modPort.portJump.posValid) (hcounted.modPort.ite
    (hcounted.ite (hnoted.wrapCount.portJump.ite hcounted.wr.raise.bump.portLoss)))

theorem State.Canon.glitch {p} (h : s.Canon) : (s.glitch p).Canon := h.raise.bumpSat

theorem State.Canon.edgeCount {p old new stamp} (h : s.Canon) : (s.edgeCount p old new stamp).Canon :=
  h.raise.portLoss.ite (((h.ite h.portStep).indexEvent).ite (h.ite h.portStep))

theorem State.Canon.hallCode {p code stamp} (h : s.Canon) : (s.hallCode p code stamp).Canon := by
  unfold State.hallCode
  extract_lets seen sec first moved
  have hseen : seen.Canon := h.modPort
  have hmoved : moved.Canon := hseen.modPort
  refine h.modPort.ite ?_
  split
  · exact hseen.modPort.portJump.posValid
  · extract_lets diff d stepped valid
    have hstepped : stepped.Canon := hmoved.portStep
    have hvalid : valid.Canon := hstepped.ite hstepped.posValid
    exact hseen.ite (hseen.raise.portLoss.ite (hvalid.raise.bumpSat.spdRestart.ite hvalid))

theorem State.Canon.hallTimeout {p} (h : s.Canon) : (s.hallTimeout p).Canon := by
  unfold State.hallTimeout
  split
  · exact h.modPort.raise.portLoss.ite h
  · exact h

theorem State.Canon.edgeAccept {p acc raw rej} (h : s.Canon) : (s.edgeAccept p acc raw rej).Canon :=
  h.ite ((((h.each fun _ _ h => h.glitch).modPort).ite ((((h.each fun _ _ h => h.glitch).modPort).hallCode).ite
    (((h.each fun _ _ h => h.glitch).modPort).edgeCount))).outsRefresh)

theorem State.Canon.positionSet {p v} (h : s.Canon) : (s.positionSet p v).Canon := h.modPort.portJump.posValid

theorem State.Canon.speedZero {p} (h : s.Canon) : (s.speedZero p).Canon := h.putB.ite h

theorem State.Canon.edgeTimeout {p} (h : s.Canon) : (s.edgeTimeout p).Canon := h.portLoss.ite h

theorem State.Canon.freezeDetect {p} (h : s.Canon) : (s.freezeDetect p).Canon := h.raise.portLoss.ite h

theorem State.Canon.probeLatch {p level} (h : s.Canon) : (s.probeLatch p level).Canon := by
  unfold State.probeLatch
  extract_lets moved edge sel stamp d latched kept low high cont missed seen idle
  have hmoved : moved.Canon := h.modPort
  have hhigh : high.Canon := hmoved.wr.modPort.wr.wr
  have hseen : seen.Canon := (hhigh.raise.ite hhigh).raise
  have hidle : idle.Canon := hseen.ite hseen.putB
  exact h.ite (hmoved.ite hidle.notify)

theorem State.Canon.ssiBad {p} (h : s.Canon) : (s.ssiBad p).Canon :=
  h.raise.bumpSat.modPort.portLoss.ite h.raise.bumpSat.modPort

theorem State.Canon.ssiStart {p dat} (h : s.Canon) : (s.ssiStart p dat).Canon :=
  (h.ite h.modPort).ite (((h.ite h.modPort).bumpSat).ite
    (((h.ite h.modPort).ssiBad).ite (((h.ite h.modPort).modPort).putB)))

theorem State.Canon.ssiRequest {p dat} (h : s.Canon) : (s.ssiRequest p dat).Canon :=
  h.ite ((h.ssiStart.ite h).ite ((h.modPort.ssiStart.ite h).ite h))

theorem State.Canon.ssiGo {p dat} (h : s.Canon) : (s.ssiGo p dat).Canon := h.ssiStart.ite h

theorem State.Canon.ssiPartnerStart {p} (h : s.Canon) : (s.ssiPartnerStart p).Canon := h.modPort.putB.ite h

theorem State.Canon.ssiFrameEnd {p bits lost} (h : s.Canon) : (s.ssiFrameEnd p bits lost).Canon := by
  unfold State.ssiFrameEnd
  split
  · exact h
  · extract_lets half nb known partner ended idle bits good low raw posw rawBits val stamp prev
      kept first thawed jumped taken
    have hidle : idle.Canon := h.modPort.putB
    have hraw : raw.Canon := hidle.wr.wr
    have hkept : kept.Canon := hraw.modPort
    have htaken : taken.Canon := by
      unfold taken
      clear_value prev
      split
      · exact hkept.modPort.portJump.posValid.portEvent
      · exact .ite hkept.portStep hkept.portStep.posValid
    exact h.ite (hidle.ite (hraw.ssiBad.ite htaken.outsRefresh))

theorem State.Canon.cmpTgtWrite {p k v} (h : s.Canon) : (s.cmpTgtWrite p k v).Canon := h.wr.unitEval

theorem State.Canon.cmpCfgWrite {p k v} (h : s.Canon) : (s.cmpCfgWrite p k v).Canon :=
  ((h.wr.put.ite h.wr).unitEval).ite (h.wr.put.ite h.wr)

theorem State.Canon.pulseEnd {p k} (h : s.Canon) : (s.pulseEnd p k).Canon := by
  unfold State.pulseEnd
  split
  · exact h.modPort.outsRefresh.ite h
  · exact h

theorem State.Canon.fbkLock {p} (h : s.Canon) : (s.fbkLock p).Canon :=
  (((h.put.putB.ite h).putB).ite (h.put.putB.ite h)).modPort

theorem State.Canon.fbkTimeStep {p} (h : s.Canon) : (s.fbkTimeStep p).Canon := h.spdRestart.modPort

/-! ## Shadows -/

theorem State.Canon.shWrite {writer r i a v} (h : s.Canon) : (s.shWrite writer r i a v).Canon := by
  have clipped {p q : Prop} [Decidable p] [Decidable q] {d a v f} :
      State.Canon (let u := if p then s else s.paddock d a v writer; if q then u.raise f else u) :=
    (h.ite h.paddock).raise.ite (h.ite h.paddock)
  exact clipped.wrSh.putB.ite clipped.wrSh

theorem State.Canon.outWrite {writer addr v} (h : s.Canon) : (s.outWrite writer addr v).Canon := by
  unfold State.outWrite
  split
  · exact (h.lockGuard fun _ h => h.shWrite).ite h
  · exact h

theorem State.Canon.obsLock {t} (h : s.Canon) : (s.obsLock t).Canon := h.ite h.put.putB

theorem State.Canon.obsCommit {t flag7} (h : s.Canon) : (s.obsCommit t flag7).Canon :=
  h.ite (h.obsLock.bump.ite (h.put.putB.ite h.put))

/-! ## Clocks and device time -/

theorem State.Canon.ticks {n} (h : s.Canon) : (s.ticks n).Canon := by
  have tags : (if s.tagsUse = 0 then s else s.tagSet 0).Canon := h.ite h.tagSet
  exact h.ite (.ite tags tags.updNow)

theorem State.Canon.slewSet {v} (h : s.Canon) : (s.slewSet v).Canon := h.modTim.putB

theorem State.Canon.rateSet {v} (h : s.Canon) : (s.rateSet v).Canon := h.wr.ite h.wr.raise

theorem State.Canon.timIgnored (h : s.Canon) : s.timIgnored.Canon := h.raise

theorem State.Canon.rateWrite {w v} (h : s.Canon) : (s.rateWrite w v).Canon := h.rateSet.ite h.timIgnored

theorem State.Canon.slewWrite {w v} (h : s.Canon) : (s.slewWrite w v).Canon := h.slewSet.ite h.timIgnored

theorem State.Canon.slewDone (h : s.Canon) : s.slewDone.Canon := h.putB.ite h

theorem State.Canon.holdover {b} (h : s.Canon) : (s.holdover b).Canon := h.putB.each fun _ _ h => h.putB.ite h

theorem State.Canon.netUnlock (h : s.Canon) : s.netUnlock.Canon := h.putB.putB.each fun _ _ h => h.putB

theorem State.Canon.netLock (h : s.Canon) : s.netLock.Canon := h.ite h.putB.putB.modTim

theorem State.Canon.stepTeam {t} (h : s.Canon) : (s.stepTeam t).Canon :=
  h.ite (((((h.modTeam.each fun _ _ h => h.modLeg.putB).putB).putB).put).putB)

theorem State.Canon.stepTo {v} (h : s.Canon) : (s.stepTo v).Canon :=
  ((((h.modTim.each fun _ _ h => h.sdmRephase).netUnlock).each fun _ _ h => h.stepTeam).each fun _ _ h =>
    h.fbkTimeStep).each fun _ _ h => h.putB.modLeg

theorem State.Canon.stepRequest {v} (h : s.Canon) : (s.stepRequest v).Canon := h.raise.ite h.stepTo

theorem State.Canon.ppsRise (h : s.Canon) : s.ppsRise.Canon := by
  unfold State.ppsRise
  split
  · exact h.modTim.ite h
  · exact h

theorem State.Canon.ppsFall (h : s.Canon) : s.ppsFall.Canon := h.modTim.ite h

theorem State.Canon.ppsIn {fine} (h : s.Canon) : (s.ppsIn fine).Canon := h.ite h.wr.wr.wr

theorem State.Canon.bootStart (h : s.Canon) : s.bootStart.Canon := h.modTim

theorem State.Canon.pllLock (h : s.Canon) : s.pllLock.Canon := h.putB.modTim.modLoad.modHk.defer.ite h

theorem State.Canon.pllTimeout (h : s.Canon) : s.pllTimeout.Canon := h.modLoad.record.ite h

theorem State.Canon.haltAll {code} (h : s.Canon) : (s.haltAll code).Canon := h.each fun _ _ h => h.haltTeam

theorem State.Canon.refFault {lost} (h : s.Canon) : (s.refFault lost).Canon :=
  h.modTim.putB.putB.record.haltAll.netUnlock.ite h

theorem State.Canon.refHold (h : s.Canon) : s.refHold.Canon := by
  unfold State.refHold
  split
  · exact h.modTim.ite h
  · exact h

theorem State.Canon.dllUnlock {line} (h : s.Canon) : (s.dllUnlock line).Canon :=
  State.Canon.modTim (by split; exacts [h.record.putB.withTeam fun _ => h.record.putB.haltTeam, h.record.putB])

theorem State.Canon.calStep {table} (h : s.Canon) : (s.calStep table).Canon :=
  (h.modTim.put.ite h.modTim.put.bump.modTim.putB).ite h

/-! ## PTP -/

theorem State.Canon.markSeen {p m} (h : s.Canon) : (s.markSeen p m).Canon := by
  unfold State.markSeen
  split
  · exact h.modNPort
  · exact h

theorem State.Canon.txPtp {p m base st} (h : s.Canon) : (s.txPtp p m base st).2.Canon := by
  unfold State.txPtp
  exact (by split; exacts [State.Canon.ite2 h.modNPort h, h, (by split <;> exact h), h.modNPort, h, h])

theorem State.Canon.txStart {p f ps at_} (h : s.Canon) : (s.txStart p f ps at_).Canon := by
  unfold State.txStart
  split
  · exact h.bump.txPtp.modNPort.markSeen
  · exact h.bump.modNPort.modNet
  · exact h.bump.modNPort

theorem State.Canon.queuePtp {p m base} (h : s.Canon) : (s.queuePtp p m base).Canon := h.modNPort.ite h

theorem State.Canon.sendIcend {p fwd payload at_} (h : s.Canon) : (s.sendIcend p fwd payload at_).Canon :=
  h.ite (h.txStart.ite (h.bump.modNPort.ite h.modNPort))

theorem State.Canon.egressStart {p ps} (h : s.Canon) : (s.egressStart p ps).Canon :=
  h.ite (by
      split; exacts [h.modNPort.txStart, (by
          split; exacts [h.modNPort.txStart,
            (by split; exacts [h.modNPort.txStart.ite h, h.modNPort.txStart.ite h, h])])])

theorem State.Canon.linkUp {p rf} (h : s.Canon) : (s.linkUp p rf).Canon :=
  h.ite (h.putB.putB.putB.putB.modNet.ite h.putB.putB.putB.putB)

theorem State.Canon.pdClear {p} (h : s.Canon) : (s.pdClear p).Canon := h.putB.modNPort

theorem State.Canon.mailFail {slot} (h : s.Canon) : (s.mailFail slot).Canon := h.raiseBit.setBit

theorem State.Canon.linkDown {p} (h : s.Canon) : (s.linkDown p).Canon :=
  h.ite (((h.putB.putB.putB.putB.bump.record.each fun _ _ h => (by split; exacts [h.mailFail, h])).pdClear).modNPort)

theorem State.Canon.setStage {v} (h : s.Canon) : (s.setStage v).Canon := h.put

theorem State.Canon.setGm {g rec} (h : s.Canon) : (s.setGm g rec).Canon :=
  h.modServo.ite (((h.modServo.wr.wr.each fun _ _ h => h.modNPort).record).ite
    (h.modServo.wr.wr.each fun _ _ h => h.modNPort))

theorem State.Canon.becomeBw (h : s.Canon) : s.becomeBw.Canon :=
  h.ite h.setGm.setStage.put.put.holdover.modServo.netLock

theorem State.Canon.runBmca (h : s.Canon) : s.runBmca.Canon := by
  unfold State.runBmca
  dsimp only
  refine h.ite ?_
  split
  · refine h.modServo.becomeBw.ite ?_
    exact h.modServo.setGm.setStage.ite (h.modServo.setGm.setStage.modServo.ite h.modServo.setGm)
  · exact h.modServo.becomeBw.ite (h.modServo.modServo.setStage.ite h.modServo.modServo)

theorem State.Canon.announceUse {dom src g} (h : s.Canon) : (s.announceUse dom src g).Canon :=
  h.ite h.modServo.runBmca

theorem State.Canon.announceTimeout (h : s.Canon) : s.announceTimeout.Canon := h.modServo.runBmca.ite h

theorem State.Canon.netStep (h : s.Canon) : s.netStep.Canon := h.modNet.put.each fun _ _ h => h.modNPort

theorem State.Canon.stepDevice {v} (h : s.Canon) : (s.stepDevice v).Canon := h.stepRequest.ite h.stepRequest.netStep

theorem State.Canon.loopRate {o interval} (h : s.Canon) : (s.loopRate o interval).Canon := h.rateSet

theorem State.Canon.loopUpdate {o interval} (h : s.Canon) : (s.loopUpdate o interval).Canon := h.loopRate.slewSet

theorem State.Canon.hopCheck {p hops} (h : s.Canon) : (s.hopCheck p hops).Canon := h.ite h.raise.record

theorem State.Canon.reroute {p hops} (h : s.Canon) : (s.reroute p hops).Canon :=
  h.record.raise.setStage.holdover.slewSet.put.modServo.hopCheck

theorem State.Canon.timeLoss {st} (h : s.Canon) : (s.timeLoss st).Canon :=
  (((h.record.ite h).netUnlock).setStage).modServo

theorem State.Canon.settle {o} (h : s.Canon) : (s.settle o).Canon :=
  h.modServo.put.ite (h.modServo.put.holdover.timeLoss.ite h.modServo.put.slewSet.holdover.setStage)

theorem State.Canon.slewStage (h : s.Canon) : s.slewStage.Canon := h.setStage.ite h

theorem State.Canon.acquire {p hops o} (h : s.Canon) : (s.acquire p hops o).Canon :=
  (h.setStage.ite (h.setStage.stepDevice.slewSet.ite h.setStage.stepDevice)).hopCheck

theorem State.Canon.lockCount {o} (h : s.Canon) : (s.lockCount o).Canon := h.modServo.netLock.ite h.modServo

theorem State.Canon.servoUse {p c} (h : s.Canon) : (s.servoUse p c).Canon := by
  unfold State.servoUse
  extract_lets gid st re used ofs corr port hops routed st' disciplined
  have hrouted : routed.Canon := h.modServo.wr.wr.put.put.reroute.ite h.modServo.wr.wr.put.put.slewStage
  have hdisciplined : disciplined.Canon := hrouted.acquire.ite (hrouted.loopUpdate.ite (hrouted.settle.ite hrouted))
  exact hdisciplined.lockCount

theorem State.Canon.copyIn {p seq hops rx origin corr} (h : s.Canon) : (s.copyIn p seq hops rx origin corr).Canon :=
  h.modNPort.ite (by split; exacts [h.modNPort.servoUse, h.modNPort])

theorem State.Canon.ptpForward {p src m base} (h : s.Canon) : (s.ptpForward p src m base).Canon :=
  h.markSeen.ite (h.markSeen.each fun _ _ h => h.queuePtp.markSeen.ite h)

theorem State.Canon.ptpIn {p f} (h : s.Canon) (k : ∀ u, u.Canon → (f u).Canon) : (s.ptpIn p f).Canon :=
  (k _ h.bump).ite h

theorem State.Canon.syncReceive {p ps src seq dom two origin corr hops} (h : s.Canon) :
  (s.syncReceive p ps src seq dom two origin corr hops).Canon :=
  h.ptpIn fun _ h => h.ptpForward.ite (h.ptpForward.modNPort.ite h.ptpForward.copyIn)

theorem State.Canon.followUpReceive {p src seq dom origin corr} (h : s.Canon) :
  (s.followUpReceive p src seq dom origin corr).Canon := by
  unfold State.followUpReceive
  dsimp only
  exact h.ptpIn fun _ h => (by split; exacts [h.ptpForward.modNPort.copyIn.ite h.ptpForward.modNPort, h.ptpForward])

theorem State.Canon.announceReceive {p src seq dom g} (h : s.Canon) : (s.announceReceive p src seq dom g).Canon :=
  h.ptpIn fun _ h => h.ptpForward.announceUse

theorem State.Canon.ptpUnsupported {p} (h : s.Canon) : (s.ptpUnsupported p).Canon := h.ptpIn fun _ h => h.bumpSat

theorem State.Canon.syncSend (h : s.Canon) : s.syncSend.Canon := ((h.each fun _ _ h => h.queuePtp).modServo).ite h

theorem State.Canon.announceSend (h : s.Canon) : s.announceSend.Canon :=
  ((h.each fun _ _ h => h.queuePtp).modServo).ite h

theorem State.Canon.syncTimeout (h : s.Canon) : s.syncTimeout.Canon := h.holdover.setStage.record.ite h

theorem State.Canon.holdmax (h : s.Canon) : s.holdmax.Canon := h.timeLoss.ite h

theorem State.Canon.ppsLoop {fine} (h : s.Canon) : (s.ppsLoop fine).Canon := h.modServo.loopUpdate.ite h

theorem State.Canon.ppsLoss (h : s.Canon) : s.ppsLoss.Canon := h.modServo.record.ite h

theorem State.Canon.pdelaySend {p} (h : s.Canon) : (s.pdelaySend p).Canon :=
  (((((h.modNPort.ite h).pdClear).ite (h.modNPort.ite h)).modNPort).queuePtp).ite h

theorem State.Canon.pdelayAnswer {p ps src seq} (h : s.Canon) : (s.pdelayAnswer p ps src seq).Canon :=
  h.ptpIn fun _ h => h.queuePtp

theorem State.Canon.pdelayDone {p twice} (h : s.Canon) : (s.pdelayDone p twice).Canon :=
  h.modNPort.roundFree.wr.putB.ite h.modNPort.roundFree.wr

theorem State.Canon.pdelayResp {p ps fup two req seq ts corr} (h : s.Canon) :
  (s.pdelayResp p ps fup two req seq ts corr).Canon := by
  unfold State.pdelayResp
  dsimp only
  exact h.ptpIn fun _ h => (by
      split; exacts [h.ite (State.Canon.ite (by split; exacts [h.pdelayDone, h]) (h.modNPort.ite h.pdelayDone)), h])

theorem State.Canon.ptpLock (h : s.Canon) : s.ptpLock.Canon := h.setStage.modServo.modNet

theorem State.Canon.ptpActive (h : s.Canon) : s.ptpActive.Canon :=
  h.ite (((h.setStage.modServo.ite h.setStage.modServo.runBmca).setStage).ite
    (h.setStage.modServo.ite h.setStage.modServo.runBmca))

theorem State.Canon.ptpIdle (h : s.Canon) : s.ptpIdle.Canon := h.setStage

/-! ## Serial ports -/

theorem State.Canon.rdShow {p} (h : s.Canon) : (s.rdShow p).Canon := h.put.put.putB.put.putB.put.put.put

theorem State.Canon.busSet {l} (h : s.Canon) : (s.busSet l).Canon := h.modSer

theorem State.Canon.busRead {a n} (h : s.Canon) : (s.busRead a n).Canon := h.busSet

theorem State.Canon.busReset (h : s.Canon) : s.busReset.Canon := h.busSet

theorem State.Canon.busPoll (h : s.Canon) : s.busPoll.Canon := h.busSet

theorem State.Canon.busOp {op} (h : s.Canon) : (s.busOp op).Canon := by
  unfold State.busOp
  split <;> exact h.busSet

theorem State.Canon.flsStat (h : s.Canon) : s.flsStat.Canon := h.putB.putB.put

theorem State.Canon.flsStart {op} (h : s.Canon) : (s.flsStart op).Canon := by
  unfold State.flsStart
  split <;> exact h.modSer.busOp.bump

theorem State.Canon.flsProgram (h : s.Canon) : s.flsProgram.Canon := by
  unfold State.flsProgram
  split
  · exact h.ite h.modSer.flsStart
  · exact h

theorem State.Canon.flsPump {n} (h : s.Canon) : (State.flsPump n s).Canon := by
  induction n generalizing s with
  | zero => exact h
  | succ n ih =>
    unfold State.flsPump
    refine h.ite ?_
    split
    · exact h
    · exact ih h.modSer
    · exact (ih h.modSer).ite h.flsProgram
    · exact h.modSer.flsStart
    · exact h.flsProgram

theorem State.Canon.flsUnblock (h : s.Canon) : s.flsUnblock.Canon := h.modSer

theorem State.Canon.flsRunQueue (h : s.Canon) : s.flsRunQueue.Canon :=
  h.flsPump.flsUnblock.flsPump.flsUnblock.flsStat

theorem State.Canon.flsWrite {e} (h : s.Canon) : (s.flsWrite e).Canon :=
  h.ite (h.record.raise.ite (h.modSer.flsRunQueue.ite h.modSer))

theorem State.Canon.progStore {w a b} (h : s.Canon) : (s.progStore w a b).Canon := h.flsWrite

theorem State.Canon.eraseStore {w a} (h : s.Canon) : (s.eraseStore w a).Canon := h.flsWrite

theorem State.Canon.flsWdata {w v} (h : s.Canon) : (s.flsWdata w v).Canon := h.progStore.put

theorem State.Canon.flsFlush (h : s.Canon) : s.flsFlush.Canon := h.flsProgram.flsStat

theorem State.Canon.flsGatherTimeout (h : s.Canon) : s.flsGatherTimeout.Canon := by
  unfold State.flsGatherTimeout
  split
  · exact h.flsFlush.ite h
  · exact h

theorem State.Canon.windowRead {rdr fetch a line} (h : s.Canon) : (s.windowRead rdr fetch a line).Canon := by
  unfold State.windowRead
  refine h.ite (h.flsFlush.ite ?_)
  dsimp only
  split
  · exact h.flsFlush.updLastRead
  · exact h.flsFlush.ite (h.flsFlush.ite h.flsFlush.busRead.modSer.updLastRead)

theorem State.Canon.flsRdata {data} (h : s.Canon) : (s.flsRdata data).2.Canon :=
  State.Canon.ite2 h.flsFlush h.flsFlush.busRead.put

theorem State.Canon.flsInvalidate {op} (h : s.Canon) : (s.flsInvalidate op).Canon := h.modSer

theorem State.Canon.flsEnd {good} (h : s.Canon) : (s.flsEnd good).Canon := by
  have done {u : State} {r : FlsEntry} (h : u.Canon) :
      (((u.modSer (fun x => { x with run := none })).flsInvalidate r).flsRunQueue).Canon :=
    h.modSer.flsInvalidate.flsRunQueue
  unfold State.flsEnd
  dsimp only
  split
  · exact h
  · refine (done h.busPoll).ite ?_
    split
    · exact done h.busPoll
    · have read {v : Prop} [Decidable v] {a n} : State.Canon (if v then s.busPoll.busRead a n else s.busPoll) :=
        h.busPoll.busRead.ite h.busPoll
      exact (done read).ite (read.modSer.raise.busOp.ite (done read.record.raise))

theorem State.Canon.flsTimeout (h : s.Canon) : s.flsTimeout.Canon := by
  unfold State.flsTimeout
  split
  · exact h
  · exact (h.modSer.record.flsRunQueue.ite h).ite
      (by split <;> exact h.record.raise.modSer.flsInvalidate.busReset.ite h)

theorem State.Canon.fuseShow (h : s.Canon) : s.fuseShow.Canon := h.put.put.put

theorem State.Canon.fuseGo {w op} (h : s.Canon) : (s.fuseGo w op).Canon := h.ite (h.raise.put.ite h.modSer.putB)

theorem State.Canon.fuseDone {good} (h : s.Canon) : (s.fuseDone good).Canon := by
  unfold State.fuseDone
  split
  · exact h
  · exact h.modSer.putB.raise.put.ite h.modSer.putB.updFuse.raise.put.fuseShow

theorem State.Canon.pmsStat {q} (h : s.Canon) : (s.pmsStat q).Canon := h.putB.put.put.put

theorem State.Canon.pmsQueue {q w} (h : s.Canon) : (s.pmsQueue q w).Canon := h.raise.ite h.modPms.pmsStat

theorem State.Canon.pmsProgress {q} (h : s.Canon) : (s.pmsProgress q).Canon := by
  unfold State.pmsProgress
  split
  · split <;> exact h.modPms.pmsStat
  · exact h.pmsStat

theorem State.Canon.pmsStart {q answer} (h : s.Canon) : (s.pmsStart q answer).Canon :=
  h.ite (by split; exacts [h, h.modPms.pmsProgress])

theorem State.Canon.pmsDone {q} (h : s.Canon) : (s.pmsDone q).Canon := by
  unfold State.pmsDone
  split
  · exact h.modPms.raise.pmsStat.ite h
  · exact h

theorem State.Canon.pmsTx {q w} (h : s.Canon) : (s.pmsTx q w).Canon := h.modPms.pmsProgress.ite h

theorem State.Canon.pmsRx {q} (h : s.Canon) : (s.pmsRx q).2.Canon := by
  unfold State.pmsRx
  exact (by split; exacts [h.raise, h.modPms.pmsProgress])

theorem State.Canon.pmsBegin {q} (h : s.Canon) : (s.pmsBegin q).Canon := by
  unfold State.pmsBegin
  split
  · exact h.modPms.raise
  · exact h.modPms

theorem State.Canon.pmsPush {q w} (h : s.Canon) : (s.pmsPush q w).Canon := h.modPms.ite h.raise

theorem State.Canon.pmsSlaveWord {q w} (h : s.Canon) : (s.pmsSlaveWord q w).Canon :=
  h.ite (((((h.pmsBegin.ite h).putB).pmsPush).pmsBegin).pmsStat)

theorem State.Canon.pmsRelease {q b w} (h : s.Canon) : (s.pmsRelease q b w).Canon :=
  h.ite (h.putB.pmsStat.ite ((((((h.putB.pmsBegin.ite h.putB).pmsPush).modPms).raise).put).pmsStat))

/-! ## The yoke -/

theorem State.Canon.applyOut {w l} (h : s.Canon) : (s.applyOut w l).Canon := h.each fun _ _ h => h.outWrite

theorem State.Canon.applyState {j p} (h : s.Canon) : (s.applyState j p).Canon :=
  h.each fun _ _ h => (by split; exacts [h.memSet.ite h, h])

theorem State.Canon.setRole {v} (h : s.Canon) : (s.setRole v).Canon :=
  h.ite (((h.put.putB.ptpActive.ite (h.put.putB.ptpIdle.ite h.put.putB)).outsRefresh).ite
    (h.put.putB.ptpActive.ite (h.put.putB.ptpIdle.ite h.put.putB)))

theorem State.Canon.claim {kind} (h : s.Canon) : (s.claim kind).Canon := h.setRole.putB.raise.wr.wr

theorem State.Canon.releaseAct {cause role} (h : s.Canon) : (s.releaseAct cause role).Canon :=
  h.ite h.putB.put.record.modYok.setRole

theorem State.Canon.claimSeen (h : s.Canon) : s.claimSeen.Canon :=
  (((h.setRole.ite h).modYok).defer).ite (h.setRole.ite h)

theorem State.Canon.yokCheck (h : s.Canon) : s.yokCheck.Canon := by
  unfold State.yokCheck
  refine h.ite ?_
  extract_lets v shown viewed r moved
  have hviewed : viewed.Canon := h.putB.modYok
  have hmoved : moved.Canon := hviewed.setRole.ite (hviewed.setRole.claimSeen.ite hviewed)
  exact hmoved.releaseAct.ite (hmoved.releaseAct.ite hmoved)

theorem State.Canon.yokFault (h : s.Canon) : s.yokFault.Canon := h.modYok.yokCheck

theorem State.Canon.initCheck (h : s.Canon) : s.initCheck.Canon :=
  h.ite (by
      split; exacts [h, h.record.setRole.ite (h.ite (h.setRole.ite (by split; exacts [h.ite (h.claim.ite h), h])))])

theorem State.Canon.joinTimeout (h : s.Canon) : s.joinTimeout.Canon := h.claim.ite h

theorem State.Canon.actSee {lvl} (h : s.Canon) : (s.actSee lvl).Canon :=
  h.modYok.putB.ite (h.modYok.putB.initCheck.ite (((h.modYok.putB.ite h.modYok.putB.record).claimSeen).initCheck))

theorem State.Canon.actFall (h : s.Canon) : s.actFall.Canon := h.actSee

theorem State.Canon.claimNow (h : s.Canon) : s.claimNow.Canon := h.record.modYok.claim.ite h

theorem State.Canon.actRise (h : s.Canon) : s.actRise.Canon := (h.modYok.putB.modYok.ite h.modYok.putB).initCheck

theorem State.Canon.actBandExit {lvl} (h : s.Canon) : (s.actBandExit lvl).Canon := h.modYok.putB.actSee.modYok

theorem State.Canon.actConflict (h : s.Canon) : s.actConflict.Canon := by
  unfold State.actConflict
  split
  · exact (h.raise.modYok.record.releaseAct.ite h.raise.modYok).ite h
  · exact h

theorem State.Canon.wdKick (h : s.Canon) : s.wdKick.Canon := h.modYok

theorem State.Canon.wdExpiry (h : s.Canon) : s.wdExpiry.Canon := h.releaseAct.ite h

theorem State.Canon.viewRule (h : s.Canon) : s.viewRule.Canon := by
  unfold State.viewRule
  split
  · exact h.releaseAct.ite h
  · exact h

theorem State.Canon.actRelease (h : s.Canon) : s.actRelease.Canon := h.modYok.releaseAct.ite h.raise

theorem State.Canon.yokSend {f b} (h : s.Canon) : (s.yokSend f b).Canon := h.modYok.raiseMax

theorem State.Canon.linkLost (h : s.Canon) : s.linkLost.Canon :=
  ((((h.putB.ite h.putB.netUnlock).modYok).ite (h.putB.ite h.putB.netUnlock)).setRole).ite
    (h.putB.ite h.putB.netUnlock)

theorem State.Canon.laneUp {j} (h : s.Canon) : (s.laneUp j).Canon := h.ite (h.putB.ite h.putB.putB.modYok)

theorem State.Canon.laneDown {j} (h : s.Canon) : (s.laneDown j).Canon :=
  h.ite (h.putB.record.ite h.putB.record.raise.linkLost)

theorem State.Canon.hbTimeout (h : s.Canon) : s.hbTimeout.Canon := (((h.record.ite h).raise).linkLost).ite h

theorem State.Canon.hbSend (h : s.Canon) : s.hbSend.Canon := h.modYok.yokSend.ite h

theorem State.Canon.identSend (h : s.Canon) : s.identSend.Canon := h.modYok.yokSend.ite h

theorem State.Canon.yokIn {good f} (h : s.Canon) (k : ∀ u, u.Canon → (f u).Canon) : (s.yokIn good f).Canon :=
  h.ite ((k _ h).ite h.bumpSat)

theorem State.Canon.identReceive {good sid pid addr} (h : s.Canon) : (s.identReceive good sid pid addr).Canon :=
  h.yokIn fun _ h => (((((h.each fun _ _ h => h.wr).putB).modYok).record).setRole).ite
    ((((h.each fun _ _ h => h.wr).putB).modYok).initCheck)

theorem State.Canon.hbReceive {good ofs h'} (h : s.Canon) : (s.hbReceive good ofs h').Canon :=
  h.yokIn fun _ h => (h.modYok.putB.putB.putB.wr.ite (h.modYok.putB.putB.putB.wr.slewSet.lockCount.ite
    (h.modYok.putB.putB.putB.wr.slewSet.netUnlock.modServo.ite
    h.modYok.putB.putB.putB.wr.slewSet.modServo))).initCheck

theorem State.Canon.sendCommit {r} (h : s.Canon) : (s.sendCommit r).Canon := h.ite h.bump.yokSend

theorem State.Canon.commitFail {k} (h : s.Canon) : (s.commitFail k).Canon := h.record.modYok.yokCheck

theorem State.Canon.yokRelease {k} (h : s.Canon) : (s.yokRelease k).Canon := h.commitFail.ite h

theorem State.Canon.diverge {own adopted} (h : s.Canon) : (s.diverge own adopted).Canon :=
  h.modYok.ite (h.bump.modYok.record.raise.ite h.bump.modYok)

theorem State.Canon.yokDropRun {k rel} (h : s.Canon) : (s.yokDropRun k rel).Canon := h.modYok.modCe

theorem State.Canon.lateFrame {k} (h : s.Canon) : (s.lateFrame k).Canon :=
  h.bumpSat.raise.ite h.bumpSat.raise.record.modYok

theorem State.Canon.adopt {k r rel consec words range obs} (h : s.Canon) :
    (s.adopt k r rel consec words range obs).Canon := by
  unfold State.adopt
  extract_lets own diverged out b stored counted observed fed dropped
  have hcounted : counted.Canon := .put (h.diverge.applyOut.each fun _ _ h => h.memSet)
  have hobserved : observed.Canon := by
    unfold observed
    split
    · exact hcounted.wr.putB.ite hcounted.wr
    · exact hcounted
  have hfed : fed.Canon := by
    unfold fed
    split
    · exact hobserved.modTeam.lateFrame.ite hobserved.modTeam
    · split
      · exact hobserved.each fun _ _ h => h.putB.ite h
      · exact hobserved
  exact hfed.yokDropRun.bump.modYok

theorem State.Canon.adoptNow {k rel consec words range obs} (h : s.Canon) :
  (s.adoptNow k rel consec words range obs).Canon := by
  unfold State.adoptNow
  split
  · exact h.adopt.ladderTicks.yokCheck
  · exact h

theorem State.Canon.commitReceive {good k rel consec words range obs} (h : s.Canon) :
  (s.commitReceive good k rel consec words range obs).Canon :=
  (((h.yokIn fun _ h => h).commitFail).ite (h.yokIn fun _ h => h)).ite
    (h.yokIn fun _ h => h.ite (h.ite (h.issueAs fun _ h => h.adoptNow)))

theorem State.Canon.yokUpdate {t} (h : s.Canon) : (s.yokUpdate t).Canon := by
  have drop {k : Fin 36} {u : State} (h : u.Canon) : State.Canon (if (u.yok.pend[k]).isSome then
      ((u.modYok (fun y => { y with pend := y.pend.set k none })).bump F.YOK_HOLDCNT_COUNT).consecUp k
        (fcode cOVERRUN 3)
      else u) := h.modYok.bump.consecUp.ite h
  refine h.ite (.ite (.each (drop h.modYok) fun _ _ h => drop h) (drop h.modYok))

theorem State.Canon.yokLock (h : s.Canon) : s.yokLock.Canon := h.modYok.putB.put.ite h.modYok

/-! ## Reads of the bus -/

theorem State.Canon.accErr {w wr kind a} (h : s.Canon) : (s.accErr w wr kind a).Canon := h.bumpSat.wr

theorem State.Canon.readWord {rdr w a flash} (h : s.Canon) : (s.readWord rdr w a flash).2.Canon := by
  have l := h.loadSync
  have snap {n : Nat} {u : State} (h : u.Canon) : (Machine.each (List.range (n - 1)) (fun i x =>
      { x with snaps := x.snaps.set rdr (cellsSet zeroWord x.snaps[rdr] (a + 4 * (i + 1)) (u.peek (a + 4 * (i + 1)))) })
        u).Canon := by
    refine h.each fun i u h => { h with snaps := ?_ }
    intro c hc
    rcases Vector.mem_or_eq_of_mem_set (hi := rdr.isLt) (Vector.mem_toList_iff.mp hc) with hc | rfl
    · exact h.snaps c (Vector.mem_toList_iff.mpr hc)
    · exact cellsWf_set _ _ _ _ (h.snaps _ (by simp))
  unfold State.readWord
  dsimp only
  split_ifs
  · exact l.accErr
  · split
    · exact l.busWord
    · split
      · exact l
      · split_ifs
        · split
          · exact l.pmsRx
          · exact l
        · exact l.flsRdata
        · split
          · exact l
          · exact snap l
          · exact l

/-! ## Tasks -/

theorem State.Canon.genValue {g x} (h : s.Canon) : (s.genValue g x).2.Canon := by
  unfold State.genValue
  dsimp only
  split_ifs
  · exact h.roundFree
  · exact h
  · exact h
  · refine State.Canon.roundFree (State.Canon.foldl2 h fun acc i h => ?_)
    exact h.roundFree
  · exact h

theorem State.Canon.genStep {g k} (h : s.Canon) : (s.genStep g k).Canon := by
  unfold State.genStep
  extract_lets x
  have hu := h.genValue (g := g) (x := x)
  generalize s.genValue g x = r at hu ⊢
  obtain ⟨v, u⟩ := r
  have hu : u.Canon := hu
  have stepped {w w' n f} := (((hu.wr (a := A.CE_TSAT k) (w := w)).wr (a := A.CE_GENOUT g) (w := w')).put
    (f := F.CE_GENSTAT_STEP g) (v := n)).modCe (f := f)
  exact stepped.putB.raise.ite stepped

theorem State.Canon.genLatch {k} (h : s.Canon) : (s.genLatch k).2.Canon := by
  unfold State.genLatch
  refine State.Canon.foldl2 h fun acc g h => ?_
  obtain ⟨l, s⟩ := acc
  dsimp only at h ⊢
  have started (f) : State.Canon (if s.bit (F.CE_GENSTAT_WAIT g) && stampGe s.tim.dev (s.ce.gens[g]).start then
      ((s.putB (F.CE_GENSTAT_WAIT g) false).putB (F.CE_GENSTAT_RUN g) true).modCe f else s) :=
    h.putB.putB.modCe.ite h
  refine .ite2 h (.ite2 ?_ ?_) <;> dsimp only
  · exact (started _).genStep
  · exact (started _).modCe

theorem State.Canon.genOff {g} (h : s.Canon) : (s.genOff g).Canon := h.putB.putB.ite h

theorem State.Canon.genGo {g} (h : s.Canon) : (s.genGo g).Canon := h.ite h.modCe.putB.put

theorem State.Canon.inWord {k shares e} (h : s.Canon) : (s.inWord k shares e).2.Canon := by
  unfold State.inWord
  refine .ite2 (by split <;> exact h) (.ite2 h (.ite2 (by split <;> exact h) (.ite2 ?_ (.ite2 h
    (.ite2 (by split <;> exact h) (.ite2 (.ite2 h (.ite2 h (by split <;> exact h)))
    (.ite2 (h.loadSync.accErr.ite h.loadSync) (.ite2 h h.putB))))))))
  split
  · exact h
  · split <;> exact h

theorem State.Canon.inFrame {k shares} (h : s.Canon) : (s.inFrame k shares).2.2.Canon := by
  unfold State.inFrame
  dsimp only
  exact State.Canon.foldl2 h fun _ _ h => h.inWord

theorem State.Canon.modRuns {k f} (h : s.Canon) : (s.modRuns k f).Canon := h.modCe

theorem State.Canon.relStampNow {k} (h : s.Canon) : (s.relStampNow k).2.Canon := h.yokRelease.wr.modCe.genLatch

theorem State.Canon.newRun {k dl shares gens} (h : s.Canon) : (s.newRun k dl shares gens).2.Canon := by
  unfold State.newRun
  dsimp only
  exact h.inFrame

theorem State.Canon.skipRelease {k} (h : s.Canon) : (s.skipRelease k).Canon := h.bump.bump.modRuns.consecUp

theorem State.Canon.sampleRelease {t} (h : s.Canon) : (s.sampleRelease t).Canon := by
  unfold State.sampleRelease
  dsimp only
  split
  · exact h
  · exact h.modTeam.ite (h.modTeam.relStampNow.skipRelease.ite h.modTeam.relStampNow.newRun.queueRun)

theorem State.Canon.groupRelease {g} (h : s.Canon) : (s.groupRelease g).Canon := by
  unfold State.groupRelease
  dsimp only
  exact h.ite (h.relStampNow.groupLatch.newRun.modCe.putB.ite h.relStampNow.groupLatch.newRun.queueRun)

theorem State.Canon.bgRelease {b} (h : s.Canon) : (s.bgRelease b).Canon := by
  unfold State.bgRelease
  dsimp only
  exact h.ite (h.relStampNow.bump.ite h.relStampNow.newRun.queueRun)

theorem State.Canon.bgPeriodic {b} (h : s.Canon) : (s.bgPeriodic b).Canon := by
  unfold State.bgPeriodic
  exact h.ite h.bgRelease

theorem State.Canon.taskStart {l} (h : s.Canon) : (s.taskStart l).Canon := by
  unfold State.taskStart
  split
  · exact h.modCe.putB.readyShow.put
  · exact h

theorem State.Canon.capArm {c from_} (h : s.Canon) : (s.capArm c from_).Canon := h.put.putB.putB.putB.wr.modCe

theorem State.Canon.capStop {c} (h : s.Canon) : (s.capStop c).Canon := h.putB

theorem State.Canon.capWord {acc c w} (h : acc.1.Canon) : (State.capWord acc c w).1.Canon := by
  obtain ⟨s, full⟩ := acc
  unfold State.capWord
  dsimp only at h ⊢
  have stored := h.memSet (a := K.cap (s.get (F.CE_CAPPTR_PTR c))) (w := w)
  exact .ite1 h.bumpSat (.ite1 h (.ite1 stored.put (.ite1 stored.put.putB stored.put.raise.putB.notify)))

theorem State.Canon.capRun {r} (h : s.Canon) : (s.capRun r).Canon := by
  have armed : State.Canon _ := h.each (l := capStreams) (f := fun c s =>
    if s.bit (F.CE_CAPCFG_ARMSRC c) && r.genStart.contains (s.get (F.CE_CAPCFG_GEN c)) then s.capArm c none else s)
    fun _ _ h => h.capArm.ite h
  refine List.foldlRecOn (motive := fun acc : (State × List (Fin 4)) × List (Fin 4) => acc.1.1.Canon) _ _ armed
    fun acc k j _ => ?_
  cases j with
  | state => exact k
  | cap c w => exact .capWord (.ite1 k.capWord k)

theorem State.Canon.tqOut {g r} (h : s.Canon) : (s.tqOut g r).Canon := h.tqWrite.ite h

theorem State.Canon.commitAccept {r} (h : s.Canon) : (s.commitAccept r).Canon := by
  unfold State.commitAccept
  extract_lets k held out fed stored captured flagged sat counted consec stamped timed observed yoked sent
  have hout : out.Canon := h.ite h.applyOut
  have hfed : fed.Canon := by
    unfold fed
    split
    · exact hout.ite hout.modTeam
    · split
      · exact hout.groupCommit.tqOut
      · exact hout
  have htimed : timed.Canon := hfed.applyState.capRun.put.putB.wr.put.wr.raiseMax
  have hobserved : observed.Canon := by
    unfold observed
    split
    · exact (htimed.bump.ite htimed).obsCommit
    · exact htimed
  have hyoked : yoked.Canon := hobserved.modYok.ite hobserved
  exact (hyoked.sendCommit.ite hyoked).ladderTicks

theorem State.Canon.groupOverrun {k} (h : s.Canon) : (s.groupOverrun k).Canon := h.bump.consecUp

theorem State.Canon.dropRun {r} (h : s.Canon) : (s.dropRun r).Canon := h.modCe.each fun _ _ h => h.freeLane

theorem State.Canon.commitNow {k} (h : s.Canon) : (s.commitNow k).Canon := by
  unfold State.commitNow
  split
  · exact h
  · exact (h.dropRun.putB.ite (h.dropRun.putB.groupOverrun.ite h.dropRun.putB.commitAccept)).groupNext

theorem State.Canon.groupDeadline {g} (h : s.Canon) : (s.groupDeadline g).Canon :=
  (((h.modRuns.groupOverrun.ite h).modCe).groupOverrun).ite (h.modRuns.groupOverrun.ite h)

theorem State.Canon.mapLock {t} (h : s.Canon) : (s.mapLock t).Canon := h.each fun _ _ h => h.memSet.putB.ite h

/-! ## Icend -/

theorem State.Canon.ringSend {fwd h' bs at_} (h : s.Canon) : (s.ringSend fwd h' bs at_).Canon :=
  h.sendIcend.ite (h.ite h.sendIcend)

theorem State.Canon.keepFrame {h' bs} (h : s.Canon) : (s.keepFrame h' bs).Canon := h.modNet

theorem State.Canon.winShow (h : s.Canon) : s.winShow.Canon := h.put.raiseMax

theorem State.Canon.winTouch {h'} (h : s.Canon) : (s.winTouch h').Canon := h.modNet

theorem State.Canon.winBlock {p h' seq} (h : s.Canon) : (s.winBlock p h' seq).2.Canon := by
  unfold State.winBlock
  exact (by
      split; exacts [(by split <;> exact State.Canon.ite2 h.modNet h.bumpSat), State.Canon.ite2 h.raise.record
        h.modNet.winShow])

theorem State.Canon.lateIcend {p h'} (h : s.Canon) : (s.lateIcend p h').Canon :=
  h.bumpSat.ite h.bumpSat.record.modNet

theorem State.Canon.requestRepair {p h' seqs} (h : s.Canon) : (s.requestRepair p h' seqs).Canon :=
  h.ite (h.put.modNet.keepFrame.sendIcend.ite h.put.modNet.keepFrame.ringSend)

theorem State.Canon.holdBlocks {p h' bs} (h : s.Canon) : (s.holdBlocks p h' bs).Canon :=
  h.winTouch.each fun _ _ h => h.winBlock.ite ((h.winBlock.ite h.winBlock.bumpSat).modNet)

theorem State.Canon.countFailed {p h' bs} (h : s.Canon) : (s.countFailed p h' bs).Canon :=
  h.each fun _ _ h => h.bumpSat.ite h.bumpSat.record.modNPort

theorem State.Canon.forwardRing {h' bs arr} (h : s.Canon) : (s.forwardRing h' bs arr).Canon :=
  h.ite (h.ite (h.ringSend.keepFrame.sendIcend.ite h.ringSend))

theorem State.Canon.injectUplink {h' bs} (h : s.Canon) : (s.injectUplink h' bs).Canon :=
  h.ite (h.bumpSat.ite (h.ite h.keepFrame.ringSend))

theorem State.Canon.icendIn {p b good tagged use_} (h : s.Canon) (k : ∀ y0 y1 u, u.Canon → (use_ y0 y1 u).Canon) :
    (s.icendIn p b good tagged use_).Canon := by
  unfold State.icendIn
  extract_lets counted checked hdr bs hops dropped alive failed own arr used
  have hchecked : checked.Canon := h.bump.ite h.bump.bumpSat
  have hdropped : dropped.Canon := hchecked.raiseMax.bumpSat.ite hchecked.raiseMax
  have hfailed : failed.Canon := hdropped.modNet.countFailed
  have hused : used.Canon := hfailed.ite (k _ _ _ hfailed)
  exact h.ite (hchecked.bumpSat.ite (hchecked.bumpSat.ite (hchecked.bumpSat.ite (hchecked.ite
    (hused.injectUplink.ite (hused.ite hused.forwardRing))))))

theorem State.Canon.useData {p h' bs} (h : s.Canon) : (Machine.useData p h' bs s).Canon :=
  h.ite (h.lateIcend.ite h.requestRepair.holdBlocks)

theorem State.Canon.icendReceive {p b good tagged} (h : s.Canon) : (s.icendReceive p b good tagged).Canon :=
  h.ite (h.icendIn fun _ _ _ h => h.useData)

theorem State.Canon.serveOne {p cyc q} (h : s.Canon) : (s.serveOne p cyc q).Canon := by
  unfold State.serveOne
  dsimp only
  split
  · exact h
  · split
    · exact h
    · exact h.bump.modNet.sendIcend.ite h.bump.modNet.ringSend

theorem State.Canon.useReq {p h' bs} (h : s.Canon) : (Machine.useReq p h' bs s).Canon :=
  h.ite (h.each fun _ _ h => h.serveOne)

theorem State.Canon.repairReceive {p b good tagged} (h : s.Canon) : (s.repairReceive p b good tagged).Canon :=
  h.ite (h.icendIn fun _ _ _ h => h.useReq)

theorem State.Canon.helloSend (h : s.Canon) : s.helloSend.Canon := h.ite h.modNet.keepFrame.ringSend.sendIcend

theorem State.Canon.useHello {p mac h' bs} (h : s.Canon) : (Machine.useHello p mac h' bs s).Canon := by
  unfold Machine.useHello
  extract_lets seen
  have hseen : seen.Canon := h.putB.ite h
  clear_value seen
  split
  · exact hseen
  · extract_lets near heard
    have hnear : near.Canon := hseen.modNPort.ite hseen
    have hheard : heard.Canon := hnear.modNet.ite hnear
    exact (hheard.putB.record.ite hheard).ite (hheard.putB.putB.record.ite hheard)

theorem State.Canon.helloReceive {p mac b good tagged} (h : s.Canon) : (s.helloReceive p mac b good tagged).Canon :=
  h.ite (h.icendIn fun _ _ _ h => h.useHello)

theorem State.Canon.joinComplete (h : s.Canon) : s.joinComplete.Canon := by
  unfold State.joinComplete
  split
  · exact h.putB.ite h
  · exact h

theorem State.Canon.cycleBoundary (h : s.Canon) : s.cycleBoundary.Canon :=
  h.ite (h.put.raiseMax.modNet.winShow.each fun _ _ h => h.groupReenter)

theorem State.Canon.publishRead (h : s.Canon) : s.publishRead.2.Canon := by
  refine State.Canon.foldl2 h fun acc i h => ?_
  dsimp only
  split_ifs
  · exact h.free.readWord
  · exact h.readWord

theorem State.Canon.dataSend (h : s.Canon) : s.dataSend.Canon :=
  h.ite ((((((h.each fun _ _ h => h.modTeam.ite h).publishRead).modNet).put).keepFrame).ringSend)

theorem State.Canon.deliverNow {x1} (h : s.Canon) : (s.deliverNow x1).Canon := by
  unfold State.deliverNow
  split
  · exact h.lockGuard fun _ h => h.spWrite
  · exact h.lockGuard fun _ h => h.raise.ite h.tqWrite
  · exact h.each fun _ _ h => h.memSet.ite h.bumpSat

theorem State.Canon.deliver {x} (h : s.Canon) : (s.deliver x).Canon := h.issueAs fun _ h => h.deliverNow

theorem State.Canon.statusApply {c} (h : s.Canon) : (s.statusApply c).Canon :=
  (h.each fun _ _ h => (by split; exacts [h.bumpSat.ite h, h])).each fun _ _ h =>
    (by split; exacts [h, h.each fun _ _ h => h.remoteAlive.ite h.remoteDrop])

theorem State.Canon.receiveDeadline (h : s.Canon) : s.receiveDeadline.Canon :=
  h.ite ((((h.modNet.each fun _ _ h => h.deliver).statusApply).each fun _ _ h => h.record).modNet)

theorem State.Canon.mailShow (h : s.Canon) : s.mailShow.Canon := by
  unfold State.mailShow
  split <;> exact h.wr.wr

theorem State.Canon.otherReceive {p o good ps} (h : s.Canon) : (s.otherReceive p o good ps).Canon :=
  h.ite (h.bump.bumpSat.ite (h.bump.bumpSat.ite (h.bump.ite (h.bump.bumpSat.ite
    ((((h.bump.each fun _ _ h => h.memSet).modNet).notify).mailShow)))))

theorem State.Canon.mailPop (h : s.Canon) : s.mailPop.Canon := h.modNet.mailShow

theorem State.Canon.mailSend {port u len} (h : s.Canon) : (s.mailSend port u len).Canon := by
  unfold State.mailSend
  dsimp only
  split
  · exact h.raiseBit
  · exact h.raiseBit.ite (h.mailFail.ite h.setBit.modNPort)

theorem State.Canon.mailSent {u} (h : s.Canon) : (s.mailSent u).Canon := by
  unfold State.mailSent
  split
  · exact h.modNet.setBit.raiseBit.ite h
  · exact h

/-! ## Housekeeping -/

theorem State.Canon.modTs {i f} (h : s.Canon) : (s.modTs i f).Canon := h.modHk

theorem State.Canon.feedVolt {f code} (h : s.Canon) : (s.feedVolt f code).Canon := h.roundFree.putI

theorem State.Canon.hkSlot {ch code temp flag out} (h : s.Canon) : (s.hkSlot ch code temp flag out).Canon :=
  h.ite (by
      split; exacts [h.put.putB.modTs, h.put.putB.feedVolt.ite (h.put.putB.feedVolt.ite
        (by split; exacts [h.put.putB.modHk.record.ite h.put.putB, h.put.putB]))])

theorem State.Canon.tsRead {i} (h : s.Canon) : (s.tsRead i).Canon :=
  h.ite (h.modTs.ite ((State.Canon.modTs (by split; exacts [h, h.free])).record))

theorem State.Canon.tsLost {vmax i} (h : s.Canon) : (s.tsLost vmax i).Canon :=
  h.ite (h.roundFree.modTs.modHk.record.ite h.roundFree.modTs)

theorem State.Canon.tsShow (h : s.Canon) : s.tsShow.Canon :=
  ((((((h.each fun _ _ h => h.putB.putB.putI).put).put).put).putB).put).putI

theorem State.Canon.thWarn {t} (h : s.Canon) : (s.thWarn t).Canon := (h.ite h.putB.record).ite (h.putB.ite h)

theorem State.Canon.thLevel {t} (h : s.Canon) : (s.thLevel t).Canon :=
  (((h.each fun _ _ h => h.modHk.ite (h.modHk.ite h)).putB).putB).ite
    (((((h.each fun _ _ h => h.modHk.ite (h.modHk.ite h)).putB).putB).put).record)

theorem State.Canon.shutShow (h : s.Canon) : s.shutShow.Canon := h.wr.wr.wr

theorem State.Canon.flsClose (h : s.Canon) : s.flsClose.Canon := h.modSer.flsStat

theorem State.Canon.shutDown {cause} (h : s.Canon) : (s.shutDown cause).Canon := by
  unfold State.shutDown
  exact h.record.modHk.updShutRec.shutShow.haltAll.yokFault.flsClose

theorem State.Canon.hkEvaluate (h : s.Canon) : s.hkEvaluate.Canon := by
  unfold State.hkEvaluate
  extract_lets seen vmax lost fresh t warned
  have hfresh : fresh.Canon := .each (.tsShow (.each (.each h.notify fun _ _ h => h.tsRead) fun _ _ h => h.tsLost))
    fun _ _ h => h.modTs
  have hwarned : warned.Canon := hfresh.thWarn.thLevel
  exact h.ite (hfresh.ite (hwarned.ite (hwarned.shutDown.ite (hwarned.shutDown.ite hwarned))))

theorem State.Canon.graceExpiry (h : s.Canon) : s.graceExpiry.Canon := by
  unfold State.graceExpiry
  split
  · exact h
  · exact h.ite h.modSer.busReset.flsStat.modHk.updShutRec.shutShow.raise.record

theorem State.Canon.gatesLow (h : s.Canon) : s.gatesLow.Canon := h.each fun _ _ h => h.modLeg

theorem State.Canon.clockStop (h : s.Canon) : s.clockStop.Canon := by
  unfold State.clockStop
  split
  · exact h
  · exact h.ite h.gatesLow.modTim.putB.modHk

theorem State.Canon.modFeed {b f} (h : s.Canon) : (s.modFeed b f).Canon := h.modHk

theorem State.Canon.feedShow (h : s.Canon) : s.feedShow.Canon := h.put.put.putB.putB.putB

theorem State.Canon.feedEn {b on} (h : s.Canon) : (s.feedEn b on).Canon := h.modHk

theorem State.Canon.changeover {new cause} (h : s.Canon) : (s.changeover new cause).Canon := h.modHk.bump.record

theorem State.Canon.feedSwap {new cause} (h : s.Canon) : (s.feedSwap new cause).Canon := h.feedEn.modHk.changeover

theorem State.Canon.feedAct {b c} (h : s.Canon) : (s.feedAct b c).Canon := by
  unfold State.feedAct
  split
  · exact h
  · exact h.feedEn
  · exact h.record.feedSwap.ite h.feedEn.feedEn.modHk.record
  · exact h.record.feedEn.feedEn.modHk.changeover.ite h.feedEn.record

theorem State.Canon.feedCondition {b c lvl} (h : s.Canon) : (s.feedCondition b c lvl).Canon :=
  ((h.modFeed.feedAct.ite (h.modFeed.feedEn.ite h.modFeed)).notify).feedShow

theorem State.Canon.feedHealthy {b} (h : s.Canon) : (s.feedHealthy b).Canon := h.modFeed.feedShow.ite h

theorem State.Canon.feedOverlapEnd (h : s.Canon) : s.feedOverlapEnd.Canon := by
  unfold State.feedOverlapEnd
  split
  · exact h.feedEn.modHk.feedShow.ite h
  · exact h

theorem State.Canon.feedRevert (h : s.Canon) : s.feedRevert.Canon := h.feedSwap.feedShow.ite h

theorem State.Canon.feedFirst (h : s.Canon) : s.feedFirst.Canon :=
  .feedShow (.modHk (h.feedEn.modHk.ite (h.feedEn.modHk.ite h.feedEn.feedEn.modHk)))

theorem State.Canon.hkRoundEnd (h : s.Canon) : s.hkRoundEnd.Canon :=
  h.bump.modHk.defer.putB.putB.ite h.bump.modHk.defer.putB.putB.feedFirst

theorem State.Canon.jrnExclude {c} (h : s.Canon) : (s.jrnExclude c).Canon := h.modJrn

theorem State.Canon.jrnScan {recs blank} (h : s.Canon) : (s.jrnScan recs blank).Canon := by
  unfold State.jrnScan
  dsimp only
  exact h.ite (by split; exacts [h.putB.modJrn.put.put.wr, (by split <;> exact h.putB.modJrn.put.put.wr.jrnExclude)])

theorem State.Canon.jrnCommit {good} (h : s.Canon) : (s.jrnCommit good).Canon := by
  unfold State.jrnCommit
  split
  · exact h
  · extract_lets sec slot a erase erased cleared programmed placed shown
    have herased : erased.Canon := h.bump.flsInvalidate.ite h
    have hcleared : cleared.Canon := herased.modJrn.ite herased
    have hshown : shown.Canon := hcleared.bump.flsInvalidate.modJrn.put
    exact h.ite (hshown.bumpSat.ite hshown.bump.modJrn.put.put.bump.jrnExclude)

theorem State.Canon.logWrite {w v} (h : s.Canon) : (s.logWrite w v).Canon := h.recordAt

/-! ## Resets -/

theorem State.Canon.resetDevice {src} (h : s.Canon) : (s.resetDevice src).Canon := by
  have mem : cellsWf zeroWord (if src == .por then [] else s.mem) = true := by
    split
    · rfl
    · exact h.mem
  exact .modTim (.shutShow (.fuseShow (.wr ⟨rfl, rfl, rfl, mem, by simp [State.reset, Body.reset, cellsWf], rfl⟩)))

theorem State.Canon.resetRequest {src} (h : s.Canon) : (s.resetRequest src).Canon :=
  h.ite ((h.each fun _ _ h => h.haltTeam).modLoad)

theorem State.Canon.holdoffEnd (h : s.Canon) : s.holdoffEnd.Canon := by
  unfold State.holdoffEnd
  split
  · exact h.resetDevice.ite h
  · exact h

theorem State.Canon.restartWrite {w v} (h : s.Canon) : (s.restartWrite w v).Canon := h.resetRequest.ite h

theorem State.Canon.phase_ {n} (h : s.Canon) : (s.phase_ n).Canon := h.put

theorem State.Canon.resetRelease {test} (h : s.Canon) : (s.resetRelease test).Canon :=
  h.ite h.bootStart.modLoad.phase_.putB

theorem State.Canon.dllLock (h : s.Canon) : s.dllLock.Canon :=
  h.ite (h.putB.modTim.ite h.putB.modTim.phase_.busReset)

/-! ## Accesses -/

theorem State.Canon.plainWrite {w r i a v} (h : s.Canon) : (s.plainWrite w r i a v).Canon := by
  unfold State.plainWrite
  split <;> exact (((((h.ite h.paddock).paddock).ite (h.ite h.paddock)).wr).redoUps).ite
    ((((h.ite h.paddock).paddock).ite (h.ite h.paddock)).wr)

theorem State.Canon.afterWrite {base i} (h : s.Canon) : (s.afterWrite base i).Canon :=
  State.Canon.ite (by split; exacts [h.ite h.defer, h]) (State.Canon.ite (by split; exacts [h.tinPolarity, h])
    ((h.put.ite h).ite (State.Canon.ite (by split; exacts [h.pmsProgress, h])
    (h.wr.ite (State.Canon.ite (by split; exacts [h.genOff, h]) h)))))

theorem State.Canon.stepWordWrite {w a v} (h : s.Canon) : (s.stepWordWrite w a v).Canon := h.wr.ite h.timIgnored

theorem State.Canon.slewCfgWrite {w r a v} (h : s.Canon) : (s.slewCfgWrite w r a v).Canon :=
  h.timIgnored.ite h.plainWrite

theorem State.Canon.tqCmdWrite {w g v} (h : s.Canon) : (s.tqCmdWrite w g v).Canon :=
  h.wr.ite (h.raise.ite h.tqWrite)

theorem State.Canon.ctlWrite {w t v} (h : s.Canon) : (s.ctlWrite w t v).Canon := h.putB.ite h.teamCtlWrite

theorem State.Canon.osrWordWrite {w r c v} (h : s.Canon) : (s.osrWordWrite w r c v).Canon :=
  h.plainWrite.ite h.plainWrite.put.osrWrite

theorem State.Canon.ssiReqWrite {w r p v} (h : s.Canon) : (s.ssiReqWrite w r p v).Canon :=
  h.plainWrite.free.ssiGo.ite h.plainWrite

theorem State.Canon.txCtlWrite {v} (h : s.Canon) : (s.txCtlWrite v).Canon := h.mailSend.ite h

theorem State.Canon.genCtlWrite {g v} (h : s.Canon) : (s.genCtlWrite g v).Canon :=
  ((h.genGo.ite h).genAbort).ite (h.genGo.ite h)

theorem State.Canon.capCtlWrite {c v} (h : s.Canon) : (s.capCtlWrite c v).Canon :=
  ((h.capArm.ite h).capStop).ite (h.capArm.ite h)

theorem State.Canon.actWrite {w r idx a v} (h : s.Canon) : CanonIf (s.actWrite w r idx a v) := by
  have on {n : Nat} {x : Option (Fin n)} {f : Fin n → State} (k : ∀ i, (f i).Canon) :
      CanonIf (some (match x with | some i => f i | none => s)) := by
    refine .some ?_
    split
    · exact k _
    · exact h
  unfold State.actWrite
  refine .ite (.some h.restartWrite) (.ite (.some h.rateWrite) (.ite (.some h.slewWrite) (.ite (.some h.slewCfgWrite)
    (.ite (.some h.stepWordWrite) (.ite (.some (h.stepDevice.ite h)) (.ite (on fun _ => h.ovrWrite)
    (.ite (on fun _ => h.tripClear.ite h) (.ite (on fun _ => h.ctlWrite) (.ite (on fun _ => h.wr.ite h.spWrite)
    (.ite (on fun _ => h.tqCmdWrite) (.ite (on fun _ => h.osrWordWrite) (.ite (on fun _ => h.ocSync.wr.ocPeakNow)
    (.ite (on fun _ => h.ocSync.plainWrite) (.ite (.some h.loadSync.plainWrite)
    (.ite (on fun _ => h.plainWrite.bgRelease.ite h.plainWrite) (.ite (on fun _ => h.genCtlWrite)
    (.ite (on fun _ => h.capCtlWrite) (.ite (on fun _ => h.positionSet) (.ite (on fun _ => h.ssiReqWrite)
    (.ite (on fun _ => ?_) (.ite (on fun _ => ?_) (.ite (.some (h.actRelease.ite h)) (.ite (.some (h.wdKick.ite h))
    (.ite (.some (h.mailPop.ite h)) (.ite (.some h.txCtlWrite) (.ite (.some (h.plainWrite.flsFlush.ite h.plainWrite))
    (.ite (.some h.flsWdata) (.ite (.some h.eraseStore) (.ite (.some (.ite ?_ h)) (.ite (.some (h.wr.ite h))
    (.ite (on fun _ => h.pmsQueue) (.ite (on fun _ => h.pmsTx)
    (.ite (.some h.logWrite) .none)))))))))))))))))))))))))))))))))
  · split
    · exact h.cmpCfgWrite
    · exact h
  · split
    · exact h.cmpTgtWrite
    · exact h
  · split
    · exact h.fuseGo
    · exact h

theorem State.Canon.regWrite {w r idx a v} (h : s.Canon) : (s.regWrite w r idx a v).Canon := by
  unfold State.regWrite
  refine h.lockGuard fun u h => ?_
  dsimp only
  split
  · exact h.actWrite _ ‹_›
  · exact .afterWrite (.ite (.ite h h.shWrite) (.plainWrite (.ite h h.shWrite)))

theorem State.Canon.winWrite {w a k v} (h : s.Canon) : (s.winWrite w a k v).Canon :=
  h.ite (((h.memSet.ite h).ite (h.ite h.paddock)).ite (h.memSet.ite h.memSet))

theorem State.Canon.writeReg {w a v} (h : s.Canon) : (s.writeReg w a v).Canon :=
  h.accErr.ite (((h.ite h.accErr).paddock).ite (by
      split; exacts [h.lockGuard fun _ h => h.winWrite, (by split; exacts [h.accErr.ite h.regWrite, h.accErr])]))

/-! ## The image load -/

theorem State.Canon.rdSelect (h : s.Canon) : s.rdSelect.Canon := h.rdShow

theorem State.Canon.loadBus {r} (h : s.Canon) : (s.loadBus r).Canon := h.busSet

theorem State.Canon.wipe (h : s.Canon) : s.wipe.Canon :=
  { h with mem := cellsWf_filter _ _ _ h.mem }

theorem State.Canon.loadFail (h : s.Canon) : s.loadFail.Canon := h.modLoad.phase_

theorem State.Canon.loadFlt {code ctx} (h : s.Canon) : (s.loadFlt code ctx).Canon := h.ite h.put.modLoad

theorem State.Canon.loadRefuse {det ctx} (h : s.Canon) : (s.loadRefuse det ctx).Canon :=
  h.loadFlt.evtLast.wipe.modLoad.rdSelect.modLoad.phase_.ite h.loadFlt.evtLast.wipe.modLoad.rdSelect.loadFail

theorem State.Canon.askReread {r} (h : s.Canon) : (s.askReread r).Canon := h.modLoad.rdSelect

theorem State.Canon.endReread (h : s.Canon) : s.endReread.Canon := h.modLoad

theorem State.Canon.flashInit (h : s.Canon) : s.flashInit.Canon := h.busPoll.phase_.ite h

theorem State.Canon.flashInitTimeout (h : s.Canon) : s.flashInitTimeout.Canon := h.record.loadFail.ite h

theorem State.Canon.memoryClear (h : s.Canon) : s.memoryClear.Canon := h.wipe.modLoad.ite h

theorem State.Canon.selStep (h : s.Canon) : s.selStep.Canon :=
  h.askReread.ite (h.askReread.ite (by split <;> exact h.endReread.rdSelect.modLoad.phase_))

theorem State.Canon.selector {c0 c1} (h : s.Canon) : (s.selector c0 c1).Canon := h.busSet.modLoad.selStep.ite h

theorem State.Canon.headerUse {h'} (h : s.Canon) : (s.headerUse h').Canon :=
  h.endReread.modLoad.rdSelect.phase_.ite h.loadRefuse

theorem State.Canon.headerRead {h'} (h : s.Canon) : (s.headerRead h').Canon :=
  (h.loadBus.putB.headerUse.ite h.loadBus.putB.askReread).ite h

theorem State.Canon.tableUse {b} (h : s.Canon) : (s.tableUse b).Canon := h.endReread.rdSelect.modLoad.put.phase_

theorem State.Canon.tableRead {b} (h : s.Canon) : (s.tableRead b).Canon :=
  (h.loadBus.tableUse.ite h.loadBus.askReread).ite h

theorem State.Canon.copyByte {type bank a b} (h : s.Canon) : (s.copyByte type bank a b).Canon := h.memSet

theorem State.Canon.copySect {o b e} (h : s.Canon) : (s.copySect o b e).Canon := h.each fun _ _ h => h.copyByte

theorem State.Canon.blockUse {b} (h : s.Canon) : (s.blockUse b).Canon :=
  h.endReread.rdSelect.modLoad.loadRefuse.ite (((h.endReread.rdSelect.modLoad.each fun _ _ h => h.copySect).put).ite
    ((h.endReread.rdSelect.modLoad.each fun _ _ h => h.copySect).phase_))

theorem State.Canon.bodyBlock {b} (h : s.Canon) : (s.bodyBlock b).Canon :=
  (h.loadBus.blockUse.ite h.loadBus.askReread).ite h

theorem State.Canon.sigUse {b} (h : s.Canon) : (s.sigUse b).Canon := h.endReread.rdSelect.modLoad.phase_

theorem State.Canon.sigRead {b} (h : s.Canon) : (s.sigRead b).Canon :=
  (h.loadBus.sigUse.ite h.loadBus.askReread).ite h

theorem State.Canon.verify (h : s.Canon) : s.verify.Canon := (h.modLoad.phase_.ite h.loadRefuse).ite h

theorem State.Canon.overlaySkip (h : s.Canon) : s.overlaySkip.Canon := h.bumpSat

theorem State.Canon.overlayTake {b} (h : s.Canon) : (s.overlayTake b).Canon := by
  unfold State.overlayTake
  dsimp only
  exact h.overlaySkip.ite (by split; exacts [h.overlaySkip.modLoad.ite h.overlaySkip, h.modLoad])

theorem State.Canon.overlayNext (h : s.Canon) : s.overlayNext.Canon :=
  h.endReread.modLoad.rdSelect.ite (h.endReread.modLoad.rdSelect.each fun _ _ h =>
    (h.each fun _ _ h => h.memSet).bump)

theorem State.Canon.overlayRead {b} (h : s.Canon) : (s.overlayRead b).Canon :=
  (h.loadBus.overlayTake.overlayNext.ite h.loadBus.askReread).ite h

theorem State.Canon.selSet {copy b} (h : s.Canon) : (s.selSet copy b).Canon := h.modLoad.selStep

theorem State.Canon.rereadTake {r b} (h : s.Canon) : (s.rereadTake r b).Canon := by
  unfold State.rereadTake
  split
  · exact h
  · exact h.selSet
  · exact h.headerUse
  · exact h.tableUse
  · exact h.blockUse
  · exact h.sigUse
  · exact h.overlayTake.overlayNext

theorem State.Canon.rereadGiveUp {r b} (h : s.Canon) : (s.rereadGiveUp r b).Canon := by
  unfold State.rereadGiveUp
  split
  · exact h
  · exact h.selSet
  · exact h.loadRefuse
  · exact h.loadRefuse
  · exact h.loadRefuse
  · exact h.loadRefuse
  · exact h.overlaySkip.overlayNext

theorem State.Canon.reread {b} (h : s.Canon) : (s.reread b).Canon :=
  h.ite (h.loadBus.bumpSat.modLoad.rdSelect.rereadTake.ite (h.loadBus.bumpSat.modLoad.rdSelect.rereadGiveUp.ite
    h.loadBus.bumpSat.modLoad.rdSelect))

theorem State.Canon.applyList {type} (h : s.Canon) : (s.applyList type).Canon := by
  unfold State.applyList
  split
  · exact h.each fun _ _ h => h.writeReg
  · exact h

theorem State.Canon.applyPaddock (h : s.Canon) : s.applyPaddock.Canon :=
  (h.modLoad.each fun _ _ h => h.putB.putB).each fun _ _ h => h.putB.putB

theorem State.Canon.applyNetid (h : s.Canon) : s.applyNetid.Canon := h.modLoad.put.put.putB.modTim

theorem State.Canon.scopeTrips {src old} (h : s.Canon) : (s.scopeTrips src old).Canon := by
  have one {c : Cond} {u : State} (h : u.Canon) : State.Canon (if (u.srcFilt src c).filt then
      u.filtTripLegs src c ((u.scope src).filter (fun n => !old.contains n)) else u) := h.filtTripLegs.ite h
  unfold State.scopeTrips
  refine .activeUpdate ?_
  dsimp only
  split
  · exact one h
  · exact one (one h)

theorem State.Canon.applySetup (h : s.Canon) : s.applySetup.Canon :=
  (((((((h.each fun _ _ h => h.ckStart).each fun _ _ h => h.bsStore).each fun _ _ h => h.sdmSetup).each fun _ _ h =>
    h.cmpSetup).each fun _ _ h => h.tinSetup).each fun _ _ h => h.rptPolarity).outsRefresh).inbandUpdate

theorem State.Canon.applyRanges (h : s.Canon) : s.applyRanges.Canon := by
  unfold State.applyRanges
  split <;> exact h.modLoad

theorem State.Canon.apply (h : s.Canon) : s.apply.Canon :=
  h.applyRanges.applyList.applyList.applyPaddock.applyList.applyNetid.applyList.applySetup.phase_.ite h

theorem State.Canon.lockForm {t} (h : s.Canon) : (s.lockForm t).Canon := h.put.raise.ite h

theorem State.Canon.lockTeamLimits {t} (h : s.Canon) : (s.lockTeamLimits t).Canon := h.wrSh

theorem State.Canon.lockLegLimits {n} (h : s.Canon) : (s.lockLegLimits n).Canon := h.wrSh.wrSh.put.ite h.wrSh.wrSh

theorem State.Canon.lockChanLimits {c} (h : s.Canon) : (s.lockChanLimits c).Canon :=
  ((h.wr.ite h).wr).ite (h.wr.ite h)

theorem State.Canon.lockTeam {t legs} (h : s.Canon) : (s.lockTeam t legs).Canon :=
  (((((((((h.modTeam.each fun _ _ h =>
    h.modLeg.stageLeg.activateLeg.wr).wrSt).applyPer).wrSt).wr).put).put).putB).putB).safeEntry

theorem State.Canon.lockSdmScope {c} (h : s.Canon) : (s.lockSdmScope c).Canon := h.put.put.ite h

theorem State.Canon.lockScopes (h : s.Canon) : s.lockScopes.Canon :=
  ((h.each fun _ _ h => h.cmpLock).each fun _ _ h => h.lockSdmScope.modSdmTrip.scopeTrips).each fun _ _ h => h.modTin

theorem State.Canon.lockRearm {n} (h : s.Canon) : (s.lockRearm n).Canon := h.putB.ite h

theorem State.Canon.lockBands (h : s.Canon) : s.lockBands.Canon :=
  (((h.each fun _ _ h => h.setBit.ite h).each fun _ _ h => h.putB.putB).ite
    (((h.each fun _ _ h => h.setBit.ite h).each fun _ _ h => h.putB.putB).putB)).inbandUpdate

theorem State.Canon.lockIdent (h : s.Canon) : s.lockIdent.Canon :=
  ((h.put.put.put.putB.putB.wr.each fun _ _ h => h.wr.wr.wr).put).putB

theorem State.Canon.lockJournal (h : s.Canon) : s.lockJournal.Canon :=
  (((((h.modJrn.each fun _ _ h => h.jrnQueue).evtLast).ite
    (h.modJrn.each fun _ _ h => h.jrnQueue)).updShutRec).shutShow).putB

theorem State.Canon.paddockLock (h : s.Canon) : s.paddockLock.Canon := by
  unfold State.paddockLock
  dsimp only
  exact ((((((((((((((((((((((h.each fun _ _ h => h.lockForm.lockTeamLimits).each fun _ _ h => h.lockLegLimits).each
    fun _ _ h => h.lockChanLimits).modLoad).each fun _ _ h => h.putB).each fun _ _ h => h.lockTeam).each fun _ _ h =>
    h.teamDly).each fun _ _ h => h.fbkLock).each fun _ _ h => h.groupLock).capUse).each fun _ _ h =>
    h.obsLock.mapLock).lockScopes).each fun _ _ h =>
    h.lockRearm).lockBands).ptpLock).yokLock).lockIdent).put).lockJournal).defer).outsRefresh).phase_).ite h

/-! ## The service port -/

theorem State.Canon.svcLoad (h : s.Canon) : s.svcLoad.Canon := h.modSvc

theorem State.Canon.svcSay {stat addr data} (h : s.Canon) : (s.svcSay stat addr data).Canon := h.modSvc

theorem State.Canon.svcPoint {a} (h : s.Canon) : (s.svcPoint a).Canon := h.put.putB.modSvc

theorem State.Canon.svcAim {wr a} (h : s.Canon) : (s.svcAim wr a).Canon := h.ite h.svcPoint

theorem State.Canon.svcReadAt {a ext} (h : s.Canon) : (s.svcReadAt a ext).Canon :=
  h.svcSay.ite h.readWord.updLastRead.svcSay

theorem State.Canon.svcIssue {a v} (h : s.Canon) : (s.svcIssue a v).Canon := h.tagSet.writeReg.ite h.modSvc.stall

theorem State.Canon.svcWriteAt {a v} (h : s.Canon) : (s.svcWriteAt a v).Canon := h.svcSay.svcIssue

theorem State.Canon.svcAccess {wr a v} (h : s.Canon) : (s.svcAccess wr a v).Canon :=
  h.bumpSat.svcSay.ite (h.svcSay.ite (h.svcWriteAt.ite h.svcReadAt))

theorem State.Canon.svcNext {wr v} (h : s.Canon) : (s.svcNext wr v).Canon :=
  h.svcSay.ite (h.putB.bumpSat.svcSay.ite h.put.svcAccess)

theorem State.Canon.svcCancel (h : s.Canon) : s.svcCancel.Canon :=
  h.ite (h.updStalled.bumpSat.modSvc.svcLoad.ite h.updStalled.bumpSat.modSvc)

theorem State.Canon.svcDo {c addr data ext} (h : s.Canon) : (s.svcDo c addr data ext).Canon := by
  unfold State.svcDo
  split
  · exact h.svcSay
  · exact h.svcAim.svcAccess
  · exact h.svcNext
  · exact h.svcAim.svcAccess
  · exact h.svcNext
  · exact h.svcSay.modSvc.ite h.svcSay
  · exact h.svcSay.ite h.putB.svcSay
  · exact h.svcSay

theorem State.Canon.svcFrame {c addr data ext} (h : s.Canon) : (s.svcFrame c addr data ext).Canon :=
  h.ite (h.svcCancel.svcDo.svcLoad.ite h.svcCancel.svcDo)

theorem State.Canon.svcBits {v ext} (h : s.Canon) : (s.svcBits v ext).Canon :=
  h.svcCancel.svcDo.ite h.svcCancel.bumpSat.putB.svcSay

theorem State.Canon.svcSelectStart {bypass} (h : s.Canon) : (s.svcSelectStart bypass).Canon :=
  h.ite h.put.modSvc.svcCancel.svcLoad

theorem State.Canon.svcSelectEnd {k bits ext} (h : s.Canon) : (s.svcSelectEnd k bits ext).Canon :=
  h.ite ((((h.svcBits.ite h).put).putB).modSvc)

/-! ## Deferred events -/

theorem State.Canon.imageEn (h : s.Canon) : s.imageEn.Canon :=
  h.each fun _ _ h => (h.teamEnable.putB.ite h.teamEnable).ite h

theorem State.Canon.unstall {x1} (h : s.Canon) : (s.unstall x1).Canon := by
  unfold State.unstall
  split
  · exact h
  · exact h.writeReg
  · exact h.commitNow
  · exact h.deliverNow
  · exact h.adoptNow
  · split
    · exact h.modSvc.writeReg
    · exact h

theorem State.Canon.tagDrain (h : s.Canon) : s.tagDrain.Canon := by
  have drained : (Machine.each (s.stalled.take (128 - s.tagsUse)) (fun x s => (s.tagSet (s.tagsUse + 1)).unstall x)
      { s with stalled := s.stalled.drop (128 - s.tagsUse) }).Canon := h.updStalled.each fun _ _ h => h.tagSet.unstall
  exact drained.ite drained.defer

theorem State.Canon.fire {x1} (h : s.Canon) : (s.fire x1).Canon := by
  unfold State.fire
  split
  · exact h.teamOffNow
  · exact h.forceNow
  · exact h.mpCountNow
  · exact h.imageEn
  · exact h.cmpKnownNow
  · exact h.filtRelease
  · exact h.cmpHold
  · exact h.ocSync.ocConds
  · exact h.hkRoundEnd
  · exact h.claimNow
  · exact h.tagDrain

theorem State.Canon.takeDue {t d} {u : State} (h : s.Canon) (e : s.takeDue t = some (d, u)) :
    u.Canon := by
  unfold State.takeDue at e
  split at e
  · split at e
    · obtain ⟨-, rfl⟩ := Prod.mk.inj (Option.some.inj e)
      exact h.updDue.ticks
    · exact absurd e (by simp)
  · exact absurd e (by simp)

theorem State.Canon.advanceN {n t} (h : s.Canon) : (State.advanceN n t s).Canon := by
  induction n generalizing s with
  | zero => exact h.ticks
  | succ n ih =>
    unfold State.advanceN
    split
    · exact ih (h.takeDue ‹_›).fire
    · exact h.ticks

theorem State.Canon.advance {t} (h : s.Canon) : (s.advance t).Canon := h.advanceN

theorem State.Canon.at_ {f} (h : s.Canon) (k : ∀ u, u.Canon → (f u).Canon) : (s.at_ f).Canon :=
  ((k _ h).yokCheck).ite h

theorem State.Canon.any_ {f} (h : s.Canon) (k : ∀ u, u.Canon → (f u).Canon) : (s.any_ f).Canon := (k _ h).yokCheck

/-! ## Tags and waiting writes -/

theorem State.Canon.issue {w a v} (h : s.Canon) : (s.issue w a v).Canon := h.issueAs fun _ h => h.writeReg

theorem State.Canon.masterWrite {m a v} (h : s.Canon) : (s.masterWrite m a v).Canon :=
  h.ite (by split; exacts [h.issue, h.svcIssue])

theorem State.Canon.registerWrite {m a v w} (h : s.Canon) : (s.registerWrite m a v w).Canon := by
  unfold State.registerWrite
  split
  · exact h.masterWrite
  · exact h.masterWrite.ite (h.accErr.ite h)

theorem State.Canon.checkpointed {r} (h : s.Canon) : (s.checkpointed r).Canon := h.updSup

theorem State.Canon.masterRead {m a flash} (h : s.Canon) : (s.masterRead m a flash).Canon := by
  unfold State.masterRead
  refine h.ite ?_
  dsimp only
  have read {v} := (h.readWord (rdr := m.reader) (w := m.writer) (a := a) (flash := flash)).updLastRead (v := v)
  split
  · exact read.checkpointed.ite read
  · exact read

theorem State.Canon.registerRead {m a w} (h : s.Canon) : (s.registerRead m a w).Canon := by
  unfold State.registerRead
  dsimp only
  split
  · exact h.free.masterRead.ite h.masterRead
  · exact h.ite ((h.free.masterRead.ite h.masterRead).updLastRead.ite h.accErr.updLastRead)

theorem State.Canon.flsrdataRead {m data} (h : s.Canon) : (s.flsrdataRead m data).Canon := h.masterRead

theorem State.Canon.ssiGoWrite {m p v dat} (h : s.Canon) : (s.ssiGoWrite m p v dat).Canon :=
  h.ite (h.masterWrite.ite (h.tagSet.lockGuard fun _ h => State.Canon.ssiGo (by split; exacts [h.plainWrite, h])))

theorem State.Canon.winRead {r fetch a line} (h : s.Canon) : (s.winRead r fetch a line).Canon := h.windowRead.ite h

theorem State.Canon.flashStore {r f} (h : s.Canon) (k : ∀ u y1, u.Canon → (f u y1).Canon) : (s.flashStore r f).Canon
  :=
  (k _ _ h).ite h

theorem State.Canon.checkpoint {r stores} (h : s.Canon) : (s.checkpoint r stores).Canon :=
  h.ite ((h.raiseMax.each fun _ _ h =>
    (by split; exacts [h.issue.ite h.accErr, h.progStore, h.eraseStore])).checkpointed)

theorem State.Canon.lockstepMismatch {r} (h : s.Canon) : (s.lockstepMismatch r).Canon := by
  unfold State.lockstepMismatch
  exact h.ite (h.wr.record.putB.yokFault.ite h.wr.bumpSat.updSup.record)

theorem State.Canon.unstallFirst (h : s.Canon) : s.unstallFirst.Canon := by
  unfold State.unstallFirst
  split
  · exact h
  · exact h.updStalled.tagSet.unstall

theorem State.Canon.tagFreed (h : s.Canon) : s.tagFreed.Canon := by
  rw [State.tagFreed_eq]
  exact h.tagSet.unstallFirst

theorem State.Canon.commitArrive {k} (h : s.Canon) : (s.commitArrive k).Canon :=
  h.ite (h.issueAs fun _ h => h.commitNow)

theorem State.Canon.refFaultDev {lost} (h : s.Canon) : (s.refFaultDev lost).Canon :=
  h.refFault.yokFault.ite h.refFault

theorem State.Canon.dllUnlockDev {line} (h : s.Canon) : (s.dllUnlockDev line).Canon :=
  h.ite (h.dllUnlock.yokFault.ite h.dllUnlock)

theorem State.Canon.bandExit {b fault} (h : s.Canon) : (s.bandExit b fault).Canon := by
  unfold State.bandExit
  split
  · exact h.safeBandExit
  · exact h.putB.inbandUpdate
  · exact h.tinBandExit
  · exact h.cmpBandExit
  · exact h.rptBandExit
  · exact h.actBandExit.ite h

theorem State.Canon.warmComplete {x1} (h : s.Canon) : (s.warmComplete x1).Canon := by
  unfold State.warmComplete
  split
  · exact h.ocWarm
  · exact h

theorem State.Canon.withUpdate {t f} (h : s.Canon) (k : ∀ u, u.Canon → (f u).Canon) : (s.withUpdate t f).Canon :=
  ((k _ h).yokUpdate).ite (k _ h)

theorem State.Canon.updatePoint {x1} (h : s.Canon) : (s.updatePoint x1).Canon := by
  unfold State.updatePoint
  split
  · exact h.ite ((h.ite (h.withUpdate fun _ h => h.teamCentre)).ite (h.each fun _ _ h => h.legCentre.ite h))
  · exact h.withTeam fun _ => h.legCentre.ite h

theorem State.Canon.periodStart {c fine} (h : s.Canon) : (s.periodStart c fine).Canon := by
  unfold State.periodStart
  split
  · exact (h.withUpdate fun _ h => h.teamStart).ite h
  · exact h.legStart

theorem State.Canon.epochArrives {t fine} (h : s.Canon) : (s.epochArrives t fine).Canon :=
  (State.Canon.withUpdate (by split; exacts [h.epochIdx.ite h, h]) fun _ h => h.teamStart).ite
    (by split; exacts [h.epochIdx.ite h, h])

theorem State.Canon.bitCapture {c x2} (h : s.Canon) : (s.bitCapture c x2).Canon := by
  unfold State.bitCapture
  split
  · exact h.captureClocked
  · exact h.captureMan

/-! ## Commands -/

theorem State.Canon.act {x1} (h : s.Canon) : (s.act x1).Canon := by
  unfold State.act
  split
  exacts [h.any_ fun _ h => h.resetDevice, h.any_ fun _ h => h.resetRequest, h.any_ fun _ h => h.resetRequest,
    h.any_ fun _ h => h.masterWrite, h.any_ fun _ h => h.holdoffEnd, h.any_ fun _ h => h.resetRelease,
    h.any_ fun _ h => h.pllLock, h.any_ fun _ h => h.pllTimeout, h.at_ fun _ h => h.dllLock,
    h.at_ fun _ h => h.refFaultDev, h.at_ fun _ h => h.refHold, h.at_ fun _ h => h.dllUnlockDev,
    h.at_ fun _ h => h.calStep, h.any_ fun _ h => h.masterWrite, h.any_ fun _ h => h.masterWrite,
    h.at_ fun _ h => h.slewDone.slewStage, h.any_ fun _ h => h.masterWrite, h.at_ fun _ h => h.ppsRise,
    h.at_ fun _ h => h.ppsFall, h.at_ fun _ h => h.ppsIn.ppsLoop, h.at_ fun _ h => h.flashInit,
    h.at_ fun _ h => h.flashInitTimeout, h.at_ fun _ h => h.memoryClear, h.at_ fun _ h => h.selector,
    h.at_ fun _ h => h.headerRead, h.at_ fun _ h => h.tableRead, h.at_ fun _ h => h.bodyBlock,
    h.at_ fun _ h => h.reread, h.at_ fun _ h => h.sigRead, h.at_ fun _ h => h.verify, h.at_ fun _ h => h.apply,
    h.at_ fun _ h => h.overlayRead, h.at_ fun _ h => h.paddockLock, h.at_ fun _ h => h.bandExit,
    h.at_ fun _ h => h.warmComplete, h.at_ fun _ h => h.updatePoint, h.at_ fun _ h => h.periodStart,
    h.at_ fun _ h => h.epochArrives, h.at_ fun _ h => h.compareEdge, h.at_ fun _ h => h.converterTrigger,
    h.at_ fun _ h => h.restartCrossing, h.at_ fun _ h => h.withUpdate fun _ h => h.periodRestart,
    h.at_ fun _ h => h.withUpdate fun _ h => h.periodTimeout, h.at_ fun _ h => h.deadTimeEnd,
    h.at_ fun _ h => h.reportChange, h.at_ fun _ h => h.reportTimeout, h.at_ fun _ h => h.bothOn,
    h.at_ fun _ h => h.ilkCancel, h.at_ fun _ h => h.bootRefresh, h.at_ fun _ h => h.refreshEnd,
    h.any_ fun _ h => h.masterWrite, h.any_ fun _ h => h.masterWrite, h.any_ fun _ h => h.masterWrite,
    h.any_ fun _ h => h.masterWrite, h.at_ fun _ h => h.groupRelease, h.at_ fun _ h => h.sdmDeliver,
    h.at_ fun _ h => h.sdmLoss, h.any_ fun _ h => h.masterWrite, h.at_ fun _ h => h.sampleRelease,
    h.at_ fun _ h => h.taskStart, h.at_ fun _ h => h.commitArrive, h.at_ fun _ h => h.groupDeadline,
    h.at_ fun _ h => h.bgPeriodic, h.any_ fun _ h => h.masterWrite, h.at_ fun _ h => h.scrubStep,
    h.ceOp fun _ _ h => h.pureOp, h.ceEnd, h.ceOp fun _ _ h => h.pureOp, h.ceOp fun _ _ h => h.bodyAcc,
    h.ceOp fun _ _ h => h.bodyAcc, h.ceOp fun _ _ h => h.bodyAcc, h.ceOp fun _ _ h => h.bodyAcc,
    h.ceOp fun _ _ h => h.bodyAcc, h.ceOp fun _ _ h => h.bodyAcc, h.ceOp fun _ _ h => h.bodyAcc,
    h.ceOp fun _ _ h => h.bodyAcc, h.ceOp fun _ _ h => h.bodyAcc, h.ceOp fun _ _ h => h.bodySTS,
    h.ceOp fun _ _ h => h.bodyAcc, h.ceOp fun _ _ h => h.bodyNeg, h.ceOp fun _ _ h => h.bodyNeg,
    h.ceOp fun _ _ h => h.bodyAcc, h.ceOp fun _ _ h => h.bodyAcc, h.ceOp fun _ _ h => h.bodyLIM,
    h.ceOp fun _ _ h => h.bodyAcc, h.ceOp fun _ _ h => h.bodyVLIM, h.ceOp fun _ _ h => h.pureOp,
    h.ceOp fun _ _ h => h.pureOp, h.ceOp fun _ _ h => h.pureOp, h.ceOp fun _ _ h => h.bodyBIQ,
    h.ceOp fun _ _ h => h.bodyAMUL, h.ceOp fun _ _ h => h.pureOp, h.ceOp fun _ _ h => h.bodyTLU,
    h.ceOp fun _ _ h => h.bodySINCOS, h.ceOp fun _ _ h => h.pureOp, h.ceOp fun _ _ h => h.bodyDIV,
    h.ceOp fun _ _ h => h.bodySQRT, h.ceOp fun _ _ h => h.pureOp, h.ceOp fun _ _ h => h.bodySkip,
    h.ceOp fun _ _ h => h.bodySkip, h.ceOp fun _ _ h => h.bodySkip, h.ceOp fun _ _ h => h.bodySkip,
    h.ceOp fun _ _ h => h.bodyCAP, h.ceOp fun _ _ h => h.bodySETF, h.any_ fun _ h => h.masterWrite,
    h.any_ fun _ h => h.masterWrite, h.any_ fun _ h => h.masterWrite, h.any_ fun _ h => h.masterWrite,
    h.at_ fun _ h => h.edgeAccept, h.any_ fun _ h => h.masterWrite, h.at_ fun _ h => h.hallTimeout,
    h.at_ fun _ h => h.ssiRequest, h.any_ fun _ h => h.ssiGoWrite, h.at_ fun _ h => h.ssiFrameEnd,
    h.at_ fun _ h => h.speedZero, h.at_ fun _ h => h.probeLatch, h.any_ fun _ h => h.masterWrite,
    h.any_ fun _ h => h.masterWrite, h.at_ fun _ h => h.pulseEnd, h.at_ fun _ h => h.outStep,
    h.at_ fun _ h => h.edgeTimeout, h.at_ fun _ h => h.freezeDetect, h.at_ fun _ h => h.ladderEnd,
    h.at_ fun _ h => h.cmpCrossing, h.at_ fun _ h => h.cmpSample, h.at_ fun _ h => h.tripSeen,
    h.at_ fun _ h => h.blankingEnd, h.at_ fun _ h => h.tinEdge, h.at_ fun _ h => h.filteredTrip,
    h.at_ fun _ h => h.softOffStep2, h.any_ fun _ h => h.masterWrite, h.at_ fun _ h => h.autoRearm,
    h.at_ fun _ h => h.safeNLow, h.at_ fun _ h => h.safeNHigh, h.at_ fun _ h => h.identSend,
    h.at_ fun _ h => h.identReceive, h.at_ fun _ h => h.joinTimeout, h.at_ fun _ h => h.hbSend,
    h.at_ fun _ h => h.hbReceive, h.at_ fun _ h => h.hbTimeout, h.at_ fun _ h => h.laneDown,
    h.at_ fun _ h => h.commitReceive, h.at_ fun _ h => h.actFall, h.at_ fun _ h => h.actRise,
    h.at_ fun _ h => h.actConflict, h.any_ fun _ h => h.masterWrite, h.at_ fun _ h => h.wdExpiry,
    h.at_ fun _ h => h.viewRule, h.any_ fun _ h => h.masterWrite, h.at_ fun _ h => h.checkpoint,
    h.at_ fun _ h => h.lockstepMismatch, h.at_ fun _ h => h.linkUp, h.at_ fun _ h => h.linkDown,
    h.at_ fun _ h => h.syncReceive, h.at_ fun _ h => h.followUpReceive, h.at_ fun _ h => h.announceReceive,
    h.at_ fun _ h => h.announceSend, h.at_ fun _ h => h.syncSend, h.at_ fun _ h => h.pdelaySend,
    h.at_ fun _ h => h.pdelayAnswer, h.at_ fun _ h => h.pdelayResp, h.at_ fun _ h => h.syncTimeout,
    h.at_ fun _ h => h.holdmax, h.at_ fun _ h => h.ppsLoss, h.at_ fun _ h => h.cycleBoundary,
    h.at_ fun _ h => h.dataSend, h.at_ fun _ h => h.receiveDeadline, h.at_ fun _ h => h.icendReceive,
    h.at_ fun _ h => h.repairReceive, h.at_ fun _ h => h.helloSend, h.at_ fun _ h => h.helloReceive,
    h.at_ fun _ h => h.joinComplete, h.at_ fun _ h => h.otherReceive, h.any_ fun _ h => h.masterWrite,
    h.any_ fun _ h => h.masterWrite, h.at_ fun _ h => h.mailSent, h.at_ fun _ h => h.egressStart,
    h.at_ fun _ h => h.winRead, h.at_ fun _ h => h.flashStore fun _ _ h => h.progStore,
    h.at_ fun _ h => h.flashStore fun _ _ h => h.eraseStore, h.any_ fun _ h => h.masterWrite,
    h.any_ fun _ h => h.masterWrite, h.any_ fun _ h => h.flsrdataRead, h.any_ fun _ h => h.masterWrite,
    h.at_ fun _ h => h.flsGatherTimeout, h.at_ fun _ h => h.flsEnd, h.at_ fun _ h => h.flsTimeout,
    h.any_ fun _ h => h.svcSelectStart, h.any_ fun _ h => h.svcSelectEnd, h.any_ fun _ h => h.svcFrame,
    h.any_ fun _ h => h.svcFrame, h.any_ fun _ h => h.svcFrame, h.any_ fun _ h => h.svcFrame,
    h.any_ fun _ h => h.svcFrame, h.any_ fun _ h => h.svcFrame, h.any_ fun _ h => h.svcFrame,
    h.any_ fun _ h => h.masterWrite, h.any_ fun _ h => h.masterWrite, h.any_ fun _ h => h.masterWrite,
    h.any_ fun _ h => h.fuseDone, h.any_ fun _ h => h.masterWrite, h.at_ fun _ h => h.pmsStart,
    h.at_ fun _ h => h.pmsDone, h.any_ fun _ h => h.masterWrite, h.any_ fun _ h => h.masterRead,
    h.at_ fun _ h => h.pmsSlaveWord, h.at_ fun _ h => h.pmsRelease, h.any_ fun _ h => h.hkSlot,
    h.any_ fun _ h => h.hkEvaluate, h.any_ fun _ h => h.graceExpiry, h.any_ fun _ h => h.clockStop.yokCheck,
    h.any_ fun _ h => h.feedCondition, h.any_ fun _ h => h.feedOverlapEnd, h.any_ fun _ h => h.feedHealthy,
    h.any_ fun _ h => h.feedRevert, h.at_ fun _ h => h.jrnCommit, h.at_ fun _ h => h.jrnScan,
    h.any_ fun _ h => h.masterWrite, h.any_ fun _ h => h.registerRead, h.any_ fun _ h => h.registerWrite,
    h.at_ fun _ h => h.tagFreed, h.at_ fun _ h => h.bitCapture, h.at_ fun _ h => h.decodeError,
    h.at_ fun _ h => h.overCurrent, h.at_ fun _ h => h.laneUp, h.at_ fun _ h => h.announceTimeout,
    h.at_ fun _ h => h.ptpUnsupported, h.at_ fun _ h => h.ssiPartnerStart]

theorem State.Canon.after {u : State} {c} (h : s.Canon) (k : u.Canon) : (u.after s c).Canon := by
  have stores : s.toBody.canon = true ∧ s.base.canon = true := by
    simpa only [State.canon, Bool.and_eq_true] using (State.canon_iff s).mpr h
  refine { k with base := ?_ }
  show Body.canon (if s.actedAt = s.now then s.base else s.toBody) = true
  split
  · exact stores.2
  · exact stores.1

theorem State.Canon.holdTrips {on} (h : s.Canon) : (s.holdTrips on).Canon := h.updSame

theorem State.Canon.actAll {l} (h : s.Canon) : (s.actAll l).Canon := by
  induction l generalizing s with
  | nil => exact h
  | cons c r ih =>
    refine ih (h.advance.after ?_)
    exact h.advance.act.ite (h.advance.holdTrips.act.ite (.yokCheck
      (.each h.advance.holdTrips.act.holdTrips fun _ _ h => h.teamTripCheck)))

theorem State.Canon.replay {l} (h : s.Canon) : (s.replay l).Canon :=
  have hb : s.base.canon = true := h.base
  .actAll ((State.canon_iff _).mp (Bool.and_eq_true _ _ ▸ ⟨hb, hb⟩))

theorem State.Canon.command {t c} (h : s.Canon) : (s.command t c).Canon :=
  have alone := h.advance.after h.advance.act
  .ite alone (.ite h.advance.replay alone)

theorem State.Canon.inRun {c} (h : s.Canon) : (s.inRun c).Canon :=
  h.after h.act

/-- Settles O59, over what a step runs: the front command, of a tick or of a program, or one tick of time. -/
theorem stepsKeepCanonical : Obligations.StepsKeepCanonical := by
  intro s u h e
  replace h : s.Canon := s.canon_iff.mp h
  rw [State.canon_iff]
  unfold step at e
  split at e
  · obtain rfl := Host.Outcome.next.inj e
    exact h.advance
  · rename_i c rest _
    have front : ({ s with pending := rest } : State).Canon := h
    rw [exec_eq] at e
    obtain rfl := Host.Outcome.next.inj e
    split
    · exact front.command
    · exact front.inRun

end Sys2Proof.Machine
end

section
namespace Sys2Proof.Machine

/-! ## Registers left as they were -/

section Regs
variable {l : List Nat} {a s u : State} {f g : Fld} {x : Nat}

theorem RegsBut.refl : RegsBut l a a := fun _ _ => rfl

theorem RegsBut.trans (h : RegsBut l a s) (k : RegsBut l s u) : RegsBut l a u :=
  fun b hb => (k b hb).trans (h b hb)

/-- Only the register file counts. -/
theorem RegsBut.of_regs (h : RegsBut l a s) (k : u.regs = s.regs) : RegsBut l a u := fun b hb => by
  rw [State.rd, k]; exact h b hb

theorem RegsBut.put (h : RegsBut l a s) (v : Nat) (hf : f.addr ∈ l) : RegsBut l a (s.put f v) := fun b hb => by
  rw [State.rd_put_ne _ _ (ne_of_mem_of_not_mem hf hb).symm, h b hb]

theorem RegsBut.wr (h : RegsBut l a s) (w : Word) (hx : x ∈ l) : RegsBut l a (s.wr x w) := fun b hb => by
  rw [State.rd_wr_ne _ _ (ne_of_mem_of_not_mem hx hb).symm, h b hb]

theorem RegsBut.raise (h : RegsBut l a s) (hf : f.addr ∈ l) : RegsBut l a (s.raise f) :=
  (h.put (b2n true) hf).of_regs rfl

theorem RegsBut.tagged (h : RegsBut l a s) (hl : A.EVT_TAGHWM ∈ l) : RegsBut l a s.tagged := fun b hb => by
  rw [State.tagged, State.rd_tagSet_ne _ _ (ne_of_mem_of_not_mem hl hb).symm, h b hb]

theorem RegsBut.get (h : RegsBut l a u) (hg : g.addr ∉ l) : u.get g = a.get g := by
  rw [State.get, State.get, h _ hg]

theorem RegsBut.mono {l' : List Nat} (h : RegsBut l a u) (hl : l ⊆ l') : RegsBut l' a u :=
  fun b hb => h b (fun e => hb (hl e))

/-! The same as equivalences, for `simp`. -/

@[simp] theorem regsBut_refl : RegsBut l a a := RegsBut.refl

theorem regsBut_congr (k : ∀ b, b ∉ l → u.rd b = s.rd b) : RegsBut l a u ↔ RegsBut l a s :=
  ⟨fun h b hb => (k b hb).symm.trans (h b hb), fun h b hb => (k b hb).trans (h b hb)⟩

@[simp] theorem regsBut_put {v : Nat} (hf : f.addr ∈ l) : RegsBut l a (s.put f v) ↔ RegsBut l a s :=
  regsBut_congr fun _ hb => State.rd_put_ne _ _ (ne_of_mem_of_not_mem hf hb).symm

@[simp] theorem regsBut_raise (hf : f.addr ∈ l) : RegsBut l a (s.raise f) ↔ RegsBut l a s :=
  regsBut_congr fun _ hb => (State.raise_rd ..).trans (State.rd_put_ne _ _ (ne_of_mem_of_not_mem hf hb).symm)

@[simp] theorem regsBut_wr {w : Word} (hx : x ∈ l) : RegsBut l a (s.wr x w) ↔ RegsBut l a s :=
  regsBut_congr fun _ hb => State.rd_wr_ne _ _ (ne_of_mem_of_not_mem hx hb).symm

@[simp] theorem regsBut_tagged (hl : A.EVT_TAGHWM ∈ l) : RegsBut l a s.tagged ↔ RegsBut l a s :=
  regsBut_congr fun _ hb => State.rd_tagSet_ne _ _ (ne_of_mem_of_not_mem hl hb).symm

@[simp] theorem regsBut_modLeg {n : Fin 72} {h : LegSt → LegSt} :
    RegsBut l a (s.modLeg n h) ↔ RegsBut l a s := Iff.rfl
@[simp] theorem regsBut_modTeam {tm : Fin 24} {h : TeamSt → TeamSt} :
    RegsBut l a (s.modTeam tm h) ↔ RegsBut l a s := Iff.rfl
@[simp] theorem regsBut_modGroup {g8 : Fin 8} {h : GroupSt → GroupSt} :
    RegsBut l a (s.modGroup g8 h) ↔ RegsBut l a s := Iff.rfl
@[simp] theorem regsBut_modCmp {k : Fin 96} {h : CmpSt → CmpSt} :
    RegsBut l a (s.modCmp k h) ↔ RegsBut l a s := Iff.rfl
@[simp] theorem regsBut_modTin {i : Fin 8} {h : TinSt → TinSt} :
    RegsBut l a (s.modTin i h) ↔ RegsBut l a s := Iff.rfl
@[simp] theorem regsBut_modSdmTrip {c : Fin 144} {h : SdmTripSt → SdmTripSt} :
    RegsBut l a (s.modSdmTrip c h) ↔ RegsBut l a s := Iff.rfl
@[simp] theorem regsBut_modSdm {c : Fin 144} {h : SdmSt → SdmSt} :
    RegsBut l a (s.modSdm c h) ↔ RegsBut l a s := Iff.rfl
@[simp] theorem regsBut_modPort {p : Fin 8} {h : PortSt → PortSt} :
    RegsBut l a (s.modPort p h) ↔ RegsBut l a s := Iff.rfl
@[simp] theorem regsBut_modOut {m : Fin 2} {h : OutSt → OutSt} :
    RegsBut l a (s.modOut m h) ↔ RegsBut l a s := Iff.rfl
@[simp] theorem regsBut_modCe {h : CeSt → CeSt} :
    RegsBut l a (s.modCe h) ↔ RegsBut l a s := Iff.rfl
@[simp] theorem regsBut_modYok {h : YokSt → YokSt} :
    RegsBut l a (s.modYok h) ↔ RegsBut l a s := Iff.rfl
@[simp] theorem regsBut_modTim {h : TimSt → TimSt} :
    RegsBut l a (s.modTim h) ↔ RegsBut l a s := Iff.rfl
@[simp] theorem regsBut_modLoad {h : LoadSt → LoadSt} :
    RegsBut l a (s.modLoad h) ↔ RegsBut l a s := Iff.rfl
@[simp] theorem regsBut_modNet {h : NetSt → NetSt} :
    RegsBut l a (s.modNet h) ↔ RegsBut l a s := Iff.rfl
@[simp] theorem regsBut_modSer {h : SerSt → SerSt} :
    RegsBut l a (s.modSer h) ↔ RegsBut l a s := Iff.rfl
@[simp] theorem regsBut_modHk {h : HkSt → HkSt} :
    RegsBut l a (s.modHk h) ↔ RegsBut l a s := Iff.rfl
@[simp] theorem regsBut_modJrn {h : JrnSt → JrnSt} :
    RegsBut l a (s.modJrn h) ↔ RegsBut l a s := Iff.rfl

end Regs

/-! ## Operations that are one of the basic ones -/

section Basic
variable (s : State) (f : Fld)

@[simp] theorem State.putB_eq (b : Bool) : s.putB f b = s.put f (b2n b) := rfl
@[simp] theorem State.bump_eq : s.bump f = s.put f (s.get f + 1) := rfl
@[simp] theorem State.modSvc_eq (h : SvcSt → SvcSt) : s.modSvc h = s.modSer (fun x => { x with svc := h x.svc }) := rfl

end Basic

/-! ## A master's write that takes effect -/

section Acts
variable {s u : State} {m : Master} {a b : Nat} {idx : List Nat} {v : Word}

/-- Addresses outside the windows of the memories. -/
def outsideWindows (a : Nat) : Prop :=
  a < 0x021000 ∨ (0x022000 ≤ a ∧ a < 0x0A4000) ∨ (0x0E0000 ≤ a ∧ a < 0x0E8000) ∨ (0x0F0000 ≤ a ∧ a < unmappedFrom)

theorem State.winKey_outside (h : outsideWindows a) : s.winKey a = none := by
  unfold outsideWindows at h
  unfold State.winKey
  repeat rw [if_neg (by omega)]

/-- A master's write that takes effect does, in the state that holds its tag, what its register's own write does. -/
theorem State.masterWrite_act (h : s.takes m a = true)
    (hmap : (regAt a).map (fun e => (e.1.base, e.2)) = some (b, idx)) (ha : outsideWindows a) (hpin : b ≠ A.IDG_PINCFG 0)
    (hact : ∀ r : RegDef, r.base = b → s.tagged.actWrite m.writer r idx a v = some u) : s.masterWrite m a v = u := by
  obtain ⟨⟨r, _⟩, hreg, hinst⟩ := Option.map_eq_some_iff.mp hmap
  obtain ⟨rfl, rfl⟩ := Prod.mk.inj hinst
  have hkey : s.tagged.winKey a = none := State.winKey_outside ha
  have hmapped : ¬ unmappedFrom ≤ a := by unfold outsideWindows unmappedFrom at *; omega
  have hpaddock : ¬ (0x021000 ≤ a ∧ a < 0x022000 ∧ s.tagged.load.locked = true) := by
    unfold outsideWindows at ha; omega
  rw [State.masterWrite_takes v h, State.writeReg, if_neg hmapped, if_neg hpaddock, hkey, hreg]
  dsimp only
  rw [if_neg (fun e => hpin e.1), State.regWrite, State.tagged_lockGuard _ _ _ h]
  dsimp only
  rw [hact r rfl]

/-- What is left of the registers once a write took its tag. -/
theorem RegsBut.of_tagged {l : List Nat} (h : RegsBut l s.tagged u) (hl : A.EVT_TAGHWM ∈ l) : RegsBut l s u :=
  (RegsBut.refl.tagged hl).trans h

end Acts
end Sys2Proof.Machine
end

section
namespace Sys2Proof.Machine

section Fuse
variable {s a : State} {op : FuseOp} {t : Tick} {k : Fin 4} {f : BitVec 6} {c : Nat}

@[simp] theorem State.tagged_fuse : s.tagged.fuse = s.fuse := by
  obtain ⟨_, _, h⟩ := s.tagSet_frame (s.tagsUse + 1); rw [State.tagged, h]

@[simp] theorem State.tagged_ser : s.tagged.ser = s.ser := by
  obtain ⟨_, _, h⟩ := s.tagSet_frame (s.tagsUse + 1); rw [State.tagged, h]

/-- The word of SER_FUSECTL that asks for an operation. -/
def AsksFuse (v : Word) (op : FuseOp) : Prop := fuseOpOf v = some op ∧ wbit v F.SER_FUSECTL_GO = true

theorem asksFuse_program : ∀ k : Fin 4, AsksFuse (fuseWord (.program k)) (.program k) := by
  unfold AsksFuse; decide +kernel

theorem asksFuse_revoke : ∀ k : Fin 4, AsksFuse (fuseWord (.revoke k)) (.revoke k) := by
  unfold AsksFuse; decide +kernel

theorem asksFuse_floor : ∀ f : BitVec 6, AsksFuse (fuseWord (.floor f.toNat)) (.floor f.toNat) := by
  unfold AsksFuse; decide +kernel

theorem State.masterWrite_fuse {v : Word} (h : s.takes .svc A.SER_FUSECTL = true) (ho : AsksFuse v op) :
    s.masterWrite .svc A.SER_FUSECTL v = s.tagged.fuseGo .svc op := by
  obtain ⟨hop, hgo⟩ := ho
  refine State.masterWrite_act (b := A.SER_FUSECTL) (idx := []) h (by decide +kernel) ?_ (by decide) fun r hr => ?_
  · unfold outsideWindows; decide
  · unfold State.actWrite
    simp +decide only [hr, hop, hgo, if_true, if_false]
    rfl

/-- The holding of a tag decides nothing about a fuse operation. -/
theorem State.tagged_fuseRefuse : s.tagged.fuseRefuse op = s.fuseRefuse op := by
  have hver : s.tagged.get F.BOOT_IMGID_SEC_VER = s.get F.BOOT_IMGID_SEC_VER := State.get_tagSet_word _ _ (by decide)
  simp [State.fuseRefuse, hver]

/-- A fuse operation started. -/
def FuseBegun (a u : State) (op : FuseOp) : Prop :=
  u.ser.fuseOp = some op ∧ u.get F.SER_FUSESTAT_BUSY = 1 ∧ u.fuse = a.fuse
    ∧ RegsBut [A.SER_FUSESTAT, A.EVT_TAGHWM] a u

/-- A fuse operation refused, and why. -/
def FuseRefused (a u : State) (c : Nat) : Prop :=
  u.get F.SER_FUSESTAT_ERR = 1 ∧ u.get F.SER_FUSESTAT_CODE = c ∧ u.fuse = a.fuse ∧ u.ser = a.ser
    ∧ RegsBut [A.SER_FUSESTAT, A.EVT_TAGHWM] a u

theorem State.fuseGo_begins (hfree : s.ser.fuseOp = none) (hr : s.fuseRefuse op = 0) :
    FuseBegun s (s.fuseGo .svc op) op := by
  have hgo : s.fuseGo .svc op = (s.modSer (fun x => { x with fuseOp := some op })).put F.SER_FUSESTAT_BUSY 1 := by
    simp -implicitDefEqProofs [State.fuseGo, hfree, hr, b2n]
  rw [hgo]
  exact ⟨by simp -implicitDefEqProofs, State.get_put_same _ _ (by decide), by simp -implicitDefEqProofs,
    by simp -implicitDefEqProofs (disch := decide)⟩

theorem State.fuseGo_refuses (hfree : s.ser.fuseOp = none) (hr : s.fuseRefuse op = c) (hc : 0 < c) (hlt : c < 8) :
    FuseRefused s (s.fuseGo .svc op) c := by
  have hgo : s.fuseGo .svc op = (s.raise F.SER_FUSESTAT_ERR).put F.SER_FUSESTAT_CODE c := by
    simp -implicitDefEqProofs [State.fuseGo, hfree, hr, hc.ne']
  rw [hgo]
  refine ⟨?_, ?_, by simp -implicitDefEqProofs, by simp -implicitDefEqProofs, by simp -implicitDefEqProofs (disch := decide)⟩
  · rw [State.get_put_bits _ _ (by decide) (by decide), State.get_raise_same _ (by decide) (by decide)]
  · rw [State.get_put_same _ _ (by decide), Nat.mod_eq_of_lt (hlt.trans_le (by decide))]

/-- The same of a write that takes its tag. -/
theorem State.masterWrite_fuse_begins {v : Word} (h : s.takes .svc A.SER_FUSECTL = true) (ho : AsksFuse v op)
    (hfree : s.ser.fuseOp = none) (hr : s.fuseRefuse op = 0) :
    FuseBegun s (s.masterWrite .svc A.SER_FUSECTL v) op := by
  rw [State.masterWrite_fuse h ho]
  obtain ⟨hop, hbusy, hfuse, hregs⟩ := State.fuseGo_begins (by rw [State.tagged_ser, hfree]) (State.tagged_fuseRefuse.trans hr)
  exact ⟨hop, hbusy, hfuse.trans State.tagged_fuse, hregs.of_tagged (by simp)⟩

theorem State.masterWrite_fuse_refuses {v : Word} (h : s.takes .svc A.SER_FUSECTL = true) (ho : AsksFuse v op)
    (hfree : s.ser.fuseOp = none) (hr : s.fuseRefuse op = c) (hc : 0 < c) (hlt : c < 8) :
    FuseRefused s (s.masterWrite .svc A.SER_FUSECTL v) c := by
  rw [State.masterWrite_fuse h ho]
  obtain ⟨herr, hcode, hfuse, hser, hregs⟩ :=
    State.fuseGo_refuses (by rw [State.tagged_ser, hfree]) (State.tagged_fuseRefuse.trans hr) hc hlt
  exact ⟨herr, hcode, hfuse.trans State.tagged_fuse, hser.trans State.tagged_ser, hregs.of_tagged (by simp)⟩

/-! Which rule refuses. -/

theorem State.fuseRefuse_running {tm : Fin 24} (h : s.tstate tm = stRUN ∨ s.tstate tm = stWAIT) : s.fuseRefuse op = 1 := by
  have hany : allTeams.any (fun t => s.tstate t == stRUN || s.tstate t == stWAIT) = true :=
    List.any_eq_true.mpr ⟨tm, List.mem_finRange tm, by simpa using h⟩
  simp only [State.fuseRefuse, hany, if_true]

/-- What stands against an operation while the teams are stopped. -/
def State.fuseBar (s : State) : FuseOp → Nat
  | .program k => if (s.fuse.keys[k]).prog then 2 else 0
  | .revoke k => if (s.fuse.keys[k]).prog then 0 else 2
  | .floor v => if v ≤ s.fuse.floor ∨ s.get F.BOOT_IMGID_SEC_VER < v then 3 else 0

theorem State.fuseRefuse_stopped (h : s.allStopped) : s.fuseRefuse op = s.fuseBar op := by
  have hnone : ¬ allTeams.any (fun t => s.tstate t == stRUN || s.tstate t == stWAIT) = true := by
    rw [List.any_eq_true]
    rintro ⟨t, -, ht⟩
    obtain ⟨hwait, hrun⟩ := h t
    simp [hwait, hrun] at ht
  unfold State.fuseRefuse
  rw [if_neg hnone]
  cases op <;> rfl

/-! The end of an operation. -/

/-- SER_FUSESTAT after a good read-back. -/
def FuseShown (a u : State) : Prop :=
  u.get F.SER_FUSESTAT_BUSY = 0 ∧ u.get F.SER_FUSESTAT_DONE = 1 ∧ u.ser.fuseOp = none
    ∧ u.get F.SER_FUSESTAT_CODE = 0 ∧ RegsBut [A.SER_FUSESTAT, A.BOOT_FUSESEC] a u

/-- The state in which the read-back of an operation is judged. -/
def State.fuseOver (s : State) : State := (s.modSer (fun x => { x with fuseOp := none })).putB F.SER_FUSESTAT_BUSY false

/-- The fuses after an operation that read back well. -/
def FuseOp.result (key : List Byte) (f : FuseSt) : FuseOp → FuseSt
  | .program k => { f with keys := f.keys.set k { f.keys[k] with hash := key, prog := true } }
  | .revoke k => { f with keys := f.keys.set k { f.keys[k] with rev := true } }
  | .floor v => { f with floor := v }

/-- New fuses, and SER_FUSESTAT with them. -/
def State.fused (s : State) (f : FuseSt) : State :=
  ({ s with fuse := f }.raise F.SER_FUSESTAT_DONE).put F.SER_FUSESTAT_CODE 0

theorem State.fuseDone_good (h : s.ser.fuseOp = some op) :
    s.fuseDone true = (s.fuseOver.fused (op.result s.fuseOver.fuseKey s.fuseOver.fuse)).fuseShow := by
  unfold State.fuseDone
  rw [h]
  cases op <;> simp only [State.fused, State.fuseOver, FuseOp.result, Bool.not_true, Bool.false_eq_true, if_false]

theorem State.fuseDone_bad (h : s.ser.fuseOp = some op) :
    s.fuseDone false = (s.fuseOver.raise F.SER_FUSESTAT_ERR).put F.SER_FUSESTAT_CODE 4 := by
  unfold State.fuseDone
  rw [h]
  simp only [State.fuseOver, Bool.not_false, if_true]

@[simp] theorem State.fuseOver_fuse : s.fuseOver.fuse = s.fuse := by
  unfold State.fuseOver; simp -implicitDefEqProofs

theorem State.fuseOver_regsBut : RegsBut [A.SER_FUSESTAT] s s.fuseOver := by
  unfold State.fuseOver; simp -implicitDefEqProofs (disch := decide)

/-- The key registers are none of the status. -/
theorem State.fuseOver_fuseKey : s.fuseOver.fuseKey = s.fuseKey := by
  have hword : ∀ i ∈ List.range 8, s.fuseOver.rd (A.SER_FUSEKEY i) = s.rd (A.SER_FUSEKEY i) := fun i hi => by
    refine State.fuseOver_regsBut _ ?_
    simp [A.SER_FUSEKEY, A.SER_FUSESTAT]; have := List.mem_range.mp hi; omega
  unfold State.fuseKey
  exact List.flatMap_congr fun i hi => by rw [hword i hi]

theorem State.fuseShow_fuse : s.fuseShow.fuse = s.fuse := by
  unfold State.fuseShow; simp -implicitDefEqProofs
theorem State.fuseShow_ser : s.fuseShow.ser = s.ser := by
  unfold State.fuseShow; simp -implicitDefEqProofs
theorem State.fuseShow_regsBut : RegsBut [A.BOOT_FUSESEC] s s.fuseShow := by
  unfold State.fuseShow; simp -implicitDefEqProofs (disch := decide)

/-- The floor that BOOT_FUSESEC shows. -/
theorem State.fuseShow_floor (h : s.fuse.floor < 64) : s.fuseShow.get F.BOOT_FUSESEC_SEC_FLOOR = s.fuse.floor := by
  unfold State.fuseShow
  rw [State.get_put_bits _ _ (by decide) (by decide), State.get_put_bits _ _ (by decide) (by decide),
    State.get_put_same _ _ (by decide), Nat.mod_eq_of_lt (h.trans_le (by decide))]

theorem State.fused_frame (s : State) (f : FuseSt) :
    (s.fused f).fuse = f ∧ (s.fused f).ser = s.ser ∧ RegsBut [A.SER_FUSESTAT] s (s.fused f) := by
  unfold State.fused
  refine ⟨by simp -implicitDefEqProofs, by simp -implicitDefEqProofs, ?_⟩
  rw [regsBut_put (by decide), regsBut_raise (by decide)]
  exact fun _ _ => rfl

theorem State.fuseOver_busy : s.fuseOver.get F.SER_FUSESTAT_BUSY = 0 := State.get_put_same _ _ (by decide)

theorem State.get_withFuse (s : State) (f : FuseSt) (g : Fld) : State.get { s with fuse := f } g = s.get g := rfl

/-- The status of a good read-back; BUSY is the end's own. -/
theorem State.fused_status (s : State) (f : FuseSt) :
    (s.fused f).get F.SER_FUSESTAT_DONE = 1 ∧ (s.fused f).get F.SER_FUSESTAT_CODE = 0
      ∧ (s.fused f).get F.SER_FUSESTAT_BUSY = s.get F.SER_FUSESTAT_BUSY := by
  unfold State.fused
  refine ⟨?_, State.get_put_same _ _ (by decide), ?_⟩
  · rw [State.get_put_bits _ _ (by decide) (by decide), State.get_raise_same _ (by decide) (by decide)]
  · rw [State.get_put_bits _ _ (by decide) (by decide), State.raise_get, State.get_put_bits _ _ (by decide) (by decide),
      State.get_withFuse]

/-- What a good read-back shows, and the fuses with it (R99). -/
theorem State.fuseDone_shows (h : s.ser.fuseOp = some op) :
    FuseShown s (s.fuseDone true) ∧ (s.fuseDone true).fuse = op.result s.fuseKey s.fuse
      ∧ ((op.result s.fuseKey s.fuse).floor < 64 →
        (s.fuseDone true).get F.BOOT_FUSESEC_SEC_FLOOR = (op.result s.fuseKey s.fuse).floor) := by
  rw [State.fuseDone_good h, State.fuseOver_fuseKey, State.fuseOver_fuse]
  generalize op.result s.fuseKey s.fuse = f
  obtain ⟨hfuse, hser, hregs⟩ := s.fuseOver.fused_frame f
  have hover := State.fuseOver_regsBut.trans hregs
  obtain ⟨hdone, hcode, hkeep⟩ := s.fuseOver.fused_status f
  have hbusy := hkeep.trans State.fuseOver_busy
  have hidle : s.fuseOver.ser.fuseOp = none := by unfold State.fuseOver; simp -implicitDefEqProofs
  generalize s.fuseOver.fused f = x at *
  have hshow := State.fuseShow_regsBut (s := x)
  refine ⟨⟨?_, ?_, ?_, ?_, ?_⟩, State.fuseShow_fuse.trans hfuse, fun hlt => ?_⟩
  · rw [hshow.get (by decide), hbusy]
  · rw [hshow.get (by decide), hdone]
  · rw [State.fuseShow_ser, hser, hidle]
  · rw [hshow.get (by decide), hcode]
  · exact (hover.mono (by simp)).trans (hshow.mono (by simp))
  · rw [State.fuseShow_floor (by rw [hfuse]; exact hlt), hfuse]

theorem State.fuseDone_fails (h : s.ser.fuseOp = some op) :
    (s.fuseDone false).get F.SER_FUSESTAT_ERR = 1 ∧ (s.fuseDone false).get F.SER_FUSESTAT_CODE = 4
      ∧ (s.fuseDone false).fuse = s.fuse ∧ (s.fuseDone false).ser.fuseOp = none
      ∧ RegsBut [A.SER_FUSESTAT] s (s.fuseDone false) := by
  rw [State.fuseDone_bad h]
  refine ⟨?_, State.get_put_same _ _ (by decide), by simp -implicitDefEqProofs, ?_, ?_⟩
  · rw [State.get_put_bits _ _ (by decide) (by decide), State.get_raise_same _ (by decide) (by decide)]
  · simp -implicitDefEqProofs [State.fuseOver]
  · rw [regsBut_put (by decide), regsBut_raise (by decide)]; exact State.fuseOver_regsBut

end Fuse

/-- Settles O52: the service port's write to SER_FUSECTL comes to the start of an operation, which `State.fuseRefuse` may
refuse, and the read-back to its end. -/
theorem fuses : Obligations.Fuses := by
  unfold Obligations.Fuses
  intro s t k f a
  dsimp only
  refine ⟨fun hfree htakes => ⟨fun hstop => ⟨fun hp => ⟨fun hturn => ?_, fun hturn => ?_⟩,
    fun hp => ⟨fun hturn => ?_, fun hturn => ?_⟩, fun hlo hhi hturn => ?_, fun hout hturn => ?_⟩,
    fun tm hrun hturn => ?_⟩, fun op hop => ⟨fun hturn => ?_, fun hturn => ?_⟩⟩
  · refine ⟨_, exec_any rfl (State.act.eq_def ..) hturn, ?_⟩
    exact State.masterWrite_fuse_begins htakes (asksFuse_program k) hfree
      (by rw [State.fuseRefuse_stopped hstop]; exact if_neg (Bool.not_eq_true _ ▸ hp))
  · refine ⟨_, exec_any rfl (State.act.eq_def ..) hturn, ?_⟩
    exact State.masterWrite_fuse_refuses htakes (asksFuse_revoke k) hfree
      (by rw [State.fuseRefuse_stopped hstop]; exact if_neg (Bool.not_eq_true _ ▸ hp)) (by decide) (by decide)
  · refine ⟨_, exec_any rfl (State.act.eq_def ..) hturn, ?_⟩
    exact State.masterWrite_fuse_begins htakes (asksFuse_revoke k) hfree
      (by rw [State.fuseRefuse_stopped hstop]; exact if_pos hp)
  · refine ⟨_, exec_any rfl (State.act.eq_def ..) hturn, ?_⟩
    exact State.masterWrite_fuse_refuses htakes (asksFuse_program k) hfree
      (by rw [State.fuseRefuse_stopped hstop]; exact if_pos hp) (by decide) (by decide)
  · refine ⟨_, exec_any rfl (State.act.eq_def ..) hturn, ?_⟩
    exact State.masterWrite_fuse_begins htakes (asksFuse_floor f) hfree
      (by rw [State.fuseRefuse_stopped hstop]; exact if_neg (by omega))
  · refine ⟨_, exec_any rfl (State.act.eq_def ..) hturn, ?_⟩
    exact State.masterWrite_fuse_refuses htakes (asksFuse_floor f) hfree
      (by rw [State.fuseRefuse_stopped hstop]; exact if_pos hout) (by decide) (by decide)
  · refine ⟨_, exec_any rfl (State.act.eq_def ..) hturn, ?_⟩
    exact State.masterWrite_fuse_refuses htakes (asksFuse_floor f) hfree
      (State.fuseRefuse_running hrun.symm.symm) (by decide) (by decide)
  · obtain ⟨hshow, hfuse, hfloor⟩ := State.fuseDone_shows hop
    refine ⟨_, exec_any rfl (State.act.eq_def ..) hturn, ?_⟩
    refine ⟨hshow, ?_, ?_, ?_⟩
    · rintro rfl; rw [hfuse]
      refine ⟨by simp [FuseOp.result], by simp [FuseOp.result], rfl, fun j hj => ?_⟩
      simp [FuseOp.result, Fin.val_ne_of_ne hj.symm]
    · rintro rfl; rw [hfuse]
      refine ⟨by simp [FuseOp.result], by simp [FuseOp.result], rfl, fun j hj => ?_⟩
      simp [FuseOp.result, Fin.val_ne_of_ne hj.symm]
    · rintro n rfl hn; exact ⟨hfloor hn, hfuse⟩
  · refine ⟨_, exec_any rfl (State.act.eq_def ..) hturn, ?_⟩
    exact State.fuseDone_fails hop

end Sys2Proof.Machine
end

section
/-!
PROOFS. Chapter 09, operations: what every operation does to its lane and to the pool's load figures, and the accumulator,
signal and skip operations one by one.
-/
namespace Sys2Proof.Machine

/-! ## The load figures of the pool -/

section Load
variable {s u x : State} {l : Fin 16} {n : Nat}

/-- Nothing but the pool's load figures and the free values drawn for them differs. -/
structure LoadFrame (s u : State) : Prop where
  regs : RegsBut [A.CE_LOAD] s u
  rest : u = { s with regs := u.regs, same := u.same, freeCnt := u.freeCnt,
                      ce := { s.ce with busyCyc := u.ce.busyCyc, busyWin := u.ce.busyWin } }

namespace LoadFrame

theorem refl : LoadFrame s s := ⟨RegsBut.refl, rfl⟩

theorem trans (h : LoadFrame s u) (k : LoadFrame u x) : LoadFrame s x := by
  refine ⟨h.regs.trans k.regs, ?_⟩
  rw [k.rest, h.rest]

theorem mem (h : LoadFrame s u) : u.mem = s.mem := by rw [h.rest]
theorem upset (h : LoadFrame s u) : u.upset = s.upset := by rw [h.rest]
theorem lanes (h : LoadFrame s u) : u.ce.lanes = s.ce.lanes := by rw [h.rest]

theorem put {f : Fld} {v : Nat} (hf : f.addr = A.CE_LOAD) : LoadFrame s (s.put f v) :=
  ⟨by simp -implicitDefEqProofs [hf], rfl⟩

theorem putMax {f : Fld} {v : Nat} (hf : f.addr = A.CE_LOAD) : LoadFrame s (s.putMax f v) := by
  unfold State.putMax
  split
  · exact put hf
  · exact refl

theorem noteUp {up : TickUp} : LoadFrame s (s.noteUp up) := ⟨fun _ _ => rfl, rfl⟩

theorem raiseMax {f : Fld} {v : Nat} (hf : f.addr = A.CE_LOAD) : LoadFrame s (s.raiseMax f v) := (putMax hf).trans noteUp

theorem free : LoadFrame s s.free.2 := ⟨fun _ _ => rfl, rfl⟩

theorem roundFree {a : Int} {b : Nat} : LoadFrame s (s.roundFree a b).2 := by
  unfold State.roundFree
  split
  · exact refl
  · exact free

theorem busy {f : CeSt → CeSt} (h : ∀ c, f c = { c with busyCyc := (f c).busyCyc, busyWin := (f c).busyWin }) :
    LoadFrame s (s.modCe f) := ⟨fun _ _ => rfl, by rw [State.modCe, h]⟩

theorem ite {c : Prop} [Decidable c] (h : LoadFrame s u) (k : LoadFrame s x) : LoadFrame s (if c then u else x) := by
  split
  · exact h
  · exact k

/-- The figures of the window that begins. -/
theorem figures {m c w : Nat} {b : Prop} [Decidable b] :
    LoadFrame s (((if b then s.raiseMax F.CE_LOAD_PEAK m else s.putMax F.CE_LOAD_PEAK m).put F.CE_LOAD_MEAN n).modCe
      (fun y => { y with busyCyc := c, busyWin := w })) :=
  (((raiseMax rfl).ite (putMax rfl)).trans (put rfl)).trans (busy fun _ => rfl)

theorem loadSync : LoadFrame s s.loadSync := by
  unfold State.loadSync
  refine refl.ite ?_
  dsimp only
  split
  · exact figures
  · exact roundFree.trans figures

theorem busyAdd : LoadFrame s (s.busyAdd l n) := by
  unfold State.busyAdd
  split
  · exact loadSync.trans (busy fun _ => rfl)
  · exact refl

end LoadFrame
end Load

/-! ## An operation on its lane -/

section Lane
variable {s x : State} {l : Fin 16} {r : RunSt} {o : Op} {c : Instr} {body : State → RunSt → State × RunSt}

/-- Words without an upset are read as they are. -/
theorem State.eccReads_clean {ks : List Nat} (h : ∀ k ∈ ks, s.upsetAt k = none) : s.eccReads ks = (none, s) := by
  induction ks with
  | nil => rfl
  | cons k ks ih =>
    have hk : s.eccRead k = (none, s) := by simp [State.eccRead, h k (by simp)]
    rw [State.eccReads, hk]
    exact ih fun j hj => h j (by simp [hj])

theorem LoadFrame.upsetAt (h : LoadFrame s x) (k : Nat) : x.upsetAt k = s.upsetAt k := by
  rw [State.upsetAt, State.upsetAt, h.upset]

/-- An operation that stands on its lane acts in the state that counts its cycles, and its run goes back to the lane. -/
theorem State.ceOp_stands (h : CeAt s l r o) :
    s.ceOp l o .ok body = (body (s.busyAdd l (opCycles o.opc)) (r.next (opCycles o.opc))).1.runPut l
      (body (s.busyAdd l (opCycles o.opc)) (r.next (opCycles o.opc))).2 := by
  obtain ⟨⟨hlane, hended, -, hclean, hpc, hword, hlegal⟩, hskip⟩ := h
  have hfetch : s.eccReads (State.fetchKeys r) = (none, s) := State.eccReads_clean fun k hk => hclean k (by simp [hk])
  have hread : (s.busyAdd l (opCycles o.opc)).eccReads (s.opReads r o) = (none, s.busyAdd l (opCycles o.opc)) :=
    State.eccReads_clean fun k hk => (LoadFrame.busyAdd.upsetAt k).trans (hclean k (by simp [hk]))
  simp only [State.ceOp, State.strike, hlane, hended, hpc, hfetch, hword, hlegal, hskip, hread, Option.isSome_none,
    Bool.false_eq_true, if_false, Bool.not_true, ne_eq, not_true_eq_false, lt_self_iff_false, false_and]

/-- The run goes back to its lane while its journal has room. -/
theorem State.runPut_room {q : RunSt} (h : q.entries ≤ 512) :
    s.runPut l q = s.modCe (fun e => { e with lanes := e.lanes.set l (some q) }) := if_neg (by omega)

theorem ceRuns_of_frame {q : RunSt} {u : State} (h : LoadFrame s u) (hroom : q.entries ≤ 512)
    (hexec : exec c s = .next ((u.runPut l q).after s c)) : CeRuns c s l q := by
  rw [State.runPut_room hroom] at hexec
  refine ⟨_, hexec, ?_, fun k hk => ?_, fun b hb => ?_, ?_⟩
  · exact Vector.getElem_set_self ..
  · rw [← h.lanes]; exact Vector.getElem_set_ne l.isLt k.isLt (Fin.val_ne_of_ne hk.symm)
  · exact h.regs b hb
  · rw [h.rest]; rfl

/-- The command of an operation runs when the operation's own part keeps the state but for the load figures. -/
theorem CeAt.runs {P : RunSt → Prop} (h : CeAt s l r o) (ht : tickOf c = none) (hact : s.act c = s.ceOp l o .ok body)
    (hbody : ∀ x, LoadFrame s x → LoadFrame x (body x (r.next (opCycles o.opc))).1
      ∧ (body x (r.next (opCycles o.opc))).2.entries ≤ 512 ∧ P (body x (r.next (opCycles o.opc))).2) :
    ∃ r', CeRuns c s l r' ∧ P r' := by
  obtain ⟨hframe, hroom, hp⟩ := hbody _ LoadFrame.busyAdd
  have hexec := exec_untimed ht (s := s)
  rw [hact, State.ceOp_stands h] at hexec
  exact ⟨_, ceRuns_of_frame (LoadFrame.busyAdd.trans hframe) hroom hexec, hp⟩

/-- The same of an operation whose own part is a function of the run. -/
theorem CeAt.runs_pure {P : RunSt → Prop} {f : State → RunSt → RunSt} (h : CeAt s l r o)
    (ht : tickOf c = none)
    (hact : s.act c = s.ceOp l o .ok (pureOp f))
    (hbody : ∀ x, LoadFrame s x → (f x (r.next (opCycles o.opc))).entries ≤ 512 ∧ P (f x (r.next (opCycles o.opc)))) :
    ∃ r', CeRuns c s l r' ∧ P r' :=
  h.runs ht hact fun x hx => ⟨LoadFrame.refl, hbody x hx⟩

end Lane

/-! ## What an operation reads -/

section Reads
variable {s x : State} {r : RunSt}

theorem LoadFrame.memGet (h : LoadFrame s x) (k : Nat) : x.memGet k = s.memGet k := by
  rw [State.memGet, State.memGet, h.mem]

theorem LoadFrame.coefWord (h : LoadFrame s x) (i : Nat) : x.coefWord i = s.coefWord i := h.memGet _

theorem LoadFrame.coefShift (h : LoadFrame s x) (i : Nat) : x.coefShift i = s.coefShift i := by
  rw [State.coefShift, State.coefShift, h.memGet]

theorem LoadFrame.descWord (h : LoadFrame s x) (k : Fin 36) (off : Nat) : x.descWord k off = s.descWord k off := h.memGet _

theorem LoadFrame.coefIdx (h : LoadFrame s x) (n y : Nat) : x.coefIdx (r.next n) y = s.coefIdx r y := by
  simp only [State.coefIdx, State.cBase, h.descWord]; rfl

theorem LoadFrame.stateIdx (h : LoadFrame s x) (n y : Nat) : x.stateIdx (r.next n) y = s.stateIdx r y := by
  simp only [State.stateIdx, State.sBase, h.descWord]; rfl

theorem LoadFrame.runState (h : LoadFrame s x) (i : Nat) : x.runState r i = s.runState r i := by
  simp only [State.runState, h.memGet]

theorem LoadFrame.sig (h : LoadFrame s x) (n y : Nat) : x.sig (r.next n) y = s.sig r y := by
  simp only [State.sig, h.stateIdx, h.runState]; rfl

@[simp] theorem RunSt.next_acc (n b : Nat) : (r.next n).acc b = r.acc b := rfl

end Reads

/-! ## What an operation writes: its accumulators -/

section Accs
variable {r q : RunSt} {a b : Fin 4} {v : Int} {n cyc : Nat}

/-- A value that an accumulator holds. -/
def AccFits (v : Int) : Prop := -(2 ^ 71) ≤ v ∧ v < 2 ^ 71

theorem AccFits.acc (r : RunSt) (b : Nat) : AccFits (r.acc b) := by
  have h := BitVec.two_mul_toInt_lt (x := r.accs[b % 4]'(Nat.mod_lt _ (by decide)))
  have k := BitVec.le_two_mul_toInt (x := r.accs[b % 4]'(Nat.mod_lt _ (by decide)))
  unfold AccFits RunSt.acc
  omega

theorem RunSt.setAcc_acc (h : AccFits v) (b : Fin 4) : (r.setAcc a v).acc b = if b = a then v else r.acc b := by
  obtain ⟨hlo, hhi⟩ := h
  have ha : a.val % 4 = a.val := Nat.mod_eq_of_lt a.isLt
  have hb : b.val % 4 = b.val := Nat.mod_eq_of_lt b.isLt
  simp only [RunSt.setAcc, RunSt.acc, ha, hb]
  split
  · next e =>
    subst e
    rw [Vector.getElem_set_self, BitVec.toInt_ofInt]
    exact Int.bmod_eq_of_le (by omega) (by omega)
  · next e => rw [Vector.getElem_set_ne _ _ (Fin.val_ne_of_ne fun k => e k.symm)]

/-- Other accumulators keep their values, whatever is stored. -/
theorem RunSt.setAcc_acc_ne (v : Int) (h : b ≠ a) : (r.setAcc a v).acc b = r.acc b := by
  have ha : a.val % 4 = a.val := Nat.mod_eq_of_lt a.isLt
  have hb : b.val % 4 = b.val := Nat.mod_eq_of_lt b.isLt
  simp only [RunSt.setAcc, RunSt.acc, ha, hb]
  rw [Vector.getElem_set_ne _ _ (Fin.val_ne_of_ne h.symm)]

/-- An accumulator that takes the value it holds. -/
theorem RunSt.setAcc_self : r.setAcc n (r.acc n) = r := by
  simp [RunSt.setAcc, RunSt.acc]

/-- What is left of a run after its accumulators change. -/
theorem accsOnly_setAcc : AccsOnly r ((r.next cyc).setAcc n v) cyc := rfl

/-- A saturated value fits, and says whether it saturated (R236). -/
theorem accSat_eq (v : Int) : AccFits (accSat v).1 ∧ (accSat v).1 = clampI (-(2 ^ 71)) (2 ^ 71 - 1) v
    ∧ (accSat v).2 = if -(2 ^ 71) ≤ v ∧ v < 2 ^ 71 then 0 else 1 := by
  unfold accSat narrow clampI AccFits accMin accMax
  split_ifs <;> simp_all <;> omega

theorem accTakes_accTo (v : Int) : AccTakes r ((r.next cyc).accTo a v) a cyc v := by
  obtain ⟨hfits, hval, hcount⟩ := accSat_eq v
  refine ⟨rfl, fun b hb => ?_, ?_, ?_⟩
  · exact (RunSt.setAcc_acc hfits b).trans (if_neg hb)
  · exact ((RunSt.setAcc_acc hfits a).trans (if_pos rfl)).trans hval
  · exact congrArg (r.sats + ·) hcount

theorem rawTakes_rawTo (w : Nat) : RawTakes r ((r.next cyc).rawTo a w) a w cyc := by
  have hfits : AccFits ((w % 2 ^ 32 : Nat) : Int) := by unfold AccFits; omega
  exact ⟨rfl, fun b hb => (RunSt.setAcc_acc hfits b).trans (if_neg hb), (RunSt.setAcc_acc hfits a).trans (if_pos rfl), rfl⟩

end Accs

/-! ## Operations on one accumulator -/

section OneAcc
variable {s : State} {l : Fin 16} {r : RunSt} {o : Op} {c : Instr} {a : Fin 4} {cyc : Nat}

/-- An operation whose result is a function of the state and the run. -/
theorem CeAt.runs_plain {f : State → RunSt → RunSt} {q : RunSt} (h : CeAt s l r o) (ht : tickOf c = none)
    (hact : s.act c = s.ceOp l o .ok (pureOp f))
    (hf : ∀ x, LoadFrame s x → f x (r.next (opCycles o.opc)) = q ∧ q.entries ≤ 508) : CeRuns c s l q := by
  obtain ⟨_, hrun, rfl⟩ := h.runs_pure (P := (· = q)) ht hact fun x hx => by
    obtain ⟨hq, hroom⟩ := hf x hx
    rw [hq]
    exact ⟨hroom.trans (by decide), rfl⟩
  exact hrun

/-- An operation whose result goes to an accumulator, saturated. -/
theorem CeAt.runs_acc {f : State → RunSt → Int → Int} {v : Int} (h : CeAt s l r o)
    (ht : tickOf c = none)
    (hact : s.act c = s.ceOp l o .ok (bodyAcc a f)) (hcyc : opCycles o.opc = cyc)
    (hv : ∀ x, LoadFrame s x → f x (r.next cyc) (r.acc a) = v) : ∃ r', CeRuns c s l r' ∧ AccTakes r r' a cyc v := by
  have hroom : r.entries ≤ 508 := h.1.2.2.1
  subst hcyc
  refine h.runs_pure ht hact fun x hx => ⟨?_, ?_⟩
  · exact hroom.trans (by decide)
  · rw [RunSt.next_acc, hv x hx]; exact accTakes_accTo v

/-- An operation whose result goes to bits 31:0 of an accumulator. -/
theorem CeAt.runs_raw {f : State → RunSt → Nat} {w : Nat} (h : CeAt s l r o)
    (ht : tickOf c = none)
    (hact : s.act c = s.ceOp l o .ok (pureOp fun s r => r.rawTo a (f s r)))
    (hcyc : opCycles o.opc = cyc) (hw : ∀ x, LoadFrame s x → f x (r.next cyc) = w) :
    ∃ r', CeRuns c s l r' ∧ RawTakes r r' a w cyc := by
  have hroom : r.entries ≤ 508 := h.1.2.2.1
  subst hcyc
  refine h.runs_pure ht hact fun x hx => ⟨?_, ?_⟩
  · exact hroom.trans (by decide)
  · rw [hw x hx]; exact rawTakes_rawTo w

theorem LoadFrame.prodC {x : State} (h : LoadFrame s x) (n y z : Nat) :
    x.prodC (r.next n) y z = scaleRnd ((s.sig r y).toInt * (s.coefWord (s.coefIdx r z)).toInt) (s.coefShift (s.coefIdx r z)) := by
  rw [State.prodC, h.sig, h.coefIdx, h.coefWord, h.coefShift]; rfl

/-- A symmetric limit is one of a magnitude. -/
theorem clampI_abs (w : Word) (v : Int) : clampI (-((sigAcc w).natAbs : Int)) (sigAcc w).natAbs v
    = max (-(|w.toInt| * 2 ^ 31)) (min (|w.toInt| * 2 ^ 31) v) := by
  have habs : ((sigAcc w).natAbs : Int) = |w.toInt| * 2 ^ 31 := by
    rw [Int.natCast_natAbs, sigAcc, abs_mul]; rfl
  have hpos : 0 ≤ |w.toInt| * 2 ^ 31 := by positivity
  rw [habs, clampI]
  split_ifs <;> omega

/-- A limit whose ends are in order. -/
theorem clampI_eq {lo hi v : Int} (h : lo ≤ hi) : clampI lo hi v = max lo (min hi v) := by
  unfold clampI; split_ifs <;> omega

theorem accumulatorSums : Part.AccumulatorSums := by
  unfold Part.AccumulatorSums
  intro s l a x y n r
  dsimp only
  refine ⟨fun h => ?_, fun h => ?_, fun h => ?_, fun h => ?_, fun h => ?_, fun h => ?_, fun h => ?_, fun h => ?_,
    fun h => ?_, fun h => ?_, fun h => ?_, fun h => ?_, fun h => ?_⟩
  · exact h.runs_acc rfl (State.act.eq_def ..) rfl fun x hx => by rw [hx.sig]; rfl
  · exact h.runs_acc rfl (State.act.eq_def ..) rfl fun x hx => by rw [hx.sig]; rfl
  · exact h.runs_acc rfl (State.act.eq_def ..) rfl fun x hx => by rw [hx.sig]; rfl
  · exact h.runs_acc rfl (State.act.eq_def ..) rfl fun x hx => by rw [State.coefVal, hx.coefIdx, hx.coefWord, hx.coefShift]; rfl
  · exact h.runs_acc rfl (State.act.eq_def ..) rfl fun x hx => hx.prodC ..
  · exact h.runs_acc rfl (State.act.eq_def ..) rfl fun x hx => by rw [hx.prodC]
  · exact h.runs_acc rfl (State.act.eq_def ..) rfl fun x hx => by rw [hx.prodC]
  · exact h.runs_acc rfl (State.act.eq_def ..) rfl fun x hx => by rw [hx.sig, hx.sig]; rfl
  · exact h.runs_acc rfl (State.act.eq_def ..) rfl fun x hx => by rw [hx.sig, hx.sig]; rfl
  · exact h.runs_acc rfl (State.act.eq_def ..) rfl fun x hx => by rw [hx.sig]; rfl
  · exact h.runs_acc rfl (State.act.eq_def ..) rfl fun x hx => by rw [hx.sig]; rfl
  · refine h.runs_acc rfl (State.act.eq_def ..) rfl fun x hx => ?_
    rw [hx.sig]
    exact clampI_abs _ _
  · exact h.runs_acc rfl (State.act.eq_def ..) rfl fun x hx => rfl

/-- An operation that gives its accumulator a value that fits, or a free one, and counts nothing. -/
theorem CeAt.runs_set {body : State → RunSt → State × RunSt} {P : Prop} {v : Int} (h : CeAt s l r o)
    (ht : tickOf c = none) (hact : s.act c = s.ceOp l o .ok body) (hcyc : opCycles o.opc = cyc)
    (hbody : ∀ x, LoadFrame s x → ∃ w y, body x (r.next cyc) = (y, (r.next cyc).setAcc a w) ∧ LoadFrame x y
      ∧ (P → AccFits w ∧ w = v)) :
    ∃ r', CeRuns c s l r' ∧ AccsOnly r r' cyc ∧ r'.sats = r.sats ∧ (∀ b : Fin 4, b ≠ a → r'.acc b = r.acc b)
      ∧ (P → r'.acc a = v) := by
  have hroom : r.entries ≤ 508 := h.1.2.2.1
  subst hcyc
  refine h.runs ht hact fun x hx => ?_
  obtain ⟨w, y, hw, hy, hval⟩ := hbody x hx
  rw [hw]
  refine ⟨hy, hroom.trans (by decide), rfl, rfl, fun b hb => RunSt.setAcc_acc_ne w hb, fun hp => ?_⟩
  obtain ⟨hfits, rfl⟩ := hval hp
  exact (RunSt.setAcc_acc hfits a).trans (if_pos rfl)

theorem LoadFrame.freeAcc {x : State} : LoadFrame x x.freeAcc.2 := (free.trans free).trans free

theorem LoadFrame.clampAcc {x : State} {v lo hi : Int} : LoadFrame x (x.clampAcc v lo hi).2 := by
  unfold State.clampAcc
  split
  · exact LoadFrame.refl
  · exact LoadFrame.freeAcc

theorem State.clampAcc_ordered {v lo hi : Int} (h : lo ≤ hi) : s.clampAcc v lo hi = (clampI lo hi v, s) := if_pos h

theorem AccFits.clamp {lo hi v : Int} (hl : AccFits lo) (hh : AccFits hi) : AccFits (max lo (min hi v)) := by
  unfold AccFits at *; omega

/-- NEG and ABS: the accumulator negated where the condition asks for it. -/
theorem bodyNeg_eq (x : State) (q : RunSt) (cond : Int → Bool) : ∃ w y, bodyNeg a cond x q = (y, q.setAcc a w)
    ∧ LoadFrame x y ∧ (q.acc a ≠ -(2 ^ 71) → AccFits w ∧ w = if cond (q.acc a) then -q.acc a else q.acc a) := by
  have hfits := AccFits.acc q a
  unfold bodyNeg
  dsimp only
  split
  · next hc => exact ⟨_, _, by rw [RunSt.setAcc_self], LoadFrame.refl, fun _ => ⟨hfits, by simp_all⟩⟩
  · next hc =>
    split
    · next hmin => exact ⟨_, _, rfl, LoadFrame.freeAcc, fun hne => absurd hmin hne⟩
    · exact ⟨_, _, rfl, LoadFrame.refl, fun hne => ⟨by unfold AccFits at *; omega, by simp_all⟩⟩

theorem accFits_sigAcc (w : Word) : AccFits (sigAcc w) := by
  have h := BitVec.two_mul_toInt_lt (x := w)
  have k := BitVec.le_two_mul_toInt (x := w)
  unfold AccFits sigAcc
  omega

theorem accumulatorMoves : Part.AccumulatorMoves := by
  unfold Part.AccumulatorMoves
  intro s l a x y r
  dsimp only
  refine ⟨fun h => ?_, fun h => ?_, fun h => ?_, fun h => ?_, fun h => ?_, fun h => ?_, fun h => ?_, fun h => ?_,
    fun h => ?_, fun h => ?_⟩
  · exact h.runs_plain rfl (State.act.eq_def ..) fun x hx => ⟨rfl, h.1.2.2.1⟩
  · exact h.runs_raw (f := fun _ _ => 0) rfl (State.act.eq_def ..) rfl fun x hx => rfl
  · exact h.runs_raw rfl (State.act.eq_def ..) rfl fun x hx => by rw [hx.sig]
  · exact h.runs_raw rfl (State.act.eq_def ..) rfl fun x hx => by rw [hx.coefIdx, hx.coefWord]
  · exact h.runs_raw rfl (State.act.eq_def ..) rfl fun x hx => by rw [hx.sig]; rfl
  · exact h.runs_raw rfl (State.act.eq_def ..) rfl fun x hx => by rw [hx.coefIdx, hx.coefWord, hx.coefShift]; rfl
  · exact h.runs_raw rfl (State.act.eq_def ..) rfl fun x hx => rfl
  · exact h.runs_set rfl (State.act.eq_def ..) rfl fun x hx => bodyNeg_eq x _ _
  · refine h.runs_set rfl (State.act.eq_def ..) rfl fun x hx => ?_
    obtain ⟨w, y, heq, hy, hval⟩ := bodyNeg_eq (a := a) x (r.next 1) (fun v => decide (v < 0))
    refine ⟨w, y, heq, hy, fun hne => ⟨(hval hne).1, (hval hne).2.trans ?_⟩⟩
    rw [RunSt.next_acc]
    by_cases hneg : r.acc a < 0
    · rw [if_pos (decide_eq_true hneg), abs_of_neg hneg]
    · rw [if_neg (by simpa using hneg), abs_of_nonneg (not_lt.mp hneg)]
  · refine h.runs_set rfl (State.act.eq_def ..) rfl fun x hx => ?_
    let d := x.clampAcc (r.acc a) (x.coefQ (r.next 1) y) (x.coefQ (r.next 1) (y + 1))
    refine ⟨d.1, d.2, rfl, LoadFrame.clampAcc, fun hle => ?_⟩
    have hq (y : Nat) : x.coefQ (r.next 1) y = (s.coefWord (s.coefIdx r y)).toInt * 2 ^ 31 := by
      rw [State.coefQ, hx.coefIdx, hx.coefWord]; rfl
    simp only [d]
    rw [hq, hq, State.clampAcc_ordered hle, clampI_eq hle]
    exact ⟨AccFits.clamp (accFits_sigAcc _) (accFits_sigAcc _), rfl⟩

end OneAcc

/-- Settles O20: each operation's own part is a function of the words that it reads, and its result saturates on its way into
the accumulator, or is one that fits it. -/
theorem accumulatorOps : Obligations.AccumulatorOps := ⟨accumulatorSums, accumulatorMoves⟩

end Sys2Proof.Machine
end

section
/-!
PROOFS. Chapter 09, the functions of the engine: bounds of the series, the integer square root, the limited vector, and the
operations that use them.
-/
namespace Sys2Proof.Machine

/-! ## The series for sine and cosine stays small -/

section Series

theorem abs_tdiv_le {a n : Int} {b : Nat} (hb : 0 < b) (h : |a| ≤ n * b) : |tdiv a b| ≤ n := by
  have hn : 0 ≤ n := by
    by_contra hneg
    have : n * b < 0 := Int.mul_neg_of_neg_of_pos (by omega) (by exact_mod_cast hb)
    have := abs_nonneg a
    omega
  lift n to Nat using hn
  rw [Int.abs_eq_natAbs] at h ⊢
  rw [tdiv, Int.natAbs_tdiv, Int.natAbs_natCast]
  exact_mod_cast Nat.div_le_of_le_mul (by rw [Nat.mul_comm]; exact_mod_cast h)

/-- The next term of the series. -/
theorem abs_term_le {x2 term bound c : Int} {d : Nat} (h0 : 0 ≤ x2) (h2 : x2 ≤ 2 ^ 252) (hterm : |term| ≤ bound)
    (hd : 0 < d) (hc : 4 * bound ≤ c * d) : |tdiv (-(term * x2)) (2 ^ fxP * (d : Nat))| ≤ c := by
  have hden : (2 ^ fxP * (d : Int)) = ((2 ^ 250 * d : Nat) : Int) := by push_cast; rfl
  rw [hden]
  refine abs_tdiv_le (by positivity) ?_
  rw [abs_neg, abs_mul, abs_of_nonneg h0]
  have hmul : |term| * x2 ≤ bound * 2 ^ 252 := mul_le_mul hterm h2 h0 ((abs_nonneg term).trans hterm)
  push_cast
  nlinarith

/-- Beyond its first term the series of an angle below two right angles has terms that do not grow. -/
theorem abs_taylor_le {x2 : Int} (h0 : 0 ≤ x2) (h2 : x2 ≤ 2 ^ 252) (k : Nat) :
    ∀ (n : Nat) (term bound : Int), 1 ≤ n → |term| ≤ bound → |taylor x2 k n term| ≤ k * bound := by
  induction k with
  | zero => intro n term bound _ _; simp [taylor]
  | succ k ih =>
    intro n term bound hn hterm
    have hbound : 0 ≤ bound := (abs_nonneg term).trans hterm
    have hden : (6 : Int) ≤ ((n + 1) * (n + 2) : Nat) := by exact_mod_cast Nat.mul_le_mul (show 2 ≤ n + 1 by omega) (show 3 ≤ n + 2 by omega)
    have hnext : |tdiv (-(term * x2)) (2 ^ fxP * ((n + 1) * (n + 2) : Nat))| ≤ bound :=
      abs_term_le h0 h2 hterm (by positivity) (by nlinarith)
    calc |taylor x2 (k + 1) n term| ≤ |term| + |taylor x2 k (n + 2) _| := abs_add_le _ _
      _ ≤ bound + k * bound := add_le_add hterm (ih _ _ _ (by omega) hnext)
      _ = (k + 1 : Nat) * bound := by push_cast; ring

/-- x in radians × 2^250, for a part r of 2^30 of a quarter turn. -/
theorem angle_bounds {r : Nat} (h : r < 2 ^ 30) : 0 ≤ piFx * r / 2 ^ 31 ∧ piFx * r / 2 ^ 31 ≤ 2 ^ 251 := by
  unfold piFx; omega

theorem abs_rndShift_le {v b : Int} {k : Nat} (h : |v| ≤ b * 2 ^ k) : |rndShift v k| ≤ b := by
  have hpow : (0 : Int) < 2 ^ k := by positivity
  have hb : 0 ≤ b := by
    by_contra hneg
    have := Int.mul_neg_of_neg_of_pos (not_le.mp hneg) hpow
    have := abs_nonneg v
    omega
  lift b to Nat using hb
  rw [Int.abs_eq_natAbs] at h ⊢
  have hv : v.natAbs ≤ b * 2 ^ k := by exact_mod_cast h
  have hq : (v.natAbs * 2 + 2 ^ k) / 2 ^ (k + 1) ≤ b := by
    refine Nat.lt_succ_iff.mp ((Nat.div_lt_iff_lt_mul (by positivity)).mpr ?_)
    have : 0 < 2 ^ k := by positivity
    rw [pow_succ]
    nlinarith
  unfold rndShift
  dsimp only
  generalize (v.natAbs * 2 + 2 ^ k) / 2 ^ (k + 1) = q at *
  split
  · rw [Int.natAbs_neg, Int.natAbs_natCast]; exact_mod_cast hq
  · rw [Int.natAbs_natCast]; exact_mod_cast hq

theorem abs_quarter_le {r : Nat} (h : r < 2 ^ 30) : |(quarter r).1| ≤ 2 ^ 39 ∧ |(quarter r).2| ≤ 2 ^ 39 := by
  unfold quarter
  split
  · decide
  · obtain ⟨hlo, hhi⟩ := angle_bounds h
    generalize piFx * r / 2 ^ 31 = x at *
    have hsq : x * x ≤ 2 ^ 251 * 2 ^ 251 := mul_le_mul hhi hhi hlo (by decide)
    have h0 : 0 ≤ x * x / 2 ^ fxP := Int.ediv_nonneg (mul_nonneg hlo hlo) (by decide)
    have h2 : x * x / 2 ^ fxP ≤ 2 ^ 252 := Int.ediv_le_of_le_mul (by decide) (hsq.trans (by decide))
    dsimp only [fxRound, sinFx, cosFx]
    constructor
    · have hsin := abs_taylor_le h0 h2 48 1 x (2 ^ 251) le_rfl (by rwa [abs_of_nonneg hlo])
      exact abs_rndShift_le (hsin.trans (by decide))
    · have hnext := abs_term_le (bound := 2 ^ fxP) (c := 2 ^ 251) (d := 2) h0 h2 (le_of_eq (abs_of_pos (by decide))) (by decide) (by decide)
      have hcos := abs_taylor_le h0 h2 47 2 _ _ (by decide) hnext
      refine abs_rndShift_le ?_
      rw [taylor]
      exact (abs_add_le _ _).trans ((add_le_add (le_of_eq (abs_of_pos (by decide))) hcos).trans (by decide))

/-- A sine or cosine fits its accumulator. -/
theorem accFits_sinCos (w : Nat) : AccFits ((sinCos w).1 * 2 ^ 31) ∧ AccFits ((sinCos w).2 * 2 ^ 31) := by
  obtain ⟨hs, hc⟩ := abs_quarter_le (r := w % 2 ^ 30) (Nat.mod_lt _ (by decide))
  rw [abs_le] at hs hc
  unfold sinCos AccFits
  dsimp only
  split_ifs <;> dsimp only <;> omega

end Series

/-! ## The integer square root -/

section Root

/-- The largest integer whose square stays below n, bit by bit: the invariant of the search. -/
theorem isqrtGo_spec (n k : Nat) : ∀ r, r * r ≤ n → n < (r + 2 ^ k) * (r + 2 ^ k) →
    isqrtGo n k r * isqrtGo n k r ≤ n ∧ n < (isqrtGo n k r + 1) * (isqrtGo n k r + 1) := by
  induction k with
  | zero => intro r hlo hhi; exact ⟨hlo, by simpa [isqrtGo] using hhi⟩
  | succ k ih =>
    intro r hlo hhi
    rw [isqrtGo]
    split
    · next h => exact ih _ h (by rw [pow_succ] at hhi; convert hhi using 1; ring)
    · next h => exact ih _ hlo (not_le.mp h)

theorem isqrt_spec (n : Nat) : isqrt n * isqrt n ≤ n ∧ n < (isqrt n + 1) * (isqrt n + 1) := by
  refine isqrtGo_spec n _ 0 (by simp) ?_
  have hlog : n < 2 ^ (n.log2 + 1) := Nat.lt_log2_self
  calc n < 2 ^ (n.log2 + 1) := hlog
    _ ≤ 2 ^ (2 * (n.log2 / 2 + 1)) := Nat.pow_le_pow_right (by decide) (by omega)
    _ = _ := by rw [zero_add, two_mul, pow_add]

theorem isqrt_eq_sqrt (n : Nat) : isqrt n = Nat.sqrt n := by
  obtain ⟨hlo, hhi⟩ := isqrt_spec n
  exact Nat.eq_sqrt.mpr ⟨hlo, hhi⟩

/-- The nearest integer to the root of n. -/
theorem isqrtNear_spec (n : Nat) : isqrtNear n * isqrtNear n ≤ n + isqrtNear n
    ∧ n ≤ isqrtNear n * isqrtNear n + isqrtNear n := by
  obtain ⟨hlo, hhi⟩ := isqrt_spec n
  unfold isqrtNear
  dsimp only
  generalize isqrt n = r at *
  split <;> constructor <;> nlinarith

end Root

/-! ## The limited vector -/

section Vector
variable {a b l : Int}

/-- A component scaled to the limit, squared. -/
theorem vlimOne_sq (n : Nat) :
    vlimOne a l n * vlimOne a l n * n ≤ a * a * (l * l) := by
  obtain ⟨hsq, -⟩ := isqrt_spec (a.natAbs * a.natAbs * (l.natAbs * l.natAbs) / n)
  have hdiv := Nat.div_mul_le_self (a.natAbs * a.natAbs * (l.natAbs * l.natAbs)) n
  have habs : vlimOne a l n * vlimOne a l n = ((isqrt (a.natAbs * a.natAbs * (l.natAbs * l.natAbs) / n)
      * isqrt (a.natAbs * a.natAbs * (l.natAbs * l.natAbs) / n) : Nat) : Int) := by
    unfold vlimOne
    dsimp only
    split <;> push_cast <;> ring
  have hmul := (Nat.mul_le_mul_right n hsq).trans hdiv
  rw [habs, ← Int.natAbs_mul_self (a := a), ← Int.natAbs_mul_self (a := l)]
  exact_mod_cast hmul

/-- The limited vector is no longer than its limit. -/
theorem vlim_le : (vlim a b l).1 * (vlim a b l).1 + (vlim a b l).2 * (vlim a b l).2 ≤ l * l := by
  unfold vlim
  dsimp only
  split
  · next h =>
    rw [← Int.natAbs_mul_self (a := a), ← Int.natAbs_mul_self (a := b), ← Int.natAbs_mul_self (a := l)]
    exact_mod_cast h
  · next h =>
    have hn : 0 < a.natAbs * a.natAbs + b.natAbs * b.natAbs := by omega
    have ha := vlimOne_sq (a := a) (l := l) (a.natAbs * a.natAbs + b.natAbs * b.natAbs)
    have hb := vlimOne_sq (a := b) (l := l) (a.natAbs * a.natAbs + b.natAbs * b.natAbs)
    have hcast : ((a.natAbs * a.natAbs + b.natAbs * b.natAbs : Nat) : Int) = a * a + b * b := by
      push_cast [abs_mul_abs_self]; rfl
    generalize hm : a.natAbs * a.natAbs + b.natAbs * b.natAbs = m at *
    have hpos : (0 : Int) < m := by exact_mod_cast hn
    nlinarith

theorem vlim_within (h : a * a + b * b ≤ l * l) : vlim a b l = (a, b) := by
  unfold vlim
  refine if_pos ?_
  rw [← Int.natAbs_mul_self (a := a), ← Int.natAbs_mul_self (a := b), ← Int.natAbs_mul_self (a := l)] at h
  exact_mod_cast h

end Vector

/-! ## The operations -/

section Functions
variable {r q : RunSt} {a d : Fin 4} {u v : Int} {n cyc : Nat}

theorem RunSt.setAcc_succ : q.setAcc (a.val + 1) v = q.setAcc (a + 1 : Fin 4).val v := by
  simp only [RunSt.setAcc, Fin.val_add, Nat.mod_mod]
  rfl

theorem RunSt.acc_succ : q.acc (a.val + 1) = q.acc (a + 1 : Fin 4).val := by
  simp only [RunSt.acc, Fin.val_add, Nat.mod_mod]
  rfl

theorem fin4_ne_succ : a ≠ a + 1 := by revert a; decide

/-- Two neighbouring accumulators take values that fit. -/
theorem setAcc_pair (hu : AccFits u) (hv : AccFits v) :
    ((q.setAcc a u).setAcc (a.val + 1) v).acc a = u ∧ ((q.setAcc a u).setAcc (a.val + 1) v).acc (a + 1 : Fin 4) = v
      ∧ ∀ d : Fin 4, d ≠ a → d ≠ a + 1 → ((q.setAcc a u).setAcc (a.val + 1) v).acc d = q.acc d := by
  rw [RunSt.setAcc_succ]
  refine ⟨?_, ?_, fun d hd hd' => ?_⟩
  · rw [RunSt.setAcc_acc_ne v fin4_ne_succ, RunSt.setAcc_acc hu, if_pos rfl]
  · rw [RunSt.setAcc_acc hv, if_pos rfl]
  · rw [RunSt.setAcc_acc_ne v hd', RunSt.setAcc_acc_ne u hd]

/-- An accumulator that takes a value that fits, with so many saturations counted. -/
theorem setAcc_addSat (hv : AccFits v) :
    AccsOnly r (((r.next cyc).setAcc a v).addSat n) cyc ∧ (((r.next cyc).setAcc a v).addSat n).acc a = v
      ∧ (((r.next cyc).setAcc a v).addSat n).sats = r.sats + n
      ∧ ∀ d : Fin 4, d ≠ a → (((r.next cyc).setAcc a v).addSat n).acc d = r.acc d :=
  ⟨rfl, (RunSt.setAcc_acc hv a).trans (if_pos rfl), rfl, fun _ hd => RunSt.setAcc_acc_ne v hd⟩

/-- An operation whose result fits its accumulator and brings its own count of saturations. -/
theorem CeAt.runs_sat {s : State} {l : Fin 16} {o : Op} {c : Instr} {f : State → RunSt → Int × Nat} {v : Int × Nat}
    (h : CeAt s l r o) (ht : tickOf c = none)
    (hact : s.act c = s.ceOp l o .ok (pureOp fun s r => (r.setAcc a (f s r).1).addSat (f s r).2))
    (hcyc : opCycles o.opc = cyc) (hf : ∀ x, LoadFrame s x → f x (r.next cyc) = v) (hv : AccFits v.1) :
    ∃ r', CeRuns c s l r' ∧ AccsOnly r r' cyc ∧ r'.acc a = v.1 ∧ r'.sats = r.sats + v.2
      ∧ ∀ d : Fin 4, d ≠ a → r'.acc d = r.acc d := by
  have hroom : r.entries ≤ 508 := h.1.2.2.1
  subst hcyc
  refine h.runs_pure ht hact fun x hx => ⟨hroom.trans (by decide), ?_⟩
  rw [hf x hx]
  exact setAcc_addSat hv

theorem divAcc_fits (w : Word) : AccFits (divAcc v w).1 := by
  unfold divAcc
  split
  · dsimp only; unfold AccFits accMin accMax; split_ifs <;> omega
  · exact (accSat_eq _).1

/-- The root of a value that an accumulator holds fits it. -/
theorem sqrtAcc_fits (h : AccFits v) : AccFits (sqrtAcc v).1 := by
  unfold sqrtAcc
  split
  · unfold AccFits; decide
  · next hneg =>
    obtain ⟨hsq, -⟩ := isqrtNear_spec (v.toNat * 2 ^ 61)
    dsimp only
    generalize isqrtNear (v.toNat * 2 ^ 61) = m at *
    have hm : m < 2 ^ 71 := by
      by_contra hle
      have : v.toNat < 2 ^ 71 := by unfold AccFits at h; omega
      nlinarith
    unfold AccFits
    omega

theorem sqrtAcc_neg (h : v < 0) : sqrtAcc v = (0, 1) := if_pos h

theorem sqrtAcc_nonneg (h : 0 ≤ v) : (sqrtAcc v).2 = 0 ∧ 0 ≤ (sqrtAcc v).1
    ∧ (sqrtAcc v).1 * (sqrtAcc v).1 - (sqrtAcc v).1 ≤ v * 2 ^ 61
    ∧ v * 2 ^ 61 ≤ (sqrtAcc v).1 * (sqrtAcc v).1 + (sqrtAcc v).1 := by
  have heq : sqrtAcc v = (((isqrtNear (v.toNat * 2 ^ 61) : Nat) : Int), 0) := if_neg (not_lt.mpr h)
  obtain ⟨hlo, hhi⟩ := isqrtNear_spec (v.toNat * 2 ^ 61)
  rw [heq]
  lift v to Nat using h
  dsimp only
  rw [Int.toNat_natCast] at *
  generalize isqrtNear (v * 2 ^ 61) = m at *
  refine ⟨rfl, by positivity, ?_, ?_⟩
  · have : ((m * m : Nat) : Int) ≤ ((v * 2 ^ 61 + m : Nat) : Int) := by exact_mod_cast hlo
    push_cast at this; omega
  · exact_mod_cast hhi

theorem vlim_fits {w l : Int} (hl : |l| ≤ 2 ^ 62) :
    AccFits (vlim v w l).1 ∧ AccFits (vlim v w l).2 := by
  have hle := vlim_le (a := v) (b := w) (l := l)
  have hsq : l * l ≤ 2 ^ 62 * 2 ^ 62 := by rw [← abs_mul_abs_self]; exact mul_le_mul hl hl (abs_nonneg l) (by decide)
  generalize (vlim v w l).1 = x at *
  generalize (vlim v w l).2 = y at *
  unfold AccFits
  refine ⟨⟨?_, ?_⟩, ⟨?_, ?_⟩⟩ <;> nlinarith [mul_self_nonneg x, mul_self_nonneg y]

theorem abs_sigAcc_le (w : Word) : |sigAcc w| ≤ 2 ^ 62 := by
  have h := BitVec.two_mul_toInt_lt (x := w)
  have k := BitVec.le_two_mul_toInt (x := w)
  rw [abs_le]
  unfold sigAcc
  omega

end Functions

/-- Settles O21: the series of `sinCos` stays within its accumulator, `isqrtNear` is the nearest root, and a vector scaled by
`vlimOne` is no longer than its limit. -/
theorem accumulatorFunctions : Obligations.AccumulatorFunctions := by
  unfold Obligations.AccumulatorFunctions
  intro s l a x y r
  dsimp only
  refine ⟨fun h => ?_, fun h => ?_, fun h => ?_, fun h => ?_, fun h => ?_⟩
  · refine h.runs_acc (f := fun s r v => v + tluAcc (s.memGet (K.table (y % 16) ((s.sig r x).toNat / 2 ^ 20)))
      (s.memGet (K.table (y % 16) (((s.sig r x).toNat / 2 ^ 20 + 1) % 4096))) ((s.sig r x).toNat % 2 ^ 20)) rfl
      (State.act.eq_def ..) rfl fun z hz => ?_
    rw [hz.sig, hz.memGet, hz.memGet, Nat.mod_eq_of_lt y.isLt, tluAcc]
    ring
  · refine h.runs_pure rfl (State.act.eq_def ..) fun z hz => ⟨h.1.2.2.1.trans (by decide), ?_⟩
    obtain ⟨hs, hc⟩ := accFits_sinCos (s.sig r x).toNat
    obtain ⟨ha, hb, hd⟩ := setAcc_pair (q := r.next 4) (a := a) hs hc
    rw [hz.sig]
    exact ⟨rfl, rfl, ha, hb, hd⟩
  · obtain ⟨r', hrun, honly, hval, hsats, hother⟩ := h.runs_sat (c := .ceDiv l a x .ok) (a := a) (v := divAcc (r.acc a) (s.sig r x)) (cyc := 12)
      (f := fun s r => divAcc (r.acc a) (s.sig r x)) rfl (State.act.eq_def ..) rfl (fun z hz => by rw [hz.sig]; rfl)
      (divAcc_fits _)
    refine ⟨r', hrun, honly, hother, fun hne => ?_, fun h0 => ?_⟩
    · rw [divAcc, if_neg hne] at hval hsats
      obtain ⟨-, hsat, hcount⟩ := accSat_eq (divAway (r.acc a * 2 ^ 30) (s.sig r x).toInt)
      exact ⟨honly, hother, hval.trans hsat, hsats.trans (congrArg _ hcount)⟩
    · rw [divAcc, if_pos h0] at hval hsats
      exact ⟨hsats, hval⟩
  · obtain ⟨r', hrun, honly, hval, hsats, hother⟩ := h.runs_sat (c := .ceSqrt l a .ok) (a := a) (v := sqrtAcc (r.acc a)) (cyc := 8)
      (f := fun _ r => sqrtAcc (r.acc a)) rfl (State.act.eq_def ..) rfl (fun z hz => rfl)
      (sqrtAcc_fits (AccFits.acc r a))
    refine ⟨r', hrun, honly, hother, fun hneg => ?_, fun hpos => ?_⟩
    · rw [sqrtAcc_neg hneg] at hval hsats
      exact ⟨hval, hsats⟩
    · obtain ⟨hcount, hroot⟩ := sqrtAcc_nonneg hpos
      rw [hval]
      exact ⟨hsats.trans (congrArg _ hcount), hroot⟩
  · refine h.runs_pure rfl (State.act.eq_def ..) fun z hz => ⟨h.1.2.2.1.trans (by decide), ?_⟩
    obtain ⟨hu, hv⟩ := vlim_fits (v := r.acc a) (w := r.acc (a.val + 1)) (abs_sigAcc_le (s.sig r x))
    obtain ⟨ha, hb, hd⟩ := setAcc_pair (q := r.next 6) (a := a) hu hv
    rw [hz.sig]
    refine ⟨rfl, rfl, hd, ?_, fun hle => ?_⟩
    · exact (congrArg₂ (fun u v => u * u + v * v) ha hb).trans_le vlim_le
    · have hin := vlim_within (l := sigAcc (s.sig r x)) hle
      exact ⟨ha.trans (congrArg Prod.fst hin), hb.trans (congrArg Prod.snd hin)⟩

end Sys2Proof.Machine
end

section
/-!
PROOFS. Chapter 09, what an operation writes beside its accumulators: signal words, sections, skips, flags and captures.
-/
namespace Sys2Proof.Machine

/-! ## A signal word written -/

section Signals
variable {s x : State} {q r : RunSt} {y z n : Nat} {w : Word}

/-- A state word that the journal of the run holds last. -/
theorem State.runState_push (i k : Nat) :
    s.runState { q with journal := q.journal ++ [.state k w], entries := n } i = if k = i then w else s.runState q i := by
  unfold State.runState
  simp only [List.reverse_append, List.reverse_cons, List.reverse_nil, List.nil_append, List.singleton_append,
    List.find?_cons]
  by_cases h : k = i
  · simp [h]
  · have hne : (k == i) = false := beq_eq_false_iff_ne.mpr h
    rw [if_neg h, hne]

/-- Signal words are apart: the 1,024 of a run lie in its frames or at different words of its section. -/
theorem State.stateIdx_inj (hy : 0x80 ≤ y) (hy' : y < 1024) (hz : 0x80 ≤ z) (hz' : z < 1024) :
    s.stateIdx q y = s.stateIdx q z ↔ z = y := by
  unfold State.stateIdx; omega

theorem State.sig_input (h : z < 0x40) : s.sig q z = q.input.getD z 0 := if_pos h

theorem State.sig_out (h : 0x40 ≤ z) (h' : z < 0x60) : s.sig q z = q.out[z - 0x40] := by
  rw [State.sig, if_neg (by omega), if_pos h', List.getD_eq_getElem _ _ (by simp; omega), Vector.getElem_toList]

theorem State.sig_scratch (h : 0x60 ≤ z) (h' : z < 0x80) : s.sig q z = q.scratch[z - 0x60] := by
  rw [State.sig, if_neg (by omega), if_neg (by omega), if_pos h', List.getD_eq_getElem _ _ (by simp; omega),
    Vector.getElem_toList]

theorem State.sig_state (h : 0x80 ≤ z) : s.sig q z = s.runState q (s.stateIdx q z) := by
  rw [State.sig, if_neg (by omega), if_neg (by omega), if_neg (by omega)]

/-- A signal word outside the input frame takes what is stored, and the others keep theirs. -/
theorem State.sig_sigSet (hy : 0x40 ≤ y) (hy' : y < 1024) (hz : z < 1024) :
    s.sig (s.sigSet q y w) z = if z = y then w else s.sig q z := by
  unfold State.sigSet
  rw [dif_neg (by omega)]
  split
  · next hout =>
    by_cases hreg : 0x40 ≤ z ∧ z < 0x60
    · rw [State.sig_out hreg.1 hreg.2, State.sig_out hreg.1 hreg.2, Vector.getElem_set]
      exact if_congr (by omega) rfl rfl
    · rw [if_neg (by omega)]
      unfold State.sig
      split_ifs
      · rfl
      · omega
      · rfl
      · rfl
  · next hout =>
    split
    · next hscr =>
      by_cases hreg : 0x60 ≤ z ∧ z < 0x80
      · rw [State.sig_scratch hreg.1 hreg.2, State.sig_scratch hreg.1 hreg.2, Vector.getElem_set]
        exact if_congr (by omega) rfl rfl
      · rw [if_neg (by omega)]
        unfold State.sig
        split_ifs
        · rfl
        · rfl
        · omega
        · rfl
    · next hscr =>
      by_cases hreg : 0x80 ≤ z
      · rw [State.sig_state hreg, State.sig_state hreg, State.runState_push]
        exact if_congr (State.stateIdx_inj (by omega) hy' hreg hz) rfl rfl
      · rw [if_neg (by omega)]
        unfold State.sig
        split_ifs
        · rfl
        · rfl
        · rfl
        · omega

/-- What a store to a signal word leaves as it was. -/
theorem State.sigSet_rest : (s.sigSet q y w).accs = q.accs ∧ (s.sigSet q y w).pc = q.pc
    ∧ (s.sigSet q y w).cycles = q.cycles ∧ (s.sigSet q y w).sats = q.sats ∧ (s.sigSet q y w).entries ≤ q.entries + 1 := by
  unfold State.sigSet
  split_ifs <;> simp

theorem LoadFrame.sigSet (h : LoadFrame s x) : x.sigSet q y w = s.sigSet q y w := by
  simp only [State.sigSet, State.stateIdx, State.sBase, h.descWord]

end Signals

/-! ## Stores -/

section Stores
variable {s x : State} {r : RunSt} {o : Op} {l : Fin 16} {c : Instr}

/-- The signal words that a legal operation writes lie outside the input frame (R237). -/
theorem CeAt.writes (h : CeAt s l r o) (hf : o.opc < 64 ∧ o.a < 4 ∧ o.x < 1024 ∧ o.y < 1024 ∧ o.m < 16) : ∀ z ∈ opWrites o, 0x40 ≤ z := by
  obtain ⟨hopc, ha, hx, hy, hm⟩ := hf
  have hlegal : opLegal o.word = true := h.1.2.2.2.2.2.2
  rw [opLegal, opOf_word o hopc ha hx hy hm] at hlegal
  simp only [Bool.and_eq_true, List.all_eq_true, decide_eq_true_eq] at hlegal
  exact hlegal.2

/-- A value narrowed to 32 bits, and whether it saturated. -/
theorem toSignal_eq (m : Nat) (v : Int) : toSignal m v = (clampI (-(2 ^ 31)) (2 ^ 31 - 1) (stsRound m v),
    if -(2 ^ 31) ≤ stsRound m v ∧ stsRound m v < 2 ^ 31 then 0 else 1) := by
  unfold toSignal narrow clampI
  generalize stsRound m v = q
  split_ifs <;> first | rfl | omega

/-- Bits 31:0 of an accumulator as a word. -/
theorem ofNat_accRaw (v : Int) : BitVec.ofNat 32 (accRaw v) = BitVec.ofInt 32 v := by
  refine BitVec.eq_of_toNat_eq ?_
  rw [BitVec.toNat_ofNat, BitVec.toNat_ofInt, accRaw]
  omega

/-- A store of a signal word, with its saturations counted. -/
theorem CeAt.runs_store {f : State → RunSt → Word × Nat} {y : Fin 1024} {w : Word} {n : Nat} (h : CeAt s l r o)
    (ht : tickOf c = none) (hact : s.act c = s.ceOp l o .ok (pureOp fun s r => (s.sigSet r y (f s r).1).addSat (f s r).2))
    (hf : ∀ x, LoadFrame s x → f x (r.next (opCycles o.opc)) = (w, n)) (hy : 0x40 ≤ y.val) :
    ∃ r', CeRuns c s l r' ∧ r'.accs = r.accs ∧ r'.pc = r.pc + 1 ∧ s.sig r' y = w ∧ r'.sats = r.sats + n
      ∧ ∀ z : Fin 1024, z ≠ y → s.sig r' z = s.sig r z := by
  have hroom : r.entries ≤ 508 := h.1.2.2.1
  refine h.runs_pure ht hact fun x hx => ?_
  rw [hf x hx, hx.sigSet]
  dsimp only
  obtain ⟨haccs, hpc, -, hsats, hentries⟩ := State.sigSet_rest (s := s) (q := r.next (opCycles o.opc)) (y := y) (w := w)
  have hsig (z : Fin 1024) := State.sig_sigSet (s := s) (q := r.next (opCycles o.opc)) (w := w) hy y.isLt z.isLt
  refine ⟨hentries.trans (show r.entries + 1 ≤ 512 by omega), haccs, hpc, ?_, congrArg (· + n) hsats, fun z hz => ?_⟩
  · exact (hsig y).trans (if_pos rfl)
  · exact (hsig z).trans (if_neg (Fin.val_ne_of_ne hz))

end Stores

/-! The three results of TOCMP. -/

theorem toCmp_low {m : Nat} {v : Int} (hm : m % 2 = 1) (hv : v ≤ 0) : toCmp m v = 0xFFFFFFFF := if_pos ⟨hm, hv⟩

theorem toCmp_high {m : Nat} {v : Int} (hm : 2 ≤ m) (hm' : m < 4) (hv : 2 ^ 61 ≤ v) : toCmp m v = 0xFFFFFFFE := by
  rw [toCmp, if_neg (by omega), if_pos ⟨by omega, hv⟩]

theorem toCmp_between {m : Nat} {v : Int} (hlo : 0 < v) (hhi : v < 2 ^ 61) :
    (toCmp m v : Int) = min 0xFFFFFFFD (v / 2 ^ 29) := by
  rw [toCmp, if_neg (by omega), if_neg (by omega), clampI_eq (by decide)]
  omega

theorem signalStores : Part.SignalStores := by
  unfold Part.SignalStores
  intro s l a m x r
  dsimp only
  refine ⟨fun h => ?_, fun h => ?_, fun h => ?_⟩
  · have hx : 0x40 ≤ x.val := h.writes (by dsimp only; omega) x (by simp [opWrites, opSTS])
    obtain ⟨r', hrun, haccs, hpc, hsig, hsats, hother⟩ := h.runs_store (c := .ceSts l a x m .ok)
      (f := fun _ r => (wOfInt (toSignal (m % 4) (r.acc a)).1, (toSignal (m % 4) (r.acc a)).2)) rfl
      (State.act.eq_def ..) (fun z hz => rfl) hx
    rw [toSignal_eq, Nat.mod_eq_of_lt m.isLt] at hsig hsats
    exact ⟨r', hrun, haccs, hpc, hsig, hsats, hother⟩
  · have hx : 0x40 ≤ x.val := h.writes (by dsimp only; omega) x (by simp [opWrites, opSTW])
    obtain ⟨r', hrun, haccs, hpc, hsig, hsats, hother⟩ := h.runs_store (c := .ceStw l a x .ok)
      (f := fun _ r => (BitVec.ofNat 32 (accRaw (r.acc a)), 0)) rfl (State.act.eq_def ..) (fun z hz => rfl) hx
    exact ⟨r', hrun, haccs, hpc, hsig.trans (ofNat_accRaw _), hsats, hother⟩
  · have hx : 0x40 ≤ x.val := h.writes (by dsimp only; omega) x (by simp [opWrites, opTOCMP])
    obtain ⟨r', hrun, haccs, hpc, hsig, hsats, hother⟩ := h.runs_store (c := .ceTocmp l a x m .ok)
      (f := fun _ r => (BitVec.ofNat 32 (toCmp m (r.acc a)), 0)) rfl (State.act.eq_def ..) (fun z hz => rfl) hx
    refine ⟨r', hrun, haccs, hpc, fun hm hv => ?_, fun hm hv => ?_, fun hlo hhi => ?_, hother⟩
    · rw [hsig, RunSt.next_acc, toCmp_low hm hv]; rfl
    · rw [hsig, RunSt.next_acc, toCmp_high hm m.isLt hv]; rfl
    · rw [hsig, RunSt.next_acc, ← toCmp_between (m := m) hlo hhi, BitVec.ofInt_natCast]


/-! ## The section of BIQ -/

section Section
variable {s x : State} {q r : RunSt} {e z n : Nat} {v : Int}

/-- Four signal words that lie outside the input frame. -/
def SectionAt (e : Nat) : Prop := 0x40 ≤ e ∧ e + 3 < 1024

theorem State.elem_eq (h : e + 1 < 1024) : s.elem q e = toSigned 64 ((s.sig q e).toNat + (s.sig q (e + 1)).toNat * 2 ^ 32) := by
  rw [State.elem, Nat.mod_eq_of_lt (by omega), Nat.mod_eq_of_lt h]

theorem State.elemSet_eq (h : e + 1 < 1024) : s.elemSet q e v
    = s.sigSet (s.sigSet q e (BitVec.ofNat 32 (ofSigned 64 v))) (e + 1) (BitVec.ofNat 32 (ofSigned 64 v / 2 ^ 32)) := by
  rw [State.elemSet, Nat.mod_eq_of_lt (by omega), Nat.mod_eq_of_lt h]

/-- An element of two words holds a value of 64 bits. -/
theorem toSigned_ofSigned (hlo : -(2 ^ 63) ≤ v) (hhi : v ≤ 2 ^ 63 - 1) :
    toSigned 64 ((BitVec.ofNat 32 (ofSigned 64 v)).toNat + (BitVec.ofNat 32 (ofSigned 64 v / 2 ^ 32)).toNat * 2 ^ 32) = v := by
  have hlt : ofSigned 64 v < 2 ^ 64 := by unfold ofSigned; omega
  have hword : (BitVec.ofNat 32 (ofSigned 64 v)).toNat + (BitVec.ofNat 32 (ofSigned 64 v / 2 ^ 32)).toNat * 2 ^ 32
      = ofSigned 64 v := by
    rw [BitVec.toNat_ofNat, BitVec.toNat_ofNat]; omega
  rw [hword]
  unfold toSigned ofSigned
  dsimp only
  split_ifs <;> omega

theorem State.elem_elemSet_same (h : 0x40 ≤ e) (h' : e + 1 < 1024) (hlo : -(2 ^ 63) ≤ v) (hhi : v ≤ 2 ^ 63 - 1) :
    s.elem (s.elemSet q e v) e = v := by
  rw [State.elem_eq h', State.elemSet_eq h', State.sig_sigSet (by omega) h' (by omega), State.sig_sigSet (by omega) h' h',
    if_neg (by omega), if_pos rfl, State.sig_sigSet h (by omega) (by omega), if_pos rfl, toSigned_ofSigned hlo hhi]

theorem State.elem_elemSet_ne (h : 0x40 ≤ e) (h' : e + 1 < 1024) (hz : z + 1 < 1024) (hne : z + 1 < e ∨ e + 1 < z) :
    s.elem (s.elemSet q e v) z = s.elem q z := by
  rw [State.elem_eq hz, State.elem_eq hz, State.elemSet_eq h', State.sig_sigSet (by omega) h' (by omega),
    State.sig_sigSet (by omega) h' hz, State.sig_sigSet h (by omega) (by omega), State.sig_sigSet h (by omega) hz]
  rw [if_neg (by omega), if_neg (by omega), if_neg (by omega), if_neg (by omega)]

theorem State.elemSet_rest (h : e + 1 < 1024) : (s.elemSet q e v).accs = q.accs
    ∧ (s.elemSet q e v).cycles = q.cycles ∧ (s.elemSet q e v).entries ≤ q.entries + 2 := by
  rw [State.elemSet_eq h]
  obtain ⟨haccs, -, hcyc, -, hentries⟩ := State.sigSet_rest (s := s) (q := q) (y := e)
    (w := BitVec.ofNat 32 (ofSigned 64 v))
  obtain ⟨haccs', -, hcyc', -, hentries'⟩ := State.sigSet_rest (s := s)
    (q := s.sigSet q e (BitVec.ofNat 32 (ofSigned 64 v))) (y := e + 1) (w := BitVec.ofNat 32 (ofSigned 64 v / 2 ^ 32))
  exact ⟨haccs'.trans haccs, hcyc'.trans hcyc, by omega⟩

theorem LoadFrame.elem (h : LoadFrame s x) (n e : Nat) : x.elem (r.next n) e = s.elem r e := by
  rw [State.elem, State.elem, h.sig, h.sig]

theorem LoadFrame.elemSet (h : LoadFrame s x) : x.elemSet q e v = s.elemSet q e v := by
  simp only [State.elemSet, h.sigSet]

/-! The arithmetic of a section: its input, a product, its output and its next states. -/

/-- A value on its way into a signal, to the nearest. -/
def biqIn (v : Int) : Int := clampI (-(2 ^ 31)) (2 ^ 31 - 1) (rndShift v 31)

theorem toSignal_near (v : Int) : toSignal 0 v
    = (biqIn v, if -(2 ^ 31) ≤ rndShift v 31 ∧ rndShift v 31 < 2 ^ 31 then 0 else 1) := toSignal_eq 0 v

theorem wOfInt_biqIn (v : Int) : (wOfInt (biqIn v)).toInt = biqIn v := by
  have h : -(2 ^ 31) ≤ biqIn v ∧ biqIn v ≤ 2 ^ 31 - 1 := by
    unfold biqIn; rw [clampI_eq (by decide)]; omega
  rw [wOfInt, BitVec.toInt_ofInt]
  exact Int.bmod_eq_of_le (by omega) (by omega)

/-- A value times coefficient i of the section. -/
def State.biqProd (s : State) (r : RunSt) (y : Nat) (u : Int) (i : Nat) : Int :=
  scaleRnd (u * (s.coefWord (s.coefIdx r (y + i))).toInt) (s.coefShift (s.coefIdx r (y + i)))

/-- The output before its limits, and behind them. -/
def State.biqRaw (s : State) (r : RunSt) (y e : Nat) (u : Int) : Int :=
  clampI (-(2 ^ 71)) (2 ^ 71 - 1) (s.biqProd r y u 0 + s.elem r e)

def State.biqOut (s : State) (r : RunSt) (y m : Nat) (raw : Int) : Int :=
  if m = 1 then max ((s.coefWord (s.coefIdx r (y + 5))).toInt * 2 ^ 31)
    (min ((s.coefWord (s.coefIdx r (y + 6))).toInt * 2 ^ 31) raw) else raw

theorem accSat_pair (v : Int) : accSat v
    = (clampI (-(2 ^ 71)) (2 ^ 71 - 1) v, if -(2 ^ 71) ≤ v ∧ v < 2 ^ 71 then 0 else 1) :=
  Prod.ext (accSat_eq v).2.1 (accSat_eq v).2.2

theorem stateSat_pair (v : Int) : stateSat v
    = (clampI (-(2 ^ 63)) (2 ^ 63 - 1) v, if -(2 ^ 63) ≤ v ∧ v < 2 ^ 63 then 0 else 1) := by
  unfold stateSat narrow clampI
  split_ifs <;> first | rfl | omega

/-- The two next states. -/
def State.biqNext (s : State) (r : RunSt) (y e : Nat) (u v : Int) : RunSt → RunSt := fun q =>
  s.elemSet (s.elemSet q e (clampI (-(2 ^ 63)) (2 ^ 63 - 1) (s.biqProd r y u 1 - s.biqProd r y (biqIn v) 3 + s.elem r (e + 2))))
    (e + 2) (clampI (-(2 ^ 63)) (2 ^ 63 - 1) (s.biqProd r y u 2 - s.biqProd r y (biqIn v) 4))

theorem LoadFrame.mulCoef (h : LoadFrame s x) (n y i : Nat) (v : Int) :
    mulCoef (wOfInt (biqIn v)) (x.coefWord (x.coefIdx (r.next n) (y + i))) (x.coefShift (x.coefIdx (r.next n) (y + i)))
      = s.biqProd r y (biqIn v) i := by
  rw [Sys2Proof.Machine.mulCoef, wOfInt_biqIn, h.coefIdx, h.coefWord, h.coefShift, State.biqProd]

theorem bodyBIQ_eq (h : LoadFrame s x) {a y m : Nat} (hm : m < 2)
    (hlim : m = 1 → (s.coefWord (s.coefIdx r (y + 5))).toInt * 2 ^ 31 ≤ (s.coefWord (s.coefIdx r (y + 6))).toInt * 2 ^ 31) :
    ∃ k, bodyBIQ a e y m x (r.next n) = (x, ((s.biqNext r y e (biqIn (r.acc a))
      (s.biqOut r y m (s.biqRaw r y e (biqIn (r.acc a)))) (r.next n)).setAcc a
        (s.biqOut r y m (s.biqRaw r y e (biqIn (r.acc a))))).addSat k) := by
  have hq (i : Nat) : x.coefQ (r.next n) i = (s.coefWord (s.coefIdx r i)).toInt * 2 ^ 31 := by
    rw [State.coefQ, h.coefIdx, h.coefWord]; rfl
  have hout (raw : Int) : (if m % 2 = 1 then x.clampAcc raw (x.coefQ (r.next n) (y + 5)) (x.coefQ (r.next n) (y + 6))
      else (raw, x)) = (s.biqOut r y m raw, x) := by
    rw [hq, hq, Nat.mod_eq_of_lt hm, State.biqOut]
    split
    · next h1 => rw [State.clampAcc_ordered (hlim h1), clampI_eq (hlim h1)]
    · rfl
  simp only [bodyBIQ, RunSt.next_acc, toSignal_near, accSat_pair, h.mulCoef, h.elem]
  have hraw : clampI (-(2 ^ 71)) (2 ^ 71 - 1) (s.biqProd r y (biqIn (r.acc a)) 0 + s.elem r e)
      = s.biqRaw r y e (biqIn (r.acc a)) := rfl
  rw [hraw, hout]
  simp only [stateSat_pair, h.elemSet]
  exact ⟨_, rfl⟩

theorem clampI_range {lo hi : Int} (h : lo ≤ hi) (v : Int) : lo ≤ clampI lo hi v ∧ clampI lo hi v ≤ hi := by
  rw [clampI_eq h]; omega

/-- The elements after the section, and what its stores leave. -/
theorem State.biqNext_elems {y : Nat} {u : Int} (hlow : 0x40 ≤ e) (hhigh : e + 3 < 1024) :
    s.elem (s.biqNext r y e u v q) e
        = clampI (-(2 ^ 63)) (2 ^ 63 - 1) (s.biqProd r y u 1 - s.biqProd r y (biqIn v) 3 + s.elem r (e + 2))
      ∧ s.elem (s.biqNext r y e u v q) (e + 2)
        = clampI (-(2 ^ 63)) (2 ^ 63 - 1) (s.biqProd r y u 2 - s.biqProd r y (biqIn v) 4)
      ∧ (s.biqNext r y e u v q).accs = q.accs ∧ (s.biqNext r y e u v q).cycles = q.cycles
      ∧ (s.biqNext r y e u v q).entries ≤ q.entries + 4 := by
  unfold State.biqNext
  generalize s.biqProd r y u 1 - s.biqProd r y (biqIn v) 3 + s.elem r (e + 2) = t1
  generalize s.biqProd r y u 2 - s.biqProd r y (biqIn v) 4 = t2
  obtain ⟨hlo1, hhi1⟩ := clampI_range (lo := -(2 ^ 63)) (hi := 2 ^ 63 - 1) (by decide) t1
  obtain ⟨hlo2, hhi2⟩ := clampI_range (lo := -(2 ^ 63)) (hi := 2 ^ 63 - 1) (by decide) t2
  obtain ⟨haccs1, hcyc1, hent1⟩ := State.elemSet_rest (s := s) (q := q) (e := e)
    (v := clampI (-(2 ^ 63)) (2 ^ 63 - 1) t1) (by omega)
  obtain ⟨haccs2, hcyc2, hent2⟩ := State.elemSet_rest (s := s) (q := s.elemSet q e (clampI (-(2 ^ 63)) (2 ^ 63 - 1) t1))
    (e := e + 2) (v := clampI (-(2 ^ 63)) (2 ^ 63 - 1) t2) (by omega)
  refine ⟨?_, ?_, haccs2.trans haccs1, hcyc2.trans hcyc1, by omega⟩
  · rw [State.elem_elemSet_ne (by omega) (by omega) (by omega) (by omega),
      State.elem_elemSet_same hlow (by omega) hlo1 hhi1]
  · rw [State.elem_elemSet_same (by omega) (by omega) hlo2 hhi2]

/-- The output of a section fits its accumulator. -/
theorem State.biqOut_fits {y m : Nat} {u : Int} : AccFits (s.biqOut r y m (s.biqRaw r y e u)) := by
  have hraw : AccFits (s.biqRaw r y e u) := by
    obtain ⟨hlo, hhi⟩ := clampI_range (lo := -(2 ^ 71)) (hi := 2 ^ 71 - 1) (by decide) (s.biqProd r y u 0 + s.elem r e)
    unfold State.biqRaw AccFits
    omega
  have hlo := accFits_sigAcc (s.coefWord (s.coefIdx r (y + 5)))
  have hhi := accFits_sigAcc (s.coefWord (s.coefIdx r (y + 6)))
  unfold State.biqOut
  split
  · unfold AccFits sigAcc at *; omega
  · exact hraw

end Section

/-- What the section leaves in a run. -/
def BiqLeaves (s : State) (r r' : RunSt) (a : Fin 4) (x y : Nat) (u v : Int) : Prop :=
  r'.acc a = v ∧ (∀ d : Fin 4, d ≠ a → r'.acc d = r.acc d) ∧ r'.cycles = r.cycles + 6
    ∧ s.elem r' x = clampI (-(2 ^ 63)) (2 ^ 63 - 1) (s.biqProd r y u 1 - s.biqProd r y (biqIn v) 3 + s.elem r (x + 2))
    ∧ s.elem r' (x + 2) = clampI (-(2 ^ 63)) (2 ^ 63 - 1) (s.biqProd r y u 2 - s.biqProd r y (biqIn v) 4)

theorem CeAt.runs_biq {s : State} {l : Fin 16} {r : RunSt} {a : Fin 4} {x y : Fin 1024} {m : Fin 2}
    (h : CeAt s l r ⟨0x18, a, x, y, m⟩) (hlim : m.val = 1 →
      (s.coefWord (s.coefIdx r (y + 5))).toInt * 2 ^ 31 ≤ (s.coefWord (s.coefIdx r (y + 6))).toInt * 2 ^ 31) :
    ∃ r', CeRuns (.ceBiq l a x y m .ok) s l r' ∧ BiqLeaves s r r' a x y (biqIn (r.acc a))
      (s.biqOut r y m (s.biqRaw r y x (biqIn (r.acc a)))) := by
  have hwrites := h.writes (by dsimp only; omega)
  have hin : 0x40 ≤ x.val ∧ x.val + 3 < 1024 := by
    have h0 := hwrites ((x.val + 0) % 1024) (by simp [opWrites, opSTS, opSTW, opTOCMP, opBIQ, List.range_succ])
    have h3 := hwrites ((x.val + 3) % 1024) (by simp [opWrites, opSTS, opSTW, opTOCMP, opBIQ, List.range_succ])
    omega
  obtain ⟨hlow, hhigh⟩ := hin
  have hroom : r.entries ≤ 508 := h.1.2.2.1
  refine h.runs rfl (State.act.eq_def ..) fun z hz => ?_
  obtain ⟨k, hbody⟩ := bodyBIQ_eq (n := 6) (e := x) (a := a) hz m.isLt hlim
  have hbody' : bodyBIQ a x y m z (r.next (opCycles 0x18)) = _ := hbody
  have hfits := State.biqOut_fits (s := s) (r := r) (y := y) (m := m) (e := x) (u := biqIn (r.acc a))
  rw [hbody']
  generalize biqIn (r.acc a) = u at *
  generalize s.biqOut r y m (s.biqRaw r y x u) = v at *
  obtain ⟨h1, h2, haccs, hcyc, hent⟩ := State.biqNext_elems (s := s) (r := r) (y := y) (u := u) (v := v)
    (q := r.next 6) hlow hhigh
  have hacc (d : Fin 4) : (s.biqNext r y x u v (r.next 6)).acc d = r.acc d := by
    simp only [RunSt.acc, haccs]; rfl
  generalize s.biqNext r y x u v (r.next 6) = q at *
  have hent' : q.entries ≤ 512 := hent.trans (show r.entries + 4 ≤ 512 by omega)
  exact ⟨LoadFrame.refl, hent', (RunSt.setAcc_acc hfits a).trans (if_pos rfl),
    fun d hd => (RunSt.setAcc_acc_ne v hd).trans (hacc d), hcyc, h1, h2⟩

theorem biquadSections : Part.BiquadSections := by
  unfold Part.BiquadSections
  intro s l a x y m r
  dsimp only
  intro h hlim
  obtain ⟨r', hrun, hacc, hother, hcyc, h1, h2⟩ := h.runs_biq hlim
  refine ⟨r', hrun, ?_, hother, hcyc, ?_, ?_⟩
  · exact hacc
  · exact h1
  · exact h2

/-- Settles O22: a store reads back through the frames and the journal of its run, and a section's stores are two elements
apart. -/
theorem storesAndSections : Obligations.StoresAndSections := ⟨signalStores, biquadSections⟩

end Sys2Proof.Machine
end

section
/-!
PROOFS. Chapter 09, skips, flags and captures of a run, and an operation that is skipped.
-/
namespace Sys2Proof.Machine

section Skips
variable {s : State} {l : Fin 16} {r : RunSt} {o : Op} {c : Instr} {body : State → RunSt → State × RunSt}

/-- An operation that is skipped costs one cycle and its place. -/
theorem State.ceOp_skipped {k : Nat} (h : CeStands s l r o) (hskip : r.skip = k + 1) (hend : o.opc ≠ opEND) :
    s.ceOp l o .ok body = (s.busyAdd l 1).runPut l { r.next 1 with skip := k } := by
  obtain ⟨hlane, hended, -, hclean, hpc, hword, hlegal⟩ := h
  have hfetch : s.eccReads (State.fetchKeys r) = (none, s) := State.eccReads_clean fun k hk => hclean k (by simp [hk])
  simp only [State.ceOp, State.strike, hlane, hended, hpc, hfetch, hword, hlegal, hskip, hend, Option.isSome_none,
    Bool.false_eq_true, if_false, Bool.not_true, ne_eq, not_true_eq_false, not_false_eq_true, and_true, Nat.succ_pos, if_true,
    Nat.add_sub_cancel]

theorem CeStands.runs_skipped {k : Nat} (h : CeStands s l r o) (hskip : r.skip = k + 1) (hend : o.opc ≠ opEND)
    (ht : tickOf c = none) (hact : s.act c = s.ceOp l o .ok body) :
    CeRuns c s l { r with pc := r.pc + 1, cycles := r.cycles + 1, skip := k } := by
  have hroom : r.entries ≤ 508 := h.2.2.1
  have hexec := exec_untimed ht (s := s)
  rw [hact, State.ceOp_skipped h hskip hend] at hexec
  exact ceRuns_of_frame LoadFrame.busyAdd (hroom.trans (by decide)) hexec

/-- A skip that is taken or not. -/
theorem CeAt.runs_skip {cond : State → RunSt → Bool} {m : Nat} {p : Prop} [Decidable p] (h : CeAt s l r o)
    (ht : tickOf c = none) (hact : s.act c = s.ceOp l o .ok (bodySkip m cond)) (hcyc : opCycles o.opc = 1)
    (hcond : ∀ x, LoadFrame s x → (cond x (r.next 1) = true ↔ p)) :
    CeRuns c s l { r with pc := r.pc + 1, cycles := r.cycles + 1, skip := if p then m + 1 else 0 } := by
  have hroom : r.entries ≤ 508 := h.1.2.2.1
  have hskip : r.skip = 0 := h.2
  refine h.runs_plain ht hact fun x hx => ⟨?_, hroom⟩
  rw [hcyc]
  by_cases hp : p
  · rw [if_pos ((hcond x hx).mpr hp), if_pos hp]; rfl
  · rw [if_neg (fun e => hp ((hcond x hx).mp e)), if_neg hp, RunSt.next, ← hskip]

/-- The bits of a flag mask once a flag is set. -/
theorem flag_set {n f : Nat} (h : n / 2 ^ f % 2 ≠ 1) :
    (n + 2 ^ f) / 2 ^ f % 2 = 1 ∧ ∀ j, j ≠ f → (n + 2 ^ f) / 2 ^ j % 2 = n / 2 ^ j % 2 := by
  have hpos (k : Nat) : 0 < 2 ^ k := by positivity
  have hself : (n + 2 ^ f) / 2 ^ f = n / 2 ^ f + 1 := Nat.add_div_right _ (hpos f)
  refine ⟨by omega, fun j hj => ?_⟩
  rcases Nat.lt_or_gt_of_ne hj with hlt | hgt
  · obtain ⟨d, rfl⟩ : ∃ d, f = j + 1 + d := ⟨f - j - 1, by omega⟩
    have hsum : n + 2 ^ (j + 1 + d) = n + 2 ^ j * (2 * 2 ^ d) := by ring
    rw [hsum, Nat.add_mul_div_left _ _ (hpos j)]
    omega
  · obtain ⟨d, rfl⟩ : ∃ d, j = f + 1 + d := ⟨j - f - 1, by omega⟩
    have hhalf : (n + 2 ^ f) / 2 ^ f / 2 = n / 2 ^ f / 2 := by omega
    rw [pow_add, pow_succ, ← Nat.div_div_eq_div_mul, ← Nat.div_div_eq_div_mul, ← Nat.div_div_eq_div_mul,
      ← Nat.div_div_eq_div_mul, hhalf]

/-- A flag of the run set. -/
def setFlag (r : RunSt) (f : Fin 8) : RunSt :=
  if r.flags / 2 ^ (f.val % 8) % 2 = 1 then r else { r with flags := r.flags + 2 ^ (f.val % 8) }

theorem setFlag_entries {f : Fin 8} : (setFlag r f).entries = r.entries := by
  unfold setFlag; split <;> rfl

theorem setFlag_spec (f : Fin 8) : (setFlag r f).flags / 2 ^ f.val % 2 = 1
    ∧ (∀ j, j ≠ f.val → (setFlag r f).flags / 2 ^ j % 2 = r.flags / 2 ^ j % 2)
    ∧ setFlag r f = { r with flags := (setFlag r f).flags } := by
  unfold setFlag
  rw [Nat.mod_eq_of_lt f.isLt]
  split
  · next h => exact ⟨h, fun _ _ => rfl, rfl⟩
  · next h =>
    obtain ⟨hset, hrest⟩ := flag_set h
    exact ⟨hset, hrest, rfl⟩

end Skips

theorem bitsGet_one (w : Word) (n : Nat) : bitsGet w n 1 = w.toNat / 2 ^ n % 2 := by rw [bitsGet_eq, pow_one]

/-- Settles O23: a skip depends on a signal word or on an accumulator's sign, and the operation skipped costs its cycle. -/
theorem skipsFlagsCaptures : Obligations.SkipsFlagsCaptures := by
  unfold Obligations.SkipsFlagsCaptures
  intro s l a x n m c f r
  dsimp only
  refine ⟨fun h => ?_, fun h => ?_, fun h => ?_, fun h => ?_, fun h => ?_, fun h => ?_, fun k hk h => ?_⟩
  · exact h.runs_skip rfl (State.act.eq_def ..) rfl fun z hz => by rw [hz.sig, bitsGet_one, beq_iff_eq]
  · exact h.runs_skip rfl (State.act.eq_def ..) rfl fun z hz => by rw [hz.sig, bitsGet_one, beq_iff_eq]
  · exact h.runs_skip rfl (State.act.eq_def ..) rfl fun z hz => by rw [RunSt.next_acc, decide_eq_true_eq]
  · have hpos : (if r.acc a < 0 then 0 else m.val + 1) = if 0 ≤ r.acc a then m.val + 1 else 0 := by
      split_ifs <;> omega
    rw [hpos]
    exact h.runs_skip rfl (State.act.eq_def ..) rfl fun z hz => by rw [RunSt.next_acc, decide_eq_true_eq]
  · have hst : (⟨c.val % 4, Nat.mod_lt _ (by decide)⟩ : Fin 4) = c := Fin.ext (Nat.mod_eq_of_lt c.isLt)
    refine h.runs_pure rfl (State.act.eq_def ..) fun z hz => ⟨?_, ?_, rfl, ?_⟩
    · have hroom : r.entries ≤ 508 := h.1.2.2.1
      dsimp only [RunSt.next]
      split_ifs <;> omega
    · rw [hz.sig, hst]; rfl
    · have hbit : z.bit (F.CE_CAPCFG_STAMP c) = s.bit (F.CE_CAPCFG_STAMP c) := by
        rw [State.bit, State.bit, hz.regs.get]
        simp only [F.CE_CAPCFG_STAMP, A.CE_CAPCFG, A.CE_LOAD, List.mem_singleton]
        omega
      simp [RunSt.next, Nat.mod_eq_of_lt c.isLt, hbit]
  · obtain ⟨r', hrun, rfl⟩ := h.runs_pure (P := (· = setFlag (r.next 1) f)) (c := .ceSetf l f .ok) (f := fun _ r => setFlag r f)
      rfl (State.act.eq_def ..) fun z hz => ⟨setFlag_entries.trans_le (h.1.2.2.1.trans (by decide)), rfl⟩
    obtain ⟨hset, hrest, heq⟩ := setFlag_spec (r := r.next 1) f
    exact ⟨_, hrun, hset, hrest, heq⟩
  · exact h.runs_skipped hk (show (0x04 : Nat) ≠ opEND by decide) rfl (State.act.eq_def ..)

end Sys2Proof.Machine
end

section
/-!
PROOFS. Chapter 16, the fault log: what a record changes and what stands after it.
-/
namespace Sys2Proof.Machine

section Record
variable {s u a : State} {l : List Nat} {code ctx n : Nat} {f : Fld}

/-- A store to a field changes the register file alone. -/
theorem State.put_frame (s : State) (f : Fld) (n : Nat) : ∃ regs, s.put f n = { s with regs := regs } := ⟨_, rfl⟩

theorem State.raise_frame (s : State) (f : Fld) : ∃ regs same, s.raise f = { s with regs := regs, same := same } :=
  ⟨_, _, rfl⟩

theorem State.raiseMax_frame (s : State) (f : Fld) (n : Nat) :
    ∃ regs same, s.raiseMax f n = { s with regs := regs, same := same } := by
  unfold State.raiseMax State.putMax
  split <;> exact ⟨_, _, rfl⟩

/-- A record changes the register file and the journal's queue. -/
theorem State.record_frame (s : State) (code ctx : Nat) :
    ∃ regs jrn, s.record code ctx = { s with regs := regs, jrn := jrn } := by
  unfold State.record State.recordAt State.jrnQueue
  dsimp only
  split
  · exact ⟨_, _, rfl⟩
  · exact ⟨_, _, rfl⟩

/-- A write of a stamp. -/
theorem regsBut_putStamp {a0 a1 : Nat} (h0 : a0 ∈ l) (h1 : a1 ∈ l) : RegsBut l a (s.putStamp a0 a1 n) ↔ RegsBut l a s := by
  unfold State.putStamp
  rw [regsBut_put h1, regsBut_wr h0]

theorem regsBut_bumpSat (hf : f.addr ∈ l) : RegsBut l a (s.bumpSat f) ↔ RegsBut l a s := regsBut_put hf

theorem regsBut_evtLast {r : FaultRec} (h : evtWords ⊆ l) : RegsBut l a (s.evtLast r) ↔ RegsBut l a s := by
  unfold State.evtLast
  rw [regsBut_putStamp (h (by decide)) (h (by decide)), regsBut_wr (h (by decide)), regsBut_wr (h (by decide))]

theorem regsBut_jrnQueue {r : FaultRec} (h : evtWords ⊆ l) : RegsBut l a (s.jrnQueue r) ↔ RegsBut l a s := by
  unfold State.jrnQueue
  split
  · rw [regsBut_put (h (by decide)), regsBut_modJrn]
  · exact regsBut_bumpSat (h (by decide))

@[simp] theorem regsBut_record (h : evtWords ⊆ l) : RegsBut l a (s.record code ctx) ↔ RegsBut l a s := by
  unfold State.record State.recordAt
  rw [regsBut_jrnQueue h, regsBut_evtLast h]

/-- A field outside the words of the log is as it was. -/
theorem State.get_record (h : f.addr ∉ evtWords) : (s.record code ctx).get f = s.get f :=
  RegsBut.get ((regsBut_record (fun _ h => h)).mpr RegsBut.refl) h

/-- What was recorded last. -/
theorem State.newestFault_record : NewestFault (s.record code ctx) code ctx := by
  have hqueue (x : State) (r : FaultRec) : RegsBut [A.EVT_LOGSTAT, A.EVT_LOGCNT] x (x.jrnQueue r) := by
    unfold State.jrnQueue
    split
    · rw [regsBut_put (by decide), regsBut_modJrn]; exact RegsBut.refl
    · exact (regsBut_bumpSat (by decide)).mpr RegsBut.refl
  unfold NewestFault State.record State.recordAt
  dsimp only
  rw [hqueue _ _ A.EVT_LAST (by decide), hqueue _ _ A.EVT_LASTCTX (by decide)]
  unfold State.evtLast State.putStamp
  dsimp only
  constructor
  · rw [State.rd_put_ne _ _ (by decide), State.rd_wr_ne _ _ (by decide), State.rd_wr_ne _ _ (by decide), State.rd_wr_same]
  · rw [State.rd_put_ne _ _ (by decide), State.rd_wr_ne _ _ (by decide), State.rd_wr_same]

/-- It stays the newest while the log is not written. -/
theorem NewestFault.regsBut (h : NewestFault s code ctx) (k : RegsBut l s u) (h1 : A.EVT_LAST ∉ l)
    (h2 : A.EVT_LASTCTX ∉ l) : NewestFault u code ctx := ⟨(k _ h1).trans h.1, (k _ h2).trans h.2⟩

end Record
end Sys2Proof.Machine
end

section
/-!
PROOFS. Chapter 09, the end of a run: what leaves the lane, and what a run that fails leaves behind.
-/
namespace Sys2Proof.Machine

section Ends
variable {s u x : State} {l : Fin 16} {r : RunSt} {code ctx : Nat} {k : Fin 36}

/-- Engine state and tables as they were. -/
def CeKept (s u : State) : Prop := u.ce = s.ce ∧ u.mem = s.mem ∧ u.upset = s.upset

namespace CeKept

theorem refl : CeKept s s := ⟨rfl, rfl, rfl⟩

theorem trans (h : CeKept s u) (k : CeKept u x) : CeKept s x :=
  ⟨k.1.trans h.1, k.2.1.trans h.2.1, k.2.2.trans h.2.2⟩

theorem put {f : Fld} {n : Nat} : CeKept s (s.put f n) := ⟨rfl, rfl, rfl⟩

theorem raise {f : Fld} : CeKept s (s.raise f) := ⟨rfl, rfl, rfl⟩

theorem raiseMax {f : Fld} {n : Nat} : CeKept s (s.raiseMax f n) := by
  obtain ⟨_, _, h⟩ := s.raiseMax_frame f n
  rw [h]; exact ⟨rfl, rfl, rfl⟩

theorem record : CeKept s (s.record code ctx) := by
  obtain ⟨_, _, h⟩ := s.record_frame code ctx
  rw [h]; exact ⟨rfl, rfl, rfl⟩

theorem ite {c : Prop} [Decidable c] (h : CeKept s u) (k : CeKept s x) : CeKept s (if c then u else x) := by
  split
  · exact h
  · exact k

end CeKept

/-- The lane is free, and keeps the accumulators of its run. -/
theorem State.freeLane_frees (h : s.ce.lanes[l] = some r) :
    (s.freeLane l).ce = { s.ce with lanes := s.ce.lanes.set l none, accs := s.ce.accs.set l r.accs }
      ∧ (s.freeLane l).mem = s.mem ∧ RegsBut [A.CE_STAT] s (s.freeLane l) := by
  unfold State.freeLane
  simp only [h]
  refine ⟨?_, ?_, ?_⟩
  · rw [State.put_ce]; rfl
  · rw [State.put_mem]; rfl
  · rw [regsBut_put (by decide)]; exact fun _ _ => rfl

theorem regsBut_noteUp {a : State} {w : List Nat} {up : TickUp} : RegsBut w a (s.noteUp up) ↔ RegsBut w a s := Iff.rfl

theorem regsBut_raiseMax {a : State} {w : List Nat} {f : Fld} {n : Nat} (hf : f.addr ∈ w) :
    RegsBut w a (s.raiseMax f n) ↔ RegsBut w a s := by
  unfold State.raiseMax State.putMax
  rw [regsBut_noteUp]
  split
  · exact regsBut_put hf
  · exact Iff.rfl

/-- The longest count of cycles, and what else counting changes. -/
theorem State.cycCount_counts (h : r.cycles < 2 ^ 32) :
    (s.cycCount r).get (F.CE_TCYC_MAXCYC r.task) = max (s.get (F.CE_TCYC_MAXCYC r.task)) r.cycles := by
  unfold State.cycCount
  dsimp only
  have hmax := State.get_raiseMax_same (s := s) (f := F.CE_TCYC_MAXCYC r.task) (v := r.cycles) (by simp [F.CE_TCYC_MAXCYC]) h
  split
  · rw [State.raise_get, State.get_put_word _ _ (by simp only [F.CE_TCYC_MAXCYC, F.CE_TSTAT_WCET_EXC, A.CE_TCYC, A.CE_TSTAT]; omega), hmax]
  · exact hmax

theorem State.cycCount_keeps : CeKept s (s.cycCount r)
    ∧ RegsBut [A.CE_TCYC r.task, A.CE_TSTAT r.task] s (s.cycCount r) := by
  unfold State.cycCount
  refine ⟨(CeKept.raiseMax.trans CeKept.raise).ite CeKept.raiseMax, ?_⟩
  dsimp only
  split
  · rw [regsBut_raise (by simp [F.CE_TSTAT_WCET_EXC]), regsBut_raiseMax (by simp [F.CE_TCYC_MAXCYC])]; exact RegsBut.refl
  · rw [regsBut_raiseMax (by simp [F.CE_TCYC_MAXCYC])]; exact RegsBut.refl

/-- A background task halts no team and has no group behind it. -/
theorem State.consecUp_background (h : 32 ≤ k.val) :
    s.consecUp k code = s.put (F.CE_TSTAT_CONSEC k) (min 255 (s.get (F.CE_TSTAT_CONSEC k) + 1)) := by
  have hteam : taskTeam k = none := dif_neg (by omega)
  have hgroup : taskGroup k = none := by rw [taskGroup, if_pos (by omega)]; exact dif_neg (by omega)
  unfold State.consecUp
  simp only [State.limitOf, hteam, hgroup]

theorem State.groupNext_background (h : 32 ≤ k.val) : s.groupNext k = s := by
  have hgroup : taskGroup k = none := by rw [taskGroup, if_pos (by omega)]; exact dif_neg (by omega)
  simp only [State.groupNext, hgroup]

/-- The words of a task's status and counts. -/
def taskWords (k : Nat) : List Nat := [A.CE_TSTAT k, A.CE_TDISC k, A.CE_TCYC k]

theorem taskWords_apart : ∀ k : Fin 36, A.CE_TSTAT k ∉ evtWords ∧ A.CE_TDISC k ∉ evtWords ∧ A.CE_TCYC k ∉ evtWords
    ∧ A.CE_STAT ∉ taskWords k ∧ A.CE_ECCADDR ∉ taskWords k ∧ A.EVT_LAST ∉ taskWords k ∧ A.EVT_LASTCTX ∉ taskWords k
    ∧ A.CE_TDISC k ≠ A.CE_STAT ∧ A.CE_LOAD ∉ taskWords k := by
  decide +kernel

/-- A run that fails a check, of a background task: it leaves its lane, is recorded, and counted (R254). -/
structure RunFailed (s u : State) (l : Fin 16) (r : RunSt) (code ctx : Nat) : Prop where
  lane : u.ce.lanes[l] = none
  accs : ∀ p, s.ce.lanes[l] = some p → u.ce.accs[l] = p.accs
  count : u.get (F.CE_TDISC_DISCNT r.task)
    = (s.get (F.CE_TDISC_DISCNT r.task) + 1) % 2 ^ (F.CE_TDISC_DISCNT 0).width
  stopped : u.get (F.CE_TSTAT_RUNNING r.task) = 0
  newest : NewestFault u code ctx
  mem : u.mem = s.mem
  regs : RegsBut (A.CE_STAT :: evtWords ++ taskWords r.task) s u

/-- The counts of a run that failed, in the state that has recorded it. -/
def State.failCounted (s : State) (r : RunSt) : State :=
  (((s.bump (F.CE_TDISC_DISCNT r.task)).cycCount r).putB (F.CE_TSTAT_RUNNING r.task) false)

theorem State.failCounted_keeps : CeKept s (s.failCounted r) ∧ RegsBut (taskWords r.task) s (s.failCounted r) := by
  obtain ⟨hkept, hregs⟩ := (s.bump (F.CE_TDISC_DISCNT r.task)).cycCount_keeps (r := r)
  refine ⟨(CeKept.put.trans hkept).trans CeKept.put, ?_⟩
  unfold State.failCounted
  rw [State.putB_eq, regsBut_put (by simp [F.CE_TSTAT_RUNNING, taskWords])]
  refine RegsBut.trans ?_ (hregs.mono (by simp [taskWords]))
  rw [State.bump_eq, regsBut_put (by simp [F.CE_TDISC_DISCNT, taskWords])]
  exact RegsBut.refl

theorem State.failCounted_gets :
    (s.failCounted r).get (F.CE_TDISC_DISCNT r.task)
        = (s.get (F.CE_TDISC_DISCNT r.task) + 1) % 2 ^ (F.CE_TDISC_DISCNT 0).width
      ∧ (s.failCounted r).get (F.CE_TSTAT_RUNNING r.task) = 0 := by
  obtain ⟨-, hregs⟩ := (s.bump (F.CE_TDISC_DISCNT r.task)).cycCount_keeps (r := r)
  unfold State.failCounted
  constructor
  · rw [State.putB_eq, State.get_put_word _ _ (by simp only [F.CE_TDISC_DISCNT, F.CE_TSTAT_RUNNING, A.CE_TDISC, A.CE_TSTAT]; omega),
      hregs.get (by simp only [F.CE_TDISC_DISCNT, A.CE_TDISC, A.CE_TSTAT, A.CE_TCYC, List.mem_cons, List.not_mem_nil, or_false]; omega),
      State.bump_eq, State.get_put_same _ _ (by simp [F.CE_TDISC_DISCNT])]
    rfl
  · rw [State.putB_eq, State.get_put_same _ _ (by simp [F.CE_TSTAT_RUNNING])]; rfl

/-- Leaving a background task's run counted changes its words of status alone. -/
theorem State.runFail_background {p : RunSt} (h : s.ce.lanes[l] = some p) (hk : 32 ≤ r.task.val) :
    RunFailed s (s.runFail l r code ctx) l r code ctx := by
  obtain ⟨hevt1, hevt2, hevt3, hstat, hecc, hlast, hctx, hne, -⟩ := taskWords_apart r.task
  have hfail : s.runFail l r code ctx = (((s.freeLane l).record code ctx).failCounted r).put (F.CE_TSTAT_CONSEC r.task)
      (min 255 ((((s.freeLane l).record code ctx).failCounted r).get (F.CE_TSTAT_CONSEC r.task) + 1)) := by
    unfold State.runFail
    dsimp only
    rw [State.groupNext_background hk, State.consecUp_background hk]
    rfl
  rw [hfail]
  obtain ⟨hce, hmem, hfree⟩ := State.freeLane_frees h
  generalize s.freeLane l = x1 at *
  have hnew := State.newestFault_record (s := x1) (code := code) (ctx := ctx)
  have hrec : RegsBut evtWords x1 (x1.record code ctx) := by simp
  have hkept := CeKept.record (s := x1) (code := code) (ctx := ctx)
  generalize x1.record code ctx = x2 at *
  obtain ⟨hkept3, hregs3⟩ := State.failCounted_keeps (s := x2) (r := r)
  obtain ⟨hcount, hrun⟩ := State.failCounted_gets (s := x2) (r := r)
  generalize x2.failCounted r = x3 at *
  obtain ⟨hce3, hmem3, -⟩ := (hkept.trans hkept3).trans
    (CeKept.put (f := F.CE_TSTAT_CONSEC r.task) (n := min 255 (x3.get (F.CE_TSTAT_CONSEC r.task) + 1)))
  have hlast3 : RegsBut (taskWords r.task) x2
      (x3.put (F.CE_TSTAT_CONSEC r.task) (min 255 (x3.get (F.CE_TSTAT_CONSEC r.task) + 1))) := by
    rw [regsBut_put (by simp [F.CE_TSTAT_CONSEC, taskWords])]; exact hregs3
  have hcount' : x2.get (F.CE_TDISC_DISCNT r.task) = s.get (F.CE_TDISC_DISCNT r.task) :=
    (hrec.get hevt2).trans (hfree.get (by simpa [F.CE_TDISC_DISCNT] using hne))
  refine ⟨?_, ?_, ?_, ?_, hnew.regsBut hlast3 hlast hctx, hmem3.trans hmem, ?_⟩
  · rw [hce3, hce]; exact Vector.getElem_set_self ..
  · intro p' hp'
    obtain rfl := Option.some.inj (h.symm.trans hp')
    rw [hce3, hce]; exact Vector.getElem_set_self ..
  · rw [State.get_put_word _ _ (by simp only [F.CE_TDISC_DISCNT, F.CE_TSTAT_CONSEC, A.CE_TDISC, A.CE_TSTAT]; omega), hcount, hcount']
  · rw [State.get_put_bits _ _ (by simp [F.CE_TSTAT_CONSEC]) (by simp [F.CE_TSTAT_CONSEC, F.CE_TSTAT_RUNNING]), hrun]
  · exact ((hfree.mono (by simp)).trans (hrec.mono (by simp))).trans (hlast3.mono (by simp))

/-! What discards a run: a word that is not an operation, one that cannot be corrected, and a check. -/

theorem LoadFrame.tagFree (h : LoadFrame s x) : x.tagFree = s.tagFree := by
  rw [State.tagFree, h.rest, State.tagFree]

theorem RunFailed.of_load {q : RunSt} (h : RunFailed x u l q code ctx) (hx : LoadFrame s x) (htask : q.task = r.task)
    (h0 : s.ce.lanes[l] = some r) :
    u.ce.lanes[l] = none ∧ u.ce.accs[l] = r.accs
      ∧ u.get (F.CE_TDISC_DISCNT r.task) = (s.get (F.CE_TDISC_DISCNT r.task) + 1) % 2 ^ (F.CE_TDISC_DISCNT 0).width
      ∧ u.get (F.CE_TSTAT_RUNNING r.task) = 0 ∧ NewestFault u code ctx ∧ u.mem = s.mem := by
  obtain ⟨hlane, hacc, hcount, hrun, hnew, hmem, -⟩ := h
  obtain ⟨-, -, -, -, -, -, -, -, hload⟩ := taskWords_apart r.task
  rw [htask] at hcount hrun
  refine ⟨hlane, hacc r (by rw [hx.lanes]; exact h0), ?_, hrun, hnew, hmem.trans hx.mem⟩
  rw [hcount, hx.regs.get]
  intro hmem
  rw [List.mem_singleton] at hmem
  exact hload (by simp [taskWords, ← hmem, F.CE_TDISC_DISCNT])

theorem eccCtx_program {i : Nat} : eccCtx .program (i % 16384) = i % 16384 := by
  simp only [eccCtx, memCode]; omega

theorem State.dedFail_program {q : RunSt} {i : Nat} :
    s.dedFail l q (.program, i) = (s.eccDed .program i).runFail l q 0x0602 (eccCtx .program i) := rfl

/-- An uncorrectable word of the program is counted, and its address shown. -/
theorem State.eccDed_program {i : Nat} : CeKept s (s.eccDed .program (i % 16384))
    ∧ (s.eccDed .program (i % 16384)).rd A.CE_ECCADDR = BitVec.ofNat 32 (i % 16384) := by
  unfold State.eccDed
  exact ⟨⟨rfl, rfl, rfl⟩, by rw [State.rd_wr_same, eccCtx_program]⟩

theorem State.ceOp_illegal {o : Op} {body : State → RunSt → State × RunSt} (hlane : s.ce.lanes[l] = some r)
    (hended : r.ended = none) (hclean : ∀ k ∈ State.fetchKeys r, s.upsetAt k = none)
    (hword : opLegal (s.memGet (K.prog (r.pc % 16384))) = false) :
    s.ceOp l o .ok body = s.runFail l r (fcode cRESIDUE 3) r.task := by
  have hfetch : s.eccReads (State.fetchKeys r) = (none, s) := State.eccReads_clean hclean
  simp only [State.ceOp, State.strike, hlane, hended, hfetch, hword, Option.isSome_none, Bool.false_eq_true, if_false,
    Bool.not_false, if_true, ite_self]

theorem State.ceOp_uncorrectable {o : Op} {body : State → RunSt → State × RunSt} (hlane : s.ce.lanes[l] = some r)
    (hended : r.ended = none) (hcyc : 0 < r.cycles) (hpc : r.pc ≠ s.pStart r.task + s.pLen r.task)
    (hword : s.upsetAt (K.prog (r.pc % 16384)) = some true) :
    s.ceOp l o .ok body = (s.busyAdd l 1).dedFail l (r.next 1) (.program, r.pc % 16384) := by
  have hkey : keyWord (K.prog (r.pc % 16384)) = some (.program, r.pc % 16384) := by
    have hlt := Nat.mod_lt r.pc (show 0 < 16384 by decide)
    have hfind : allMems.find? (fun m => decide (memKey m 0 ≤ K.prog (r.pc % 16384) ∧ K.prog (r.pc % 16384) < memKey m (memSize m)))
        = some .program := by
      refine List.find?_cons_of_pos (decide_eq_true ⟨?_, ?_⟩)
      · simp only [memKey, memCode, K.prog]; omega
      · simp only [memKey, memCode, memSize, K.prog]; omega
    rw [keyWord, hfind, Option.map_some]
    simp only [memKey, memCode, K.prog, Nat.add_zero, Nat.zero_add, Option.some.injEq, Prod.mk.injEq, true_and]
    omega
  have hfetch : s.eccReads (State.fetchKeys r) = (some (.program, r.pc % 16384), s) := by
    have hkeys : State.fetchKeys r = [K.prog (r.pc % 16384)] := by
      rw [State.fetchKeys, if_neg hcyc.ne']; rfl
    have hread : s.eccRead (K.prog (r.pc % 16384)) = (some (.program, r.pc % 16384), s) := by
      simp only [State.eccRead, hword, hkey]
    rw [hkeys, State.eccReads, hread]
  simp only [State.ceOp, State.strike, hlane, hended, hpc, hfetch, Option.isSome_none, Bool.false_eq_true, if_false]

theorem State.ceOp_check {o : Op} {body : State → RunSt → State × RunSt} {chk : Chk} {code : Nat} (h : CeAt s l r o)
    (hchk : (chk = .mac ∧ code = fcode cRESIDUE 1) ∨ (chk = .func ∧ code = fcode cRESIDUE 2)) :
    s.ceOp l o chk body = (s.busyAdd l (opCycles o.opc)).runFail l (r.next (opCycles o.opc)) code r.task := by
  obtain ⟨⟨hlane, hended, -, hclean, hpc, hword, hlegal⟩, hskip⟩ := h
  have hfetch : s.eccReads (State.fetchKeys r) = (none, s) := State.eccReads_clean fun k hk => hclean k (by simp [hk])
  have hread : (s.busyAdd l (opCycles o.opc)).eccReads (s.opReads r o) = (none, s.busyAdd l (opCycles o.opc)) :=
    State.eccReads_clean fun k hk => (LoadFrame.busyAdd.upsetAt k).trans (hclean k (by simp [hk]))
  rcases hchk with ⟨rfl, rfl⟩ | ⟨rfl, rfl⟩ <;>
    simp only [State.ceOp, State.strike, hlane, hended, hpc, hfetch, hword, hlegal, hskip, hread, Option.isSome_none,
      Bool.false_eq_true, if_false, Bool.not_true, ne_eq, not_true_eq_false, lt_self_iff_false, false_and]

end Ends

theorem runChecks : Part.RunChecks := by
  unfold Part.RunChecks
  intro s l r a x hk
  dsimp only
  refine ⟨fun hlane hended hclean hword => ?_, fun hlane hended hcyc hpc hword => ?_, fun h => ⟨?_, ?_⟩⟩
  · refine ⟨_, exec_untimed rfl, ?_⟩
    have hact : s.act (.ceAdd l a x .ok) = s.runFail l r (fcode cRESIDUE 3) r.task :=
      (State.act.eq_def ..).trans (State.ceOp_illegal hlane hended hclean hword)
    rw [hact]
    exact (State.runFail_background hlane hk).of_load LoadFrame.refl rfl hlane
  · refine ⟨_, exec_untimed rfl, ?_⟩
    have hact : s.act (.ceAdd l a x .ok) = (s.busyAdd l 1).dedFail l (r.next 1) (.program, r.pc % 16384) :=
      (State.act.eq_def ..).trans (State.ceOp_uncorrectable hlane hended hcyc hpc hword)
    rw [hact]
    have hframe := LoadFrame.busyAdd (s := s) (l := l) (n := 1)
    have hlane1 : (s.busyAdd l 1).ce.lanes[l] = some r := by rw [hframe.lanes]; exact hlane
    generalize s.busyAdd l 1 = x1 at *
    obtain ⟨hkept, haddr⟩ := State.eccDed_program (s := x1) (i := r.pc)
    have hfail := State.runFail_background (s := x1.eccDed .program (r.pc % 16384)) (r := r.next 1) (code := 0x0602)
      (ctx := eccCtx .program (r.pc % 16384)) (by rw [hkept.1]; exact hlane1) hk
    rw [State.dedFail_program]
    generalize (x1.eccDed .program (r.pc % 16384)).runFail l (r.next 1) 0x0602 (eccCtx .program (r.pc % 16384)) = u at *
    obtain ⟨hlane2, -, -, hrun, hnew, hmem, hregs⟩ := hfail
    obtain ⟨-, -, -, -, hecc, -⟩ := taskWords_apart r.task
    rw [eccCtx_program] at hnew
    refine ⟨hlane2, hrun, hnew, ?_, hmem.trans (hkept.2.1.trans hframe.mem)⟩
    rw [hregs _ ?_, haddr]
    simp only [List.cons_append, List.mem_cons, List.mem_append, not_or]
    exact ⟨by decide, by decide, hecc⟩
  · have hact : s.act (.ceAdd l a x .mac) = (s.busyAdd l 1).runFail l (r.next 1) (fcode cRESIDUE 1) r.task :=
      (State.act.eq_def ..).trans (State.ceOp_check h (.inl ⟨rfl, rfl⟩))
    rw [exec_untimed rfl, hact]
    have hframe := LoadFrame.busyAdd (s := s) (l := l) (n := 1)
    have hlane : (s.busyAdd l 1).ce.lanes[l] = some r := by rw [hframe.lanes]; exact h.1.1
    have hfail := State.runFail_background (r := r.next 1) (code := fcode cRESIDUE 1) (ctx := r.task) hlane hk
    generalize (s.busyAdd l 1).runFail l (r.next 1) (fcode cRESIDUE 1) r.task = u at *
    exact ⟨u, rfl, hfail.of_load hframe rfl h.1.1⟩
  · have hact : s.act (.ceAdd l a x .func) = (s.busyAdd l 1).runFail l (r.next 1) (fcode cRESIDUE 2) r.task :=
      (State.act.eq_def ..).trans (State.ceOp_check h (.inr ⟨rfl, rfl⟩))
    rw [exec_untimed rfl, hact]
    have hframe := LoadFrame.busyAdd (s := s) (l := l) (n := 1)
    have hlane : (s.busyAdd l 1).ce.lanes[l] = some r := by rw [hframe.lanes]; exact h.1.1
    have hfail := State.runFail_background (r := r.next 1) (code := fcode cRESIDUE 2) (ctx := r.task) hlane hk
    generalize (s.busyAdd l 1).runFail l (r.next 1) (fcode cRESIDUE 2) r.task = u at *
    exact ⟨u, rfl, hfail.of_load hframe rfl h.1.1⟩


/-! ## END -/

section EndOp
variable {s x : State} {l : Fin 16} {r : RunSt}

/-- The run that has ended on its lane. -/
def RunSt.over (r : RunSt) (now : Tick) : RunSt :=
  { r with pc := r.pc + 1, cycles := r.cycles + 1, skip := 0, ended := some now }

/-- It stands on its lane. -/
def State.overOn (s : State) (l : Fin 16) (r : RunSt) : State :=
  (s.busyAdd l 1).modCe (fun e => { e with lanes := e.lanes.set l (some (r.over s.now)) })

/-- It leaves its lane and waits for its commit. -/
def State.overOff (s : State) (l : Fin 16) (r : RunSt) : State :=
  ((s.overOn l r).freeLane l).modCe (fun c => { c with ended := c.ended ++ [r.over s.now] })

theorem State.ceEnd_stands (h : CeAt s l r ⟨0x01, 0, 0, 0, 0⟩) : s.ceEnd l ⟨0x01, 0, 0, 0, 0⟩ .ok
    = (if (s.overOn l r).mayIssue (.commit r.task) then s.overOff l r else s.overOn l r).cycCount (r.over s.now) := by
  have hlane : s.ce.lanes[l] = some r := h.1.1
  have hended : r.ended = none := h.1.2.1
  have hroom : r.entries ≤ 508 := h.1.2.2.1
  have hnow : (s.busyAdd l 1).now = s.now := by rw [LoadFrame.busyAdd.rest]
  have hop : s.ceOp l ⟨0x01, 0, 0, 0, 0⟩ .ok (fun s r => (s, { r with skip := 0, ended := some s.now }))
      = s.overOn l r := by
    rw [State.ceOp_stands h]
    dsimp only
    rw [show opCycles 0x01 = 1 from rfl, hnow]
    exact State.runPut_room (q := r.over s.now) (hroom.trans (by decide))
  have hover : (s.overOn l r).ce.lanes[l] = some (r.over s.now) := Vector.getElem_set_self ..
  unfold State.ceEnd
  rw [hop]
  simp only [hlane, hover, hended, RunSt.over, Option.isSome_none, Option.isNone_some, Bool.or_self, Bool.false_eq_true,
    if_false]
  rfl

/-- What stands on the other lanes. -/
theorem State.overOn_ce : (s.overOn l r).ce.lanes = s.ce.lanes.set l (some (r.over s.now))
    ∧ (s.overOn l r).ce.ended = s.ce.ended ∧ (s.overOn l r).mem = s.mem ∧ RegsBut [A.CE_LOAD] s (s.overOn l r) := by
  have hframe := LoadFrame.busyAdd (s := s) (l := l) (n := 1)
  have hended : (s.busyAdd l 1).ce.ended = s.ce.ended := by rw [hframe.rest]
  refine ⟨?_, hended, hframe.mem, fun b hb => hframe.regs b hb⟩
  rw [← hframe.lanes]; rfl

theorem State.overOff_ce : (s.overOff l r).ce.lanes = s.ce.lanes.set l none
    ∧ (s.overOff l r).ce.accs[l] = r.accs ∧ (s.overOff l r).ce.ended = s.ce.ended ++ [r.over s.now]
    ∧ (s.overOff l r).mem = s.mem ∧ RegsBut [A.CE_LOAD, A.CE_STAT] s (s.overOff l r) := by
  obtain ⟨hlanes, hended, hmem, hregs⟩ := s.overOn_ce (l := l) (r := r)
  have hover : (s.overOn l r).ce.lanes[l] = some (r.over s.now) := by rw [hlanes]; exact Vector.getElem_set_self ..
  obtain ⟨hce, hmem', hregs'⟩ := State.freeLane_frees hover
  have hcut : (s.overOff l r).ce = { ((s.overOn l r).freeLane l).ce with
      ended := ((s.overOn l r).freeLane l).ce.ended ++ [r.over s.now] } := rfl
  rw [hcut, hce, hlanes, hended]
  refine ⟨?_, Vector.getElem_set_self .., rfl, hmem'.trans hmem, (hregs.mono (by simp)).trans (hregs'.mono (by simp))⟩
  ext i hi
  simp only [Vector.getElem_set]
  split <;> rfl

theorem State.overOn_mayIssue {k : Stall} : (s.tagFree = true → s.stalled = [] → (s.overOn l r).mayIssue k = true)
    ∧ (s.tagFree = false → (s.overOn l r).mayIssue k = false) := by
  have hframe := LoadFrame.busyAdd (s := s) (l := l) (n := 1)
  have htag : (s.overOn l r).tagFree = s.tagFree := hframe.tagFree
  have hstall : (s.overOn l r).stalled = s.stalled := by
    have : (s.busyAdd l 1).stalled = s.stalled := by rw [hframe.rest]
    exact this
  rw [State.mayIssue, htag, hstall]
  exact ⟨fun h1 h2 => by rw [h1, h2]; rfl, fun h1 => by rw [h1]; rfl⟩

end EndOp

theorem runEnds : Part.RunEnds := by
  unfold Part.RunEnds
  intro s l r h hcyc
  dsimp only
  obtain ⟨hlanes1, hended1, hmem1, hregs1⟩ := s.overOn_ce (l := l) (r := r)
  obtain ⟨hlanes2, haccs2, hended2, hmem2, hregs2⟩ := s.overOff_ce (l := l) (r := r)
  obtain ⟨hmay, hwait⟩ := s.overOn_mayIssue (l := l) (r := r) (k := .commit r.task)
  have hact : s.act (.ceEnd l .ok) = _ := (State.act.eq_def ..).trans (State.ceEnd_stands h)
  rw [exec_untimed rfl, hact]
  have hcount (x : State) (hx : RegsBut [A.CE_LOAD, A.CE_STAT] s x) :
      (x.cycCount (r.over s.now)).get (F.CE_TCYC_MAXCYC r.task) = max (s.get (F.CE_TCYC_MAXCYC r.task)) (r.cycles + 1) := by
    rw [← hx.get (g := F.CE_TCYC_MAXCYC r.task) (by
      simp only [F.CE_TCYC_MAXCYC, A.CE_TCYC, A.CE_LOAD, A.CE_STAT, List.mem_cons, List.not_mem_nil, or_false]; omega)]
    exact State.cycCount_counts (r := r.over s.now) hcyc
  have hkept (x : State) : CeKept x (x.cycCount (r.over s.now)) := State.cycCount_keeps.1
  have hother (v : Option RunSt) (k : Fin 16) (hk : k ≠ l) : (s.ce.lanes.set l v)[k] = s.ce.lanes[k] :=
    Vector.getElem_set_ne l.isLt k.isLt (Fin.val_ne_of_ne hk.symm)
  cases hm : (s.overOn l r).mayIssue (.commit r.task) with
  | true =>
    rw [if_pos rfl]
    obtain ⟨hce, hmem, -⟩ := hkept (s.overOff l r)
    refine ⟨_, rfl, fun _ _ => ⟨?_, ?_, ?_⟩, fun hno => ?_, hcount _ hregs2, fun k hk => ?_, hmem.trans hmem2⟩
    · rw [hce, hlanes2]; exact Vector.getElem_set_self ..
    · rw [hce, haccs2]
    · rw [hce, hended2]; rfl
    · rw [hwait hno] at hm; cases hm
    · rw [hce, hlanes2, hother none k hk]
  | false =>
    rw [if_neg (by decide)]
    obtain ⟨hce, hmem, -⟩ := hkept (s.overOn l r)
    refine ⟨_, rfl, fun h1 h2 => ?_, fun _ => ⟨?_, ?_⟩, hcount _ (hregs1.mono (by simp)), fun k hk => ?_, hmem.trans hmem1⟩
    · rw [hmay h1 h2] at hm; cases hm
    · rw [hce, hlanes1]; exact Vector.getElem_set_self ..
    · rw [hce, hended1]
    · rw [hce, hlanes1, hother _ k hk]

/-- Settles O24: END leaves the lane where a general tag is free, and whatever discards a background task's run frees its
lane, records the fault and counts it. -/
theorem engineRunEnds : Obligations.EngineRunEnds := ⟨runEnds, runChecks⟩

end Sys2Proof.Machine
end

section
/-!
PROOFS. Chapter 02, second pulses and the calibration of the delay lines.
-/
namespace Sys2Proof.Machine

section Pulses
variable {s a : State} {n : Nat}

theorem State.bit_iff (f : Fld) : s.bit f = true ↔ s.get f ≠ 0 := by simp [State.bit]

/-- The whole second that falls in this tick. -/
theorem State.secInTick_spec {x : Nat} (h : s.secInTick = some x) : x % secFine = 0 ∧ s.tim.dev ≤ x ∧ x < s.tim.dev + 256 := by
  unfold State.secInTick at h
  dsimp only at h
  split at h
  · next hle =>
    obtain rfl := Option.some.inj h
    refine ⟨Nat.mul_mod_left .., hle, ?_⟩
    have := Nat.div_mul_le_self (s.tim.dev + 255) secFine
    omega
  · cases h

/-- The three words of a stamped edge. -/
theorem State.ppsIn_stamps (h : 361 ∉ s.tim.deadLines) (fine : Nat) :
    (s.ppsIn fine).rd A.TIM_PPSIN0 = BitVec.ofNat 32 (s.stampOf (s.inst fine))
      ∧ (s.ppsIn fine).rd A.TIM_PPSIN1 = BitVec.ofNat 32 (s.stampOf (s.inst fine) / 2 ^ 32)
      ∧ (s.ppsIn fine).rd A.TIM_PPSIN2 = BitVec.ofNat 32 (s.stampOf (s.inst fine) / 2 ^ 64 % 256)
      ∧ RegsBut [A.TIM_PPSIN0, A.TIM_PPSIN1, A.TIM_PPSIN2] s (s.ppsIn fine) := by
  unfold State.ppsIn
  rw [if_neg (by simpa using h)]
  dsimp only
  refine ⟨?_, ?_, State.rd_wr_same .., ?_⟩
  · rw [State.rd_wr_ne _ _ (by decide), State.rd_wr_ne _ _ (by decide), State.rd_wr_same]
  · rw [State.rd_wr_ne _ _ (by decide), State.rd_wr_same]
  · rw [regsBut_wr (by decide), regsBut_wr (by decide), regsBut_wr (by decide)]; exact RegsBut.refl

theorem State.rateSet_regsBut (v : Int) : RegsBut [A.TIM_RATE, A.TIM_STAT] s (s.rateSet v) := by
  unfold State.rateSet
  dsimp only
  split
  · rw [regsBut_wr (by decide)]; exact RegsBut.refl
  · rw [regsBut_raise (by decide), regsBut_wr (by decide)]; exact RegsBut.refl

theorem State.slewSet_regsBut (v : Int) : RegsBut [A.TIM_STAT] s (s.slewSet v) := by
  unfold State.slewSet
  rw [State.putB_eq, regsBut_put (by decide), regsBut_modTim]; exact RegsBut.refl

/-- The time loop that a second pulse drives changes the rate and the slew. -/
theorem State.ppsLoop_regsBut (fine : Nat) : RegsBut [A.TIM_RATE, A.TIM_STAT] s (s.ppsLoop fine) := by
  unfold State.ppsLoop
  split
  · dsimp only
    unfold State.loopUpdate State.loopRate
    refine RegsBut.trans (RegsBut.trans ?_ (State.rateSet_regsBut _)) ((State.slewSet_regsBut _).mono (by simp))
    exact fun _ _ => rfl
  · exact RegsBut.refl

end Pulses

theorem ppsPulses : Part.PpsPulses := by
  unfold Part.PpsPulses
  intro s t fine
  dsimp only
  intro hclk
  refine ⟨fun x hx hlock hen hdead => ?_, fun hpps hend hdead hturn => ?_, fun hdead hturn => ?_⟩
  · obtain ⟨hmod, hlo, hhi⟩ := State.secInTick_spec hx
    refine ⟨hmod, hlo, hhi, fun hturn => ⟨_, exec_at rfl (State.act.eq_def ..) hclk hturn, ?_⟩⟩
    have hopen : (s.advance t).load.locked ∧ (s.advance t).bit F.TIM_CTL_PPSO_EN
        ∧ !(s.advance t).tim.deadLines.contains 360 := ⟨hlock, (State.bit_iff _).mpr hen, by simpa using hdead⟩
    simp only [State.ppsRise, hx, if_pos hopen]
    rfl
  · refine ⟨_, exec_at rfl (State.act.eq_def ..) hclk hturn, ?_⟩
    exact if_pos ⟨hpps, hend, by simpa using hdead⟩
  · refine ⟨_, exec_at rfl (State.act.eq_def ..) hclk hturn, ?_⟩
    generalize s.advance t = a at *
    obtain ⟨h0, h1, h2, hregs⟩ := State.ppsIn_stamps hdead fine.val
    have hinst : a.inst fine = a.nowF + fine := by rw [State.inst, Nat.mod_eq_of_lt fine.isLt]
    have hloop := State.ppsLoop_regsBut (s := a.ppsIn fine) fine.val
    rw [hinst] at h0 h1 h2
    exact ⟨(hloop _ (by decide)).trans h0, (hloop _ (by decide)).trans h1, (hloop _ (by decide)).trans h2,
      (hregs.mono (by simp)).trans (hloop.mono (by simp))⟩

section Calibration
variable {s : State} {table : List Int} {line : Nat}

/-- The table that a line takes replaces its own and leaves the others. -/
theorem tables_set (l : List (Nat × List Int)) : (line, table) ∈ l.filter (fun p => p.1 != line) ++ [(line, table)]
    ∧ ∀ k x, k ≠ line → ((k, x) ∈ l.filter (fun p => p.1 != line) ++ [(line, table)] ↔ (k, x) ∈ l) := by
  constructor
  · simp
  · intro k x hk
    simp [hk]

/-- The end of a round changes the register file and the time block's own state. -/
theorem State.roundEnd_frame (x : TimSt) (f g h : Fld) (i j k : Nat) (mt : TimSt → TimSt) :
    (((({ s with tim := x }.put f i).put g j).modTim mt).put h k)
      = { s with regs := (((({ s with tim := x }.put f i).put g j).modTim mt).put h k).regs,
                 same := (((({ s with tim := x }.put f i).put g j).modTim mt).put h k).same,
                 tim := (((({ s with tim := x }.put f i).put g j).modTim mt).put h k).tim } := rfl

/-- What a calibration step does to the line that it reaches. -/
theorem State.calStep_spec (hen : s.bit F.DLC_CTL_EN = true) (hdll : s.tim.dllAt ≠ 0) (hcal : s.tim.calAt + 80000 ≤ s.now)
    (hline : s.get F.DLC_STAT_LINE < 362) :
    (s.calStep table).tim.tables = s.tim.tables.filter (fun p => p.1 != s.get F.DLC_STAT_LINE) ++ [(s.get F.DLC_STAT_LINE, table)]
      ∧ (s.calStep table).tim.calAt = s.now
      ∧ (s.calStep table).get F.DLC_STAT_LINE = (s.get F.DLC_STAT_LINE + 1) % 362
      ∧ (s.get F.DLC_STAT_LINE = 361 → (s.calStep table).get F.IDG_WARMSTAT_DLC = 1)
      ∧ RegsBut [A.DLC_STAT, A.IDG_WARMSTAT] s (s.calStep table)
      ∧ s.calStep table = { s with regs := (s.calStep table).regs, same := (s.calStep table).same, tim := (s.calStep table).tim } := by
  unfold State.calStep
  rw [if_pos ⟨hen, hdll, hcal⟩]
  dsimp only
  generalize s.get F.DLC_STAT_LINE = line at *
  generalize hx : s.modTim (fun t => { t with
    calAt := s.now, tables := (t.tables.filter (fun p => p.1 != line)) ++ [(line, table)] }) = x
  have hregs : RegsBut [A.DLC_STAT, A.IDG_WARMSTAT] s x := hx ▸ (fun _ _ => rfl)
  have htab : x.tim.tables = s.tim.tables.filter (fun p => p.1 != line) ++ [(line, table)] := hx ▸ rfl
  have hcal' : x.tim.calAt = s.now := hx ▸ rfl
  have hrest : x = { s with tim := x.tim } := hx ▸ rfl
  split
  · next hlt =>
    refine ⟨?_, ?_, ?_, fun h => absurd h (by omega), by rw [regsBut_put (by decide)]; exact hregs, ?_⟩
    · rw [State.put_tim, htab]
    · rw [State.put_tim, hcal']
    · rw [State.get_put_same _ _ (by decide)]
      simp only [F.DLC_STAT_LINE]; omega
    · obtain ⟨_, hput⟩ := x.put_frame F.DLC_STAT_LINE (line + 1)
      rw [hput, hrest]
  · next hge =>
    obtain rfl : line = 361 := by omega
    rw [State.putB_eq, State.bump_eq]
    refine ⟨htab, hcal', ?_, fun _ => State.get_put_same _ _ (by decide), ?_, ?_⟩
    · rw [State.get_put_word _ _ (by decide), State.modTim_get, State.get_put_bits _ _ (by decide) (by decide),
        State.get_put_same _ _ (by decide)]
      rfl
    · rw [regsBut_put (by decide), regsBut_modTim, regsBut_put (by decide), regsBut_put (by decide)]; exact hregs
    · generalize (x.put F.DLC_STAT_LINE 0).get F.DLC_STAT_ROUNDS + 1 = n
      rw [hrest]
      exact State.roundEnd_frame ..

end Calibration

theorem calibrationRound : Part.CalibrationRound := by
  unfold Part.CalibrationRound
  intro s t table
  dsimp only
  intro hclk hen hdll hcal hline hturn
  refine ⟨_, exec_at rfl (State.act.eq_def ..) hclk hturn, ?_⟩
  generalize s.advance t = a at *
  obtain ⟨htab, hat, hnext, hwarm, hregs, hrest⟩ := State.calStep_spec (table := table) hen hdll hcal hline
  obtain ⟨hin, hother⟩ := tables_set (line := a.get F.DLC_STAT_LINE) (table := table) a.tim.tables
  rw [htab]
  exact ⟨hin, hother, hat, hnext, hwarm, hregs, hrest⟩

/-- Settles O5: the pulses and the stamp are the handlers' own, and a table that is filled replaces its line's alone. -/
theorem pulsesAndCalibration : Obligations.PulsesAndCalibration := ⟨ppsPulses, calibrationRound⟩

end Sys2Proof.Machine
end

section
/-!
PROOFS. Chapter 13: the release of ACT_OUT and what causes it.
-/
namespace Sys2Proof.Machine

/-! ## The emulation outputs follow a role -/

section Outs
variable {s u x : State} {m : Fin 2}

/-- Nothing but the outputs and the words below 0x92000 differs. -/
structure EmuKept (s u : State) : Prop where
  rd : ∀ b, 0x92000 ≤ b → u.rd b = s.rd b
  rest : u = { s with regs := u.regs, fbo := u.fbo }

namespace EmuKept

theorem refl : EmuKept s s := ⟨fun _ _ => rfl, rfl⟩

theorem trans (h : EmuKept s u) (k : EmuKept u x) : EmuKept s x :=
  ⟨fun b hb => (k.rd b hb).trans (h.rd b hb), by rw [k.rest, h.rest]⟩

theorem put {f : Fld} {n : Nat} (hf : f.addr < 0x92000) : EmuKept s (s.put f n) :=
  ⟨fun _ hb => State.rd_put_ne _ _ (by omega), rfl⟩

theorem wr {a : Nat} {w : Word} (ha : a < 0x92000) : EmuKept s (s.wr a w) :=
  ⟨fun _ hb => State.rd_wr_ne _ _ (by omega), rfl⟩

theorem modOut {f : OutSt → OutSt} : EmuKept s (s.modOut m f) := ⟨fun _ _ => rfl, rfl⟩

theorem outPins : EmuKept s (s.outPins m) := by
  have hlt : m.val < 2 := m.isLt
  unfold State.outPins
  dsimp only
  refine (((modOut.trans (put ?_)).trans (put ?_)).trans (put ?_)).trans (wr ?_)
  · simp only [F.FBO_STAT_DRIVEN, A.FBO_STAT]; omega
  · simp only [F.FBO_STAT_SYNTH, A.FBO_STAT]; omega
  · simp only [F.FBO_STAT_EST, A.FBO_STAT]; omega
  · simp only [A.FBO_OUTCNT]; omega

theorem outRefresh : EmuKept s (s.outRefresh m) := by
  have hlt : m.val < 2 := m.isLt
  have hcatch : (F.FBO_STAT_CATCH m).addr < 0x92000 := by simp only [F.FBO_STAT_CATCH, A.FBO_STAT]; omega
  unfold State.outRefresh
  dsimp only
  split
  · exact outPins
  · split
    · exact (modOut.trans (put hcatch)).trans outPins
    · exact ((put hcatch).trans modOut).trans outPins

theorem outsRefresh : EmuKept s s.outsRefresh := outRefresh.trans outRefresh

end EmuKept
end Outs

/-! ## A role given up -/

section Role
variable {s u : State} {v cause : Nat}

/-- The yoke's state and words, beside those of a list, are as they were. -/
structure YokKept (l : List Nat) (s u : State) : Prop where
  yok : u.yok = s.yok
  rd : ∀ b, 0xF0000 ≤ b → b < 0x100000 → b ∉ l → u.rd b = s.rd b

namespace YokKept
variable {l : List Nat} {x : State}

theorem refl : YokKept l s s := ⟨rfl, fun _ _ _ _ => rfl⟩

theorem trans (h : YokKept l s u) (k : YokKept l u x) : YokKept l s x :=
  ⟨k.yok.trans h.yok, fun b hlo hhi hb => (k.rd b hlo hhi hb).trans (h.rd b hlo hhi hb)⟩

theorem put {f : Fld} {n : Nat} (hf : f.addr < 0xF0000 ∨ 0x100000 ≤ f.addr ∨ f.addr ∈ l) : YokKept l s (s.put f n) :=
  ⟨rfl, fun b hlo hhi hb => State.rd_put_ne _ _ fun e => by
    subst e
    rcases hf with h | h | h
    · omega
    · omega
    · exact hb h⟩

theorem emu (h : EmuKept s u) : YokKept l s u := ⟨by rw [h.rest], fun b hlo _ _ => h.rd b (by omega)⟩

theorem record {code ctx : Nat} : YokKept l s (s.record code ctx) := by
  refine ⟨?_, fun b _ hhi _ => ?_⟩
  · obtain ⟨_, _, h⟩ := s.record_frame code ctx
    rw [h]
  · refine (regsBut_record (l := evtWords) (fun _ h => h)).mpr RegsBut.refl b ?_
    simp only [evtWords, A.EVT_LAST, A.EVT_LASTCTX, A.EVT_LASTT0, A.EVT_LASTT1, A.EVT_LOGSTAT, A.EVT_LOGCNT,
      List.mem_cons, List.not_mem_nil, or_false]
    omega

theorem get {f : Fld} (h : YokKept l s u) (hlo : 0xF0000 ≤ f.addr) (hhi : f.addr < 0x100000) (hf : f.addr ∉ l) :
    u.get f = s.get f := by rw [State.get, State.get, h.rd _ hlo hhi hf]

end YokKept

theorem State.ptpIdle_yok {l : List Nat} : YokKept l s s.ptpIdle := YokKept.put (.inl (by decide))

/-- A role that is not ACTIVE takes effect, and ACT_OUT stays as it is. -/
theorem State.setRole_idle (hv : v ≠ roACTIVE) (hlt : v < 8) :
    (s.setRole v).role = v ∧ YokKept [A.YOK_STAT] s (s.setRole v)
      ∧ (s.setRole v).get F.YOK_STAT_ACTOUT = s.get F.YOK_STAT_ACTOUT := by
  unfold State.setRole
  dsimp only
  split
  · next h => exact ⟨h, YokKept.refl, rfl⟩
  · next h =>
    have hset : YokKept [A.YOK_STAT] s ((s.put F.YOK_STAT_ROLE v).putB F.YOK_STAT_READY (v == roSHADOW)) :=
      (YokKept.put (by decide)).trans (YokKept.put (by decide))
    have hrole : ((s.put F.YOK_STAT_ROLE v).putB F.YOK_STAT_READY (v == roSHADOW)).get F.YOK_STAT_ROLE = v := by
      rw [State.putB_eq, State.get_put_bits _ _ (by decide) (by decide), State.get_put_same _ _ (by decide)]
      exact Nat.mod_eq_of_lt hlt
    have hact : ((s.put F.YOK_STAT_ROLE v).putB F.YOK_STAT_READY (v == roSHADOW)).get F.YOK_STAT_ACTOUT
        = s.get F.YOK_STAT_ACTOUT := by
      rw [State.putB_eq, State.get_put_bits _ _ (by decide) (by decide), State.get_put_bits _ _ (by decide) (by decide)]
    generalize (s.put F.YOK_STAT_ROLE v).putB F.YOK_STAT_READY (v == roSHADOW) = x at *
    have hrest (y : State) (hy : YokKept [] x y) : y.role = v ∧ YokKept [A.YOK_STAT] s y
        ∧ y.get F.YOK_STAT_ACTOUT = s.get F.YOK_STAT_ACTOUT :=
      ⟨(hy.get (by decide) (by decide) (by decide)).trans hrole,
        hset.trans ⟨hy.yok, fun b hlo hhi _ => hy.rd b hlo hhi (by simp)⟩,
        (hy.get (by decide) (by decide) (by decide)).trans hact⟩
    split_ifs
    · exact hrest _ (State.ptpIdle_yok.trans (YokKept.emu EmuKept.outsRefresh))
    · exact hrest _ (YokKept.emu EmuKept.outsRefresh)
    · exact hrest _ State.ptpIdle_yok
    · exact hrest _ YokKept.refl

/-- What a release of ACT_OUT leaves. -/
structure ActReleased (s u : State) (cause role : Nat) : Prop where
  out : u.get F.YOK_STAT_ACTOUT = 0
  cause : u.get F.YOK_RELCAUSE_CAUSE = cause
  role : u.role = role
  yok : u.yok = { s.yok with both := none, window := [] }

theorem State.releaseAct_releases (h : s.bit F.YOK_STAT_ACTOUT = true) (hv : v ≠ roACTIVE) (hlt : v < 8) (hc : cause < 8) :
    ActReleased s (s.releaseAct cause v) cause v := by
  unfold State.releaseAct
  rw [h]
  simp only [Bool.not_true, Bool.false_eq_true, if_false]
  have hout : ((s.putB F.YOK_STAT_ACTOUT false).put F.YOK_RELCAUSE_CAUSE cause).get F.YOK_STAT_ACTOUT = 0 := by
    rw [State.get_put_word _ _ (by decide), State.putB_eq, State.get_put_same _ _ (by decide)]; rfl
  have hcause : ((s.putB F.YOK_STAT_ACTOUT false).put F.YOK_RELCAUSE_CAUSE cause).get F.YOK_RELCAUSE_CAUSE = cause := by
    rw [State.get_put_same _ _ (by decide)]; exact Nat.mod_eq_of_lt hc
  have hyok : ((s.putB F.YOK_STAT_ACTOUT false).put F.YOK_RELCAUSE_CAUSE cause).yok = s.yok := by
    rw [State.put_yok, State.putB_eq, State.put_yok]
  generalize (s.putB F.YOK_STAT_ACTOUT false).put F.YOK_RELCAUSE_CAUSE cause = x at *
  have hrec := YokKept.record (l := []) (s := x) (code := cyok 6) (ctx := x.yctx + cause * 2 ^ 16)
  generalize x.record (cyok 6) (x.yctx + cause * 2 ^ 16) = y at *
  obtain ⟨hrole, hframe, hact⟩ := State.setRole_idle (s := y.modYok (fun y => { y with both := none, window := [] })) hv hlt
  refine ⟨hact.trans ?_, (hframe.get (by decide) (by decide) (by decide)).trans ?_, hrole, hframe.yok.trans ?_⟩
  · rw [State.modYok_get, hrec.get (by decide) (by decide) (by decide), hout]
  · rw [State.modYok_get, hrec.get (by decide) (by decide) (by decide), hcause]
  · rw [State.modYok_yok, hrec.yok, hyok]

end Role

/-! ## The four causes -/

section Causes
variable {s : State} {m : Master}

theorem State.masterWrite_wdKick (h : s.takes m A.YOK_WDKICK = true) :
    s.masterWrite m A.YOK_WDKICK (bitOf F.YOK_WDKICK_KICK) = s.tagged.wdKick := by
  refine State.masterWrite_act (b := A.YOK_WDKICK) (idx := []) h (by decide +kernel) ?_ (by decide) fun r hr => ?_
  · unfold outsideWindows; decide
  · unfold State.actWrite
    simp +decide only [hr, if_true, if_false]

theorem State.masterWrite_release (h : s.takes m A.YOK_CTL = true) :
    s.masterWrite m A.YOK_CTL (bitOf F.YOK_CTL_RELEASE) = s.tagged.actRelease := by
  refine State.masterWrite_act (b := A.YOK_CTL) (idx := []) h (by decide +kernel) ?_ (by decide) fun r hr => ?_
  · unfold outsideWindows; decide
  · unfold State.actWrite
    simp +decide only [hr, if_true, if_false]

@[simp] theorem State.tagged_yok : s.tagged.yok = s.yok := by
  obtain ⟨_, _, h⟩ := s.tagSet_frame (s.tagsUse + 1); rw [State.tagged, h]

@[simp] theorem State.tagged_now : s.tagged.now = s.now := by
  obtain ⟨_, _, h⟩ := s.tagSet_frame (s.tagsUse + 1); rw [State.tagged, h]

/-- A word of the yoke, once a write holds its tag. -/
theorem State.tagged_get_yok {f : Fld} (h : f.addr < 0x100000) : s.tagged.get f = s.get f :=
  State.get_tagSet_word _ _ (by simp only [A.EVT_TAGHWM]; omega)

/-- A kick takes its tag and sets the watchdog's instant. -/
theorem State.tagged_wdKick : s.tagged.wdKick.yok = { s.yok with wdAt := s.now } ∧ RegsBut [A.EVT_TAGHWM] s s.tagged.wdKick
    ∧ s.tagged.wdKick = { s with regs := s.tagged.wdKick.regs, same := s.tagged.wdKick.same,
                                 yok := s.tagged.wdKick.yok, tagsUse := s.tagsUse + 1 } := by
  have hregs : RegsBut [A.EVT_TAGHWM] s s.tagged := RegsBut.refl.tagged (by simp)
  obtain ⟨_, _, h⟩ := s.tagSet_frame (s.tagsUse + 1)
  unfold State.wdKick
  refine ⟨by rw [State.modYok_yok, State.tagged_yok, State.tagged_now], by rw [regsBut_modYok]; exact hregs, ?_⟩
  rw [State.tagged, h]; rfl

/-- A firmware release while the partner is ready. -/
theorem State.actRelease_ready {h : HbSt} (hhb : s.yok.hb = some h) (hready : h.ready = true)
    (hlink : s.bit F.YOK_STAT_LINK = true) (hrole : s.role = roACTIVE) (hout : s.bit F.YOK_STAT_ACTOUT = true) :
    ∃ x, ActReleased x s.actRelease 1 roSHADOW ∧ x.yok.relAt = s.now := by
  refine ⟨s.modYok (fun y => { y with relAt := s.now, adopted := s.yokedTasks, failed := [] }), ?_, rfl⟩
  have heq : s.actRelease
      = (s.modYok (fun y => { y with relAt := s.now, adopted := s.yokedTasks, failed := [] })).releaseAct 1 roSHADOW := by
    unfold State.actRelease
    simp only [hhb]
    exact if_pos ⟨hrole, by rw [hready, hlink]; rfl⟩
  rw [heq]
  exact State.releaseAct_releases (by rw [State.modYok_bit]; exact hout) (by decide) (by decide) (by decide)

/-- A firmware release by a device that is not ACTIVE. -/
theorem State.actRelease_idle (h : s.role ≠ roACTIVE) : s.actRelease = s.raise F.YOK_STAT_REL_REF := by
  unfold State.actRelease
  exact if_neg (fun e => h e.1)

end Causes

/-- Settles O36: each cause comes to `State.releaseAct`, which drops ACT_OUT, shows the cause and takes the new role. -/
theorem yokeReleases : Obligations.YokeReleases := by
  unfold Obligations.YokeReleases
  intro s t m
  dsimp only
  refine ⟨fun htakes hturn => ?_, fun htakes => ⟨fun h hhb hready hlink hrole hout hturn => ?_, fun hrole hturn => ?_⟩,
    fun hclk hout => ⟨fun hexp hturn => ?_, fun v h hv hhb hrole hage hready hview hfresh hturn => ?_⟩⟩
  · refine ⟨_, exec_any rfl (State.act.eq_def ..) hturn, ?_⟩
    rw [State.masterWrite_wdKick htakes]
    exact State.tagged_wdKick
  · refine ⟨_, exec_any rfl (State.act.eq_def ..) hturn, ?_⟩
    rw [State.masterWrite_release htakes]
    obtain ⟨x, ⟨h1, h2, h3, h4⟩, hx⟩ := State.actRelease_ready (s := (s.advance t).tagged) (h := h)
      (by rw [State.tagged_yok, hhb]) hready (by rw [State.bit, State.tagged_get_yok (by decide)]; exact hlink)
      (by rw [State.role, State.tagged_get_yok (by decide)]; exact hrole)
      (by rw [State.bit, State.tagged_get_yok (by decide)]; exact hout)
    exact ⟨⟨h1, h2, h3⟩, by rw [h4]; exact hx.trans State.tagged_now⟩
  · refine ⟨_, exec_any rfl (State.act.eq_def ..) hturn, ?_⟩
    generalize s.advance t = a at *
    have hrole' : a.tagged.role = a.role := State.tagged_get_yok (by decide)
    rw [State.masterWrite_release htakes, State.actRelease_idle (by rw [hrole']; exact hrole)]
    refine ⟨State.get_raise_same _ (by decide) (by decide), ?_, State.tagged_raise_regsBut _ F.YOK_STAT_REL_REF⟩
    rw [State.role, State.raise_get, State.get_put_bits _ _ (by decide) (by decide)]
    exact hrole'
  · refine ⟨_, exec_at rfl (State.act.eq_def ..) hclk hturn, ?_⟩
    rw [State.wdExpiry, if_pos hexp]
    obtain ⟨h1, h2, h3, -⟩ := State.releaseAct_releases (v := roSTANDBY) (cause := 3) hout (by decide) (by decide) (by decide)
    exact ⟨h1, h2, h3⟩
  · refine ⟨_, exec_at rfl (State.act.eq_def ..) hclk hturn, ?_⟩
    have hview' : (s.advance t).viewRule = (s.advance t).releaseAct 4 roSTANDBY := by
      unfold State.viewRule
      simp only [hv, hhb]
      exact if_pos ⟨hrole, hage, hready, hview, hfresh⟩
    rw [hview']
    obtain ⟨h1, h2, h3, -⟩ := State.releaseAct_releases (v := roSTANDBY) (cause := 4) hout (by decide) (by decide) (by decide)
    exact ⟨h1, h2, h3⟩

end Sys2Proof.Machine
end

section
/-!
PROOFS. Chapter 13, in-chip recovery: a checkpoint's stores and the mismatches of a lockstep pair.
-/
namespace Sys2Proof.Machine

/-! ## A store to a register without an action of its own -/

section Plain
variable {s : State} {w : Writer} {v : Word}

/-- The entry of FBK_CMPINC: 32 plain bits. -/
def cmpIncEntry : RegDef := ⟨0x90108, [(0x1000, 8), (0x10, 4)], 0, 0xFFFFFFFF, 0, 0, 0, 0, none⟩

theorem cmpInc_mapped : ∀ (p : Fin 8) (k : Fin 4), regAt (A.FBK_CMPINC p k) = some (cmpIncEntry, [p.val, k.val]) := by
  decide +kernel

theorem State.actWrite_cmpInc (idx : List Nat) (a : Nat) : s.actWrite w cmpIncEntry idx a v = none := by
  unfold State.actWrite
  simp +decide only [if_false]

theorem State.boundWord_cmpInc (i : Nat) : s.boundWord 0x90108 i v = (v, 0) := by
  unfold State.boundWord
  simp +decide only [if_false, ite_self]

theorem State.normNow_cmpInc (i : Nat) : s.normNow 0x90108 i v = v := by
  have hword : normWord 0x90108 v = v := by unfold normWord; simp +decide only [if_false]
  unfold State.normNow
  simp +decide only [if_false, hword]

theorem State.plainWrite_cmpInc (i a : Nat) : s.plainWrite w cmpIncEntry i a v = s.wr a v := by
  have hb : cmpIncEntry.base = 0x90108 := rfl
  have hw1c : cmpIncEntry.w1c = 0 := rfl
  have hlock : cmpIncEntry.lockBits i = 0 := by
    unfold RegDef.lockBits; rw [if_neg (fun h => absurd h.1 (by decide))]; rfl
  have hopen : s.openBits w cmpIncEntry i = BitVec.allOnes 32 := by
    unfold State.openBits; rw [hlock, ite_self]; rfl
  unfold State.plainWrite
  simp only [hb, hw1c, hlock, State.normNow_cmpInc, State.boundWord_cmpInc]
  rw [if_neg (by decide)]
  simp [hopen]
  rw [show (4294967295#32) = BitVec.allOnes 32 from rfl, BitVec.and_allOnes]

theorem State.afterWrite_cmpInc (i : Nat) : s.afterWrite 0x90108 i = s := by
  unfold State.afterWrite
  simp +decide only [if_false]

/-- A store to FBK_CMPINC that Paddock leaves open puts its value there and does nothing else. -/
theorem State.writeReg_cmpInc (p : Fin 8) (k : Fin 4) (hopen : (s.load.locked && s.lockListed (A.FBK_CMPINC p k)) = false) :
    s.writeReg w (A.FBK_CMPINC p k) v = s.wr (A.FBK_CMPINC p k) v := by
  have hb : cmpIncEntry.base = 0x90108 := rfl
  have hp : p.val < 8 := p.isLt
  have hk : k.val < 4 := k.isLt
  have hlo : 0x90108 ≤ A.FBK_CMPINC p k := by unfold A.FBK_CMPINC; omega
  have hhi : A.FBK_CMPINC p k < 0x99000 := by unfold A.FBK_CMPINC; omega
  rw [State.writeReg, if_neg (by unfold unmappedFrom; omega), if_neg (by omega), State.winKey_below (by omega), cmpInc_mapped]
  dsimp only
  rw [if_neg (fun h => absurd h.1 (by decide)), State.regWrite]
  dsimp only
  rw [State.lockGuard, hopen]
  simp only [State.actWrite_cmpInc]
  rw [if_neg (by decide), State.plainWrite_cmpInc, hb, State.afterWrite_cmpInc]
  rfl

end Plain

/-! ## A checkpoint and a mismatch -/

section Pair
variable {s : State} {q : Fin 2}

@[simp] theorem State.checkpointed_rd (x : Nat) : (s.checkpointed q).rd x = s.rd x := rfl
@[simp] theorem State.checkpointed_get (f : Fld) : (s.checkpointed q).get f = s.get f := rfl
theorem regsBut_checkpointed {a : State} {l : List Nat} : RegsBut l a (s.checkpointed q) ↔ RegsBut l a s := Iff.rfl
theorem State.checkpointed_reloaded : ((s.checkpointed q).sup[q]).reloaded = false := by
  unfold State.checkpointed; simp
theorem State.checkpointed_frame : ∃ sup, s.checkpointed q = { s with sup := sup } := ⟨_, rfl⟩

/-- A maximum that is not exceeded stays. -/
theorem State.raiseMax_rd_zero (f : Fld) (x : Nat) : (s.raiseMax f 0).rd x = s.rd x := by
  unfold State.raiseMax State.putMax
  rw [if_neg (Nat.not_lt_zero _)]
  rfl

theorem State.raiseMax_get_same (f : Fld) (n : Nat) (hw : f.lo + f.width ≤ 32) (hn : n < 2 ^ f.width) :
    (s.raiseMax f n).get f = max n (s.get f) := by
  unfold State.raiseMax State.putMax
  split
  · rw [State.noteUp_get, State.get_put_same _ _ hw, Nat.mod_eq_of_lt hn]
    omega
  · rw [State.noteUp_get]
    omega

theorem State.checkpoint_empty (h : s.fwOk q = true) :
    s.checkpoint q [] = (s.raiseMax (F.SUP_CKSTAT_EGRHWM q) 0).checkpointed q := by
  unfold State.checkpoint
  rw [h, if_neg (by simp)]
  rfl

theorem State.checkpoint_store {a : Nat} {v : Word} (h : s.fwOk q = true) (ha : a < 2 ^ 24) (h4 : a % 4 = 0) :
    s.checkpoint q [.reg (BitVec.ofNat 24 a) v]
      = ((s.raiseMax (F.SUP_CKSTAT_EGRHWM q) 1).issue (pairMaster q).writer a v).checkpointed q := by
  have hto : (BitVec.ofNat 24 a).toNat = a := by rw [BitVec.toNat_ofNat, Nat.mod_eq_of_lt ha]
  unfold State.checkpoint
  rw [h, if_neg (by simp)]
  dsimp only [each, List.foldl]
  rw [hto, if_pos h4]
  rfl

theorem State.fwOk_iff : s.fwOk q = true ↔
    (s.clkOn && s.load.supRun && decide (s.yok.lockAt < s.now)) = true ∧ s.get (F.SUP_CKSTAT_UNRECOV q) = 0 := by
  have hlt : s.get (F.SUP_CKSTAT_UNRECOV q) < 2 := Nat.mod_lt _ Nat.two_pos
  simp only [State.fwOk, State.bit, Bool.and_eq_true, Bool.not_eq_true', bne_eq_false_iff_eq]

/-- The pair reloads its checkpoint. -/
def State.reload (s : State) (q : Fin 2) : State := { s with sup := s.sup.set q { reloaded := true } }

theorem State.reload_get (f : Fld) : (s.reload q).get f = s.get f := rfl
theorem State.reload_rd (x : Nat) : (s.reload q).rd x = s.rd x := rfl
theorem State.reload_reloaded : ((s.reload q).sup[q]).reloaded = true := by
  unfold State.reload; simp

/-- The first mismatch since the checkpoint. -/
theorem State.lockstepMismatch_first (h : s.fwOk q = true) (hr : (s.sup[q]).reloaded = false) :
    s.lockstepMismatch q = (((s.wr (A.SUP_CKLAST q) (BitVec.ofNat 32 s.tim.dev)).bumpSat (F.SUP_CKSTAT_RELOADS q)).reload q).record (fcode cLOCKSTEP 1) q := by
  unfold State.lockstepMismatch
  rw [h, if_neg (by decide)]
  dsimp only
  rw [if_neg (by rw [show (s.wr (A.SUP_CKLAST q) (BitVec.ofNat 32 s.tim.dev)).sup = s.sup from rfl, hr]; decide)]
  rfl

/-- The second one. -/
theorem State.lockstepMismatch_second (h : s.fwOk q = true) (hr : (s.sup[q]).reloaded = true) :
    s.lockstepMismatch q
      = (((s.wr (A.SUP_CKLAST q) (BitVec.ofNat 32 s.tim.dev)).record (fcode cLOCKSTEP 2) q).put (F.SUP_CKSTAT_UNRECOV q) 1).yokFault := by
  unfold State.lockstepMismatch
  rw [h, if_neg (by decide)]
  dsimp only
  rw [if_pos (by rw [show (s.wr (A.SUP_CKLAST q) (BitVec.ofNat 32 s.tim.dev)).sup = s.sup from rfl, hr])]
  rfl

/-- The words of a pair stand apart from the log's. -/
theorem supWords_apart : ∀ q : Fin 2, A.SUP_CKLAST q ∉ evtWords ∧ A.SUP_CKSTAT q ∉ evtWords ∧ A.SUP_CKSTAT q ≠ A.SUP_CKLAST q
    ∧ A.SUP_CKSTAT q ≠ A.EVT_TAGHWM ∧ A.EVT_LAST ≠ A.SUP_CKSTAT q ∧ A.EVT_LASTCTX ≠ A.SUP_CKSTAT q := by
  decide

end Pair

/-- A timed command of a running clock, its handler's outcome named. -/
theorem exec_at_of {c : Instr} {s u : State} {t : Tick} {f : State → State} (h : tickOf c = some t)
    (hact : (s.advance t).act c = (s.advance t).at_ f) (hclk : (s.advance t).clkOn = true)
    (hturn : (s.advance t).inTurn c = true) (hf : f (s.advance t) = u) : exec c s = .next (u.yokCheck.after (s.advance t) c) := by
  rw [exec_at h hact hclk hturn, hf]

section Mismatch
variable {s : State} {q : Fin 2}

/-- The pair runs as before when the clocks, the start-up and the yoke are as they were. -/
theorem State.fwOk_congr {u : State} (hclk : u.clkOn = s.clkOn) (hload : u.load = s.load) (hyok : u.yok = s.yok)
    (hnow : u.now = s.now) (hget : u.get (F.SUP_CKSTAT_UNRECOV q) = s.get (F.SUP_CKSTAT_UNRECOV q)) : u.fwOk q = s.fwOk q := by
  rw [State.fwOk, State.fwOk, State.bit, State.bit, hclk, hload, hyok, hnow, hget]

/-- What Paddock lists depends on the loaded image alone. -/
theorem State.lockListed_congr {u : State} (h : u.load = s.load) (a : Nat) :
    (u.load.locked && u.lockListed a) = (s.load.locked && s.lockListed a) := by
  have hle (x n : Nat) : u.pdkLe x n = s.pdkLe x n := by unfold State.pdkLe State.pdkByte; rw [h]
  unfold State.lockListed
  simp only [h, hle]

/-- A store at a checkpoint, once the maximum is raised. -/
theorem State.issue_cmpInc {f : Fld} {n : Nat} {p : Fin 8} {k : Fin 4} {m : Master} {w : Writer} {v : Word}
    (h : s.takes m (A.FBK_CMPINC p k) = true) :
    (s.raiseMax f n).issue w (A.FBK_CMPINC p k) v = ((s.raiseMax f n).tagged).wr (A.FBK_CMPINC p k) v := by
  obtain ⟨-, htag, hfree, hopen⟩ := State.takes_iff.mp h
  obtain ⟨_, _, hx⟩ := s.raiseMax_frame f n
  have htags : (s.raiseMax f n).tagFree = s.tagFree := by rw [hx]; rfl
  have hstalled : (s.raiseMax f n).stalled = s.stalled := by rw [hx]
  have hload : (s.raiseMax f n).tagged.load = s.load := by rw [State.tagged_load, hx]
  rw [State.issue_takes _ _ _ _ (htags.trans htag) (hstalled.trans hfree)]
  exact State.writeReg_cmpInc p k ((State.lockListed_congr hload _).trans hopen)

theorem State.bumpSat_frame (s : State) (f : Fld) : ∃ regs, s.bumpSat f = { s with regs := regs } := ⟨_, rfl⟩

/-- A count that stops at its top. -/
theorem State.get_bumpSat (f : Fld) (hf : f.lo + f.width ≤ 32) : (s.bumpSat f).get f = min (2 ^ f.width - 1) (s.get f + 1) := by
  have hpos : 0 < 2 ^ f.width := Nat.two_pow_pos _
  rw [State.bumpSat, State.get_put_same _ _ hf, satAdd]
  exact Nat.mod_eq_of_lt (by omega)

theorem State.rd_record {code ctx x : Nat} (h : x ∉ evtWords) : (s.record code ctx).rd x = s.rd x :=
  (regsBut_record (fun _ h => h)).mpr RegsBut.refl x h

/-- A pair that is held in reset, once the mismatch is recorded. -/
theorem State.unrecovered_shows (s : State) (q : Fin 2) :
    ((s.record (fcode cLOCKSTEP 2) q).put (F.SUP_CKSTAT_UNRECOV q) 1).get (F.SUP_CKSTAT_UNRECOV q) = 1
    ∧ NewestFault ((s.record (fcode cLOCKSTEP 2) q).put (F.SUP_CKSTAT_UNRECOV q) 1) 0x0702 q
    ∧ ((s.record (fcode cLOCKSTEP 2) q).put (F.SUP_CKSTAT_UNRECOV q) 1).fwOk q = false := by
  obtain ⟨-, -, -, -, hnewest, hnewestCtx⟩ := supWords_apart q
  have hnew : NewestFault (s.record (fcode cLOCKSTEP 2) q) 0x0702 q := State.newestFault_record
  generalize s.record (fcode cLOCKSTEP 2) q = x at *
  have hbit : (x.put (F.SUP_CKSTAT_UNRECOV q) 1).get (F.SUP_CKSTAT_UNRECOV q) = 1 :=
    State.get_put_same _ _ (by simp [F.SUP_CKSTAT_UNRECOV])
  refine ⟨hbit, hnew.regsBut (l := [A.SUP_CKSTAT q]) (RegsBut.refl.put _ (by simp [F.SUP_CKSTAT_UNRECOV])) (by simpa using hnewest)
    (by simpa using hnewestCtx), ?_⟩
  rw [State.fwOk, State.bit, hbit]
  exact Bool.and_false _

end Mismatch

/-- Settles O37: a checkpoint and a mismatch are the handlers' own equations, read field by field. -/
theorem supervisorPairs : Obligations.SupervisorPairs := by
  unfold Obligations.SupervisorPairs
  intro s t q p k v
  dsimp only
  obtain ⟨hlastEvt, hstatEvt, hapart, htag, hnewest, hnewestCtx⟩ := supWords_apart q
  have hstore : A.FBK_CMPINC p k < 2 ^ 24 ∧ A.FBK_CMPINC p k % 4 = 0 ∧ A.FBK_CMPINC p k < 0x99000 := by
    unfold A.FBK_CMPINC; omega
  have hlow : 0x99000 ≤ A.SUP_CKSTAT q ∧ 0x99000 ≤ A.EVT_TAGHWM := by unfold A.SUP_CKSTAT A.EVT_TAGHWM; omega
  intro hclk hok
  refine ⟨fun hturn => ⟨_, exec_at rfl (State.act.eq_def ..) hclk hturn, ?_⟩,
    fun htakes hturn => ⟨_, exec_at rfl (State.act.eq_def ..) hclk hturn, ?_⟩,
    fun hr hturn => ⟨_, exec_at rfl (State.act.eq_def ..) hclk hturn, ?_⟩, fun hr hturn => ?_⟩
  · generalize s.advance t = a at *
    rw [State.checkpoint_empty hok]
    refine ⟨State.checkpointed_reloaded, ?_, fun x => by rw [State.checkpointed_rd, State.raiseMax_rd_zero]⟩
    obtain ⟨_, _, h⟩ := a.raiseMax_frame (F.SUP_CKSTAT_EGRHWM q) 0
    obtain ⟨_, h'⟩ := (a.raiseMax (F.SUP_CKSTAT_EGRHWM q) 0).checkpointed_frame (q := q)
    rw [h', h]
  · generalize s.advance t = a at *
    have hne : A.SUP_CKSTAT q ≠ A.FBK_CMPINC p k := by omega
    rw [State.checkpoint_store hok hstore.1 hstore.2.1, State.issue_cmpInc htakes]
    refine ⟨State.checkpointed_reloaded, by rw [State.checkpointed_rd, State.rd_wr_same], ?_, ?_⟩
    · rw [State.checkpointed_get, State.get_wr_word _ _ hne, State.tagged, State.get_tagSet_word _ _ htag]
      exact State.raiseMax_get_same _ _ (by simp [F.SUP_CKSTAT_EGRHWM]) (by simp [F.SUP_CKSTAT_EGRHWM])
    · rw [regsBut_checkpointed, regsBut_wr (by simp), regsBut_tagged (by simp), regsBut_raiseMax (by simp [F.SUP_CKSTAT_EGRHWM])]
      exact RegsBut.refl
  · generalize s.advance t = a at *
    rw [State.lockstepMismatch_first hok hr]
    have hget : ((a.wr (A.SUP_CKLAST q) (BitVec.ofNat 32 a.tim.dev)).bumpSat (F.SUP_CKSTAT_RELOADS q)).get (F.SUP_CKSTAT_UNRECOV q)
        = a.get (F.SUP_CKSTAT_UNRECOV q) := by
      rw [State.bumpSat, State.get_put_bits _ _ (by simp [F.SUP_CKSTAT_RELOADS]) (by simp [F.SUP_CKSTAT_RELOADS, F.SUP_CKSTAT_UNRECOV]),
        State.get_wr_word _ _ hapart]
    have hlast : ((a.wr (A.SUP_CKLAST q) (BitVec.ofNat 32 a.tim.dev)).bumpSat (F.SUP_CKSTAT_RELOADS q)).rd (A.SUP_CKLAST q)
        = BitVec.ofNat 32 a.tim.dev := by
      rw [State.bumpSat, State.rd_put_ne _ _ hapart.symm, State.rd_wr_same]
    have hcount : ((a.wr (A.SUP_CKLAST q) (BitVec.ofNat 32 a.tim.dev)).bumpSat (F.SUP_CKSTAT_RELOADS q)).get (F.SUP_CKSTAT_RELOADS q)
        = min (2 ^ (F.SUP_CKSTAT_RELOADS q).width - 1) (a.get (F.SUP_CKSTAT_RELOADS q) + 1) := by
      rw [State.get_bumpSat _ (by simp [F.SUP_CKSTAT_RELOADS]), State.get_wr_word _ _ hapart]
    obtain ⟨_, hframe⟩ := State.bumpSat_frame (a.wr (A.SUP_CKLAST q) (BitVec.ofNat 32 a.tim.dev)) (F.SUP_CKSTAT_RELOADS q)
    generalize (a.wr (A.SUP_CKLAST q) (BitVec.ofNat 32 a.tim.dev)).bumpSat (F.SUP_CKSTAT_RELOADS q) = b at *
    obtain ⟨_, _, hrec⟩ := (b.reload q).record_frame (fcode cLOCKSTEP 1) q
    refine ⟨?_, State.newestFault_record, ?_, ?_, ?_⟩
    · rw [hrec]; exact State.reload_reloaded
    · rw [State.rd_record hlastEvt, State.reload_rd, hlast]
    · rw [State.get_record hstatEvt, State.reload_get, hcount]
    · refine (State.fwOk_congr ?_ ?_ ?_ ?_ ?_).trans hok
      · rw [hrec, hframe]; rfl
      · rw [hrec, hframe]; rfl
      · rw [hrec, hframe]; rfl
      · rw [hrec, hframe]; rfl
      · rw [State.get_record hstatEvt, State.reload_get, hget]
  · refine ⟨_, exec_at_of rfl (State.act.eq_def ..) hclk hturn (State.lockstepMismatch_second hok hr), ?_⟩
    exact State.unrecovered_shows ((s.advance t).wr (A.SUP_CKLAST q) (BitVec.ofNat 32 (s.advance t).tim.dev)) q

end Sys2Proof.Machine
end

section
/-!
PROOFS. Chapter 17, reads: the snapshot of device time that a read of its first word takes.
-/
namespace Sys2Proof.Machine

section Snapshot
variable {s : State} {m : Master} {rdr : Fin 4} {w : Writer}

/-- The three words of device time and their places in the SNP group. -/
theorem timNow_mapped : (regAt A.TIM_NOW0).map (fun e => (e.1.base, e.1.snp, e.2)) = some (A.TIM_NOW0, some (0, 3), [])
    ∧ (regAt A.TIM_NOW1).map (fun e => (e.1.base, e.1.snp, e.2)) = some (A.TIM_NOW1, some (1, 3), [])
    ∧ (regAt A.TIM_NOW2).map (fun e => (e.1.base, e.1.snp, e.2)) = some (A.TIM_NOW2, some (2, 3), []) := by
  decide +kernel

theorem State.winKey_timNow {x : Nat} (h : x < 0x20000) : s.winKey x = none := State.winKey_below (by omega)

/-- What device time reads now. -/
theorem State.peek_timNow : s.peek A.TIM_NOW1 = BitVec.ofNat 32 (s.tim.dev / 2 ^ 32)
    ∧ s.peek A.TIM_NOW2 = BitVec.ofNat 32 (s.tim.dev / 2 ^ 64) := by
  obtain ⟨-, h1, h2⟩ := timNow_mapped
  obtain ⟨⟨r1, i1⟩, hreg1, hr1⟩ := Option.map_eq_some_iff.mp h1
  obtain ⟨⟨r2, i2⟩, hreg2, hr2⟩ := Option.map_eq_some_iff.mp h2
  simp only [Prod.mk.injEq] at hr1 hr2
  constructor
  · rw [State.peek, State.winKey_timNow (by decide), hreg1]
    dsimp only
    rw [State.regNow, hr1.1]
    rw [if_neg (by decide), if_pos rfl]
  · rw [State.peek, State.winKey_timNow (by decide), hreg2]
    dsimp only
    rw [State.regNow, hr2.1]
    rw [if_neg (by decide), if_neg (by decide), if_pos rfl]

/-- Put one word of a group in a reader's snapshot. -/
def State.snapPut (s : State) (rdr : Fin 4) (a : Nat) (w : Word) : State :=
  { s with snaps := s.snaps.set rdr (cellsSet zeroWord s.snaps[rdr] a w) }

/-- A read of the first word copies the two above it. -/
theorem State.readWord_timNow0 (f : Word) : s.readWord rdr w A.TIM_NOW0 f
    = (BitVec.ofNat 32 s.loadSync.tim.dev,
        (s.loadSync.snapPut rdr A.TIM_NOW1 (s.loadSync.peek A.TIM_NOW1)).snapPut rdr A.TIM_NOW2 (s.loadSync.peek A.TIM_NOW2)) := by
  obtain ⟨h0, -, -⟩ := timNow_mapped
  obtain ⟨⟨r, i⟩, hreg, hr⟩ := Option.map_eq_some_iff.mp h0
  simp only [Prod.mk.injEq] at hr
  obtain ⟨hbase, hsnp, -⟩ := hr
  rw [State.readWord]
  dsimp only
  rw [if_neg (by decide), State.winKey_timNow (by decide), hreg]
  dsimp only
  rw [if_neg (by rw [hbase]; decide), if_neg (by rw [hbase]; decide), hsnp]
  rw [State.regNow, hbase]
  rw [if_pos rfl]
  rfl

/-- A read of a higher word comes from the reader's snapshot. -/
theorem State.readWord_timNow1 (f : Word) : s.readWord rdr w A.TIM_NOW1 f
    = (cellsGet zeroWord s.loadSync.snaps[rdr] A.TIM_NOW1, s.loadSync) := by
  obtain ⟨-, h1, -⟩ := timNow_mapped
  obtain ⟨⟨r, i⟩, hreg, hr⟩ := Option.map_eq_some_iff.mp h1
  simp only [Prod.mk.injEq] at hr
  obtain ⟨hbase, hsnp, -⟩ := hr
  rw [State.readWord]
  dsimp only
  rw [if_neg (by decide), State.winKey_timNow (by decide), hreg]
  dsimp only
  rw [if_neg (by rw [hbase]; decide), if_neg (by rw [hbase]; decide), hsnp]
  rfl

/-- An aligned load of a word without an effect of its own. -/
theorem State.registerRead_word {a : Nat} (hreach : s.mayReach m false a = true) (h4 : a % 4 = 0) (ha : a ≠ A.SER_FLSRDATA)
    (hpop : readPops a = false) :
    (s.registerRead m a .word).lastRead[m.reader] = (s.readWord m.reader m.writer a 0).1
    ∧ (s.registerRead m a .word).snaps = (s.readWord m.reader m.writer a 0).2.snaps := by
  have hdiv : a / 4 * 4 = a := by omega
  have hal : Width.word.aligned a = true := by simp [Width.aligned, h4]
  have hread : (s.masterRead m a 0).lastRead[m.reader] = (s.readWord m.reader m.writer a 0).1
      ∧ (s.masterRead m a 0).snaps = (s.readWord m.reader m.writer a 0).2.snaps := by
    unfold State.masterRead
    rw [hreach, hpop]
    generalize s.readWord m.reader m.writer a 0 = p
    cases m <;> simp [Master.pair]
  cases m
  case svc => simpa only [State.registerRead, hdiv, if_neg ha] using hread
  all_goals
    simp only [State.registerRead, hreach, hal, hdiv, if_neg ha]
    simpa [selBytes] using hread

end Snapshot

/-- Settles O39: the read of TIM_NOW0 fills the reader's snapshot, and the read of TIM_NOW1 comes from it. -/
theorem snapshots : Obligations.Snapshots := by
  unfold Obligations.Snapshots
  intro s t m
  dsimp only
  refine ⟨fun hreach hturn => ⟨_, exec_any rfl (State.act.eq_def ..) hturn, ?_⟩,
    fun hreach hturn => ⟨_, exec_any rfl (State.act.eq_def ..) hturn, ?_⟩⟩
  · rw [show (BitVec.ofNat 24 A.TIM_NOW0).toNat = A.TIM_NOW0 by decide]
    generalize s.advance t = a at *
    obtain ⟨hlast, hsnaps⟩ := State.registerRead_word hreach (by decide) (by decide) (by decide)
    have hframe := LoadFrame.loadSync (s := a)
    rw [State.readWord_timNow0, State.peek_timNow.1, State.peek_timNow.2] at hlast hsnaps
    have htim : a.loadSync.tim = a.tim := by rw [hframe.rest]
    have hsn : a.loadSync.snaps = a.snaps := by rw [hframe.rest]
    rw [hlast, hsnaps, htim]
    simp only [State.snapPut, hsn]
    refine ⟨trivial, ?_, ?_, fun r hr => ?_⟩
    · simp only [Fin.getElem_fin, Vector.getElem_set_self]
      rw [cellsGet_set_ne _ _ _ (by decide), cellsGet_set_same]
    · simp only [Fin.getElem_fin, Vector.getElem_set_self, cellsGet_set_same]
    · have hne : m.reader.val ≠ r.val := fun e => hr (Fin.ext e.symm)
      simp only [Fin.getElem_fin]
      rw [Vector.getElem_set_ne _ _ hne, Vector.getElem_set_ne _ _ hne]
  · rw [show (BitVec.ofNat 24 A.TIM_NOW1).toNat = A.TIM_NOW1 by decide]
    generalize s.advance t = a at *
    obtain ⟨hlast, hsnaps⟩ := State.registerRead_word hreach (by decide) (by decide) (by decide)
    have hsn : a.loadSync.snaps = a.snaps := by rw [LoadFrame.loadSync (s := a) |>.rest]
    rw [State.readWord_timNow1] at hlast hsnaps
    rw [hlast, hsnaps, hsn]
    exact ⟨rfl, rfl⟩

end Sys2Proof.Machine
end

section
/-!
PROOFS. Chapter 14, the servo: its time-outs.
-/
namespace Sys2Proof.Machine

/-! ## Steps that change registers alone -/

section RegsOnly
variable {P : Nat → Prop} {s u x : State}

/-- Nothing but registers at the addresses `P` differs. -/
structure RegsOnly (P : Nat → Prop) (s u : State) : Prop where
  rest : u = { s with regs := u.regs }
  rd : ∀ a, ¬ P a → u.rd a = s.rd a

namespace RegsOnly

theorem refl : RegsOnly P s s := ⟨rfl, fun _ _ => rfl⟩

theorem trans (h : RegsOnly P s u) (k : RegsOnly P u x) : RegsOnly P s x := by
  refine ⟨?_, fun a ha => (k.rd a ha).trans (h.rd a ha)⟩
  rw [k.rest, h.rest]

theorem mono {Q : Nat → Prop} (h : RegsOnly P s u) (hq : ∀ a, P a → Q a) : RegsOnly Q s u :=
  ⟨h.rest, fun a ha => h.rd a fun k => ha (hq a k)⟩

theorem put {f : Fld} {n : Nat} (hf : P f.addr) : RegsOnly P s (s.put f n) :=
  ⟨rfl, fun _ ha => State.rd_put_ne _ _ fun e => ha (e ▸ hf)⟩

theorem wr {a : Nat} {w : Word} (hf : P a) : RegsOnly P s (s.wr a w) :=
  ⟨rfl, fun _ hb => State.rd_wr_ne _ _ fun e => hb (e ▸ hf)⟩

theorem each {α : Type} {l : List α} {e : α → State → State} (h : ∀ y s, RegsOnly P s (e y s)) :
    RegsOnly P s (each l e s) :=
  each_keeps (fun u => RegsOnly P s u) l e (fun y _ _ hu => hu.trans (h y _)) s refl

theorem get (h : RegsOnly P s u) {f : Fld} (hf : ¬ P f.addr) : u.get f = s.get f := by
  unfold State.get; rw [h.rd _ hf]

theorem net (h : RegsOnly P s u) : u.net = s.net := by rw [h.rest]
theorem now (h : RegsOnly P s u) : u.now = s.now := by rw [h.rest]
theorem tim (h : RegsOnly P s u) : u.tim = s.tim := by rw [h.rest]

end RegsOnly
end RegsOnly

/-! ## Holdover and the lock of the network time -/

section Hold
variable {s : State} {b : Bool} {v : Nat}

/-- The words of the teams. -/
def teamRange (a : Nat) : Prop := 0x60000 ≤ a ∧ a < 0x70000

/-- The alignment states of the teams in holdover. -/
def State.teamsHold (s : State) (b : Bool) : State :=
  each allTeams (fun t s => if s.bit (F.TEAM_ALNCFG_ALIGN t) then s.putB (F.TEAM_ALNSTAT_HOLDOVER t) b else s) s

theorem State.holdover_eq : s.holdover b = (s.put F.TIM_STAT_HOLDOVER (b2n b)).teamsHold b := rfl

theorem State.teamsHold_regs : RegsOnly teamRange s (s.teamsHold b) :=
  RegsOnly.each fun t s => by
    split
    · exact RegsOnly.put (by simp only [F.TEAM_ALNSTAT_HOLDOVER, A.TEAM_ALNSTAT, teamRange]; omega)
    · exact RegsOnly.refl

/-- The dither states of the teams without a lock. -/
def State.teamsUnlock (s : State) : State := each allTeams (fun t s => s.putB (F.TEAM_DITHSTAT_VALID t) false) s

theorem State.netUnlock_eq : s.netUnlock = ((s.put F.TIM_STAT_NETLOCK 0).put F.IDG_WARMSTAT_NETLOCK 0).teamsUnlock := rfl

theorem State.teamsUnlock_regs : RegsOnly teamRange s s.teamsUnlock :=
  RegsOnly.each fun t s => RegsOnly.put (by simp only [F.TEAM_DITHSTAT_VALID, A.TEAM_DITHSTAT, teamRange]; omega)

/-- The words of holdover. -/
def timeWords (a : Nat) : Prop := a = A.TIM_STAT ∨ a = A.IDG_WARMSTAT ∨ teamRange a

theorem State.holdover_regs : RegsOnly timeWords s (s.holdover b) := by
  rw [State.holdover_eq]
  exact (RegsOnly.put (Or.inl rfl)).trans (State.teamsHold_regs.mono fun _ h => Or.inr (Or.inr h))

theorem State.netUnlock_regs : RegsOnly timeWords s s.netUnlock := by
  rw [State.netUnlock_eq]
  exact ((RegsOnly.put (Or.inl rfl)).trans (RegsOnly.put (Or.inr (Or.inl rfl)))).trans
    (State.teamsUnlock_regs.mono fun _ h => Or.inr (Or.inr h))

/-- A word of time or the network is none of a team's. -/
theorem not_teamRange {a : Nat} (h : a < 0x60000 ∨ 0x70000 ≤ a) : ¬ teamRange a := by unfold teamRange; omega

theorem State.holdover_get : (s.holdover b).get F.TIM_STAT_HOLDOVER = b2n b
    ∧ (s.holdover b).get F.TIM_STAT_NETLOCK = s.get F.TIM_STAT_NETLOCK := by
  rw [State.holdover_eq]
  have hteams (x : State) {f : Fld} (hf : f.addr = A.TIM_STAT) : (x.teamsHold b).get f = x.get f :=
    State.teamsHold_regs.get (by rw [hf]; exact not_teamRange (by decide))
  rw [hteams _ rfl, hteams _ rfl, State.get_put_same _ _ (by decide), State.get_put_bits _ _ (by decide) (by decide)]
  exact ⟨by cases b <;> rfl, rfl⟩

theorem State.netUnlock_get : s.netUnlock.get F.TIM_STAT_NETLOCK = 0 := by
  rw [State.netUnlock_eq, State.teamsUnlock_regs.get (not_teamRange (by decide)), State.get_put_word _ _ (by decide),
    State.get_put_same _ _ (by decide)]
  rfl

end Hold

/-! ## The best master selection -/

section Bmca
variable {s : State}

/-- The time of the last Announce and the masters heard are as they were. -/
structure HeardKept (s u : State) : Prop where
  annAt : u.servo.annAt = s.servo.annAt
  foreign : u.servo.foreign = s.servo.foreign

theorem HeardKept.trans {u x : State} (h : HeardKept s u) (k : HeardKept u x) : HeardKept s x :=
  ⟨k.annAt.trans h.annAt, k.foreign.trans h.foreign⟩

theorem HeardKept.refl : HeardKept s s := ⟨rfl, rfl⟩

theorem HeardKept.of_net {u : State} (h : u.net = s.net) : HeardKept s u := by
  constructor <;> rw [State.servo, State.servo, h]

theorem HeardKept.put {f : Fld} {n : Nat} : HeardKept s (s.put f n) := HeardKept.of_net rfl

theorem HeardKept.modTim {f : TimSt → TimSt} : HeardKept s (s.modTim f) := HeardKept.of_net rfl

theorem HeardKept.modServo {f : ServoSt → ServoSt} (ha : ∀ v, (f v).annAt = v.annAt)
    (hf : ∀ v, (f v).foreign = v.foreign) : HeardKept s (s.modServo f) := ⟨ha _, hf _⟩

theorem HeardKept.copies {l : List (Fin 3)} {f : Fin 3 → NetPort → NetPort} :
    HeardKept s (each l (fun p s => s.modNPort p (f p)) s) :=
  each_keeps (fun u => HeardKept s u) l (fun p s => s.modNPort p (f p)) (fun _ _ _ hu => hu.trans ⟨rfl, rfl⟩) s ⟨rfl, rfl⟩

theorem State.setGm_heard (g : GmData) (rec : Bool) : HeardKept s (s.setGm g rec) := by
  have hgm : HeardKept s (s.modServo (fun v => { v with gm := some g })) := HeardKept.modServo (fun _ => rfl) (fun _ => rfl)
  unfold State.setGm
  dsimp only
  split
  · exact hgm
  · generalize hx : ((s.modServo (fun v => { v with gm := some g })).wr A.NET_GMID0 (BitVec.ofNat 32 g.id)).wr A.NET_GMID1
      (BitVec.ofNat 32 (g.id / 2 ^ 32)) = x
    have hwr : HeardKept s x := hx ▸ hgm.trans (HeardKept.of_net rfl)
    have hcopies := hwr.trans (HeardKept.copies (l := allPorts) (f := fun _ x => ({ x with copy := none, two := [] } : NetPort)))
    split
    · obtain ⟨_, _, h⟩ := State.record_frame (each allPorts (fun p s => s.modNPort p (fun x => { x with copy := none, two := [] })) x)
        (cnet 6) (netCtx ((each allPorts (fun p s => s.modNPort p (fun x => { x with copy := none, two := [] })) x).get F.NET_TSTAT_TPORT) 0)
      exact hcopies.trans (HeardKept.of_net (by rw [h]))
    · exact hcopies

theorem State.netLock_heard : HeardKept s s.netLock := by
  unfold State.netLock
  split
  · exact HeardKept.refl
  · rw [State.putB_eq, State.putB_eq]
    exact (HeardKept.put.trans HeardKept.put).trans HeardKept.modTim

theorem State.becomeBw_heard : HeardKept s s.becomeBw := by
  unfold State.becomeBw
  split
  · exact HeardKept.refl
  · dsimp only
    have h1 := State.setGm_heard (s := s) s.ownGm false
    generalize s.setGm s.ownGm false = x at *
    have h2 : HeardKept s (((x.setStage stBW).put F.NET_TSTAT_TPORT 3).put F.NET_TSTAT_HOPS 0) := ((h1.trans HeardKept.put).trans HeardKept.put).trans HeardKept.put
    generalize ((x.setStage stBW).put F.NET_TSTAT_TPORT 3).put F.NET_TSTAT_HOPS 0 = y at *
    have h3 : HeardKept s (y.holdover false) := h2.trans (HeardKept.of_net State.holdover_regs.net)
    generalize y.holdover false = z at *
    refine (h3.trans ?_).trans State.netLock_heard
    exact HeardKept.modServo (fun _ => rfl) (fun _ => rfl)

/-- The masters heard within the time-out stay. -/
def State.heardStill (s : State) : List (GmData × Tick) :=
  s.servo.foreign.filter (fun e => decide (s.now < e.2 + s.annTimeout))

/-- The selection keeps the time of the last Announce, and of the masters heard those that are not too old. -/
theorem State.runBmca_heard (h : s.stage ≠ stSOFF) :
    s.runBmca.servo.annAt = s.servo.annAt ∧ s.runBmca.servo.foreign = s.heardStill := by
  have hkept : HeardKept (s.modServo (fun v => { v with foreign := v.foreign.filter (fun e => decide (s.now < e.2 + s.annTimeout)) }))
      s.runBmca := by
    unfold State.runBmca
    rw [if_neg h]
    dsimp only
    generalize s.modServo (fun v => { v with foreign := v.foreign.filter (fun e => decide (s.now < e.2 + s.annTimeout)) }) = x
    split
    · split
      · exact State.becomeBw_heard
      · rename_i b _ _
        have hgm := State.setGm_heard (s := x) b true
        generalize x.setGm b true = y at *
        split
        · exact hgm.trans HeardKept.put
        · split
          · have htrack : HeardKept x (y.setStage stTRACK) := hgm.trans HeardKept.put
            exact htrack.trans (HeardKept.modServo (f := fun v => { v with copyGm := none, lastSync := y.now }) (fun _ => rfl) (fun _ => rfl))
          · exact hgm
    · split
      · exact State.becomeBw_heard
      · split
        · have hgm : HeardKept x (x.modServo (fun v => { v with gm := none })) := ⟨rfl, rfl⟩
          exact hgm.trans HeardKept.put
        · exact ⟨rfl, rfl⟩
  exact ⟨hkept.annAt, hkept.foreign⟩

/-- No master is heard any more, and this device is none. -/
theorem State.runBmca_alone (h : s.stage ≠ stSOFF) (hnone : s.heardStill = []) (hcls : s.clockClass = 255) :
    s.runBmca.servo.gm = none ∧ (s.stage = stACQ → s.runBmca.stage = stLISTEN) := by
  have hempty : (s.modServo (fun v => { v with foreign := v.foreign.filter (fun e => decide (s.now < e.2 + s.annTimeout)) })).servo.foreign
      = [] := hnone
  have hcls' : (s.modServo (fun v => { v with foreign := v.foreign.filter (fun e => decide (s.now < e.2 + s.annTimeout)) })).ownGm.cls
      = 255 := hcls
  have hstage : (s.modServo (fun v => { v with foreign := v.foreign.filter (fun e => decide (s.now < e.2 + s.annTimeout)) })).stage
      = s.stage := rfl
  unfold State.runBmca
  rw [if_neg h]
  dsimp only
  generalize s.modServo (fun v => { v with foreign := v.foreign.filter (fun e => decide (s.now < e.2 + s.annTimeout)) }) = x at *
  rw [hempty]
  dsimp only [List.foldl]
  rw [if_neg (not_not.mpr hcls')]
  have hmod : (x.modServo (fun v => { v with gm := none })).stage = x.stage := rfl
  have hgm : (x.modServo (fun v => { v with gm := none })).servo.gm = none := rfl
  generalize x.modServo (fun v => { v with gm := none }) = y at *
  split
  · exact ⟨hgm, fun _ => State.get_put_same _ _ (by decide)⟩
  · rename_i hacq
    exact ⟨hgm, fun k => absurd (hmod.trans (hstage.trans k)) hacq⟩

end Bmca

/-! ## The time-outs -/

section Timeouts
variable {s : State}

theorem State.syncTimeout_due (h3 : 3 ≤ s.stage) (h5 : s.stage ≤ 5) (hlate : s.servo.lastSync + 3 * s.syncTicks ≤ s.now) :
    s.syncTimeout = ((s.holdover true).setStage stHOLD).record (cnet 4) (netCtx (s.get F.NET_TSTAT_TPORT) 0) := by
  unfold State.syncTimeout
  exact if_pos ⟨h3, h5, hlate⟩

theorem State.record_net (code ctx : Nat) : (s.record code ctx).net = s.net := by
  obtain ⟨_, _, h⟩ := s.record_frame code ctx
  rw [h]

theorem netCtx_port (n : Nat) : netCtx n 0 = n := by unfold netCtx; omega

/-- What the lost network time leaves. -/
theorem State.timeLoss_locked (st : Nat) (hst : st < 8) (h : s.bit F.TIM_STAT_NETLOCK = true) :
    (s.timeLoss st).get F.TIM_STAT_NETLOCK = 0 ∧ (s.timeLoss st).stage = st
    ∧ NewestFault (s.timeLoss st) (cnet 5) (s.get F.NET_TSTAT_TPORT) := by
  have hrec : NewestFault (s.record (cnet 5) (netCtx (s.get F.NET_TSTAT_TPORT) 0)) (cnet 5) (s.get F.NET_TSTAT_TPORT) := by
    rw [netCtx_port]; exact State.newestFault_record
  unfold State.timeLoss
  rw [if_pos h]
  generalize s.record (cnet 5) (netCtx (s.get F.NET_TSTAT_TPORT) 0) = x at *
  dsimp only
  have hlock := State.netUnlock_get (s := x)
  have hregs := State.netUnlock_regs (s := x)
  generalize x.netUnlock = y at *
  have hfault : NewestFault y (cnet 5) (s.get F.NET_TSTAT_TPORT) := by
    refine ⟨(hregs.rd _ ?_).trans hrec.1, (hregs.rd _ ?_).trans hrec.2⟩ <;> (unfold timeWords teamRange; decide)
  refine ⟨?_, ?_, ?_⟩
  · rw [State.modServo, State.modNet_get, State.setStage, State.get_put_word _ _ (by decide), hlock]
  · rw [State.stage, State.modServo, State.modNet_get, State.setStage, State.get_put_same _ _ (by decide)]
    exact Nat.mod_eq_of_lt hst
  · refine hfault.regsBut (l := [A.NET_TSTAT]) ?_ (by decide) (by decide)
    rw [State.modServo, regsBut_modNet]
    exact RegsBut.refl.put _ (by decide)

end Timeouts

/-- Settles O46: each time-out is its handler's own step, and the selection keeps the masters that were heard in time. -/
theorem servoTimeouts : Obligations.ServoTimeouts := by
  unfold Obligations.ServoTimeouts
  intro s t
  dsimp only
  intro hclk
  refine ⟨fun h3 h5 hlate hturn => ⟨_, exec_at rfl (State.act.eq_def ..) hclk hturn, ?_⟩,
    fun hst hlock hlate hturn => ⟨_, exec_at rfl (State.act.eq_def ..) hclk hturn, ?_⟩,
    fun hst hsrc hhold hlate hturn => ⟨_, exec_at rfl (State.act.eq_def ..) hclk hturn, ?_⟩,
    fun hoff hbw hlocked hlate hturn => ⟨_, exec_at rfl (State.act.eq_def ..) hclk hturn, ?_⟩⟩
  all_goals generalize s.advance t = a at *
  case refine_1 =>
    rw [State.syncTimeout_due h3 h5 hlate, netCtx_port]
    obtain ⟨hhold, hlock⟩ := State.holdover_get (s := a) (b := true)
    have hnet : (a.holdover true).net = a.net := State.holdover_regs.net
    generalize a.holdover true = x at *
    have hstage : (x.setStage stHOLD).stage = stHOLD := State.get_put_same _ _ (by decide)
    have hhold' : (x.setStage stHOLD).get F.TIM_STAT_HOLDOVER = 1 := (State.get_put_word _ _ (by decide)).trans hhold
    have hlock' : (x.setStage stHOLD).get F.TIM_STAT_NETLOCK = a.get F.TIM_STAT_NETLOCK :=
      (State.get_put_word _ _ (by decide)).trans hlock
    have hnet' : (x.setStage stHOLD).net = a.net := (State.put_net ..).trans hnet
    generalize x.setStage stHOLD = y at *
    refine ⟨?_, ?_, State.newestFault_record, ?_, ?_⟩
    · rw [State.stage, State.get_record (by decide)]; exact hstage
    · rw [State.get_record (by decide), hhold']
    · rw [State.bit, State.get_record (by decide), hlock', State.bit]
    · rw [State.record_net, hnet']
  case refine_2 =>
    have hdue : a.holdmax = a.timeLoss stHOLD := by
      unfold State.holdmax
      exact if_pos ⟨hst, hlock, hlate⟩
    rw [hdue]
    exact State.timeLoss_locked stHOLD (by decide) hlock
  case refine_3 =>
    have hdue : a.ppsLoss = (a.modServo (fun v => { v with ppsHold := some a.now, ppsGood := 0 })).record (cnet 7) 0 := by
      unfold State.ppsLoss
      exact if_pos ⟨hst, hsrc, by rw [hhold]; rfl, hlate⟩
    rw [hdue]
    have hmod : (a.modServo (fun v => { v with ppsHold := some a.now, ppsGood := 0 })).servo.ppsHold = some a.now
        ∧ (a.modServo (fun v => { v with ppsHold := some a.now, ppsGood := 0 })).servo.ppsGood = 0 := ⟨rfl, rfl⟩
    have hregs : RegsBut evtWords a (a.modServo (fun v => { v with ppsHold := some a.now, ppsGood := 0 })) := fun _ _ => rfl
    generalize a.modServo (fun v => { v with ppsHold := some a.now, ppsGood := 0 }) = x at *
    refine ⟨?_, ?_, State.newestFault_record, (regsBut_record (fun _ h => h)).mpr hregs⟩
    · rw [State.servo, State.record_net]; exact hmod.1
    · rw [State.servo, State.record_net]; exact hmod.2
  case refine_4 =>
    have hdue : a.announceTimeout = (a.modServo (fun v => { v with annAt := a.now })).runBmca := by
      unfold State.announceTimeout
      exact if_pos ⟨hoff, hbw, hlocked, hlate⟩
    rw [hdue]
    have hann : (a.modServo (fun v => { v with annAt := a.now })).servo.annAt = a.now := rfl
    have hstill : (a.modServo (fun v => { v with annAt := a.now })).heardStill = a.heardStill := rfl
    have hstage : (a.modServo (fun v => { v with annAt := a.now })).stage = a.stage := rfl
    have hcls : (a.modServo (fun v => { v with annAt := a.now })).clockClass = a.clockClass := rfl
    generalize a.modServo (fun v => { v with annAt := a.now }) = x at *
    obtain ⟨h1, h2⟩ := State.runBmca_heard (s := x) (by rw [hstage]; exact hoff)
    refine ⟨h1.trans hann, fun e he => ?_, fun hold hclass => ?_⟩
    · rw [h2, hstill] at he
      exact of_decide_eq_true (List.mem_filter.mp he).2
    · have hnone : a.heardStill = [] :=
        List.filter_eq_nil_iff.mpr fun e he => by simpa using hold e he
      obtain ⟨h3, h4⟩ := State.runBmca_alone (s := x) (by rw [hstage]; exact hoff) (hstill.trans hnone) (hcls.trans hclass)
      exact ⟨h3, fun k => h4 (hstage.trans k)⟩

end Sys2Proof.Machine
end

section
/-!
PROOFS. Chapter 16, the fault log: firmware's records, and the engine that writes and finds the journal.
-/
namespace Sys2Proof.Machine

section Write
variable {s : State} {m : Master} {v : Word}

/-- The writer that a record of firmware's own names. -/
def Master.logWriter : Master → Nat
  | .supA => 1
  | .supB => 2
  | .svc => 0

theorem State.masterWrite_logWrite (h : s.takes m A.EVT_LOGWR = true) : s.masterWrite m A.EVT_LOGWR v = s.tagged.logWrite m.writer v := by
  refine State.masterWrite_act (b := A.EVT_LOGWR) (idx := []) h (by decide +kernel) ?_ (by decide) fun r hr => ?_
  · unfold outsideWindows; decide
  · unfold State.actWrite
    simp +decide only [hr, if_true, if_false]

/-- The queue of the journal after a record. -/
theorem State.jrnQueue_queues (r : FaultRec) :
    (s.jrn.queue.length < 64 → (s.jrnQueue r).jrn = { s.jrn with queue := s.jrn.queue ++ [r] })
    ∧ (64 ≤ s.jrn.queue.length → (s.jrnQueue r).jrn = s.jrn
        ∧ (s.jrnQueue r).get F.EVT_LOGCNT_DROP = min 65535 (s.get F.EVT_LOGCNT_DROP + 1)) := by
  unfold State.jrnQueue
  refine ⟨fun h => ?_, fun h => ?_⟩
  · rw [if_pos h, State.put_jrn]; rfl
  · rw [if_neg (by omega)]
    exact ⟨State.put_jrn .., State.get_bumpSat _ (by decide)⟩

theorem State.evtLast_jrn (r : FaultRec) : (s.evtLast r).jrn = s.jrn := rfl

theorem evtLast_words {r : FaultRec} : RegsBut [A.EVT_LAST, A.EVT_LASTCTX, A.EVT_LASTT0, A.EVT_LASTT1] s (s.evtLast r) := by
  unfold State.evtLast State.putStamp
  dsimp only
  rw [regsBut_put (by decide), regsBut_wr (by decide), regsBut_wr (by decide), regsBut_wr (by decide)]
  exact RegsBut.refl

/-- What was reported last, with its context. -/
theorem State.newestFault_recordAt {code ctx time who : Nat} : NewestFault (s.recordAt code ctx time who) code ctx := by
  have hqueue (x : State) (r : FaultRec) : RegsBut [A.EVT_LOGSTAT, A.EVT_LOGCNT] x (x.jrnQueue r) := by
    unfold State.jrnQueue
    split
    · rw [regsBut_put (by decide), regsBut_modJrn]; exact RegsBut.refl
    · exact (regsBut_bumpSat (by decide)).mpr RegsBut.refl
  have hlast (x : State) (r : FaultRec) : NewestFault (x.evtLast r) r.code r.ctx.toNat := by
    unfold State.evtLast State.putStamp NewestFault
    dsimp only
    constructor
    · rw [State.rd_put_ne _ _ (by decide), State.rd_wr_ne _ _ (by decide), State.rd_wr_ne _ _ (by decide), State.rd_wr_same]
    · rw [State.rd_put_ne _ _ (by decide), State.rd_wr_ne _ _ (by decide), State.rd_wr_same, BitVec.ofNat_toNat, BitVec.setWidth_eq]
  unfold State.recordAt
  dsimp only
  have h := (hlast s ⟨code, BitVec.ofNat 32 ctx, time, who⟩).regsBut (hqueue _ ⟨code, BitVec.ofNat 32 ctx, time, who⟩) (by decide) (by decide)
  refine ⟨h.1, h.2.trans ?_⟩
  rw [BitVec.ofNat_toNat, BitVec.setWidth_eq]

/-- A record of firmware's own, whole. -/
structure LogTakes (s u : State) (code : Nat) (ctx : Word) (who : Nat) : Prop where
  newest : NewestFault u code ctx.toNat
  queued : s.jrn.queue.length < 64 → u.jrn = { s.jrn with queue := s.jrn.queue ++ [⟨code, ctx, s.tim.dev, who⟩] }
  dropped : 64 ≤ s.jrn.queue.length → u.jrn = s.jrn ∧ u.get F.EVT_LOGCNT_DROP = min 65535 (s.get F.EVT_LOGCNT_DROP + 1)
  regs : RegsBut evtWords s u

theorem State.recordAt_takes (code : Nat) (ctx : Word) (who : Nat) :
    LogTakes s (s.recordAt code ctx.toNat s.tim.dev who) code ctx who := by
  have hctx : BitVec.ofNat 32 ctx.toNat = ctx := by rw [BitVec.ofNat_toNat, BitVec.setWidth_eq]
  refine ⟨State.newestFault_recordAt, ?_, ?_, ?_⟩
  · intro h
    unfold State.recordAt
    dsimp only
    rw [hctx]
    exact (State.jrnQueue_queues (s := s.evtLast _) _).1 h
  · intro h
    unfold State.recordAt
    dsimp only
    obtain ⟨hjrn, hdrop⟩ := (State.jrnQueue_queues (s := s.evtLast ⟨code, BitVec.ofNat 32 ctx.toNat, s.tim.dev, who⟩) _).2 h
    refine ⟨hjrn, hdrop.trans ?_⟩
    rw [evtLast_words.get (by decide)]
  · unfold State.recordAt
    dsimp only
    rw [regsBut_jrnQueue (fun _ h => h), regsBut_evtLast (fun _ h => h)]
    exact RegsBut.refl

theorem State.tagged_jrn : s.tagged.jrn = s.jrn := by
  obtain ⟨_, _, h⟩ := s.tagSet_frame (s.tagsUse + 1); rw [State.tagged, h]

/-- The same, of a write that takes its tag. -/
theorem LogTakes.of_tagged {u : State} {code who : Nat} {ctx : Word} (h : LogTakes s.tagged u code ctx who) :
    NewestFault u code ctx.toNat
    ∧ (s.jrn.queue.length < 64 → u.jrn = { s.jrn with queue := s.jrn.queue ++ [⟨code, ctx, s.tim.dev, who⟩] })
    ∧ (64 ≤ s.jrn.queue.length → u.jrn = s.jrn ∧ u.get F.EVT_LOGCNT_DROP = min 65535 (s.get F.EVT_LOGCNT_DROP + 1))
    ∧ RegsBut (A.EVT_TAGHWM :: evtWords) s u := by
  obtain ⟨h1, h2, h3, h4⟩ := h
  rw [State.tagged_jrn, State.tagged_tim] at h2
  rw [State.tagged_jrn, State.tagged, State.get_tagSet_word _ _ (by decide)] at h3
  exact ⟨h1, h2, h3, (h4.mono (List.subset_cons_self ..)).of_tagged (by decide)⟩

end Write

/-! ## The engine's write of the oldest record -/

section Commit
variable {s : State} {r : FaultRec} {rest : List FaultRec}

/-- The sector at `a` is erased before its first slot is written. -/
def State.jrnErased (s : State) (a : Nat) : State :=
  if s.jrn.slot = 0 then
    ((s.bump F.SER_FLSCNT_ERASES).flsInvalidate (.erase a .image)).modJrn
      (fun j => { j with log := j.log.filter (fun e => e.sector != s.jrn.sector) })
  else s

/-- A slot of the sector at `a` is programmed, and the next one is taken. -/
def State.jrnProgrammed (x : State) (a sec slot : Nat) : State :=
  let x := (x.bump F.SER_FLSCNT_PROGS).flsInvalidate (.prog (a + 32 * slot) (List.replicate 32 0) .image)
  let x := x.modJrn (fun j =>
    if slot + 1 < jrnSlots then { j with slot := slot + 1 } else { j with slot := 0, sector := (sec + 1) % max 1 x.jrnSectors })
  x.put F.EVT_LOGSTAT_SLOT x.jrn.slot

/-- The oldest record is in the journal. -/
def State.jrnLogged (x : State) (sec slot : Nat) (r : FaultRec) (rest : List FaultRec) : State :=
  let seq := (x.rd A.EVT_LOGSEQ).toNat
  let x := (x.bump F.SER_FLSCNT_PROGS).modJrn (fun j => { j with
    queue := rest, log := j.log ++ [{ sector := sec, slot := slot, seq := seq, fault := r }] })
  (((x.put F.EVT_LOGSTAT_QLVL rest.length).put F.EVT_LOGSTAT_SECTOR sec).bump F.EVT_LOGSEQ_SEQ).jrnExclude sec

theorem State.jrnErased_load (a : Nat) : (s.jrnErased a).load = s.load := by
  unfold State.jrnErased
  split <;> rfl

theorem State.jrnCommit_eq (hq : s.jrn.queue = r :: rest) (hb : s.jrnBusy = true) (good : Bool) : ∃ a, s.jrnCommit good
      = if good then ((s.jrnErased a).jrnProgrammed a s.jrn.sector s.jrn.slot).jrnLogged s.jrn.sector s.jrn.slot r rest
        else ((s.jrnErased a).jrnProgrammed a s.jrn.sector s.jrn.slot).bumpSat F.EVT_LOGCNT_RETRY := by
  refine ⟨s.load.jrnBase + s.jrn.sector * 4096, ?_⟩
  unfold State.jrnCommit
  rw [hq]
  dsimp only
  rw [hb]
  by_cases h0 : s.jrn.slot = 0
  · rw [State.jrnErased, if_pos h0]
    simp only [h0, decide_true, if_true, Bool.not_true, Bool.false_eq_true, if_false]
    cases good <;> simp only [State.jrnProgrammed, State.jrnLogged, Bool.false_eq_true, Bool.not_false, Bool.not_true, if_true, if_false]
  · rw [State.jrnErased, if_neg h0]
    simp only [h0, decide_false, Bool.not_true, Bool.false_eq_true, if_false]
    cases good <;> simp only [State.jrnProgrammed, State.jrnLogged, Bool.false_eq_true, Bool.not_false, Bool.not_true, if_true, if_false]

/-- The words of the engine's work. -/
def jrnWords : List Nat := [A.EVT_LOGSTAT, A.EVT_LOGSEQ, A.SER_FLSCNT]

/-- What a write of a slot leaves. -/
structure JrnStep (s u : State) : Prop where
  load : u.load = s.load
  regs : RegsBut [A.EVT_LOGSTAT, A.SER_FLSCNT] s u

theorem State.jrnErased_step (a : Nat) : JrnStep s (s.jrnErased a)
    ∧ (s.jrn.slot ≠ 0 → (s.jrnErased a).jrn = s.jrn)
    ∧ (s.jrnErased a).jrn.sector = s.jrn.sector := by
  unfold State.jrnErased
  by_cases h : s.jrn.slot = 0
  · rw [if_pos h]
    exact ⟨⟨by rw [State.flsInvalidate, State.modJrn_load, State.modSer_load, State.bump_eq, State.put_load], by rw [State.flsInvalidate, regsBut_modJrn, regsBut_modSer, State.bump_eq, regsBut_put (by decide)]; exact RegsBut.refl⟩,
      fun k => absurd h k, by rw [State.modJrn_jrn, State.flsInvalidate, State.modSer_jrn, State.bump_eq, State.put_jrn]⟩
  · rw [if_neg h]
    exact ⟨⟨rfl, RegsBut.refl⟩, fun _ => rfl, rfl⟩

theorem State.jrnProgrammed_step {a sec slot : Nat} (h : slot < 127) (x : State) : JrnStep x (x.jrnProgrammed a sec slot)
    ∧ (x.jrnProgrammed a sec slot).jrn = { x.jrn with slot := slot + 1 } := by
  have hslot : slot + 1 < jrnSlots := by unfold jrnSlots; omega
  unfold State.jrnProgrammed
  dsimp only
  simp only [if_pos hslot]
  refine ⟨⟨?_, ?_⟩, ?_⟩
  · rw [State.put_load, State.modJrn_load, State.flsInvalidate, State.modSer_load, State.bump_eq, State.put_load]
  · rw [regsBut_put (by decide), regsBut_modJrn, State.flsInvalidate, regsBut_modSer, State.bump_eq, regsBut_put (by decide)]
    exact RegsBut.refl
  · rw [State.put_jrn, State.modJrn_jrn, State.flsInvalidate, State.modSer_jrn, State.bump_eq, State.put_jrn]

/-- The record logged, with its sequence number, in a journal of more than one sector. -/
theorem State.jrnLogged_shows {x : State} {sec slot : Nat} (hn : 1 < x.jrnSectors) (hsec : sec < x.jrnSectors) :
    (x.jrnLogged sec slot r rest).jrn.queue = rest
    ∧ ⟨sec, slot, x.get F.EVT_LOGSEQ_SEQ, r⟩ ∈ (x.jrnLogged sec slot r rest).jrn.log
    ∧ (x.jrnLogged sec slot r rest).get F.EVT_LOGSEQ_SEQ = (x.get F.EVT_LOGSEQ_SEQ + 1) % 2 ^ 32
    ∧ (x.jrnLogged sec slot r rest).jrn.slot = x.jrn.slot ∧ (x.jrnLogged sec slot r rest).jrn.sector = x.jrn.sector
    ∧ (∀ e ∈ (x.jrnLogged sec slot r rest).jrn.log, e.sector ≠ (sec + 1) % x.jrnSectors)
    ∧ RegsBut [A.EVT_LOGSTAT, A.EVT_LOGSEQ, A.SER_FLSCNT] x (x.jrnLogged sec slot r rest) := by
  have hseq : (x.rd A.EVT_LOGSEQ).toNat = x.get F.EVT_LOGSEQ_SEQ :=
    (Nat.mod_eq_of_lt (x.rd A.EVT_LOGSEQ).isLt).symm
  have hgone : sec ≠ (sec + 1) % x.jrnSectors := by
    rcases Nat.lt_or_ge (sec + 1) x.jrnSectors with h | h
    · rw [Nat.mod_eq_of_lt h]; omega
    · rw [show sec + 1 = x.jrnSectors by omega, Nat.mod_self]; omega
  have hmax : max 1 x.jrnSectors = x.jrnSectors := by omega
  unfold State.jrnLogged
  dsimp only
  rw [hseq]
  generalize hy : (x.bump F.SER_FLSCNT_PROGS).modJrn (fun j => { j with
    queue := rest, log := j.log ++ [{ sector := sec, slot := slot, seq := x.get F.EVT_LOGSEQ_SEQ, fault := r }] }) = y
  have hjrn : y.jrn = { x.jrn with
      queue := rest, log := x.jrn.log ++ [{ sector := sec, slot := slot, seq := x.get F.EVT_LOGSEQ_SEQ, fault := r }] } := by
    rw [← hy, State.modJrn_jrn, State.bump_eq, State.put_jrn]
  have hload : y.load = x.load := by rw [← hy, State.modJrn_load, State.bump_eq, State.put_load]
  have hregs : RegsBut [A.EVT_LOGSTAT, A.EVT_LOGSEQ, A.SER_FLSCNT] x y := by
    rw [← hy, regsBut_modJrn, State.bump_eq, regsBut_put (by decide)]; exact RegsBut.refl
  have hget : y.get F.EVT_LOGSEQ_SEQ = x.get F.EVT_LOGSEQ_SEQ := by
    rw [← hy, State.modJrn_get, State.bump_eq, State.get_put_word _ _ (by decide)]
  clear hy
  generalize hz : ((y.put F.EVT_LOGSTAT_QLVL rest.length).put F.EVT_LOGSTAT_SECTOR sec).bump F.EVT_LOGSEQ_SEQ = z
  have hzjrn : z.jrn = y.jrn := by rw [← hz, State.bump_eq, State.put_jrn, State.put_jrn, State.put_jrn]
  have hzload : z.load = x.load := by rw [← hz, State.bump_eq, State.put_load, State.put_load, State.put_load, hload]
  have hzregs : RegsBut [A.EVT_LOGSTAT, A.EVT_LOGSEQ, A.SER_FLSCNT] x z := by
    rw [← hz, State.bump_eq, regsBut_put (by decide), regsBut_put (by decide), regsBut_put (by decide)]; exact hregs
  have hzget : z.get F.EVT_LOGSEQ_SEQ = (x.get F.EVT_LOGSEQ_SEQ + 1) % 2 ^ 32 := by
    rw [← hz, State.bump_eq, State.get_put_same _ _ (by decide), State.get_put_word _ _ (by decide), State.get_put_word _ _ (by decide),
      hget]
    rfl
  clear hz
  have hsectors : z.jrnSectors = x.jrnSectors := by rw [State.jrnSectors, hzload, State.jrnSectors]
  unfold State.jrnExclude
  dsimp only
  rw [State.modJrn_jrn, State.modJrn_get, regsBut_modJrn, hsectors, hmax, hzjrn, hjrn]
  refine ⟨rfl, ?_, hzget, rfl, rfl, ?_, hzregs⟩
  · exact List.mem_filter.mpr ⟨by simp, by simpa using hgone⟩
  · intro e he
    simpa using (List.mem_filter.mp he).2

end Commit

/-! ## The scan after Paddock lock -/

section Scan
variable {s : State}

theorem State.jrnScan_empty (h : s.bit F.EVT_LOGSTAT_SCAN = true) : (s.jrnScan [] none).jrn.ready = true
    ∧ (s.jrnScan [] none).jrn.log = [] ∧ (s.jrnScan [] none).jrn.sector = 0 ∧ (s.jrnScan [] none).jrn.slot = 0
    ∧ (s.jrnScan [] none).rd A.EVT_LOGSEQ = 0 ∧ (s.jrnScan [] none).bit F.EVT_LOGSTAT_SCAN = false := by
  have heq : s.jrnScan [] none = ((((s.putB F.EVT_LOGSTAT_SCAN false).modJrn (fun j => { j with log := [], ready := true, sector := 0, slot := 0 })).put
      F.EVT_LOGSTAT_SECTOR 0).put F.EVT_LOGSTAT_SLOT 0).wr A.EVT_LOGSEQ 0 := by
    unfold State.jrnScan
    rw [h]
    simp only [List.mergeSort_nil]
    rfl
  rw [heq, State.wr_jrn, State.put_jrn, State.put_jrn, State.modJrn_jrn, State.rd_wr_same, State.bit, State.get_wr_word _ _ (by decide),
    State.get_put_bits _ _ (by decide) (by decide), State.get_put_bits _ _ (by decide) (by decide), State.modJrn_get, State.putB_eq,
    State.get_put_same _ _ (by decide)]
  exact ⟨rfl, rfl, rfl, rfl, rfl, rfl⟩

theorem State.jrnScan_one {e : JEntry} {b : Fin 128} (h : s.bit F.EVT_LOGSTAT_SCAN = true) (hn : 1 < s.jrnSectors)
    (he : e.sector < s.jrnSectors) : (s.jrnScan [e] (some b)).jrn.ready = true
    ∧ (s.jrnScan [e] (some b)).jrn.log = [e] ∧ (s.jrnScan [e] (some b)).jrn.sector = e.sector ∧ (s.jrnScan [e] (some b)).jrn.slot = b
    ∧ (s.jrnScan [e] (some b)).rd A.EVT_LOGSEQ = BitVec.ofNat 32 (e.seq + 1) ∧ (s.jrnScan [e] (some b)).jrn.queue = s.jrn.queue := by
  have hgone : e.sector ≠ (e.sector + 1) % s.jrnSectors := by
    rcases Nat.lt_or_ge (e.sector + 1) s.jrnSectors with h | h
    · rw [Nat.mod_eq_of_lt h]; omega
    · rw [show e.sector + 1 = s.jrnSectors by omega, Nat.mod_self]; omega
  have hmax : max 1 s.jrnSectors = s.jrnSectors := by omega
  have heq : s.jrnScan [e] (some b) = (((((s.putB F.EVT_LOGSTAT_SCAN false).modJrn
      (fun j => { j with log := [e], ready := true, sector := e.sector, slot := b })).put F.EVT_LOGSTAT_SECTOR e.sector).put
      F.EVT_LOGSTAT_SLOT b).wr A.EVT_LOGSEQ (BitVec.ofNat 32 (e.seq + 1))).jrnExclude e.sector := by
    unfold State.jrnScan
    rw [h]
    simp only [List.mergeSort_singleton]
    rfl
  rw [heq]
  generalize hz : ((((s.putB F.EVT_LOGSTAT_SCAN false).modJrn
      (fun j => { j with log := [e], ready := true, sector := e.sector, slot := b })).put F.EVT_LOGSTAT_SECTOR e.sector).put
      F.EVT_LOGSTAT_SLOT b).wr A.EVT_LOGSEQ (BitVec.ofNat 32 (e.seq + 1)) = z
  have hjrn : z.jrn = { s.jrn with log := [e], ready := true, sector := e.sector, slot := b } := by
    rw [← hz, State.wr_jrn, State.put_jrn, State.put_jrn, State.modJrn_jrn, State.putB_eq, State.put_jrn]
  have hload : z.load = s.load := by
    rw [← hz, State.wr_load, State.put_load, State.put_load, State.modJrn_load, State.putB_eq, State.put_load]
  have hrd : z.rd A.EVT_LOGSEQ = BitVec.ofNat 32 (e.seq + 1) := by rw [← hz, State.rd_wr_same]
  clear hz
  have hsectors : z.jrnSectors = s.jrnSectors := by rw [State.jrnSectors, hload, State.jrnSectors]
  unfold State.jrnExclude
  dsimp only
  rw [State.modJrn_jrn, State.modJrn_rd, hsectors, hmax, hjrn]
  refine ⟨rfl, ?_, rfl, rfl, hrd, rfl⟩
  simpa using hgone

end Scan

/-- Settles O57: firmware's record is a record of the device's own, and the engine's write and scan are read off their parts. -/
theorem faultLog : Obligations.FaultLog := by
  unfold Obligations.FaultLog
  intro s t m v r rest e b
  dsimp only
  refine ⟨fun htakes hturn => ⟨_, exec_any rfl (State.act.eq_def ..) hturn, ?_⟩,
    fun hclk hq hb => ⟨fun hslot hn hsec hturn => ⟨_, exec_at rfl (State.act.eq_def ..) hclk hturn, ?_⟩,
      fun hpos hslot hturn => ⟨_, exec_at rfl (State.act.eq_def ..) hclk hturn, ?_⟩⟩,
    fun hclk hscan => ⟨fun hturn => ⟨_, exec_at rfl (State.act.eq_def ..) hclk hturn, State.jrnScan_empty hscan⟩,
      fun hn hsec hturn => ⟨_, exec_at rfl (State.act.eq_def ..) hclk hturn, State.jrnScan_one hscan hn hsec⟩⟩⟩
  all_goals generalize s.advance t = a at *
  case refine_1 =>
    rw [State.masterWrite_logWrite htakes]
    have hctx : a.tagged.rd A.EVT_LOGWRCTX = a.rd A.EVT_LOGWRCTX := State.rd_tagSet_ne _ _ (by decide)
    have h (who : Nat) := (State.recordAt_takes (s := a.tagged) (v.toNat % 2 ^ 16) (a.tagged.rd A.EVT_LOGWRCTX) who).of_tagged
    rw [hctx] at h
    have hwrite : a.tagged.logWrite m.writer v
        = a.tagged.recordAt (v.toNat % 2 ^ 16) (a.rd A.EVT_LOGWRCTX).toNat a.tagged.tim.dev m.logWriter := by
      rw [← hctx]
      cases m <;> rfl
    rw [hwrite]
    cases m <;> exact h _
  case refine_2 =>
    obtain ⟨ad, heq⟩ := State.jrnCommit_eq hq hb true
    rw [heq, if_pos rfl]
    obtain ⟨herased, -, hsector⟩ := State.jrnErased_step (s := a) ad
    obtain ⟨hprog, hjrn⟩ := State.jrnProgrammed_step (a := ad) (sec := a.jrn.sector) hslot (a.jrnErased ad)
    generalize (a.jrnErased ad).jrnProgrammed ad a.jrn.sector a.jrn.slot = x at *
    have hsectors : x.jrnSectors = a.jrnSectors := by
      rw [State.jrnSectors, hprog.load, herased.load, State.jrnSectors]
    have hregs : RegsBut [A.EVT_LOGSTAT, A.SER_FLSCNT] a x := herased.regs.trans hprog.regs
    have hseq : x.get F.EVT_LOGSEQ_SEQ = a.get F.EVT_LOGSEQ_SEQ := hregs.get (by decide)
    obtain ⟨h1, h2, h3, h4, h5, h6, h7⟩ := State.jrnLogged_shows (x := x) (sec := a.jrn.sector) (slot := a.jrn.slot) (r := r) (rest := rest)
      (hsectors ▸ hn) (hsectors ▸ hsec)
    rw [hseq] at h2 h3
    rw [hjrn] at h4 h5
    rw [hsectors] at h6
    exact ⟨h1, h2, h3, h4, h5.trans hsector, h6, (hregs.mono (by decide)).trans h7⟩
  case refine_3 =>
    obtain ⟨ad, heq⟩ := State.jrnCommit_eq hq hb false
    rw [heq, if_neg (by decide)]
    obtain ⟨herased, hkeep, -⟩ := State.jrnErased_step (s := a) ad
    obtain ⟨hprog, hjrn⟩ := State.jrnProgrammed_step (a := ad) (sec := a.jrn.sector) hslot (a.jrnErased ad)
    rw [hkeep (by omega)] at hjrn
    generalize (a.jrnErased ad).jrnProgrammed ad a.jrn.sector a.jrn.slot = x at *
    have hregs : RegsBut [A.EVT_LOGSTAT, A.SER_FLSCNT] a x := herased.regs.trans hprog.regs
    refine ⟨(State.put_jrn ..).trans hjrn, ?_, ?_⟩
    · rw [State.get_bumpSat _ (by decide), hregs.get (by decide)]; rfl
    · rw [State.bumpSat, State.get_put_word _ _ (by decide), hregs.get (by decide)]

end Sys2Proof.Machine
end

section
/-!
PROOFS. What a step leaves of the registers, field by field.
-/
namespace Sys2Proof.Machine

/-- The bits of two fields do not overlap. -/
@[reducible] def Apart (g f : Fld) : Prop := g.addr ≠ f.addr ∨ g.lo + g.width ≤ f.lo ∨ f.lo + f.width ≤ g.lo

/-- Every field apart from the fields `W` is as it was. -/
def FldsBut (W : Fld → Prop) (s u : State) : Prop := ∀ g, (∀ f, W f → Apart g f) → u.get g = s.get g

section FldsBut
variable {W V : Fld → Prop} {a s u x : State} {f : Fld} {n : Nat}

/-- A whole word, as a field. -/
def wordOf (b : Nat) : Fld := ⟨b, 0, 32⟩

theorem State.rd_eq_get (b : Nat) : s.rd b = BitVec.ofNat 32 (s.get (wordOf b)) := by
  have h : s.get (wordOf b) = (s.rd b).toNat % 2 ^ 32 := rfl
  rw [h, Nat.mod_eq_of_lt (s.rd b).isLt, BitVec.ofNat_toNat, BitVec.setWidth_eq]

/-- A field of a word that is apart from the whole word has no bits. -/
theorem Apart.get_wordOf {g : Fld} {b : Nat} (h : Apart g (wordOf b)) (hb : g.addr = b) : s.get g = 0 := by
  have hbits : g.lo + g.width ≤ 0 ∨ 32 ≤ g.lo := by
    rcases h with h | h
    · exact absurd hb h
    · simpa [wordOf] using h
  have hget : s.get g = (s.rd g.addr).toNat >>> g.lo % 2 ^ g.width := rfl
  rw [hget]
  rcases hbits with h0 | h32
  · rw [show g.width = 0 by omega, pow_zero, Nat.mod_one]
  · have hlt : (s.rd g.addr).toNat < 2 ^ g.lo := lt_of_lt_of_le (s.rd g.addr).isLt (Nat.pow_le_pow_right (by decide) h32)
    rw [Nat.shiftRight_eq_div_pow, Nat.div_eq_of_lt hlt, Nat.zero_mod]

namespace FldsBut

theorem refl : FldsBut W s s := fun _ _ => rfl

theorem trans (h : FldsBut W s u) (k : FldsBut W u x) : FldsBut W s x := fun g hg => (k g hg).trans (h g hg)

theorem mono (h : FldsBut W s u) (hw : ∀ f, W f → V f) : FldsBut V s u := fun g hg => h g fun f hf => hg f (hw f hf)

/-- Nothing of the register file has changed since. -/
theorem of_regs (h : FldsBut W a s) (k : u.regs = s.regs) : FldsBut W a u := fun g hg => by
  rw [← h g hg]; unfold State.get State.rd; rw [k]

theorem put (h : FldsBut W a s) (n : Nat) (hf : W f) (hb : f.lo + f.width ≤ 32) : FldsBut W a (s.put f n) := fun g hg => by
  rw [← h g hg]
  rcases hg f hf with hg | hg
  · exact State.get_put_word _ _ hg
  · exact State.get_put_bits _ _ hb hg

theorem putI (h : FldsBut W a s) (n : Int) (hf : W f) (hb : f.lo + f.width ≤ 32) : FldsBut W a (s.putI f n) := h.put _ hf hb

theorem putB (h : FldsBut W a s) (b : Bool) (hf : W f) (hb : f.lo + f.width ≤ 32) : FldsBut W a (s.putB f b) := h.put _ hf hb

theorem bump (h : FldsBut W a s) (hf : W f) (hb : f.lo + f.width ≤ 32) : FldsBut W a (s.bump f) := h.put _ hf hb

theorem bumpSat (h : FldsBut W a s) (hf : W f) (hb : f.lo + f.width ≤ 32) : FldsBut W a (s.bumpSat f) := h.put _ hf hb

theorem raise (h : FldsBut W a s) (hf : W f) (hb : f.lo + f.width ≤ 32) : FldsBut W a (s.raise f) :=
  (h.put 1 hf hb).of_regs rfl

theorem raiseMax (h : FldsBut W a s) (n : Nat) (hf : W f) (hb : f.lo + f.width ≤ 32) : FldsBut W a (s.raiseMax f n) := by
  unfold State.raiseMax State.putMax
  split
  · exact (h.put n hf hb).of_regs rfl
  · exact h.of_regs rfl

theorem wr {b : Nat} (h : FldsBut W a s) (w : Word) (hf : W (wordOf b)) : FldsBut W a (s.wr b w) := fun g hg => by
  rw [← h g hg]
  by_cases hb : g.addr = b
  · rw [(hg _ hf).get_wordOf hb, (hg _ hf).get_wordOf hb]
  · exact State.get_wr_word _ _ hb

theorem ite {c : Prop} [Decidable c] (h : FldsBut W a s) (k : FldsBut W a u) : FldsBut W a (if c then s else u) := by
  split
  · exact h
  · exact k

theorem each {α : Type} {l : List α} {e : α → State → State} (h : FldsBut W a s) (he : ∀ y s, FldsBut W s (e y s)) :
    FldsBut W a (each l e s) :=
  each_keeps (fun u => FldsBut W a u) l e (fun y _ _ hu => hu.trans (he y _)) s h

theorem get (h : FldsBut W s u) {g : Fld} (hg : ∀ f, W f → Apart g f) : u.get g = s.get g := h g hg

theorem bit (h : FldsBut W s u) {g : Fld} (hg : ∀ f, W f → Apart g f) : u.bit g = s.bit g := by
  rw [State.bit, h g hg, State.bit]

theorem getI (h : FldsBut W s u) {g : Fld} (hg : ∀ f, W f → Apart g f) : u.getI g = s.getI g := by
  rw [State.getI, h g hg, State.getI]

/-- A word that none of the fields is in. -/
theorem rd (h : FldsBut W s u) {b : Nat} (hb : ∀ f, W f → b ≠ f.addr) : u.rd b = s.rd b := by
  rw [State.rd_eq_get, h _ fun f hf => Or.inl (hb f hf), ← State.rd_eq_get]

theorem regsBut {l : List Nat} (h : FldsBut W s u) (hl : ∀ f, W f → f.addr ∈ l) : RegsBut l s u :=
  fun _ hb => h.rd fun _ hf e => hb (e ▸ hl _ hf)

/-- Words, as sets of fields. -/
theorem of_regsBut {l : List Nat} (h : RegsBut l s u) (hl : ∀ b ∈ l, W (wordOf b)) : FldsBut W s u := fun g hg => by
  by_cases hm : g.addr ∈ l
  · rw [(hg _ (hl _ hm)).get_wordOf rfl, (hg _ (hl _ hm)).get_wordOf rfl]
  · exact h.get hm

theorem record (h : FldsBut W a s) (code ctx : Nat) (hl : ∀ b ∈ evtWords, W (wordOf b)) : FldsBut W a (s.record code ctx) :=
  h.trans (of_regsBut ((regsBut_record (fun _ k => k)).mpr RegsBut.refl) hl)

theorem tagged (h : FldsBut W a s) (hl : W (wordOf A.EVT_TAGHWM)) : FldsBut W a s.tagged :=
  h.trans (of_regsBut (RegsBut.refl.tagged (List.mem_singleton_self _)) fun _ hb => List.mem_singleton.mp hb ▸ hl)

end FldsBut
end FldsBut
end Sys2Proof.Machine
end

section
/-!
PROOFS. Chapter 8: the over-current filter of a channel, its conditions and the loss of its bitstream.
-/
namespace Sys2Proof.Machine

section Oc
variable {s u x a : State} {c : Fin 144} {t : Tick}

/-- The fields that forming the over-current results moves. -/
def ocFields (c : Fin 144) : List Fld :=
  [F.SDM_OCRES_RES c, F.SDM_STAT_SAT c, F.SDM_CNT_SATCNT c, F.SDM_PKHI_PEAK c, F.SDM_PKLO_PEAK c]

/-- Nothing of a channel but its over-current results and the tick they stand at differs. -/
structure OcKept (c : Fin 144) (s u : State) : Prop where
  flds : FldsBut (· ∈ ocFields c) s u
  sdm : ∃ at_, u.sdm c = { s.sdm c with ocAt := at_ }
  rest : u = { s with regs := u.regs, same := u.same, sdms := u.sdms }

/-- A result of one tick moves registers alone. -/
structure OcStep (c : Fin 144) (s u : State) : Prop where
  flds : FldsBut (· ∈ ocFields c) s u
  rest : u = { s with regs := u.regs, same := u.same }

theorem OcStep.refl : OcStep c s s := ⟨FldsBut.refl, rfl⟩

theorem OcStep.trans (h : OcStep c s u) (k : OcStep c u x) : OcStep c s x := by
  refine ⟨h.flds.trans k.flds, ?_⟩
  rw [k.rest, h.rest]

theorem OcStep.put {f : Fld} (n : Nat) (hf : f ∈ ocFields c) (hb : f.lo + f.width ≤ 32) : OcStep c s (s.put f n) :=
  ⟨FldsBut.refl.put n hf hb, rfl⟩

theorem OcStep.raise {f : Fld} (hf : f ∈ ocFields c) (hb : f.lo + f.width ≤ 32) : OcStep c s (s.raise f) :=
  ⟨FldsBut.refl.raise hf hb, rfl⟩

theorem State.sdmSat_step (b : Bool) : OcStep c s (s.sdmSat c b t) := by
  have hcnt (x : State) : OcStep c x (x.bump (F.SDM_CNT_SATCNT c)) := OcStep.put _ (by simp [ocFields]) (by simp [F.SDM_CNT_SATCNT])
  unfold State.sdmSat
  split
  · split
    · exact (OcStep.raise (by simp [ocFields]) (by simp [F.SDM_STAT_SAT])).trans (hcnt _)
    · rw [State.putB_eq]
      exact (OcStep.put _ (by simp [ocFields]) (by simp [F.SDM_STAT_SAT])).trans (hcnt _)
  · exact OcStep.refl

theorem State.ocPeak_step (r : Int) : OcStep c s (s.ocPeak c r) := by
  have hhi (x : State) : OcStep c x (x.putI (F.SDM_PKHI_PEAK c) r) := OcStep.put _ (by simp [ocFields]) (by simp [F.SDM_PKHI_PEAK])
  have hlo (x : State) : OcStep c x (x.putI (F.SDM_PKLO_PEAK c) r) := OcStep.put _ (by simp [ocFields]) (by simp [F.SDM_PKLO_PEAK])
  unfold State.ocPeak
  split
  · dsimp only
    split
    · split
      · exact (hhi _).trans (hlo _)
      · exact hhi _
    · split
      · exact hlo _
      · exact OcStep.refl
  · exact OcStep.refl

theorem State.ocTick_step : OcStep c s (s.ocTick c t) := by
  unfold State.ocTick
  generalize s.ocResult c t = p
  have hres : OcStep c s (s.putI (F.SDM_OCRES_RES c) p.1) := OcStep.put _ (by simp [ocFields]) (by simp [F.SDM_OCRES_RES])
  exact (hres.trans (State.sdmSat_step p.2)).trans (State.ocPeak_step p.1)

theorem State.ocTicks_step (k : Nat) : OcStep c s (s.ocTicks c t k) := by
  induction k with
  | zero => exact OcStep.refl
  | succ k ih => exact ih.trans State.ocTick_step

theorem State.ocSync_kept : OcKept c s (s.ocSync c t) := by
  unfold State.ocSync
  split
  · exact ⟨FldsBut.refl, ⟨(s.sdm c).ocAt, rfl⟩, rfl⟩
  · dsimp only
    have h := State.ocTicks_step (c := c) (s := s) (t := (s.sdm c).ocAt) (t - (s.sdm c).ocAt)
    generalize s.ocTicks c (s.sdm c).ocAt (t - (s.sdm c).ocAt) = y at *
    have hsdm : y.sdm c = s.sdm c := by rw [h.rest]; rfl
    refine ⟨h.flds.of_regs rfl, ⟨t, ?_⟩, ?_⟩
    · rw [← hsdm, State.sdm, State.modSdm_sdms]
      exact Vector.getElem_set_self _
    · rw [h.rest]; rfl

/-- The fields that a condition of a channel is read from. -/
theorem ocFields_config : ∀ c : Fin 144, ∀ g ∈ [F.SDM_CFG_MODE c, F.SDM_CFG_LOSSTRIP c, F.SDM_CFG_OCEN c, F.SDM_OSR_OCOSR c, F.SDM_GAIN_GAIN c,
    F.SDM_SCALE_SHIFT c, F.SDM_OFS_OFS c, F.SDM_OCHI_THR c, F.SDM_OCLO_THR c, F.SDM_STAT_OCVALID c], ∀ f ∈ ocFields c, Apart g f := by
  decide +kernel

/-- The levels of the conditions are those of before. -/
theorem OcKept.ocCond (h : OcKept c s u) (cond : Cond) : u.ocCond c cond t = s.ocCond c cond t := by
  obtain ⟨_, hsdm⟩ := h.sdm
  have hbits : (u.sdm c).bits = (s.sdm c).bits := by rw [hsdm]
  have hget := ocFields_config c
  simp only [List.forall_mem_cons, List.not_mem_nil, false_imp_iff, implies_true, and_true] at hget
  obtain ⟨hmode, hloss, hocen, hosr, hgain, hshift, hofs, hthi, htlo, hvalid⟩ := hget
  unfold State.ocCond State.sdmMode State.ocValid State.ocResult State.ocW State.sdmScale
  simp only [hbits, h.flds.get hmode, h.flds.bit hloss, h.flds.bit hocen, h.flds.get hosr, h.flds.getI hgain, h.flds.getI hshift,
    h.flds.getI hofs, h.flds.getI hthi, h.flds.getI htlo, h.flds.bit hvalid]

end Oc

/-! ## A condition takes its level -/

section Cond
variable {s u a : State} {c : Fin 144} {cond : Cond} {lvl : Bool} {t : Tick}

/-- The field that shows a condition of a channel. -/
def ocAct (c : Fin 144) : Cond → Fld
  | .h => F.SDM_STAT_OCHI_ACT c
  | .l => F.SDM_STAT_OCLO_ACT c

theorem ocAct_ok : ∀ c : Fin 144, (ocAct c cond).lo + (ocAct c cond).width ≤ 32 ∧ (ocAct c cond).width = 1 := by
  intro c; cases cond <;> simp [ocAct, F.SDM_STAT_OCHI_ACT, F.SDM_STAT_OCLO_ACT]

theorem State.ocCondSet_eq : s.ocCondSet c cond = (((s.putB (ocAct c cond) (s.ocCond c cond s.now)).setCond (.sdm c) cond
    (s.ocCond c cond s.now) (s.putB (ocAct c cond) (s.ocCond c cond s.now)).now).activeUpdate (.sdm c)) := by
  cases cond <;> rfl

theorem State.setCond_regs (src : TripSrc) : (s.setCond src cond lvl t).regs = s.regs := by
  have hmod (f : FiltSt → FiltSt) : (s.modFilt src cond f).regs = s.regs := by
    cases src <;> cases cond <;> rfl
  unfold State.setCond
  split
  · rfl
  · dsimp only
    split
    · exact hmod _
    · exact hmod _

theorem State.setCond_sdms (src : TripSrc) : (s.setCond src cond lvl t).sdms = s.sdms := by
  have hmod (f : FiltSt → FiltSt) : (s.modFilt src cond f).sdms = s.sdms := by
    cases src <;> cases cond <;> rfl
  unfold State.setCond
  split
  · rfl
  · dsimp only
    split
    · exact hmod _
    · exact hmod _

theorem FiltSt.change_raw (f : FiltSt) : (f.change lvl t).raw = lvl := by
  unfold FiltSt.change
  split
  · assumption
  · split <;> rfl

theorem State.setCond_raw : ((s.setCond (.sdm c) cond lvl t).srcFilt (.sdm c) cond).raw = lvl := by
  have hmod (f : FiltSt → FiltSt) : (s.modFilt (.sdm c) cond f).srcFilt (.sdm c) cond = f (s.srcFilt (.sdm c) cond) := by
    cases cond <;> simp [State.modFilt, State.srcFilt]
  unfold State.setCond
  split
  · assumption
  · dsimp only
    split
    · rw [hmod, FiltSt.change_raw]
    · exact (congrArg FiltSt.raw (hmod _)).trans (FiltSt.change_raw _)

/-- The active bits of the legs in a scope. -/
theorem State.activeUpdate_kept (src : TripSrc) : FldsBut (fun f => ∃ n : Fin 72, f = F.LEG_TRIPSTAT_ACTIVE n) s (s.activeUpdate src)
    ∧ (s.activeUpdate src).sdmTrips = s.sdmTrips ∧ (s.activeUpdate src).sdms = s.sdms := by
  unfold State.activeUpdate
  refine ⟨FldsBut.refl.each fun n y => FldsBut.refl.putB _ ⟨n, rfl⟩ (by simp [F.LEG_TRIPSTAT_ACTIVE]), ?_, ?_⟩
  · exact each_const (fun y : State => y.sdmTrips) _ _ (fun n _ y => State.put_sdmTrips ..) s
  · exact each_const (fun y : State => y.sdms) _ _ (fun n _ y => State.put_sdms ..) s

/-- The fields of a condition's change. -/
def condFields (c : Fin 144) (cond : Cond) (f : Fld) : Prop := f = ocAct c cond ∨ ∃ n : Fin 72, f = F.LEG_TRIPSTAT_ACTIVE n

/-- A field of a channel is none of a leg's. -/
theorem apart_active {g : Fld} (h : 0x70000 ≤ g.addr) (n : Fin 72) : Apart g (F.LEG_TRIPSTAT_ACTIVE n) := by
  left; simp only [F.LEG_TRIPSTAT_ACTIVE, A.LEG_TRIPSTAT]; omega

/-- A condition that takes its level shows it, and the rest of the channel is as it was. -/
theorem State.ocCondSet_takes : (s.ocCondSet c cond).bit (ocAct c cond) = s.ocCond c cond s.now
    ∧ ((s.ocCondSet c cond).srcFilt (.sdm c) cond).raw = s.ocCond c cond s.now
    ∧ FldsBut (condFields c cond) s (s.ocCondSet c cond) ∧ (s.ocCondSet c cond).sdms = s.sdms := by
  rw [State.ocCondSet_eq]
  generalize s.ocCond c cond s.now = lvl
  have hput : (s.putB (ocAct c cond) lvl).bit (ocAct c cond) = lvl := by
    rw [State.bit, State.putB_eq, State.get_put_same _ _ (ocAct_ok c).1, (ocAct_ok c).2]
    cases lvl <;> rfl
  have hflds : FldsBut (condFields c cond) s (s.putB (ocAct c cond) lvl) := FldsBut.refl.putB _ (Or.inl rfl) (ocAct_ok c).1
  have hsdms : (s.putB (ocAct c cond) lvl).sdms = s.sdms := State.put_sdms ..
  generalize s.putB (ocAct c cond) lvl = x at *
  have hregs := State.setCond_regs (s := x) (cond := cond) (lvl := lvl) (t := x.now) (.sdm c)
  have hsdms' := State.setCond_sdms (s := x) (cond := cond) (lvl := lvl) (t := x.now) (.sdm c)
  have hraw := State.setCond_raw (s := x) (c := c) (cond := cond) (lvl := lvl) (t := x.now)
  generalize x.setCond (.sdm c) cond lvl x.now = y at *
  obtain ⟨hkept, htrips, hz⟩ := State.activeUpdate_kept (s := y) (.sdm c)
  refine ⟨?_, ?_, ?_, ?_⟩
  · rw [hkept.bit, ← hput, State.bit, State.get, State.rd, hregs]; rfl
    rintro f ⟨n, rfl⟩
    exact apart_active (by cases cond <;> simp only [ocAct, F.SDM_STAT_OCHI_ACT, F.SDM_STAT_OCLO_ACT, A.SDM_STAT] <;> omega) n
  · have hsrc : (y.activeUpdate (.sdm c)).srcFilt (.sdm c) cond = y.srcFilt (.sdm c) cond := by
      cases cond <;> simp only [State.srcFilt, htrips]
    rw [hsrc, hraw]
  · exact (hflds.of_regs hregs).trans (hkept.mono fun _ h => Or.inr h)
  · rw [hz, hsdms', hsdms]

/-- The over-current condition of this tick. -/
theorem State.overCurrent_takes : (s.overCurrent c cond).bit (ocAct c cond) = s.ocCond c cond s.now
    ∧ ((s.overCurrent c cond).srcFilt (.sdm c) cond).raw = s.ocCond c cond s.now := by
  have hsync := State.ocSync_kept (s := s) (c := c) (t := s.now)
  have hnow : (s.ocSync c s.now).now = s.now := by rw [hsync.rest]
  obtain ⟨hbit, hraw, -, -⟩ := State.ocCondSet_takes (s := s.ocSync c s.now) (c := c) (cond := cond)
  rw [hsync.ocCond, hnow] at hbit hraw
  exact ⟨hbit, hraw⟩

end Cond

/-! ## A lost bitstream -/

section Loss
variable {s u x : State} {c : Fin 144}

/-- The fields that the loss of both histories moves. -/
def histFields (c : Fin 144) (f : Fld) : Prop :=
  f ∈ ocFields c ++ [F.SDM_STAT_VALID c, F.SDM_STAT_OCVALID c, ⟨A.SDM_RESSTAMP1 c, 31, 1⟩, F.SDM_STAT_WARM c, F.SDM_STAT_OCHI_ACT c,
    F.SDM_STAT_OCLO_ACT c] ∨ ∃ n : Fin 72, f = F.LEG_TRIPSTAT_ACTIVE n

theorem histFields_cond {cond : Cond} {f : Fld} (h : condFields c cond f) : histFields c f := by
  rcases h with rfl | h
  · left; cases cond <;> simp [ocAct]
  · exact Or.inr h

theorem State.ocConds_kept : FldsBut (fun f => condFields c .h f ∨ condFields c .l f) s (s.ocConds c) ∧ (s.ocConds c).sdms = s.sdms := by
  obtain ⟨-, -, hh, hhs⟩ := State.ocCondSet_takes (s := s) (c := c) (cond := .h)
  obtain ⟨-, -, hl, hls⟩ := State.ocCondSet_takes (s := s.ocCondSet c .h) (c := c) (cond := .l)
  exact ⟨(hh.mono fun _ h => Or.inl h).trans (hl.mono fun _ h => Or.inr h), hls.trans hhs⟩

/-- The fields of the status that a change of conditions does not touch. -/
theorem histStat_apart : ∀ c : Fin 144, ∀ g ∈ [F.SDM_STAT_VALID c, F.SDM_STAT_OCVALID c, F.SDM_STAT_WARM c],
    Apart g (F.SDM_STAT_OCHI_ACT c) ∧ Apart g (F.SDM_STAT_OCLO_ACT c) ∧ 0x70000 ≤ g.addr ∧ Apart g ⟨A.SDM_RESSTAMP1 c, 31, 1⟩ := by
  decide +kernel

/-- Both histories are gone, and every field but theirs is as it was. -/
structure HistLost (c : Fin 144) (s u : State) : Prop where
  valid : u.get (F.SDM_STAT_VALID c) = 0
  ocvalid : u.get (F.SDM_STAT_OCVALID c) = 0
  warm : u.get (F.SDM_STAT_WARM c) = 3
  main : (u.sdm c).histMain = none
  oc : (u.sdm c).histOc = none
  flds : FldsBut (histFields c) s u

/-- The bits that show the lost histories, before the conditions follow. -/
def State.histShown (s : State) (c : Fin 144) : State :=
  (((s.putB (F.SDM_STAT_VALID c) false).putB (F.SDM_STAT_OCVALID c) false).setBit (F.SDM_RESSTAMP1_DATA c) 31 false).put
    (F.SDM_STAT_WARM c) 3

theorem State.histShown_shows : (s.histShown c).get (F.SDM_STAT_VALID c) = 0 ∧ (s.histShown c).get (F.SDM_STAT_OCVALID c) = 0
    ∧ (s.histShown c).get (F.SDM_STAT_WARM c) = 3 ∧ (s.histShown c).sdms = s.sdms ∧ FldsBut (histFields c) s (s.histShown c) := by
  have hstamp : (⟨(F.SDM_RESSTAMP1_DATA c).addr, (F.SDM_RESSTAMP1_DATA c).lo + 31, 1⟩ : Fld) = ⟨A.SDM_RESSTAMP1 c, 31, 1⟩ := rfl
  have hne : A.SDM_STAT c ≠ A.SDM_RESSTAMP1 c := by unfold A.SDM_STAT A.SDM_RESSTAMP1; omega
  unfold State.histShown State.setBit
  rw [hstamp]
  simp -implicitDefEqProofs only [State.putB_eq]
  refine ⟨?_, ?_, ?_, by rw [State.put_sdms, State.put_sdms, State.put_sdms, State.put_sdms], ?_⟩
  · rw [State.get_put_bits _ _ (by simp [F.SDM_STAT_WARM]) (by simp [F.SDM_STAT_WARM, F.SDM_STAT_VALID]), State.get_put_word _ _ hne,
      State.get_put_bits _ _ (by simp [F.SDM_STAT_OCVALID]) (by simp [F.SDM_STAT_OCVALID, F.SDM_STAT_VALID]),
      State.get_put_same _ _ (by simp [F.SDM_STAT_VALID])]
    rfl
  · rw [State.get_put_bits _ _ (by simp [F.SDM_STAT_WARM]) (by simp [F.SDM_STAT_WARM, F.SDM_STAT_OCVALID]), State.get_put_word _ _ hne,
      State.get_put_same _ _ (by simp [F.SDM_STAT_OCVALID])]
    rfl
  · rw [State.get_put_same _ _ (by simp [F.SDM_STAT_WARM])]
    rfl
  · exact ((((FldsBut.refl.put _ (Or.inl (by simp)) (by simp [F.SDM_STAT_VALID])).put _ (Or.inl (by simp)) (by simp [F.SDM_STAT_OCVALID])).put
      _ (Or.inl (by simp)) (by simp)).put _ (Or.inl (by simp)) (by simp [F.SDM_STAT_WARM]))

/-- Both histories start again, and the channel awaits a bit. -/
def State.histNone (s : State) (c : Fin 144) (w : SdmAwait) : State :=
  s.modSdm c (fun x => { x with await := w, histMain := none, histOc := none, restartMain := false })

theorem State.sdmHistLost_lost (w : SdmAwait) : HistLost c s (s.sdmHistLost c w) := by
  have heq : s.sdmHistLost c w = (((s.ocSync c s.now).histNone c w).histShown c).ocConds c := rfl
  rw [heq]
  have hsync := (State.ocSync_kept (s := s) (c := c) (t := s.now)).flds
  generalize s.ocSync c s.now = y at *
  have hmod : ((y.histNone c w).sdm c).histMain = none ∧ ((y.histNone c w).sdm c).histOc = none := by
    rw [State.sdm, State.histNone, State.modSdm_sdms]
    simp
  have hflds : FldsBut (histFields c) s (y.histNone c w) := (hsync.mono fun _ h => Or.inl (List.mem_append_left _ h)).of_regs rfl
  generalize y.histNone c w = z at *
  obtain ⟨hv, hov, hw, hsdms, hshown⟩ := State.histShown_shows (s := z) (c := c)
  generalize z.histShown c = q at *
  obtain ⟨hconds, hcsdms⟩ := State.ocConds_kept (s := q) (c := c)
  have hstat := histStat_apart c
  have hkeep (g : Fld) (hg : g ∈ [F.SDM_STAT_VALID c, F.SDM_STAT_OCVALID c, F.SDM_STAT_WARM c]) : (q.ocConds c).get g = q.get g := by
    obtain ⟨hhi, hlo, haddr, -⟩ := hstat g hg
    refine hconds.get fun f hf => ?_
    rcases hf with (rfl | ⟨n, rfl⟩) | (rfl | ⟨n, rfl⟩)
    · exact hhi
    · exact apart_active haddr n
    · exact hlo
    · exact apart_active haddr n
  have hsdm : (q.ocConds c).sdm c = z.sdm c := by rw [State.sdm, hcsdms, hsdms]; rfl
  refine ⟨(hkeep _ (by simp)).trans hv, (hkeep _ (by simp)).trans hov, (hkeep _ (by simp)).trans hw, hsdm ▸ hmod.1, hsdm ▸ hmod.2, ?_⟩
  exact (hflds.trans hshown).trans (hconds.mono fun _ h => h.elim histFields_cond histFields_cond)

/-- The fields of the loss itself. -/
theorem lossFields_apart : ∀ c : Fin 144, ∀ g ∈ [F.SDM_STAT_LOSS c, F.SDM_ERRCNT_LOSSCNT c, wordOf A.EVT_LAST, wordOf A.EVT_LASTCTX],
    (∀ f ∈ ocFields c ++ [F.SDM_STAT_VALID c, F.SDM_STAT_OCVALID c, ⟨A.SDM_RESSTAMP1 c, 31, 1⟩, F.SDM_STAT_WARM c, F.SDM_STAT_OCHI_ACT c,
      F.SDM_STAT_OCLO_ACT c] ++ [F.SDM_STAT_LOCK c, F.SDM_MANPER_PER c], Apart g f) ∧ 0x70000 ≤ g.addr := by
  decide +kernel

/-- What is noted of a loss. -/
structure LossNoted (c : Fin 144) (det n : Nat) (u : State) : Prop where
  loss : u.get (F.SDM_STAT_LOSS c) = 1
  count : u.get (F.SDM_ERRCNT_LOSSCNT c) = n
  newest : NewestFault u (0x0900 + det) c

/-- It stays while only the histories move. -/
theorem LossNoted.kept {det n : Nat} (h : LossNoted c det n s)
    (k : FldsBut (fun f => histFields c f ∨ f = F.SDM_STAT_LOCK c ∨ f = F.SDM_MANPER_PER c) s u) : LossNoted c det n u := by
  have hkeep (g : Fld) (hg : g ∈ [F.SDM_STAT_LOSS c, F.SDM_ERRCNT_LOSSCNT c, wordOf A.EVT_LAST, wordOf A.EVT_LASTCTX]) :
      u.get g = s.get g := by
    obtain ⟨hap, haddr⟩ := lossFields_apart c g hg
    refine k.get fun f hf => ?_
    rcases hf with (hf | ⟨n, rfl⟩) | rfl | rfl
    · exact hap _ (List.mem_append_left _ hf)
    · exact apart_active haddr n
    · exact hap _ (by simp)
    · exact hap _ (by simp)
  refine ⟨(hkeep _ (by simp)).trans h.loss, (hkeep _ (by simp)).trans h.count, ?_, ?_⟩
  · rw [State.rd_eq_get, hkeep _ (by simp), ← State.rd_eq_get]; exact h.newest.1
  · rw [State.rd_eq_get, hkeep _ (by simp), ← State.rd_eq_get]; exact h.newest.2

/-- A loss is counted, recorded, and shown. -/
def State.lossNoted (s : State) (c : Fin 144) (det : Nat) : State :=
  ((s.record (fcode cSENSE det) c).raise (F.SDM_STAT_LOSS c)).bumpSat (F.SDM_ERRCNT_LOSSCNT c)

theorem State.lossNoted_noted (det : Nat) : LossNoted c det
    (min (2 ^ (F.SDM_ERRCNT_LOSSCNT c).width - 1) (s.get (F.SDM_ERRCNT_LOSSCNT c) + 1)) (s.lossNoted c det) := by
  have hnew : NewestFault (s.record (fcode cSENSE det) c) (0x0900 + det) c := by
    rw [show 0x0900 + det = fcode cSENSE det from rfl]; exact State.newestFault_record
  have hcnt : (s.record (fcode cSENSE det) c).get (F.SDM_ERRCNT_LOSSCNT c) = s.get (F.SDM_ERRCNT_LOSSCNT c) := State.get_record (by
    simp only [evtWords, F.SDM_ERRCNT_LOSSCNT, A.SDM_ERRCNT, A.EVT_LAST, A.EVT_LASTCTX, A.EVT_LASTT0, A.EVT_LASTT1, A.EVT_LOGSTAT, A.EVT_LOGCNT,
      List.mem_cons, List.not_mem_nil, or_false]
    omega)
  unfold State.lossNoted
  generalize s.record (fcode cSENSE det) c = y at *
  have hne : A.SDM_STAT c ≠ A.SDM_ERRCNT c := by unfold A.SDM_STAT A.SDM_ERRCNT; omega
  have hloss : (y.raise (F.SDM_STAT_LOSS c)).get (F.SDM_STAT_LOSS c) = 1 := State.get_raise_same _ (by simp [F.SDM_STAT_LOSS]) rfl
  have hcnt' : (y.raise (F.SDM_STAT_LOSS c)).get (F.SDM_ERRCNT_LOSSCNT c) = s.get (F.SDM_ERRCNT_LOSSCNT c) := by
    rw [State.raise_get, State.get_put_word _ _ hne.symm, hcnt]
  have hregs : RegsBut [A.SDM_STAT c, A.SDM_ERRCNT c] y ((y.raise (F.SDM_STAT_LOSS c)).bumpSat (F.SDM_ERRCNT_LOSSCNT c)) := by
    rw [regsBut_bumpSat (by simp [F.SDM_ERRCNT_LOSSCNT]), regsBut_raise (by simp [F.SDM_STAT_LOSS])]; exact RegsBut.refl
  refine ⟨?_, ?_, hnew.regsBut hregs ?_ ?_⟩
  · rw [State.bumpSat, State.get_put_word _ _ hne, hloss]
  · rw [State.get_bumpSat _ (by simp [F.SDM_ERRCNT_LOSSCNT]), hcnt']
  · simp only [A.EVT_LAST, A.SDM_STAT, A.SDM_ERRCNT, List.mem_cons, List.not_mem_nil, or_false]; omega
  · simp only [A.EVT_LASTCTX, A.SDM_STAT, A.SDM_ERRCNT, List.mem_cons, List.not_mem_nil, or_false]; omega

/-- The decoder of a Manchester channel is unlocked. -/
def State.unlocked (s : State) (c : Fin 144) : State :=
  ((s.modSdm c (fun x => { x with locked := false, good := 0, errs := 0, mids := [] })).put (F.SDM_STAT_LOCK c) 0).put (F.SDM_MANPER_PER c) 0

theorem State.unlocked_kept : FldsBut (fun f => histFields c f ∨ f = F.SDM_STAT_LOCK c ∨ f = F.SDM_MANPER_PER c) s (s.unlocked c) := by
  unfold State.unlocked
  exact ((FldsBut.refl.of_regs (s := s) rfl).put _ (Or.inr (Or.inl rfl)) (by simp [F.SDM_STAT_LOCK])).put _ (Or.inr (Or.inr rfl))
    (by simp [F.SDM_MANPER_PER])

/-- The lost bitstream: what is noted, and the histories that start again. -/
theorem State.sdmLoss_lost {det : Nat} (h : s.lossDue c det = true) : ∃ y, HistLost c y (s.sdmLoss c det) ∧ LossNoted c det
    (min (2 ^ (F.SDM_ERRCNT_LOSSCNT c).width - 1) (s.get (F.SDM_ERRCNT_LOSSCNT c) + 1)) (s.sdmLoss c det) := by
  have hnoted := State.lossNoted_noted (s := s) (c := c) det
  have heq : s.sdmLoss c det = if det = sdSTUCK then (s.lossNoted c det).sdmHistLost c .differs
      else ((s.lossNoted c det).unlocked c).sdmHistLost c .relock := by
    unfold State.sdmLoss
    rw [if_pos h]
    rfl
  rw [heq]
  generalize s.lossNoted c det = y at *
  split
  · have hlost := State.sdmHistLost_lost (s := y) (c := c) .differs
    exact ⟨y, hlost, hnoted.kept (hlost.flds.mono fun _ h => Or.inl h)⟩
  · have hlost := State.sdmHistLost_lost (s := y.unlocked c) (c := c) .relock
    exact ⟨_, hlost, hnoted.kept (State.unlocked_kept.trans (hlost.flds.mono fun _ h => Or.inl h))⟩

end Loss

/-- Settles O16: a loss is noted before the histories move, and a condition takes the level that the filter shows. -/
theorem senseConditions : Obligations.SenseConditions := by
  unfold Obligations.SenseConditions
  intro s t c det
  dsimp only
  refine fun hclk => ⟨fun hdue hturn => ⟨_, exec_at rfl (State.act.eq_def ..) hclk hturn, ?_⟩,
    fun hturn => ⟨_, exec_at rfl (State.act.eq_def ..) hclk hturn, State.overCurrent_takes⟩,
    fun hturn => ⟨_, exec_at rfl (State.act.eq_def ..) hclk hturn, State.overCurrent_takes⟩⟩
  obtain ⟨_, hlost, hnoted⟩ := State.sdmLoss_lost hdue
  exact ⟨hnoted.loss, hlost.valid, hlost.ocvalid, hlost.warm, hlost.main, hlost.oc, hnoted.count, hnoted.newest⟩

end Sys2Proof.Machine
end

section
/-!
PROOFS. Chapter 15, the flash port: its queue, its gathering and the operations it starts.
-/
namespace Sys2Proof.Machine

/-! ## The parts of a port's step -/

section Parts
variable {s u x a : State} {op : FlsEntry}

/-- Three stores change the register file alone. -/
theorem State.put3_frame (s : State) (f g h : Fld) (i j k : Nat) :
    ∃ regs, ((s.put f i).put g j).put h k = { s with regs := regs } := ⟨_, rfl⟩

/-- SER_FLSSTAT after the port has proceeded. -/
def flsStatFields : List Fld := [F.SER_FLSSTAT_BUSY, F.SER_FLSSTAT_GATHER, F.SER_FLSSTAT_QLVL]

theorem State.flsStat_kept : FldsBut (· ∈ flsStatFields) s s.flsStat ∧ ∃ regs, s.flsStat = { s with regs := regs } := by
  unfold State.flsStat
  exact ⟨((FldsBut.refl.putB _ (by decide) (by decide)).putB _ (by decide) (by decide)).put _ (by decide) (by decide), State.put3_frame ..⟩

@[simp] theorem State.flsStat_ser : s.flsStat.ser = s.ser := by
  obtain ⟨-, _, h⟩ := s.flsStat_kept; rw [h]

theorem State.flsStat_regsBut : RegsBut [A.SER_FLSSTAT] s s.flsStat :=
  State.flsStat_kept.1.regsBut (by decide)

theorem State.flsStat_busy : s.flsStat.get F.SER_FLSSTAT_BUSY = b2n s.ser.run.isSome := by
  unfold State.flsStat
  dsimp only
  rw [State.get_put_bits _ _ (by decide) (by decide), State.putB_eq, State.get_put_bits _ _ (by decide) (by decide), State.putB_eq,
    State.get_put_same _ _ (by decide)]
  cases s.ser.run.isSome <;> rfl

theorem State.flsStat_gather : s.flsStat.get F.SER_FLSSTAT_GATHER = b2n s.ser.gather.isSome := by
  unfold State.flsStat
  dsimp only
  rw [State.get_put_bits _ _ (by decide) (by decide), State.putB_eq, State.get_put_same _ _ (by decide), State.putB_eq, State.put_ser]
  cases s.ser.gather.isSome <;> rfl

/-- Nothing that is blocked enters the queue. -/
theorem State.flsUnblock_none (h : s.ser.blocked = []) : s.flsUnblock = s := by
  have hser (y : SerSt) (n : Nat) (hy : y.blocked = []) :
      { y with queue := y.queue ++ y.blocked.take n, blocked := y.blocked.drop n } = y := by
    rw [hy, List.take_nil, List.drop_nil, List.append_nil, ← hy]
  exact congrArg (fun z => { s with ser := z }) (hser s.ser _ h)

theorem State.flsPump_running (n : Nat) (h : s.ser.run.isSome = true) : State.flsPump n s = s := by
  cases n with
  | zero => rfl
  | succ n => rw [State.flsPump, if_pos h]

theorem State.flsPump_empty (n : Nat) (h : s.ser.queue = []) : State.flsPump n s = s := by
  cases n with
  | zero => rfl
  | succ n => 
    rw [State.flsPump]
    split
    · rfl
    · rw [h]

/-- The port has nothing to take. -/
theorem State.flsRunQueue_idle (hb : s.ser.blocked = []) (h : s.ser.run.isSome = true ∨ s.ser.queue = []) : s.flsRunQueue = s.flsStat := by
  have hpump (n : Nat) : State.flsPump n s = s := h.elim (State.flsPump_running n) (State.flsPump_empty n)
  rw [State.flsRunQueue, hpump, State.flsUnblock_none hb, hpump, State.flsUnblock_none hb]

theorem State.busSet_kept (l : List FlsTxn) : (s.busSet l).ser = { s.ser with bus := l } ∧ (s.busSet l).regs = s.regs := ⟨rfl, rfl⟩

/-- The two transactions of an operation. -/
theorem State.busOp_kept : (s.busOp op).ser = { s.ser with bus := (s.busOp op).ser.bus } ∧ (s.busOp op).regs = s.regs
    ∧ (s.busOp op).now = s.now ∧ (s.busOp op) = { s with ser := (s.busOp op).ser } := by
  cases op <;> exact ⟨rfl, rfl, rfl, rfl⟩

/-- The opcode of an operation. -/
def FlsEntry.opcode (s : State) : FlsEntry → Nat
  | .prog .. => s.get F.SER_FLSOPC_PP
  | .erase .. => s.get F.SER_FLSOPC_SE

theorem State.busOp_bus : (s.busOp op).ser.bus.map FlsTxn.cmd = [s.get F.SER_FLSOPC_WREN, op.opcode s]
    ∧ (s.busOp op).ser.bus.map FlsTxn.addr = [none, some op.range.1] := by
  cases op <;> exact ⟨rfl, rfl⟩

/-- What the counters of the flash count of an operation. -/
def FlsEntry.progs : FlsEntry → Nat
  | .prog .. => 1
  | .erase .. => 0

/-- The counter that an operation moves. -/
def FlsEntry.counter : FlsEntry → Fld
  | .prog .. => F.SER_FLSCNT_PROGS
  | .erase .. => F.SER_FLSCNT_ERASES

theorem State.flsStart_eq : s.flsStart op = ((s.modSer (fun x => { x with
    run := some { op := op, start := s.now, again := false, resetWait := false } })).busOp op).bump op.counter := by
  cases op <;> rfl

/-- The port once an operation runs in it. -/
def SerSt.running (y : SerSt) (op : FlsEntry) (now : Tick) (bus : List FlsTxn) : SerSt :=
  { y with gather := none, run := some ⟨op, now, false, false⟩, bus := bus }

theorem State.flsStart_ser (hg : s.ser.gather = none) :
    (s.flsStart op).ser = s.ser.running op s.now (s.flsStart op).ser.bus
    ∧ (s.flsStart op).ser.bus.map FlsTxn.cmd = [s.get F.SER_FLSOPC_WREN, op.opcode s]
    ∧ (s.flsStart op).ser.bus.map FlsTxn.addr = [none, some op.range.1] := by
  have hrun (y : SerSt) (r : FlsRun) (l : List FlsTxn) (hy : y.gather = none) :
      ({ y with run := some r, bus := l } : SerSt) = { y with gather := none, run := some r, bus := l } := by rw [← hy]
  rw [State.flsStart_eq, State.bump_eq, State.put_ser]
  generalize hx : s.modSer (fun x => { x with run := some { op := op, start := s.now, again := false, resetWait := false } }) = x
  have hxser : x.ser = { s.ser with run := some ⟨op, s.now, false, false⟩ } := by rw [← hx, State.modSer_ser]
  have hxget (f : Fld) : x.get f = s.get f := by rw [← hx, State.modSer_get]
  obtain ⟨hser, -, -, -⟩ := State.busOp_kept (s := x) (op := op)
  obtain ⟨hcmd, haddr⟩ := State.busOp_bus (s := x) (op := op)
  refine ⟨?_, ?_, haddr⟩
  · rw [hser, hxser]; exact hrun _ _ _ hg
  · rw [hcmd, hxget]
    cases op <;> simp only [FlsEntry.opcode, hxget]

theorem State.flsStart_regs : (s.flsStart op).get op.counter = (s.get op.counter + 1) % 2 ^ 16
    ∧ RegsBut [A.SER_FLSCNT] s (s.flsStart op)
    ∧ FldsBut (· = op.counter) s (s.flsStart op) := by
  rw [State.flsStart_eq]
  have hregs : ((s.modSer (fun x => { x with run := some { op := op, start := s.now, again := false, resetWait := false } })).busOp op).regs
      = s.regs := by rw [State.busOp_kept.2.1, State.modSer_regs]
  generalize (s.modSer (fun x => { x with run := some { op := op, start := s.now, again := false, resetWait := false } })).busOp op = y at *
  have hget : y.get op.counter = s.get op.counter := by unfold State.get State.rd; rw [hregs]
  have hok : op.counter.lo + op.counter.width ≤ 32 ∧ op.counter.width = 16 ∧ op.counter.addr = A.SER_FLSCNT := by
    cases op <;> simp [FlsEntry.counter, F.SER_FLSCNT_PROGS, F.SER_FLSCNT_ERASES]
  obtain ⟨hb, hw, haddr⟩ := hok
  rw [State.bump_eq]
  refine ⟨?_, ?_, ?_⟩
  · rw [State.get_put_same _ _ hb, hget, hw]
  · rw [regsBut_put (by rw [haddr]; exact List.mem_singleton_self _)]
    exact RegsBut.refl.of_regs hregs
  · exact (FldsBut.refl.of_regs hregs).put _ rfl hb

/-- An operation that has begun, in a port that differs from `a` in what it gathers alone. -/
theorem State.flsStart_begun (hg : x.ser.gather = none) (hser : ∀ r b, x.ser.running op r b = a.ser.running op r b)
    (hnow : x.now = a.now)
    (hregs : ∀ f ∈ [F.SER_FLSOPC_WREN, F.SER_FLSOPC_PP, F.SER_FLSOPC_SE, F.SER_FLSCNT_PROGS, F.SER_FLSCNT_ERASES], x.get f = a.get f) :
    FlashBegun a (x.flsStart op).flsStat op := by
  obtain ⟨hrun, hcmd, haddr⟩ := State.flsStart_ser (op := op) hg
  obtain ⟨hcount, -, hother⟩ := State.flsStart_regs (s := x) (op := op)
  simp only [List.forall_mem_cons, List.not_mem_nil, false_imp_iff, implies_true, and_true] at hregs
  obtain ⟨hwren, hpp, hse, hprogs, herases⟩ := hregs
  generalize x.flsStart op = y at *
  have hstat := State.flsStat_regsBut (s := y)
  have hlt (f : Fld) (hf : f.width = 16) : a.get f % 2 ^ 16 = a.get f := by
    have h : a.get f < 2 ^ f.width := Nat.mod_lt _ (Nat.two_pow_pos _)
    rw [hf] at h
    exact Nat.mod_eq_of_lt h
  refine ⟨?_, ?_, ?_, ?_, ?_, ?_⟩
  · rw [State.flsStat_ser, hrun, hser, hnow]; rfl
  · rw [State.flsStat_ser, hcmd, hwren]
    cases op
    · exact congrArg (fun n => [_, n]) hpp
    · exact congrArg (fun n => [_, n]) hse
  · rw [State.flsStat_ser, haddr]
  · rw [State.flsStat_busy, hrun]; rfl
  · rw [hstat.get (by decide)]
    cases op
    · exact hcount.trans (by rw [← hprogs]; rfl)
    · exact (hother.get (by rintro f rfl; show Apart F.SER_FLSCNT_PROGS F.SER_FLSCNT_ERASES; decide)).trans (by rw [hprogs]; exact (hlt F.SER_FLSCNT_PROGS rfl).symm)
  · rw [hstat.get (by decide)]
    cases op
    · exact (hother.get (by rintro f rfl; show Apart F.SER_FLSCNT_ERASES F.SER_FLSCNT_PROGS; decide)).trans (by rw [herases]; exact (hlt F.SER_FLSCNT_ERASES rfl).symm)
    · exact hcount.trans (by rw [← herases]; rfl)

theorem State.flsStart_stat_regsBut : RegsBut [A.SER_FLSSTAT, A.SER_FLSCNT] s (s.flsStart op).flsStat :=
  (State.flsStart_regs.2.1.mono (by decide)).trans (State.flsStat_regsBut.mono (by decide))

/-- What was gathered is programmed. -/
theorem State.flsProgram_gathered {g : FlsGather} (hr : s.ser.run = none) (hg : s.ser.gather = some g) :
    s.flsProgram = (s.modSer (fun x => { x with gather := none })).flsStart g.entry := by
  unfold State.flsProgram
  rw [hg]
  exact if_neg (by rw [hr]; decide)

/-- A flush of what was gathered begins its program. -/
theorem State.flsFlush_begun {g : FlsGather} (hr : s.ser.run = none) (hg : s.ser.gather = some g) :
    FlashBegun s s.flsFlush g.entry ∧ RegsBut [A.SER_FLSSTAT, A.SER_FLSCNT] s s.flsFlush := by
  rw [State.flsFlush, State.flsProgram_gathered hr hg]
  refine ⟨State.flsStart_begun ?_ ?_ ?_ ?_, State.flsStart_stat_regsBut⟩
  · rw [State.modSer_ser]
  · intro r b; rw [State.modSer_ser]; rfl
  · rfl
  · exact fun f _ => State.modSer_get ..

end Parts

/-! ## A write of plain bits -/

section PlainBits
variable {s : State} {w : Writer} {v : Word}

/-- The registers whose writes Paddock bounds. -/
def boundBases : List Nat := [A.LEG_ILKCFG 0, A.LEG_EDGECFG 0, A.SDM_OCHI 0, A.SDM_OCLO 0, A.SDM_CFG 0]

/-- A register whose plain bits nothing bounds or counts. -/
structure Unbound (b : Nat) : Prop where
  bound : b ∉ boundBases
  ups : b ∉ upWords

theorem State.boundWord_free {b : Nat} (h : b ∉ boundBases) (i : Nat) : s.boundWord b i v = (v, 0) := by
  simp only [boundBases, List.mem_cons, List.not_mem_nil, or_false, not_or] at h
  obtain ⟨h1, h2, h3, h4, h5⟩ := h
  unfold State.boundWord
  rw [if_neg h1, if_neg h2, if_neg h3, if_neg h4, if_neg h5, ite_self]

/-- The words of a locked field's refused write. -/
def lockWords : List Nat := [A.PDK_LASTCLIP0, A.PDK_LASTCLIP1, A.PDK_LASTCLIP2, A.PDK_CLIPCNT 8] ++ evtWords

/-- Nothing but registers and the journal differs. -/
structure Logged (l : List Nat) (s u : State) : Prop where
  regs : RegsBut l s u
  rest : u = { s with regs := u.regs, jrn := u.jrn }

theorem Logged.trans {l : List Nat} {u x : State} (h : Logged l s u) (k : Logged l u x) : Logged l s x :=
  ⟨h.regs.trans k.regs, by rw [k.rest, h.rest]⟩

theorem Logged.ser {l : List Nat} {u : State} (h : Logged l s u) : u.ser = s.ser := by rw [h.rest]
theorem Logged.now {l : List Nat} {u : State} (h : Logged l s u) : u.now = s.now := by rw [h.rest]

theorem Logged.wr {l : List Nat} {a : Nat} {x : Word} (h : a ∈ l) : Logged l s (s.wr a x) :=
  ⟨RegsBut.refl.wr x h, rfl⟩

theorem Logged.put {l : List Nat} {f : Fld} {n : Nat} (h : f.addr ∈ l) : Logged l s (s.put f n) :=
  ⟨RegsBut.refl.put n h, rfl⟩

theorem Logged.record {l : List Nat} {code ctx : Nat} (h : evtWords ⊆ l) : Logged l s (s.record code ctx) := by
  obtain ⟨_, _, k⟩ := s.record_frame code ctx
  refine ⟨(regsBut_record h).mpr RegsBut.refl, ?_⟩
  rw [k]

theorem Logged.mono {l l' : List Nat} {u : State} (h : Logged l s u) (k : l ⊆ l') : Logged l' s u := ⟨h.regs.mono k, h.rest⟩

/-- A refused write of a locked field is noted. -/
theorem State.paddock_logged (a : Nat) : Logged lockWords s (s.paddock 9 a v w) := by
  have hmod (x : State) (f : JrnSt → JrnSt) : Logged lockWords x (x.modJrn f) := ⟨fun _ _ => rfl, rfl⟩
  have hrec (x : State) (code ctx : Nat) : Logged lockWords x (x.record code ctx) := Logged.record (by decide)
  have hclip (p q z : Word) : Logged lockWords s
      ((((s.wr A.PDK_LASTCLIP0 p).wr A.PDK_LASTCLIP1 q).wr A.PDK_LASTCLIP2 z).bump (F.PDK_CLIPCNT_COUNT (9 - 1))) := by
    rw [State.bump_eq]
    exact (((Logged.wr (by decide)).trans (Logged.wr (by decide))).trans (Logged.wr (by decide))).trans (Logged.put (by decide))
  unfold State.paddock
  dsimp only
  split_ifs
  · exact hclip ..
  · exact (hclip ..).trans (hrec ..)
  · exact ((hclip ..).trans (hrec ..)).trans (hmod ..)

/-- The write of an unbound register goes to its word, and to the log where a locked field is refused. -/
theorem State.plainWrite_logged {r : RegDef} (h : Unbound r.base) (i a : Nat) : Logged (a :: lockWords) s (s.plainWrite w r i a v) := by
  have hwr (x : State) (y : Word) : Logged (a :: lockWords) x (x.wr a y) := Logged.wr (List.mem_cons_self ..)
  unfold State.plainWrite
  rw [State.boundWord_free h.bound]
  dsimp only
  rw [if_neg h.ups, if_pos rfl]
  split
  · exact ((State.paddock_logged a).mono (List.subset_cons_self ..)).trans (hwr ..)
  · exact hwr ..

end PlainBits

/-! ## The port's operations -/

section Operations
variable {s : State} {m : Master} {v : Word}

/-- A master's write that takes effect does what its register's entry does. -/
theorem State.masterWrite_actsAt {a : Nat} {r : RegDef} {idx : List Nat} {u : State} (h : s.takes m a = true)
    (hreg : regAt a = some (r, idx)) (ha : outsideWindows a) (hpin : r.base ≠ A.IDG_PINCFG 0)
    (hact : s.tagged.actWrite m.writer r idx a v = some u) : s.masterWrite m a v = u := by
  have hkey : s.tagged.winKey a = none := State.winKey_outside ha
  have hmapped : ¬ unmappedFrom ≤ a := by unfold outsideWindows unmappedFrom at *; omega
  have hpaddock : ¬ (0x021000 ≤ a ∧ a < 0x022000 ∧ s.tagged.load.locked = true) := by
    unfold outsideWindows at ha; omega
  rw [State.masterWrite_takes v h, State.writeReg, if_neg hmapped, if_neg hpaddock, hkey, hreg]
  dsimp only
  rw [if_neg (fun e => hpin e.1), State.regWrite, State.tagged_lockGuard _ _ _ h]
  dsimp only
  rw [hact]

/-- A flush that takes effect: the control word takes its bits, and the port flushes. -/
theorem State.masterWrite_flsFlush (h : s.takes m A.SER_FLSCTL = true) : ∃ x, Logged (A.SER_FLSCTL :: lockWords) s.tagged x
    ∧ s.masterWrite m A.SER_FLSCTL (v ||| bitOf F.SER_FLSCTL_FLUSH) = x.flsFlush := by
  have hbit : wbit (v ||| bitOf F.SER_FLSCTL_FLUSH) F.SER_FLSCTL_FLUSH = true := by
    simp [wbit, bitsGet, bitOf, F.SER_FLSCTL_FLUSH]
  have hmap : (regAt A.SER_FLSCTL).map (fun e => (e.1.base, e.2)) = some (A.SER_FLSCTL, []) := by decide +kernel
  obtain ⟨⟨r, i⟩, hreg, hr⟩ := Option.map_eq_some_iff.mp hmap
  obtain ⟨hbase, rfl⟩ := Prod.mk.inj hr
  replace hbase : r.base = A.SER_FLSCTL := hbase
  refine ⟨s.tagged.plainWrite m.writer r 0 A.SER_FLSCTL (v ||| bitOf F.SER_FLSCTL_FLUSH),
    State.plainWrite_logged ⟨by rw [hbase]; decide, by rw [hbase]; decide⟩ _ _, ?_⟩
  refine State.masterWrite_actsAt h hreg (by unfold outsideWindows; decide) (by rw [hbase]; decide) ?_
  have hflush : (if wbit (v ||| bitOf F.SER_FLSCTL_FLUSH) F.SER_FLSCTL_FLUSH then
      (s.tagged.plainWrite m.writer r 0 A.SER_FLSCTL (v ||| bitOf F.SER_FLSCTL_FLUSH)).flsFlush
      else s.tagged.plainWrite m.writer r 0 A.SER_FLSCTL (v ||| bitOf F.SER_FLSCTL_FLUSH))
      = (s.tagged.plainWrite m.writer r 0 A.SER_FLSCTL (v ||| bitOf F.SER_FLSCTL_FLUSH)).flsFlush := if_pos hbit
  rw [← hflush]
  unfold State.actWrite
  simp +decide only [hbase, if_true, if_false]
  rfl

end Operations

/-! ## The end of an operation -/

section Ends
variable {s u x : State} {op : FlsEntry} {r : FlsRun}

/-- The transactions on the bus alone differ. -/
def BusOnly (s u : State) : Prop := ∃ l, u = s.busSet l

theorem BusOnly.ser (h : BusOnly s u) : u.ser = { s.ser with bus := u.ser.bus } := by obtain ⟨l, rfl⟩ := h; rfl
theorem BusOnly.regs (h : BusOnly s u) : u.regs = s.regs := by obtain ⟨l, rfl⟩ := h; rfl
theorem BusOnly.now (h : BusOnly s u) : u.now = s.now := by obtain ⟨l, rfl⟩ := h; rfl
theorem BusOnly.get (h : BusOnly s u) (f : Fld) : u.get f = s.get f := by obtain ⟨l, rfl⟩ := h; rfl
theorem BusOnly.bit (h : BusOnly s u) (f : Fld) : u.bit f = s.bit f := by obtain ⟨l, rfl⟩ := h; rfl
theorem BusOnly.trans (h : BusOnly s u) (k : BusOnly u x) : BusOnly s x := by
  obtain ⟨l, rfl⟩ := h
  obtain ⟨l', rfl⟩ := k
  exact ⟨l', rfl⟩

theorem State.busPoll_only : BusOnly s s.busPoll := ⟨_, rfl⟩
theorem State.busRead_only (a n : Nat) : BusOnly s (s.busRead a n) := ⟨_, rfl⟩
theorem State.busReset_only : BusOnly s s.busReset := ⟨_, rfl⟩
theorem State.busOp_only : BusOnly s (s.busOp op) := by cases op <;> exact ⟨_, rfl⟩

/-- The port is free of the operation and proceeds. -/
def State.flsDone (s : State) (op : FlsEntry) : State := ((s.modSer (fun x => { x with run := none })).flsInvalidate op).flsRunQueue

/-- An operation's end in a port with nothing in its queue. -/
structure FlsEnded (op : FlsEntry) (s u : State) : Prop where
  run : u.ser.run = none
  busy : u.get F.SER_FLSSTAT_BUSY = 0
  lines : ∀ l ∈ u.ser.lines, overlap l.1 64 op.range.1 op.range.2 = false
  flds : FldsBut (· ∈ flsStatFields) s u

theorem State.flsDone_ended (hq : s.ser.queue = []) (hb : s.ser.blocked = []) : FlsEnded op s (s.flsDone op) := by
  unfold State.flsDone State.flsInvalidate
  generalize hz : (s.modSer (fun x => { x with run := none })).modSer
    (fun x => { x with lines := x.lines.filter (fun l => !overlap l.1 64 op.range.1 op.range.2) }) = z
  have hser : z.ser = { s.ser with run := none, lines := s.ser.lines.filter (fun l => !overlap l.1 64 op.range.1 op.range.2) } := by
    rw [← hz, State.modSer_ser, State.modSer_ser]
  have hregs : z.regs = s.regs := by rw [← hz, State.modSer_regs, State.modSer_regs]
  clear hz
  rw [State.flsRunQueue_idle (by rw [hser]; exact hb) (Or.inr (by rw [hser]; exact hq))]
  refine ⟨?_, ?_, ?_, ?_⟩
  · rw [State.flsStat_ser, hser]
  · rw [State.flsStat_busy, hser]; rfl
  · intro l hl
    rw [State.flsStat_ser, hser] at hl
    simpa using (List.mem_filter.mp hl).2
  · exact (FldsBut.refl.of_regs hregs).trans State.flsStat_kept.1

theorem FlsEnded.regs (h : FlsEnded op s u) : RegsBut [A.SER_FLSSTAT] s u := h.flds.regsBut (by decide)

/-- The end of an erase, and of a program whose read-back agrees. -/
theorem State.flsEnd_good {good : Bool} (hr : s.ser.run = some r) (hw : r.resetWait = false) (h : good = true ∨ r.op.progs = 0) :
    ∃ x, BusOnly s x ∧ s.flsEnd good = x.flsDone r.op := by
  unfold State.flsEnd
  rw [hr]
  dsimp only
  rw [if_neg (by rw [hw]; decide)]
  cases hop : r.op with
  | erase a w => exact ⟨_, State.busPoll_only, rfl⟩
  | prog a b w =>
    have hgood : good = true := h.resolve_right (by rw [hop]; exact Nat.one_ne_zero)
    dsimp only
    rw [if_pos (Or.inr hgood)]
    refine ⟨_, ?_, rfl⟩
    split
    · exact State.busPoll_only.trans (State.busRead_only ..)
    · exact State.busPoll_only

/-- A program whose read-back differs: the first time it is repeated, the second time it is recorded. -/
theorem State.flsEnd_bad {a : Nat} {b : List Byte} {w : Writer} (hr : s.ser.run = some r) (hw : r.resetWait = false)
    (hop : r.op = .prog a b w) (hv : s.bit F.SER_FLSCTL_VERIFY = true) : ∃ x, BusOnly s x
    ∧ (r.again = false → s.flsEnd false = ((x.modSer (fun y => { y with run := some { r with again := true, start := x.now } })).raise
        F.SER_FLSSTAT_RETRY).busOp r.op)
    ∧ (r.again = true → s.flsEnd false = ((x.record (cnvm 4) a).raise F.SER_FLSSTAT_VERIFY).flsDone r.op) := by
  have hx : BusOnly s (s.busPoll.busRead a b.length) := State.busPoll_only.trans (State.busRead_only ..)
  have hpoll : s.busPoll.bit F.SER_FLSCTL_VERIFY = true := hv
  have hvx : (s.busPoll.busRead a b.length).bit F.SER_FLSCTL_VERIFY = true := (hx.bit _).trans hv
  refine ⟨s.busPoll.busRead a b.length, hx, fun hagain => ?_, fun hagain => ?_⟩
  · unfold State.flsEnd
    rw [hr]
    dsimp only
    rw [if_neg (by rw [hw]; decide), hop]
    dsimp only
    rw [if_pos hpoll, hvx, if_neg (by decide), hagain]
    exact if_pos rfl
  · unfold State.flsEnd
    rw [hr]
    dsimp only
    rw [if_neg (by rw [hw]; decide), hop]
    dsimp only
    rw [if_pos hpoll, hvx, if_neg (by decide), hagain]
    exact if_neg (by decide)

/-- An operation beyond its time: it is recorded, and the flash is reset. -/
def State.flsOverdue (s : State) (r : FlsRun) (det : Nat) : State :=
  ((((s.record (cnvm det) r.op.range.1).raise F.SER_FLSSTAT_TMO).modSer
    (fun x => { x with run := some { r with resetWait := true, start := s.now } })).flsInvalidate r.op).busReset

theorem State.record_now (code ctx : Nat) : (s.record code ctx).now = s.now := by
  obtain ⟨_, _, h⟩ := s.record_frame code ctx; rw [h]

theorem State.record_ser (code ctx : Nat) : (s.record code ctx).ser = s.ser := by
  obtain ⟨_, _, h⟩ := s.record_frame code ctx; rw [h]

theorem State.flsOverdue_shows (det : Nat) : (s.flsOverdue r det).get F.SER_FLSSTAT_TMO = 1
    ∧ (s.flsOverdue r det).ser.run = some { r with resetWait := true, start := s.now }
    ∧ (s.flsOverdue r det).ser.queue = s.ser.queue ∧ NewestFault (s.flsOverdue r det) (cnvm det) r.op.range.1 := by
  have hnew := State.newestFault_record (s := s) (code := cnvm det) (ctx := r.op.range.1)
  have hser := State.record_ser (s := s) (cnvm det) r.op.range.1
  unfold State.flsOverdue
  generalize s.record (cnvm det) r.op.range.1 = x at *
  have htmo : (x.raise F.SER_FLSSTAT_TMO).get F.SER_FLSSTAT_TMO = 1 := State.get_raise_same _ (by decide) rfl
  have hnew' : NewestFault (x.raise F.SER_FLSSTAT_TMO) (cnvm det) r.op.range.1 :=
    hnew.regsBut (l := [A.SER_FLSSTAT]) (RegsBut.refl.raise (by decide)) (by decide) (by decide)
  have hser' : (x.raise F.SER_FLSSTAT_TMO).ser = s.ser := (State.raise_ser ..).trans hser
  generalize x.raise F.SER_FLSSTAT_TMO = y at *
  generalize hz : (y.modSer (fun x => { x with run := some { r with resetWait := true, start := s.now } })).flsInvalidate r.op = z
  have hzser : z.ser = { y.ser with
      run := some { r with resetWait := true, start := s.now }
      lines := y.ser.lines.filter (fun l => !overlap l.1 64 r.op.range.1 r.op.range.2) } := by
    rw [← hz, State.flsInvalidate, State.modSer_ser, State.modSer_ser]
  have hzregs : z.regs = y.regs := by rw [← hz, State.flsInvalidate, State.modSer_regs, State.modSer_regs]
  clear hz
  obtain ⟨l, hl⟩ := State.busReset_only (s := z)
  rw [hl]
  have hget : (z.busSet l).get F.SER_FLSSTAT_TMO = y.get F.SER_FLSSTAT_TMO := by
    unfold State.get State.rd; rw [(State.busSet_kept l).2, hzregs]
  refine ⟨hget.trans htmo, ?_, ?_, hnew'.regsBut (l := []) ?_ (by decide) (by decide)⟩
  · rw [(State.busSet_kept l).1, hzser]
  · rw [(State.busSet_kept l).1, hzser, hser']
  · exact RegsBut.refl.of_regs ((State.busSet_kept l).2.trans hzregs)

/-- The time that an operation may take. -/
def FlsEntry.limit (s : State) : FlsEntry → Nat
  | .prog .. => s.get F.SER_FLSTMO_PROG * 3125
  | .erase .. => s.get F.SER_FLSTMO_ERASE * 312500

/-- The detail of its time-out. -/
def FlsEntry.late : FlsEntry → Nat
  | .prog .. => 2
  | .erase .. => 3

theorem State.flsTimeout_overdue (hr : s.ser.run = some r) (hw : r.resetWait = false) (hlate : r.start + r.op.limit s ≤ s.now) :
    s.flsTimeout = s.flsOverdue r r.op.late := by
  have hnow (det : Nat) : ((s.record (cnvm det) r.op.range.1).raise F.SER_FLSSTAT_TMO).now = s.now :=
    (State.raise_now ..).trans (State.record_now ..)
  unfold State.flsTimeout
  rw [hr]
  dsimp only
  rw [if_neg (by rw [hw]; decide)]
  cases hop : r.op with
  | prog a b w =>
    rw [hop] at hlate
    dsimp only
    rw [if_pos (by exact hlate), ← hop, hnow]
    unfold State.flsOverdue
    rw [hop]
    rfl
  | erase a w =>
    rw [hop] at hlate
    dsimp only
    rw [if_pos (by exact hlate), ← hop, hnow]
    unfold State.flsOverdue
    rw [hop]
    rfl

/-- A flash that stays busy loses its operation and its queue. -/
theorem State.flsTimeout_reset (hr : s.ser.run = some r) (hw : r.resetWait = true)
    (hlate : r.start + 31250 + s.get F.SER_FLSTMO_ERASE * 312500 ≤ s.now) (hb : s.ser.blocked = []) :
    s.flsTimeout.ser.run = none ∧ s.flsTimeout.ser.queue = [] ∧ NewestFault s.flsTimeout (cnvm 7) r.op.range.1 := by
  have heq : s.flsTimeout = ((s.modSer (fun x => { x with run := none, queue := [] })).record (cnvm 7) r.op.range.1).flsRunQueue := by
    unfold State.flsTimeout
    rw [hr]
    dsimp only
    rw [if_pos hw]
    exact if_pos hlate
  rw [heq]
  have hser : (s.modSer (fun x => { x with run := none, queue := [] })).ser = { s.ser with run := none, queue := [] } := State.modSer_ser ..
  generalize s.modSer (fun x => { x with run := none, queue := [] }) = x at *
  have hnew := State.newestFault_record (s := x) (code := cnvm 7) (ctx := r.op.range.1)
  have hrec := (State.record_ser (s := x) (cnvm 7) r.op.range.1).trans hser
  generalize x.record (cnvm 7) r.op.range.1 = y at *
  rw [State.flsRunQueue_idle (by rw [hrec]; exact hb) (Or.inr (by rw [hrec]))]
  refine ⟨by rw [State.flsStat_ser, hrec], by rw [State.flsStat_ser, hrec], ?_⟩
  exact hnew.regsBut State.flsStat_regsBut (by decide) (by decide)

theorem State.flsGatherTimeout_flush {g : FlsGather} (hg : s.ser.gather = some g) (h : g.at_ + 625 ≤ s.now) :
    s.flsGatherTimeout = s.flsFlush := by
  unfold State.flsGatherTimeout
  rw [hg]
  exact if_pos h

end Ends

section Begun
variable {s a : State} {op : FlsEntry} {g : FlsGather}

/-- The words that a flush of the port reads and counts in. -/
def flsWords : List Nat := [A.SER_FLSOPC, A.SER_FLSCNT]

/-- What begins after a write that takes its tag begins the same in the state before it. -/
theorem State.flsFlush_begun_of {x : State} (hser : x.ser = a.ser) (hnow : x.now = a.now) (hregs : ∀ b ∈ flsWords, x.rd b = a.rd b)
    (hr : a.ser.run = none) (hg : a.ser.gather = some g) : FlashBegun a x.flsFlush g.entry := by
  rw [State.flsFlush, State.flsProgram_gathered (s := x) (by rw [hser, hr]) (by rw [hser, hg])]
  refine State.flsStart_begun ?_ ?_ ?_ ?_
  · rw [State.modSer_ser]
  · intro r b; rw [State.modSer_ser, hser]; rfl
  · exact (State.modSer_now ..).trans hnow
  · intro f hf
    rw [State.modSer_get]
    unfold State.get
    rw [hregs]
    revert hf f
    decide

end Begun

/-- Settles O51: a flush starts what was gathered, an end frees the port, and a time-out is recorded. -/
theorem flashOperations : Obligations.FlashOperations := by
  unfold Obligations.FlashOperations
  intro s t m v good g r
  dsimp only
  refine ⟨fun hr hg => ⟨fun htakes hturn => ⟨_, exec_any rfl (State.act.eq_def ..) hturn, ?_⟩,
      fun hclk hlate hturn => ⟨_, exec_at rfl (State.act.eq_def ..) hclk hturn, ?_⟩⟩,
    fun hclk hr => ⟨fun hw => ⟨fun hq hb hgood hturn => ⟨_, exec_at rfl (State.act.eq_def ..) hclk hturn, ?_⟩,
      fun x b w hop hv => ⟨fun hagain hturn => ⟨_, exec_at rfl (State.act.eq_def ..) hclk hturn, ?_⟩,
        fun hagain hq hb hturn => ⟨_, exec_at rfl (State.act.eq_def ..) hclk hturn, ?_⟩⟩,
      fun hlate hturn => ⟨_, exec_at rfl (State.act.eq_def ..) hclk hturn, ?_⟩⟩,
      fun hw hlate hb hturn => ⟨_, exec_at rfl (State.act.eq_def ..) hclk hturn, State.flsTimeout_reset hr hw hlate hb⟩⟩⟩
  all_goals generalize s.advance t = a at *
  case refine_1 =>
    obtain ⟨x, hx, heq⟩ := State.masterWrite_flsFlush (v := v) htakes
    rw [heq]
    have hser : x.ser = a.ser := hx.ser.trans State.tagged_ser
    have hnow : x.now = a.now := hx.now.trans State.tagged_now
    refine State.flsFlush_begun_of hser hnow (fun b hb => (hx.regs b ?_).trans (State.rd_tagSet_ne _ _ ?_)) hr hg
    · revert hb b; decide
    · revert hb b; decide
  case refine_2 =>
    rw [State.flsGatherTimeout_flush hg hlate]
    exact State.flsFlush_begun hr hg
  case refine_3 =>
    obtain ⟨x, hx, heq⟩ := State.flsEnd_good (good := good) hr hw (hgood.imp id fun h => by
      generalize r.op = o at h ⊢
      cases o with
      | prog => exact absurd h Bool.false_ne_true
      | erase => rfl)
    rw [heq]
    obtain ⟨h1, h2, h3, h4⟩ := State.flsDone_ended (s := x) (op := r.op) (by rw [hx.ser]; exact hq) (by rw [hx.ser]; exact hb)
    exact ⟨⟨h1, h2, h3⟩, ((FldsBut.refl.of_regs hx.regs).trans h4).regsBut (by decide)⟩
  case refine_4 =>
    obtain ⟨x, hx, heq, -⟩ := State.flsEnd_bad hr hw hop hv
    rw [heq hagain]
    have hser := hx.ser
    have hnow := hx.now
    have hmod : (x.modSer (fun y => { y with run := some { r with again := true, start := x.now } })).ser
        = { x.ser with run := some { r with again := true, start := x.now } } := State.modSer_ser ..
    generalize x.modSer (fun y => { y with run := some { r with again := true, start := x.now } }) = y at *
    have hretry : (y.raise F.SER_FLSSTAT_RETRY).get F.SER_FLSSTAT_RETRY = 1 := State.get_raise_same _ (by decide) rfl
    have hyser : (y.raise F.SER_FLSSTAT_RETRY).ser = y.ser := State.raise_ser ..
    generalize y.raise F.SER_FLSSTAT_RETRY = z at *
    have hop' := State.busOp_only (s := z) (op := r.op)
    refine ⟨(hop'.get _).trans hretry, ?_⟩
    rw [hop'.ser, hyser, hmod, hser, hnow]
  case refine_5 =>
    obtain ⟨y, hy, -, heq⟩ := State.flsEnd_bad hr hw hop hv
    rw [heq hagain]
    have hser := hy.ser
    have hnew := State.newestFault_record (s := y) (code := cnvm 4) (ctx := x)
    have hrec := State.record_ser (s := y) (cnvm 4) x
    generalize y.record (cnvm 4) x = z at *
    have hver : (z.raise F.SER_FLSSTAT_VERIFY).get F.SER_FLSSTAT_VERIFY = 1 := State.get_raise_same _ (by decide) rfl
    have hnew' : NewestFault (z.raise F.SER_FLSSTAT_VERIFY) 0x0F04 x :=
      hnew.regsBut (l := [A.SER_FLSSTAT]) (RegsBut.refl.raise (by decide)) (by decide) (by decide)
    have hzser : (z.raise F.SER_FLSSTAT_VERIFY).ser = z.ser := State.raise_ser ..
    generalize z.raise F.SER_FLSSTAT_VERIFY = u at *
    have hend := State.flsDone_ended (s := u) (op := r.op) (by rw [hzser, hrec, hser]; exact hq) (by rw [hzser, hrec, hser]; exact hb)
    exact ⟨⟨hend.run, hend.busy, hend.lines⟩, (hend.flds.get (by decide)).trans hver, hnew'.regsBut hend.regs (by decide) (by decide)⟩
  case refine_6 =>
    have hlimit : r.start + r.op.limit a ≤ a.now := by cases hop : r.op <;> simp only [hop] at hlate <;> exact hlate
    rw [State.flsTimeout_overdue hr hw hlimit]
    obtain ⟨h1, h2, h3, h4⟩ := State.flsOverdue_shows (s := a) (r := r) r.op.late
    refine ⟨h1, h2, h3, ?_⟩
    cases hop : r.op <;> (rw [hop] at h4; exact h4)
end Sys2Proof.Machine
end

section
/-!
PROOFS. Chapter 15, the flash port: stores that gather, erases, loads and the transactions on its pins.
-/
namespace Sys2Proof.Machine

/-! ## Transactions -/

section Transactions
variable {x : FlsTxn} {a : Nat}

theorem laneByte_length (c n : Nat) : (laneByte c n).length = 8 / 2 ^ c := by
  unfold laneByte laneCount
  simp

theorem bytesLanes_length (c : Nat) (l : List Byte) :
    (l.flatMap (fun b => laneByte c b.toNat)).length = l.length * (8 / 2 ^ c) := by
  rw [List.length_flatMap]
  simp only [laneByte_length, List.map_const', List.sum_replicate, smul_eq_mul]

theorem beBytes_length (n v : Nat) : (beBytes n v).length = n := by
  unfold beBytes leBytes
  simp

/-- The command and the address of a transaction, at their own lanes. -/
def FlsTxn.head (x : FlsTxn) (a : Nat) : List FlsDrive :=
  laneByte x.cl x.cmd ++ (beBytes x.abytes a).flatMap (fun b => laneByte x.al b.toNat)

theorem FlsTxn.drive_eq (h : x.addr = some a) : x.drive = x.head a ++ List.replicate x.dummy flsHiZ
    ++ x.out.flatMap (fun b => laneByte x.dl b.toNat) ++ List.replicate (x.inp * (8 / 2 ^ x.dl)) flsHiZ := by
  unfold FlsTxn.drive FlsTxn.head
  rw [h]
  rfl

theorem FlsTxn.head_length : (x.head a).length = 8 / 2 ^ x.cl + x.abytes * (8 / 2 ^ x.al) := by
  unfold FlsTxn.head
  rw [List.length_append, laneByte_length, bytesLanes_length, beBytes_length]

theorem FlsTxn.drive_length (h : x.addr = some a) : x.drive.length
    = 8 / 2 ^ x.cl + x.abytes * (8 / 2 ^ x.al) + x.dummy + (x.out.length + x.inp) * (8 / 2 ^ x.dl) := by
  rw [FlsTxn.drive_eq h, List.length_append, List.length_append, List.length_append, FlsTxn.head_length, bytesLanes_length,
    List.length_replicate, List.length_replicate, Nat.add_mul]
  omega

theorem FlsTxn.pins_length : x.pins.length = 2 * x.drive.length := by
  unfold FlsTxn.pins
  rw [List.length_flatMap]
  simp [Nat.mul_comm]

theorem FlsTxn.pins_selected : ∀ y ∈ x.pins, y.csN = false := by
  intro y hy
  obtain ⟨d, -, hd⟩ := List.mem_flatMap.mp hy
  simp only [List.mem_cons, List.not_mem_nil, or_false] at hd
  rcases hd with rfl | rfl <;> rfl

/-- Nothing is driven after the address of a transaction that reads. -/
theorem FlsTxn.drive_read (h : x.addr = some a) (hout : x.out = []) {i : Nat} (hi : i < x.drive.length)
    (hlo : 8 / 2 ^ x.cl + x.abytes * (8 / 2 ^ x.al) ≤ i) : x.drive[i] = List.replicate 8 none := by
  have heq : x.drive = x.head a ++ List.replicate (x.dummy + x.inp * (8 / 2 ^ x.dl)) flsHiZ := by
    rw [FlsTxn.drive_eq h, hout, List.flatMap_nil, List.append_nil, List.append_assoc, List.replicate_append_replicate]
  simp only [heq]
  rw [List.getElem_append_right (by rw [FlsTxn.head_length]; exact hlo), List.getElem_replicate]
  rfl

theorem flashTransactions : Part.FlashTransactions := by
  refine ⟨fun x a h _ _ _ => ⟨FlsTxn.drive_length h, FlsTxn.pins_length, FlsTxn.pins_selected,
    fun i hi hlo hout => FlsTxn.drive_read h hout hi hlo⟩, fun s a hp => ?_⟩
  rw [FlsTxn.drive_length (a := a) rfl]
  unfold State.readTxn
  rw [hp]
  simp

end Transactions

/-! ## Stores -/

section Stores
variable {s a x u : State} {w : Writer} {ad : Nat} {b : List Byte} {e : FlsEntry} {m : Master} {v : Word}

theorem State.flsWrite_refused (hc : s.ser.closed = false) (hp : s.flsProtected e.range.1 e.range.2 = true) :
    s.flsWrite e = (s.record (cnvm 5) (e.range.1 % 2 ^ 24)).raise F.SER_FLSSTAT_PROT := by
  unfold State.flsWrite
  rw [hc, if_neg (by decide), if_pos hp]

theorem State.flsWrite_queued (hc : s.ser.closed = false) (hp : s.flsProtected e.range.1 e.range.2 = false) (hq : s.ser.queue = []) :
    s.flsWrite e = (s.modSer (fun x => { x with queue := [e] })).flsRunQueue := by
  have hmod : s.modSer (fun x => { x with queue := x.queue ++ [e] }) = s.modSer (fun x => { x with queue := [e] }) := by
    show ({ s with ser := { s.ser with queue := s.ser.queue ++ [e] } } : State) = { s with ser := { s.ser with queue := [e] } }
    rw [hq, List.nil_append]
  unfold State.flsWrite
  rw [hc, if_neg (by decide), hp, if_neg (by decide), if_pos (by rw [hq]; decide), hmod]

/-- Program bytes of a page that is not gathered yet. -/
theorem State.flsPump_gathers (hr : s.ser.run = none) (hg : s.ser.gather = none) (hq : s.ser.queue = [.prog ad b w]) (n : Nat) :
    State.flsPump (n + 2) s = s.modSer (fun x => { x with
      queue := [], gather := some ⟨ad / 256, b.mapIdx (fun i y => ((ad + i) % 256, y)), w, s.now⟩ }) := by
  rw [State.flsPump, if_neg (by rw [hr]; decide), hq, hg]
  exact State.flsPump_empty _ (by rw [State.modSer_ser])

/-- An erase of an idle port. -/
theorem State.flsPump_erases (hr : s.ser.run = none) (hg : s.ser.gather = none) (hq : s.ser.queue = [.erase ad w]) (n : Nat) :
    State.flsPump (n + 1) s = (s.modSer (fun x => { x with queue := [] })).flsStart (.erase ad w) := by
  rw [State.flsPump, if_neg (by rw [hr]; decide), hq, hg]

/-- The bytes gather in an idle port. -/
theorem State.progStore_gathers (hi : FlashIdle s) (had : ad < 2 ^ 24) (hp : s.flsProtected ad b.length = false) :
    Gathers s (s.progStore w ad b) ad b w ∧ RegsBut [A.SER_FLSSTAT] s (s.progStore w ad b)
    ∧ s.progStore w ad b = { s with regs := (s.progStore w ad b).regs, ser := (s.progStore w ad b).ser } := by
  obtain ⟨hq, hb, hr, hg, hc⟩ := hi
  rw [State.progStore, Nat.mod_eq_of_lt had, State.flsWrite_queued (e := .prog ad b w) hc hp hq]
  have hx : (s.modSer (fun x => { x with queue := [.prog ad b w] })).ser = { s.ser with queue := [.prog ad b w] } := State.modSer_ser ..
  have hpump := State.flsPump_gathers (s := s.modSer (fun x => { x with queue := [.prog ad b w] })) (by rw [hx]; exact hr) (by rw [hx]; exact hg)
    (by rw [hx]) 63
  rw [State.flsRunQueue, hpump]
  have hnow : (s.modSer (fun x => { x with queue := [.prog ad b w] })).now = s.now := rfl
  rw [hnow]
  have hrest : ∃ ser, (s.modSer (fun x => { x with queue := [.prog ad b w] })).modSer (fun x => { x with
      queue := [], gather := some ⟨ad / 256, b.mapIdx (fun i y => ((ad + i) % 256, y)), w, s.now⟩ }) = { s with ser := ser } := ⟨_, rfl⟩
  have hser : ((s.modSer (fun x => { x with queue := [.prog ad b w] })).modSer (fun x => { x with
      queue := [], gather := some ⟨ad / 256, b.mapIdx (fun i y => ((ad + i) % 256, y)), w, s.now⟩ })).ser
      = { s.ser with queue := [], gather := some ⟨ad / 256, b.mapIdx (fun i y => ((ad + i) % 256, y)), w, s.now⟩ } := by
    rw [State.modSer_ser, hx]
  generalize (s.modSer (fun x => { x with queue := [.prog ad b w] })).modSer (fun x => { x with
      queue := [], gather := some ⟨ad / 256, b.mapIdx (fun i y => ((ad + i) % 256, y)), w, s.now⟩ }) = y at *
  have hunblock : y.flsUnblock = y := State.flsUnblock_none (by rw [hser]; exact hb)
  have hempty : State.flsPump 65 y = y := State.flsPump_empty _ (by rw [hser])
  rw [hunblock, hempty, hunblock]
  obtain ⟨_, hy⟩ := hrest
  have hyregs : y.regs = s.regs := by rw [hy]
  have hidle : ∀ g, ({ s.ser with queue := [], gather := g } : SerSt) = { s.ser with gather := g } := fun g => by rw [← hq]
  refine ⟨⟨?_, ?_, ?_⟩, (RegsBut.refl.of_regs hyregs).trans State.flsStat_regsBut, ?_⟩
  · rw [State.flsStat_ser, hser]; exact hidle _
  · rw [State.flsStat_gather, hser]; rfl
  · rw [State.flsStat_busy, hser, show ({ s.ser with
      queue := [], gather := some ⟨ad / 256, b.mapIdx (fun i y => ((ad + i) % 256, y)), w, s.now⟩ } : SerSt).run = none from hr]
    rfl
  · obtain ⟨-, _, h⟩ := y.flsStat_kept
    rw [h, hy]

/-- A protected range is recorded, and the port is left as it was. -/
theorem State.progStore_refused (hc : s.ser.closed = false) (had : ad < 2 ^ 24) (hp : s.flsProtected ad b.length = true) :
    (s.progStore w ad b).get F.SER_FLSSTAT_PROT = 1 ∧ NewestFault (s.progStore w ad b) 0x0F05 ad ∧ (s.progStore w ad b).ser = s.ser
    ∧ RegsBut (A.SER_FLSSTAT :: evtWords) s (s.progStore w ad b) := by
  rw [State.progStore, Nat.mod_eq_of_lt had, State.flsWrite_refused (e := .prog ad b w) hc hp]
  rw [show (FlsEntry.prog ad b w).range.1 = ad from rfl, Nat.mod_eq_of_lt had]
  have hnew := State.newestFault_record (s := s) (code := cnvm 5) (ctx := ad)
  have hser := State.record_ser (s := s) (cnvm 5) ad
  have hregs : RegsBut (A.SER_FLSSTAT :: evtWords) s (s.record (cnvm 5) ad) :=
    (regsBut_record (List.subset_cons_self ..)).mpr RegsBut.refl
  generalize s.record (cnvm 5) ad = y at *
  exact ⟨State.get_raise_same _ (by decide) rfl, hnew.regsBut (l := [A.SER_FLSSTAT]) (RegsBut.refl.raise (by decide)) (by decide) (by decide),
    (State.raise_ser ..).trans hser, hregs.raise (by decide)⟩

/-- An erase begins in an idle port. -/
theorem State.eraseStore_begun (hi : FlashIdle x) (had : ad < 2 ^ 24) (hp : x.flsProtected (ad / 4096 * 4096) 4096 = false)
    (hser : x.ser = a.ser) (hnow : x.now = a.now) (hregs : ∀ b ∈ flsWords, x.rd b = a.rd b) :
    FlashBegun a (x.eraseStore w ad) (.erase ad w) ∧ RegsBut [A.SER_FLSSTAT, A.SER_FLSCNT] x (x.eraseStore w ad) := by
  obtain ⟨hq, hb, hr, hg, hc⟩ := hi
  rw [State.eraseStore, Nat.mod_eq_of_lt had, State.flsWrite_queued (e := .erase ad w) hc hp hq]
  have hx : (x.modSer (fun x => { x with queue := [.erase ad w] })).ser = { x.ser with queue := [.erase ad w] } := State.modSer_ser ..
  have hpump := State.flsPump_erases (s := x.modSer (fun x => { x with queue := [.erase ad w] })) (by rw [hx]; exact hr) (by rw [hx]; exact hg)
    (by rw [hx]) 64
  rw [State.flsRunQueue, hpump]
  have hser' : ((x.modSer (fun x => { x with queue := [.erase ad w] })).modSer (fun x => { x with queue := [] })).ser = a.ser := by
    rw [State.modSer_ser, hx, ← hser]
    exact (fun (y : SerSt) (h : y.queue = []) => show { { y with queue := [.erase ad w] } with queue := [] } = y by rw [← h]) _ hq
  have hnow' : ((x.modSer (fun x => { x with queue := [.erase ad w] })).modSer (fun x => { x with queue := [] })).now = a.now := hnow
  have hregs' : ((x.modSer (fun x => { x with queue := [.erase ad w] })).modSer (fun x => { x with queue := [] })).regs = x.regs := rfl
  generalize (x.modSer (fun x => { x with queue := [.erase ad w] })).modSer (fun x => { x with queue := [] }) = y at *
  have hrd (z : Nat) : y.rd z = x.rd z := by unfold State.rd; rw [hregs']
  obtain ⟨hrun, -, -⟩ := State.flsStart_ser (s := y) (op := .erase ad w) (by rw [hser', ← hser]; exact hg)
  have hrunning : (y.flsStart (.erase ad w)).ser.run.isSome = true := by rw [hrun]; rfl
  have hblocked : (y.flsStart (.erase ad w)).ser.blocked = [] := by
    rw [hrun, hser', ← hser]; exact hb
  have hunblock : (y.flsStart (.erase ad w)).flsUnblock = y.flsStart (.erase ad w) := State.flsUnblock_none hblocked
  have hbusy : State.flsPump 65 (y.flsStart (.erase ad w)) = y.flsStart (.erase ad w) := State.flsPump_running _ hrunning
  rw [hunblock, hbusy, hunblock]
  refine ⟨State.flsStart_begun ?_ ?_ hnow' ?_, (RegsBut.refl.of_regs hregs').trans State.flsStart_stat_regsBut⟩
  · rw [hser', ← hser]; exact hg
  · intro r l; rw [hser']
  · intro f hf
    unfold State.get
    rw [hrd, hregs]
    revert hf f
    decide

/-- What a store into the flash reads besides its queue is the same once the write holds its tag. -/
theorem State.tagged_flsProtected (ad n : Nat) : s.tagged.flsProtected ad n = s.flsProtected ad n := by
  unfold State.flsProtected
  rw [State.tagged_load, State.tagged_get_yok (by decide)]

theorem FlashIdle.tagged (h : FlashIdle s) : FlashIdle s.tagged := by
  unfold FlashIdle at *
  rwa [State.tagged_ser]

theorem State.masterWrite_flsWdata (h : s.takes m A.SER_FLSWDATA = true) :
    s.masterWrite m A.SER_FLSWDATA v = s.tagged.flsWdata m.writer v := by
  refine State.masterWrite_act (b := A.SER_FLSWDATA) (idx := []) h (by decide +kernel) ?_ (by decide) fun r hr => ?_
  · unfold outsideWindows; decide
  · unfold State.actWrite
    simp +decide only [hr, if_true, if_false]

theorem State.masterWrite_flsErase (h : s.takes m A.SER_FLSERASE = true) :
    s.masterWrite m A.SER_FLSERASE v = s.tagged.eraseStore m.writer (v.toNat % 2 ^ 24) := by
  refine State.masterWrite_act (b := A.SER_FLSERASE) (idx := []) h (by decide +kernel) ?_ (by decide) fun r hr => ?_
  · unfold outsideWindows; decide
  · unfold State.actWrite
    simp +decide only [hr, if_true, if_false]

theorem State.flsAddr_lt : s.flsAddr < 2 ^ 24 := by
  have h : s.get F.SER_FLSADDR_ADDR < 2 ^ 24 := Nat.mod_lt _ (by decide)
  unfold State.flsAddr
  omega

theorem Gathers.of_tagged (h : Gathers a.tagged u ad b w) : Gathers a u ad b w := by
  unfold Gathers at *
  rwa [State.tagged_ser, State.tagged_now] at h

/-- A word written to SER_FLSWDATA gathers, and the address moves on. -/
theorem State.flsWdata_gathers (hi : FlashIdle s) (hp : s.flsProtected s.flsAddr 4 = false) :
    Gathers s (s.flsWdata w v) s.flsAddr (leBytes 4 v.toNat) w ∧ (s.flsWdata w v).get F.SER_FLSADDR_ADDR = (s.flsAddr + 4) % 2 ^ 24
    ∧ RegsBut [A.SER_FLSSTAT, A.SER_FLSADDR] s (s.flsWdata w v) := by
  have hlen : (leBytes 4 v.toNat).length = 4 := by simp [leBytes]
  unfold State.flsWdata
  dsimp only
  generalize leBytes 4 v.toNat = b at *
  generalize had : s.flsAddr = ad at *
  obtain ⟨⟨hser, hgather, hbusy⟩, hregs, -⟩ := State.progStore_gathers (ad := ad) (w := w) (b := b) hi (by rw [← had]; exact State.flsAddr_lt)
    (by rw [hlen]; exact hp)
  generalize s.progStore w ad b = x at *
  have hput : RegsBut [A.SER_FLSADDR] x (x.put F.SER_FLSADDR_ADDR (ad + 4)) := (regsBut_put (by decide)).mpr RegsBut.refl
  have hnext : (x.put F.SER_FLSADDR_ADDR (ad + 4)).get F.SER_FLSADDR_ADDR = (ad + 4) % 2 ^ 24 := State.get_put_same _ _ (by decide)
  have hput_ser : (x.put F.SER_FLSADDR_ADDR (ad + 4)).ser = x.ser := State.put_ser ..
  generalize x.put F.SER_FLSADDR_ADDR (ad + 4) = y at *
  exact ⟨⟨hput_ser.trans hser, (hput.get (by decide)).trans hgather, (hput.get (by decide)).trans hbusy⟩, hnext,
    (hregs.mono (by decide)).trans (hput.mono (by decide))⟩

/-- Stores to the windows of the flash, and to its registers. -/
theorem flashStores : Part.FlashStores := by
  intro s t q m ad b v
  dsimp only
  intro hi
  have had : ad.toNat < 2 ^ 24 := ad.isLt
  refine ⟨fun hclk hok _ _ => ⟨fun hp hturn => ⟨_, exec_at rfl (State.act.eq_def ..) hclk hturn, ?_⟩,
      fun hp hturn => ⟨_, exec_at rfl (State.act.eq_def ..) hclk hturn, ?_⟩⟩,
    fun hclk hok hp hturn => ⟨_, exec_at rfl (State.act.eq_def ..) hclk hturn, ?_⟩,
    fun htakes hp hturn => ⟨_, exec_any rfl (State.act.eq_def ..) hturn, ?_⟩,
    fun htakes hp hturn => ⟨_, exec_any rfl (State.act.eq_def ..) hturn, ?_⟩⟩
  all_goals generalize s.advance t = a at *
  case refine_1 =>
    rw [State.flashStore, if_pos hok]
    obtain ⟨hg, hregs, hrest⟩ := State.progStore_gathers (w := (pairMaster q).writer) hi had hp
    refine ⟨hg, hregs, ?_⟩
    generalize a.progStore (pairMaster q).writer ad.toNat b = u at *
    rw [hrest]
  case refine_2 =>
    rw [State.flashStore, if_pos hok]
    exact State.progStore_refused hi.2.2.2.2 had hp
  case refine_3 =>
    rw [State.flashStore, if_pos hok]
    exact State.eraseStore_begun hi had hp rfl rfl fun _ _ => rfl
  case refine_4 =>
    rw [State.masterWrite_flsWdata htakes]
    have haddr : a.tagged.flsAddr = a.flsAddr := by unfold State.flsAddr; rw [State.tagged, State.get_tagSet_word _ _ (by decide)]
    obtain ⟨hg, hnext, hregs⟩ := State.flsWdata_gathers (v := v) (w := m.writer) hi.tagged
      (by rw [State.tagged_flsProtected, haddr]; exact hp)
    rw [haddr] at hg hnext
    exact ⟨hg.of_tagged, hnext, (hregs.mono (by decide)).of_tagged (by decide)⟩
  case refine_5 =>
    rw [State.masterWrite_flsErase htakes]
    obtain ⟨hbegun, hregs⟩ := State.eraseStore_begun (a := a) (w := m.writer) hi.tagged (Nat.mod_lt v.toNat (by decide))
      (by rw [State.tagged_flsProtected]; exact hp) State.tagged_ser State.tagged_now
      (fun c hc => State.rd_tagSet_ne _ _ (by revert hc c; decide))
    exact ⟨hbegun, (hregs.mono (by decide)).of_tagged (by decide)⟩

end Stores

/-! ## Reads -/

section Reads
variable {s a x u : State} {rdr : Fin 4} {fetch : Bool} {ad : Nat} {line : List Byte} {m : Master} {d : Word}

/-- Nothing gathers, so a read flushes nothing. -/
theorem FlashIdle.flush (hi : FlashIdle s) : s.flsFlush = s.flsStat := by
  obtain ⟨-, -, -, hg, -⟩ := hi
  rw [State.flsFlush, State.flsProgram, hg]

theorem FlashIdle.notPending (hi : FlashIdle s) (n k : Nat) : s.flsPending n k = false := by
  obtain ⟨hq, hb, hr, hg, -⟩ := hi
  rw [State.flsPending, hq, hb, hr, hg]
  rfl

theorem FlashIdle.of_ser (hi : FlashIdle s) (h : u.ser = s.ser) : FlashIdle u := by
  unfold FlashIdle at *
  rwa [h]

/-- A reader's last word, put in place. -/
def State.lastPut (s : State) (rdr : Fin 4) (v : Word) : State := { s with lastRead := s.lastRead.set rdr v }

theorem State.lastPut_last (v : Word) : (s.lastPut rdr v).lastRead[rdr] = v := Vector.getElem_set_self _

/-- Puts a line in the cache. -/
def SerSt.fill (x : SerSt) (base : Nat) (line : List Byte) : SerSt :=
  { x with lines := (x.lines ++ [(base, line)]).drop (x.lines.length - 15) }

theorem State.lastPut_ser (v : Word) : (s.lastPut rdr v).ser = s.ser := rfl
theorem State.lastPut_regs (v : Word) : (s.lastPut rdr v).regs = s.regs := rfl

/-- A load from the window once nothing gathers, from the line cache or by a line fill. -/
theorem State.windowRead_of_flush (hu : s.flsFlush = u) (hi : FlashIdle u) (had : ad < 2 ^ 24) (hx : fetch = true → s.xipFetch ad = true) :
    (∀ l, u.ser.lines.find? (fun x => x.1 == ad / 64 * 64) = some l →
      s.windowRead rdr fetch ad line = u.lastPut rdr (BitVec.ofNat 32 (le l.2 (ad / 4 * 4 - ad / 64 * 64) 4)))
    ∧ (u.ser.lines.find? (fun x => x.1 == ad / 64 * 64) = none → line.length = 64 →
      s.windowRead rdr fetch ad line = ((u.busRead (ad / 64 * 64) 64).modSer (fun x => x.fill (ad / 64 * 64) line)).lastPut rdr
          (BitVec.ofNat 32 (le line (ad / 4 * 4 - ad / 64 * 64) 4))) := by
  have hfetch : ¬ (fetch = true ∧ (!s.xipFetch ad) = true) := fun h => by rw [hx h.1] at h; exact absurd h.2 (by decide)
  have hline : ad / 4 * 4 / 64 * 64 = ad / 64 * 64 := by omega
  have hrun : ¬ u.ser.run.isSome = true := by rw [hi.2.2.1]; decide
  have hnot := hi.notPending (ad / 4 * 4) 4
  rw [State.windowRead, Nat.mod_eq_of_lt had, if_neg hfetch, hu]
  dsimp only
  rw [hnot, if_neg (by decide), hline]
  refine ⟨fun l hl => ?_, fun hl hlen => ?_⟩
  · rw [hl]
    rfl
  · rw [hl]
    dsimp only
    rw [if_neg hrun, if_neg (fun h => h hlen)]
    rfl

/-- A line fill shows its line, and the transaction that read it. -/
theorem State.lineFill_shows (s : State) (base : Nat) (line : List Byte) (v : Word) (hu : ((s.busRead base 64).modSer (fun x =>
    x.fill base line)).lastPut rdr v = u) :
    u.lastRead[rdr] = v ∧ u.regs = s.regs ∧ (base, line) ∈ u.ser.lines ∧ u.ser.bus.map FlsTxn.addr = [some base]
    ∧ u.ser.bus.map FlsTxn.inp = [64] := by
  have hbus := State.busSet_kept (s := s) [s.readTxn base 64 (s.get F.SER_FLSRD_SCKDIV)]
  have haddr : (s.readTxn base 64 (s.get F.SER_FLSRD_SCKDIV)).addr = some base := rfl
  have hinp : (s.readTxn base 64 (s.get F.SER_FLSRD_SCKDIV)).inp = 64 := rfl
  obtain ⟨hser, hregs⟩ := hbus
  rw [State.busRead] at hu
  generalize s.readTxn base 64 (s.get F.SER_FLSRD_SCKDIV) = txn at *
  generalize s.busSet [txn] = y at *
  have hlast := State.lastPut_last (s := y.modSer (fun x => x.fill base line)) (rdr := rdr) v
  have hfill : u.ser = y.ser.fill base line := by rw [← hu]; rfl
  have hur : u.regs = y.regs := by rw [← hu]; rfl
  rw [hu] at hlast
  refine ⟨hlast, hur.trans hregs, ?_, ?_, ?_⟩
  · rw [hfill, SerSt.fill, List.drop_append_of_le_length (by omega)]
    exact List.mem_append_right _ (List.mem_singleton.mpr rfl)
  · rw [hfill, show (y.ser.fill base line).bus = y.ser.bus from rfl, hser, ← haddr]
    rfl
  · rw [hfill, show (y.ser.fill base line).bus = y.ser.bus from rfl, hser, ← hinp]
    rfl

/-- SER_FLSRDATA once nothing gathers. -/
theorem State.flsRdata_of_flush (hu : s.flsFlush = u) (hi : FlashIdle u) :
    s.flsRdata d = (some d, (u.busRead u.flsAddr 4).put F.SER_FLSADDR_ADDR (u.flsAddr + 4)) := by
  have hnot : (u.ser.run.isSome || u.flsPending u.flsAddr 4) = false := by rw [hi.notPending, hi.2.2.1]; rfl
  rw [State.flsRdata, hu]
  rw [hnot]
  rfl

theorem State.readWord_flsRdata (w : Writer) : s.readWord rdr w A.SER_FLSRDATA d
    = ((s.loadSync.flsRdata d).1.getD 0, (s.loadSync.flsRdata d).2) := by
  have hmap : (regAt A.SER_FLSRDATA).map (fun e => e.1.base) = some A.SER_FLSRDATA := by decide +kernel
  obtain ⟨⟨r, i⟩, hreg, hbase⟩ := Option.map_eq_some_iff.mp hmap
  dsimp only at hbase
  rw [State.readWord]
  dsimp only
  rw [if_neg (by decide), State.winKey_outside (by unfold outsideWindows; decide), hreg]
  simp only [hbase]
  rw [if_neg (by decide), if_pos trivial]

/-- A master's read returns the word, and leaves the registers to the read. -/
theorem State.masterRead_shows (hreach : s.mayReach m false ad = true) :
    (s.masterRead m ad d).lastRead[m.reader] = (s.readWord m.reader m.writer ad d).1
    ∧ (s.masterRead m ad d).regs = (s.readWord m.reader m.writer ad d).2.regs := by
  rw [State.masterRead, hreach, if_neg (by decide)]
  generalize s.readWord m.reader m.writer ad d = p
  generalize readPops ad = b
  obtain ⟨w, y⟩ := p
  dsimp only
  cases m <;> cases b <;> exact ⟨Vector.getElem_set_self _, rfl⟩

theorem State.flsrdataRead_shows (hi : FlashIdle a) (hreach : a.mayReach m false A.SER_FLSRDATA = true) :
    (a.flsrdataRead m d).lastRead[m.reader] = d ∧ (a.flsrdataRead m d).get F.SER_FLSADDR_ADDR = (a.flsAddr + 4) % 2 ^ 24
    ∧ RegsBut [A.SER_FLSADDR, A.SER_FLSSTAT, A.CE_LOAD] a (a.flsrdataRead m d) := by
  have hsync := LoadFrame.loadSync (s := a)
  have hidle : FlashIdle a.loadSync := hi.of_ser (by rw [hsync.rest])
  obtain ⟨hlast, hregs⟩ := State.masterRead_shows (d := d) hreach
  rw [State.readWord_flsRdata] at hlast hregs
  have hstat : RegsBut [A.SER_FLSSTAT, A.CE_LOAD] a a.loadSync.flsStat :=
    (hsync.regs.mono (by decide)).trans (State.flsStat_regsBut.mono (by decide))
  have hread := State.flsRdata_of_flush (d := d) hidle.flush (hidle.of_ser State.flsStat_ser)
  rw [hread] at hlast hregs
  rw [State.flsrdataRead]
  generalize a.masterRead m A.SER_FLSRDATA d = r at *
  generalize a.loadSync.flsStat = x at *
  have haddr : x.flsAddr = a.flsAddr := by unfold State.flsAddr; rw [hstat.get (by decide)]
  have hbus : RegsBut [] x (x.busRead x.flsAddr 4) := RegsBut.refl.of_regs (State.busSet_kept _).2
  generalize x.busRead x.flsAddr 4 = y at *
  have hnext : (y.put F.SER_FLSADDR_ADDR (x.flsAddr + 4)).get F.SER_FLSADDR_ADDR = (x.flsAddr + 4) % 2 ^ 24 := State.get_put_same _ _ (by decide)
  have hput : RegsBut [A.SER_FLSADDR] y (y.put F.SER_FLSADDR_ADDR (x.flsAddr + 4)) := (regsBut_put (by decide)).mpr RegsBut.refl
  have hall : RegsBut [A.SER_FLSADDR, A.SER_FLSSTAT, A.CE_LOAD] a (y.put F.SER_FLSADDR_ADDR (x.flsAddr + 4)) :=
    ((hstat.mono (by decide)).trans (hbus.mono (by decide))).trans (hput.mono (by decide))
  rw [haddr] at hnext hall hregs
  generalize y.put F.SER_FLSADDR_ADDR (a.flsAddr + 4) = z at *
  have hrz : r.regs = z.regs := hregs
  refine ⟨hlast, ?_, hall.of_regs hrz⟩
  rw [← hnext]
  unfold State.get State.rd
  rw [hrz]

end Reads

/-- Loads from the window of the flash, and reads of its data register. -/
theorem flashReads : Part.FlashReads := by
  intro s t q m ad line d fetch
  dsimp only
  intro hi
  have had : ad.toNat < 2 ^ 24 := ad.isLt
  refine ⟨fun hclk hok hx => ⟨fun l hl hturn => ⟨_, exec_at rfl (State.act.eq_def ..) hclk hturn, ?_⟩,
      fun hl hlen hturn => ⟨_, exec_at rfl (State.act.eq_def ..) hclk hturn, ?_⟩⟩,
    fun hreach hturn => ⟨_, exec_any rfl (State.act.eq_def ..) hturn, State.flsrdataRead_shows hi hreach⟩⟩
  all_goals generalize s.advance t = a at *
  case refine_1 =>
    rw [State.winRead, if_pos hok, (State.windowRead_of_flush hi.flush (hi.of_ser State.flsStat_ser) had hx).1 l
      (by rw [State.flsStat_ser]; exact hl)]
    exact ⟨⟨State.lastPut_last _, State.flsStat_regsBut.of_regs (State.lastPut_regs _)⟩,
      (State.lastPut_ser _).trans State.flsStat_ser⟩
  case refine_2 =>
    rw [State.winRead, if_pos hok, (State.windowRead_of_flush hi.flush (hi.of_ser State.flsStat_ser) had hx).2
      (by rw [State.flsStat_ser]; exact hl) hlen]
    obtain ⟨hlast, hregs, hlines, haddr, hinp⟩ := State.lineFill_shows (rdr := (pairMaster q).reader) a.flsStat (ad.toNat / 64 * 64) line
      (BitVec.ofNat 32 (le line (ad.toNat / 4 * 4 - ad.toNat / 64 * 64) 4)) rfl
    exact ⟨⟨hlast, State.flsStat_regsBut.of_regs hregs⟩, hlines, haddr, hinp⟩

/-- Settles O50: what a store, a load and a transaction of the flash port do. -/
theorem flashAccesses : Obligations.FlashAccesses := ⟨flashStores, flashReads, flashTransactions⟩

end Sys2Proof.Machine
end

section
/-!
PROOFS. What the halt of a team leaves: the registers of the legs, the teams, the feedback ports, the control engine and the
fault log alone, and the state of every other team.
-/
namespace Sys2Proof.Machine

/-- The words of the legs and the teams, of the feedback ports and the control engine, and of the fault log. -/
def haltWord (b : Nat) : Prop :=
  (0x40000 ≤ b ∧ b < 0x68000) ∨ (0x90000 ≤ b ∧ b < 0xB0000) ∨ (0x120008 ≤ b ∧ b < 0x120040)

/-- The fields there, but for the feedback ports and for the states of the teams, the causes of their halts and their
faults. -/
def haltFld (f : Fld) : Prop :=
  (haltWord f.addr ∧ (f.addr < 0x90000 ∨ 0x98000 ≤ f.addr))
  ∧ ∀ t : Fin 24, Apart (F.TEAM_STAT_STATE t) f ∧ Apart (F.TEAM_STAT_CAUSE t) f ∧ Apart (F.TEAM_SAFEFLT_FLT t) f

/-- Nothing differs but the legs, the teams with their groups, the journal and the fields `W`. -/
structure HaltFrame (W : Fld → Prop) (s u : State) : Prop where
  flds : FldsBut W s u
  rest : u = { s with regs := u.regs, same := u.same, legs := u.legs, teams := u.teams, groups := u.groups, jrn := u.jrn }

/-- What stands beside the states of the teams. -/
abbrev HaltKept (s u : State) : Prop := HaltFrame haltFld s u

section Fields
variable {f : Fld}

theorem haltFld_of (h : haltWord f.addr) (h' : f.addr < 0x60000 ∨ 0x98000 ≤ f.addr) : haltFld f :=
  ⟨⟨h, by omega⟩, fun t => ⟨Or.inl (by simp only [F.TEAM_STAT_STATE, A.TEAM_STAT]; omega),
    Or.inl (by simp only [F.TEAM_STAT_CAUSE, A.TEAM_STAT]; omega), Or.inl (by simp only [F.TEAM_SAFEFLT_FLT, A.TEAM_SAFEFLT]; omega)⟩⟩

theorem haltFld_leg (h : 0x40000 ≤ f.addr) (h' : f.addr < 0x52000) : haltFld f := haltFld_of (Or.inl ⟨h, by omega⟩) (by omega)

/-- A word of a leg's page. -/
theorem haltFld_legPage (n : Fin 72) (k lo w : Nat) (hk : k < 0x400) : haltFld ⟨0x40000 + k + 0x400 * n, lo, w⟩ :=
  haltFld_leg (by dsimp only; omega) (by dsimp only; omega)

theorem haltFld_team (t : Fin 24) (k : Nat) {lo w : Nat} (hk : k < 0x400) (h : (k ≠ 0x54 ∨ 7 ≤ lo) ∧ k ≠ 0x58) :
    haltFld ⟨0x60000 + k + 0x400 * t, lo, w⟩ := by
  refine ⟨⟨Or.inl ⟨by dsimp only; omega, by dsimp only; omega⟩, by dsimp only; omega⟩, fun t' => ⟨?_, ?_, ?_⟩⟩
  · simp only [Apart, F.TEAM_STAT_STATE, A.TEAM_STAT]
    omega
  · simp only [Apart, F.TEAM_STAT_CAUSE, A.TEAM_STAT]
    omega
  · simp only [Apart, F.TEAM_SAFEFLT_FLT, A.TEAM_SAFEFLT]
    omega

theorem haltFld_late (h : 0x98000 ≤ f.addr) (h' : f.addr < 0xB0000) : haltFld f :=
  haltFld_of (Or.inr (Or.inl ⟨by omega, h'⟩)) (by omega)

theorem haltFld_evt (h : 0x120008 ≤ f.addr) (h' : f.addr < 0x120040) : haltFld f := haltFld_of (Or.inr (Or.inr ⟨h, h'⟩)) (by omega)

end Fields

namespace HaltFrame
variable {W : Fld → Prop} {a s u x : State} {f : Fld}

theorem refl : HaltFrame W s s := ⟨FldsBut.refl, rfl⟩

theorem trans (h : HaltFrame W s u) (k : HaltFrame W u x) : HaltFrame W s x := ⟨h.flds.trans k.flds, by rw [k.rest, h.rest]⟩

theorem ite {c : Prop} [Decidable c] (h : HaltFrame W a s) (k : HaltFrame W a u) : HaltFrame W a (if c then s else u) := by
  split
  · exact h
  · exact k

theorem each_mem {α : Type} {l : List α} {e : α → State → State} (h : HaltFrame W a s) (he : ∀ y ∈ l, ∀ s, HaltFrame W s (e y s)) :
    HaltFrame W a (each l e s) :=
  each_keeps (fun u => HaltFrame W a u) l e (fun y hy _ hu => hu.trans (he y hy _)) s h

theorem each {α : Type} {l : List α} {e : α → State → State} (h : HaltFrame W a s) (he : ∀ y s, HaltFrame W s (e y s)) :
    HaltFrame W a (each l e s) :=
  h.each_mem fun y _ s => he y s

/-- Nothing of the register file has changed since. -/
theorem next (h : HaltFrame W a s) (k : u = { s with same := u.same, legs := u.legs, teams := u.teams, groups := u.groups, jrn := u.jrn }) :
    HaltFrame W a u :=
  h.trans ⟨FldsBut.refl.of_regs (by rw [k]), by rw [k]⟩

theorem put (h : HaltFrame W a s) (v : Nat) (hf : W f) (hb : f.lo + f.width ≤ 32) : HaltFrame W a (s.put f v) :=
  h.trans ⟨FldsBut.refl.put v hf hb, rfl⟩

theorem putB (h : HaltFrame W a s) (b : Bool) (hf : W f) (hb : f.lo + f.width ≤ 32) : HaltFrame W a (s.putB f b) := h.put _ hf hb

theorem bump (h : HaltFrame W a s) (hf : W f) (hb : f.lo + f.width ≤ 32) : HaltFrame W a (s.bump f) := h.put _ hf hb

theorem bumpSat (h : HaltFrame W a s) (hf : W f) (hb : f.lo + f.width ≤ 32) : HaltFrame W a (s.bumpSat f) := h.put _ hf hb

theorem raise (h : HaltFrame W a s) (hf : W f) (hb : f.lo + f.width ≤ 32) : HaltFrame W a (s.raise f) := (h.put 1 hf hb).next rfl

theorem wr {b : Nat} (h : HaltFrame W a s) (w : Word) (hf : W (wordOf b)) : HaltFrame W a (s.wr b w) :=
  h.trans ⟨FldsBut.refl.wr w hf, rfl⟩

theorem modLeg (h : HaltFrame W a s) (n : Fin 72) (g : LegSt → LegSt) : HaltFrame W a (s.modLeg n g) := h.next rfl

theorem modTeam (h : HaltFrame W a s) (t : Fin 24) (g : TeamSt → TeamSt) : HaltFrame W a (s.modTeam t g) := h.next rfl

theorem modGroup (h : HaltFrame W a s) (i : Fin 8) (g : GroupSt → GroupSt) : HaltFrame W a (s.modGroup i g) := h.next rfl

theorem modJrn (h : HaltFrame W a s) (g : JrnSt → JrnSt) : HaltFrame W a (s.modJrn g) := h.next rfl

/-- The state of every team stands. -/
theorem tstate (h : HaltKept s u) (t : Fin 24) : u.tstate t = s.tstate t := h.flds.get fun _ hf => (hf.2 t).1

/-- So does the cause of its halt. -/
theorem cause (h : HaltKept s u) (t : Fin 24) : u.get (F.TEAM_STAT_CAUSE t) = s.get (F.TEAM_STAT_CAUSE t) := h.flds.get fun _ hf => (hf.2 t).2.1

/-- So does its fault. -/
theorem fault (h : HaltKept s u) (t : Fin 24) : u.get (F.TEAM_SAFEFLT_FLT t) = s.get (F.TEAM_SAFEFLT_FLT t) :=
  h.flds.get fun _ hf => (hf.2 t).2.2

/-- And every field of a feedback port. -/
theorem portGet (h : HaltKept s u) (hf : 0x90000 ≤ f.addr) (hf' : f.addr < 0x98000) : u.get f = s.get f :=
  h.flds.get fun _ hg => Or.inl fun e => by have h := hg.1.2; omega

theorem toWords (h : HaltKept s u) : HaltFrame (fun f => haltWord f.addr) s u := ⟨h.flds.mono fun _ hf => hf.1.1, h.rest⟩

theorem rd {b : Nat} (h : HaltFrame (fun f => haltWord f.addr) s u) (hb : ¬ haltWord b) : u.rd b = s.rd b :=
  h.flds.rd fun _ hf e => hb (e ▸ hf)

theorem get (h : HaltFrame (fun f => haltWord f.addr) s u) (hf : ¬ haltWord f.addr) : u.get f = s.get f :=
  h.flds.get fun _ hg => Or.inl fun e => hf (e ▸ hg)

end HaltFrame

section Parts
variable {a s : State} {n : Fin 72} {t : Fin 24} {sw : Sw}

/-! ## The fault log -/

theorem HaltFrame.recordAt (h : HaltKept a s) (code ctx time writer : Nat) : HaltKept a (s.recordAt code ctx time writer) := by
  have hevt (b lo w : Nat) (hb : 0x120008 ≤ b) (hb' : b < 0x120040) : haltFld ⟨b, lo, w⟩ := haltFld_evt hb hb'
  unfold State.recordAt State.evtLast State.jrnQueue State.putStamp
  dsimp only
  have hlast (r : FaultRec) := (((h.wr (BitVec.ofNat 32 r.code) (hevt A.EVT_LAST 0 32 (by decide) (by decide))).wr r.ctx
    (hevt A.EVT_LASTCTX 0 32 (by decide) (by decide))).wr (BitVec.ofNat 32 r.time) (hevt A.EVT_LASTT0 0 32 (by decide) (by decide))).put
      (r.time / 2 ^ 32) (hevt A.EVT_LASTT1 0 8 (by decide) (by decide)) (by decide)
  have hq := hlast { code := code, ctx := BitVec.ofNat 32 ctx, time := time, writer := writer }
  generalize State.put _ _ _ = y at *
  exact ((hq.modJrn _).put _ (hevt _ _ _ (by decide) (by decide)) (by decide)).ite (hq.bumpSat (hevt _ _ _ (by decide) (by decide)) (by decide))

/-! ## The gate of a leg -/

/-- A word of the legs' pages. -/
def legFld (f : Fld) : Prop := 0x40000 ≤ f.addr ∧ f.addr < 0x52000

/-- Nothing differs but the legs with their registers. -/
abbrev LegKept (s u : State) : Prop := HaltFrame legFld s u

theorem HaltFrame.toHalt {u : State} (h : LegKept s u) : HaltKept s u := ⟨h.flds.mono fun _ hf => haltFld_leg hf.1 hf.2, h.rest⟩

theorem legFld_page (n : Fin 72) (k lo w : Nat) (hk : k < 0x400) : legFld ⟨0x40000 + k + 0x400 * n, lo, w⟩ :=
  ⟨by dsimp only; omega, by dsimp only; omega⟩

theorem State.etcFail_leg (id : Option Nat) : LegKept s (s.etcFail n id) := by
  unfold State.etcFail
  split
  · exact HaltFrame.refl
  · split
    · exact HaltFrame.refl
    · exact HaltFrame.refl.modLeg ..

theorem State.cancelPend_leg : LegKept s (s.cancelPend n) := by
  unfold State.cancelPend
  split
  · exact HaltFrame.refl
  · exact (HaltFrame.refl.modLeg ..).trans (State.etcFail_leg _)

theorem State.carryZero_leg : LegKept s (s.carryZero n) :=
  (HaltFrame.refl.modLeg ..).wr _ (legFld_page n 0x120 0 32 (by decide))

theorem State.bsStore_leg (k : Tick) (c : Nat) : LegKept s (s.bsStore n k c) := by
  unfold State.bsStore
  exact ((HaltFrame.refl.put _ (legFld_page n 0x12C _ _ (by decide)) (Nat.le_of_ble_eq_true rfl)).putB _ (legFld_page n 0x12C _ _ (by decide))
    (Nat.le_of_ble_eq_true rfl)).modLeg ..

theorem State.setBall_leg (lvl : Bool) (at_ : Fine) : LegKept s (s.setBall n sw lvl at_) := by
  unfold State.setBall
  refine HaltFrame.refl.ite ?_
  have hsync : LegKept s (s.bsSync n (s.bsTick n sw lvl at_)) := State.bsStore_leg ..
  generalize s.bsSync n (s.bsTick n sw lvl at_) = y at *
  cases sw with
  | high => exact (hsync.modLeg ..).modLeg ..
  | low =>
    have hgl (g g' : LegSt → LegSt) : LegKept s ((y.modLeg n g).modLeg n g') := (hsync.modLeg ..).modLeg ..
    exact HaltFrame.ite (((hgl ..).trans (State.bsStore_leg ..)).modLeg ..) (hgl ..)

theorem State.openExp_leg (on : Bool) (at_ : Fine) (id : Option Nat) : LegKept s (s.openExp n sw on at_ id) := by
  have hset (l : List Expect) : LegKept s (s.setExps n sw l) := by
    unfold State.setExps
    cases sw <;> exact HaltFrame.refl.modLeg ..
  unfold State.openExp
  exact (hset _).ite HaltFrame.refl

theorem State.raiseBit_leg {f : Fld} {i : Nat} (hf : legFld ⟨f.addr, f.lo + i, 1⟩) (hi : f.lo + i < 32) : LegKept s (s.raiseBit f i) :=
  HaltFrame.refl.raise hf hi

theorem State.emitRaw_leg (lvl : Bool) (at_ : Fine) (id : Option Nat) : LegKept s (s.emitRaw n sw lvl at_ id) := by
  unfold State.emitRaw
  exact HaltFrame.refl.ite ((((State.raiseBit_leg (legFld_page n 0x214 _ _ (by decide)) (Nat.le_of_ble_eq_true rfl)).ite HaltFrame.refl).trans
    (State.setBall_leg ..)).trans (State.openExp_leg ..))

theorem State.latchGate_leg (stamp : Fine) : LegKept s (s.latchGate n stamp) := by
  unfold State.latchGate
  refine HaltFrame.refl.ite ?_
  dsimp only
  have hl : LegKept s (s.modLeg n (fun l => { l with latched := true })) := HaltFrame.refl.modLeg ..
  split
  · exact hl
  · exact (hl.modLeg ..).ite (hl.trans (State.emitRaw_leg ..))

theorem HaltFrame.raiseBit {f : Fld} {i : Nat} (h : HaltKept a s) (hf : haltFld ⟨f.addr, f.lo + i, 1⟩) (hi : f.lo + i < 32) :
    HaltKept a (s.raiseBit f i) := h.raise hf hi

theorem HaltFrame.cancelPend (h : HaltKept a s) : HaltKept a (s.cancelPend n) := h.trans State.cancelPend_leg.toHalt
theorem HaltFrame.carryZero (h : HaltKept a s) : HaltKept a (s.carryZero n) := h.trans State.carryZero_leg.toHalt
theorem HaltFrame.latchGate (h : HaltKept a s) (stamp : Fine) : HaltKept a (s.latchGate n stamp) := h.trans (State.latchGate_leg _).toHalt
theorem HaltFrame.emitRaw (h : HaltKept a s) (lvl : Bool) (at_ : Fine) (id : Option Nat) : HaltKept a (s.emitRaw n sw lvl at_ id) :=
  h.trans (State.emitRaw_leg ..).toHalt

/-! ## The groups, and a team's live state -/

theorem HaltFrame.groupDrop (h : HaltKept a s) : HaltKept a (s.groupDrop t) :=
  h.each fun _ _ => (HaltFrame.refl.modGroup ..).ite HaltFrame.refl

theorem HaltFrame.liveUpdate (h : HaltKept a s) : HaltKept a (s.liveUpdate t) := by
  unfold State.liveUpdate
  have hp (b : Bool) : HaltKept a (s.putB (F.TEAM_STAT_DROPPED t) b) := h.putB b (haltFld_team t 0x54 (by decide) (by decide)) (Nat.le_of_ble_eq_true rfl)
  exact ((hp _).modTeam ..).groupDrop.ite (hp _)

/-! ## A trip -/

theorem HaltFrame.tripRecord {kind idx cond stamp code ctx : Nat} (h : HaltKept a s) (first : Bool) (hk : kind ≤ 31) :
    HaltKept a (s.tripRecord n first kind idx cond stamp code ctx) := by
  unfold State.tripRecord
  have hr : HaltKept a (s.raiseBit (F.LEG_TRIPSRC_KINDS n) (kind - 1)) :=
    h.raiseBit (haltFld_legPage n 0x214 _ _ (by decide)) (by simp only [F.LEG_TRIPSRC_KINDS]; omega)
  refine hr.ite ?_
  have hstat := (((hr.putB true (f := F.LEG_TRIPSTAT_LATCHED n) (haltFld_legPage n 0x208 _ _ (by decide)) (Nat.le_of_ble_eq_true rfl)).put kind
    (f := F.LEG_TRIPSTAT_KIND n) (haltFld_legPage n 0x208 _ _ (by decide)) (Nat.le_of_ble_eq_true rfl)).put idx (f := F.LEG_TRIPSTAT_SRCIDX n)
      (haltFld_legPage n 0x208 _ _ (by decide)) (Nat.le_of_ble_eq_true rfl)).put cond (f := F.LEG_TRIPSTAT_COND n)
        (haltFld_legPage n 0x208 _ _ (by decide)) (Nat.le_of_ble_eq_true rfl)
  have hcnt := hstat.bump (f := F.LEG_TRIPCNT_TRIPS n) (haltFld_legPage n 0x218 _ _ (by decide)) (Nat.le_of_ble_eq_true rfl)
  dsimp only
  generalize State.bump _ (F.LEG_TRIPCNT_TRIPS n) = y at *
  unfold State.putStamp
  exact (((hcnt.wr _ (haltFld_legPage n 0x20C _ _ (by decide))).put _ (haltFld_legPage n 0x210 _ _ (by decide)) (Nat.le_of_ble_eq_true rfl)).recordAt ..).modLeg ..

theorem HaltFrame.tripEffect (h : HaltKept a s) : HaltKept a (s.tripEffect n) := by
  unfold State.tripEffect
  dsimp only
  have hc : HaltKept a ((s.cancelPend n).carryZero n) := h.cancelPend.carryZero
  generalize (s.cancelPend n).carryZero n = y at *
  have hy : HaltKept a ((y.putB (F.LEG_TRIPSTAT_SEQ n) (y.leg n).seq.isSome).modLeg n (fun l => { l with seenAt := y.now })) :=
    (hc.putB _ (haltFld_legPage n 0x208 _ _ (by decide)) (Nat.le_of_ble_eq_true rfl)).modLeg ..
  generalize State.modLeg _ n _ = z at *
  split
  · exact hy.liveUpdate
  · exact hy

theorem HaltFrame.tripLatch {kind idx cond code ctx : Nat} (h : HaltKept a s) (hk : kind ≤ 31) :
    HaltKept a (s.tripLatch n kind idx cond code ctx) :=
  ((h.latchGate _).tripRecord _ hk).tripEffect

/-! ## The safe levels -/

theorem HaltFrame.emitSafe (h : HaltKept a s) : HaltKept a (s.emitSafe n sw) := by
  unfold State.emitSafe
  have he : HaltKept a (s.emitRaw n sw false s.nowF none) := h.emitRaw ..
  exact (he.tripLatch (by decide)).ite he

theorem HaltFrame.ascPlace (h : HaltKept a s) : HaltKept a (s.ascPlace n sw) := by
  unfold State.ascPlace
  exact h.modLeg ..

theorem HaltFrame.ascCheck (h : HaltKept a s) : HaltKept a (s.ascCheck t) := by
  unfold State.ascCheck
  refine h.ite ?_
  split
  · exact h
  · exact ((h.putB _ (haltFld_team t 0x54 (by decide) (by decide)) (Nat.le_of_ble_eq_true rfl)).each fun _ _ => HaltFrame.refl.ascPlace).ite h

theorem HaltFrame.safeEntry (h : HaltKept a s) : HaltKept a (s.safeEntry t) := by
  unfold State.safeEntry
  dsimp only
  refine HaltFrame.ascCheck (HaltFrame.putB (HaltFrame.put ?_ _ ?_ ?_) _ ?_ ?_)
  · exact (h.each fun _ _ => HaltFrame.refl.cancelPend.emitSafe.emitSafe).each fun _ _ => HaltFrame.refl.carryZero
  · exact haltFld_team t 0x54 (by decide) (by decide)
  · exact Nat.le_of_ble_eq_true rfl
  · exact haltFld_team t 0x54 (by decide) (by decide)
  · exact Nat.le_of_ble_eq_true rfl

/-! ## The ports and the generators of a team -/

/-- What comes after the marks of a halt: it leaves the states, causes and faults of the teams, and a port whose ramp has
ended. -/
structure HaltRest (s u : State) : Prop where
  words : HaltFrame (fun f => haltWord f.addr) s u
  teams : ∀ f : Fld, f.addr < 0x90000 → (∀ g, haltFld g → Apart f g) → u.get f = s.get f
  ended : ∀ p : Fin 8, s.get (F.FBK_STAT_LADDER p) = 3 →
    u.get (F.FBK_STAT_LADDER p) = 3 ∧ u.get (F.FBK_RAMPF_F p) = s.get (F.FBK_RAMPF_F p)

theorem ladder_port (p : Fin 8) : 0x90000 ≤ (F.FBK_STAT_LADDER p).addr ∧ (F.FBK_STAT_LADDER p).addr < 0x98000
    ∧ 0x90000 ≤ (F.FBK_RAMPF_F p).addr ∧ (F.FBK_RAMPF_F p).addr < 0x98000 := by
  simp only [F.FBK_STAT_LADDER, A.FBK_STAT, F.FBK_RAMPF_F, A.FBK_RAMPF]
  omega

theorem HaltFrame.toRest {u : State} (h : HaltKept s u) : HaltRest s u :=
  ⟨h.toWords, fun _ _ hf => h.flds.get hf, fun p hp => by
    obtain ⟨h1, h2, h3, h4⟩ := ladder_port p
    exact ⟨(h.portGet h1 h2).trans hp, h.portGet h3 h4⟩⟩

theorem HaltRest.trans {u x : State} (h : HaltRest s u) (k : HaltRest u x) : HaltRest s x :=
  ⟨h.words.trans k.words, fun f hf hg => (k.teams f hf hg).trans (h.teams f hf hg), fun p hp => by
    obtain ⟨hl, hr⟩ := h.ended p hp
    obtain ⟨kl, kr⟩ := k.ended p hl
    exact ⟨kl, kr.trans hr⟩⟩

/-- One port's ladder is cleared. -/
def State.ladderOff (s : State) (k : Nat) : State := (s.put (F.FBK_STAT_LADDER k) 0).put (F.FBK_RAMPF_F k) 0x10000

theorem State.ladderOff_rest {k : Nat} (hk : k < 8) (h3 : s.get (F.FBK_STAT_LADDER k) ≠ 3) : HaltRest s (s.ladderOff k) := by
  unfold State.ladderOff
  have hstat : haltWord (F.FBK_STAT_LADDER k).addr := Or.inr (Or.inl (by simp only [F.FBK_STAT_LADDER, A.FBK_STAT]; omega))
  have hramp : haltWord (F.FBK_RAMPF_F k).addr := Or.inr (Or.inl (by simp only [F.FBK_RAMPF_F, A.FBK_RAMPF]; omega))
  have hkeep {f : Fld} (h1 : f.addr ≠ A.FBK_STAT k) (h2 : f.addr ≠ A.FBK_RAMPF k) :
      ((s.put (F.FBK_STAT_LADDER k) 0).put (F.FBK_RAMPF_F k) 0x10000).get f = s.get f :=
    (State.get_put_word (f := F.FBK_RAMPF_F k) _ _ h2).trans (State.get_put_word (f := F.FBK_STAT_LADDER k) _ _ h1)
  refine ⟨(HaltFrame.refl.put _ hstat (Nat.le_of_ble_eq_true rfl)).put _ hramp (Nat.le_of_ble_eq_true rfl), fun f hf _ => ?_, fun p hp => ?_⟩
  · exact hkeep (by simp only [A.FBK_STAT]; omega) (by simp only [A.FBK_RAMPF]; omega)
  · have hne : p.val ≠ k := fun e => h3 (e ▸ hp)
    rw [hkeep (f := F.FBK_STAT_LADDER p), hkeep (f := F.FBK_RAMPF_F p)]
    · exact ⟨hp, rfl⟩
    all_goals
      simp only [F.FBK_STAT_LADDER, F.FBK_RAMPF_F, A.FBK_STAT, A.FBK_RAMPF]
      omega

theorem State.ladderClear_rest {p : Nat → Bool} (hp : p 3 = false) : HaltRest s (s.ladderClear t p) := by
  refine each_keeps (fun u => HaltRest s u) _ _ (fun k hk u hu => ?_) s HaltFrame.refl.toRest
  split
  case isTrue h =>
    refine hu.trans (State.ladderOff_rest (List.mem_range.mp hk) fun e => ?_)
    rw [e, hp, Bool.and_false] at h
    exact Bool.false_ne_true h
  case isFalse => exact hu

theorem HaltFrame.genAbort {g : Fin 4} (h : HaltKept a s) : HaltKept a (s.genAbort g) := by
  have hf (lo w : Nat) : haltFld ⟨A.CE_GENSTAT g, lo, w⟩ :=
    haltFld_late (by simp only [A.CE_GENSTAT]; omega) (by simp only [A.CE_GENSTAT]; omega)
  unfold State.genAbort
  exact (((h.putB _ (hf ..) (Nat.le_of_ble_eq_true rfl)).putB _ (hf ..) (Nat.le_of_ble_eq_true rfl)).raise (hf ..) (Nat.le_of_ble_eq_true rfl)).ite h

theorem HaltFrame.genHalt (h : HaltKept a s) : HaltKept a (s.genHalt t) :=
  h.each fun _ _ => HaltFrame.refl.genAbort.ite HaltFrame.refl

/-! ## The halt -/

/-- A team that halts, if it waits or runs: the others keep their states. -/
structure TeamHalted (t : Fin 24) (cause flt : Nat) (s u : State) : Prop where
  frame : HaltFrame (fun f => haltWord f.addr) s u
  halted : s.tstate t = stWAIT ∨ s.tstate t = stRUN → u.tstate t = stHALTED ∧ u.get (F.TEAM_STAT_CAUSE t) = cause % 2 ^ 3
    ∧ (cause = caFAULT → u.get (F.TEAM_SAFEFLT_FLT t) = flt % 2 ^ 16)
  idle : s.tstate t ≠ stWAIT → s.tstate t ≠ stRUN → u = s
  others : ∀ t', t' ≠ t → u.tstate t' = s.tstate t' ∧ u.get (F.TEAM_STAT_CAUSE t') = s.get (F.TEAM_STAT_CAUSE t')
  ended : ∀ p : Fin 8, s.get (F.FBK_STAT_LADDER p) = 3 →
    u.get (F.FBK_STAT_LADDER p) = 3 ∧ u.get (F.FBK_RAMPF_F p) = s.get (F.FBK_RAMPF_F p)

theorem teamState_word (t : Fin 24) : haltWord (F.TEAM_STAT_STATE t).addr :=
  Or.inl ⟨by simp only [F.TEAM_STAT_STATE, A.TEAM_STAT]; omega, by simp only [F.TEAM_STAT_STATE, A.TEAM_STAT]; omega⟩

/-- The words of two teams are two words. -/
theorem teamStat_ne {t' : Fin 24} (h : t' ≠ t) : A.TEAM_STAT t' ≠ A.TEAM_STAT t := by
  have : t'.val ≠ t.val := fun e => h (Fin.ext e)
  simp only [A.TEAM_STAT]
  omega

/-- What a halt writes first. -/
def State.haltMark (s : State) (t : Fin 24) (cause flt : Nat) : State :=
  let s := (s.put (F.TEAM_STAT_STATE t) stHALTED).put (F.TEAM_STAT_CAUSE t) cause
  if cause = caFAULT then s.put (F.TEAM_SAFEFLT_FLT t) flt else s

/-- What it does then. -/
def State.haltRest (s : State) (t : Fin 24) (st : Nat) (bar : Bool) : State :=
  let s := s.genHalt t
  let s := if st = stRUN then (s.ladderClear t (fun v => v == 1 || v == 2)).safeEntry t else s
  (s.modTeam t (fun x => { x with barred := bar })).liveUpdate t

theorem State.haltTeam_eq (cause flt : Nat) (h : s.tstate t = stWAIT ∨ s.tstate t = stRUN) : s.haltTeam t cause flt
    = (s.haltMark t cause flt).haltRest t (s.tstate t)
      (cause == caRESTART || (cause == caFAULT && (flt / 256 == cSUPPLY || flt / 256 == cTHERMAL))) := by
  unfold State.haltTeam
  dsimp only
  rw [if_pos h]
  rfl

/-- Team t is marked as halted, and everything else that can be read stands. -/
structure HaltMarked (t : Fin 24) (cause flt : Nat) (s u : State) : Prop where
  words : HaltFrame (fun f => haltWord f.addr) s u
  state : u.tstate t = stHALTED
  shown : u.get (F.TEAM_STAT_CAUSE t) = cause % 2 ^ 3
  fault : cause = caFAULT → u.get (F.TEAM_SAFEFLT_FLT t) = flt % 2 ^ 16
  others : ∀ f : Fld, f.addr ≠ A.TEAM_STAT t → f.addr ≠ A.TEAM_SAFEFLT t → u.get f = s.get f

theorem teamFlt_ne (t : Fin 24) : A.TEAM_STAT t ≠ A.TEAM_SAFEFLT t := by simp only [A.TEAM_STAT, A.TEAM_SAFEFLT]; omega

theorem State.haltMark_marks (cause flt : Nat) : HaltMarked t cause flt s (s.haltMark t cause flt) := by
  unfold State.haltMark
  have hfltWord : haltWord (F.TEAM_SAFEFLT_FLT t).addr :=
    Or.inl ⟨by simp only [F.TEAM_SAFEFLT_FLT, A.TEAM_SAFEFLT]; omega, by simp only [F.TEAM_SAFEFLT_FLT, A.TEAM_SAFEFLT]; omega⟩
  have h1 : HaltFrame (fun f => haltWord f.addr) s ((s.put (F.TEAM_STAT_STATE t) stHALTED).put (F.TEAM_STAT_CAUSE t) cause) :=
    (HaltFrame.refl.put _ (teamState_word t) (Nat.le_of_ble_eq_true rfl)).put _ (teamState_word t) (Nat.le_of_ble_eq_true rfl)
  have h2 : ((s.put (F.TEAM_STAT_STATE t) stHALTED).put (F.TEAM_STAT_CAUSE t) cause).tstate t = stHALTED :=
    (State.get_put_bits _ _ (Nat.le_of_ble_eq_true rfl) (Or.inl (Nat.le_of_ble_eq_true rfl))).trans (State.get_put_same _ _ (Nat.le_of_ble_eq_true rfl))
  have h3 : ((s.put (F.TEAM_STAT_STATE t) stHALTED).put (F.TEAM_STAT_CAUSE t) cause).get (F.TEAM_STAT_CAUSE t) = cause % 2 ^ 3 :=
    State.get_put_same _ _ (Nat.le_of_ble_eq_true rfl)
  have h4 (f : Fld) (hf : f.addr ≠ A.TEAM_STAT t) : ((s.put (F.TEAM_STAT_STATE t) stHALTED).put (F.TEAM_STAT_CAUSE t) cause).get f = s.get f :=
    (State.get_put_word _ _ hf).trans (State.get_put_word _ _ hf)
  dsimp only
  generalize (s.put (F.TEAM_STAT_STATE t) stHALTED).put (F.TEAM_STAT_CAUSE t) cause = y at *
  split
  · refine ⟨h1.put _ hfltWord (Nat.le_of_ble_eq_true rfl), ?_, ?_, fun _ => State.get_put_same _ _ (Nat.le_of_ble_eq_true rfl), fun f hf hf' => ?_⟩
    · exact (State.get_put_word (f := F.TEAM_SAFEFLT_FLT t) _ _ (teamFlt_ne t)).trans h2
    · exact (State.get_put_word (f := F.TEAM_SAFEFLT_FLT t) _ _ (teamFlt_ne t)).trans h3
    · exact (State.get_put_word (f := F.TEAM_SAFEFLT_FLT t) _ _ hf').trans (h4 f hf)
  · next h => exact ⟨h1, h2, h3, fun e => absurd e h, fun f hf _ => h4 f hf⟩

theorem State.haltRest_rest (st : Nat) (bar : Bool) : HaltRest s (s.haltRest t st bar) := by
  unfold State.haltRest
  have hgen : HaltRest s (s.genHalt t) := HaltFrame.refl.genHalt.toRest
  have hrun : HaltRest s ((((s.genHalt t).ladderClear t fun v => v == 1 || v == 2)).safeEntry t) :=
    (hgen.trans (State.ladderClear_rest (by decide))).trans HaltFrame.refl.safeEntry.toRest
  have hsafe : HaltRest s (if st = stRUN then (((s.genHalt t).ladderClear t fun v => v == 1 || v == 2)).safeEntry t else s.genHalt t) := by
    split
    · exact hrun
    · exact hgen
  exact hsafe.trans (HaltFrame.refl.modTeam ..).liveUpdate.toRest

theorem HaltRest.tstate {u : State} (h : HaltRest s u) (t : Fin 24) : u.tstate t = s.tstate t :=
  h.teams _ (by simp only [F.TEAM_STAT_STATE, A.TEAM_STAT]; omega) fun _ hf => (hf.2 t).1

theorem HaltRest.cause {u : State} (h : HaltRest s u) (t : Fin 24) : u.get (F.TEAM_STAT_CAUSE t) = s.get (F.TEAM_STAT_CAUSE t) :=
  h.teams _ (by simp only [F.TEAM_STAT_CAUSE, A.TEAM_STAT]; omega) fun _ hf => (hf.2 t).2.1

theorem HaltRest.fault {u : State} (h : HaltRest s u) (t : Fin 24) : u.get (F.TEAM_SAFEFLT_FLT t) = s.get (F.TEAM_SAFEFLT_FLT t) :=
  h.teams _ (by simp only [F.TEAM_SAFEFLT_FLT, A.TEAM_SAFEFLT]; omega) fun _ hf => (hf.2 t).2.2

theorem State.haltTeam_halts (cause flt : Nat) : TeamHalted t cause flt s (s.haltTeam t cause flt) := by
  by_cases h : s.tstate t = stWAIT ∨ s.tstate t = stRUN
  case neg =>
    have heq : s.haltTeam t cause flt = s := if_neg h
    rw [heq]
    exact ⟨HaltFrame.refl, fun h' => absurd h' h, fun _ _ => rfl, fun _ _ => ⟨rfl, rfl⟩, fun _ hp => ⟨hp, rfl⟩⟩
  case pos =>
    rw [State.haltTeam_eq cause flt h]
    have hm := State.haltMark_marks (s := s) (t := t) cause flt
    generalize s.haltMark t cause flt = y at *
    have hr := State.haltRest_rest (s := y) (t := t) (s.tstate t)
      (cause == caRESTART || (cause == caFAULT && (flt / 256 == cSUPPLY || flt / 256 == cTHERMAL)))
    generalize y.haltRest t _ _ = u at *
    have hport (p : Fin 8) : y.get (F.FBK_STAT_LADDER p) = s.get (F.FBK_STAT_LADDER p) ∧ y.get (F.FBK_RAMPF_F p) = s.get (F.FBK_RAMPF_F p) := by
      obtain ⟨h1, -, h2, -⟩ := ladder_port p
      exact ⟨hm.others _ (by simp only [A.TEAM_STAT]; omega) (by simp only [A.TEAM_SAFEFLT]; omega),
        hm.others _ (by simp only [A.TEAM_STAT]; omega) (by simp only [A.TEAM_SAFEFLT]; omega)⟩
    refine ⟨hm.words.trans hr.words, fun _ => ⟨(hr.tstate t).trans hm.state, (hr.cause t).trans hm.shown, fun e => (hr.fault t).trans (hm.fault e)⟩,
      fun h1 h2 => absurd h (not_or.mpr ⟨h1, h2⟩), fun t' ht => ⟨(hr.tstate t').trans ?_, (hr.cause t').trans ?_⟩, fun p hp => ?_⟩
    · exact hm.others _ (teamStat_ne ht) (by simp only [F.TEAM_STAT_STATE, A.TEAM_STAT, A.TEAM_SAFEFLT]; omega)
    · exact hm.others _ (teamStat_ne ht) (by simp only [F.TEAM_STAT_CAUSE, A.TEAM_STAT, A.TEAM_SAFEFLT]; omega)
    · obtain ⟨hl, hramp⟩ := hport p
      obtain ⟨hl', hramp'⟩ := hr.ended p (hl.trans hp)
      exact ⟨hl', hramp'.trans hramp⟩

/-- A team waits or runs no longer. -/
def State.stopped (s : State) (t : Fin 24) : Prop := s.tstate t ≠ stWAIT ∧ s.tstate t ≠ stRUN

section Stops
variable {u : State} {cause flt : Nat} {t' : Fin 24}

theorem TeamHalted.stopped (h : TeamHalted t cause flt s u) : u.stopped t := by
  by_cases hs : s.tstate t = stWAIT ∨ s.tstate t = stRUN
  · unfold State.stopped
    rw [(h.halted hs).1]
    decide
  · obtain ⟨hw, hr⟩ := not_or.mp hs
    rw [h.idle hw hr]
    exact ⟨hw, hr⟩

theorem TeamHalted.stays (h : TeamHalted t cause flt s u) (ht : s.stopped t') : u.stopped t' := by
  by_cases e : t' = t
  · exact e ▸ h.stopped
  · unfold State.stopped
    rw [(h.others t' e).1]
    exact ht

end Stops

/-- Every team of a list is halted. -/
theorem State.each_haltTeam (l : List (Fin 24)) (cause flt : Nat) (s : State) :
    HaltFrame (fun f => haltWord f.addr) s (each l (fun t s => s.haltTeam t cause flt) s)
    ∧ ∀ t, (t ∈ l ∨ s.stopped t) → (each l (fun t s => s.haltTeam t cause flt) s).stopped t := by
  induction l generalizing s with
  | nil => exact ⟨HaltFrame.refl, fun t ht => ht.resolve_left (List.not_mem_nil)⟩
  | cons x r ih =>
    have hx := s.haltTeam_halts (t := x) cause flt
    obtain ⟨hframe, hstop⟩ := ih (s.haltTeam x cause flt)
    refine ⟨hx.frame.trans hframe, fun t ht => hstop t ?_⟩
    rcases ht with ht | ht
    · rcases List.mem_cons.mp ht with rfl | ht
      · exact Or.inr hx.stopped
      · exact Or.inl ht
    · exact Or.inr (hx.stays ht)

theorem State.haltAll_stopped (code : Nat) :
    HaltFrame (fun f => haltWord f.addr) s (s.haltAll code) ∧ (s.haltAll code).allStopped := by
  obtain ⟨hframe, hstop⟩ := State.each_haltTeam allTeams caFAULT code s
  exact ⟨hframe, fun t => hstop t (Or.inl (List.mem_finRange t))⟩

end Parts
end Sys2Proof.Machine
end

section
/-!
PROOFS. Chapter 04: what a reset leaves, how one comes about, and the balls before start-up is done.
-/
namespace Sys2Proof.Machine

/-! ## The state a reset leaves -/

section Reset
variable {a s u : State} {src : RstSrc}

/-- The retained record. -/
def shutWords : List Nat := [A.HKP_SHDREC0, A.HKP_SHDREC1, A.HKP_SHDREC2]

theorem State.shutShow_regsBut : RegsBut shutWords s s.shutShow := by
  unfold State.shutShow
  exact (regsBut_wr (by decide)).mpr ((regsBut_wr (by decide)).mpr ((regsBut_wr (by decide)).mpr RegsBut.refl))

theorem State.wr3_frame (s : State) (x y z : Nat) (v w k : Word) : ∃ regs, ((s.wr x v).wr y w).wr z k = { s with regs := regs } := ⟨_, rfl⟩

theorem State.shutShow_frame : ∃ regs, s.shutShow = { s with regs := regs } := State.wr3_frame ..

theorem State.fuseShow_frame : ∃ regs, s.fuseShow = { s with regs := regs } := State.put3_frame ..

/-- What a reset starts from: nothing but what it keeps. -/
def State.cleared (s : State) (src : RstSrc) : State :=
  { State.reset with
    now := s.now, mem := if src == .por then [] else s.mem, upset := if src == .por then [] else s.upset, fuse := s.fuse,
    shutRec := if src == .por then ShutRec.reset else s.shutRec,
    jrn := { JrnSt.reset with log := s.jrn.log },
    hk := { HkSt.reset with feedA := { FeedSt.reset with freeAt := s.now }, feedB := { FeedSt.reset with freeAt := s.now } },
    freeCnt := s.freeCnt, pending := s.pending }

theorem State.resetDevice_eq : s.resetDevice src = ((((s.cleared src).wr A.IDG_RSTCAUSE (BitVec.ofNat 32 src.mask)).fuseShow).shutShow).modTim
    (fun t => { t with under := src == .por }) := rfl

/-- Nothing differs from the cleared state but the words that a reset shows, and the supplies at power-on. -/
theorem State.resetDevice_frame : ∃ regs, s.resetDevice src = { s.cleared src with regs := regs, tim := { TimSt.reset with under := src == .por } } := by
  have hframe (c : State) (w : Word) (f : TimSt → TimSt) :
      ∃ regs, (((c.wr A.IDG_RSTCAUSE w).fuseShow).shutShow).modTim f = { c with regs := regs, tim := f c.tim } := by
    obtain ⟨_, hf⟩ := State.fuseShow_frame (s := c.wr A.IDG_RSTCAUSE w)
    obtain ⟨_, hs⟩ := State.shutShow_frame (s := (c.wr A.IDG_RSTCAUSE w).fuseShow)
    exact ⟨_, by rw [hs, hf]; rfl⟩
  rw [State.resetDevice_eq]
  exact hframe ..

theorem State.resetDevice_cause : (s.resetDevice src).rd A.IDG_RSTCAUSE = BitVec.ofNat 32 src.mask := by
  rw [State.resetDevice_eq, State.modTim_rd]
  generalize s.cleared src = c
  generalize hw : BitVec.ofNat 32 src.mask = w
  have hcause : (c.wr A.IDG_RSTCAUSE w).rd A.IDG_RSTCAUSE = w := State.rd_wr_same ..
  generalize c.wr A.IDG_RSTCAUSE w = x at *
  have hfuse := State.fuseShow_regsBut (s := x) A.IDG_RSTCAUSE (by decide)
  generalize x.fuseShow = y at *
  rw [State.shutShow_regsBut A.IDG_RSTCAUSE (by decide), hfuse, hcause]

theorem State.cleared_rd (x : Nat) : (s.cleared src).rd x = regReset x := by
  have hregs : (s.cleared src).regs = [] := rfl
  unfold State.rd
  rw [hregs]
  rfl

theorem State.resetDevice_rd (x : Nat) (hx : x ∉ [A.IDG_RSTCAUSE, A.BOOT_FUSESEC, A.HKP_SHDREC0, A.HKP_SHDREC1, A.HKP_SHDREC2]) :
    (s.resetDevice src).rd x = regReset x := by
  rw [State.resetDevice_eq, State.modTim_rd, ← State.cleared_rd (s := s) (src := src)]
  generalize s.cleared src = c
  generalize BitVec.ofNat 32 src.mask = w
  have hcause : RegsBut [A.IDG_RSTCAUSE] c (c.wr A.IDG_RSTCAUSE w) := (regsBut_wr (by decide)).mpr RegsBut.refl
  generalize c.wr A.IDG_RSTCAUSE w = y at *
  have hfuse := State.fuseShow_regsBut (s := y)
  generalize y.fuseShow = z at *
  exact (((hcause.mono (by decide)).trans (hfuse.mono (by decide))).trans (State.shutShow_regsBut.mono (by decide))) x hx

theorem regReset_teamState : ∀ t : Fin 24, (regReset (A.TEAM_STAT t)).toNat % 2 ^ 3 = 0 := by decide +kernel

theorem State.resetDevice_afterReset : AfterReset s (s.resetDevice src) src := by
  obtain ⟨regs, hframe⟩ := State.resetDevice_frame (s := s) (src := src)
  refine ⟨State.resetDevice_cause, State.resetDevice_rd, ?_, ?_, ?_, ?_, ?_, ?_, ?_, ?_, ?_, ?_, ?_⟩
  case refine_4 =>
    intro t
    have hword : (s.resetDevice src).rd (A.TEAM_STAT t) = regReset (A.TEAM_STAT t) :=
      State.resetDevice_rd _ (by revert t; decide)
    have hstate : (s.resetDevice src).tstate t = (regReset (A.TEAM_STAT t)).toNat % 2 ^ 3 := by
      rw [← hword]; rfl
    rw [hstate, regReset_teamState]
    decide
  all_goals rw [hframe]
  case refine_3 =>
    intro n
    have hleg : ({ s.cleared src with regs := regs, tim := { TimSt.reset with under := src == .por } } : State).leg n = LegSt.reset :=
      Vector.getElem_replicate ..
    rw [hleg]
    exact ⟨rfl, rfl, rfl⟩
  case refine_5 => cases src <;> rfl
  case refine_6 => cases src <;> rfl
  all_goals rfl

end Reset

/-! ## Requests -/

section Requests
variable {a s : State} {src : RstSrc} {m : Master} {v : Word}

theorem State.resetRequest_begins (hb : s.tim.booting = true) (hh : s.load.holdoff = none) : HoldoffBegun s (s.resetRequest src) src := by
  unfold State.resetRequest State.outOfReset
  rw [hb, hh, if_neg (by decide)]
  obtain ⟨hframe, hstop⟩ := State.each_haltTeam allTeams caRESTART 0 s
  dsimp only
  generalize each allTeams (fun t s => s.haltTeam t caRESTART 0) s = y at *
  have hrest := hframe.rest
  have hload : y.load = s.load := by rw [hrest]
  have hnow : y.now = s.now := by rw [hrest]
  have htim : y.tim = s.tim := by rw [hrest]
  have hfuse : y.fuse = s.fuse := by rw [hrest]
  refine ⟨?_, fun t => hstop t (Or.inl (List.mem_finRange t)), htim, hfuse⟩
  rw [← hload, ← hnow]
  rfl

theorem State.masterWrite_restart (h : s.takes m A.IDG_RESTART = true) : s.masterWrite m A.IDG_RESTART v = s.tagged.restartWrite m.writer v := by
  refine State.masterWrite_act (b := A.IDG_RESTART) (idx := []) h (by decide +kernel) ?_ (by decide) fun r hr => ?_
  · unfold outsideWindows; decide
  · unfold State.actWrite
    simp +decide only [hr, if_true, if_false]

theorem HoldoffBegun.of_tagged (h : HoldoffBegun s.tagged a src) : HoldoffBegun s a src := by
  unfold HoldoffBegun at *
  rwa [State.tagged_load, State.tagged_now, State.tagged_tim, State.tagged_fuse] at h

theorem State.restartWrite_begins (hb : s.tim.booting = true) (hh : s.load.holdoff = none) (hkey : bitsGet v 16 16 = 0xA5C3)
    (hgo : bitsGet v 0 1 = 1) : HoldoffBegun s (s.restartWrite m.writer v) (if m = .svc then .svc else .fw) := by
  unfold State.restartWrite
  rw [if_pos ⟨hkey, hgo⟩]
  cases m <;> exact State.resetRequest_begins hb hh

end Requests

theorem resetLeaves : Part.ResetLeaves := by
  intro s t
  dsimp only
  refine ⟨fun hturn => ⟨_, exec_any rfl (State.act.eq_def ..) hturn, State.resetDevice_afterReset⟩,
    fun t0 src hh hlate hturn => ⟨_, exec_any rfl (State.act.eq_def ..) hturn, ?_⟩⟩
  generalize s.advance t = a at *
  rw [State.holdoffEnd, hh]
  dsimp only
  rw [if_pos hlate]
  exact State.resetDevice_afterReset

theorem resetRequests : Part.ResetRequests := by
  intro s t m v
  dsimp only
  intro hb hh
  refine ⟨fun hturn => ⟨_, exec_any rfl (State.act.eq_def ..) hturn, State.resetRequest_begins hb hh⟩,
    fun hturn => ⟨_, exec_any rfl (State.act.eq_def ..) hturn, State.resetRequest_begins hb hh⟩,
    fun htakes hkey hgo hturn => ⟨_, exec_any rfl (State.act.eq_def ..) hturn, ?_⟩⟩
  generalize s.advance t = a at *
  rw [State.masterWrite_restart htakes]
  exact (State.restartWrite_begins (by rw [State.tagged_tim]; exact hb) (by rw [State.tagged_load]; exact hh) hkey hgo).of_tagged

/-! ## The balls -/

theorem startUpBalls : Part.StartUpBalls := by
  intro s n g p o q b
  refine ⟨fun hu => ?_, fun hu => ⟨fun hlow => ?_, fun hphase => ?_, fun hfeeds => ?_, fun hck => ?_, fun hpms => ?_⟩⟩
  · have hdriven {α : Type} (x : α) : s.driven x = none := by rw [State.driven, hu, if_pos rfl]
    refine ⟨hdriven _, hdriven _, ?_, hdriven _, hdriven _, ?_, ?_, ?_, hdriven _, hdriven _, ?_⟩
    · rw [State.faultBall, hu, if_pos (Or.inl rfl)]
    · rw [State.fboBalls, hu]; rfl
    · rw [State.fbClkBall, hu]; rfl
    · rw [State.feedBall, hu, if_pos (Or.inl rfl)]
    · rw [State.pmsBalls, hu, if_pos (Or.inl rfl)]
  · obtain ⟨hh, hl, hm⟩ := hlow n
    rw [State.gateBalls, State.driven, hu, hh, hl, hm]
    rfl
  · have hnot : s.applied = false := by rw [State.applied, decide_eq_false (by omega), Bool.false_and]
    refine ⟨?_, ?_⟩
    · rw [State.fboBalls, hu, hnot]; rfl
    · rw [State.fbClkBall, hu, hnot]; rfl
  · simp [State.feedBall, hfeeds]
  · rw [State.ckBall, State.driven, hu, State.ckLevel, hck]; rfl
  · simp [State.pmsBalls, hpms]

/-- Settles O2: what a reset leaves, how one begins, and what the balls show before start-up is done. -/
theorem resets : Obligations.Resets := ⟨resetLeaves, resetRequests, startUpBalls⟩

end Sys2Proof.Machine
end

section
/-!
PROOFS. What the yoke's evaluation and the notes of an event leave: housekeeping, the flash port, the legs and the states of the
teams.
-/
namespace Sys2Proof.Machine

/-- The fields outside the serial ports and housekeeping that are not the state of a team. -/
def quietFld (f : Fld) : Prop := (f.addr < 0x100000 ∨ 0x120000 ≤ f.addr) ∧ ∀ t : Fin 24, Apart (F.TEAM_STAT_STATE t) f

theorem quietFld_low {f : Fld} (h : f.addr < 0x60000) : quietFld f :=
  ⟨Or.inl (by omega), fun t => Or.inl (by simp only [F.TEAM_STAT_STATE, A.TEAM_STAT]; omega)⟩

theorem quietFld_high {f : Fld} (h : 0x68000 ≤ f.addr) (h' : f.addr < 0x100000 ∨ 0x120000 ≤ f.addr) : quietFld f :=
  ⟨h', fun t => Or.inl (by simp only [F.TEAM_STAT_STATE, A.TEAM_STAT]; omega)⟩

/-- Housekeeping, the flash port, the legs and the states of the teams are as they were. -/
structure HouseKept (s u : State) : Prop where
  flds : FldsBut quietFld s u
  hk : u.hk = s.hk
  ser : u.ser = s.ser
  rec_ : u.shutRec = s.shutRec
  tim : u.tim.dev = s.tim.dev
  now : u.now = s.now
  legs : u.legs = s.legs

namespace HouseKept
variable {a s u x : State} {f : Fld}

theorem refl : HouseKept s s := ⟨FldsBut.refl, rfl, rfl, rfl, rfl, rfl, rfl⟩

theorem trans (h : HouseKept s u) (k : HouseKept u x) : HouseKept s x :=
  ⟨h.flds.trans k.flds, k.hk.trans h.hk, k.ser.trans h.ser, k.rec_.trans h.rec_, k.tim.trans h.tim, k.now.trans h.now, k.legs.trans h.legs⟩

theorem ite {c : Prop} [Decidable c] (h : HouseKept a s) (k : HouseKept a u) : HouseKept a (if c then s else u) := by
  split
  · exact h
  · exact k

theorem each {α : Type} {l : List α} {e : α → State → State} (h : HouseKept a s) (he : ∀ y s, HouseKept s (e y s)) :
    HouseKept a (each l e s) :=
  each_keeps (fun u => HouseKept a u) l e (fun y _ _ hu => hu.trans (he y _)) s h

theorem put (h : HouseKept a s) (v : Nat) (hf : quietFld f) (hb : f.lo + f.width ≤ 32) : HouseKept a (s.put f v) :=
  h.trans ⟨FldsBut.refl.put v hf hb, rfl, rfl, rfl, rfl, rfl, rfl⟩

theorem putB (h : HouseKept a s) (b : Bool) (hf : quietFld f) (hb : f.lo + f.width ≤ 32) : HouseKept a (s.putB f b) := h.put _ hf hb

theorem wr {b : Nat} (h : HouseKept a s) (w : Word) (hf : quietFld (wordOf b)) : HouseKept a (s.wr b w) :=
  h.trans ⟨FldsBut.refl.wr w hf, rfl, rfl, rfl, rfl, rfl, rfl⟩

theorem modNet (h : HouseKept a s) (g : NetSt → NetSt) : HouseKept a (s.modNet g) := h.trans ⟨fun _ _ => rfl, rfl, rfl, rfl, rfl, rfl, rfl⟩

theorem modServo (h : HouseKept a s) (g : ServoSt → ServoSt) : HouseKept a (s.modServo g) := h.modNet _

theorem modNPort (h : HouseKept a s) (p : Fin 3) (g : NetPort → NetPort) : HouseKept a (s.modNPort p g) := by
  unfold State.modNPort
  exact h.modNet _

theorem modYok (h : HouseKept a s) (g : YokSt → YokSt) : HouseKept a (s.modYok g) := h.trans ⟨fun _ _ => rfl, rfl, rfl, rfl, rfl, rfl, rfl⟩

theorem modOut (h : HouseKept a s) (m : Fin 2) (g : OutSt → OutSt) : HouseKept a (s.modOut m g) := h.trans ⟨fun _ _ => rfl, rfl, rfl, rfl, rfl, rfl, rfl⟩

theorem modTim (h : HouseKept a s) {g : TimSt → TimSt} (hg : ∀ t, (g t).dev = t.dev) : HouseKept a (s.modTim g) :=
  h.trans ⟨fun _ _ => rfl, rfl, rfl, rfl, hg _, rfl, rfl⟩

theorem defer (h : HouseKept a s) (t : Tick) (d : Deferred) : HouseKept a (s.defer t d) := h.trans ⟨fun _ _ => rfl, rfl, rfl, rfl, rfl, rfl, rfl⟩

theorem regsOnly {P : Nat → Prop} (h : HouseKept a s) (k : RegsOnly P s u) (hp : ∀ b, P b → quietFld (wordOf b)) : HouseKept a u := by
  refine h.trans ⟨fun g hg => ?_, by rw [k.rest], by rw [k.rest], by rw [k.rest], by rw [k.rest], by rw [k.rest], by rw [k.rest]⟩
  by_cases hm : P g.addr
  · rw [(hg _ (hp _ hm)).get_wordOf rfl, (hg _ (hp _ hm)).get_wordOf rfl]
  · exact k.get hm

theorem record (h : HouseKept a s) (code ctx : Nat) : HouseKept a (s.record code ctx) := by
  have hframe : ∃ regs jrn, s.record code ctx = { s with regs := regs, jrn := jrn } := State.record_frame ..
  refine h.trans ⟨FldsBut.refl.record code ctx fun b hb => quietFld_high ?_ ?_, ?_, ?_, ?_, ?_, ?_, ?_⟩
  · revert hb b; decide
  · revert hb b; decide
  all_goals obtain ⟨_, _, hf⟩ := hframe; rw [hf]

theorem tstate (h : HouseKept s u) (t : Fin 24) : u.tstate t = s.tstate t := h.flds.get fun _ hf => hf.2 t

theorem get (h : HouseKept s u) (h0 : 0x100000 ≤ f.addr) (h1 : f.addr < 0x120000) : u.get f = s.get f :=
  h.flds.get fun g hg => Or.inl fun e => by rcases hg.1 with h | h <;> omega

end HouseKept

/-! ## The servo and the outputs -/

section Yoke
variable {a s : State}

theorem HouseKept.setStage (h : HouseKept a s) (v : Nat) : HouseKept a (s.setStage v) := by
  unfold State.setStage
  exact h.put _ (quietFld_high (by decide) (by decide)) (by decide)

theorem HouseKept.setGm (h : HouseKept a s) (g : GmData) (b : Bool) : HouseKept a (s.setGm g b) := by
  unfold State.setGm
  dsimp only
  have hg := h.modServo (fun v => { v with gm := some g })
  refine hg.ite ?_
  have hports := ((hg.wr (b := A.NET_GMID0) (BitVec.ofNat 32 g.id) (quietFld_high (by decide) (by decide))).wr (b := A.NET_GMID1)
    (BitVec.ofNat 32 (g.id / 2 ^ 32)) (quietFld_high (by decide) (by decide))).each (l := allPorts) (e := fun p s =>
      s.modNPort p (fun x => { x with copy := none, two := [] })) fun _ _ => HouseKept.refl.modNPort ..
  exact (hports.record ..).ite hports

theorem HouseKept.holdover (h : HouseKept a s) (b : Bool) : HouseKept a (s.holdover b) := by
  rw [State.holdover_eq]
  refine (h.put _ (quietFld_low (by decide)) (by decide)).each fun t y => HouseKept.ite ?_ HouseKept.refl
  exact HouseKept.refl.putB b ⟨Or.inl (by simp only [F.TEAM_ALNSTAT_HOLDOVER, A.TEAM_ALNSTAT]; omega), fun t' => Or.inl (by
    simp only [F.TEAM_STAT_STATE, A.TEAM_STAT, F.TEAM_ALNSTAT_HOLDOVER, A.TEAM_ALNSTAT]; omega)⟩ (Nat.le_of_ble_eq_true rfl)

theorem HouseKept.netLock (h : HouseKept a s) : HouseKept a s.netLock := by
  unfold State.netLock
  exact h.ite (((h.putB _ (quietFld_low (by decide)) (by decide)).putB _ (quietFld_low (by decide)) (by decide)).modTim fun _ => rfl)

theorem HouseKept.becomeBw (h : HouseKept a s) : HouseKept a s.becomeBw := by
  unfold State.becomeBw
  have hnet (n : Nat) (f : Fld) (hf : quietFld f) (hb : f.lo + f.width ≤ 32) (y : State) (hy : HouseKept a y) : HouseKept a (y.put f n) := hy.put n hf hb
  exact h.ite ((((((h.setGm ..).setStage _).put _ (quietFld_high (by decide) (by decide)) (by decide)).put _
    (quietFld_high (by decide) (by decide)) (by decide)).holdover _).modServo _).netLock

theorem HouseKept.runBmca (h : HouseKept a s) : HouseKept a s.runBmca := by
  unfold State.runBmca
  dsimp only
  refine h.ite ?_
  have hf := h.modServo (fun v => { v with foreign := v.foreign.filter (fun e => decide (s.now < e.2 + s.annTimeout)) })
  generalize s.modServo _ = y at *
  split
  · refine hf.becomeBw.ite ?_
    exact ((hf.setGm ..).setStage _).ite ((((hf.setGm ..).setStage _).modServo _).ite (hf.setGm ..))
  · exact hf.becomeBw.ite (((hf.modServo _).setStage _).ite (hf.modServo _))

theorem HouseKept.ptpActive (h : HouseKept a s) : HouseKept a s.ptpActive := by
  unfold State.ptpActive
  dsimp only
  refine h.ite ?_
  have hl (g : ServoSt → ServoSt) : HouseKept a ((s.setStage stLISTEN).modServo g) := (h.setStage stLISTEN).modServo g
  exact HouseKept.ite (((hl _).ite (hl _).runBmca).setStage _) ((hl _).ite (hl _).runBmca)

theorem quietFld_out (m : Fin 2) (k lo w : Nat) (hk : k < 0x1000) : quietFld ⟨0x90000 + k + 0x1000 * m, lo, w⟩ :=
  quietFld_high (by dsimp only; omega) (Or.inl (by dsimp only; omega))

theorem HouseKept.outPins (h : HouseKept a s) (m : Fin 2) : HouseKept a (s.outPins m) := by
  unfold State.outPins
  dsimp only
  exact ((((h.modOut ..).putB _ (quietFld_out m 0x810 _ _ (by decide)) (Nat.le_of_ble_eq_true rfl)).putB _ (quietFld_out m 0x810 _ _ (by decide))
    (Nat.le_of_ble_eq_true rfl)).putB _ (quietFld_out m 0x810 _ _ (by decide)) (Nat.le_of_ble_eq_true rfl)).wr _ (quietFld_out m 0x814 _ _ (by decide))

theorem HouseKept.outRefresh (h : HouseKept a s) (m : Fin 2) : HouseKept a (s.outRefresh m) := by
  have hcatch {y : State} (hy : HouseKept a y) (b : Bool) : HouseKept a (y.putB (F.FBO_STAT_CATCH m) b) :=
    hy.putB b (quietFld_out m 0x810 _ _ (by decide)) (Nat.le_of_ble_eq_true rfl)
  unfold State.outRefresh
  dsimp only
  exact (h.outPins m).ite (((hcatch (h.modOut ..) _).outPins m).ite (((hcatch h _).modOut ..).outPins m))

/-! ## The roles -/

theorem quietFld_yok {f : Fld} (h : 0xF0000 ≤ f.addr) (h' : f.addr < 0x100000) : quietFld f := quietFld_high (by omega) (Or.inl h')

theorem HouseKept.setRole (h : HouseKept a s) (v : Nat) : HouseKept a (s.setRole v) := by
  unfold State.setRole
  dsimp only
  refine h.ite ?_
  have hr : HouseKept a ((s.put F.YOK_STAT_ROLE v).putB F.YOK_STAT_READY (v == roSHADOW)) :=
    (h.put _ (quietFld_yok (by decide) (by decide)) (by decide)).putB _ (quietFld_yok (by decide) (by decide)) (by decide)
  generalize (s.put F.YOK_STAT_ROLE v).putB F.YOK_STAT_READY (v == roSHADOW) = y at *
  have hp := hr.ptpActive.ite (c := v = roACTIVE) (HouseKept.ite (c := s.role = roACTIVE) (hr.setStage stSOFF) hr)
  exact ((hp.outRefresh 0).outRefresh 1).ite hp

theorem HouseKept.claimSeen (h : HouseKept a s) : HouseKept a s.claimSeen := by
  unfold State.claimSeen
  have hr := (h.setRole roSHADOW).ite (c := s.yok.lostAt = some s.now ∧ s.role = roSTANDBY) h
  exact HouseKept.ite ((hr.modYok _).defer ..) hr

theorem HouseKept.releaseAct (h : HouseKept a s) (cause role : Nat) : HouseKept a (s.releaseAct cause role) := by
  unfold State.releaseAct
  exact h.ite (((((h.putB _ (quietFld_yok (by decide) (by decide)) (by decide)).put _ (quietFld_yok (by decide) (by decide))
    (by decide)).record ..).modYok _).setRole _)

theorem HouseKept.yokCheck (h : HouseKept a s) : HouseKept a s.yokCheck := by
  unfold State.yokCheck
  dsimp only
  refine h.ite ?_
  have hv := (h.putB s.yokView (f := F.YOK_STAT_VIEW) (quietFld_yok (by decide) (by decide)) (by decide)).modYok
    (fun y => { y with view0 := if s.yokView then none else some (y.view0.getD (s.putB F.YOK_STAT_VIEW s.yokView).now) })
  generalize State.modYok _ _ = y at *
  have hrole := (hv.setRole roSYNC).ite (c := y.role = roSHADOW ∧ ((!s.yokView) = true ∨ (!y.yok.failed.isEmpty) = true))
    ((hv.setRole roSHADOW).claimSeen.ite (c := y.role = roSYNC ∧ s.yokView = true ∧ y.yok.failed.isEmpty = true
      ∧ (y.yokedTasks.all fun k => y.yok.adopted.contains k) = true) hv)
  exact HouseKept.ite (hrole.releaseAct ..) (HouseKept.ite (hrole.releaseAct ..) hrole)

theorem HouseKept.yokFault (h : HouseKept a s) : HouseKept a s.yokFault := by
  unfold State.yokFault
  exact (h.modYok _).yokCheck

/-! ## The note of an event -/

theorem HouseKept.tagSet (h : HouseKept a s) (n : Nat) : HouseKept a (s.tagSet n) := by
  obtain ⟨_, _, hf⟩ := s.tagSet_frame n
  have hregs : RegsBut [A.EVT_TAGHWM] s (s.tagSet n) := fun b hb => State.rd_tagSet_ne _ _ (fun e => hb (e ▸ List.mem_singleton_self _))
  refine h.trans ⟨FldsBut.of_regsBut hregs fun b hb => ?_, ?_, ?_, ?_, ?_, ?_, ?_⟩
  · exact quietFld_high (by revert hb b; decide) (by revert hb b; decide)
  all_goals rw [hf]

theorem HouseKept.stall (h : HouseKept a s) (x : Stall) : HouseKept a (s.stall x) := by
  unfold State.stall
  refine HouseKept.defer ?_ ..
  have hs : HouseKept a { s with stalled := s.stalled ++ [x] } := h.trans ⟨fun _ _ => rfl, rfl, rfl, rfl, rfl, rfl, rfl⟩
  have hb := hs.put (f := F.EVT_BPCNT_COUNT) (({ s with stalled := s.stalled ++ [x] } : State).get F.EVT_BPCNT_COUNT + 1)
    (quietFld_high (by decide) (by decide)) (by decide)
  exact hb.trans ⟨fun _ _ => rfl, rfl, rfl, rfl, rfl, rfl, rfl⟩

theorem HouseKept.notify (h : HouseKept a s) : HouseKept a s.notify := by
  unfold State.notify State.issueAs
  exact (h.tagSet _).ite (h.stall _)

end Yoke
end Sys2Proof.Machine
end

section
/-!
PROOFS. Chapter 16: the slots of the housekeeping round, and its evaluation.
-/
namespace Sys2Proof.Machine

/-- A command of the device, its handler's outcome named. -/
theorem exec_any_of {c : Instr} {s u : State} {t : Tick} {f : State → State} (h : tickOf c = some t)
    (hact : (s.advance t).act c = (s.advance t).any_ f) (hturn : (s.advance t).inTurn c = true) (hf : f (s.advance t) = u) :
    exec c s = .next (u.yokCheck.after (s.advance t) c) := by
  rw [exec_any h hact hturn, hf]

/-! ## Slots -/

section Slots
variable {s a : State} {ch : Fin 64} {code : Nat} {temp : Int} {flag out : Bool}

/-- A channel's result is shown. -/
def State.chShow (s : State) (ch : Fin 64) (code : Nat) : State := (s.put (F.HKP_CH_CODE ch) code).putB (F.HKP_CH_DONE ch) true

/-- The register of a channel alone has changed, and it shows the code. -/
structure ChShown (ch : Fin 64) (code : Nat) (s u : State) : Prop where
  code : u.get (F.HKP_CH_CODE ch) = code
  done : u.get (F.HKP_CH_DONE ch) = 1
  regs : RegsBut [A.HKP_CH ch] s u
  rest : u = { s with regs := u.regs }

theorem State.chShow_shown (hc : code < 4096) : ChShown ch code s (s.chShow ch code) := by
  have hcode : (s.put (F.HKP_CH_CODE ch) code).get (F.HKP_CH_CODE ch) = code % 2 ^ 12 := State.get_put_same _ _ (Nat.le_of_ble_eq_true rfl)
  rw [Nat.mod_eq_of_lt (show code < 2 ^ 12 from hc)] at hcode
  have hfirst : RegsOnly (· = A.HKP_CH ch) s (s.put (F.HKP_CH_CODE ch) code) := RegsOnly.put rfl
  unfold State.chShow
  generalize s.put (F.HKP_CH_CODE ch) code = x at *
  have hkeep : (x.putB (F.HKP_CH_DONE ch) true).get (F.HKP_CH_CODE ch) = x.get (F.HKP_CH_CODE ch) :=
    State.get_put_bits _ _ (Nat.le_of_ble_eq_true rfl) (Or.inl (Nat.le_of_ble_eq_true rfl))
  have hdone : (x.putB (F.HKP_CH_DONE ch) true).get (F.HKP_CH_DONE ch) = 1 := State.get_put_same _ _ (Nat.le_of_ble_eq_true rfl)
  have hlast : RegsOnly (· = A.HKP_CH ch) x (x.putB (F.HKP_CH_DONE ch) true) := RegsOnly.put rfl
  generalize x.putB (F.HKP_CH_DONE ch) true = y at *
  have hall := hfirst.trans hlast
  exact ⟨hkeep.trans hcode, hdone, fun b hb => hall.rd b fun e => hb (List.mem_singleton.mpr e), hall.rest⟩

theorem ChShown.hk {u : State} (h : ChShown ch code s u) : u.hk = s.hk := by rw [h.rest]

theorem ChShown.same {u : State} (h : ChShown ch code s u) : u = { s with regs := u.regs, same := u.same } := by rw [h.rest]

/-- A field of another word still shows what it did. -/
theorem ChShown.of_regsBut {u x : State} {l : List Nat} (h : ChShown ch code s u) (k : RegsBut l u x) (hl : A.HKP_CH ch ∉ l) :
    x.get (F.HKP_CH_CODE ch) = code ∧ x.get (F.HKP_CH_DONE ch) = 1 :=
  ⟨(k.get hl).trans h.code, (k.get hl).trans h.done⟩

theorem finOf_val {n v : Nat} (i : Fin n) (h : i.val = v) : finOf n v = some i := by
  subst h
  exact dif_pos i.isLt

theorem finOf_none {n v : Nat} (h : n ≤ v) : finOf n v = none := dif_neg (by omega)

/-- What a channel does with its result, once it is shown. -/
def State.slotActs (s : State) (ch : Fin 64) (code : Nat) (temp : Int) (flag out : Bool) : State :=
  match finOf 16 ch.val with
  | some i => s.modTs i (fun x => { x with reading := some temp, flagged := flag })
  | none =>
    if ch.val = 21 then s.feedVolt F.HKP_FEEDV_VA (code % 4096)
    else if ch.val = 22 then s.feedVolt F.HKP_FEEDV_VB (code % 4096)
    else match finOf 5 (ch.val - 16) with
      | some k =>
        if out && (match s.hk.vddAt[k] with
            | some t => decide (t + ticksPerSec ≤ s.now)
            | none => true) then
          (s.modHk (fun h => { h with vddAt := h.vddAt.set k (some s.now) })).record (fcode cSUPPLY 6) k.val
        else s
      | none => s

theorem State.hkSlot_due (hd : s.slotDue ch = true) :
    s.hkSlot ch code temp flag out = (s.chShow ch code).slotActs ch code temp flag out := by
  rw [State.hkSlot, hd]
  rfl

theorem State.slotActs_sensor {i : Fin 16} (hi : i.val = ch.val) :
    s.slotActs ch code temp flag out = s.modTs i (fun x => { x with reading := some temp, flagged := flag }) := by
  rw [State.slotActs, finOf_val i hi]

/-- A channel beyond the die sensors and the feeds. -/
theorem State.slotActs_plain (h16 : 16 ≤ ch.val) (ha : ch.val ≠ 21) (hb : ch.val ≠ 22) (h : 21 ≤ ch.val ∨ out = false) :
    s.slotActs ch code temp flag out = s := by
  rw [State.slotActs, finOf_none h16]
  dsimp only
  rw [if_neg ha, if_neg hb]
  rcases h with h | h
  · rw [finOf_none (by omega)]
  · rw [h]
    cases finOf 5 (ch.val - 16) <;> rfl

/-- A supply outside its band, for the first time. -/
theorem State.slotActs_supply {k : Fin 5} (hk : k.val + 16 = ch.val) (hn : s.hk.vddAt[k] = none) :
    s.slotActs ch code temp flag true
      = (s.modHk (fun h => { h with vddAt := h.vddAt.set k (some s.now) })).record (fcode cSUPPLY 6) k.val := by
  rw [State.slotActs, finOf_none (by omega)]
  dsimp only
  rw [if_neg (by omega), if_neg (by omega), finOf_val k (by omega)]
  dsimp only
  rw [hn]
  exact if_pos rfl

/-- The field of a feed's voltage. -/
def feedFld (b : Bool) : Fld := if b then F.HKP_FEEDV_VB else F.HKP_FEEDV_VA

/-- A feed's voltage. -/
theorem State.slotActs_feed {b : Bool} (hb : ch.val = if b then 22 else 21) (hc : code < 4096) :
    s.slotActs ch code temp flag out = s.feedVolt (feedFld b) code := by
  have h16 : 16 ≤ ch.val := by cases b <;> simp at hb <;> omega
  rw [State.slotActs, finOf_none h16, Nat.mod_eq_of_lt hc]
  dsimp only
  cases b with
  | false => exact if_pos hb
  | true =>
    have h22 : ch.val = 22 := hb
    rw [if_neg (by omega), if_pos h22]
    rfl

/-- A quotient rounded to one of its neighbours. -/
theorem State.roundFree_near (num : Int) (den : Nat) : ∃ d : Int, (s.roundFree num den).1 = num / den + d ∧ (d = 0 ∨ (d = 1 ∧ num % den ≠ 0))
    ∧ (s.roundFree num den).2.regs = s.regs := by
  unfold State.roundFree
  split
  case isTrue => exact ⟨0, by simp, Or.inl rfl, rfl⟩
  case isFalse h =>
    refine ⟨_, rfl, ?_, rfl⟩
    have hlt := Nat.mod_lt s.free.1.toNat (show 0 < 2 by decide)
    generalize s.free.1.toNat % 2 = r at *
    rcases (by omega : r = 0 ∨ r = 1) with rfl | rfl
    · exact Or.inl rfl
    · exact Or.inr ⟨rfl, h⟩

theorem State.getI_putI {f : Fld} {v : Int} (hb : f.lo + f.width ≤ 32) (h16 : f.width = 16) (hlo : -32768 ≤ v) (hhi : v < 32768) :
    (s.putI f v).getI f = v := by
  have hget : (s.putI f v).get f = ofSigned f.width v % 2 ^ f.width := State.get_put_same _ _ hb
  rw [State.getI, hget, h16]
  unfold toSigned ofSigned
  dsimp only
  split <;> omega

theorem State.feedVolt_shows {b : Bool} (hc : code < 4096) : ∃ d : Int, (d = 0 ∨ (d = 1 ∧ (125 * (code : Int) - 256000) % 64 ≠ 0))
    ∧ (s.feedVolt (feedFld b) code).getI (feedFld b) = (125 * (code : Int) - 256000) / 64 + d
    ∧ (s.feedVolt (feedFld b) code).get (feedFld !b) = s.get (feedFld !b) ∧ RegsBut [A.HKP_FEEDV] s (s.feedVolt (feedFld b) code) := by
  obtain ⟨d, hd, hnear, hregs⟩ := State.roundFree_near (s := s) (125 * (code : Int) - 256000) 64
  refine ⟨d, hnear, ?_⟩
  rw [State.feedVolt]
  generalize s.roundFree (125 * (code : Int) - 256000) 64 = p at *
  obtain ⟨v, y⟩ := p
  dsimp only at hd hregs ⊢
  subst hd
  have hd' : 0 ≤ d ∧ d ≤ 1 := by rcases hnear with h | ⟨h, -⟩ <;> omega
  have hfit : (feedFld b).lo + (feedFld b).width ≤ 32 := by cases b <;> decide
  refine ⟨State.getI_putI hfit (by cases b <;> rfl) (by push_cast; omega) (by push_cast; omega), ?_, ?_⟩
  · have hapart : (y.putI (feedFld b) ((125 * (code : Int) - 256000) / (64 : Nat) + d)).get (feedFld !b) = y.get (feedFld !b) :=
      State.get_put_bits _ _ hfit (by cases b <;> decide)
    rw [hapart]
    unfold State.get State.rd
    rw [hregs]
  · exact RegsBut.put (RegsBut.refl.of_regs hregs) _ (by cases b <;> decide)

theorem modTs_same (i : Fin 16) (f : TsSt → TsSt) : (s.modTs i f).hk.ts[i] = f s.hk.ts[i] := Vector.getElem_set_self ..

theorem regsBut_modTs {i : Fin 16} {f : TsSt → TsSt} : RegsBut [] s (s.modTs i f) := fun _ _ => rfl

theorem modTs_other {i j : Fin 16} (h : j ≠ i) (f : TsSt → TsSt) : (s.modTs i f).hk.ts[j] = s.hk.ts[j] :=
  Vector.getElem_set_ne i.isLt j.isLt (fun e => h (Fin.ext e.symm))

theorem chShow_apart (ch : Fin 64) : A.HKP_CH ch ∉ evtWords ∧ A.HKP_CH ch ∉ [A.HKP_FEEDV] := by revert ch; decide

theorem feedFld_apart : ∀ (ch : Fin 64) (b : Bool), (feedFld b).addr ∉ [A.HKP_CH ch] := by decide

end Slots

/-- The slots of the round. -/
theorem housekeepingSlots : Part.HousekeepingSlots := by
  intro s t ch code temp flag out
  dsimp only
  intro hd
  have hcode : code.toNat < 4096 := code.isLt
  have hshow := State.chShow_shown (s := s.advance t) (ch := ch) hcode
  have hacts := State.hkSlot_due (temp := temp) (flag := flag) (out := out) (code := code.toNat) hd
  refine ⟨fun i hi hturn => ⟨_, exec_any_of rfl (State.act.eq_def ..) hturn (hacts.trans (State.slotActs_sensor hi)), ?_⟩,
    fun k hk => ⟨fun hout hturn => ⟨_, exec_any_of rfl (State.act.eq_def ..) hturn
        (hacts.trans (State.slotActs_plain (by omega) (by omega) (by omega) (Or.inr hout))), ?_⟩,
      fun hout hn hturn => ?_⟩,
    fun b hb hturn => ?_,
    fun hch hturn => ⟨_, exec_any_of rfl (State.act.eq_def ..) hturn
      (hacts.trans (State.slotActs_plain (by omega) (by omega) (by omega) (Or.inl (by omega)))), ?_⟩⟩
  case refine_1 =>
    clear hacts
    generalize s.advance t = a at *
    generalize a.chShow ch code.toNat = x at *
    have hhk : x.hk = a.hk := hshow.hk
    have hregs : RegsBut [] x (x.modTs i (fun x => { x with reading := some temp, flagged := flag })) := regsBut_modTs
    have hsame := modTs_same (s := x) i (fun x => { x with reading := some temp, flagged := flag })
    have hother (j : Fin 16) (hj : j ≠ i) := modTs_other (s := x) hj (fun x => { x with reading := some temp, flagged := flag })
    generalize x.modTs i (fun x => { x with reading := some temp, flagged := flag }) = u at *
    exact ⟨hshow.of_regsBut hregs (List.not_mem_nil), by rw [hsame], by rw [hsame], fun j hj => by rw [hother j hj, hhk],
      hshow.regs.trans (hregs.mono (List.nil_subset _))⟩
  case refine_2 =>
    clear hacts
    generalize s.advance t = a at *
    generalize a.chShow ch code.toNat = x at *
    exact ⟨⟨hshow.code, hshow.done⟩, hshow.same, hshow.regs⟩
  case refine_3 =>
    have hx : ((s.advance t).chShow ch code.toNat).hk.vddAt[k] = none := by rw [hshow.hk]; exact hn
    subst hout
    refine ⟨_, exec_any_of rfl (State.act.eq_def ..) hturn (hacts.trans (State.slotActs_supply hk hx)), ?_⟩
    clear hacts
    generalize s.advance t = a at *
    generalize a.chShow ch code.toNat = x at *
    have hy : RegsBut [] x (x.modHk (fun h => { h with vddAt := h.vddAt.set k (some x.now) })) := regsBut_modHk.mpr RegsBut.refl
    generalize x.modHk (fun h => { h with vddAt := h.vddAt.set k (some x.now) }) = y at *
    have hrec : RegsBut evtWords y (y.record (fcode cSUPPLY 6) k.val) := (regsBut_record (fun _ h => h)).mpr RegsBut.refl
    have hnew : NewestFault (y.record (fcode cSUPPLY 6) k.val) (fcode cSUPPLY 6) k.val := State.newestFault_record
    generalize y.record (fcode cSUPPLY 6) k.val = z at *
    exact ⟨hshow.of_regsBut ((hy.mono (List.nil_subset _)).trans hrec) (chShow_apart ch).1, hnew,
      (hshow.regs.mono (by simp)).trans ((hy.mono (List.nil_subset _)).trans (hrec.mono (List.subset_cons_self ..)))⟩
  case refine_4 =>
    obtain ⟨d, hnear, hvolt, hother, hregs⟩ := State.feedVolt_shows (s := (s.advance t).chShow ch code.toNat) (b := b) hcode
    refine ⟨_, d, exec_any_of rfl (State.act.eq_def ..) hturn (hacts.trans (State.slotActs_feed hb hcode)), ?_⟩
    clear hacts
    generalize s.advance t = a at *
    generalize a.chShow ch code.toNat = x at *
    generalize x.feedVolt (feedFld b) code.toNat = y at *
    have hkept : y.get (feedFld !b) = a.get (feedFld !b) := hother.trans (hshow.regs.get (feedFld_apart ch _))
    refine ⟨hshow.of_regsBut hregs (chShow_apart ch).2, hnear, ?_, ?_, (hshow.regs.mono (by simp)).trans (hregs.mono (by simp))⟩
    · cases b <;> exact hvolt
    · cases b <;> exact hkept
  case refine_5 =>
    clear hacts
    generalize s.advance t = a at *
    generalize a.chShow ch code.toNat = x at *
    exact ⟨⟨hshow.code, hshow.done⟩, hshow.same, hshow.regs⟩

end Sys2Proof.Machine
end

section
/-!
PROOFS. Chapter 16: the evaluation of the housekeeping round.
-/
namespace Sys2Proof.Machine

/-- What one element of a list does, and the others leave alone. -/
theorem each_once {α : Type} {l : List α} {i : α} {e : α → State → State} {P Q : State → Prop} (hnd : l.Nodup) (hi : i ∈ l)
    (hP : ∀ j, j ≠ i → ∀ s, P s → P (e j s)) (hPQ : ∀ s, P s → Q (e i s)) (hQ : ∀ j, j ≠ i → ∀ s, Q s → Q (e j s)) (s : State) (h : P s) :
    Q (each l e s) := by
  induction l generalizing s with
  | nil => exact absurd hi List.not_mem_nil
  | cons x r ih =>
    have hr := List.nodup_cons.mp hnd
    by_cases hx : x = i
    · subst hx
      exact each_keeps Q r e (fun y hy z hz => hQ y (fun e => hr.1 (e ▸ hy)) z hz) _ (hPQ s h)
    · exact ih hr.2 ((List.mem_cons.mp hi).resolve_left fun e => hx e.symm) _ (hP x hx s h)

/-! ## The sensors -/

section Sensors
variable {a s u x : State} {i j : Fin 16} {r : Int} {n : Nat}

/-- The fault log alone of the registers differs, and the flash port and the retained record do not. -/
structure RoundKept (s u : State) : Prop where
  flds : FldsBut (fun f => f.addr ∈ evtWords) s u
  ser : u.ser = s.ser
  rec_ : u.shutRec = s.shutRec
  dev : u.tim.dev = s.tim.dev
  now : u.now = s.now

namespace RoundKept

theorem refl : RoundKept s s := ⟨FldsBut.refl, rfl, rfl, rfl, rfl⟩

theorem trans (h : RoundKept s u) (k : RoundKept u x) : RoundKept s x :=
  ⟨h.flds.trans k.flds, k.ser.trans h.ser, k.rec_.trans h.rec_, k.dev.trans h.dev, k.now.trans h.now⟩

theorem each {α : Type} {l : List α} {e : α → State → State} (he : ∀ y s, RoundKept s (e y s)) : RoundKept s (each l e s) :=
  each_keeps (fun u => RoundKept s u) l e (fun y _ _ hu => hu.trans (he y _)) s refl

theorem record (h : RoundKept a s) (code ctx : Nat) : RoundKept a (s.record code ctx) := by
  have hflds : FldsBut (fun f => f.addr ∈ evtWords) s (s.record code ctx) := FldsBut.refl.record code ctx fun _ hb => hb
  obtain ⟨_, _, hf⟩ := s.record_frame code ctx
  exact h.trans ⟨hflds, by rw [hf], by rw [hf], by rw [hf], by rw [hf]⟩

theorem modHk (h : RoundKept a s) (f : HkSt → HkSt) : RoundKept a (s.modHk f) := h.trans ⟨fun _ _ => rfl, rfl, rfl, rfl, rfl⟩

theorem modTs (h : RoundKept a s) (i : Fin 16) (f : TsSt → TsSt) : RoundKept a (s.modTs i f) := h.modHk _

theorem free (h : RoundKept a s) : RoundKept a s.free.2 := h.trans ⟨fun _ _ => rfl, rfl, rfl, rfl, rfl⟩

theorem get (h : RoundKept s u) {f : Fld} (hf : f.addr ∉ evtWords) : u.get f = s.get f :=
  h.flds.get fun _ hg => Or.inl fun e => hf (e ▸ hg)

end RoundKept

theorem State.record_hk (code ctx : Nat) : (s.record code ctx).hk = s.hk := by
  obtain ⟨_, _, hf⟩ := s.record_frame code ctx
  rw [hf]

/-- A reading that loses its sensor. -/
def TsSt.lose (x : TsSt) (t : Tick) (good : Int) : TsSt := { x with lost := true, tLost := t, recCnt := 0, lastGood := good }

/-- The reading of a sensor in its state. -/
def TsSt.good (x : TsSt) (jump : Nat) : Bool := x.plausible (x.reading.getD 0) jump

theorem State.tsRead_lost (h : (s.hk.ts[i]).lost = true) : s.tsRead i = s := by
  rw [State.tsRead]
  exact if_pos h

theorem State.tsRead_good (h : (s.hk.ts[i]).lost = false) (hg : (s.hk.ts[i]).good (s.get F.HKP_TSCFG_JUMP) = true) :
    s.tsRead i = s.modTs i (fun x => { x with prev := some ((s.hk.ts[i]).reading.getD 0), lastGood := (s.hk.ts[i]).reading.getD 0 }) := by
  rw [State.tsRead]
  dsimp only
  rw [h, if_neg (by decide)]
  exact if_pos hg

theorem State.tsRead_bad (h : (s.hk.ts[i]).lost = false) (hg : (s.hk.ts[i]).good (s.get F.HKP_TSCFG_JUMP) = false) :
    ∃ y good, RoundKept s y ∧ y.hk = s.hk ∧ s.tsRead i = (y.modTs i (fun x => x.lose y.now good)).record (fcode cTHERMAL 4) i.val := by
  have hbad : ¬ (s.hk.ts[i]).plausible ((s.hk.ts[i]).reading.getD 0) (s.get F.HKP_TSCFG_JUMP) = true := by
    rw [TsSt.good] at hg
    rw [hg]
    decide
  rw [State.tsRead]
  dsimp only
  rw [h, if_neg (by decide), if_neg hbad]
  cases (s.hk.ts[i]).prev with
  | some _ => exact ⟨s, _, RoundKept.refl, rfl, rfl⟩
  | none => exact ⟨s.free.2, _, RoundKept.refl.free, rfl, rfl⟩

/-- What a reading leaves. -/
theorem State.tsRead_kept : RoundKept s (s.tsRead i) ∧ ∀ j, j ≠ i → (s.tsRead i).hk.ts[j] = s.hk.ts[j] := by
  rcases hl : (s.hk.ts[i]).lost with _ | _
  · rcases hg : (s.hk.ts[i]).good (s.get F.HKP_TSCFG_JUMP) with _ | _
    · obtain ⟨y, good, hy, hhk, heq⟩ := State.tsRead_bad hl hg
      rw [heq]
      refine ⟨(hy.modTs ..).record .., fun j hj => ?_⟩
      rw [State.record_hk, modTs_other hj, hhk]
    · rw [State.tsRead_good hl hg]
      exact ⟨RoundKept.refl.modTs .., fun j hj => modTs_other hj _⟩
  · rw [State.tsRead_lost hl]
    exact ⟨RoundKept.refl, fun _ _ => rfl⟩

theorem State.tsLost_idle {vmax : Nat → Option Int} (h : (s.hk.ts[i]).lost = false) : s.tsLost vmax i = s := by
  rw [State.tsLost]
  exact if_pos (by rw [h]; rfl)

theorem State.roundFree_kept (num : Int) (den : Nat) : RoundKept s (s.roundFree num den).2 ∧ (s.roundFree num den).2.hk = s.hk := by
  unfold State.roundFree
  split
  · exact ⟨RoundKept.refl, rfl⟩
  · exact ⟨RoundKept.refl.free, rfl⟩

/-- A lost sensor that stays lost. -/
def TsSt.stay (x : TsSt) (prev : Option Int) (n : Nat) (sub : Int) : TsSt := { x with prev := prev, recCnt := n, sub := sub }

/-- A lost sensor that comes back. -/
def TsSt.recover (x : TsSt) (r : Int) (prev : Option Int) (sub : Int) : TsSt :=
  { x with lost := false, lastGood := r, prev := prev, recCnt := 0, sub := sub }

/-- A lost sensor recovers after its count of good rounds, or goes on with a substitute. -/
theorem State.tsLost_lost {vmax : Nat → Option Int} (h : (s.hk.ts[i]).lost = true) : ∃ y prev r sub n, RoundKept s y ∧ y.hk = s.hk
    ∧ ((s.hk.ts[i]).good (y.get F.HKP_TSCFG_JUMP) = false → n = 0)
    ∧ s.tsLost vmax i = if y.get F.HKP_TSCFG_RECN ≤ n then
        ((y.modTs i (fun x => x.recover r prev sub)).modHk (fun h => { h with tRecov := some y.now })).record (fcode cTHERMAL 5) i.val
      else y.modTs i (fun x => x.stay prev n sub) := by
  obtain ⟨hkept, hhk⟩ := State.roundFree_kept (s := s) ((s.get F.HKP_TSCFG_RATE * 16 * (s.now - (s.hk.ts[i]).tLost) : Nat) : Int) (10 * ticksPerSec)
  rw [State.tsLost]
  dsimp only
  rw [h, if_neg (by decide)]
  generalize s.roundFree ((s.get F.HKP_TSCFG_RATE * 16 * (s.now - (s.hk.ts[i]).tLost) : Nat) : Int) (10 * ticksPerSec) = p at *
  obtain ⟨g, y⟩ := p
  refine ⟨y, _, _, _, _, hkept, hhk, fun hg => ?_, rfl⟩
  rw [TsSt.good] at hg
  dsimp only
  rw [hg]
  rfl

/-- A lost sensor, as the round leaves it. -/
theorem State.tsLost_kept {vmax : Nat → Option Int} : RoundKept s (s.tsLost vmax i) ∧ (∀ j, j ≠ i → (s.tsLost vmax i).hk.ts[j] = s.hk.ts[j])
    ∧ ((s.hk.ts[i]).lost = true → (s.hk.ts[i]).good (s.get F.HKP_TSCFG_JUMP) = false → 0 < s.get F.HKP_TSCFG_RECN →
      ((s.tsLost vmax i).hk.ts[i]).lost = true) := by
  rcases hl : (s.hk.ts[i]).lost with _ | _
  · rw [State.tsLost_idle hl]
    exact ⟨RoundKept.refl, fun _ _ => rfl, fun h => absurd h (by decide)⟩
  · obtain ⟨y, prev, r, sub, n, hy, hhk, hn, heq⟩ := State.tsLost_lost (vmax := vmax) hl
    by_cases hrec : y.get F.HKP_TSCFG_RECN ≤ n
    · rw [if_pos hrec] at heq
      rw [heq]
      refine ⟨((hy.modTs ..).modHk _).record .., fun j hj => ?_, fun _ hg h0 => ?_⟩
      · rw [State.record_hk]
        have hts : (y.modTs i (fun x => x.recover r prev sub)).hk.ts[j] = s.hk.ts[j] := by rw [modTs_other hj, hhk]
        exact hts
      · rw [← hy.get (f := F.HKP_TSCFG_JUMP) (by decide)] at hg
        rw [hn hg, hy.get (by decide)] at hrec
        omega
    · rw [if_neg hrec] at heq
      rw [heq]
      refine ⟨hy.modTs .., fun j hj => by rw [modTs_other hj, hhk], fun _ _ _ => ?_⟩
      rw [modTs_same, hhk]
      exact hl

/-! ## The registers of the sensors -/

/-- The registers of one sensor. -/
def State.tsPut (s : State) (i : Fin 16) : State :=
  ((s.putB (F.HKP_TS_VALID i) (s.hk.ts[i]).valid).putB (F.HKP_TS_SUB i) (s.hk.ts[i]).lost).putI (F.HKP_TS_TEMP i) (s.hk.ts[i]).value

/-- The number of the sensor with the greatest value, the lowest of them. -/
def State.hottest (s : State) : Fin 16 :=
  allTs.foldl (fun (b : Fin 16) i => if (s.hk.ts[b]).value < (s.hk.ts[i]).value then i else b) 0

/-- HKP_TSSTAT, with the sensors that are lost. -/
def State.tsStat (s : State) (lost : List Nat) : State :=
  let s := s.put F.HKP_TSSTAT_LOST ((lost.map (fun i => 2 ^ i)).sum)
  let s := s.put F.HKP_TSSTAT_NVALID ((allTs.filter (fun i => (s.hk.ts[i]).valid)).length)
  s.put F.HKP_TSSTAT_REG2
    (((List.range 4).map (fun r => if 2 ≤ (lost.filter (fun i => i / 4 == r)).length then 2 ^ r else 0)).sum)

/-- HKP_TMAX. -/
def State.tsMaxOf (s : State) (best : Fin 16) : State :=
  let s := s.putB F.HKP_TMAX_SUBST (s.hk.ts[best]).lost
  (s.put F.HKP_TMAX_SENSOR best.val).putI F.HKP_TMAX_TEMP (s.hk.ts[best]).value

def State.tsMax (s : State) : State := s.tsMaxOf s.hottest

/-- The sensors that are lost. -/
def State.lostTs (s : State) : List Nat := (allTs.filter (fun i => (s.hk.ts[i]).lost)).map (fun i => i.val)

theorem State.tsShow_eq : s.tsShow = ((each allTs (fun i s => s.tsPut i) s).tsStat (each allTs (fun i s => s.tsPut i) s).lostTs).tsMax := rfl

/-- The words of the sensors. -/
def tsWord (b : Nat) : Prop := b = A.HKP_TSSTAT ∨ b = A.HKP_TMAX ∨ ∃ i : Fin 16, b = A.HKP_TS i

theorem State.tsPut_regs : RegsOnly tsWord s (s.tsPut i) := by
  have hput (y : State) (f : Fld) (n : Nat) (hf : f.addr = A.HKP_TS i) : RegsOnly tsWord y (y.put f n) :=
    RegsOnly.put (Or.inr (Or.inr ⟨i, hf⟩))
  exact ((hput _ _ _ rfl).trans (hput _ _ _ rfl)).trans (hput _ _ _ rfl)

theorem State.tsStat_regs (lost : List Nat) : RegsOnly (· = A.HKP_TSSTAT) s (s.tsStat lost) := by
  have hput (y : State) (f : Fld) (n : Nat) (hf : f.addr = A.HKP_TSSTAT) : RegsOnly (· = A.HKP_TSSTAT) y (y.put f n) := RegsOnly.put hf
  exact ((hput _ _ _ rfl).trans (hput _ _ _ rfl)).trans (hput _ _ _ rfl)

theorem State.tsMax_regs : RegsOnly (· = A.HKP_TMAX) s s.tsMax := by
  have hput (y : State) (f : Fld) (n : Nat) (hf : f.addr = A.HKP_TMAX) : RegsOnly (· = A.HKP_TMAX) y (y.put f n) := RegsOnly.put hf
  exact ((hput _ _ _ rfl).trans (hput _ _ _ rfl)).trans (hput _ _ _ rfl)

theorem State.tsPuts_regs : RegsOnly tsWord s (each allTs (fun i s => s.tsPut i) s) := RegsOnly.each fun _ _ => State.tsPut_regs

/-- The register of one sensor shows it. -/
structure TsShows (i : Fin 16) (x : TsSt) (u : State) : Prop where
  sub : u.get (F.HKP_TS_SUB i) = b2n x.lost
  valid : u.get (F.HKP_TS_VALID i) = b2n x.valid

theorem State.tsPut_shows : TsShows i (s.hk.ts[i]) (s.tsPut i) := by
  generalize hx : s.hk.ts[i] = x
  unfold State.tsPut
  rw [hx]
  have hmod (b : Bool) : b2n b % 2 ^ 1 = b2n b := by cases b <;> rfl
  constructor
  · have h1 (y : State) (v : Int) : (y.putI (F.HKP_TS_TEMP i) v).get (F.HKP_TS_SUB i) = y.get (F.HKP_TS_SUB i) :=
      State.get_put_bits _ _ (Nat.le_of_ble_eq_true rfl) (Or.inr (Nat.le_of_ble_eq_true rfl))
    have h2 (y : State) (b : Bool) : (y.putB (F.HKP_TS_SUB i) b).get (F.HKP_TS_SUB i) = b2n b % 2 ^ 1 :=
      State.get_put_same _ _ (Nat.le_of_ble_eq_true rfl)
    rw [h1, h2, hmod]
  · have h1 (y : State) (v : Int) : (y.putI (F.HKP_TS_TEMP i) v).get (F.HKP_TS_VALID i) = y.get (F.HKP_TS_VALID i) :=
      State.get_put_bits _ _ (Nat.le_of_ble_eq_true rfl) (Or.inr (Nat.le_of_ble_eq_true rfl))
    have h2 (y : State) (b : Bool) : (y.putB (F.HKP_TS_SUB i) b).get (F.HKP_TS_VALID i) = y.get (F.HKP_TS_VALID i) :=
      State.get_put_bits _ _ (Nat.le_of_ble_eq_true rfl) (Or.inr (Nat.le_of_ble_eq_true rfl))
    have h3 (y : State) (b : Bool) : (y.putB (F.HKP_TS_VALID i) b).get (F.HKP_TS_VALID i) = b2n b % 2 ^ 1 :=
      State.get_put_same _ _ (Nat.le_of_ble_eq_true rfl)
    rw [h1, h2, h3, hmod]

/-- What leaves the register of a sensor alone. -/
theorem TsShows.of_get {x : TsSt} (h : TsShows i x s) (k : ∀ f : Fld, f.addr = A.HKP_TS i → u.get f = s.get f) : TsShows i x u :=
  ⟨(k _ rfl).trans h.sub, (k _ rfl).trans h.valid⟩

theorem State.tsPut_other {f : Fld} (hj : j ≠ i) (hf : f.addr = A.HKP_TS i) : (s.tsPut j).get f = s.get f := by
  have hne : A.HKP_TS i ≠ A.HKP_TS j := by
    have : j.val ≠ i.val := fun e => hj (Fin.ext e)
    simp only [A.HKP_TS]
    omega
  have hput (y : State) (g : Fld) (n : Nat) (hg : g.addr = A.HKP_TS j) : (y.put g n).get f = y.get f :=
    State.get_put_word _ _ (by rw [hf, hg]; exact hne)
  exact ((hput _ _ _ rfl).trans (hput _ _ _ rfl)).trans (hput _ _ _ rfl)

theorem RegsOnly.hk {P : Nat → Prop} (h : RegsOnly P s u) : u.hk = s.hk := by rw [h.rest]

theorem State.tsPut_hk : (s.tsPut i).hk = s.hk := State.tsPut_regs.hk

/-- The sensor's register shows it, and its state stands. -/
def TsDone (i : Fin 16) (h : HkSt) (u : State) : Prop := u.hk = h ∧ TsShows i (h.ts[i]) u

theorem State.tsPut_done (h : s.hk = a.hk) : TsDone i a.hk (s.tsPut i) := by
  refine ⟨State.tsPut_hk.trans h, ?_⟩
  rw [← h]
  exact State.tsPut_shows

theorem TsDone.tsPut {h : HkSt} (hd : TsDone i h s) (hj : j ≠ i) : TsDone i h (s.tsPut j) :=
  ⟨State.tsPut_hk.trans hd.1, hd.2.of_get fun _ hf => State.tsPut_other hj hf⟩

theorem State.tsPuts_shows : TsShows i (s.hk.ts[i]) (each allTs (fun i s => s.tsPut i) s) := by
  have hkeep (j : Fin 16) (y : State) (h : y.hk = s.hk) : (y.tsPut j).hk = s.hk := State.tsPut_hk.trans h
  have hdone (y : State) (h : y.hk = s.hk) : TsDone i s.hk (y.tsPut i) := State.tsPut_done h
  have hstay (j : Fin 16) (hj : j ≠ i) (y : State) (h : TsDone i s.hk y) : TsDone i s.hk (y.tsPut j) := h.tsPut hj
  have hnd : allTs.Nodup := List.nodup_finRange 16
  exact (each_once (e := fun i s => s.tsPut i) (P := fun y => y.hk = s.hk) (Q := TsDone i s.hk) hnd (List.mem_finRange i)
    (fun j _ => hkeep j) hdone hstay s rfl).2

theorem tsWord_sums (i : Fin 16) : A.HKP_TS i ≠ A.HKP_TSSTAT ∧ A.HKP_TS i ≠ A.HKP_TMAX := by revert i; decide

theorem State.tsShow_regs : RegsOnly tsWord s s.tsShow := by
  rw [State.tsShow_eq]
  exact (State.tsPuts_regs.trans ((State.tsStat_regs _).mono fun _ h => Or.inl h)).trans (State.tsMax_regs.mono fun _ h => Or.inr (Or.inl h))

theorem State.tsShow_shows : TsShows i (s.hk.ts[i]) s.tsShow := by
  rw [State.tsShow_eq]
  refine (State.tsPuts_shows.of_get fun f hf => ?_).of_get fun f hf => State.tsMax_regs.get (by rw [hf]; exact (tsWord_sums i).2)
  exact (State.tsStat_regs _).get (by rw [hf]; exact (tsWord_sums i).1)

/-- What HKP_TSSTAT shows when no sensor is lost and all are valid. -/
theorem State.tsStat_gets (hv : ∀ i : Fin 16, (s.hk.ts[i]).valid = true) : (s.tsStat []).get F.HKP_TSSTAT_NVALID = 16
    ∧ (s.tsStat []).get F.HKP_TSSTAT_LOST = 0 ∧ (s.tsStat []).get F.HKP_TSSTAT_REG2 = 0 := by
  have h1 : RegsOnly (· = A.HKP_TSSTAT) s (s.put F.HKP_TSSTAT_LOST 0) := RegsOnly.put rfl
  have hlost : (s.put F.HKP_TSSTAT_LOST 0).get F.HKP_TSSTAT_LOST = 0 := State.get_put_same _ _ (by decide)
  have heq : s.tsStat [] = ((s.put F.HKP_TSSTAT_LOST 0).put F.HKP_TSSTAT_NVALID
      ((allTs.filter (fun i => ((s.put F.HKP_TSSTAT_LOST 0).hk.ts[i]).valid)).length)).put F.HKP_TSSTAT_REG2 0 := rfl
  have hall : allTs.filter (fun i => ((s.put F.HKP_TSSTAT_LOST 0).hk.ts[i]).valid) = allTs :=
    List.filter_eq_self.mpr fun i _ => by rw [h1.hk]; exact hv i
  rw [heq, hall]
  generalize s.put F.HKP_TSSTAT_LOST 0 = x at *
  have hn : (x.put F.HKP_TSSTAT_NVALID allTs.length).get F.HKP_TSSTAT_NVALID = 16 := State.get_put_same _ _ (by decide)
  have hl : (x.put F.HKP_TSSTAT_NVALID allTs.length).get F.HKP_TSSTAT_LOST = x.get F.HKP_TSSTAT_LOST := State.get_put_bits _ _ (by decide) (by decide)
  generalize x.put F.HKP_TSSTAT_NVALID allTs.length = y at *
  refine ⟨(State.get_put_bits _ _ (by decide) (by decide)).trans hn, ((State.get_put_bits _ _ (by decide) (by decide)).trans hl).trans hlost,
    State.get_put_same _ _ (by decide)⟩

/-- What HKP_TMAX shows. -/
theorem State.tsMaxOf_gets {best : Fin 16} (hlo : -32768 ≤ (s.hk.ts[best]).value) (hhi : (s.hk.ts[best]).value < 32768) :
    (s.tsMaxOf best).getI F.HKP_TMAX_TEMP = (s.hk.ts[best]).value ∧ (s.tsMaxOf best).get F.HKP_TMAX_SENSOR = best.val := by
  unfold State.tsMaxOf
  dsimp only
  have h1 : RegsOnly (· = A.HKP_TMAX) s (s.putB F.HKP_TMAX_SUBST (s.hk.ts[best]).lost) := RegsOnly.put rfl
  have hval : ((s.putB F.HKP_TMAX_SUBST (s.hk.ts[best]).lost).hk.ts[best]).value = (s.hk.ts[best]).value := by rw [h1.hk]
  rw [hval]
  generalize s.putB F.HKP_TMAX_SUBST (s.hk.ts[best]).lost = x at *
  have hs : (x.put F.HKP_TMAX_SENSOR best.val).get F.HKP_TMAX_SENSOR = best.val % 2 ^ 4 := State.get_put_same _ _ (by decide)
  rw [Nat.mod_eq_of_lt (show best.val < 2 ^ 4 from best.isLt)] at hs
  generalize x.put F.HKP_TMAX_SENSOR best.val = y at *
  exact ⟨State.getI_putI (by decide) rfl hlo hhi, (State.get_put_bits _ _ (by decide) (by decide)).trans hs⟩

/-- The greatest value is the named sensor's. -/
theorem foldl_hottest (v : Fin 16 → Int) (l : List (Fin 16)) (b : Fin 16) :
    v b ≤ v (l.foldl (fun b i => if v b < v i then i else b) b) ∧ ∀ j ∈ l, v j ≤ v (l.foldl (fun b i => if v b < v i then i else b) b) := by
  induction l generalizing b with
  | nil => exact ⟨le_refl _, fun _ h => absurd h List.not_mem_nil⟩
  | cons x r ih =>
    obtain ⟨hb, hr⟩ := ih (if v b < v x then x else b)
    have hstep : v b ≤ v (if v b < v x then x else b) ∧ v x ≤ v (if v b < v x then x else b) := by
      split <;> constructor <;> omega
    refine ⟨hstep.1.trans hb, fun j hj => ?_⟩
    rcases List.mem_cons.mp hj with rfl | hj
    · exact hstep.2.trans hb
    · exact hr j hj

theorem State.value_le_hottest (j : Fin 16) : (s.hk.ts[j]).value ≤ (s.hk.ts[s.hottest]).value :=
  (foldl_hottest (fun i => (s.hk.ts[i]).value) allTs 0).2 j (List.mem_finRange j)

end Sensors

/-! ## Warning and throttle level -/

section Levels
variable {a s u x : State} {t : Int} {k : Fin 3}

/-- HKP_THSTAT and the fault log alone of the registers differ, and the sensors and the shut-down stand. -/
structure LevelKept (s u : State) : Prop where
  flds : FldsBut (fun f => f.addr = A.HKP_THSTAT ∨ f.addr ∈ evtWords) s u
  ts : u.hk.ts = s.hk.ts
  shut : u.hk.shut = s.hk.shut
  recov : u.hk.tRecov = s.hk.tRecov
  ser : u.ser = s.ser
  rec_ : u.shutRec = s.shutRec
  dev : u.tim.dev = s.tim.dev
  now : u.now = s.now

namespace LevelKept

theorem refl : LevelKept s s := ⟨FldsBut.refl, rfl, rfl, rfl, rfl, rfl, rfl, rfl⟩

theorem trans (h : LevelKept s u) (k : LevelKept u x) : LevelKept s x :=
  ⟨h.flds.trans k.flds, k.ts.trans h.ts, k.shut.trans h.shut, k.recov.trans h.recov, k.ser.trans h.ser, k.rec_.trans h.rec_,
    k.dev.trans h.dev, k.now.trans h.now⟩

theorem each {α : Type} {l : List α} {e : α → State → State} (he : ∀ y s, LevelKept s (e y s)) : LevelKept s (each l e s) :=
  each_keeps (fun u => LevelKept s u) l e (fun y _ _ hu => hu.trans (he y _)) s refl

theorem put {f : Fld} (h : LevelKept a s) (n : Nat) (hf : f.addr = A.HKP_THSTAT) (hb : f.lo + f.width ≤ 32) : LevelKept a (s.put f n) :=
  h.trans ⟨FldsBut.refl.put n (Or.inl hf) hb, rfl, rfl, rfl, rfl, rfl, rfl, rfl⟩

theorem record (h : LevelKept a s) (code ctx : Nat) : LevelKept a (s.record code ctx) := by
  have hflds : FldsBut (fun f => f.addr = A.HKP_THSTAT ∨ f.addr ∈ evtWords) s (s.record code ctx) :=
    FldsBut.refl.record code ctx fun _ hb => Or.inr hb
  have hhk := State.record_hk (s := s) code ctx
  have hr := RoundKept.refl.record (s := s) code ctx
  exact h.trans ⟨hflds, by rw [hhk], by rw [hhk], by rw [hhk], hr.ser, hr.rec_, hr.dev, hr.now⟩

theorem get {f : Fld} (h : LevelKept s u) (hf : f.addr ≠ A.HKP_THSTAT) (he : f.addr ∉ evtWords) : u.get f = s.get f :=
  h.flds.get fun _ hg => Or.inl fun e => by
    rcases hg with hg | hg
    · exact hf (e ▸ hg)
    · exact he (e ▸ hg)

end LevelKept

theorem State.thWarn_kept : LevelKept s (s.thWarn t) := by
  have hput (b : Bool) : LevelKept s (s.putB F.HKP_THSTAT_WARN b) := LevelKept.refl.put _ rfl (by decide)
  unfold State.thWarn
  dsimp only
  split
  · split
    · exact LevelKept.refl
    · exact (hput true).record ..
  · split
    · exact hput false
    · exact LevelKept.refl

theorem State.thWarn_warns (h : s.getI F.HKP_THWARN_TEMP ≤ t) : (s.thWarn t).get F.HKP_THSTAT_WARN = 1 := by
  unfold State.thWarn
  dsimp only
  rw [if_pos h]
  split
  case isTrue hb =>
    have hne := (State.bit_iff F.HKP_THSTAT_WARN).mp hb
    have hlt : s.get F.HKP_THSTAT_WARN < 2 := Nat.mod_lt _ (by decide)
    omega
  case isFalse =>
    have hput : (s.putB F.HKP_THSTAT_WARN true).get F.HKP_THSTAT_WARN = 1 := State.get_put_same _ _ (by decide)
    generalize s.putB F.HKP_THSTAT_WARN true = y at *
    rw [State.get_record (by decide), hput]

/-- The temperature at which a level is wanted. -/
def State.thOn (s : State) (k : Fin 3) : Int := s.getI F.HKP_THTHR_TEMP + k.val * s.get F.HKP_THCFG_STEP

/-- Whether a level is wanted. -/
def State.thWant (s : State) (t : Int) (k : Fin 3) : State :=
  if s.thOn k ≤ t then s.modHk (fun h => { h with want := h.want.set k true })
  else if t < s.thOn k - s.get F.HKP_THCFG_HYS then s.modHk (fun h => { h with want := h.want.set k false })
  else s

/-- The level that is wanted. -/
def State.thNext (s : State) : Nat :=
  if s.get F.HKP_TSSTAT_REG2 ≠ 0 then 3
  else if s.hk.want[2] then 3 else if s.hk.want[1] then 2 else if s.hk.want[0] then 1 else 0

/-- Whether a lower level is barred. -/
def State.thBar (s : State) : Bool :=
  s.get F.HKP_TSSTAT_LOST != 0 || (match s.hk.tRecov with
    | some r => decide (s.now < r + 10 * ticksPerSec)
    | none => false)

/-- The level that the device takes. -/
def State.thTakes (s : State) : Nat :=
  if s.thNext < s.get F.HKP_THSTAT_LEVEL ∧ s.thBar then s.get F.HKP_THSTAT_LEVEL else s.thNext

/-- The level is taken and shown. -/
def State.thSet (s : State) (bar : Bool) (new level : Nat) : State :=
  let s := (s.putB F.HKP_THSTAT_HOLD bar).putB F.HKP_THSTAT_DREQ (new == 3)
  if new = level then s else (s.put F.HKP_THSTAT_LEVEL new).record (fcode cTHERMAL 2) new

theorem State.thLevel_eq : s.thLevel t = (each (List.finRange 3) (fun k s => s.thWant t k) s).thSet
    (each (List.finRange 3) (fun k s => s.thWant t k) s).thBar (each (List.finRange 3) (fun k s => s.thWant t k) s).thTakes
    ((each (List.finRange 3) (fun k s => s.thWant t k) s).get F.HKP_THSTAT_LEVEL) := rfl

theorem State.thWant_kept : LevelKept s (s.thWant t k) ∧ (s.thWant t k).regs = s.regs := by
  have hmod (b : Bool) : LevelKept s (s.modHk (fun h => { h with want := h.want.set k b })) := ⟨fun _ _ => rfl, rfl, rfl, rfl, rfl, rfl, rfl, rfl⟩
  unfold State.thWant
  split
  · exact ⟨hmod true, rfl⟩
  · split
    · exact ⟨hmod false, rfl⟩
    · exact ⟨LevelKept.refl, rfl⟩

theorem State.thWant_other {j : Fin 3} (h : j ≠ k) : (s.thWant t k).hk.want[j] = s.hk.want[j] := by
  have hmod (b : Bool) : (s.modHk (fun h => { h with want := h.want.set k b })).hk.want[j] = s.hk.want[j] :=
    Vector.getElem_set_ne k.isLt j.isLt (fun e => h (Fin.ext e.symm))
  unfold State.thWant
  split
  · exact hmod true
  · split
    · exact hmod false
    · rfl

theorem State.thWant_same : (s.thOn k ≤ t → (s.thWant t k).hk.want[k] = true)
    ∧ (t < s.thOn k - s.get F.HKP_THCFG_HYS → (s.thWant t k).hk.want[k] = false) := by
  have hmod (b : Bool) : (s.modHk (fun h => { h with want := h.want.set k b })).hk.want[k] = b := Vector.getElem_set_self ..
  unfold State.thWant
  refine ⟨fun h => ?_, fun h => ?_⟩
  · rw [if_pos h]
    exact hmod true
  · rw [if_neg (by omega), if_pos h]
    exact hmod false

/-- Whether each level is wanted, once the three have been looked at. -/
structure ThWanted (t : Int) (s u : State) (k : Fin 3) : Prop where
  regs : u.regs = s.regs
  on : s.thOn k ≤ t → u.hk.want[k] = true
  off : t < s.thOn k - s.get F.HKP_THCFG_HYS → u.hk.want[k] = false

theorem State.thOn_regs (h : u.regs = s.regs) : u.thOn k = s.thOn k ∧ u.get F.HKP_THCFG_HYS = s.get F.HKP_THCFG_HYS := by
  have hget (f : Fld) : u.get f = s.get f := by unfold State.get State.rd; rw [h]
  unfold State.thOn State.getI
  rw [hget, hget, hget]
  exact ⟨rfl, rfl⟩

theorem State.thWants_wanted : ThWanted t s (each (List.finRange 3) (fun k s => s.thWant t k) s) k := by
  have hkeep (j : Fin 3) (y : State) (h : y.regs = s.regs) : (y.thWant t j).regs = s.regs := State.thWant_kept.2.trans h
  have hdone (y : State) (h : y.regs = s.regs) : ThWanted t s (y.thWant t k) k := by
    obtain ⟨hon, hhys⟩ := State.thOn_regs (k := k) h
    obtain ⟨hset, hclear⟩ := State.thWant_same (s := y) (t := t) (k := k)
    rw [hon] at hset hclear
    rw [hhys] at hclear
    exact ⟨hkeep k y h, hset, hclear⟩
  have hstay (j : Fin 3) (hj : j ≠ k) (y : State) (h : ThWanted t s y k) : ThWanted t s (y.thWant t j) k := by
    have hother := State.thWant_other (s := y) (t := t) (j := k) (k := j) (fun e => hj e.symm)
    exact ⟨hkeep j y h.regs, fun ho => hother.trans (h.on ho), fun ho => hother.trans (h.off ho)⟩
  exact each_once (e := fun k s => s.thWant t k) (P := fun y => y.regs = s.regs) (List.nodup_finRange 3) (List.mem_finRange k)
    (fun j _ => hkeep j) hdone hstay s rfl

theorem State.thWants_kept : LevelKept s (each (List.finRange 3) (fun k s => s.thWant t k) s) := LevelKept.each fun _ _ => State.thWant_kept.1

theorem State.thSet_shows {bar : Bool} {new : Nat} (hn : new < 4) :
    LevelKept s (s.thSet bar new (s.get F.HKP_THSTAT_LEVEL)) ∧ (s.thSet bar new (s.get F.HKP_THSTAT_LEVEL)).get F.HKP_THSTAT_LEVEL = new
    ∧ (s.thSet bar new (s.get F.HKP_THSTAT_LEVEL)).get F.HKP_THSTAT_WARN = s.get F.HKP_THSTAT_WARN := by
  have h1 : LevelKept s (s.putB F.HKP_THSTAT_HOLD bar) := LevelKept.refl.put _ rfl (by decide)
  have hl1 : (s.putB F.HKP_THSTAT_HOLD bar).get F.HKP_THSTAT_LEVEL = s.get F.HKP_THSTAT_LEVEL := State.get_put_bits _ _ (by decide) (by decide)
  have hw1 : (s.putB F.HKP_THSTAT_HOLD bar).get F.HKP_THSTAT_WARN = s.get F.HKP_THSTAT_WARN := State.get_put_bits _ _ (by decide) (by decide)
  unfold State.thSet
  dsimp only
  generalize s.putB F.HKP_THSTAT_HOLD bar = x at *
  have h2 : LevelKept x (x.putB F.HKP_THSTAT_DREQ (new == 3)) := LevelKept.refl.put _ rfl (by decide)
  have hl2 : (x.putB F.HKP_THSTAT_DREQ (new == 3)).get F.HKP_THSTAT_LEVEL = x.get F.HKP_THSTAT_LEVEL := State.get_put_bits _ _ (by decide) (by decide)
  have hw2 : (x.putB F.HKP_THSTAT_DREQ (new == 3)).get F.HKP_THSTAT_WARN = x.get F.HKP_THSTAT_WARN := State.get_put_bits _ _ (by decide) (by decide)
  generalize x.putB F.HKP_THSTAT_DREQ (new == 3) = y at *
  split
  case isTrue he => exact ⟨h1.trans h2, (hl2.trans hl1).trans he.symm, hw2.trans hw1⟩
  case isFalse =>
    have h3 : LevelKept y (y.put F.HKP_THSTAT_LEVEL new) := LevelKept.refl.put _ rfl (by decide)
    have hl3 : (y.put F.HKP_THSTAT_LEVEL new).get F.HKP_THSTAT_LEVEL = new % 2 ^ 2 := State.get_put_same _ _ (by decide)
    have hw3 : (y.put F.HKP_THSTAT_LEVEL new).get F.HKP_THSTAT_WARN = y.get F.HKP_THSTAT_WARN := State.get_put_bits _ _ (by decide) (by decide)
    generalize y.put F.HKP_THSTAT_LEVEL new = z at *
    have hget {f : Fld} (hf : f.addr ∉ evtWords) : (z.record (fcode cTHERMAL 2) new).get f = z.get f := State.get_record hf
    exact ⟨((h1.trans h2).trans h3).record .., (hget (by decide)).trans (hl3.trans (Nat.mod_eq_of_lt (show new < 2 ^ 2 from hn))),
      (hget (by decide)).trans (hw3.trans (hw2.trans hw1))⟩

theorem State.thNext_lt : s.thNext < 4 := by
  unfold State.thNext
  split
  · decide
  · split
    · decide
    · split
      · decide
      · split <;> decide

theorem State.thTakes_lt : s.thTakes < 4 := by
  unfold State.thTakes
  split
  · exact Nat.mod_lt _ (by decide)
  · exact State.thNext_lt

theorem State.thLevel_shows : LevelKept s (s.thLevel t) ∧ (s.thLevel t).get F.HKP_THSTAT_WARN = s.get F.HKP_THSTAT_WARN
    ∧ (s.thLevel t).get F.HKP_THSTAT_LEVEL = (each (List.finRange 3) (fun k s => s.thWant t k) s).thTakes := by
  have hkept := State.thWants_kept (s := s) (t := t)
  have hregs := (State.thWants_wanted (s := s) (t := t) (k := 0)).regs
  rw [State.thLevel_eq]
  generalize each (List.finRange 3) (fun k s => s.thWant t k) s = y at *
  obtain ⟨h1, hlevel, hwarn⟩ := State.thSet_shows (s := y) (bar := y.thBar) y.thTakes_lt
  refine ⟨hkept.trans h1, hwarn.trans ?_, hlevel⟩
  unfold State.get State.rd
  rw [hregs]

/-- At the highest of the three temperatures the third level is taken. -/
theorem State.thLevel_three (h : s.thOn 2 ≤ t) : (s.thLevel t).get F.HKP_THSTAT_LEVEL = 3 := by
  have hwant := (State.thWants_wanted (s := s) (t := t) (k := 2)).on h
  rw [State.thLevel_shows.2.2]
  generalize each (List.finRange 3) (fun k s => s.thWant t k) s = y at *
  have hnext : y.thNext = 3 := by
    unfold State.thNext
    rw [if_pos (show y.hk.want[2] = true from hwant), ite_self]
  have hlt : y.get F.HKP_THSTAT_LEVEL < 4 := Nat.mod_lt _ (by decide)
  rw [State.thTakes, hnext, if_neg (by omega)]

/-- Below the lowest of them, with all sensors good, there is no level. -/
theorem State.thLevel_zero (h : t < s.thOn 0 - s.get F.HKP_THCFG_HYS) (hl : s.get F.HKP_TSSTAT_LOST = 0) (h2 : s.get F.HKP_TSSTAT_REG2 = 0)
    (hr : s.hk.tRecov = none) : (s.thLevel t).get F.HKP_THSTAT_LEVEL = 0 := by
  have hoff (k : Fin 3) : (each (List.finRange 3) (fun k s => s.thWant t k) s).hk.want[k] = false := by
    refine (State.thWants_wanted (s := s) (t := t) (k := k)).off (lt_of_lt_of_le h ?_)
    have hstep : (0 : Int) ≤ k.val * (s.get F.HKP_THCFG_STEP : Int) := by positivity
    unfold State.thOn
    have h0 : (((0 : Fin 3) : Nat) : Int) * (s.get F.HKP_THCFG_STEP : Int) = 0 := by simp
    rw [h0]
    omega
  have hkept := State.thWants_kept (s := s) (t := t)
  rw [State.thLevel_shows.2.2]
  generalize each (List.finRange 3) (fun k s => s.thWant t k) s = y at *
  have hbar : y.thBar = false := by
    rw [State.thBar, hkept.get (by decide) (by decide), hl, hkept.recov, hr]
    rfl
  have hnext : y.thNext = 0 := by
    have w0 : y.hk.want[0] = false := hoff 0
    have w1 : y.hk.want[1] = false := hoff 1
    have w2 : y.hk.want[2] = false := hoff 2
    rw [State.thNext, hkept.get (by decide) (by decide), h2, w0, w1, w2]
    rfl
  rw [State.thTakes, hbar, if_neg (fun h => absurd h.2 (by decide)), hnext]

end Levels
/-! ## The shut-down -/

section Shutdown
variable {s u : State} {cause : Nat}

theorem HaltFrame.hk {W : Fld → Prop} (h : HaltFrame W s u) : u.hk = s.hk := by rw [h.rest]

theorem HaltFrame.shutRec {W : Fld → Prop} (h : HaltFrame W s u) : u.shutRec = s.shutRec := by rw [h.rest]

/-- What an ordered shut-down leaves. -/
structure ShutDone (cause : Nat) (s u : State) : Prop where
  stopped : u.allStopped
  closed : u.ser.closed = true
  queue : u.ser.queue = []
  rec_ : u.shutRec = ⟨true, false, cause, s.tim.dev, 0, 0⟩
  shut : ∃ x, u.hk.shut = some x ∧ x.td = s.now
  ts : u.hk.ts = s.hk.ts
  get : ∀ f : Fld, 0x110000 ≤ f.addr → f.addr < 0x120000 → f.addr ∉ shutWords → u.get f = s.get f

theorem State.flsClose_frame : ∃ regs ser, s.flsClose = { s with regs := regs, ser := ser } ∧ ser.closed = true ∧ ser.queue = []
    ∧ RegsBut [A.SER_FLSSTAT] s s.flsClose := by
  unfold State.flsClose
  have hser : (s.modSer (fun x => { x with closed := true, queue := [], blocked := [], gather := none })).ser.closed = true
      ∧ (s.modSer (fun x => { x with closed := true, queue := [], blocked := [], gather := none })).ser.queue = [] := ⟨rfl, rfl⟩
  have hmod : s.modSer (fun x => { x with closed := true, queue := [], blocked := [], gather := none })
      = { s with ser := (s.modSer (fun x => { x with closed := true, queue := [], blocked := [], gather := none })).ser } := rfl
  have hregs : RegsBut [A.SER_FLSSTAT] s (s.modSer (fun x => { x with closed := true, queue := [], blocked := [], gather := none })) := fun _ _ => rfl
  generalize s.modSer (fun x => { x with closed := true, queue := [], blocked := [], gather := none }) = y at *
  obtain ⟨-, regs, hf⟩ := y.flsStat_kept
  exact ⟨regs, y.ser, by rw [hf, hmod], hser.1, hser.2, hregs.trans State.flsStat_regsBut⟩

/-- The shut-down is noted, in the state and in the retained record. -/
def State.shutNoted (s : State) (x : ShutSt) (r : ShutRec) : State := { s.modHk (fun h => { h with shut := some x }) with shutRec := r }

theorem State.shutDown_eq : s.shutDown cause = ((((((s.record (fcode cTHERMAL 3) cause).shutNoted
    ⟨(s.record (fcode cTHERMAL 3) cause).now, (s.record (fcode cTHERMAL 3) cause).tim.dev, cause,
      (s.record (fcode cTHERMAL 3) cause).ser.run.isNone, (s.record (fcode cTHERMAL 3) cause).now, false⟩
    ⟨true, false, cause, (s.record (fcode cTHERMAL 3) cause).tim.dev, 0, 0⟩).shutShow).haltAll (fcode cTHERMAL 3)).yokFault).flsClose) := rfl

/-- Housekeeping but for the retained record, as it was; and the record, as the state holds it. -/
structure HkStands (s u : State) : Prop where
  hk : u.hk = s.hk
  rec_ : u.shutRec = s.shutRec
  get : ∀ f : Fld, 0x110000 ≤ f.addr → f.addr < 0x120000 → f.addr ∉ shutWords → u.get f = s.get f

theorem HkStands.trans {x : State} (h : HkStands s u) (k : HkStands u x) : HkStands s x :=
  ⟨k.hk.trans h.hk, k.rec_.trans h.rec_, fun f hlo hhi hf => (k.get f hlo hhi hf).trans (h.get f hlo hhi hf)⟩

theorem State.shutShow_stands : HkStands s s.shutShow := by
  have hregs := State.shutShow_regsBut (s := s)
  obtain ⟨_, h⟩ := State.shutShow_frame (s := s)
  exact ⟨by rw [h], by rw [h], fun f _ _ hf => hregs.get hf⟩

theorem HaltFrame.stands (h : HaltFrame (fun f => haltWord f.addr) s u) : HkStands s u :=
  ⟨h.hk, h.shutRec, fun f hlo hhi _ => h.get (by unfold haltWord; omega)⟩

theorem HouseKept.stands (h : HouseKept s u) : HkStands s u := ⟨h.hk, h.rec_, fun _ hlo hhi _ => h.get (by omega) hhi⟩

theorem State.flsClose_stands : HkStands s s.flsClose := by
  obtain ⟨_, _, h, -, -, hregs⟩ := State.flsClose_frame (s := s)
  refine ⟨by rw [h], by rw [h], fun f hlo _ _ => hregs.get fun e => ?_⟩
  rw [List.mem_singleton.mp e] at hlo
  exact absurd hlo (by decide)

theorem State.flsClose_ser : s.flsClose.ser.closed = true ∧ s.flsClose.ser.queue = [] := by
  obtain ⟨_, _, h, hclosed, hqueue, -⟩ := State.flsClose_frame (s := s)
  rw [h]
  exact ⟨hclosed, hqueue⟩

theorem State.flsClose_tstate (t : Fin 24) : s.flsClose.tstate t = s.tstate t := by
  obtain ⟨_, _, -, -, -, hregs⟩ := State.flsClose_frame (s := s)
  exact hregs.get (by revert t; decide)

/-- The steps of a shut-down from the note on. -/
theorem State.shutSteps_done (hu : (((s.shutShow).haltAll (fcode cTHERMAL 3)).yokFault).flsClose = u) :
    u.allStopped ∧ u.ser.closed = true ∧ u.ser.queue = [] ∧ HkStands s u := by
  have h1 := State.shutShow_stands (s := s)
  generalize s.shutShow = b at *
  obtain ⟨h2, hstop⟩ := State.haltAll_stopped (s := b) (fcode cTHERMAL 3)
  generalize b.haltAll (fcode cTHERMAL 3) = c at *
  have h3 := (HouseKept.refl (s := c)).yokFault
  generalize c.yokFault = d at *
  subst hu
  refine ⟨fun t => ?_, State.flsClose_ser.1, State.flsClose_ser.2, ((h1.trans h2.stands).trans h3.stands).trans State.flsClose_stands⟩
  rw [State.flsClose_tstate, h3.tstate]
  exact hstop t

theorem State.shutNoted_done (x : ShutSt) (r : ShutRec) (hu : ((((s.shutNoted x r).shutShow).haltAll (fcode cTHERMAL 3)).yokFault).flsClose = u) :
    u.allStopped ∧ u.ser.closed = true ∧ u.ser.queue = [] ∧ u.shutRec = r ∧ u.hk.shut = some x ∧ u.hk.ts = s.hk.ts
    ∧ ∀ f : Fld, 0x110000 ≤ f.addr → f.addr < 0x120000 → f.addr ∉ shutWords → u.get f = s.get f := by
  obtain ⟨hstop, hclosed, hqueue, hstands⟩ := State.shutSteps_done hu
  exact ⟨hstop, hclosed, hqueue, hstands.rec_, by rw [hstands.hk]; rfl, by rw [hstands.hk]; rfl, hstands.get⟩

theorem State.shutDown_done : ShutDone cause s (s.shutDown cause) := by
  have hrec := RoundKept.refl.record (s := s) (fcode cTHERMAL 3) cause
  have hhk := State.record_hk (s := s) (fcode cTHERMAL 3) cause
  rw [State.shutDown_eq]
  generalize s.record (fcode cTHERMAL 3) cause = y at *
  obtain ⟨h1, h2, h3, h4, h5, h6, h7⟩ := y.shutNoted_done ⟨y.now, y.tim.dev, cause, y.ser.run.isNone, y.now, false⟩
    ⟨true, false, cause, y.tim.dev, 0, 0⟩ rfl
  refine ⟨h1, h2, h3, h4.trans (by rw [hrec.dev]), ⟨_, h5, hrec.now⟩, h6.trans (by rw [hhk]), fun f hlo hhi hf => (h7 f hlo hhi hf).trans ?_⟩
  exact hrec.get (fun he => by
    have : 0x120000 ≤ f.addr := by revert he; generalize f.addr = b; revert b; decide
    omega)

end Shutdown
/-! ## The round -/

section Round
variable {a s u : State} {i : Fin 16} {r : Fin 16 → Int}

/-- The readings of a round are used up. -/
def State.tsClear (s : State) : State := each allTs (fun i s => s.modTs i (fun x => { x with reading := none, flagged := false })) s

/-- The sensors take their readings. -/
def State.tsReads (s : State) : State := each allTs (fun i s => s.tsRead i) s

/-- The lost sensors take their substitutes. -/
def State.tsLosts (s : State) : State := each allTs (fun i x => x.tsLost s.regionMax i) s

/-- What follows from the temperature shown. -/
def State.hkFinish (s : State) : State :=
  if !s.bit F.HKP_STAT_VALID then s
  else
    let t := s.getI F.HKP_TMAX_TEMP
    let s := (s.thWarn t).thLevel t
    if s.hk.shut.isSome then s
    else if s.getI F.HKP_THSHD_TEMP ≤ t then s.shutDown 0
    else if s.get F.HKP_TSSTAT_NVALID < 8 then s.shutDown 1
    else s

theorem State.hkEvaluate_eq (hp : s.tim.pll = true) (hn : s.now = s.hk.roundAt + 16 * slotTicks) (hr : ∀ i : Fin 16, (s.hk.ts[i]).reading = some (r i)) :
    s.hkEvaluate = s.notify.tsReads.tsLosts.tsShow.tsClear.hkFinish := by
  have hnone : ¬ allTs.any (fun i => (s.hk.ts[i]).reading.isNone) = true := by
    rw [List.any_eq_true]
    rintro ⟨i, -, h⟩
    rw [hr i] at h
    exact absurd h Bool.false_ne_true
  rw [State.hkEvaluate, if_neg]
  · rfl
  · rw [hp]
    rintro (h | h | h)
    · exact absurd h (by decide)
    · exact h hn
    · exact hnone h

/-- Nothing but the readings differs. -/
theorem State.tsClear_kept : RoundKept s s.tsClear ∧ s.tsClear.regs = s.regs ∧ s.tsClear.hk.shut = s.hk.shut ∧ s.tsClear.hk.tRecov = s.hk.tRecov := by
  refine each_keeps (fun u => RoundKept s u ∧ u.regs = s.regs ∧ u.hk.shut = s.hk.shut ∧ u.hk.tRecov = s.hk.tRecov) allTs _
    (fun y _ z hz => ?_) s ⟨RoundKept.refl, rfl, rfl, rfl⟩
  obtain ⟨h1, h2, h3, h4⟩ := hz
  exact ⟨h1.modTs .., h2, h3, h4⟩

theorem State.tsClear_lost (h : (s.hk.ts[i]).lost = true) : (s.tsClear.hk.ts[i]).lost = true := by
  refine each_keeps (fun u => (u.hk.ts[i]).lost = true) allTs _ (fun y _ z hz => ?_) s h
  by_cases hy : i = y
  · subst hy
    rw [modTs_same]
    exact hz
  · rw [modTs_other hy]
    exact hz

/-! ### A lost sensor -/

/-- A sensor is lost and has no plausible reading, and a count of good rounds is needed. -/
structure BadTs (i : Fin 16) (u : State) : Prop where
  lost : (u.hk.ts[i]).lost = true
  bad : (u.hk.ts[i]).good (u.get F.HKP_TSCFG_JUMP) = false
  recn : 0 < u.get F.HKP_TSCFG_RECN

/-- The same of a sensor that is not lost yet. -/
structure WrongTs (i : Fin 16) (u : State) : Prop where
  lost : (u.hk.ts[i]).lost = false
  bad : (u.hk.ts[i]).good (u.get F.HKP_TSCFG_JUMP) = false
  recn : 0 < u.get F.HKP_TSCFG_RECN

theorem RoundKept.jump (h : RoundKept s u) : u.get F.HKP_TSCFG_JUMP = s.get F.HKP_TSCFG_JUMP := h.get (by decide)
theorem RoundKept.recn (h : RoundKept s u) : u.get F.HKP_TSCFG_RECN = s.get F.HKP_TSCFG_RECN := h.get (by decide)

theorem WrongTs.tsRead_other {j : Fin 16} (h : WrongTs i s) (hj : j ≠ i) : WrongTs i (s.tsRead j) := by
  obtain ⟨hk, hts⟩ := State.tsRead_kept (s := s) (i := j)
  have hi := hts i (fun e => hj e.symm)
  exact ⟨by rw [hi]; exact h.lost, by rw [hi, hk.jump]; exact h.bad, by rw [hk.recn]; exact h.recn⟩

theorem BadTs.tsRead_other {j : Fin 16} (h : BadTs i s) (hj : j ≠ i) : BadTs i (s.tsRead j) := by
  obtain ⟨hk, hts⟩ := State.tsRead_kept (s := s) (i := j)
  have hi := hts i (fun e => hj e.symm)
  exact ⟨by rw [hi]; exact h.lost, by rw [hi, hk.jump]; exact h.bad, by rw [hk.recn]; exact h.recn⟩

theorem WrongTs.tsRead (h : WrongTs i s) : BadTs i (s.tsRead i) := by
  obtain ⟨hk, -⟩ := State.tsRead_kept (s := s) (i := i)
  obtain ⟨y, good, hy, hhk, heq⟩ := State.tsRead_bad h.lost h.bad
  have hts : (s.tsRead i).hk.ts[i] = (s.hk.ts[i]).lose y.now good := by rw [heq, State.record_hk, modTs_same, hhk]
  exact ⟨by rw [hts]; rfl, by rw [hts, hk.jump]; exact h.bad, by rw [hk.recn]; exact h.recn⟩

theorem BadTs.tsLost_other {j : Fin 16} {vmax : Nat → Option Int} (h : BadTs i s) (hj : j ≠ i) : BadTs i (s.tsLost vmax j) := by
  obtain ⟨hk, hts, -⟩ := State.tsLost_kept (s := s) (i := j) (vmax := vmax)
  have hi := hts i (fun e => hj e.symm)
  exact ⟨by rw [hi]; exact h.lost, by rw [hi, hk.jump]; exact h.bad, by rw [hk.recn]; exact h.recn⟩

theorem allTs_nodup : allTs.Nodup := List.nodup_finRange 16

theorem mem_allTs (i : Fin 16) : i ∈ allTs := List.mem_finRange i

/-- An implausible reading loses its sensor. -/
theorem WrongTs.reads (h : WrongTs i s) : BadTs i s.tsReads := by
  have hbefore (j : Fin 16) (hj : j ≠ i) (y : State) (hy : WrongTs i y) : WrongTs i (y.tsRead j) := hy.tsRead_other hj
  have hafter (j : Fin 16) (hj : j ≠ i) (y : State) (hy : BadTs i y) : BadTs i (y.tsRead j) := hy.tsRead_other hj
  unfold State.tsReads
  exact each_once (e := fun i s => s.tsRead i) (P := WrongTs i) (Q := BadTs i) allTs_nodup (mem_allTs i) hbefore (fun _ hy => hy.tsRead) hafter s h

theorem BadTs.losts (h : BadTs i s) : (s.tsLosts.hk.ts[i]).lost = true := by
  have hbefore (j : Fin 16) (hj : j ≠ i) (y : State) (hy : BadTs i y) : BadTs i (y.tsLost s.regionMax j) := hy.tsLost_other hj
  have hself (y : State) (hy : BadTs i y) : ((y.tsLost s.regionMax i).hk.ts[i]).lost = true := State.tsLost_kept.2.2 hy.lost hy.bad hy.recn
  have hafter (j : Fin 16) (hj : j ≠ i) (y : State) (hy : (y.hk.ts[i]).lost = true) : ((y.tsLost s.regionMax j).hk.ts[i]).lost = true := by
    rw [State.tsLost_kept.2.1 i (fun e => hj e.symm)]
    exact hy
  unfold State.tsLosts
  exact each_once (e := fun i x => x.tsLost s.regionMax i) (P := BadTs i) (Q := fun u => (u.hk.ts[i]).lost = true) allTs_nodup (mem_allTs i)
    hbefore hself hafter s h

/-- What follows from the temperature leaves the sensors and their registers alone. -/
theorem State.hkFinish_kept : s.hkFinish.hk.ts = s.hk.ts ∧ ∀ f : Fld, 0x110000 ≤ f.addr → f.addr < 0x120000 → f.addr ≠ A.HKP_THSTAT →
    f.addr ∉ shutWords → s.hkFinish.get f = s.get f := by
  unfold State.hkFinish
  dsimp only
  split
  · exact ⟨rfl, fun _ _ _ _ _ => rfl⟩
  · have hw := State.thWarn_kept (s := s) (t := s.getI F.HKP_TMAX_TEMP)
    have hl := (State.thLevel_shows (s := s.thWarn (s.getI F.HKP_TMAX_TEMP)) (t := s.getI F.HKP_TMAX_TEMP)).1
    have hk := hw.trans hl
    generalize (s.thWarn (s.getI F.HKP_TMAX_TEMP)).thLevel (s.getI F.HKP_TMAX_TEMP) = y at *
    have hy (f : Fld) (hlo : 0x110000 ≤ f.addr) (hhi : f.addr < 0x120000) (hf : f.addr ≠ A.HKP_THSTAT) : y.get f = s.get f :=
      hk.get hf (fun he => by
        have : 0x120000 ≤ f.addr := by revert he; generalize f.addr = b; revert b; decide
        omega)
    have hdown (c : Nat) : (y.shutDown c).hk.ts = s.hk.ts ∧ ∀ f : Fld, 0x110000 ≤ f.addr → f.addr < 0x120000 → f.addr ≠ A.HKP_THSTAT →
        f.addr ∉ shutWords → (y.shutDown c).get f = s.get f := by
      have hd := State.shutDown_done (s := y) (cause := c)
      exact ⟨hd.ts.trans hk.ts, fun f hlo hhi hf hs => (hd.get f hlo hhi hs).trans (hy f hlo hhi hf)⟩
    split
    · exact ⟨hk.ts, fun f hlo hhi hf _ => hy f hlo hhi hf⟩
    · split
      · exact hdown 0
      · split
        · exact hdown 1
        · exact ⟨hk.ts, fun f hlo hhi hf _ => hy f hlo hhi hf⟩

theorem tsReg_words (i : Fin 16) : 0x110000 ≤ A.HKP_TS i ∧ A.HKP_TS i < 0x120000 ∧ A.HKP_TS i ≠ A.HKP_THSTAT ∧ A.HKP_TS i ∉ shutWords := by
  revert i; decide

/-- A sensor whose reading is implausible is lost, and shown so. -/
theorem WrongTs.evaluated (h : WrongTs i s) : ((s.tsReads.tsLosts.tsShow.tsClear.hkFinish).hk.ts[i]).lost = true
    ∧ (s.tsReads.tsLosts.tsShow.tsClear.hkFinish).get (F.HKP_TS_SUB i) = 1
    ∧ (s.tsReads.tsLosts.tsShow.tsClear.hkFinish).get (F.HKP_TS_VALID i) = 0 := by
  have hlost := h.reads.losts
  generalize s.tsReads.tsLosts = x at *
  obtain ⟨hsub, hvalid⟩ := State.tsShow_shows (s := x) (i := i)
  have hlost1 : (x.tsShow.hk.ts[i]).lost = true := by rw [State.tsShow_regs.hk]; exact hlost
  rw [hlost] at hsub
  rw [TsSt.valid, hlost] at hvalid
  generalize x.tsShow = y at *
  have hlost2 := State.tsClear_lost hlost1
  have hregs := (State.tsClear_kept (s := y)).2.1
  have hget (f : Fld) : y.tsClear.get f = y.get f := by unfold State.get State.rd; rw [hregs]
  generalize y.tsClear = z at *
  obtain ⟨hts, hkeep⟩ := State.hkFinish_kept (s := z)
  obtain ⟨hlo, hhi, hth, hsh⟩ := tsReg_words i
  refine ⟨by rw [hts]; exact hlost2, ?_, ?_⟩
  · rw [hkeep _ hlo hhi hth hsh, hget, hsub]
    rfl
  · rw [hkeep _ hlo hhi hth hsh, hget, hvalid]
    rfl

/-! ### A round of good readings -/

/-- The parts of housekeeping that no reading moves. -/
structure RoundStands (s u : State) : Prop where
  kept : RoundKept s u
  shut : u.hk.shut = s.hk.shut
  recov : u.hk.tRecov = s.hk.tRecov

theorem RoundStands.trans {x : State} (h : RoundStands s u) (k : RoundStands u x) : RoundStands s x :=
  ⟨h.kept.trans k.kept, k.shut.trans h.shut, k.recov.trans h.recov⟩

theorem State.tsRead_stands : RoundStands s (s.tsRead i) := by
  have hk := (State.tsRead_kept (s := s) (i := i)).1
  have hmod (y : State) (f : TsSt → TsSt) : (y.modTs i f).hk.shut = y.hk.shut ∧ (y.modTs i f).hk.tRecov = y.hk.tRecov := ⟨rfl, rfl⟩
  rcases hl : (s.hk.ts[i]).lost with _ | _
  · rcases hg : (s.hk.ts[i]).good (s.get F.HKP_TSCFG_JUMP) with _ | _
    · obtain ⟨y, good, -, hhk, heq⟩ := State.tsRead_bad hl hg
      rw [heq] at hk ⊢
      refine ⟨hk, ?_, ?_⟩ <;> rw [State.record_hk]
      · rw [(hmod ..).1, hhk]
      · rw [(hmod ..).2, hhk]
    · rw [State.tsRead_good hl hg] at hk ⊢
      exact ⟨hk, (hmod ..).1, (hmod ..).2⟩
  · rw [State.tsRead_lost hl]
    exact ⟨RoundKept.refl, rfl, rfl⟩

theorem State.tsReads_stands : RoundStands s s.tsReads := by
  unfold State.tsReads
  exact each_keeps (fun u => RoundStands s u) allTs _ (fun _ _ _ hz => hz.trans State.tsRead_stands) s ⟨RoundKept.refl, rfl, rfl⟩

/-- A sensor as its good reading leaves it. -/
def TsSt.took (x : TsSt) : TsSt := { x with prev := some (x.reading.getD 0), lastGood := x.reading.getD 0 }

theorem State.tsReads_took (hl : (s.hk.ts[i]).lost = false) (hg : (s.hk.ts[i]).good (s.get F.HKP_TSCFG_JUMP) = true) :
    s.tsReads.hk.ts[i] = (s.hk.ts[i]).took := by
  generalize hx : s.hk.ts[i] = x at *
  generalize hn : s.get F.HKP_TSCFG_JUMP = n at *
  have hbefore (j : Fin 16) (hj : j ≠ i) (y : State) (hy : y.hk.ts[i] = x ∧ y.get F.HKP_TSCFG_JUMP = n) :
      (y.tsRead j).hk.ts[i] = x ∧ (y.tsRead j).get F.HKP_TSCFG_JUMP = n := by
    obtain ⟨hk, hts⟩ := State.tsRead_kept (s := y) (i := j)
    exact ⟨(hts i (fun e => hj e.symm)).trans hy.1, hk.jump.trans hy.2⟩
  have hself (y : State) (hy : y.hk.ts[i] = x ∧ y.get F.HKP_TSCFG_JUMP = n) : (y.tsRead i).hk.ts[i] = x.took := by
    rw [State.tsRead_good (by rw [hy.1]; exact hl) (by rw [hy.1, hy.2]; exact hg), modTs_same, hy.1]
    rfl
  have hafter (j : Fin 16) (hj : j ≠ i) (y : State) (hy : y.hk.ts[i] = x.took) : (y.tsRead j).hk.ts[i] = x.took :=
    (State.tsRead_kept.2 i (fun e => hj e.symm)).trans hy
  unfold State.tsReads
  exact each_once (e := fun i s => s.tsRead i) (P := fun y => y.hk.ts[i] = x ∧ y.get F.HKP_TSCFG_JUMP = n)
    (Q := fun y => y.hk.ts[i] = x.took) allTs_nodup (mem_allTs i) hbefore hself hafter s ⟨hx, hn⟩

theorem State.tsLosts_idle (h : ∀ i : Fin 16, (s.hk.ts[i]).lost = false) : s.tsLosts = s := by
  unfold State.tsLosts
  exact each_keeps (fun u => u = s) allTs _ (fun y _ z hz => by rw [hz]; exact State.tsLost_idle (h y)) s rfl

/-- The parts that a change of registers leaves. -/
structure PartsKept (s u : State) : Prop where
  ser : u.ser = s.ser
  rec_ : u.shutRec = s.shutRec
  tim : u.tim = s.tim
  now : u.now = s.now
  hk : u.hk = s.hk

theorem PartsKept.trans {x : State} (h : PartsKept s u) (k : PartsKept u x) : PartsKept s x :=
  ⟨k.ser.trans h.ser, k.rec_.trans h.rec_, k.tim.trans h.tim, k.now.trans h.now, k.hk.trans h.hk⟩

theorem RegsOnly.parts {P : Nat → Prop} (h : RegsOnly P s u) : PartsKept s u := by
  constructor <;> rw [h.rest]

/-- The registers of housekeeping with all sensors good: the hottest is shown, and all are valid. -/
structure AllShown (r : Fin 16 → Int) (i : Fin 16) (s u : State) : Prop where
  temp : u.getI F.HKP_TMAX_TEMP = r i
  sensor : u.get F.HKP_TMAX_SENSOR = i.val
  hottest : ∀ j, r j ≤ r i
  valid : u.get F.HKP_TSSTAT_NVALID = 16
  lost : u.get F.HKP_TSSTAT_LOST = 0
  reg2 : u.get F.HKP_TSSTAT_REG2 = 0
  others : ∀ f : Fld, f.addr ∉ evtWords → ¬ tsWord f.addr → u.get f = s.get f
  ser : u.ser = s.ser
  rec_ : u.shutRec = s.shutRec
  dev : u.tim.dev = s.tim.dev
  now : u.now = s.now
  shut : u.hk.shut = s.hk.shut
  recov : u.hk.tRecov = s.hk.tRecov

theorem plausible_range {x : TsSt} {v : Int} {n : Nat} (h : x.plausible v n = true) : -880 ≤ v ∧ v ≤ 2800 := by
  unfold TsSt.plausible at h
  simp only [Bool.and_eq_true, decide_eq_true_eq] at h
  exact h.1.1

theorem State.goodTs_shown (hr : ∀ i : Fin 16, (s.hk.ts[i]).reading = some (r i))
    (hg : ∀ i : Fin 16, (s.hk.ts[i]).lost = false ∧ (s.hk.ts[i]).plausible (r i) (s.get F.HKP_TSCFG_JUMP) = true) :
    ∃ i, AllShown r i s s.tsReads.tsLosts.tsShow.tsClear := by
  have hstands := State.tsReads_stands (s := s)
  have htook (i : Fin 16) : (s.tsReads.hk.ts[i]).lost = false ∧ (s.tsReads.hk.ts[i]).lastGood = r i ∧ (s.tsReads.hk.ts[i]).valid = true := by
    obtain ⟨hl, hp⟩ := hg i
    rw [State.tsReads_took hl (by rw [TsSt.good, hr i]; exact hp)]
    refine ⟨hl, ?_, ?_⟩
    · rw [TsSt.took, hr i]; rfl
    · rw [TsSt.valid, TsSt.took, hl]; rfl
  rw [State.tsLosts_idle fun i => (htook i).1]
  generalize s.tsReads = x at *
  have hvalue (i : Fin 16) : (x.hk.ts[i]).value = r i := by
    obtain ⟨hl, hgood, -⟩ := htook i
    rw [TsSt.value, hl, hgood]
    rfl
  have hputs := State.tsPuts_regs (s := x)
  rw [State.tsShow_eq]
  generalize each allTs (fun i s => s.tsPut i) x = y at *
  have hyhk : y.hk = x.hk := hputs.hk
  have hlost : y.lostTs = [] := by
    have hnone : allTs.filter (fun i => (y.hk.ts[i]).lost) = [] :=
      List.filter_eq_nil_iff.mpr fun i _ => by rw [hyhk, (htook i).1]; exact Bool.false_ne_true
    rw [State.lostTs, hnone]
    rfl
  rw [hlost]
  obtain ⟨hn, hl0, hr0⟩ := State.tsStat_gets (s := y) fun i => by rw [hyhk]; exact (htook i).2.2
  have hstat := State.tsStat_regs (s := y) []
  generalize y.tsStat [] = z at *
  have hzv (i : Fin 16) : (z.hk.ts[i]).value = r i := by rw [hstat.hk, hyhk]; exact hvalue i
  have hrange (i : Fin 16) := plausible_range (hg i).2
  have hhot := State.value_le_hottest (s := z)
  have htop := hzv z.hottest
  have hmax := State.tsMax_regs (s := z)
  have hgets := State.tsMaxOf_gets (s := z) (best := z.hottest) (by rw [htop]; have := hrange z.hottest; omega)
    (by rw [htop]; have := hrange z.hottest; omega)
  rw [htop] at hgets
  have hmaxeq : z.tsMax = z.tsMaxOf z.hottest := rfl
  rw [← hmaxeq] at hgets
  obtain ⟨htemp, hsensor⟩ := hgets
  refine ⟨z.hottest, ?_⟩
  clear hmaxeq
  have hothers (f : Fld) (he : f.addr ∉ evtWords) (hf : ¬ tsWord f.addr) : z.tsMax.get f = s.get f := by
    rw [hmax.get (fun e => hf (Or.inr (Or.inl e))), hstat.get (fun e => hf (Or.inl e)), hputs.get hf, hstands.kept.get he]
  have hparts := (hputs.parts.trans hstat.parts).trans hmax.parts
  have hn' : z.tsMax.get F.HKP_TSSTAT_NVALID = 16 := (hmax.get (by decide)).trans hn
  have hl' : z.tsMax.get F.HKP_TSSTAT_LOST = 0 := (hmax.get (by decide)).trans hl0
  have hr' : z.tsMax.get F.HKP_TSSTAT_REG2 = 0 := (hmax.get (by decide)).trans hr0
  have hmost (j : Fin 16) : r j ≤ r z.hottest := by
    have h := hhot j
    rwa [hzv, htop] at h
  clear hmax hputs hstat hhot htop hzv hvalue htook hyhk hn hl0 hr0
  generalize z.tsMax = u at *
  obtain ⟨hclear, hregs, hshut, hrecov⟩ := State.tsClear_kept (s := u)
  have hget (f : Fld) : u.tsClear.get f = u.get f := by unfold State.get State.rd; rw [hregs]
  generalize u.tsClear = v at *
  have hgetI (f : Fld) : v.getI f = u.getI f := by unfold State.getI; rw [hget]
  exact ⟨(hgetI _).trans htemp, (hget _).trans hsensor, hmost, (hget _).trans hn', (hget _).trans hl', (hget _).trans hr',
    fun f he hf => (hget f).trans (hothers f he hf), hclear.ser.trans (hparts.ser.trans hstands.kept.ser),
    hclear.rec_.trans (hparts.rec_.trans hstands.kept.rec_), hclear.dev.trans ((congrArg TimSt.dev hparts.tim).trans hstands.kept.dev),
    hclear.now.trans (hparts.now.trans hstands.kept.now), hshut.trans ((congrArg HkSt.shut hparts.hk).trans hstands.shut),
    hrecov.trans ((congrArg HkSt.tRecov hparts.hk).trans hstands.recov)⟩

theorem State.getI_congr {f : Fld} (h : u.get f = s.get f) : u.getI f = s.getI f := by unfold State.getI; rw [h]

/-- Warning and level, with all sensors good. -/
structure LevelsShown (r : Fin 16 → Int) (i : Fin 16) (s y : State) : Prop where
  temp : y.getI F.HKP_TMAX_TEMP = r i
  sensor : y.get F.HKP_TMAX_SENSOR = i.val
  valid : y.get F.HKP_TSSTAT_NVALID = 16
  warn : s.getI F.HKP_THWARN_TEMP ≤ r i → y.get F.HKP_THSTAT_WARN = 1
  three : s.getI F.HKP_THTHR_TEMP + 2 * (s.get F.HKP_THCFG_STEP : Int) ≤ r i → y.get F.HKP_THSTAT_LEVEL = 3
  zero : s.hk.tRecov = none → r i < s.getI F.HKP_THTHR_TEMP - (s.get F.HKP_THCFG_HYS : Int) → y.get F.HKP_THSTAT_LEVEL = 0

theorem AllShown.levels {i : Fin 16} {x : State} (h : AllShown r i s x) :
    LevelKept x ((x.thWarn (r i)).thLevel (r i)) ∧ LevelsShown r i s ((x.thWarn (r i)).thLevel (r i)) := by
  have hthr : x.getI F.HKP_THTHR_TEMP = s.getI F.HKP_THTHR_TEMP := State.getI_congr (h.others _ (by decide) (by unfold tsWord; decide))
  have hwt : x.getI F.HKP_THWARN_TEMP = s.getI F.HKP_THWARN_TEMP := State.getI_congr (h.others _ (by decide) (by unfold tsWord; decide))
  have hstep : x.get F.HKP_THCFG_STEP = s.get F.HKP_THCFG_STEP := h.others _ (by decide) (by unfold tsWord; decide)
  have hhys : x.get F.HKP_THCFG_HYS = s.get F.HKP_THCFG_HYS := h.others _ (by decide) (by unfold tsWord; decide)
  have hwarn := State.thWarn_kept (s := x) (t := r i)
  have hwarns := State.thWarn_warns (s := x) (t := r i)
  rw [hwt] at hwarns
  generalize x.thWarn (r i) = w at *
  have hon (k : Fin 3) : w.thOn k = s.getI F.HKP_THTHR_TEMP + k.val * s.get F.HKP_THCFG_STEP := by
    rw [State.thOn, State.getI_congr (hwarn.get (by decide) (by decide)), hthr, hwarn.get (by decide) (by decide), hstep]
  have hwhys : w.get F.HKP_THCFG_HYS = s.get F.HKP_THCFG_HYS := (hwarn.get (by decide) (by decide)).trans hhys
  obtain ⟨hlevel, hkeepw, -⟩ := State.thLevel_shows (s := w) (t := r i)
  have hthree := State.thLevel_three (s := w) (t := r i)
  have hzero := State.thLevel_zero (s := w) (t := r i)
  rw [hon] at hthree hzero
  rw [hwhys] at hzero
  generalize w.thLevel (r i) = y at *
  have hk := hwarn.trans hlevel
  refine ⟨hk, (State.getI_congr (hk.get (by decide) (by decide))).trans h.temp, (hk.get (by decide) (by decide)).trans h.sensor,
    (hk.get (by decide) (by decide)).trans h.valid, fun hw => hkeepw.trans (hwarns hw), fun ht => hthree ht, fun hr ht => hzero ?_ ?_ ?_ ?_⟩
  · simpa using ht
  · exact (hwarn.get (by decide) (by decide)).trans h.lost
  · exact (hwarn.get (by decide) (by decide)).trans h.reg2
  · rw [hwarn.recov, h.recov, hr]

/-- With all sensors good the temperature alone decides. -/
theorem AllShown.finish_eq {i : Fin 16} {x : State} (h : AllShown r i s x) (hv : s.bit F.HKP_STAT_VALID = true) (hs : s.hk.shut = none) :
    x.hkFinish = if s.getI F.HKP_THSHD_TEMP ≤ r i then ((x.thWarn (r i)).thLevel (r i)).shutDown 0 else (x.thWarn (r i)).thLevel (r i) := by
  have hvalid : x.bit F.HKP_STAT_VALID = true := by
    rw [State.bit_iff, h.others _ (by decide) (by unfold tsWord; decide), ← State.bit_iff]
    exact hv
  obtain ⟨hk, hl⟩ := h.levels
  rw [State.hkFinish, hvalid, if_neg (by decide)]
  dsimp only
  rw [h.temp]
  generalize (x.thWarn (r i)).thLevel (r i) = y at *
  have hshd : y.getI F.HKP_THSHD_TEMP = s.getI F.HKP_THSHD_TEMP :=
    (State.getI_congr (hk.get (by decide) (by decide))).trans (State.getI_congr (h.others _ (by decide) (by unfold tsWord; decide)))
  have hshut : y.hk.shut = none := by rw [hk.shut, h.shut, hs]
  rw [hshut, if_neg (show ¬ (none : Option ShutSt).isSome = true from Bool.false_ne_true), hshd, hl.valid, if_neg (show ¬ 16 < 8 by decide)]

/-- What follows from the temperature, with all sensors good. -/
theorem AllShown.finish {i : Fin 16} {x : State} (h : AllShown r i s x) (hv : s.bit F.HKP_STAT_VALID = true) (hs : s.hk.shut = none) :
    LevelsShown r i s x.hkFinish
    ∧ (s.getI F.HKP_THSHD_TEMP ≤ r i → x.hkFinish.allStopped ∧ x.hkFinish.ser.closed = true ∧ x.hkFinish.ser.queue = []
        ∧ x.hkFinish.shutRec = ⟨true, false, 0, s.tim.dev, 0, 0⟩ ∧ ∃ y, x.hkFinish.hk.shut = some y ∧ y.td = s.now)
    ∧ (r i < s.getI F.HKP_THSHD_TEMP → x.hkFinish.hk.shut = none ∧ x.hkFinish.shutRec = s.shutRec ∧ x.hkFinish.ser = s.ser) := by
  have heq := h.finish_eq hv hs
  obtain ⟨hk, hl⟩ := h.levels
  generalize (x.thWarn (r i)).thLevel (r i) = y at *
  by_cases ht : s.getI F.HKP_THSHD_TEMP ≤ r i
  · rw [if_pos ht] at heq
    have hd := State.shutDown_done (s := y) (cause := 0)
    rw [← heq] at hd
    generalize x.hkFinish = u at *
    obtain ⟨z, hz, hzt⟩ := hd.shut
    have hget (f : Fld) (hlo : 0x110000 ≤ f.addr) (hhi : f.addr < 0x120000) (hf : f.addr ∉ shutWords) : u.get f = y.get f := hd.get f hlo hhi hf
    refine ⟨⟨?_, ?_, ?_, fun hw => ?_, fun h3 => ?_, fun hr h0 => ?_⟩, fun _ => ⟨hd.stopped, hd.closed, hd.queue, ?_, z, hz, ?_⟩,
      fun h => absurd ht (by omega)⟩
    · exact (State.getI_congr (hget _ (by decide) (by decide) (by decide))).trans hl.temp
    · exact (hget _ (by decide) (by decide) (by decide)).trans hl.sensor
    · exact (hget _ (by decide) (by decide) (by decide)).trans hl.valid
    · exact (hget _ (by decide) (by decide) (by decide)).trans (hl.warn hw)
    · exact (hget _ (by decide) (by decide) (by decide)).trans (hl.three h3)
    · exact (hget _ (by decide) (by decide) (by decide)).trans (hl.zero hr h0)
    · rw [hd.rec_, hk.dev, h.dev]
    · rw [hzt, hk.now, h.now]
  · rw [if_neg ht] at heq
    rw [heq]
    exact ⟨hl, fun h => absurd h ht, fun _ => ⟨by rw [hk.shut, h.shut, hs], by rw [hk.rec_, h.rec_], by rw [hk.ser, h.ser]⟩⟩

end Round
theorem HouseKept.getI {s u : State} {f : Fld} (h : HouseKept s u) (h0 : 0x100000 ≤ f.addr) (h1 : f.addr < 0x120000) : u.getI f = s.getI f :=
  State.getI_congr (h.get h0 h1)

/-- The evaluation of the round. -/
theorem housekeepingEvaluation : Part.HousekeepingEvaluation := by
  intro s t r
  dsimp only
  intro hpll hnow hr
  have heval := State.hkEvaluate_eq hpll hnow hr
  have hq := (HouseKept.refl (s := s.advance t)).notify
  have hrq : ∀ i : Fin 16, ((s.advance t).notify.hk.ts[i]).reading = some (r i) := fun i => by rw [hq.hk]; exact hr i
  refine ⟨fun hg hv hs hturn => ?_, fun i hl hp hn hturn => ⟨_, exec_any_of rfl (State.act.eq_def ..) hturn heval, ?_⟩⟩
  case refine_1 =>
    obtain ⟨i, hi⟩ := State.goodTs_shown (s := (s.advance t).notify) hrq fun i => by
      rw [hq.hk, hq.get (by decide) (by decide)]
      exact hg i
    refine ⟨_, i, exec_any_of rfl (State.act.eq_def ..) hturn heval, ?_⟩
    clear heval
    generalize s.advance t = a at *
    have hvq : a.notify.bit F.HKP_STAT_VALID = true := by
      rw [State.bit_iff, hq.get (by decide) (by decide), ← State.bit_iff]
      exact hv
    obtain ⟨hlevels, hdown, hup⟩ := hi.finish hvq (by rw [hq.hk]; exact hs)
    have hmost := hi.hottest
    clear hi
    generalize a.notify.tsReads.tsLosts.tsShow.tsClear.hkFinish = u at *
    obtain ⟨htemp, hsensor, hvalid, hwarn, hthree, hzero⟩ := hlevels
    rw [hq.getI (by decide) (by decide)] at hwarn hthree hzero hdown hup
    rw [hq.get (by decide) (by decide)] at hthree hzero
    rw [hq.hk] at hzero
    rw [hq.tim, hq.now] at hdown
    rw [hq.rec_, hq.ser] at hup
    exact ⟨htemp, hsensor, hmost, hvalid, hwarn, hthree, hzero, hdown, hup⟩
  case refine_2 =>
    clear heval
    generalize s.advance t = a at *
    refine WrongTs.evaluated ⟨by rw [hq.hk]; exact hl, ?_, by rw [hq.get (by decide) (by decide)]; exact hn⟩
    rw [TsSt.good, hrq i, hq.hk, hq.get (by decide) (by decide)]
    exact hp

/-- Settles O55: what a slot shows, and how the evaluation of a round acts. -/
theorem housekeepingRounds : Obligations.HousekeepingRounds := ⟨housekeepingSlots, housekeepingEvaluation⟩

end Sys2Proof.Machine
end

section
/-!
PROOFS. Chapter 16: the cabinet feeds and the thermal shut-down.
-/
namespace Sys2Proof.Machine

/-! ## Steps of the feeds -/

section Steps
variable {a s u x : State} {b new : Bool} {c : FeedCond}

/-- The feeds as housekeeping holds them. -/
def HkSt.feedOf (h : HkSt) (b : Bool) : FeedSt := if b then h.feedB else h.feedA
def HkSt.enOf (h : HkSt) (b : Bool) : Bool := if b then h.enB else h.enA
def HkSt.modFeed (h : HkSt) (b : Bool) (f : FeedSt → FeedSt) : HkSt := if b then { h with feedB := f h.feedB } else { h with feedA := f h.feedA }
/-- The end of an overlap, as housekeeping holds it. -/
def HkSt.overlap (h : HkSt) (e : Option (Tick × Bool)) : HkSt := { h with ovlEnd := e }
def HkSt.setEn (h : HkSt) (b v : Bool) : HkSt := if b then { h with enB := v } else { h with enA := v }

theorem State.feed_eq : s.feed b = s.hk.feedOf b := rfl
theorem State.enOf_eq : s.enOf b = s.hk.enOf b := rfl

theorem State.modFeed_hk (f : FeedSt → FeedSt) : (s.modFeed b f).hk = s.hk.modFeed b f := rfl
theorem State.feedEn_hk (on : Bool) : (s.feedEn b on).hk = s.hk.setEn b (on && !(s.hk.feedOf b).bad) := rfl

namespace HkSt
variable {h : HkSt} {f : FeedSt → FeedSt} {v : Bool}

@[simp] theorem modFeed_same : (h.modFeed b f).feedOf b = f (h.feedOf b) := by cases b <;> rfl
@[simp] theorem modFeed_other : (h.modFeed b f).feedOf (!b) = h.feedOf (!b) := by cases b <;> rfl
@[simp] theorem modFeed_other' : (h.modFeed (!b) f).feedOf b = h.feedOf b := by cases b <;> rfl
@[simp] theorem modFeed_enOf {d : Bool} : (h.modFeed b f).enOf d = h.enOf d := by cases b <;> rfl
@[simp] theorem modFeed_live : (h.modFeed b f).live = h.live := by cases b <;> rfl
@[simp] theorem modFeed_feedsOn : (h.modFeed b f).feedsOn = h.feedsOn := by cases b <;> rfl
@[simp] theorem modFeed_ovlEnd : (h.modFeed b f).ovlEnd = h.ovlEnd := by cases b <;> rfl
@[simp] theorem setEn_same : (h.setEn b v).enOf b = v := by cases b <;> rfl
@[simp] theorem setEn_other : (h.setEn b v).enOf (!b) = h.enOf (!b) := by cases b <;> rfl
@[simp] theorem setEn_other' : (h.setEn (!b) v).enOf b = h.enOf b := by cases b <;> rfl
@[simp] theorem setEn_feedOf {d : Bool} : (h.setEn b v).feedOf d = h.feedOf d := by cases b <;> rfl
@[simp] theorem overlap_enOf {e : Option (Tick × Bool)} {d : Bool} : (h.overlap e).enOf d = h.enOf d := by cases d <;> rfl
@[simp] theorem overlap_ovlEnd {e : Option (Tick × Bool)} : (h.overlap e).ovlEnd = e := rfl
@[simp] theorem setEn_live : (h.setEn b v).live = h.live := by cases b <;> rfl

end HkSt

/-- The words of a feed's step. -/
def feedWords : List Nat := A.HKP_FEEDSTAT :: A.EVT_TAGHWM :: A.EVT_BPCNT :: evtWords

theorem State.tagSet_regsBut (n : Nat) : RegsBut [A.EVT_TAGHWM] s (s.tagSet n) :=
  fun _ hb => State.rd_tagSet_ne _ _ (fun e => hb (e ▸ List.mem_singleton_self _))

theorem State.bumpUp_regsBut {f : Fld} : RegsBut [f.addr] s (s.bumpUp f) :=
  ((regsBut_put (f := f) (List.mem_singleton_self _)).mpr RegsBut.refl).of_regs rfl

/-- What waits for a tag. -/
def State.waiting (s : State) (y : Stall) : State := { s with stalled := s.stalled ++ [y] }

theorem State.waiting_regsBut (y : Stall) : RegsBut [A.EVT_BPCNT] s (s.waiting y) := fun _ _ => rfl

theorem State.defer_regsBut {l : List Nat} (h : RegsBut l a s) (t : Tick) (d : Deferred) : RegsBut l a (s.defer t d) := h

theorem State.stall_eq (y : Stall) : s.stall y = ((s.waiting y).bumpUp F.EVT_BPCNT_COUNT).defer (s.now + 1) .tagDrain := rfl

theorem State.stall_regsBut (y : Stall) : RegsBut [A.EVT_BPCNT] s (s.stall y) := by
  rw [State.stall_eq]
  exact State.defer_regsBut ((State.waiting_regsBut y).trans (State.bumpUp_regsBut (f := F.EVT_BPCNT_COUNT))) _ _

theorem State.notify_regsBut : RegsBut [A.EVT_TAGHWM, A.EVT_BPCNT] s s.notify := by
  unfold State.notify State.issueAs
  split
  · exact (State.tagSet_regsBut _).mono (by decide)
  · exact (State.stall_regsBut _).mono (by decide)

theorem State.feedShow_frame : RegsOnly (· = A.HKP_FEEDSTAT) s s.feedShow ∧ s.feedShow.get F.HKP_FEEDSTAT_CHGCNT = s.get F.HKP_FEEDSTAT_CHGCNT := by
  have hput (y : State) (f : Fld) (n : Nat) (hf : f.addr = A.HKP_FEEDSTAT) (hlo : f.lo + f.width ≤ 16) :
      RegsOnly (· = A.HKP_FEEDSTAT) y (y.put f n) ∧ (y.put f n).get F.HKP_FEEDSTAT_CHGCNT = y.get F.HKP_FEEDSTAT_CHGCNT :=
    ⟨RegsOnly.put hf, State.get_put_bits _ _ (by omega) (Or.inr hlo)⟩
  have hboth {y z w : State} (h : RegsOnly (· = A.HKP_FEEDSTAT) y z ∧ z.get F.HKP_FEEDSTAT_CHGCNT = y.get F.HKP_FEEDSTAT_CHGCNT)
      (k : RegsOnly (· = A.HKP_FEEDSTAT) z w ∧ w.get F.HKP_FEEDSTAT_CHGCNT = z.get F.HKP_FEEDSTAT_CHGCNT) :
      RegsOnly (· = A.HKP_FEEDSTAT) y w ∧ w.get F.HKP_FEEDSTAT_CHGCNT = y.get F.HKP_FEEDSTAT_CHGCNT := ⟨h.1.trans k.1, k.2.trans h.2⟩
  exact hboth (hboth (hboth (hboth (hput _ _ _ rfl (by decide)) (hput _ _ _ rfl (by decide))) (hput _ _ _ rfl (by decide)))
    (hput _ _ _ rfl (by decide))) (hput _ _ _ rfl (by decide))

/-- What ends every step of the feeds but the end of an overlap. -/
structure FeedClosed (s u : State) : Prop where
  hk : u.hk = s.hk
  regs : RegsBut [A.HKP_FEEDSTAT, A.EVT_TAGHWM, A.EVT_BPCNT] s u
  count : u.get F.HKP_FEEDSTAT_CHGCNT = s.get F.HKP_FEEDSTAT_CHGCNT

theorem State.feedShow_closed : FeedClosed s s.feedShow := by
  obtain ⟨hregs, hcount⟩ := State.feedShow_frame (s := s)
  exact ⟨hregs.hk, fun b hb => hregs.rd b fun e => hb (by rw [e]; decide), hcount⟩

theorem State.notify_feedShow_closed : FeedClosed s s.notify.feedShow := by
  have hn := State.notify_regsBut (s := s)
  have hk := ((HouseKept.refl (s := s)).notify).hk
  generalize s.notify = y at *
  have hc := State.feedShow_closed (s := y)
  exact ⟨hc.hk.trans hk, (hn.mono (by decide)).trans hc.regs, hc.count.trans (hn.get (by decide))⟩

/-- A changeover. -/
structure ChangedOver (new : Bool) (cause : Nat) (s u : State) : Prop where
  hk : u.hk = { s.hk with live := if new then .b else .a }
  count : u.get F.HKP_FEEDSTAT_CHGCNT = (s.get F.HKP_FEEDSTAT_CHGCNT + 1) % 65536
  newest : NewestFault u (fcode cSUPPLY 4) (b2n new + cause * 256)
  regs : RegsBut feedWords s u

theorem State.changeover_done (cause : Nat) : ChangedOver new cause s (s.changeover new cause) := by
  unfold State.changeover
  dsimp only
  have h0 : (s.modHk (fun h => { h with live := if new then .b else .a })).hk = { s.hk with live := if new then .b else .a }
      ∧ (s.modHk (fun h => { h with live := if new then .b else .a })).regs = s.regs := ⟨rfl, rfl⟩
  obtain ⟨hhk, hregs⟩ := h0
  generalize s.modHk (fun h => { h with live := if new then .b else .a }) = y at *
  have hb : (y.bump F.HKP_FEEDSTAT_CHGCNT).get F.HKP_FEEDSTAT_CHGCNT = (y.get F.HKP_FEEDSTAT_CHGCNT + 1) % 2 ^ 16 := State.get_put_same _ _ (by decide)
  have hbk : (y.bump F.HKP_FEEDSTAT_CHGCNT).hk = y.hk := rfl
  have hbr : RegsBut [A.HKP_FEEDSTAT] y (y.bump F.HKP_FEEDSTAT_CHGCNT) := (regsBut_put (f := F.HKP_FEEDSTAT_CHGCNT) (by decide)).mpr RegsBut.refl
  generalize y.bump F.HKP_FEEDSTAT_CHGCNT = z at *
  have hy : y.get F.HKP_FEEDSTAT_CHGCNT = s.get F.HKP_FEEDSTAT_CHGCNT := by unfold State.get State.rd; rw [hregs]
  have hrec : RegsBut evtWords z (z.record (fcode cSUPPLY 4) (b2n new + cause * 256)) := (regsBut_record (fun _ h => h)).mpr RegsBut.refl
  refine ⟨?_, ?_, State.newestFault_record, ?_⟩
  · rw [State.record_hk, hbk, hhk]
  · rw [hrec.get (by decide), hb, hy]
    rfl
  · exact (((RegsBut.refl.of_regs hregs).mono (List.nil_subset _)).trans (hbr.mono (by decide))).trans (hrec.mono (by decide))

/-- A feed with a condition set or cleared. -/
def FeedSt.cond (x : FeedSt) (c : FeedCond) (lvl : Bool) : FeedSt :=
  match c with
  | .uv => { x with uv := lvl }
  | .ov => { x with ov := lvl }
  | .rev => { x with rev := lvl }

/-- What a filtered condition makes of its feed. -/
def FeedSt.seen (x : FeedSt) (c : FeedCond) (lvl : Bool) (t : Tick) : FeedSt :=
  { x.cond c lvl with healthy := (x.cond c lvl).healthy && (x.cond c lvl).free, freeAt := if (x.cond c lvl).free && !x.free then t else x.freeAt }

/-- The condition is noted in its feed. -/
def State.feedSeen (s : State) (b : Bool) (c : FeedCond) (lvl : Bool) : State := s.modFeed b (fun x => x.seen c lvl s.now)

theorem State.feedCondition_eq (lvl : Bool) : s.feedCondition b c lvl
    = (if (s.feedSeen b c lvl).hk.feedsOn && lvl && (s.feedSeen b c lvl).isLive b then (s.feedSeen b c lvl).feedAct b c
        else if lvl && ((s.feedSeen b c lvl).feed b).bad then (s.feedSeen b c lvl).feedEn b false
        else s.feedSeen b c lvl).notify.feedShow := by
  cases c <;> rfl

/-- A step that keeps the registers, up to housekeeping. -/
structure FeedMoved (h : HkSt) (s u : State) : Prop where
  hk : u.hk = h
  regs : u.regs = s.regs
  now : u.now = s.now

theorem State.feedSeen_moved (lvl : Bool) : FeedMoved (s.hk.modFeed b (fun x => x.seen c lvl s.now)) s (s.feedSeen b c lvl) := ⟨rfl, rfl, rfl⟩

/-- The words and the count of changeovers that a step without a changeover leaves. -/
structure FeedQuiet (h : HkSt) (s u : State) : Prop where
  hk : u.hk = h
  regs : RegsBut feedWords s u
  count : u.get F.HKP_FEEDSTAT_CHGCNT = s.get F.HKP_FEEDSTAT_CHGCNT
  now : u.now = s.now

namespace FeedQuiet
variable {h h' : HkSt}

theorem refl : FeedQuiet s.hk s s := ⟨rfl, RegsBut.refl, rfl, rfl⟩

theorem trans (k : FeedQuiet h s u) (l : FeedQuiet h' u x) : FeedQuiet h' s x :=
  ⟨l.hk, k.regs.trans l.regs, l.count.trans k.count, l.now.trans k.now⟩

theorem moved (k : FeedQuiet h a s) (l : FeedMoved h' s u) : FeedQuiet h' a u := by
  refine ⟨l.hk, k.regs.of_regs l.regs, ?_, l.now.trans k.now⟩
  rw [← k.count]
  unfold State.get State.rd
  rw [l.regs]

theorem record (k : FeedQuiet h a s) (code ctx : Nat) : FeedQuiet h a (s.record code ctx) := by
  have hrec : RegsBut evtWords s (s.record code ctx) := (regsBut_record (fun _ h => h)).mpr RegsBut.refl
  exact ⟨(State.record_hk ..).trans k.hk, k.regs.trans (hrec.mono (by decide)), (hrec.get (by decide)).trans k.count,
    (RoundKept.refl.record code ctx).now.trans k.now⟩

theorem feedEn (k : FeedQuiet h a s) (b on : Bool) : FeedQuiet (h.setEn b (on && !(h.feedOf b).bad)) a (s.feedEn b on) :=
  k.moved ⟨by rw [State.feedEn_hk, k.hk], rfl, rfl⟩

theorem modHk (k : FeedQuiet h a s) (f : HkSt → HkSt) : FeedQuiet (f h) a (s.modHk f) := k.moved ⟨by rw [State.modHk_hk, k.hk], rfl, rfl⟩

end FeedQuiet

theorem State.feedEn_get (on : Bool) (f : Fld) : (s.feedEn b on).get f = s.get f := rfl

/-- A feed's EN goes high and the end of the overlap is set, before the changeover. -/
theorem State.feedSwap_done {h : HkSt} {cause : Nat} (k : FeedQuiet h a s) :
    ∃ y, FeedQuiet ((h.setEn new (!(h.feedOf new).bad)).overlap (some (a.now + (a.get F.HKP_FEEDCFG_OVL * 625 + 1) / 2, !new))) a y
      ∧ s.feedSwap new cause = y.changeover new cause := by
  refine ⟨(s.feedEn new true).modHk (fun h => h.overlap (some ((s.feedEn new true).now
    + ((s.feedEn new true).get F.HKP_FEEDCFG_OVL * 625 + 1) / 2, !new))), ?_, rfl⟩
  have hen := k.feedEn new true
  rw [Bool.true_and] at hen
  rw [hen.now, State.feedEn_get, k.regs.get (g := F.HKP_FEEDCFG_OVL) (by decide)]
  exact hen.modHk (fun h => h.overlap (some (a.now + (a.get F.HKP_FEEDCFG_OVL * 625 + 1) / 2, !new)))

/-- The step ends after a changeover. -/
structure Swapped (new : Bool) (cause : Nat) (h : HkSt) (a u : State) : Prop where
  hk : u.hk = { h with live := if new then .b else .a }
  count : u.get F.HKP_FEEDSTAT_CHGCNT = (a.get F.HKP_FEEDSTAT_CHGCNT + 1) % 65536
  newest : NewestFault u (fcode cSUPPLY 4) (b2n new + cause * 256)
  regs : RegsBut feedWords a u

namespace Swapped
variable {h : HkSt} {cause : Nat} {d : Bool}

theorem enOf (k : Swapped new cause h a u) : u.enOf d = h.enOf d := by
  rw [State.enOf_eq, k.hk]
  cases d <;> rfl

theorem live (k : Swapped new cause h a u) : u.hk.live = liveOf new := by
  rw [k.hk]
  rfl

theorem ovlEnd (k : Swapped new cause h a u) : u.hk.ovlEnd = h.ovlEnd := by rw [k.hk]

end Swapped

theorem FeedQuiet.swapped {h : HkSt} {cause : Nat} (k : FeedQuiet h a s) (hc : FeedClosed (s.changeover new cause) u) :
    Swapped new cause h a u := by
  obtain ⟨hhk, hcount, hnew, hregs⟩ := State.changeover_done (s := s) (new := new) cause
  generalize s.changeover new cause = z at *
  exact ⟨by rw [hc.hk, hhk, k.hk], by rw [hc.count, hcount, k.count], hnew.regsBut hc.regs (by decide) (by decide),
    (k.regs.trans hregs).trans (hc.regs.mono (by decide))⟩

theorem liveOf_isLive (h : s.hk.live = liveOf b) : s.isLive b = true := by
  rw [State.isLive, h]
  cases b <;> rfl

/-- The live feed shows under-voltage, and the other one is good. -/
theorem State.feedAct_uv (hl : s.hk.live = liveOf b) (hok : (s.feed (!b)).healthy = true) :
    s.feedAct b .uv = (s.record (fcode cSUPPLY 1) (b2n b)).feedSwap (!b) 1 := by
  unfold State.feedAct
  rw [hl, hok]
  cases b <;> exact if_pos rfl

/-- The live feed shows another condition, and the other one is good. -/
theorem State.feedAct_swap (hl : s.hk.live = liveOf b) (hok : (s.feed (!b)).healthy = true) (hc : c ≠ .uv) :
    s.feedAct b c = ((((s.record (fcode cSUPPLY c.detail) (b2n b)).feedEn (!b) true).feedEn b false).modHk
      (fun h => h.overlap none)).changeover (!b) c.detail := by
  unfold State.feedAct
  rw [hl, hok]
  cases c with
  | uv => exact absurd rfl hc
  | ov => cases b <;> exact if_pos rfl
  | rev => cases b <;> exact if_pos rfl

/-- The live feed shows another condition, and the other one is not good. -/
theorem State.feedAct_alone (hl : s.hk.live = liveOf b) (hok : (s.feed (!b)).healthy = false) (hc : c ≠ .uv) :
    s.feedAct b c = (s.feedEn b false).record (fcode cSUPPLY 5) 0 := by
  unfold State.feedAct
  rw [hl, hok]
  cases c with
  | uv => exact absurd rfl hc
  | ov => cases b <;> exact if_neg Bool.false_ne_true
  | rev => cases b <;> exact if_neg Bool.false_ne_true

/-- A condition of the live feed acts. -/
theorem State.feedCondition_live (hf : s.hk.feedsOn = true) (hl : s.hk.live = liveOf b) :
    s.feedCondition b c true = ((s.feedSeen b c true).feedAct b c).notify.feedShow := by
  have hm := State.feedSeen_moved (s := s) (b := b) (c := c) true
  rw [State.feedCondition_eq, if_pos]
  rw [liveOf_isLive (by rw [hm.hk, HkSt.modFeed_live]; exact hl), hm.hk, HkSt.modFeed_feedsOn, hf]
  rfl

/-- A condition that ends acts on its feed alone. -/
theorem State.feedCondition_ends : s.feedCondition b c false = (s.feedSeen b c false).notify.feedShow := by
  rw [State.feedCondition_eq, Bool.and_false, Bool.false_and, Bool.false_and, if_neg (by decide), if_neg (by decide)]

end Steps

section Feeds
variable {s a u : State} {b : Bool} {c : FeedCond}

theorem feedCond_ends : FeedQuiet (a.hk.modFeed b (fun x => x.seen c false a.now)) a (a.feedCondition b c false)
    ∧ RegsBut [A.HKP_FEEDSTAT, A.EVT_TAGHWM, A.EVT_BPCNT] a (a.feedCondition b c false) := by
  have hm := State.feedSeen_moved (s := a) (b := b) (c := c) false
  rw [State.feedCondition_ends]
  generalize a.feedSeen b c false = x at *
  have hc := State.notify_feedShow_closed (s := x)
  have hnow : x.notify.feedShow.now = x.now := by
    rw [State.feedShow_frame.1.now, ((HouseKept.refl (s := x)).notify).now]
  generalize x.notify.feedShow = u at *
  have hregs : RegsBut [A.HKP_FEEDSTAT, A.EVT_TAGHWM, A.EVT_BPCNT] a u := (RegsBut.refl.of_regs hm.regs).trans hc.regs
  have hcount : x.get F.HKP_FEEDSTAT_CHGCNT = a.get F.HKP_FEEDSTAT_CHGCNT := by unfold State.get State.rd; rw [hm.regs]
  exact ⟨⟨hc.hk.trans hm.hk, hregs.mono (by decide), hc.count.trans hcount, hnow.trans hm.now⟩, hregs⟩

theorem feedCond_uv (hf : a.hk.feedsOn = true) (hl : a.hk.live = liveOf b) (hok : (a.feed (!b)).healthy = true) :
    Swapped (!b) 1 (((a.hk.modFeed b (fun x => x.seen .uv true a.now)).setEn (!b) (!(a.feed (!b)).bad)).overlap
      (some (a.now + (a.get F.HKP_FEEDCFG_OVL * 625 + 1) / 2, b))) a (a.feedCondition b .uv true) := by
  have hm := State.feedSeen_moved (s := a) (b := b) (c := .uv) true
  rw [State.feedCondition_live hf hl, State.feedAct_uv (by rw [hm.hk, HkSt.modFeed_live]; exact hl)
    (by rw [State.feed_eq, hm.hk, HkSt.modFeed_other]; exact hok)]
  have hq := (FeedQuiet.refl.moved hm).record (fcode cSUPPLY 1) (b2n b)
  generalize (a.feedSeen b .uv true).record (fcode cSUPPLY 1) (b2n b) = x at *
  obtain ⟨y, hy, heq⟩ := State.feedSwap_done (new := !b) (cause := 1) hq
  rw [heq]
  have h := hy.swapped (new := !b) (cause := 1) State.notify_feedShow_closed
  rwa [HkSt.modFeed_other, Bool.not_not] at h

theorem feedCond_swap (hf : a.hk.feedsOn = true) (hl : a.hk.live = liveOf b) (hok : (a.feed (!b)).healthy = true) (hc : c ≠ .uv) :
    Swapped (!b) c.detail ((((a.hk.modFeed b (fun x => x.seen c true a.now)).setEn (!b) (!(a.feed (!b)).bad)).setEn b false).overlap none)
      a (a.feedCondition b c true) := by
  have hm := State.feedSeen_moved (s := a) (b := b) (c := c) true
  rw [State.feedCondition_live hf hl, State.feedAct_swap (by rw [hm.hk, HkSt.modFeed_live]; exact hl)
    (by rw [State.feed_eq, hm.hk, HkSt.modFeed_other]; exact hok) hc]
  have hq := (FeedQuiet.refl.moved hm).record (fcode cSUPPLY c.detail) (b2n b)
  generalize (a.feedSeen b c true).record (fcode cSUPPLY c.detail) (b2n b) = x at *
  have hen := ((hq.feedEn (!b) true).feedEn b false).modHk (fun h => h.overlap none)
  have h := hen.swapped (new := !b) (cause := c.detail) State.notify_feedShow_closed
  rwa [HkSt.modFeed_other, Bool.true_and, Bool.false_and] at h

theorem feedCond_alone (hf : a.hk.feedsOn = true) (hl : a.hk.live = liveOf b) (hok : (a.feed (!b)).healthy = false) (hc : c ≠ .uv) :
    (a.feedCondition b c true).hk = (a.hk.modFeed b (fun x => x.seen c true a.now)).setEn b false
    ∧ NewestFault (a.feedCondition b c true) (fcode cSUPPLY 5) 0 := by
  have hm := State.feedSeen_moved (s := a) (b := b) (c := c) true
  rw [State.feedCondition_live hf hl, State.feedAct_alone (by rw [hm.hk, HkSt.modFeed_live]; exact hl)
    (by rw [State.feed_eq, hm.hk, HkSt.modFeed_other]; exact hok) hc]
  have hq := ((FeedQuiet.refl.moved hm).feedEn b false).record (fcode cSUPPLY 5) 0
  have hnew := State.newestFault_record (s := (a.feedSeen b c true).feedEn b false) (code := fcode cSUPPLY 5) (ctx := 0)
  generalize ((a.feedSeen b c true).feedEn b false).record (fcode cSUPPLY 5) 0 = x at *
  have hclosed := State.notify_feedShow_closed (s := x)
  exact ⟨hclosed.hk.trans hq.hk, hnew.regsBut hclosed.regs (by decide) (by decide)⟩

theorem feedRevert_done (hr : a.bit F.HKP_FEEDCFG_REVERT = true) (hf : a.hk.feedsOn = true) (hp : a.bit F.HKP_FEEDCFG_PREF = !b)
    (hl : a.hk.live = liveOf b) (hok : (a.feed (!b)).healthy = true) (hat : (a.feed (!b)).healthyAt + 312500000 ≤ a.now) :
    Swapped (!b) 0 ((a.hk.setEn (!b) (!(a.feed (!b)).bad)).overlap (some (a.now + (a.get F.HKP_FEEDCFG_OVL * 625 + 1) / 2, b)))
      a a.feedRevert := by
  have heq : a.feedRevert = (a.feedSwap (!b) 0).feedShow := by
    unfold State.feedRevert
    dsimp only
    rw [hr, hf, hp, hl, hok, decide_eq_true (show (a.feed (!b)).healthyAt + ticksPerSec ≤ a.now from hat)]
    cases b <;> exact if_pos rfl
  obtain ⟨y, hy, hswap⟩ := State.feedSwap_done (new := !b) (cause := 0) (FeedQuiet.refl (s := a))
  rw [heq, hswap]
  have h := hy.swapped (new := !b) (cause := 0) State.feedShow_closed
  rwa [Bool.not_not] at h

theorem feedOverlapEnd_done {t0 : Tick} (ho : a.hk.ovlEnd = some (t0, b)) (ht : t0 ≤ a.now) :
    a.feedOverlapEnd.hk = (a.hk.setEn b false).overlap none ∧ RegsBut [A.HKP_FEEDSTAT] a a.feedOverlapEnd := by
  unfold State.feedOverlapEnd
  rw [ho]
  dsimp only
  rw [if_pos ht]
  have hq := (FeedQuiet.refl.feedEn (s := a) b false).modHk (fun h => h.overlap none)
  have hregs : ((a.feedEn b false).modHk (fun h => h.overlap none)).regs = a.regs := rfl
  have heq : (a.feedEn b false).modHk (fun h => { h with ovlEnd := none }) = (a.feedEn b false).modHk (fun h => h.overlap none) := rfl
  rw [heq]
  generalize (a.feedEn b false).modHk (fun h => h.overlap none) = x at *
  obtain ⟨hshow, -⟩ := State.feedShow_frame (s := x)
  exact ⟨hshow.hk.trans hq.hk, (RegsBut.refl.of_regs hregs).trans fun b hb => hshow.rd b fun e => hb (List.mem_singleton.mpr e)⟩

theorem feedHealthy_done (hf : (a.feed b).free = true) (hh : (a.feed b).healthy = false) (ht : (a.feed b).freeAt + 3125000 ≤ a.now) :
    (a.feedHealthy b).hk = a.hk.modFeed b (fun x => { x with healthy := true, healthyAt := a.now })
    ∧ RegsBut [A.HKP_FEEDSTAT] a (a.feedHealthy b) := by
  unfold State.feedHealthy
  dsimp only
  rw [hf, hh, decide_eq_true (show (a.feed b).freeAt + 10 * ticksPerMs ≤ a.now from ht),
    if_pos (show (true && !false && true) = true from rfl)]
  have hm : FeedMoved (a.hk.modFeed b (fun x => { x with healthy := true, healthyAt := a.now })) a
      (a.modFeed b (fun x => { x with healthy := true, healthyAt := a.now })) := ⟨rfl, rfl, rfl⟩
  generalize a.modFeed b (fun x => { x with healthy := true, healthyAt := a.now }) = x at *
  obtain ⟨hshow, -⟩ := State.feedShow_frame (s := x)
  exact ⟨hshow.hk.trans hm.hk, (RegsBut.refl.of_regs hm.regs).trans fun b hb => hshow.rd b fun e => hb (List.mem_singleton.mpr e)⟩

end Feeds

theorem cabinetFeeds : Part.CabinetFeeds := by
  intro s t b c
  dsimp only
  refine ⟨fun hturn => ⟨_, exec_any rfl (State.act.eq_def ..) hturn, ?_⟩,
    fun hf hl hok hbad => ⟨fun hturn => ⟨_, exec_any rfl (State.act.eq_def ..) hturn, ?_⟩,
      fun hc hturn => ⟨_, exec_any rfl (State.act.eq_def ..) hturn, ?_⟩⟩,
    fun hf hl hok hc hturn => ⟨_, exec_any rfl (State.act.eq_def ..) hturn, ?_⟩,
    fun t0 ho ht hturn => ⟨_, exec_any rfl (State.act.eq_def ..) hturn, ?_⟩,
    fun hf hh ht hturn => ⟨_, exec_any rfl (State.act.eq_def ..) hturn, ?_⟩,
    fun hr hf hp hl hok hbad hat hturn => ⟨_, exec_any rfl (State.act.eq_def ..) hturn, ?_⟩⟩
  all_goals generalize s.advance t = a at *
  case refine_1 =>
    obtain ⟨hq, hregs⟩ := feedCond_ends (a := a) (b := b) (c := c)
    generalize a.feedCondition b c false = u at *
    simp only [State.enOf_eq, State.feed_eq, hq.hk, HkSt.modFeed_live, HkSt.modFeed_enOf, HkSt.modFeed_other, HkSt.modFeed_same]
    refine ⟨trivial, trivial, trivial, trivial, hregs, ?_⟩
    cases c <;> rfl
  case refine_2 =>
    have h := feedCond_uv hf hl hok
    generalize a.feedCondition b .uv true = u at *
    refine ⟨⟨h.live, ?_, h.count, h.newest, h.regs⟩, ?_, h.ovlEnd⟩
    · rw [h.enOf, HkSt.overlap_enOf, HkSt.setEn_same, hbad]
      rfl
    · rw [h.enOf, HkSt.overlap_enOf, HkSt.setEn_other', HkSt.modFeed_enOf, State.enOf_eq]
  case refine_3 =>
    have h := feedCond_swap hf hl hok hc
    generalize a.feedCondition b c true = u at *
    have hnew := h.newest
    refine ⟨⟨h.live, ?_, h.count, ?_, h.regs⟩, ?_, h.ovlEnd⟩
    · rw [h.enOf, HkSt.overlap_enOf, HkSt.setEn_other, HkSt.setEn_same, hbad]
      rfl
    · cases c <;> exact hnew
    · rw [h.enOf, HkSt.overlap_enOf, HkSt.setEn_same]
  case refine_4 =>
    obtain ⟨hhk, hnew⟩ := feedCond_alone hf hl hok hc
    generalize a.feedCondition b c true = u at *
    simp only [State.enOf_eq, hhk, HkSt.setEn_same, HkSt.setEn_live, HkSt.modFeed_live]
    exact ⟨trivial, trivial, hnew⟩
  case refine_5 =>
    obtain ⟨hhk, hregs⟩ := feedOverlapEnd_done ho ht
    generalize a.feedOverlapEnd = u at *
    simp only [State.enOf_eq, hhk, HkSt.overlap_enOf, HkSt.setEn_same, HkSt.setEn_other, HkSt.overlap_ovlEnd]
    exact ⟨trivial, trivial, trivial, hregs⟩
  case refine_6 =>
    obtain ⟨hhk, hregs⟩ := feedHealthy_done hf hh ht
    generalize a.feedHealthy b = u at *
    simp only [State.feed_eq, hhk, HkSt.modFeed_same, HkSt.modFeed_other]
    exact ⟨trivial, trivial, trivial, hregs⟩
  case refine_7 =>
    have h := feedRevert_done hr hf hp hl hok hat
    generalize a.feedRevert = u at *
    refine ⟨⟨h.live, ?_, h.count, h.newest, h.regs⟩, h.ovlEnd⟩
    rw [h.enOf, HkSt.overlap_enOf, HkSt.setEn_same, hbad]
    rfl

/-! ## The thermal shut-down -/

section Shutdown
variable {a s : State} {x : ShutSt} {r : FlsRun}

/-- The shut-down as housekeeping holds it. -/
def State.shutAt (s : State) (x : ShutSt) : State := s.modHk (fun h => { h with shut := some x })

/-- The retained record of an aborted operation. -/
def State.abortRec (s : State) (addr : Nat) : State :=
  { s with shutRec := { s.shutRec with aborted := true, abortAt := s.tim.dev, abortAddr := addr } }

/-- The operation of the flash port is abandoned. -/
def State.flsAbandon (s : State) : State := (s.modSer (fun y => { y with run := none })).busReset.flsStat

theorem State.flsAbandon_kept : s.flsAbandon.ser.run = none ∧ s.flsAbandon.shutRec = s.shutRec ∧ s.flsAbandon.tim = s.tim := by
  unfold State.flsAbandon State.busReset
  have h0 : (s.modSer (fun y => { y with run := none })).ser.run = none := rfl
  have h1 : (s.modSer (fun y => { y with run := none })).shutRec = s.shutRec ∧ (s.modSer (fun y => { y with run := none })).tim = s.tim := ⟨rfl, rfl⟩
  generalize s.modSer (fun y => { y with run := none }) = y at *
  have h2 (l : List FlsTxn) : (y.busSet l).ser.run = y.ser.run ∧ (y.busSet l).shutRec = y.shutRec ∧ (y.busSet l).tim = y.tim := ⟨rfl, rfl, rfl⟩
  generalize [y.oneLane 0x66 none [] 0, y.oneLane 0x99 none [] 0] = l
  obtain ⟨hser, hrec, htim⟩ := h2 l
  generalize y.busSet l = z at *
  obtain ⟨-, regs, hz⟩ := z.flsStat_kept
  have h3 : ({ z with regs := regs } : State).ser = z.ser ∧ ({ z with regs := regs } : State).shutRec = z.shutRec
      ∧ ({ z with regs := regs } : State).tim = z.tim := ⟨rfl, rfl, rfl⟩
  rw [← hz] at h3
  exact ⟨by rw [h3.1, hser, h0], by rw [h3.2.1, hrec, h1.1], by rw [h3.2.2, htim, h1.2]⟩

/-- The abandoned operation is shown and recorded. -/
def State.abortShow (s : State) (addr : Nat) : State := (s.shutShow.raise F.SER_FLSSTAT_ABORT).record (fcode 0xF 6) addr

theorem State.raise_kept {f : Fld} : (s.raise f).ser = s.ser ∧ (s.raise f).shutRec = s.shutRec := ⟨rfl, rfl⟩

theorem State.shutShow_kept : s.shutShow.ser = s.ser ∧ s.shutShow.shutRec = s.shutRec := by
  obtain ⟨regs, h⟩ := s.shutShow_frame
  rw [h]
  exact ⟨rfl, rfl⟩

theorem State.abortShow_shows (addr : Nat) : (s.abortShow addr).ser = s.ser ∧ (s.abortShow addr).shutRec = s.shutRec
    ∧ (s.abortShow addr).get F.SER_FLSSTAT_ABORT = 1 ∧ NewestFault (s.abortShow addr) 0x0F06 addr := by
  unfold State.abortShow
  obtain ⟨hser, hrec⟩ := State.shutShow_kept (s := s)
  generalize s.shutShow = d at *
  obtain ⟨hser', hrec'⟩ := State.raise_kept (s := d) (f := F.SER_FLSSTAT_ABORT)
  have habort : (d.raise F.SER_FLSSTAT_ABORT).get F.SER_FLSSTAT_ABORT = 1 := State.get_raise_same _ (by decide) rfl
  generalize d.raise F.SER_FLSSTAT_ABORT = e at *
  have hkept := (RoundKept.refl (s := e)).record (fcode 0xF 6) addr
  exact ⟨by rw [hkept.ser, hser', hser], by rw [hkept.rec_, hrec', hrec], by rw [hkept.get (by decide), habort], State.newestFault_record⟩

theorem State.abortRec_kept (x : ShutSt) (addr : Nat) : ((s.shutAt x).abortRec addr).ser = s.ser
    ∧ ((s.shutAt x).abortRec addr).shutRec = { s.shutRec with aborted := true, abortAt := s.tim.dev, abortAddr := addr } := ⟨rfl, rfl⟩

theorem State.graceExpiry_eq (hs : a.hk.shut = some x) (hr : a.ser.run = some r) (ht : x.td + a.get F.HKP_SHDCFG_GRACE * 156250 ≤ a.now) :
    ∃ y, a.graceExpiry = ((a.flsAbandon.shutAt y).abortRec r.op.range.1).abortShow r.op.range.1 := by
  refine ⟨{ x with aborted := true, flashEnd := a.flsAbandon.now + 31250 }, ?_⟩
  unfold State.graceExpiry
  rw [hs, hr]
  exact if_neg fun h => h.elim Bool.false_ne_true (Nat.not_lt_of_le ht)

theorem State.graceExpiry_done (hs : a.hk.shut = some x) (hr : a.ser.run = some r) (ht : x.td + a.get F.HKP_SHDCFG_GRACE * 156250 ≤ a.now) :
    a.graceExpiry.ser.run = none ∧ a.graceExpiry.get F.SER_FLSSTAT_ABORT = 1 ∧ NewestFault a.graceExpiry 0x0F06 r.op.range.1
    ∧ a.graceExpiry.shutRec = { a.shutRec with aborted := true, abortAt := a.tim.dev, abortAddr := r.op.range.1 } := by
  obtain ⟨y, heq⟩ := State.graceExpiry_eq hs hr ht
  rw [heq]
  obtain ⟨hrun, hrec, htim⟩ := State.flsAbandon_kept (s := a)
  generalize a.flsAbandon = b at *
  obtain ⟨hser', hrec'⟩ := State.abortRec_kept (s := b) y r.op.range.1
  generalize (b.shutAt y).abortRec r.op.range.1 = c at *
  obtain ⟨hser'', hrec'', habort, hnew⟩ := State.abortShow_shows (s := c) r.op.range.1
  generalize c.abortShow r.op.range.1 = u at *
  exact ⟨by rw [hser'', hser', hrun], habort, hnew, by rw [hrec'', hrec', hrec, htim]⟩

/-- The gates of a leg are low. -/
def State.lowAt (s : State) (n : Fin 72) : Prop := (s.leg n).gh = false ∧ (s.leg n).gl = false ∧ (s.leg n).gm = false

theorem State.modLeg_low (n : Fin 72) {g : LegSt → LegSt} (h : (g (s.leg n)).gh = false ∧ (g (s.leg n)).gl = false ∧ (g (s.leg n)).gm = false) :
    (s.modLeg n g).lowAt n := by
  have hself : (s.modLeg n g).leg n = g (s.leg n) := Vector.getElem_set_self ..
  unfold State.lowAt
  rwa [hself]

theorem State.modLeg_low_other {n m : Fin 72} {g : LegSt → LegSt} (hm : m ≠ n) (h : s.lowAt n) : (s.modLeg m g).lowAt n := by
  have hother : (s.modLeg m g).leg n = s.leg n := Vector.getElem_set_ne m.isLt n.isLt (fun e => hm (Fin.ext e))
  unfold State.lowAt
  rwa [hother]

theorem State.gatesLow_low : s.gatesLow.allLow := by
  intro n
  unfold State.gatesLow
  exact each_once (P := fun _ => True) (Q := fun s => s.lowAt n) (List.nodup_finRange 72) (List.mem_finRange n) (fun _ _ _ _ => trivial)
    (fun s _ => State.modLeg_low n ⟨rfl, rfl, rfl⟩) (fun j hj s h => State.modLeg_low_other hj h) s trivial

theorem State.allLow.of_legs {u : State} (h : s.allLow) (e : u.legs = s.legs) : u.allLow := by
  intro n
  have hn := h n
  unfold State.leg at hn ⊢
  rwa [e]

theorem State.gatesLow_regs : s.gatesLow.regs = s.regs := by
  unfold State.gatesLow
  exact each_keeps (fun u => u.regs = s.regs) _ _ (fun _ _ _ h => (State.modLeg_regs ..).trans h) s rfl

/-- The clocks stand. -/
def State.clocksOff (s : State) : State := s.modTim (fun t => { t with stopped := true, linksIdle := true })

theorem State.clocksOff_kept : s.clocksOff.tim.stopped = true ∧ s.clocksOff.tim.linksIdle = true ∧ s.clocksOff.legs = s.legs
    ∧ s.clocksOff.regs = s.regs := ⟨rfl, rfl, rfl, rfl⟩

theorem State.clockStop_eq (hs : a.hk.shut = some x) (hn : a.tim.stopped = false) (ht : x.td + 4096 ≤ a.now) (hr : a.ser.run = none)
    (he : x.aborted = true → x.flashEnd ≤ a.now) :
    ∃ y, a.clockStop = (a.gatesLow.clocksOff.putB F.YOK_STAT_ACTOUT false).shutAt y := by
  refine ⟨{ x with flashDone := true }, ?_⟩
  unfold State.clockStop
  rw [hs, hn, hr]
  refine if_neg fun h => ?_
  obtain h | h | h | ⟨h, h'⟩ := h
  · exact Bool.false_ne_true h
  · exact Nat.not_lt_of_le ht h
  · exact Bool.false_ne_true h
  · exact Nat.not_lt_of_le (he h) h'

theorem State.putB_kept {f : Fld} {v : Bool} : (s.putB f v).tim = s.tim ∧ (s.putB f v).legs = s.legs := ⟨rfl, rfl⟩

theorem State.shutAt_kept : (s.shutAt x).tim = s.tim ∧ (s.shutAt x).legs = s.legs ∧ (s.shutAt x).regs = s.regs := ⟨rfl, rfl, rfl⟩

/-- ACT_OUT is shown as low, and the shut-down goes on. -/
theorem State.actOutLow : ((s.putB F.YOK_STAT_ACTOUT false).shutAt x).tim = s.tim ∧ ((s.putB F.YOK_STAT_ACTOUT false).shutAt x).legs = s.legs
    ∧ ((s.putB F.YOK_STAT_ACTOUT false).shutAt x).get F.YOK_STAT_ACTOUT = 0
    ∧ RegsBut [A.YOK_STAT] s ((s.putB F.YOK_STAT_ACTOUT false).shutAt x) := by
  obtain ⟨htim, hlegs⟩ := State.putB_kept (s := s) (f := F.YOK_STAT_ACTOUT) (v := false)
  have hget : (s.putB F.YOK_STAT_ACTOUT false).get F.YOK_STAT_ACTOUT = 0 := State.get_put_same s _ (f := F.YOK_STAT_ACTOUT) (by decide)
  have hregs : RegsBut [A.YOK_STAT] s (s.putB F.YOK_STAT_ACTOUT false) := (regsBut_put (f := F.YOK_STAT_ACTOUT) (by decide)).mpr RegsBut.refl
  generalize s.putB F.YOK_STAT_ACTOUT false = d at *
  obtain ⟨htim', hlegs', hregs'⟩ := State.shutAt_kept (s := d) (x := x)
  generalize d.shutAt x = u at *
  have hget' : u.get F.YOK_STAT_ACTOUT = d.get F.YOK_STAT_ACTOUT := (RegsBut.refl.of_regs (l := []) hregs').get List.not_mem_nil
  exact ⟨htim'.trans htim, hlegs'.trans hlegs, hget'.trans hget, hregs.of_regs hregs'⟩

theorem State.clockStop_done (hs : a.hk.shut = some x) (hn : a.tim.stopped = false) (ht : x.td + 4096 ≤ a.now) (hr : a.ser.run = none)
    (he : x.aborted = true → x.flashEnd ≤ a.now) :
    a.clockStop.tim.stopped = true ∧ a.clockStop.tim.linksIdle = true ∧ a.clockStop.allLow ∧ a.clockStop.get F.YOK_STAT_ACTOUT = 0
    ∧ RegsBut [A.YOK_STAT] a a.clockStop := by
  obtain ⟨y, heq⟩ := State.clockStop_eq hs hn ht hr he
  have hlast := State.actOutLow (s := a.gatesLow.clocksOff) (x := y)
  rw [← heq] at hlast
  have hlow := State.gatesLow_low (s := a)
  have hregs := State.gatesLow_regs (s := a)
  have hoff := State.clocksOff_kept (s := a.gatesLow)
  generalize a.clockStop = u at *
  clear heq hs hn ht hr he
  generalize a.gatesLow.clocksOff = c at *
  generalize a.gatesLow = b at *
  obtain ⟨htim, hlegs', hact, hlast⟩ := hlast
  obtain ⟨hstop, hidle, hlegs, hregs'⟩ := hoff
  exact ⟨by rw [htim, hstop], by rw [htim, hidle], hlow.of_legs (hlegs'.trans hlegs), hact, (RegsBut.refl.of_regs (hregs'.trans hregs)).trans hlast⟩

end Shutdown

theorem shutdownSteps : Part.ShutdownSteps := by
  intro s t x
  dsimp only
  intro hs
  refine ⟨fun r hr ht hturn => ⟨_, exec_any rfl (State.act.eq_def ..) hturn, ?_⟩,
    fun hn ht hr he hturn => ⟨(s.advance t).clockStop, exec_any rfl (State.act.eq_def ..) hturn, ?_⟩⟩
  all_goals generalize s.advance t = a at *
  · exact State.graceExpiry_done hs hr ht
  · exact State.clockStop_done hs hn ht hr he

/-- Settles O56. The shut-down is two steps of what the flash port and the clocks do; the feeds are followed as housekeeping
holds them (EN of each, the live one, the end of the overlap), each step by its own lemma over that record. -/
theorem shutdownAndFeeds : Obligations.ShutdownAndFeeds := ⟨shutdownSteps, cabinetFeeds⟩

end Sys2Proof.Machine
end

section
/-!
PROOFS. Chapter 12: the clearing of trips, and SAFE_N.
-/
namespace Sys2Proof.Machine

section Sources
variable {a s u : State} {n : Fin 72}

/-! ## The sources of trips beside a tag -/

/-- What the sources of trips and their scopes are read from. -/
structure SameSources (s u : State) : Prop where
  cmps : u.cmps = s.cmps
  sdmTrips : u.sdmTrips = s.sdmTrips
  tins : u.tins = s.tins
  legs : u.legs = s.legs
  load : u.load = s.load
  teams : u.teams = s.teams
  now : u.now = s.now
  get : ∀ f : Fld, f.addr < 0x120000 → u.get f = s.get f

theorem State.tagged_sameSources : SameSources s s.tagged := by
  have hget (f : Fld) (hf : f.addr < 0x120000) : s.tagged.get f = s.get f :=
    State.get_tagSet_word _ _ fun e => Nat.not_lt_of_le (Nat.le_of_ble_eq_true rfl) (e ▸ hf)
  obtain ⟨_, _, h⟩ := s.tagSet_frame (s.tagsUse + 1)
  have hparts : s.tagged.cmps = s.cmps ∧ s.tagged.sdmTrips = s.sdmTrips ∧ s.tagged.tins = s.tins ∧ s.tagged.legs = s.legs
      ∧ s.tagged.load = s.load ∧ s.tagged.teams = s.teams ∧ s.tagged.now = s.now := by
    rw [State.tagged, h]
    exact ⟨rfl, rfl, rfl, rfl, rfl, rfl, rfl⟩
  obtain ⟨h1, h2, h3, h4, h5, h6, h7⟩ := hparts
  exact ⟨h1, h2, h3, h4, h5, h6, h7, hget⟩

namespace SameSources

theorem srcFilt (h : SameSources s u) (src : TripSrc) (c : Cond) : u.srcFilt src c = s.srcFilt src c := by
  unfold State.srcFilt
  rw [h.cmps, h.sdmTrips, h.tins]

theorem cmpPath (h : SameSources s u) (k : Fin 96) (c : Cond) : u.cmpPath k c = s.cmpPath k c := by
  cases c with
  | h => exact h.get _ (by simp only [F.CMP_MAP_PATH_H, A.CMP_MAP]; omega)
  | l => exact h.get _ (by simp only [F.CMP_MAP_PATH_L, A.CMP_MAP]; omega)

theorem cmpMode (h : SameSources s u) (k : Fin 96) : u.cmpMode k = s.cmpMode k :=
  h.get _ (by simp only [F.CMP_CFG_MODE, A.CMP_CFG]; omega)

theorem srcAsserted (h : SameSources s u) (src : TripSrc) (c : Cond) : u.srcAsserted src c = s.srcAsserted src c := by
  cases src <;> simp only [State.srcAsserted, State.isFast, State.isFiltered, h.srcFilt, h.cmpPath, h.cmpMode, h.now]

theorem namedLegs (h : SameSources s u) (t : Fin 24) : u.namedLegs t = s.namedLegs t := by
  unfold State.namedLegs State.legSlots
  rw [h.get (F.TEAM_LEGMAP0_S0 t) (by simp only [F.TEAM_LEGMAP0_S0, A.TEAM_LEGMAP0]; omega),
    h.get (F.TEAM_LEGMAP0_S1 t) (by simp only [F.TEAM_LEGMAP0_S1, A.TEAM_LEGMAP0]; omega),
    h.get (F.TEAM_LEGMAP0_S2 t) (by simp only [F.TEAM_LEGMAP0_S2, A.TEAM_LEGMAP0]; omega),
    h.get (F.TEAM_LEGMAP0_S3 t) (by simp only [F.TEAM_LEGMAP0_S3, A.TEAM_LEGMAP0]; omega),
    h.get (F.TEAM_LEGMAP1_S0 t) (by simp only [F.TEAM_LEGMAP1_S0, A.TEAM_LEGMAP1]; omega),
    h.get (F.TEAM_LEGMAP1_S1 t) (by simp only [F.TEAM_LEGMAP1_S1, A.TEAM_LEGMAP1]; omega),
    h.get (F.TEAM_CFG_NLEG t) (by simp only [F.TEAM_CFG_NLEG, A.TEAM_CFG]; omega)]

theorem scopeCalc (h : SameSources s u) (x leg mask : Nat) : u.scopeCalc x leg mask = s.scopeCalc x leg mask := by
  unfold State.scopeCalc State.team
  simp only [h.namedLegs, h.load, h.teams]

theorem cmpScopeNow (h : SameSources s u) (k : Fin 96) : u.cmpScopeNow k = s.cmpScopeNow k := by
  unfold State.cmpScopeNow
  rw [h.scopeCalc, h.get (F.CMP_MAP_SCOPE k) (by simp only [F.CMP_MAP_SCOPE, A.CMP_MAP]; omega),
    h.get (F.CMP_MAP_LEG k) (by simp only [F.CMP_MAP_LEG, A.CMP_MAP]; omega),
    h.get (F.CMP_TEAMS_TEAMS k) (by simp only [F.CMP_TEAMS_TEAMS, A.CMP_TEAMS]; omega)]

theorem sdmScopeNow (h : SameSources s u) (c : Fin 144) : u.sdmScopeNow c = s.sdmScopeNow c := by
  unfold State.sdmScopeNow
  rw [h.scopeCalc, h.get (F.PRT_SDMMAP_SCOPE c) (by simp only [F.PRT_SDMMAP_SCOPE, A.PRT_SDMMAP]; omega),
    h.get (F.PRT_SDMMAP_LEG c) (by simp only [F.PRT_SDMMAP_LEG, A.PRT_SDMMAP]; omega),
    h.get (F.PRT_SDMTEAMS_TEAMS c) (by simp only [F.PRT_SDMTEAMS_TEAMS, A.PRT_SDMTEAMS]; omega)]

theorem tinScopeNow (h : SameSources s u) (i : Fin 8) : u.tinScopeNow i = s.tinScopeNow i := by
  unfold State.tinScopeNow
  rw [h.scopeCalc, h.get (F.PRT_TINCFG_SCOPE i) (by simp only [F.PRT_TINCFG_SCOPE, A.PRT_TINCFG]; omega),
    h.get (F.PRT_TINCFG_LEG i) (by simp only [F.PRT_TINCFG_LEG, A.PRT_TINCFG]; omega),
    h.get (F.PRT_TINTEAMS_TEAMS i) (by simp only [F.PRT_TINTEAMS_TEAMS, A.PRT_TINTEAMS]; omega)]

theorem scope (h : SameSources s u) (src : TripSrc) : u.scope src = s.scope src := by
  cases src <;> simp only [State.scope, h.cmps, h.sdmTrips, h.tins, h.load, h.cmpScopeNow, h.sdmScopeNow, h.tinScopeNow]

theorem clearable (h : SameSources s u) : u.clearable n = s.clearable n := by
  unfold State.clearable State.legSrcActive State.leg
  simp only [h.srcAsserted, h.scope, h.legs, h.now]

end SameSources
end Sources

/-! ## The clearing of a trip -/

section Clears
variable {a s u : State} {n k : Fin 72} {m : Master}

/-- The latch of a leg is released. -/
structure Released (n : Fin 72) (s u : State) : Prop where
  latched : (u.leg n).latched = false
  shown : u.get (F.LEG_TRIPSTAT_LATCHED n) = 0
  pending : u.get (F.LEG_TRIPSTAT_CLR_PEND n) = 0
  others : ∀ k, k ≠ n → u.leg k = s.leg k

theorem State.leg_modLeg_same (g : LegSt → LegSt) : (s.modLeg n g).leg n = g (s.leg n) := Vector.getElem_set_self ..

theorem State.leg_modLeg_other (g : LegSt → LegSt) (h : k ≠ n) : (s.modLeg n g).leg k = s.leg k :=
  Vector.getElem_set_ne n.isLt k.isLt fun e => h (Fin.ext e.symm)

theorem State.bit_congr {f : Fld} (h : u.get f = s.get f) : u.bit f = s.bit f := by rw [State.bit, State.bit, h]

theorem State.leg_putB {f : Fld} {b : Bool} : (s.putB f b).leg k = s.leg k := rfl

/-- The word that shows the trip of a leg, as it is released. -/
def State.releaseShow (s : State) (n : Fin 72) : State :=
  ((s.putB (F.LEG_TRIPSTAT_LATCHED n) false).putB (F.LEG_TRIPSTAT_SEQ n) false).putB (F.LEG_TRIPSTAT_CLR_PEND n) false

theorem State.releaseShow_shows : (s.releaseShow n).get (F.LEG_TRIPSTAT_LATCHED n) = 0 ∧ (s.releaseShow n).get (F.LEG_TRIPSTAT_CLR_PEND n) = 0
    ∧ ∀ k, (s.releaseShow n).leg k = s.leg k := by
  unfold State.releaseShow
  refine ⟨?_, State.get_put_same _ _ (Nat.le_of_ble_eq_true rfl), fun k => by rw [State.leg_putB, State.leg_putB, State.leg_putB]⟩
  rw [State.putB_eq, State.get_put_bits _ _ (Nat.le_of_ble_eq_true rfl) (Or.inr (Nat.le_of_ble_eq_true rfl)), State.putB_eq,
    State.get_put_bits _ _ (Nat.le_of_ble_eq_true rfl) (Or.inr (Nat.le_of_ble_eq_true rfl)), State.putB_eq]
  exact State.get_put_same _ _ (Nat.le_of_ble_eq_true rfl)

namespace Released

theorem put {f : Fld} (h : Released n a s) (v : Nat) (hl : Apart (F.LEG_TRIPSTAT_LATCHED n) f) (hp : Apart (F.LEG_TRIPSTAT_CLR_PEND n) f)
    (hb : f.lo + f.width ≤ 32) : Released n a (s.put f v) := by
  have hf : FldsBut (· = f) s (s.put f v) := FldsBut.refl.put v rfl hb
  exact ⟨h.latched, (hf.get fun _ e => e ▸ hl).trans h.shown, (hf.get fun _ e => e ▸ hp).trans h.pending, h.others⟩

theorem putB {f : Fld} (h : Released n a s) (v : Bool) (hl : Apart (F.LEG_TRIPSTAT_LATCHED n) f) (hp : Apart (F.LEG_TRIPSTAT_CLR_PEND n) f)
    (hb : f.lo + f.width ≤ 32) : Released n a (s.putB f v) := h.put _ hl hp hb

theorem modLeg {g : LegSt → LegSt} (h : Released n a s) (hg : (g (s.leg n)).latched = (s.leg n).latched) : Released n a (s.modLeg n g) := by
  refine ⟨?_, h.shown, h.pending, fun k hk => ?_⟩
  · rw [State.leg_modLeg_same, hg, h.latched]
  · rw [State.leg_modLeg_other _ hk, h.others k hk]

theorem bsExit (h : Released n a s) : Released n a (s.bsExit n) := by
  have hcnt (f : Fld) (hf : f.addr = A.LEG_BSCNT n) : Apart (F.LEG_TRIPSTAT_LATCHED n) f ∧ Apart (F.LEG_TRIPSTAT_CLR_PEND n) f := by
    constructor <;> refine Or.inl ?_ <;> rw [hf] <;>
      simp only [F.LEG_TRIPSTAT_LATCHED, F.LEG_TRIPSTAT_CLR_PEND, A.LEG_TRIPSTAT, A.LEG_BSCNT] <;> omega
  have hput (v : Nat) := h.put (f := F.LEG_BSCNT_COUNT n) v (hcnt _ rfl).1 (hcnt _ rfl).2 (Nat.le_of_ble_eq_true rfl)
  unfold State.bsExit State.bsStore
  exact (((hput _).putB _ (hcnt (F.LEG_BSCNT_DUE n) rfl).1 (hcnt (F.LEG_BSCNT_DUE n) rfl).2 (Nat.le_of_ble_eq_true rfl)).modLeg rfl).modLeg rfl

end Released

theorem State.releaseLatch_released : Released n s (s.releaseLatch n) := by
  unfold State.releaseLatch
  dsimp only
  have hleg : ((s.modLeg n (fun l => { l with latched := false, noAsc := true })).leg n).latched = false := by rw [State.leg_modLeg_same]
  have hother (k : Fin 72) (hk : k ≠ n) : (s.modLeg n (fun l => { l with latched := false, noAsc := true })).leg k = s.leg k :=
    State.leg_modLeg_other _ hk
  generalize s.modLeg n (fun l => { l with latched := false, noAsc := true }) = y at *
  obtain ⟨hshown, hpend, hlegs⟩ := State.releaseShow_shows (s := y) (n := n)
  unfold State.releaseShow at *
  generalize ((y.putB (F.LEG_TRIPSTAT_LATCHED n) false).putB (F.LEG_TRIPSTAT_SEQ n) false).putB (F.LEG_TRIPSTAT_CLR_PEND n) false = z at *
  have hz : Released n s z := ⟨by rw [hlegs, hleg], hshown, hpend, fun k hk => by rw [hlegs, hother k hk]⟩
  exact (hz.putB (f := F.LEG_TRIPSTAT_ACTIVE n) _ (Or.inr (Or.inr (Nat.le_of_ble_eq_true rfl))) (Or.inr (Or.inl (Nat.le_of_ble_eq_true rfl)))
    (Nat.le_of_ble_eq_true rfl)).bsExit

/-- A clear that is refused. -/
structure ClearRefused (n : Fin 72) (s u : State) : Prop where
  legs : u.legs = s.legs
  refused : u.get (F.LEG_TRIPSTAT_CLR_REFUSED n) = 1
  count : u.get (F.LEG_TRIPCNT_REFUSED n) = (s.get (F.LEG_TRIPCNT_REFUSED n) + 1) % 2 ^ (F.LEG_TRIPCNT_REFUSED 0).width
  pending : s.bit (F.LEG_PROTCFG_AUTOREARM n) = true → u.get (F.LEG_TRIPSTAT_CLR_PEND n) = 1
  regs : RegsBut [A.LEG_TRIPSTAT n, A.LEG_TRIPCNT n] s u

/-- A clear that is refused, but for a pending one. -/
structure ClearCounted (n : Fin 72) (s u : State) : Prop where
  legs : u.legs = s.legs
  refused : u.get (F.LEG_TRIPSTAT_CLR_REFUSED n) = 1
  count : u.get (F.LEG_TRIPCNT_REFUSED n) = (s.get (F.LEG_TRIPCNT_REFUSED n) + 1) % 2 ^ (F.LEG_TRIPCNT_REFUSED 0).width
  regs : RegsBut [A.LEG_TRIPSTAT n, A.LEG_TRIPCNT n] s u

/-- The refusal of a clear is shown and counted. -/
def State.refuseShow (s : State) (n : Fin 72) : State := (s.raise (F.LEG_TRIPSTAT_CLR_REFUSED n)).bump (F.LEG_TRIPCNT_REFUSED n)

theorem tripWords_apart (n : Fin 72) : A.LEG_TRIPCNT n ≠ A.LEG_TRIPSTAT n ∧ A.LEG_PROTCFG n ≠ A.LEG_TRIPSTAT n ∧ A.LEG_PROTCFG n ≠ A.LEG_TRIPCNT n := by
  simp only [A.LEG_TRIPCNT, A.LEG_TRIPSTAT, A.LEG_PROTCFG]
  omega

theorem State.refuseShow_shows : ClearCounted n s (s.refuseShow n) := by
  obtain ⟨hcnt, hcfg, hcfg'⟩ := tripWords_apart n
  unfold State.refuseShow
  rw [State.bump_eq]
  have h1 : (s.raise (F.LEG_TRIPSTAT_CLR_REFUSED n)).get (F.LEG_TRIPSTAT_CLR_REFUSED n) = 1 :=
    State.get_raise_same _ (Nat.le_of_ble_eq_true rfl) rfl
  have h2 (f : Fld) : (s.raise f).legs = s.legs := rfl
  have h3 : RegsBut [A.LEG_TRIPSTAT n] s (s.raise (F.LEG_TRIPSTAT_CLR_REFUSED n)) := (regsBut_raise (f := F.LEG_TRIPSTAT_CLR_REFUSED n) (List.mem_singleton_self _)).mpr RegsBut.refl
  replace h2 := h2 (F.LEG_TRIPSTAT_CLR_REFUSED n)
  generalize s.raise (F.LEG_TRIPSTAT_CLR_REFUSED n) = y at *
  have hsame : y.get (F.LEG_TRIPCNT_REFUSED n) = s.get (F.LEG_TRIPCNT_REFUSED n) :=
    h3.get (g := F.LEG_TRIPCNT_REFUSED n) fun e => hcnt (List.mem_singleton.mp e)
  have hput : RegsBut [A.LEG_TRIPSTAT n, A.LEG_TRIPCNT n] y (y.put (F.LEG_TRIPCNT_REFUSED n) (y.get (F.LEG_TRIPCNT_REFUSED n) + 1)) :=
    (regsBut_put (f := F.LEG_TRIPCNT_REFUSED n) (List.mem_cons_of_mem _ (List.mem_singleton_self _))).mpr RegsBut.refl
  have hcount : (y.put (F.LEG_TRIPCNT_REFUSED n) (y.get (F.LEG_TRIPCNT_REFUSED n) + 1)).get (F.LEG_TRIPCNT_REFUSED n)
      = (y.get (F.LEG_TRIPCNT_REFUSED n) + 1) % 2 ^ (F.LEG_TRIPCNT_REFUSED n).width := State.get_put_same _ _ (Nat.le_of_ble_eq_true rfl)
  rw [hsame] at hcount hput ⊢
  have hwidth : (F.LEG_TRIPCNT_REFUSED 0).width = (F.LEG_TRIPCNT_REFUSED n).width := rfl
  refine ⟨(State.put_legs ..).trans h2, ?_, by rw [hwidth]; exact hcount, ?_⟩
  · exact (State.get_put_word (f := F.LEG_TRIPCNT_REFUSED n) (g := F.LEG_TRIPSTAT_CLR_REFUSED n) _ _ (Ne.symm hcnt)).trans h1
  · exact (h3.mono (List.singleton_sublist.mpr (List.mem_cons_self ..)).subset).trans hput

theorem State.tripClear_refused (hl : (s.leg n).latched = true) (hc : s.clearable n = false) : ClearRefused n s (s.tripClear n) := by
  obtain ⟨hcnt, hcfg, hcfg'⟩ := tripWords_apart n
  have hshow := State.refuseShow_shows (s := s) (n := n)
  have heq : s.tripClear n = if (s.refuseShow n).bit (F.LEG_PROTCFG_AUTOREARM n) then (s.refuseShow n).putB (F.LEG_TRIPSTAT_CLR_PEND n) true
      else s.refuseShow n := by
    unfold State.tripClear State.refuseShow
    rw [if_neg (by rw [hl]; exact Bool.false_ne_true), if_neg (by rw [hc]; exact Bool.false_ne_true)]
  rw [heq]
  generalize s.refuseShow n = y at *
  obtain ⟨hlegs, href, hcount, hregs⟩ := hshow
  have hauto : y.get (F.LEG_PROTCFG_AUTOREARM n) = s.get (F.LEG_PROTCFG_AUTOREARM n) :=
    hregs.get (fun e => (List.mem_cons.mp e).elim hcfg (fun e => hcfg' (List.mem_singleton.mp e)))
  rw [State.bit_congr hauto]
  split
  case isTrue h =>
    rw [State.putB_eq]
    refine ⟨(State.put_legs ..).trans hlegs, ?_, ?_, fun _ => State.get_put_same _ _ (Nat.le_of_ble_eq_true rfl), ?_⟩
    · exact (State.get_put_bits _ _ (Nat.le_of_ble_eq_true rfl) (Or.inl (Nat.le_of_ble_eq_true rfl))).trans href
    · exact (State.get_put_word _ _ hcnt).trans hcount
    · exact hregs.trans ((regsBut_put (f := F.LEG_TRIPSTAT_CLR_PEND n) (List.mem_cons_self ..)).mpr RegsBut.refl)
  case isFalse h => exact ⟨hlegs, href, hcount, fun h' => absurd h' h, hregs⟩

theorem State.tripClear_released (hl : (s.leg n).latched = true) (hc : s.clearable n = true) : s.tripClear n = s.releaseLatch n := by
  unfold State.tripClear
  rw [hl, hc]
  exact (if_neg Bool.false_ne_true).trans (if_pos rfl)

/-- The address of a leg's LEG_TRIPCLR finds that register, with the leg as its index. -/
theorem tripClr_mapped : ∀ n : Fin 72, (regAt (A.LEG_TRIPCLR n)).map (fun e => (e.1.base, e.2)) = some (A.LEG_TRIPCLR 0, [n.val]) := by
  decide +kernel

theorem State.masterWrite_tripClr (h : s.takes m (A.LEG_TRIPCLR n) = true) :
    s.masterWrite m (A.LEG_TRIPCLR n) (bitOf (F.LEG_TRIPCLR_CLR n)) = s.tagged.tripClear n := by
  have hbit : wbit (bitOf (F.LEG_TRIPCLR_CLR n)) (F.LEG_TRIPCLR_CLR n) = true := by simp [wbit, bitOf, bitsGet, F.LEG_TRIPCLR_CLR]
  refine State.masterWrite_act h (tripClr_mapped n) ?_ (by decide) fun r hr => ?_
  · unfold outsideWindows A.LEG_TRIPCLR; omega
  · unfold State.actWrite
    simp +decide only [hr, if_true, if_false, List.headD]
    rw [finOf_val n rfl]
    exact congrArg some (if_pos hbit)

end Clears

theorem State.autoRearm_released {s : State} {n : Fin 72} (hp : s.bit (F.LEG_TRIPSTAT_CLR_PEND n) = true) (hc : s.clearable n = true) :
    Released n s (s.autoRearm n) := by
  unfold State.autoRearm
  rw [hp, hc, if_pos (show (true && true) = true from rfl)]
  exact State.releaseLatch_released

theorem tripClears : Part.TripClears := by
  intro s t m n
  dsimp only
  intro hl
  refine ⟨fun htakes hturn => ⟨_, exec_any_of rfl (State.act.eq_def ..) hturn (State.masterWrite_tripClr htakes), ?_⟩,
    fun hclk hp hc hturn => ⟨_, exec_at rfl (State.act.eq_def ..) hclk hturn, ?_⟩⟩
  all_goals generalize s.advance t = a at *
  case refine_1 =>
    have hsame := State.tagged_sameSources (s := a)
    have htag : RegsBut [A.EVT_TAGHWM] a a.tagged := State.tagSet_regsBut _
    generalize a.tagged = y at *
    have hleg (k : Fin 72) : y.leg k = a.leg k := by unfold State.leg; rw [hsame.legs]
    have hl' : (y.leg n).latched = true := by rw [hleg, hl]
    refine ⟨fun hc => ?_, fun hc => ?_⟩
    · rw [State.tripClear_released hl' (hsame.clearable.trans hc)]
      have h := State.releaseLatch_released (s := y) (n := n)
      exact ⟨h.latched, h.shown, h.pending, fun k hk => (h.others k hk).trans (hleg k)⟩
    · have h := State.tripClear_refused hl' (hsame.clearable.trans hc)
      generalize y.tripClear n = u at *
      have htagget {f : Fld} (hf : f.addr < 0x120000) : y.get f = a.get f := hsame.get f hf
      refine ⟨h.legs.trans hsame.legs, h.refused, ?_, fun hauto => h.pending (hauto ▸ State.bit_congr ?_), ?_⟩
      · rw [h.count, htagget (by simp only [F.LEG_TRIPCNT_REFUSED, A.LEG_TRIPCNT]; omega)]
      · exact htagget (by simp only [F.LEG_PROTCFG_AUTOREARM, A.LEG_PROTCFG]; omega)
      · exact (htag.mono (by simp)).trans (h.regs.mono (by simp))
  case refine_2 =>
    have h := State.autoRearm_released hp hc
    exact ⟨h.latched, h.shown, h.pending, h.others⟩

/-! ## SAFE_N -/

section Safe
variable {a s u : State} {edge : Tick} {tm : Fin 24} {cause flt : Nat}

/-- A team as a halt of all of them leaves it. -/
def TeamStopped (tm : Fin 24) (cause : Nat) (s u : State) : Prop :=
  (s.tstate tm = stWAIT ∨ s.tstate tm = stRUN → u.tstate tm = stHALTED ∧ u.get (F.TEAM_STAT_CAUSE tm) = cause % 2 ^ 3)
  ∧ (s.tstate tm ≠ stWAIT → s.tstate tm ≠ stRUN → u.tstate tm = s.tstate tm)

/-- The halt of a list of teams halts each of them, once. -/
theorem State.each_haltTeam_stops {l : List (Fin 24)} (hnd : l.Nodup) (hmem : tm ∈ l) :
    TeamStopped tm cause s (each l (fun t s => s.haltTeam t cause flt) s) := by
  have hbefore (j : Fin 24) (hj : j ≠ tm) (y : State) (h : y.tstate tm = s.tstate tm) : (y.haltTeam j cause flt).tstate tm = s.tstate tm :=
    ((y.haltTeam_halts (t := j) cause flt).others tm hj.symm).1.trans h
  have hself (y : State) (h : y.tstate tm = s.tstate tm) : TeamStopped tm cause s (y.haltTeam tm cause flt) := by
    have hh := y.haltTeam_halts (t := tm) cause flt
    refine ⟨fun hs => ?_, fun hw hr => by rw [hh.idle (by rwa [h]) (by rwa [h]), h]⟩
    obtain ⟨hstate, hcause, -⟩ := hh.halted (by rwa [h])
    exact ⟨hstate, hcause⟩
  have hafter (j : Fin 24) (hj : j ≠ tm) (y : State) (h : TeamStopped tm cause s y) : TeamStopped tm cause s (y.haltTeam j cause flt) := by
    obtain ⟨hstate, hcause⟩ := (y.haltTeam_halts (t := j) cause flt).others tm hj.symm
    unfold TeamStopped at *
    rwa [hstate, hcause]
  exact each_once (e := fun t s => s.haltTeam t cause flt) (P := fun y => y.tstate tm = s.tstate tm) (Q := fun y => TeamStopped tm cause s y)
    hnd hmem hbefore hself hafter s rfl

theorem HaltFrame.safe_eq {W : Fld → Prop} (h : HaltFrame W s u) : u.safe = s.safe := by rw [h.rest]

/-- The demand for the safe state is noted. -/
def State.safeNoted (s : State) (edge : Tick) (low : Bool) : State := { s with safe := { s.safe with filtLow := low, edge := edge } }

/-- The demand is shown and counted. -/
def State.safeShow (s : State) : State := (s.putB F.PRT_STAT_SAFE true).bumpSat F.PRT_SAFECNT_COUNT

/-- What the demand leaves before the teams halt. -/
structure SafeShown (s u : State) : Prop where
  low : u.safe.filtLow = true
  shown : u.get F.PRT_STAT_SAFE = 1
  count : u.get F.PRT_SAFECNT_COUNT = min (2 ^ F.PRT_SAFECNT_COUNT.width - 1) (s.get F.PRT_SAFECNT_COUNT + 1)
  teams : ∀ tm, u.tstate tm = s.tstate tm

theorem State.safeShow_shown (h : s.safe.filtLow = true) : SafeShown s s.safeShow := by
  unfold State.safeShow State.bumpSat
  have h1 : (s.putB F.PRT_STAT_SAFE true).get F.PRT_STAT_SAFE = 1 := State.get_put_same s _ (f := F.PRT_STAT_SAFE) (by decide)
  have h2 {f : Fld} (hf : f.addr ≠ A.PRT_STAT) : (s.putB F.PRT_STAT_SAFE true).get f = s.get f := State.get_put_word s _ (f := F.PRT_STAT_SAFE) hf
  have h3 : (s.putB F.PRT_STAT_SAFE true).safe = s.safe := State.put_safe ..
  generalize s.putB F.PRT_STAT_SAFE true = y at *
  have h4 : y.get F.PRT_SAFECNT_COUNT = s.get F.PRT_SAFECNT_COUNT := h2 (by decide)
  have hteam (tm : Fin 24) : A.TEAM_STAT tm ≠ A.PRT_STAT ∧ A.TEAM_STAT tm ≠ A.PRT_SAFECNT := by
    unfold A.TEAM_STAT A.PRT_STAT A.PRT_SAFECNT; omega
  have hmin : min (2 ^ 16 - 1) (s.get F.PRT_SAFECNT_COUNT + 1) % 2 ^ 16 = min (2 ^ 16 - 1) (s.get F.PRT_SAFECNT_COUNT + 1) :=
    Nat.mod_eq_of_lt (by omega)
  refine ⟨by rw [State.put_safe, h3, h], ?_, ?_, fun tm => ?_⟩
  · exact (State.get_put_word (f := F.PRT_SAFECNT_COUNT) (g := F.PRT_STAT_SAFE) _ _ (by decide)).trans h1
  · rw [State.get_put_same _ _ (by decide), h4]
    exact hmin
  · exact (State.get_put_word (f := F.PRT_SAFECNT_COUNT) (g := F.TEAM_STAT_STATE tm) _ _ (hteam tm).2).trans (h2 (hteam tm).1)

theorem State.safeNLow_eq (hl : s.safe.filtLow = false) (he : s.safe.edge ≤ edge) (hn : edge + 19 = s.now) :
    s.safeNLow edge = each allTeams (fun t s => s.haltTeam t caSAFEN 0) (s.safeNoted edge true).safeShow := by
  unfold State.safeNLow
  rw [if_neg (by rw [hl]; simp only [Bool.false_eq_true, false_or, not_or]; exact ⟨Nat.not_lt_of_le he, fun h => h hn⟩)]
  rfl

theorem State.safeNoted_kept (low : Bool) : (s.safeNoted edge low).safe.filtLow = low ∧ ∀ f, (s.safeNoted edge low).get f = s.get f :=
  ⟨rfl, fun _ => rfl⟩

theorem State.safeNLow_halts (hl : s.safe.filtLow = false) (he : s.safe.edge ≤ edge) (hn : edge + 19 = s.now) :
    (s.safeNLow edge).safe.filtLow = true ∧ (s.safeNLow edge).get F.PRT_STAT_SAFE = 1
    ∧ (s.safeNLow edge).get F.PRT_SAFECNT_COUNT = min (2 ^ F.PRT_SAFECNT_COUNT.width - 1) (s.get F.PRT_SAFECNT_COUNT + 1)
    ∧ ∀ tm, TeamStopped tm caSAFEN s (s.safeNLow edge) := by
  rw [State.safeNLow_eq hl he hn]
  obtain ⟨hnote, hget⟩ := State.safeNoted_kept (s := s) (edge := edge) true
  generalize s.safeNoted edge true = x at *
  obtain ⟨hlow, hshown, hcount, hteams⟩ := State.safeShow_shown hnote
  generalize x.safeShow = y at *
  obtain ⟨hframe, -⟩ := State.each_haltTeam allTeams caSAFEN 0 y
  have hstop (tm : Fin 24) := State.each_haltTeam_stops (s := y) (cause := caSAFEN) (flt := 0) (List.nodup_finRange 24) (List.mem_finRange tm)
  unfold allTeams at *
  generalize each (List.finRange 24) (fun t s => s.haltTeam t caSAFEN 0) y = u at *
  refine ⟨?_, ?_, ?_, fun tm => ?_⟩
  · rw [hframe.safe_eq, hlow]
  · rw [hframe.get (by unfold haltWord; decide), hshown]
  · rw [hframe.get (by unfold haltWord; decide), hcount, hget]
  · have h := hstop tm
    have hstate : y.tstate tm = s.tstate tm := (hteams tm).trans (hget _)
    unfold TeamStopped at *
    rwa [hstate] at h

theorem State.safeNoted_put (edge : Tick) (low : Bool) (f : Fld) (n : Nat) : (s.safeNoted edge low).put f n = { s with
    regs := ((s.safeNoted edge low).put f n).regs, same := ((s.safeNoted edge low).put f n).same, safe := ((s.safeNoted edge low).put f n).safe } := rfl

/-- SAFE_N returns: the filter and what it shows alone change. -/
structure SafeEnded (s u : State) : Prop where
  low : u.safe.filtLow = false
  shown : u.get F.PRT_STAT_SAFE = 0
  regs : RegsBut [A.PRT_STAT] s u
  rest : u = { s with regs := u.regs, same := u.same, safe := u.safe }

theorem State.safeNHigh_ends (hb : s.bit F.IDG_INBAND_SAFE_N = false) (hl : s.safe.filtLow = true) (he : s.safe.edge ≤ edge)
    (hn : max (edge + 3) s.safe.outAt + 16 = s.now) : SafeEnded s (s.safeNHigh edge) := by
  unfold State.safeNHigh
  rw [if_neg (by rw [hb, hl]; simp only [Bool.false_eq_true, Bool.not_true, false_or, not_or]; exact ⟨Nat.not_lt_of_le he, fun h => h hn⟩)]
  have hnoted := State.safeNoted_kept (s := s) (edge := edge) false
  have hregs : (s.safeNoted edge false).regs = s.regs := rfl
  have hrest := State.safeNoted_put (s := s) edge false F.PRT_STAT_SAFE (b2n false)
  have heq : ({ s with safe := { s.safe with filtLow := false, edge := edge } } : State).putB F.PRT_STAT_SAFE false
    = (s.safeNoted edge false).put F.PRT_STAT_SAFE (b2n false) := by rw [State.putB_eq, State.safeNoted]
  rw [heq]
  refine ⟨?_, State.get_put_same _ _ (f := F.PRT_STAT_SAFE) (by decide),
    (RegsBut.refl.of_regs hregs).trans ((regsBut_put (f := F.PRT_STAT_SAFE) (by decide)).mpr RegsBut.refl), hrest⟩
  rw [State.put_safe, hnoted.1]

end Safe

theorem safeInput : Part.SafeInput := by
  intro s t edge
  dsimp only
  intro hclk he
  refine ⟨fun hl hn hturn => ⟨_, exec_at rfl (State.act.eq_def ..) hclk hturn, ?_⟩,
    fun hn hturn => exec_at_of rfl (State.act.eq_def ..) hclk hturn ?_,
    fun hb hl hn hturn => ⟨_, exec_at rfl (State.act.eq_def ..) hclk hturn, ?_⟩⟩
  all_goals generalize s.advance t = a at *
  case refine_1 =>
    obtain ⟨hlow, hshown, hcount, hteams⟩ := State.safeNLow_halts hl he hn
    exact ⟨hlow, hshown, hcount, fun tm => (hteams tm).1, fun tm => (hteams tm).2⟩
  case refine_2 =>
    unfold State.safeNLow
    exact if_pos (Or.inr (Or.inr hn))
  case refine_3 =>
    obtain ⟨hlow, hshown, hregs, hrest⟩ := State.safeNHigh_ends hb hl he hn
    exact ⟨hlow, hshown, hregs, hrest⟩

/-- Settles O32. The latch of a leg is followed through its own words and its state; a halt of every team is one halt of
each, which the others leave alone. -/
theorem tripEnds : Obligations.TripEnds := ⟨tripClears, safeInput⟩

end Sys2Proof.Machine
end

section
/-!
PROOFS. Chapter 11: what the steps of a feedback port leave of the port and of its registers.
-/
namespace Sys2Proof.Machine

/-! ## Fields of a port -/

/-- The base of a port's page. -/
@[reducible] def fbkPage (p : Fin 8) : Nat := 0x90000 + 0x1000 * p

/-- A field of port p that may change: bits of FBK_STAT, and whole words at offsets of the page; and everything outside the
page's first half. -/
def FbkFld (bits : List (Nat × Nat)) (ofs : List Nat) (p : Fin 8) (f : Fld) : Prop :=
  (f.addr = fbkPage p + 4 ∧ (f.lo, f.width) ∈ bits) ∨ (∃ o ∈ ofs, f.addr = fbkPage p + o) ∨ ∀ o, o < 0x800 → f.addr ≠ fbkPage p + o

section Fields
variable {bits : List (Nat × Nat)} {ofs : List Nat} {p : Fin 8} {f g : Fld}

theorem FbkFld.mono {bits' : List (Nat × Nat)} {ofs' : List Nat} (hb : ∀ x ∈ bits, x ∈ bits') (ho : ∀ o ∈ ofs, o ∈ ofs')
    (h : FbkFld bits ofs p f) : FbkFld bits' ofs' p f := by
  rcases h with ⟨ha, h⟩ | ⟨o, h, ha⟩ | h
  · exact Or.inl ⟨ha, hb _ h⟩
  · exact Or.inr (Or.inl ⟨o, ho o h, ha⟩)
  · exact Or.inr (Or.inr h)

theorem fbkFld_below (h : f.addr < 0x90000) : FbkFld bits ofs p f := Or.inr (Or.inr fun o _ e => by simp only [fbkPage] at e; omega)

theorem fbkFld_above (h : 0x98000 ≤ f.addr) : FbkFld bits ofs p f :=
  Or.inr (Or.inr fun o ho e => by have hp := p.isLt; simp only [fbkPage] at e; omega)

theorem fbkFld_out (m : Fin 2) {k lo w : Nat} (h : 0x800 ≤ k) (h' : k < 0x1000) : FbkFld bits ofs p ⟨0x90000 + k + 0x1000 * m, lo, w⟩ :=
  Or.inr (Or.inr fun o ho e => by simp only [fbkPage] at e; omega)

theorem fbkFld_word (o : Nat) (ho : o ∈ ofs) (ha : f.addr = fbkPage p + o) : FbkFld bits ofs p f := Or.inr (Or.inl ⟨o, ho, ha⟩)

theorem fbkFld_stat (ha : f.addr = fbkPage p + 4) (h : (f.lo, f.width) ∈ bits) : FbkFld bits ofs p f := Or.inl ⟨ha, h⟩

/-- A field of the page that is at another word, or at other bits of FBK_STAT. -/
theorem FbkFld.apart {o : Nat} (hg : g.addr = fbkPage p + o) (ho : o < 0x800) (hof : o ∉ ofs)
    (hb : o = 4 → ∀ x ∈ bits, g.lo + g.width ≤ x.1 ∨ x.1 + x.2 ≤ g.lo) (h : FbkFld bits ofs p f) : Apart g f := by
  rcases h with ⟨ha, h⟩ | ⟨o', h, ha⟩ | h
  · by_cases e : o = 4
    · exact Or.inr (hb e _ h)
    · exact Or.inl (by rw [hg, ha]; omega)
  · refine Or.inl fun e => hof ?_
    rw [hg, ha] at e
    rwa [show o = o' by omega]
  · exact Or.inl fun e => h o ho (by rw [← e, hg])

end Fields

/-- The offsets of a port's compare units. -/
def cmpOfs : List Nat :=
  [0x100, 0x104, 0x108, 0x10C, 0x110, 0x114, 0x118, 0x11C, 0x120, 0x124, 0x128, 0x12C, 0x130, 0x134, 0x138, 0x13C, 0x140, 0x144, 0x148, 0x14C]

/-- What the ladder shows. -/
def ladFld (p : Fin 8) (f : Fld) : Prop := FbkFld [(24, 3)] [0x48] p f

/-- And what the compare units show. -/
def unitFld (p : Fin 8) (f : Fld) : Prop := FbkFld [(24, 3)] (0x48 :: cmpOfs) p f

/-- The bits of FBK_STAT that a step may change: CMPSKIP, SPDSAT, DIRCHG, LOSS, LADDER, LOST, ZERO, DIR, SPDVALID and
POSVALID. -/
def stepBits : List (Nat × Nat) := [(2, 1), (5, 1), (12, 1), (15, 1), (24, 3), (27, 1), (28, 1), (29, 1), (30, 1), (31, 1)]

/-- What a step may change beside the count itself. -/
def stepFld (p : Fin 8) (f : Fld) : Prop := FbkFld stepBits (0x20 :: 0xB4 :: 0x48 :: cmpOfs) p f

/-- The count with its stamp, too. -/
def moveFld (p : Fin 8) (f : Fld) : Prop := FbkFld stepBits (0x10 :: 0x14 :: 0x1C :: 0x20 :: 0xB4 :: 0x48 :: cmpOfs) p f

theorem ladFld.unit {p : Fin 8} {f : Fld} (h : ladFld p f) : unitFld p f :=
  FbkFld.mono (fun _ h => h) (fun _ h => List.mem_singleton.mp h ▸ List.mem_cons_self ..) h

theorem unitFld.step {p : Fin 8} {f : Fld} (h : unitFld p f) : stepFld p f := FbkFld.mono (by decide) (by decide) h
theorem ladFld.step {p : Fin 8} {f : Fld} (h : ladFld p f) : stepFld p f := h.unit.step
theorem stepFld.move {p : Fin 8} {f : Fld} (h : stepFld p f) : moveFld p f := FbkFld.mono (fun _ h => h) (by decide) h

theorem ladFld_stat (p : Fin 8) {lo w : Nat} (h : (lo, w) ∈ [(24, 3)]) : ladFld p ⟨A.FBK_STAT p, lo, w⟩ :=
  fbkFld_stat (by simp only [A.FBK_STAT, fbkPage]; omega) h

theorem ladFld_ramp (p : Fin 8) : ladFld p (F.FBK_RAMPF_F p) :=
  fbkFld_word 0x48 (by decide) (by simp only [F.FBK_RAMPF_F, A.FBK_RAMPF, fbkPage]; omega)

theorem stepFld_stat (p : Fin 8) {lo w : Nat} (h : (lo, w) ∈ stepBits) : stepFld p ⟨A.FBK_STAT p, lo, w⟩ :=
  fbkFld_stat (by simp only [A.FBK_STAT, fbkPage]; omega) h

/-- A word of a compare unit. -/
theorem unitFld_word (p : Fin 8) (k : Fin 4) (o : Nat) {lo w : Nat} (ho : o ∈ [0x100, 0x104, 0x108, 0x10C]) :
    unitFld p ⟨0x90000 + o + 0x1000 * p + 0x10 * k, lo, w⟩ := by
  refine fbkFld_word (o + 0x10 * k) (List.mem_cons_of_mem _ ?_) (by simp only [fbkPage]; omega)
  revert ho o k
  decide

theorem unitFld_stamp (p : Fin 8) (k : Fin 4) : unitFld p (wordOf (A.FBK_CMPSTAMP p k)) := by
  refine fbkFld_word (0x140 + 4 * k) (List.mem_cons_of_mem _ ?_) (by simp only [wordOf, A.FBK_CMPSTAMP, fbkPage]; omega)
  revert k
  decide

/-! ## The frame -/

/-- A port without what the ladder and the compare units keep in it. -/
def PortSt.quiet (x : PortSt) : PortSt := { x with pulses := Vector.replicate 4 none, rampAt := 0 }

/-- A port without the history of its speed, too. -/
def PortSt.calm (x : PortSt) : PortSt :=
  { x.quiet with evs := [], cum := 0, warm := 0, delta := 0, spanN := 0, spdEv := 0, lastEv := none, ext0 := 0 }

/-- A port without its references, too: what a loss leaves. -/
def PortSt.ins (x : PortSt) : PortSt :=
  { x.calm with haveRef := false, ssiPrev := none, sector := none, frozen := false, lossAt := none }

/-- Nothing but the fields `W` of the registers differs; of the ports only port p, and there nothing that `g` shows. -/
structure PortFrame (W : Fld → Prop) (g : PortSt → PortSt) (p : Fin 8) (s u : State) : Prop where
  flds : FldsBut W s u
  port : g (u.port p) = g (s.port p)
  others : ∀ q, q ≠ p → u.port q = s.port q
  now : u.now = s.now
  tim : u.tim = s.tim

section Frame
variable {W V : Fld → Prop} {g g' : PortSt → PortSt} {p : Fin 8} {a s u x : State} {f : Fld}

theorem State.port_modPort_same (h : PortSt → PortSt) : (s.modPort p h).port p = h (s.port p) := Vector.getElem_set_self ..

theorem State.port_modPort_other {q : Fin 8} (h : PortSt → PortSt) (hq : q ≠ p) : (s.modPort p h).port q = s.port q :=
  Vector.getElem_set_ne p.isLt q.isLt fun e => hq (Fin.ext e.symm)

namespace PortFrame

theorem refl : PortFrame W g p s s := ⟨FldsBut.refl, rfl, fun _ _ => rfl, rfl, rfl⟩

theorem trans (h : PortFrame W g p s u) (k : PortFrame W g p u x) : PortFrame W g p s x :=
  ⟨h.flds.trans k.flds, k.port.trans h.port, fun q hq => (k.others q hq).trans (h.others q hq), k.now.trans h.now, k.tim.trans h.tim⟩

theorem mono (h : PortFrame W g p s u) (hw : ∀ f, W f → V f) : PortFrame V g p s u := ⟨h.flds.mono hw, h.port, h.others, h.now, h.tim⟩

theorem loosen (h : PortFrame W g p s u) (hg : ∀ x, g' (g x) = g' x) : PortFrame W g' p s u :=
  ⟨h.flds, by rw [← hg, h.port, hg], h.others, h.now, h.tim⟩

theorem ite {c : Prop} [Decidable c] (h : PortFrame W g p a s) (k : PortFrame W g p a u) : PortFrame W g p a (if c then s else u) := by
  split
  · exact h
  · exact k

theorem each {α : Type} {l : List α} {e : α → State → State} (h : PortFrame W g p a s) (he : ∀ y s, PortFrame W g p s (e y s)) :
    PortFrame W g p a (Sys2Proof.Machine.each l e s) :=
  each_keeps (fun u => PortFrame W g p a u) l e (fun y _ _ hu => hu.trans (he y _)) s h

/-- Neither the ports nor the time has changed since. -/
theorem next (h : PortFrame W g p a s) (hf : FldsBut W s u) (hp : u.fbk = s.fbk) (hn : u.now = s.now) (ht : u.tim = s.tim) :
    PortFrame W g p a u := by
  have hport (q : Fin 8) : u.port q = s.port q := by unfold State.port; rw [hp]
  exact h.trans ⟨hf, by rw [hport], fun q _ => hport q, hn, ht⟩

theorem put (h : PortFrame W g p a s) (v : Nat) (hf : W f) (hb : f.lo + f.width ≤ 32) : PortFrame W g p a (s.put f v) :=
  h.next (FldsBut.refl.put v hf hb) (State.put_fbk ..) (State.put_now ..) (State.put_tim ..)

theorem putB (h : PortFrame W g p a s) (b : Bool) (hf : W f) (hb : f.lo + f.width ≤ 32) : PortFrame W g p a (s.putB f b) := h.put _ hf hb

theorem bump (h : PortFrame W g p a s) (hf : W f) (hb : f.lo + f.width ≤ 32) : PortFrame W g p a (s.bump f) := h.put _ hf hb

theorem bumpSat (h : PortFrame W g p a s) (hf : W f) (hb : f.lo + f.width ≤ 32) : PortFrame W g p a (s.bumpSat f) := h.put _ hf hb

theorem raise (h : PortFrame W g p a s) (hf : W f) (hb : f.lo + f.width ≤ 32) : PortFrame W g p a (s.raise f) :=
  (h.put 1 hf hb).next (FldsBut.refl.of_regs rfl) rfl rfl rfl

theorem raiseIf (h : PortFrame W g p a s) (b : Bool) (hf : W f) (hb : f.lo + f.width ≤ 32) : PortFrame W g p a (s.raiseIf f b) :=
  (h.raise hf hb).ite (h.putB _ hf hb)

theorem wr {b : Nat} (h : PortFrame W g p a s) (w : Word) (hf : W (wordOf b)) : PortFrame W g p a (s.wr b w) :=
  h.next (FldsBut.refl.wr w hf) rfl rfl rfl

theorem modPort {k : PortSt → PortSt} (h : PortFrame W g p a s) (hk : ∀ x, g (k x) = g x) : PortFrame W g p a (s.modPort p k) :=
  h.trans ⟨FldsBut.refl.of_regs rfl, by rw [State.port_modPort_same, hk], fun _ hq => State.port_modPort_other _ hq, rfl, rfl⟩

theorem modOut (h : PortFrame W g p a s) (m : Fin 2) (k : OutSt → OutSt) : PortFrame W g p a (s.modOut m k) :=
  h.next (FldsBut.refl.of_regs rfl) rfl rfl rfl

theorem get (h : PortFrame W g p s u) (hf : ∀ k, W k → Apart f k) : u.get f = s.get f := h.flds.get hf

end PortFrame
end Frame

/-! ## What the operations of a port leave -/

section Ops
variable {g : PortSt → PortSt} {p : Fin 8} {a s u : State} {k : Fin 4}

/-- A field outside the first halves of the ports' pages. -/
def farFld (f : Fld) : Prop := ∀ p bits ofs, FbkFld bits ofs p f

theorem farFld_below {f : Fld} (h : f.addr < 0x90000) : farFld f := fun _ _ _ => fbkFld_below h
theorem farFld_above {f : Fld} (h : 0x98000 ≤ f.addr) : farFld f := fun _ _ _ => fbkFld_above h
theorem farFld_out (m : Fin 2) {k lo w : Nat} (h : 0x800 ≤ k) (h' : k < 0x1000) : farFld ⟨0x90000 + k + 0x1000 * m, lo, w⟩ :=
  fun _ _ _ => fbkFld_out m h h'

/-- What is done outside the ports. -/
abbrev PortFar (p : Fin 8) (s u : State) : Prop := PortFrame farFld id p s u

theorem PortFar.lad (h : PortFar p s u) : PortFrame (ladFld p) PortSt.quiet p s u :=
  (h.mono fun _ hf => hf _ _ _).loosen fun _ => rfl

namespace PortFrame

theorem recordAt (h : PortFar p a s) (code ctx time writer : Nat) : PortFar p a (s.recordAt code ctx time writer) := by
  have hregs : RegsBut evtWords s (s.recordAt code ctx time writer) := by
    unfold State.recordAt
    exact (regsBut_jrnQueue fun _ h => h).mpr ((regsBut_evtLast fun _ h => h).mpr RegsBut.refl)
  have hframe : ∃ regs jrn, s.recordAt code ctx time writer = { s with regs := regs, jrn := jrn } := by
    unfold State.recordAt State.jrnQueue
    dsimp only
    split
    · exact ⟨_, _, rfl⟩
    · exact ⟨_, _, rfl⟩
  obtain ⟨regs, jrn, hframe⟩ := hframe
  refine h.next (FldsBut.of_regsBut hregs fun b hb => farFld_above (by revert hb b; decide)) ?_ ?_ ?_ <;> rw [hframe]

theorem modGroup (h : PortFar p a s) (i : Fin 8) (f : GroupSt → GroupSt) : PortFar p a (s.modGroup i f) :=
  h.next (FldsBut.refl.of_regs rfl) rfl rfl rfl

theorem modTeam (h : PortFar p a s) (t : Fin 24) (f : TeamSt → TeamSt) : PortFar p a (s.modTeam t f) :=
  h.next (FldsBut.refl.of_regs rfl) rfl rfl rfl

theorem groupDrop (h : PortFar p a s) (t : Fin 24) : PortFar p a (s.groupDrop t) :=
  h.each fun _ _ => (PortFrame.refl.modGroup ..).ite PortFrame.refl

theorem liveUpdate (h : PortFar p a s) (t : Fin 24) : PortFar p a (s.liveUpdate t) := by
  unfold State.liveUpdate
  dsimp only
  have hput (b : Bool) : PortFar p a (s.putB (F.TEAM_STAT_DROPPED t) b) :=
    h.putB b (farFld_below (by simp only [F.TEAM_STAT_DROPPED, A.TEAM_STAT]; omega)) (Nat.le_of_ble_eq_true rfl)
  exact (((hput _).modTeam ..).groupDrop t).ite (hput _)

theorem outPins (h : PortFar p a s) (m : Fin 2) : PortFar p a (s.outPins m) := by
  unfold State.outPins
  dsimp only
  exact ((((h.modOut ..).putB _ (farFld_out m (k := 0x810) (by decide) (by decide)) (Nat.le_of_ble_eq_true rfl)).putB _
    (farFld_out m (k := 0x810) (by decide) (by decide)) (Nat.le_of_ble_eq_true rfl)).putB _ (farFld_out m (k := 0x810) (by decide) (by decide))
      (Nat.le_of_ble_eq_true rfl)).wr _ (farFld_out m (k := 0x814) (by decide) (by decide))

theorem outRefresh (h : PortFar p a s) (m : Fin 2) : PortFar p a (s.outRefresh m) := by
  have hcatch {y : State} (hy : PortFar p a y) (b : Bool) : PortFar p a (y.putB (F.FBO_STAT_CATCH m) b) :=
    hy.putB b (farFld_out m (k := 0x810) (by decide) (by decide)) (Nat.le_of_ble_eq_true rfl)
  unfold State.outRefresh
  dsimp only
  exact (PortFrame.outPins h m).ite ((PortFrame.outPins (hcatch (h.modOut ..) _) m).ite (PortFrame.outPins ((hcatch h _).modOut ..) m))

theorem outsRefresh (h : PortFar p a s) : PortFar p a s.outsRefresh := PortFrame.outRefresh (PortFrame.outRefresh h 0) 1

theorem notify (h : PortFar p a s) : PortFar p a s.notify := by
  have hflds : FldsBut farFld s s.notify := FldsBut.of_regsBut (State.notify_regsBut (s := s)) fun b hb => farFld_above (by revert hb b; decide)
  have hup (z : State) (f : Fld) (t : Tick) (d : Deferred) : ((z.bumpUp f).defer t d).fbk = z.fbk ∧ ((z.bumpUp f).defer t d).tim = z.tim := ⟨rfl, rfl⟩
  have hparts : s.notify.fbk = s.fbk ∧ s.notify.tim = s.tim := by
    unfold State.notify State.issueAs
    split
    · obtain ⟨_, _, hf⟩ := s.tagSet_frame (s.tagsUse + 1)
      rw [id, hf]
      exact ⟨rfl, rfl⟩
    · rw [State.stall_eq]
      exact hup ..
  exact h.next hflds hparts.1 ((HouseKept.refl (s := s)).notify).now hparts.2

end PortFrame

/-- The torque ramp begins. -/
theorem State.ladderRamp_quiet (t : Fin 24) : PortFrame (ladFld p) PortSt.quiet p s (s.ladderRamp p t) := by
  unfold State.ladderRamp
  dsimp only
  have hput : PortFrame (ladFld p) PortSt.quiet p s (s.put (F.FBK_STAT_LADDER p) 2) :=
    PortFrame.refl.put _ (ladFld_stat p (by decide)) (Nat.le_of_ble_eq_true rfl)
  generalize s.put (F.FBK_STAT_LADDER p) 2 = y at *
  have hramp := (hput.modPort (k := fun x => { x with rampAt := y.now }) fun _ => rfl).put 0x10000 (ladFld_ramp p) (Nat.le_of_ble_eq_true rfl)
  exact hramp.trans (((PortFrame.refl.recordAt ..).liveUpdate t).lad)

theorem State.ladderTick_quiet : PortFrame (ladFld p) PortSt.quiet p s (s.ladderTick p) := by
  have hput : PortFrame (ladFld p) PortSt.quiet p s (s.put (F.FBK_STAT_LADDER p) 0) :=
    PortFrame.refl.put _ (ladFld_stat p (by decide)) (Nat.le_of_ble_eq_true rfl)
  unfold State.ladderTick
  split
  · exact PortFrame.refl
  · exact PortFrame.refl.ite (hput.ite ((State.ladderRamp_quiet _).ite PortFrame.refl))

theorem State.ladderEntry_quiet (v : Nat) : PortFrame (ladFld p) PortSt.quiet p s (s.ladderEntry p v) := by
  have hput : PortFrame (ladFld p) PortSt.quiet p s (s.put (F.FBK_STAT_LADDER p) 1) :=
    PortFrame.refl.put _ (ladFld_stat p (by decide)) (Nat.le_of_ble_eq_true rfl)
  unfold State.ladderEntry
  split
  · exact PortFrame.refl
  · exact PortFrame.refl.ite (PortFrame.ite ((hput.trans (PortFrame.refl.recordAt ..).lad).trans State.ladderTick_quiet) (State.ladderRamp_quiet _))

/-! ## The compare units -/

theorem State.unitFireBase_quiet (stamp : Tick) : PortFrame (unitFld p) PortSt.quiet p s (s.unitFireBase p k stamp) := by
  unfold State.unitFireBase
  dsimp only
  have hword (o : Nat) {lo w : Nat} (ho : o ∈ [0x100, 0x104, 0x108, 0x10C]) := unitFld_word p k o (lo := lo) (w := w) ho
  have h1 : PortFrame (unitFld p) PortSt.quiet p s (s.raise (F.FBK_CMPSTAT_FIRED p k)) :=
    PortFrame.refl.raise (hword 0x10C (by decide)) (Nat.le_of_ble_eq_true rfl)
  generalize s.raise (F.FBK_CMPSTAT_FIRED p k) = x1 at *
  have h2 := h1.bump (f := F.FBK_CMPSTAT_FIRECNT p k) (hword 0x10C (by decide)) (Nat.le_of_ble_eq_true rfl)
  generalize x1.bump (F.FBK_CMPSTAT_FIRECNT p k) = x2 at *
  have h3 := h2.wr (BitVec.ofNat 32 (x2.stampOf (256 * stamp))) (unitFld_stamp p k)
  generalize x2.wr (A.FBK_CMPSTAMP p k) (BitVec.ofNat 32 (x2.stampOf (256 * stamp))) = x3 at *
  have hnote : PortFrame (unitFld p) PortSt.quiet p s x3.notify := h3.trans (((PortFrame.refl.notify).lad).mono fun _ hf => hf.unit)
  have h4 := hnote.ite (c := x3.bit (F.FBK_CMPCFG_EVT p k) = true) h3
  generalize (if x3.bit (F.FBK_CMPCFG_EVT p k) = true then x3.notify else x3) = x4 at *
  have h5 := h4.ite (c := x4.get (F.FBK_CMPCFG_OUT p k) = 0) (h4.modPort (k := fun x => { x with
    pulses := x.pulses.set k (some (x4.get (F.FBK_CMPCFG_OUT p k), x4.now + 1, x4.now + max 1 (x4.get (F.FBK_CMPCFG_WIDTH p k)))) }) fun _ => rfl)
  generalize (if x4.get (F.FBK_CMPCFG_OUT p k) = 0 then x4 else _) = x5 at *
  exact (h5.wr _ (hword 0x104 (by decide))).ite (h5.putB _ (hword 0x100 (by decide)) (Nat.le_of_ble_eq_true rfl))

theorem State.unitMark_quiet : PortFrame (unitFld p) PortSt.quiet p s (s.unitMark p k) :=
  PortFrame.refl.raiseIf _ (unitFld_word p k 0x10C (by decide)) (Nat.le_of_ble_eq_true rfl)

theorem State.unitFire_quiet (stamp : Tick) : PortFrame (unitFld p) PortSt.quiet p s (s.unitFire p k stamp) := by
  have h := State.unitFireBase_quiet (s := s) (p := p) (k := k) stamp
  unfold State.unitFire
  exact (h.trans State.unitMark_quiet).ite h

theorem State.unitEval_quiet : PortFrame (unitFld p) PortSt.quiet p s (s.unitEval p k) := by
  unfold State.unitEval
  dsimp only
  have h : PortFrame (unitFld p) PortSt.quiet p s (s.raiseIf (F.FBK_CMPSTAT_BEHIND p k) (s.unitBehind p k)) :=
    PortFrame.refl.raiseIf _ (unitFld_word p k 0x10C (by decide)) (Nat.le_of_ble_eq_true rfl)
  exact PortFrame.refl.ite ((h.trans (State.unitFire_quiet _)).ite h)

/-! ## The speed -/

theorem State.spdRestart_calm : PortFrame (stepFld p) PortSt.calm p s (s.spdRestart p) :=
  (PortFrame.refl.modPort (k := fun x => { x with evs := [], warm := 2, delta := 0, spanN := 0 }) fun _ => rfl).putB (f := F.FBK_STAT_SPDVALID p) _ (stepFld_stat p (by decide)) (Nat.le_of_ble_eq_true rfl)

theorem stepFld_spd (p : Fin 8) : stepFld p (wordOf (A.FBK_SPD p)) :=
  fbkFld_word 0x20 (by decide) (by simp only [wordOf, A.FBK_SPD, fbkPage]; omega)

theorem PortFrame.calm {W : Fld → Prop} (h : PortFrame W PortSt.quiet p s u) : PortFrame W PortSt.calm p s u := h.loosen fun _ => rfl

/-- A bit of FBK_STAT that a step may change. -/
theorem PortFrame.statB {g : PortSt → PortSt} {lo : Nat} (h : PortFrame (stepFld p) g p a s) (b : Bool) (hb : (lo, 1) ∈ stepBits) (hl : lo < 32) :
    PortFrame (stepFld p) g p a (s.putB ⟨A.FBK_STAT p, lo, 1⟩ b) := h.putB b (stepFld_stat p hb) (by simp only; omega)

theorem PortFrame.statRaise {g : PortSt → PortSt} {lo : Nat} (h : PortFrame (stepFld p) g p a s) (hb : (lo, 1) ∈ stepBits) (hl : lo < 32) :
    PortFrame (stepFld p) g p a (s.raise ⟨A.FBK_STAT p, lo, 1⟩) := h.raise (stepFld_stat p hb) (by simp only; omega)

theorem PortFrame.ladder (h : PortFrame (stepFld p) PortSt.calm p a s) : PortFrame (stepFld p) PortSt.calm p a (s.ladderTick p) :=
  h.trans ((State.ladderTick_quiet.mono fun _ hf => hf.step).calm)

theorem PortFrame.note (h : PortFrame (stepFld p) PortSt.calm p a s) : PortFrame (stepFld p) PortSt.calm p a s.notify :=
  h.trans (((PortFrame.refl.notify).lad.mono fun _ hf => hf.step).calm)

/-- The direction turns. -/
theorem PortFrame.turn (h : PortFrame (stepFld p) PortSt.calm p a s) (neg : Bool) (stamp : Tick) (cum : Int) :
    PortFrame (stepFld p) PortSt.calm p a (let s := (s.putB (F.FBK_STAT_DIR p) (!neg)).raise (F.FBK_STAT_DIRCHG p)
      let s := (s.notify).wr (A.FBK_SPD p) 0
      let s := s.spdRestart p
      let s := if s.fbkMode p = fmSSI then s.putB (F.FBK_STAT_ZERO p) (decide (0 < s.get (F.FBK_SPDMIN_MIN p))) else s
      s.modPort p (fun x => { x with evs := [(stamp, cum)], warm := 1, spdEv := 0 })) := by
  have h1 := (((h.statB (lo := 29) (!neg) (by decide) (by decide)).statRaise (lo := 12) (by decide) (by decide)).note.wr 0 (stepFld_spd p)).trans
    State.spdRestart_calm
  exact (PortFrame.ite (h1.statB (lo := 28) _ (by decide) (by decide)) h1).modPort fun _ => rfl

/-- A speed value of a span. -/
theorem PortFrame.speed (h : PortFrame (stepFld p) PortSt.calm p a s) (r : Int) (delta n : Nat) (x : PortSt) :
    PortFrame (stepFld p) PortSt.calm p a (let q := clampI (-0x7FFFFFFF) 0x7FFFFFFF r
      let s := if q != r then s.raise (F.FBK_STAT_SPDSAT p) else s
      let s := s.wr (A.FBK_SPD p) (wOfInt q)
      let s := s.modPort p (fun x => { x with delta := delta, spanN := n, spdEv := q })
      let s := if x.warm = 0 then s.putB (F.FBK_STAT_SPDVALID p) true else s
      let zero := s.fbkMode p == fmSSI && decide (q.natAbs < s.get (F.FBK_SPDMIN_MIN p))
      (s.putB (F.FBK_STAT_ZERO p) zero).ladderTick p) := by
  dsimp only
  generalize clampI (-0x7FFFFFFF) 0x7FFFFFFF r = q
  have h1 := (h.statRaise (lo := 5) (by decide) (by decide)).ite (c := (q != r) = true) h
  have h2 := (h1.wr (wOfInt q) (stepFld_spd p)).modPort (k := fun x => { x with delta := delta, spanN := n, spdEv := q }) fun _ => rfl
  exact (PortFrame.statB ((h2.statB (lo := 30) true (by decide) (by decide)).ite h2) (lo := 28) _ (by decide) (by decide)).ladder

theorem State.portEvent_calm (d : Int) (stamp : Tick) : PortFrame (stepFld p) PortSt.calm p s (s.portEvent p d stamp) := by
  unfold State.portEvent
  dsimp only
  have h0 : PortFrame (stepFld p) PortSt.calm p s (s.modPort p (fun x => { x with cum := x.cum + d, lastEv := some stamp, ext0 := s.extPos p })) :=
    PortFrame.refl.modPort fun _ => rfl
  generalize s.modPort p (fun x => { x with cum := x.cum + d, lastEv := some stamp, ext0 := s.extPos p }) = y at *
  refine PortFrame.ite (h0.turn ..) ?_
  have h1 := h0.modPort (k := fun x => { x with evs := ((stamp, (y.port p).cum) :: x.evs).take 257, warm := x.warm - 1 }) fun _ => rfl
  generalize y.modPort p (fun x => { x with evs := ((stamp, (y.port p).cum) :: x.evs).take 257, warm := x.warm - 1 }) = z at *
  split
  · exact h1
  · exact h1.ite (h1.speed ..)

/-! ## The count -/

/-- A change of the count enters the history. -/
theorem State.histAdd_frame (p0 w : Word) (stamp : Tick) : PortFrame (stepFld p) (fun x => { x with hist := [], changeAt := 0 }) p s (s.histAdd p p0 w stamp)
    ∧ ((s.histAdd p p0 w stamp).port p).changeAt = s.now := by
  unfold State.histAdd
  dsimp only
  have h0 : PortFrame (stepFld p) (fun x => { x with hist := [], changeAt := 0 }) p s
      (s.modPort p (fun x => { x with hist := ((stamp, p0, w) :: x.hist).take 64, changeAt := s.now })) := PortFrame.refl.modPort fun _ => rfl
  have h1 : ((s.modPort p (fun x => { x with hist := ((stamp, p0, w) :: x.hist).take 64, changeAt := s.now })).port p).changeAt = s.now := by
    rw [State.port_modPort_same]
  generalize s.modPort p (fun x => { x with hist := ((stamp, p0, w) :: x.hist).take 64, changeAt := s.now }) = y at *
  have hword : stepFld p (wordOf (A.FBK_PRBPOS p)) := fbkFld_word 0xB4 (by decide) (by simp only [wordOf, A.FBK_PRBPOS, fbkPage]; omega)
  split
  · split
    · exact ⟨h0.wr _ hword, h1⟩
    · exact ⟨h0, h1⟩
  · exact ⟨h0, h1⟩

/-- What a change of the count keeps of its port. -/
def PortSt.still (x : PortSt) : PortSt := { x.calm with hist := [], changeAt := 0, frozen := false }

theorem wordSum_toInt (x : BitVec 32) (q : Int) : (x + BitVec.ofInt 32 q).toInt % 2 ^ 32 = (x.toInt + q) % 2 ^ 32 := by
  have hadd : (x + BitVec.ofInt 32 q).toInt % 2 ^ 32 = (x.toInt + (BitVec.ofInt 32 q).toInt) % 2 ^ 32 := by
    rw [BitVec.toInt_add]; exact Int.bmod_emod
  have hq : (BitVec.ofInt 32 q).toInt % 2 ^ 32 = q % 2 ^ 32 := by
    rw [BitVec.toInt_ofInt]; exact Int.bmod_emod
  omega

/-- The count and its wraps, as one number. -/
theorem State.extPos_move {d : Int} (hu0 : u.rd (A.FBK_POS0 p) = wOfInt ((s.rd (A.FBK_POS0 p)).toNat + d))
    (hu1 : u.rd (A.FBK_POS1 p) = s.rd (A.FBK_POS1 p) + wOfInt (((s.rd (A.FBK_POS0 p)).toNat + d) / 2 ^ 32)) :
    (u.extPos p - (s.extPos p + d)) % 2 ^ 64 = 0 := by
  unfold State.extPos wInt wOfInt at *
  rw [hu0, hu1]
  have h := wordSum_toInt (s.rd (A.FBK_POS1 p)) ((((s.rd (A.FBK_POS0 p)).toNat : Int) + d) / 2 ^ 32)
  have hlow : ((BitVec.ofInt 32 (((s.rd (A.FBK_POS0 p)).toNat : Int) + d)).toNat : Int) = (((s.rd (A.FBK_POS0 p)).toNat : Int) + d) % 2 ^ 32 := by
    rw [BitVec.toNat_ofInt]; omega
  rw [hlow]
  generalize (s.rd (A.FBK_POS1 p) + BitVec.ofInt 32 ((((s.rd (A.FBK_POS0 p)).toNat : Int) + d) / 2 ^ 32)).toInt = b at *
  omega

theorem stepFld_apart {f : Fld} (o : Nat) (hf : f.addr = fbkPage p + o) (ho : o < 0x800) (hof : o ∉ 0x20 :: 0xB4 :: 0x48 :: cmpOfs) (h4 : o ≠ 4) :
    ∀ k, stepFld p k → Apart f k := fun _ hk => FbkFld.apart hf ho hof (fun e => absurd e h4) hk

theorem moveFld_apart {f : Fld} (o : Nat) (hf : f.addr = fbkPage p + o) (ho : o < 0x800)
    (hof : o ∉ 0x10 :: 0x14 :: 0x1C :: 0x20 :: 0xB4 :: 0x48 :: cmpOfs) (h4 : o ≠ 4) : ∀ k, moveFld p k → Apart f k :=
  fun _ hk => FbkFld.apart hf ho hof (fun e => absurd e h4) hk

/-- A bit of FBK_STAT that no step touches. -/
theorem moveFld_apart_stat {lo w : Nat} (h : ∀ x ∈ stepBits, lo + w ≤ x.1 ∨ x.1 + x.2 ≤ lo) : ∀ k, moveFld p k → Apart ⟨A.FBK_STAT p, lo, w⟩ k :=
  fun _ hk => FbkFld.apart (o := 4) (by simp only [A.FBK_STAT, fbkPage]; omega) (by decide) (by decide) (fun _ => h) hk

/-- The words of the count. -/
structure SameCount (p : Fin 8) (s u : State) : Prop where
  pos0 : u.rd (A.FBK_POS0 p) = s.rd (A.FBK_POS0 p)
  pos1 : u.rd (A.FBK_POS1 p) = s.rd (A.FBK_POS1 p)

namespace SameCount
variable {x : State}

theorem refl : SameCount p s s := ⟨rfl, rfl⟩
theorem trans (h : SameCount p s u) (k : SameCount p u x) : SameCount p s x := ⟨k.pos0.trans h.pos0, k.pos1.trans h.pos1⟩
theorem ext (h : SameCount p s u) : u.extPos p = s.extPos p := by unfold State.extPos; rw [h.pos0, h.pos1]

end SameCount

theorem PortFrame.count {g : PortSt → PortSt} (h : PortFrame (stepFld p) g p s u) : SameCount p s u := by
  constructor
  · rw [State.rd_eq_get, h.get (stepFld_apart 0x10 (by simp only [wordOf, A.FBK_POS0, fbkPage]; omega) (by decide) (by decide) (by decide)), ← State.rd_eq_get]
  · rw [State.rd_eq_get, h.get (stepFld_apart 0x14 (by simp only [wordOf, A.FBK_POS1, fbkPage]; omega) (by decide) (by decide) (by decide)), ← State.rd_eq_get]

/-- The words of the count take its new value. -/
theorem State.countWords (w v : Word) : ((s.wr (A.FBK_POS0 p) w).wr (A.FBK_POS1 p) v).rd (A.FBK_POS0 p) = w
    ∧ ((s.wr (A.FBK_POS0 p) w).wr (A.FBK_POS1 p) v).rd (A.FBK_POS1 p) = v := by
  have hne : A.FBK_POS0 p ≠ A.FBK_POS1 p := by simp only [A.FBK_POS0, A.FBK_POS1]; omega
  exact ⟨by rw [State.rd_wr_ne _ _ hne, State.rd_wr_same], State.rd_wr_same ..⟩

/-- A move of the count. -/
structure Moved (p : Fin 8) (d : Int) (s u : State) : Prop where
  frame : PortFrame (moveFld p) PortSt.still p s u
  pos : (u.extPos p - (s.extPos p + d)) % 2 ^ 64 = 0
  pos0 : u.rd (A.FBK_POS0 p) = wOfInt ((s.rd (A.FBK_POS0 p)).toNat + d)
  changed : (u.port p).changeAt = s.now

theorem moveFld_word (o : Nat) {b : Nat} (ho : o ∈ [0x10, 0x14, 0x1C]) (hb : b = fbkPage p + o) : moveFld p (wordOf b) := by
  refine fbkFld_word o ?_ hb
  clear hb
  revert ho o
  decide

/-- The count and its wraps are stored. -/
theorem State.countStored (d : Int) (w : Word) (hw : w = wOfInt ((s.rd (A.FBK_POS0 p)).toNat + d)) :
    let u := (s.wr (A.FBK_POS0 p) w).wrapCount p (s.rd (A.FBK_POS0 p)) d
    PortFrame (moveFld p) id p s u ∧ (u.extPos p - (s.extPos p + d)) % 2 ^ 64 = 0 ∧ u.rd (A.FBK_POS0 p) = w := by
  intro u
  have hne : A.FBK_POS1 p ≠ A.FBK_POS0 p := by simp only [A.FBK_POS0, A.FBK_POS1]; omega
  have hu : u = (s.wr (A.FBK_POS0 p) w).wr (A.FBK_POS1 p) (s.rd (A.FBK_POS1 p) + wOfInt (((s.rd (A.FBK_POS0 p)).toNat + d) / 2 ^ 32)) := by
    rw [← State.rd_wr_ne s w hne]
    rfl
  obtain ⟨h0, h1⟩ := State.countWords (s := s) (p := p) w (s.rd (A.FBK_POS1 p) + wOfInt (((s.rd (A.FBK_POS0 p)).toNat + d) / 2 ^ 32))
  rw [← hu] at h0 h1
  refine ⟨?_, State.extPos_move (h0.trans hw) h1, h0⟩
  rw [hu]
  exact (PortFrame.refl.wr _ (moveFld_word 0x10 (by decide) (by simp only [A.FBK_POS0, fbkPage]; omega))).wr _
    (moveFld_word 0x14 (by decide) (by simp only [A.FBK_POS1, fbkPage]; omega))

theorem State.countStamped (v : Word) : PortFrame (moveFld p) id p s (s.wr (A.FBK_POSSTAMP p) v) ∧ SameCount p s (s.wr (A.FBK_POSSTAMP p) v) := by
  refine ⟨PortFrame.refl.wr _ (moveFld_word 0x1C (by decide) (by simp only [A.FBK_POSSTAMP, fbkPage]; omega)), ?_, ?_⟩
  · exact State.rd_wr_ne _ _ (by simp only [A.FBK_POS0, A.FBK_POSSTAMP]; omega)
  · exact State.rd_wr_ne _ _ (by simp only [A.FBK_POS1, A.FBK_POSSTAMP]; omega)

theorem State.portMove_moved {d : Int} (hd : d ≠ 0) (stamp : Tick) : Moved p d s (s.portMove p d stamp) := by
  unfold State.portMove
  rw [if_neg hd]
  dsimp only
  generalize hw : wOfInt ((s.rd (A.FBK_POS0 p)).toNat + d) = w
  have hcrossed := s.crossed p (s.rd (A.FBK_POS0 p)) (sdiff w (s.rd (A.FBK_POS0 p)))
  obtain ⟨hf1, hpos, hpos0⟩ := State.countStored (s := s) (p := p) d w hw.symm
  generalize (s.wr (A.FBK_POS0 p) w).wrapCount p (s.rd (A.FBK_POS0 p)) d = x1 at *
  obtain ⟨hf2, hc2⟩ := State.countStamped (s := x1) (p := p) (BitVec.ofNat 32 (x1.stampOf (256 * stamp)))
  generalize x1.wr (A.FBK_POSSTAMP p) (BitVec.ofNat 32 (x1.stampOf (256 * stamp))) = x2 at *
  have hf3 : PortFrame (stepFld p) PortSt.still p x2 (x2.modPort p (fun x => { x with frozen := false })) := PortFrame.refl.modPort fun _ => rfl
  generalize x2.modPort p (fun x => { x with frozen := false }) = x3 at *
  obtain ⟨hf4, hat⟩ := State.histAdd_frame (s := x3) (p := p) (s.rd (A.FBK_POS0 p)) w stamp
  generalize x3.histAdd p (s.rd (A.FBK_POS0 p)) w stamp = x4 at *
  have hf5 : PortFrame (unitFld p) PortSt.quiet p x4 (each (x4.crossed p (s.rd (A.FBK_POS0 p)) (sdiff w (s.rd (A.FBK_POS0 p)))) (fun k s => s.unitFireBase p k stamp) x4) :=
    PortFrame.refl.each fun _ _ => State.unitFireBase_quiet stamp
  generalize each _ _ x4 = u at *
  have h34 : PortFrame (stepFld p) PortSt.still p x2 x4 := hf3.trans (hf4.loosen fun _ => rfl)
  have h25 : PortFrame (stepFld p) PortSt.still p x2 u := h34.trans ((hf5.mono fun _ hf => hf.step).loosen fun _ => rfl)
  have hcount : SameCount p x1 u := hc2.trans h25.count
  have h02 : PortFrame (moveFld p) id p s x2 := hf1.trans hf2
  refine ⟨(h02.loosen fun _ => rfl).trans (h25.mono fun _ hf => hf.move), by rw [hcount.ext]; exact hpos, by rw [hcount.pos0, hpos0, hw], ?_⟩
  have hkeep : (u.port p).changeAt = (x4.port p).changeAt := by
    have h := congrArg PortSt.changeAt hf5.port
    exact h
  rw [hkeep, hat, hf3.now, h02.now]

/-- A step of the count. -/
theorem State.portStep_moved {d : Int} (hd : d ≠ 0) (stamp : Tick) : Moved p d s (s.portStep p d stamp) := by
  unfold State.portStep
  dsimp only
  have h1 := State.portMove_moved (s := s) (p := p) hd stamp
  generalize s.portMove p d stamp = x at *
  have h2 := State.portEvent_calm (s := x) (p := p) d stamp
  generalize x.portEvent p d stamp = y at *
  generalize List.filter _ _ = l
  have h3 : PortFrame (unitFld p) PortSt.quiet p y (each l (fun (k : Fin 4) s => s.unitMark p k) y) := PortFrame.refl.each fun _ _ => State.unitMark_quiet
  generalize each l (fun (k : Fin 4) s => s.unitMark p k) y = u at *
  have h23 : PortFrame (stepFld p) PortSt.calm p x u := h2.trans ((h3.mono fun _ hf => hf.step).calm)
  have hat : (u.port p).changeAt = (x.port p).changeAt := by
    have h := congrArg PortSt.changeAt h23.port
    exact h
  exact ⟨h1.frame.trans ((h23.mono fun _ hf => hf.move).loosen fun _ => rfl), by rw [h23.count.ext]; exact h1.pos, by rw [h23.count.pos0, h1.pos0],
    by rw [hat, h1.changed]⟩

/-! ## Losses -/

/-- A port that is lost. -/
structure PortLost (p : Fin 8) (s u : State) : Prop where
  frame : PortFrame (stepFld p) PortSt.ins p s u
  lost : u.get (F.FBK_STAT_LOST p) = 1
  loss : u.get (F.FBK_STAT_LOSS p) = 1
  posInvalid : u.get (F.FBK_STAT_POSVALID p) = 0
  spdInvalid : u.get (F.FBK_STAT_SPDVALID p) = 0
  jrn : s.get (F.FBK_STAT_LOST p) = 1 → s.ladderOn p = none → u.jrn = s.jrn

/-- A bit of FBK_STAT that the ladder does not show. -/
theorem PortFrame.stat {g : PortSt → PortSt} {lo w : Nat} (h : PortFrame (ladFld p) g p s u) (hb : ∀ x ∈ [(24, 3)], lo + w ≤ x.1 ∨ x.1 + x.2 ≤ lo) :
    u.get ⟨A.FBK_STAT p, lo, w⟩ = s.get ⟨A.FBK_STAT p, lo, w⟩ :=
  h.get fun _ hk => FbkFld.apart (o := 4) (by simp only [A.FBK_STAT, fbkPage]; omega) (by decide) (by decide) (fun _ => hb) hk

/-- The history of the speed is empty. -/
def State.spdEmpty (s : State) (p : Fin 8) : State := s.modPort p (fun x => { x with evs := [], warm := 2, delta := 0, spanN := 0 })

theorem State.spdRestart_eq : s.spdRestart p = (s.spdEmpty p).put (F.FBK_STAT_SPDVALID p) 0 := rfl

theorem State.spdEmpty_regs : (s.spdEmpty p).regs = s.regs ∧ (s.spdEmpty p).jrn = s.jrn := ⟨rfl, rfl⟩

theorem State.spdRestart_invalid : (s.spdRestart p).get (F.FBK_STAT_SPDVALID p) = 0 := by
  rw [State.spdRestart_eq, State.get_put_same _ _ (Nat.le_of_ble_eq_true rfl)]
  rfl

theorem State.spdRestart_stat {lo : Nat} (hlo : lo + 1 ≤ 30 ∨ 31 ≤ lo) : (s.spdRestart p).get ⟨A.FBK_STAT p, lo, 1⟩ = s.get ⟨A.FBK_STAT p, lo, 1⟩ := by
  rw [State.spdRestart_eq, State.get_put_bits _ _ (f := F.FBK_STAT_SPDVALID p) (Nat.le_of_ble_eq_true rfl) hlo]
  unfold State.get State.rd
  rw [State.spdEmpty_regs.1]

/-- The losses of a port, as FBK_STAT shows them. -/
def State.lossShow (s : State) (p : Fin 8) : State :=
  (((s.raise (F.FBK_STAT_LOSS p)).putB (F.FBK_STAT_LOST p) true).putB (F.FBK_STAT_POSVALID p) false).spdRestart p

theorem State.lossShow_shows : PortFrame (stepFld p) PortSt.calm p s (s.lossShow p) ∧ (s.lossShow p).get (F.FBK_STAT_LOST p) = 1
    ∧ (s.lossShow p).get (F.FBK_STAT_LOSS p) = 1 ∧ (s.lossShow p).get (F.FBK_STAT_POSVALID p) = 0 ∧ (s.lossShow p).get (F.FBK_STAT_SPDVALID p) = 0 := by
  unfold State.lossShow
  have f1 : PortFrame (stepFld p) PortSt.calm p s (s.raise (F.FBK_STAT_LOSS p)) := PortFrame.refl.statRaise (lo := 15) (by decide) (by decide)
  have h1 : (s.raise (F.FBK_STAT_LOSS p)).get (F.FBK_STAT_LOSS p) = 1 := State.get_raise_same _ (Nat.le_of_ble_eq_true rfl) rfl
  generalize s.raise (F.FBK_STAT_LOSS p) = y1 at *
  have f2 := f1.putB (f := F.FBK_STAT_LOST p) true (stepFld_stat p (by decide)) (Nat.le_of_ble_eq_true rfl)
  have h2 : (y1.putB (F.FBK_STAT_LOST p) true).get (F.FBK_STAT_LOST p) = 1 := State.get_put_same y1 _ (f := F.FBK_STAT_LOST p) (Nat.le_of_ble_eq_true rfl)
  have k2 (lo : Nat) (hlo : lo + 1 ≤ 27) : (y1.putB (F.FBK_STAT_LOST p) true).get ⟨A.FBK_STAT p, lo, 1⟩ = y1.get ⟨A.FBK_STAT p, lo, 1⟩ :=
    State.get_put_bits y1 _ (f := F.FBK_STAT_LOST p) (Nat.le_of_ble_eq_true rfl) (Or.inl hlo)
  have h12 := (k2 15 (by decide)).trans h1
  generalize y1.putB (F.FBK_STAT_LOST p) true = y2 at *
  have f3 := f2.putB (f := F.FBK_STAT_POSVALID p) false (stepFld_stat p (by decide)) (Nat.le_of_ble_eq_true rfl)
  have h3 : (y2.putB (F.FBK_STAT_POSVALID p) false).get (F.FBK_STAT_POSVALID p) = 0 := State.get_put_same y2 _ (f := F.FBK_STAT_POSVALID p) (Nat.le_of_ble_eq_true rfl)
  have k3 (lo : Nat) (hlo : lo + 1 ≤ 31) : (y2.putB (F.FBK_STAT_POSVALID p) false).get ⟨A.FBK_STAT p, lo, 1⟩ = y2.get ⟨A.FBK_STAT p, lo, 1⟩ :=
    State.get_put_bits y2 _ (f := F.FBK_STAT_POSVALID p) (Nat.le_of_ble_eq_true rfl) (Or.inl hlo)
  have h13 := (k3 15 (by decide)).trans h12
  have h23 := (k3 27 (by decide)).trans h2
  generalize y2.putB (F.FBK_STAT_POSVALID p) false = y3 at *
  have f4 := f3.trans (State.spdRestart_calm (s := y3))
  have k4 (lo : Nat) (hlo : lo + 1 ≤ 30 ∨ 31 ≤ lo) : (y3.spdRestart p).get ⟨A.FBK_STAT p, lo, 1⟩ = y3.get ⟨A.FBK_STAT p, lo, 1⟩ :=
    State.spdRestart_stat hlo
  exact ⟨f4, (k4 27 (by decide)).trans h23, (k4 15 (by decide)).trans h13, (k4 31 (by decide)).trans h3, State.spdRestart_invalid⟩

theorem State.lossShow_quiet : RegsBut [A.FBK_STAT p] s (s.lossShow p) ∧ (s.lossShow p).jrn = s.jrn := by
  have hmem (lo w : Nat) : (⟨A.FBK_STAT p, lo, w⟩ : Fld).addr ∈ [A.FBK_STAT p] := List.mem_singleton_self _
  unfold State.lossShow
  rw [State.spdRestart_eq, State.putB_eq, State.putB_eq]
  constructor
  · refine (regsBut_put (hmem 30 1)).mpr (RegsBut.of_regs ?_ State.spdEmpty_regs.1)
    exact (regsBut_put (hmem 31 1)).mpr ((regsBut_put (hmem 27 1)).mpr ((regsBut_raise (hmem 15 1)).mpr RegsBut.refl))
  · rw [State.put_jrn, State.spdEmpty_regs.2, State.put_jrn, State.put_jrn, State.raise_jrn]

/-- The references of a lost port are forgotten. -/
def State.lossForget (s : State) (p : Fin 8) (det : Nat) : State := s.modPort p (fun x => { x with
  haveRef := false, ssiPrev := none, sector := none, frozen := x.frozen || det == fdFROZEN, lossAt := some s.now })

theorem State.lossForget_kept (det : Nat) : PortFrame (stepFld p) PortSt.ins p s (s.lossForget p det) ∧ (s.lossForget p det).regs = s.regs
    ∧ (s.lossForget p det).jrn = s.jrn := ⟨PortFrame.refl.modPort fun _ => rfl, rfl, rfl⟩

theorem State.portLoss_eq (det : Nat) (at_ : Tick) : s.portLoss p det at_
    = ((((let y := if s.bit (F.FBK_STAT_LOST p) then s else s.recordAt (fcode cFEEDBACK det) p.val (s.stampOf (256 * at_)) 0
        y.wr (A.FBK_SPD p) (wOfInt (y.fbkSpeed p))).lossShow p).lossForget p det).ladderEntry p (s.port p).spdEv.natAbs).outsRefresh := rfl

theorem State.outsRefresh_jrn : s.outsRefresh.jrn = s.jrn := by
  have hpins (y : State) (m : Fin 2) : (y.outPins m).jrn = y.jrn := by
    unfold State.outPins
    dsimp only
    rw [State.wr_jrn, State.putB_eq, State.put_jrn, State.putB_eq, State.put_jrn, State.putB_eq, State.put_jrn, State.modOut_jrn]
  have hone (y : State) (m : Fin 2) : (y.outRefresh m).jrn = y.jrn := by
    unfold State.outRefresh
    dsimp only
    split
    · exact hpins ..
    · split
      · rw [hpins, State.putB_eq, State.put_jrn, State.modOut_jrn]
      · rw [hpins, State.modOut_jrn, State.putB_eq, State.put_jrn]
  exact (hone _ _).trans (hone _ _)

/-- The ladder's team depends on words that a loss does not touch. -/
theorem State.ladderOn_congr (h : RegsBut [A.FBK_STAT p, A.FBK_SPD p] s u) : u.ladderOn p = s.ladderOn p := by
  have hget {f : Fld} (hs : f.addr ≠ A.FBK_STAT p) (hp : f.addr ≠ A.FBK_SPD p) : u.get f = s.get f :=
    h.get (g := f) (by simp [hs, hp])
  have hcfg : A.FBK_CFG p ≠ A.FBK_STAT p ∧ A.FBK_CFG p ≠ A.FBK_SPD p := by
    simp only [A.FBK_CFG, A.FBK_STAT, A.FBK_SPD]; omega
  have hteam (t : Fin 24) : A.TEAM_STAT t ≠ A.FBK_STAT p ∧ A.TEAM_STAT t ≠ A.FBK_SPD p := by
    simp only [A.TEAM_STAT, A.FBK_STAT, A.FBK_SPD]; omega
  have hobs (t : Fin 24) : A.CE_OBS t ≠ A.FBK_STAT p ∧ A.CE_OBS t ≠ A.FBK_SPD p := by
    simp only [A.CE_OBS, A.FBK_STAT, A.FBK_SPD]; omega
  unfold State.ladderOn State.fbkTeam State.tstate State.bit
  simp only [hget (f := F.FBK_CFG_TEAM p) hcfg.1 hcfg.2, hget (f := F.FBK_CFG_LADEN p) hcfg.1 hcfg.2,
    fun t : Fin 24 => hget (f := F.TEAM_STAT_STATE t) (hteam t).1 (hteam t).2, fun t : Fin 24 => hget (f := F.CE_OBS_MODE t) (hobs t).1 (hobs t).2]

theorem State.ladderEntry_off {v : Nat} (h : s.ladderOn p = none) : s.ladderEntry p v = s := by
  unfold State.ladderEntry
  split
  · rfl
  · next t ht => exact absurd (h.symm.trans ht) (by simp)

theorem State.portLoss_lost (det : Nat) (at_ : Tick) : PortLost p s (s.portLoss p det at_) := by
  rw [State.portLoss_eq]
  dsimp only
  have f1 : PortFrame (stepFld p) PortSt.ins p s (if s.bit (F.FBK_STAT_LOST p) = true then s
      else s.recordAt (fcode cFEEDBACK det) p.val (s.stampOf (256 * at_)) 0) :=
    PortFrame.refl.ite ((((PortFrame.refl (g := id)).recordAt ..).lad.mono fun _ hf => hf.step).loosen fun _ => rfl)
  have j1 (hl : s.get (F.FBK_STAT_LOST p) = 1) : (if s.bit (F.FBK_STAT_LOST p) = true then s
      else s.recordAt (fcode cFEEDBACK det) p.val (s.stampOf (256 * at_)) 0) = s := if_pos ((State.bit_iff ..).mpr (by rw [hl]; decide))
  generalize (if s.bit (F.FBK_STAT_LOST p) = true then s else s.recordAt (fcode cFEEDBACK det) p.val (s.stampOf (256 * at_)) 0) = y1 at *
  have f2 := f1.wr (wOfInt (y1.fbkSpeed p)) (stepFld_spd p)
  have r2 : RegsBut [A.FBK_STAT p, A.FBK_SPD p] y1 (y1.wr (A.FBK_SPD p) (wOfInt (y1.fbkSpeed p))) := (regsBut_wr (by simp)).mpr RegsBut.refl
  have j2 : (y1.wr (A.FBK_SPD p) (wOfInt (y1.fbkSpeed p))).jrn = y1.jrn := State.wr_jrn ..
  generalize y1.wr (A.FBK_SPD p) (wOfInt (y1.fbkSpeed p)) = y2 at *
  obtain ⟨f3, hlost, hloss, hpos, hspd⟩ := State.lossShow_shows (s := y2) (p := p)
  obtain ⟨r3, j3⟩ := State.lossShow_quiet (s := y2) (p := p)
  generalize y2.lossShow p = y3 at *
  obtain ⟨f4, r4, j4⟩ := State.lossForget_kept (s := y3) (p := p) det
  have k4 (f : Fld) : (y3.lossForget p det).get f = y3.get f := by unfold State.get State.rd; rw [r4]
  have l4 : (y3.lossForget p det).ladderOn p = y1.ladderOn p :=
    State.ladderOn_congr ((r2.trans (r3.mono (by simp))).of_regs r4)
  rw [← k4] at hlost hloss hpos hspd
  generalize y3.lossForget p det = y4 at *
  have f5 := State.ladderEntry_quiet (s := y4) (p := p) (s.port p).spdEv.natAbs
  have j5 (hn : y4.ladderOn p = none) : y4.ladderEntry p (s.port p).spdEv.natAbs = y4 := State.ladderEntry_off hn
  generalize y4.ladderEntry p (s.port p).spdEv.natAbs = y5 at *
  have f6 : PortFrame (ladFld p) PortSt.quiet p y5 y5.outsRefresh := ((PortFrame.refl (g := id)).outsRefresh).lad
  have j6 := State.outsRefresh_jrn (s := y5)
  generalize y5.outsRefresh = u at *
  have f46 := f5.trans f6
  refine ⟨?_, (f46.stat (by decide)).trans hlost, (f46.stat (by decide)).trans hloss, (f46.stat (by decide)).trans hpos, (f46.stat (by decide)).trans hspd, ?_⟩
  · exact ((f2.trans (f3.loosen fun _ => rfl)).trans f4).trans ((f46.mono fun _ hf => hf.step).loosen fun _ => rfl)
  · intro hl hn
    rw [j6, j5 (by rw [l4, j1 hl, hn]), j4, j3, j2, j1 hl]

/-! ## The position becomes VALID -/

/-- What the position's becoming VALID shows. -/
def State.validShow (s : State) (p : Fin 8) : State := (s.putB (F.FBK_STAT_POSVALID p) true).putB (F.FBK_STAT_LOST p) false

theorem State.validShow_shows : PortFrame (stepFld p) PortSt.quiet p s (s.validShow p) ∧ (s.validShow p).get (F.FBK_STAT_POSVALID p) = 1
    ∧ (s.validShow p).get (F.FBK_STAT_LOST p) = 0 := by
  unfold State.validShow
  have f1 : PortFrame (stepFld p) PortSt.quiet p s (s.putB (F.FBK_STAT_POSVALID p) true) :=
    PortFrame.refl.putB _ (stepFld_stat p (by decide)) (Nat.le_of_ble_eq_true rfl)
  have h1 : (s.putB (F.FBK_STAT_POSVALID p) true).get (F.FBK_STAT_POSVALID p) = 1 := State.get_put_same s _ (f := F.FBK_STAT_POSVALID p) (Nat.le_of_ble_eq_true rfl)
  generalize s.putB (F.FBK_STAT_POSVALID p) true = y at *
  refine ⟨f1.putB _ (stepFld_stat p (by decide)) (Nat.le_of_ble_eq_true rfl), ?_, State.get_put_same y _ (f := F.FBK_STAT_LOST p) (Nat.le_of_ble_eq_true rfl)⟩
  exact (State.get_put_bits y _ (f := F.FBK_STAT_LOST p) (Nat.le_of_ble_eq_true rfl) (Or.inr (Nat.le_of_ble_eq_true rfl))).trans h1

theorem State.posValid_valid : PortFrame (stepFld p) PortSt.quiet p s (s.posValid p)
    ∧ ((s.port p).frozen = false → (s.posValid p).get (F.FBK_STAT_POSVALID p) = 1 ∧ (s.posValid p).get (F.FBK_STAT_LOST p) = 0) := by
  obtain ⟨f1, hpos, hlost⟩ := State.validShow_shows (s := s) (p := p)
  have heq : s.posValid p = if (s.port p).frozen = true then s else (s.validShow p).outsRefresh.ladderTick p := rfl
  rw [heq]
  generalize s.validShow p = y at *
  have f2 : PortFrame (ladFld p) PortSt.quiet p y y.outsRefresh := ((PortFrame.refl (g := id)).outsRefresh).lad
  generalize y.outsRefresh = z at *
  have f3 := f2.trans (State.ladderTick_quiet (s := z))
  refine ⟨PortFrame.refl.ite (f1.trans (f3.mono fun _ hf => hf.step)), fun hf => ?_⟩
  rw [hf, if_neg Bool.false_ne_true]
  exact ⟨(f3.stat (by decide)).trans hpos, (f3.stat (by decide)).trans hlost⟩

/-! ## A count that jumps -/

/-- A jump of the count. -/
structure Jumped (p : Fin 8) (w : Word) (s u : State) : Prop where
  frame : PortFrame (moveFld p) (fun x => { x.quiet with hist := [], changeAt := 0 }) p s u
  pos0 : u.rd (A.FBK_POS0 p) = w
  pos1 : u.rd (A.FBK_POS1 p) = s.rd (A.FBK_POS1 p)

/-- A unit at a jump of the count. -/
def State.jumpUnit (p : Fin 8) (p0 w : Word) (k : Fin 4) (s : State) : State :=
  (if crosses p0 (s.rd (A.FBK_CMPTGT p k)) (sdiff w p0) then (s.raise (F.FBK_CMPSTAT_SKIP p k)).raise (F.FBK_STAT_CMPSKIP p) else s).unitEval p k

theorem State.jumpUnit_quiet {p0 w : Word} : PortFrame (stepFld p) PortSt.quiet p s (State.jumpUnit p p0 w k s) := by
  have hskip : PortFrame (stepFld p) PortSt.quiet p s ((s.raise (F.FBK_CMPSTAT_SKIP p k)).raise (F.FBK_STAT_CMPSKIP p)) :=
    (PortFrame.refl.raise (unitFld_word p k 0x10C (by decide)).step (Nat.le_of_ble_eq_true rfl)).raise (stepFld_stat p (by decide))
      (Nat.le_of_ble_eq_true rfl)
  exact (hskip.ite PortFrame.refl).trans (State.unitEval_quiet.mono fun _ hf => hf.step)

theorem State.portJump_jumps (w : Word) (stamp : Tick) : Jumped p w s (s.portJump p w stamp) := by
  unfold State.portJump
  dsimp only
  split
  case isTrue h => exact ⟨PortFrame.refl, h.symm, rfl⟩
  case isFalse h =>
    have f1 : PortFrame (moveFld p) id p s (s.wr (A.FBK_POS0 p) w) :=
      PortFrame.refl.wr _ (moveFld_word 0x10 (by decide) (by simp only [A.FBK_POS0, fbkPage]; omega))
    have h0 : (s.wr (A.FBK_POS0 p) w).rd (A.FBK_POS0 p) = w := State.rd_wr_same ..
    have h1 : (s.wr (A.FBK_POS0 p) w).rd (A.FBK_POS1 p) = s.rd (A.FBK_POS1 p) := State.rd_wr_ne _ _ (by simp only [A.FBK_POS0, A.FBK_POS1]; omega)
    generalize s.wr (A.FBK_POS0 p) w = x1 at *
    obtain ⟨f2, hc2⟩ := State.countStamped (s := x1) (p := p) (BitVec.ofNat 32 (x1.stampOf (256 * stamp)))
    generalize x1.wr (A.FBK_POSSTAMP p) (BitVec.ofNat 32 (x1.stampOf (256 * stamp))) = x2 at *
    obtain ⟨f3, -⟩ := State.histAdd_frame (s := x2) (p := p) (s.rd (A.FBK_POS0 p)) w stamp
    generalize x2.histAdd p (s.rd (A.FBK_POS0 p)) w stamp = x3 at *
    have f4 : PortFrame (stepFld p) PortSt.quiet p x3 (each cmpUnits (State.jumpUnit p (s.rd (A.FBK_POS0 p)) w) x3) :=
      PortFrame.refl.each fun _ _ => State.jumpUnit_quiet
    have hcount : SameCount p x1 (each cmpUnits (State.jumpUnit p (s.rd (A.FBK_POS0 p)) w) x3) := hc2.trans (f3.count.trans f4.count)
    refine ⟨?_, hcount.pos0.trans h0, hcount.pos1.trans h1⟩
    exact (((f1.trans f2).loosen fun _ => rfl).trans ((f3.mono fun _ hf => hf.move).loosen fun _ => rfl)).trans ((f4.mono fun _ hf => hf.move).loosen fun _ => rfl)

end Ops


end Sys2Proof.Machine
end

section
/-!
PROOFS. Chapter 11: accepted edges, positions and probes.
-/
namespace Sys2Proof.Machine

section Edges
variable {p : Fin 8} {a s u x : State} {g : PortSt → PortSt}

/-! ## What the mode of a port depends on -/

/-- The words that say how a port counts. -/
structure SameMode (p : Fin 8) (s u : State) : Prop where
  cfg : u.rd (A.FBK_CFG p) = s.rd (A.FBK_CFG p)
  err : u.get (F.FBK_STAT_CFGERR p) = s.get (F.FBK_STAT_CFGERR p)
  map : u.rd (A.FBK_HALLMAP p) = s.rd (A.FBK_HALLMAP p)

namespace SameMode

theorem trans (h : SameMode p s u) (k : SameMode p u x) : SameMode p s x := ⟨k.cfg.trans h.cfg, k.err.trans h.err, k.map.trans h.map⟩

theorem of_regs (h : u.regs = s.regs) : SameMode p s u := by
  have hrd (b : Nat) : u.rd b = s.rd b := by unfold State.rd; rw [h]
  exact ⟨hrd _, by unfold State.get; rw [hrd], hrd _⟩

theorem get (h : SameMode p s u) {f : Fld} (hf : f.addr = A.FBK_CFG p) : u.get f = s.get f := by unfold State.get; rw [hf, h.cfg]

theorem bit (h : SameMode p s u) {f : Fld} (hf : f.addr = A.FBK_CFG p) : u.bit f = s.bit f := State.bit_congr (h.get hf)

theorem mode (h : SameMode p s u) : u.fbkMode p = s.fbkMode p := by
  unfold State.fbkMode State.hallPerm State.hallSector
  simp only [h.get (f := F.FBK_CFG_MODE p) rfl, State.bit_congr h.err, h.map]

theorem signed (h : SameMode p s u) (d : Int) : u.signed p d = s.signed p d := by
  unfold State.signed
  rw [h.bit (f := F.FBK_CFG_DIRINV p) rfl]

end SameMode

theorem FldsBut.sameMode {bits : List (Nat × Nat)} {ofs : List Nat} (h : FldsBut (FbkFld bits ofs p) s u) (h0 : 0 ∉ ofs) (h4 : 4 ∉ ofs) (h70 : 0x70 ∉ ofs)
    (hb : ∀ x ∈ bits, 17 + 1 ≤ x.1 ∨ x.1 + x.2 ≤ 17) : SameMode p s u := by
  refine ⟨?_, h.get fun k hk => FbkFld.apart (o := 4) (by simp only [F.FBK_STAT_CFGERR, A.FBK_STAT, fbkPage]; omega) (by decide) h4 (fun _ => hb) hk, ?_⟩
  · rw [State.rd_eq_get, h.get fun k hk => FbkFld.apart (o := 0) (by simp only [wordOf, A.FBK_CFG, fbkPage]; omega) (by decide) h0
      (fun e => absurd e (by decide)) hk, ← State.rd_eq_get]
  · rw [State.rd_eq_get, h.get fun k hk => FbkFld.apart (o := 0x70) (by simp only [wordOf, A.FBK_HALLMAP, fbkPage]; omega) (by decide) h70
      (fun e => absurd e (by decide)) hk, ← State.rd_eq_get]

theorem PortFrame.sameMode (h : PortFrame (moveFld p) g p s u) : SameMode p s u := FldsBut.sameMode h.flds (by decide) (by decide) (by decide) (by decide)

/-! ## Levels that returned -/

/-- The fields of a glitch. -/
def glitchFld (p : Fin 8) (f : Fld) : Prop := FbkFld [(7, 1)] [0xA0] p f

/-- n levels that returned. -/
structure Glitched (p : Fin 8) (n : Nat) (s u : State) : Prop where
  frame : PortFrame (glitchFld p) id p s u
  count : u.get (F.FBK_CNT_GLITCH p) = min (2 ^ 16 - 1) (s.get (F.FBK_CNT_GLITCH p) + n)
  seen : 0 < n → u.get (F.FBK_STAT_GLITCH p) = 1

theorem State.glitch_one : Glitched p 1 s (s.glitch p) := by
  unfold State.glitch State.bumpSat
  have f1 : PortFrame (glitchFld p) id p s (s.raise (F.FBK_STAT_GLITCH p)) :=
    PortFrame.refl.raise (fbkFld_stat (by simp only [F.FBK_STAT_GLITCH, A.FBK_STAT, fbkPage]; omega) (List.mem_singleton_self _)) (Nat.le_of_ble_eq_true rfl)
  have h1 : (s.raise (F.FBK_STAT_GLITCH p)).get (F.FBK_STAT_GLITCH p) = 1 := State.get_raise_same _ (Nat.le_of_ble_eq_true rfl) rfl
  have hne : A.FBK_CNT p ≠ A.FBK_STAT p := by simp only [A.FBK_CNT, A.FBK_STAT]; omega
  have h2 : (s.raise (F.FBK_STAT_GLITCH p)).get (F.FBK_CNT_GLITCH p) = s.get (F.FBK_CNT_GLITCH p) :=
    State.get_put_word s _ (f := F.FBK_STAT_GLITCH p) (g := F.FBK_CNT_GLITCH p) hne
  generalize s.raise (F.FBK_STAT_GLITCH p) = y at *
  refine ⟨f1.put _ (fbkFld_word 0xA0 (by decide) (by simp only [F.FBK_CNT_GLITCH, A.FBK_CNT, fbkPage]; omega)) (Nat.le_of_ble_eq_true rfl), ?_, fun _ => ?_⟩
  · refine (State.get_put_same _ _ (Nat.le_of_ble_eq_true rfl)).trans ?_
    rw [h2]
    exact Nat.mod_eq_of_lt (lt_of_le_of_lt (Nat.min_le_left _ _) (Nat.sub_lt (Nat.two_pow_pos _) Nat.one_pos))
  · exact (State.get_put_word y _ (f := F.FBK_CNT_GLITCH p) (g := F.FBK_STAT_GLITCH p) hne.symm).trans h1

theorem State.glitches (n : Nat) : Glitched p n s (each (List.range n) (fun _ s => s.glitch p) s) := by
  have hlt : s.get (F.FBK_CNT_GLITCH p) < 2 ^ 16 := Nat.mod_lt _ (Nat.two_pow_pos _)
  induction n with
  | zero =>
    have hzero : each (List.range 0) (fun _ s => s.glitch p) s = s := rfl
    rw [hzero]
    exact ⟨PortFrame.refl, (Nat.min_eq_right (by omega)).symm, fun h => absurd h (by decide)⟩
  | succ n ih =>
    have hsucc : each (List.range (n + 1)) (fun _ s => s.glitch p) s = (each (List.range n) (fun _ s => s.glitch p) s).glitch p := by
      unfold each
      rw [List.range_succ, List.foldl_append]
      rfl
    rw [hsucc]
    generalize each (List.range n) (fun _ s => s.glitch p) s = y at *
    have h1 := State.glitch_one (s := y) (p := p)
    exact ⟨ih.frame.trans h1.frame, by rw [h1.count, ih.count]; omega, fun _ => h1.seen (by decide)⟩

/-! ## Accepted levels -/

/-- A port with its levels taken. -/
def State.portLevels (s : State) (p : Fin 8) (acc raw : Abz) : State := s.modPort p (fun x => { x with a := acc.a, b := acc.b, z := acc.z, raw := raw })

/-- A port without its levels. -/
def PortSt.noLevels (x : PortSt) : PortSt := { x with a := false, b := false, z := false, raw := ⟨false, false, false⟩ }

theorem State.portLevels_frame (acc raw : Abz) : PortFrame (fun _ => False) PortSt.noLevels p s (s.portLevels p acc raw)
    ∧ (s.portLevels p acc raw).port p = { s.port p with a := acc.a, b := acc.b, z := acc.z, raw := raw } :=
  ⟨PortFrame.refl.modPort fun _ => rfl, State.port_modPort_same _⟩

/-- No index event: the index input stands, and gates no state of a QUAD port. -/
theorem State.isIndex_false {old new : PortSt} (hz : new.z = old.z)
    (h : s.bit (F.FBK_CFG_IDXGATE p) = false ∨ s.fbkMode p = fmPULSEDIR ∨ old.z = s.bit (F.FBK_CFG_ZPOL p)) : s.isIndex p old new = false := by
  unfold State.isIndex
  dsimp only
  rw [hz]
  split
  case isTrue hg =>
    obtain ⟨hm, hgate⟩ := hg
    rcases h with h | h | h
    · rw [h] at hgate
      exact absurd hgate (by decide)
    · rw [hm] at h
      exact absurd h (by decide)
    · rw [h, bne_self_eq_false, Bool.and_false]
  case isFalse =>
    split
    · exact Bool.and_not_self _
    · exact Bool.not_and_self _

/-- What a port of counts makes of a change of levels. -/
def edgeStep (quad : Bool) (old new : PortSt) : Int :=
  if quad then (if (quadIdx new.a new.b + 4 - quadIdx old.a old.b) % 4 = 1 then 1 else if (quadIdx new.a new.b + 4 - quadIdx old.a old.b) % 4 = 3 then -1 else 0)
  else if !old.a && new.a then (if new.b then -1 else 1) else 0

/-- The count moves by a step, in the direction that the port gives it. -/
def State.edgeMove (s : State) (p : Fin 8) (d : Int) (stamp : Tick) : State := if d = 0 then s else s.portStep p (s.signed p d) stamp

/-- The index event of a tick without a loss. -/
def State.edgeIndex (s : State) (p : Fin 8) (old new : PortSt) (stamp : Tick) : State :=
  if s.isIndex p old new && !s.lossNow p then s.indexEvent p stamp else s

/-- The step that the index input gates. -/
def State.idxQuiet (s : State) (p : Fin 8) (old : PortSt) : Prop :=
  s.bit (F.FBK_CFG_IDXGATE p) = false ∨ s.fbkMode p = fmPULSEDIR ∨ old.z = s.bit (F.FBK_CFG_ZPOL p)

theorem State.idxQuiet.of_mode {old : PortSt} (h : s.idxQuiet p old) (k : SameMode p s u) : u.idxQuiet p old := by
  unfold State.idxQuiet
  rw [k.mode, k.bit (f := F.FBK_CFG_IDXGATE p) rfl, k.bit (f := F.FBK_CFG_ZPOL p) rfl]
  exact h

/-- A change of levels that is no error moves the count by its step. -/
theorem State.edgeCount_moves {old new : PortSt} {stamp : Tick} (hz : new.z = old.z) (hidx : s.idxQuiet p old)
    (hno : (s.fbkMode p == fmQUAD && (quadIdx new.a new.b + 4 - quadIdx old.a old.b) % 4 == 2) = false) :
    (edgeStep (s.fbkMode p == fmQUAD) old new = 0 → s.edgeCount p old new stamp = s)
    ∧ (edgeStep (s.fbkMode p == fmQUAD) old new ≠ 0 →
      Moved p (s.signed p (edgeStep (s.fbkMode p == fmQUAD) old new)) s (s.edgeCount p old new stamp)) := by
  have heq : s.edgeCount p old new stamp = (s.edgeMove p (edgeStep (s.fbkMode p == fmQUAD) old new) stamp).edgeIndex p old new stamp := by
    unfold State.edgeCount
    exact if_neg (by rw [hno]; exact Bool.false_ne_true)
  rw [heq]
  unfold State.edgeIndex State.edgeMove
  generalize edgeStep (s.fbkMode p == fmQUAD) old new = d
  refine ⟨fun hd => ?_, fun hd => ?_⟩
  · rw [if_pos hd, State.isIndex_false hz hidx, Bool.false_and, if_neg Bool.false_ne_true]
  · have hd' : s.signed p d ≠ 0 := by
      unfold State.signed
      split
      · exact neg_ne_zero.mpr hd
      · exact hd
    have hm := State.portStep_moved (s := s) (p := p) hd' stamp
    rw [if_neg hd]
    generalize s.portStep p (s.signed p d) stamp = y at *
    rwa [State.isIndex_false hz (hidx.of_mode hm.frame.sameMode), Bool.false_and, if_neg Bool.false_ne_true]

/-- Two levels of a QUAD port at once are a loss. -/
theorem State.edgeCount_lost {old new : PortSt} {stamp : Tick}
    (he : (s.fbkMode p == fmQUAD && (quadIdx new.a new.b + 4 - quadIdx old.a old.b) % 4 == 2) = true) :
    PortFrame (FbkFld ((8, 1) :: stepBits) (0x20 :: 0xB4 :: 0x48 :: cmpOfs) p) PortSt.ins p s (s.edgeCount p old new stamp)
    ∧ (s.edgeCount p old new stamp).get (F.FBK_STAT_QERR p) = 1 ∧ (s.edgeCount p old new stamp).get (F.FBK_STAT_LOST p) = 1
    ∧ (s.edgeCount p old new stamp).get (F.FBK_STAT_POSVALID p) = 0 := by
  have heq : s.edgeCount p old new stamp = (s.raise (F.FBK_STAT_QERR p)).portLoss p fdQUAD (s.raise (F.FBK_STAT_QERR p)).now := by
    unfold State.edgeCount
    exact if_pos he
  rw [heq]
  have f1 : PortFrame (FbkFld ((8, 1) :: stepBits) (0x20 :: 0xB4 :: 0x48 :: cmpOfs) p) PortSt.ins p s (s.raise (F.FBK_STAT_QERR p)) :=
    PortFrame.refl.raise (fbkFld_stat (by simp only [F.FBK_STAT_QERR, A.FBK_STAT, fbkPage]; omega) (List.mem_cons_self ..)) (Nat.le_of_ble_eq_true rfl)
  have h1 : (s.raise (F.FBK_STAT_QERR p)).get (F.FBK_STAT_QERR p) = 1 := State.get_raise_same _ (Nat.le_of_ble_eq_true rfl) rfl
  generalize s.raise (F.FBK_STAT_QERR p) = y at *
  have hl := State.portLoss_lost (s := y) (p := p) fdQUAD y.now
  generalize y.portLoss p fdQUAD y.now = u at *
  refine ⟨f1.trans (hl.frame.mono fun _ hf => FbkFld.mono (fun _ h => List.mem_cons_of_mem _ h) (fun _ h => h) hf), ?_, hl.lost, hl.posInvalid⟩
  exact (hl.frame.get fun k hk => moveFld_apart_stat (by decide) k hk.move).trans h1

/-- The levels of a tick are taken. -/
def State.edgeTaken (s : State) (p : Fin 8) (acc raw : Abz) (rej : Nat) : State := (each (List.range rej) (fun _ s => s.glitch p) s).portLevels p acc raw

/-- The levels of a tick, as taken. -/
structure EdgeTaken (p : Fin 8) (acc raw : Abz) (rej : Nat) (s u : State) : Prop where
  port : u.port p = { s.port p with a := acc.a, b := acc.b, z := acc.z, raw := raw }
  others : ∀ q, q ≠ p → u.port q = s.port q
  now : u.now = s.now
  mode : SameMode p s u
  pos : SameCount p s u
  count : u.get (F.FBK_CNT_GLITCH p) = min (2 ^ 16 - 1) (s.get (F.FBK_CNT_GLITCH p) + rej)
  seen : 0 < rej → u.get (F.FBK_STAT_GLITCH p) = 1

theorem State.edgeTaken_taken (acc raw : Abz) (rej : Nat) : EdgeTaken p acc raw rej s (s.edgeTaken p acc raw rej) := by
  unfold State.edgeTaken
  obtain ⟨f1, hcount, hseen⟩ := State.glitches (s := s) (p := p) rej
  generalize each (List.range rej) (fun _ s => s.glitch p) s = y at *
  obtain ⟨f2, hport⟩ := State.portLevels_frame (s := y) (p := p) acc raw
  generalize y.portLevels p acc raw = u at *
  have hrd (o : Nat) {b : Nat} (hb : b = fbkPage p + o) (ho : o < 0x800) (hof : o ∉ [0xA0]) (h4 : o ≠ 4) : u.rd b = s.rd b := by
    rw [State.rd_eq_get, f2.get (fun _ h => h.elim), f1.get (fun _ hk => FbkFld.apart (o := o) hb ho hof (fun e => absurd e h4) hk), ← State.rd_eq_get]
  refine ⟨?_, fun q hq => (f2.others q hq).trans (f1.others q hq), f2.now.trans f1.now, ?_, ⟨?_, ?_⟩, ?_, fun h => ?_⟩
  · rw [hport, show y.port p = s.port p from f1.port]
  · exact (FldsBut.sameMode (h := f1.flds) (by decide) (by decide) (by decide) (by decide)).trans
      (FldsBut.sameMode (h := f2.flds.mono fun _ h => h.elim) (bits := []) (ofs := []) (by decide) (by decide) (by decide) (by decide))
  · exact hrd 0x10 (by simp only [A.FBK_POS0, fbkPage]; omega) (by decide) (by decide) (by decide)
  · exact hrd 0x14 (by simp only [A.FBK_POS1, fbkPage]; omega) (by decide) (by decide) (by decide)
  · rw [f2.get fun _ h => h.elim, hcount]
  · rw [f2.get fun _ h => h.elim, hseen h]

/-- What the tick's count leaves of the port. -/
def PortSt.levels (x : PortSt) : PortSt := { x.ins with hist := [], changeAt := 0 }

/-- What the tick's count may change. -/
def edgeFld (p : Fin 8) (f : Fld) : Prop := FbkFld ((8, 1) :: stepBits) (0x10 :: 0x14 :: 0x1C :: 0x20 :: 0xB4 :: 0x48 :: cmpOfs) p f

/-- What the tick's count does to the position: a step, or a loss. -/
structure EdgeCounted (p : Fin 8) (quad : Bool) (old new : PortSt) (s u : State) : Prop where
  frame : PortFrame (edgeFld p) PortSt.levels p s u
  still : edgeStep quad old new = 0 → SameCount p s u
  moved : edgeStep quad old new ≠ 0 → (quad && (quadIdx new.a new.b + 4 - quadIdx old.a old.b) % 4 == 2) = false →
    (u.extPos p - (s.extPos p + s.signed p (edgeStep quad old new))) % 2 ^ 64 = 0 ∧ (u.port p).changeAt = s.now
  lost : (quad && (quadIdx new.a new.b + 4 - quadIdx old.a old.b) % 4 == 2) = true →
    u.get (F.FBK_STAT_QERR p) = 1 ∧ u.get (F.FBK_STAT_LOST p) = 1 ∧ u.get (F.FBK_STAT_POSVALID p) = 0

theorem EdgeCounted.refresh {quad : Bool} {old new : PortSt} (h : EdgeCounted p quad old new s u) : EdgeCounted p quad old new s u.outsRefresh := by
  have f : PortFrame farFld id p u u.outsRefresh := PortFrame.refl.outsRefresh
  generalize u.outsRefresh = x at *
  have hstat (lo w : Nat) : x.get ⟨A.FBK_STAT p, lo, w⟩ = u.get ⟨A.FBK_STAT p, lo, w⟩ :=
    f.get fun k hk => FbkFld.apart (bits := []) (ofs := []) (o := 4) (by simp only [A.FBK_STAT, fbkPage]; omega) (by decide) (by decide) (fun _ => by simp) (hk p [] [])
  have hc : SameCount p u x := PortFrame.count (g := id) ⟨f.flds.mono fun _ hk => hk p _ _, f.port, f.others, f.now, f.tim⟩
  have hport : x.port p = u.port p := f.port
  refine ⟨?_, fun hd => (h.still hd).trans hc, fun hd hl => ?_, fun hl => ?_⟩
  · exact h.frame.trans ((f.mono fun _ hk => hk p _ _).loosen fun _ => rfl)
  · rw [hc.ext, hport]
    exact h.moved hd hl
  · exact ⟨(hstat 8 1).trans (h.lost hl).1, (hstat 27 1).trans (h.lost hl).2.1, (hstat 31 1).trans (h.lost hl).2.2⟩

theorem State.edgeCount_counted {old new : PortSt} {stamp : Tick} (hz : new.z = old.z) (hidx : s.idxQuiet p old) :
    EdgeCounted p (s.fbkMode p == fmQUAD) old new s (s.edgeCount p old new stamp) := by
  by_cases he : (s.fbkMode p == fmQUAD && (quadIdx new.a new.b + 4 - quadIdx old.a old.b) % 4 == 2) = true
  · have hstep : edgeStep (s.fbkMode p == fmQUAD) old new = 0 := by
      obtain ⟨hq, hd⟩ := Bool.and_eq_true_iff.mp he
      have hd' := eq_of_beq hd
      unfold edgeStep
      rw [if_pos hq, if_neg (by omega), if_neg (by omega)]
    obtain ⟨f, hq, hl, hp⟩ := State.edgeCount_lost (s := s) (p := p) (stamp := stamp) he
    generalize s.edgeCount p old new stamp = u at *
    refine ⟨(f.mono fun _ hk => FbkFld.mono (fun _ h => h) (by decide) hk).loosen fun _ => rfl, fun _ => ?_, fun hd => absurd hstep hd, fun _ => ⟨hq, hl, hp⟩⟩
    have hrd (o : Nat) {b : Nat} (hb : b = fbkPage p + o) (ho : o < 0x800) (hof : o ∉ 0x20 :: 0xB4 :: 0x48 :: cmpOfs) (h4 : o ≠ 4) : u.rd b = s.rd b := by
      rw [State.rd_eq_get, f.get (fun _ hk => FbkFld.apart (o := o) hb ho hof (fun e => absurd e h4) hk), ← State.rd_eq_get]
    exact ⟨hrd 0x10 (by simp only [A.FBK_POS0, fbkPage]; omega) (by decide) (by decide) (by decide),
      hrd 0x14 (by simp only [A.FBK_POS1, fbkPage]; omega) (by decide) (by decide) (by decide)⟩
  · rw [Bool.not_eq_true] at he
    obtain ⟨h0, h1⟩ := State.edgeCount_moves (stamp := stamp) hz hidx he
    by_cases hd : edgeStep (s.fbkMode p == fmQUAD) old new = 0
    · rw [h0 hd]
      exact ⟨PortFrame.refl, fun _ => SameCount.refl, fun h => absurd hd h, fun h => absurd (he.symm.trans h) Bool.false_ne_true⟩
    · have hm := h1 hd
      generalize s.edgeCount p old new stamp = u at *
      exact ⟨(hm.frame.mono fun _ hk => FbkFld.mono (fun _ h => List.mem_cons_of_mem _ h) (fun _ h => h) hk).loosen fun _ => rfl,
        fun h => absurd h hd, fun _ _ => ⟨hm.pos, hm.changed⟩, fun h => absurd (he.symm.trans h) Bool.false_ne_true⟩

theorem State.edgeAccept_eq {acc raw : Abz} {rej : Nat} (he : isEdgeMode (s.fbkMode p) = true) (hh : s.fbkMode p ≠ fmHALL) :
    s.edgeAccept p acc raw rej = (if ((s.port p).a, (s.port p).b, (s.port p).z) = (acc.a, acc.b, acc.z) then s.edgeTaken p acc raw rej
      else (s.edgeTaken p acc raw rej).edgeCount p (s.port p) ((s.edgeTaken p acc raw rej).port p) (s.now - s.get (F.FBK_CFG_FILT p) - 2)).outsRefresh := by
  have hne : (!isEdgeMode (s.fbkMode p)) ≠ true := by rw [he]; decide
  unfold State.edgeAccept
  dsimp only
  rw [if_neg hne, if_neg hh]
  rfl

/-- Equal levels are no step, and no error. -/
theorem edgeStep_same {quad : Bool} {old new : PortSt} (ha : new.a = old.a) (hb : new.b = old.b) :
    edgeStep quad old new = 0 ∧ (quad && (quadIdx new.a new.b + 4 - quadIdx old.a old.b) % 4 == 2) = false := by
  unfold edgeStep
  rw [ha, hb]
  have hdiff : (quadIdx old.a old.b + 4 - quadIdx old.a old.b) % 4 = 0 := by omega
  rw [hdiff]
  cases quad <;> cases old.a <;> simp

theorem State.edgeAccept_counted {qa qb : Bool} {raw : Abz} {rej : Nat} (hm : s.fbkMode p = fmQUAD ∨ s.fbkMode p = fmPULSEDIR)
    (hidx : s.idxQuiet p (s.port p)) :
    EdgeCounted p (s.fbkMode p == fmQUAD) (s.port p) { s.port p with a := qa, b := qb, z := (s.port p).z, raw := raw }
      (s.edgeTaken p ⟨qa, qb, (s.port p).z⟩ raw rej) (s.edgeAccept p ⟨qa, qb, (s.port p).z⟩ raw rej) := by
  have he : isEdgeMode (s.fbkMode p) = true := by rcases hm with h | h <;> rw [h] <;> decide
  have hh : s.fbkMode p ≠ fmHALL := by rcases hm with h | h <;> rw [h] <;> decide
  have ht := State.edgeTaken_taken (s := s) (p := p) ⟨qa, qb, (s.port p).z⟩ raw rej
  rw [State.edgeAccept_eq he hh, ← ht.mode.mode]
  generalize s.edgeTaken p ⟨qa, qb, (s.port p).z⟩ raw rej = y at *
  refine EdgeCounted.refresh ?_
  rw [ht.port]
  split
  case isTrue h =>
    simp only [Prod.mk.injEq] at h
    obtain ⟨hstep, hno⟩ := edgeStep_same (quad := y.fbkMode p == fmQUAD) (old := s.port p)
      (new := { s.port p with a := qa, b := qb, z := (s.port p).z, raw := raw }) h.1.symm h.2.1.symm
    exact ⟨PortFrame.refl, fun _ => SameCount.refl, fun hd => absurd hstep hd, fun hl => absurd (hno.symm.trans hl) Bool.false_ne_true⟩
  case isFalse h => exact State.edgeCount_counted rfl (hidx.of_mode ht.mode)

end Edges

theorem edgeCounts : Part.EdgeCounts := by
  intro s t p qa qb raw rej
  dsimp only
  intro hclk hm hgate hturn
  refine ⟨_, exec_at rfl (State.act.eq_def ..) hclk hturn, ?_⟩
  generalize s.advance t = a at *
  have hidx : a.idxQuiet p (a.port p) := hgate
  have ht := State.edgeTaken_taken (s := a) (p := p) ⟨qa, qb, (a.port p).z⟩ raw rej
  have hc := State.edgeAccept_counted (qa := qa) (qb := qb) (raw := raw) (rej := rej) hm hidx
  generalize a.edgeTaken p ⟨qa, qb, (a.port p).z⟩ raw rej = y at *
  generalize a.edgeAccept p ⟨qa, qb, (a.port p).z⟩ raw rej = u at *
  have hlev : (u.port p).levels = (y.port p).levels := hc.frame.port
  rw [ht.port] at hlev
  have hcnt : u.get (F.FBK_CNT_GLITCH p) = y.get (F.FBK_CNT_GLITCH p) :=
    hc.frame.get fun _ hk => FbkFld.apart (o := 0xA0) (by simp only [F.FBK_CNT_GLITCH, A.FBK_CNT, fbkPage]; omega) (by decide) (by decide)
      (fun e => absurd e (by decide)) hk
  have hseen : u.get (F.FBK_STAT_GLITCH p) = y.get (F.FBK_STAT_GLITCH p) :=
    hc.frame.get fun _ hk => FbkFld.apart (o := 4) (by simp only [F.FBK_STAT_GLITCH, A.FBK_STAT, fbkPage]; omega) (by decide) (by decide)
      (fun _ => by simp only [F.FBK_STAT_GLITCH]; decide) hk
  refine ⟨?_, ?_, ?_, fun q hq => (hc.frame.others q hq).trans (ht.others q hq), by rw [hcnt, ht.count]; rfl, fun h => by rw [hseen, ht.seen h], ?_, ?_⟩
  · have h := congrArg PortSt.a hlev
    exact h
  · have h := congrArg PortSt.b hlev
    exact h
  · have h := congrArg PortSt.raw hlev
    exact h
  all_goals
    have hstill (h : edgeStep (a.fbkMode p == fmQUAD) (a.port p) { a.port p with a := qa, b := qb, z := (a.port p).z, raw := raw } = 0) :
        u.rd (A.FBK_POS0 p) = a.rd (A.FBK_POS0 p) ∧ u.rd (A.FBK_POS1 p) = a.rd (A.FBK_POS1 p) :=
      ⟨(ht.pos.trans (hc.still h)).pos0, (ht.pos.trans (hc.still h)).pos1⟩
    have hmoved (d : Int) (hd : edgeStep (a.fbkMode p == fmQUAD) (a.port p) { a.port p with a := qa, b := qb, z := (a.port p).z, raw := raw } = d)
        (h0 : d ≠ 0) (hno : (a.fbkMode p == fmQUAD && (quadIdx qa qb + 4 - quadIdx (a.port p).a (a.port p).b) % 4 == 2) = false) :
        (u.extPos p - (a.extPos p + a.signed p d)) % 2 ^ 64 = 0 ∧ (u.port p).changeAt = a.now := by
      have h := hc.moved (hd ▸ h0) hno
      rwa [hd, ht.pos.ext, ht.mode.signed, ht.now] at h
    have hlost := hc.lost
    unfold edgeStep at hstill hmoved
    intro hmode
    rw [hmode] at hstill hmoved hlost
    unfold State.signed at hmoved
  · have hq : (fmQUAD == fmQUAD) = true := by decide
    simp only [hq, if_true, Bool.true_and] at hstill hmoved hlost
    refine ⟨fun hd => hstill (by rw [hd]; rfl), fun hd => ?_, fun hd => ?_, fun hd => ?_⟩
    · exact hmoved 1 (by rw [hd]; rfl) (by decide) (by rw [hd]; rfl)
    · have h := hmoved (-1) (by rw [hd]; rfl) (by decide) (by rw [hd]; rfl)
      cases hb : a.bit (F.FBK_CFG_DIRINV p) <;> simpa [hb] using h
    · obtain ⟨h1, h2, h3⟩ := hlost (by rw [hd]; rfl)
      exact ⟨h1, h2, h3, hstill (by rw [hd]; rfl)⟩
  · have hq : (fmPULSEDIR == fmQUAD) = false := by decide
    simp only [hq, Bool.false_eq_true, if_false, Bool.false_and] at hstill hmoved
    refine ⟨fun h1 h2 => ?_, fun h => hstill ?_⟩
    · have h := hmoved (if qb then -1 else 1) (by rw [h1, h2]; rfl) (by cases qb <;> decide) trivial
      cases qb <;> cases hb : a.bit (F.FBK_CFG_DIRINV p) <;> simpa [hb] using h
    · rcases h with h | h <;> simp [h]

section Sets
variable {p : Fin 8} {a s u : State} {m : Master} {v : Word} {level : Bool}

/-! ## A position that firmware sets -/

theorem fbkPosset_mapped : ∀ p : Fin 8, (regAt (A.FBK_POSSET p)).map (fun e => (e.1.base, e.2)) = some (A.FBK_POSSET 0, [p.val]) := by
  decide +kernel

theorem State.masterWrite_posset (h : s.takes m (A.FBK_POSSET p) = true) : s.masterWrite m (A.FBK_POSSET p) v = s.tagged.positionSet p v := by
  refine State.masterWrite_act h (fbkPosset_mapped p) ?_ (by decide) fun r hr => ?_
  · unfold outsideWindows A.FBK_POSSET; omega
  · unfold State.actWrite
    simp +decide only [hr, if_true, if_false, List.headD]
    rw [finOf_val p rfl]

/-- A position as set. -/
structure PositionSet (p : Fin 8) (v : Word) (s u : State) : Prop where
  pos0 : u.rd (A.FBK_POS0 p) = v
  pos1 : u.rd (A.FBK_POS1 p) = s.rd (A.FBK_POS1 p)
  noRef : (u.port p).haveRef = false
  valid : (s.port p).frozen = false → u.get (F.FBK_STAT_POSVALID p) = 1 ∧ u.get (F.FBK_STAT_LOST p) = 0

theorem State.positionSet_sets : PositionSet p v s (s.positionSet p v) := by
  have heq : s.positionSet p v = ((s.modPort p (fun x => { x with haveRef := false })).portJump p v
      (s.modPort p (fun x => { x with haveRef := false })).now).posValid p := rfl
  rw [heq]
  have hp : (s.modPort p (fun x => { x with haveRef := false })).port p = { s.port p with haveRef := false } := State.port_modPort_same _
  have hr : (s.modPort p (fun x => { x with haveRef := false })).rd (A.FBK_POS1 p) = s.rd (A.FBK_POS1 p) := rfl
  generalize s.modPort p (fun x => { x with haveRef := false }) = x at *
  have hj := State.portJump_jumps (s := x) (p := p) v x.now
  generalize x.portJump p v x.now = y at *
  obtain ⟨hf, hv⟩ := State.posValid_valid (s := y) (p := p)
  generalize y.posValid p = u at *
  have href : (u.port p).haveRef = (y.port p).haveRef := by
    have h := congrArg PortSt.haveRef hf.port
    exact h
  have href' : (y.port p).haveRef = (x.port p).haveRef := by
    have h := congrArg PortSt.haveRef hj.frame.port
    exact h
  have hfrz : (y.port p).frozen = (x.port p).frozen := by
    have h := congrArg PortSt.frozen hj.frame.port
    exact h
  refine ⟨hf.count.pos0.trans hj.pos0, (hf.count.pos1.trans hj.pos1).trans hr, by rw [href, href', hp], fun h => hv ?_⟩
  rw [hfrz, hp]
  exact h

/-! ## A probe -/

/-- The stamp of a probe. -/
def State.prbStamp (s : State) (p : Fin 8) : Tick := s.now - s.get (F.FBK_PRBCFG_FILT p) - 2

/-- The position and the stamp that a probe latches. -/
def State.prbStore (s : State) (p : Fin 8) (stamp : Tick) (level : Bool) : State :=
  let d := s.stampOf (256 * stamp)
  let s := s.wr (A.FBK_PRBPOS p) (posAt (s.port p).hist stamp (s.rd (A.FBK_POS0 p)))
  let s := s.modPort p (fun x => { x with prbAt := some stamp })
  let s := s.wr (A.FBK_PRBSTAMP0 p) (BitVec.ofNat 32 d)
  s.wr (A.FBK_PRBSTAMP1 p) (BitVec.ofNat 32 (d / 2 ^ 32 % 256 + b2n level * 2 ^ 30 + b2n (s.bit (F.FBK_STAT_POSVALID p)) * 2 ^ 31))

/-- The flags of a probe, and its ARM. -/
def State.prbShow (s : State) (p : Fin 8) : State :=
  let cont := s.bit (F.FBK_PRBCFG_CONT p)
  let s := if cont && s.bit (F.FBK_STAT_PRB p) then s.raise (F.FBK_STAT_PRBOVR p) else s
  let s := s.raise (F.FBK_STAT_PRB p)
  if cont then s else s.putB (F.FBK_PRBCFG_ARM p) false

/-- The level of a probe's input. -/
def State.prbLevel (s : State) (p : Fin 8) (level : Bool) : State := s.modPort p (fun x => { x with prb := level })

theorem State.prbLevel_kept (level : Bool) : (s.prbLevel p level).port p = { s.port p with prb := level } ∧ (s.prbLevel p level).now = s.now
    ∧ (s.prbLevel p level).tim = s.tim ∧ (s.prbLevel p level).regs = s.regs := ⟨State.port_modPort_same _, rfl, rfl, rfl⟩

theorem State.probeLatch_eq (hm : s.fbkMode p ≠ fmOFF) (hl : (s.port p).prb ≠ level) (ha : (s.prbLevel p level).bit (F.FBK_PRBCFG_ARM p) = true)
    (he : (s.prbLevel p level).get (F.FBK_PRBCFG_EDGE p) = 3) : s.probeLatch p level
      = (((s.prbLevel p level).prbStore p ((s.prbLevel p level).prbStamp p) level).prbShow p).notify := by
  have hsel : (!(s.prbLevel p level).bit (F.FBK_PRBCFG_ARM p) || !(if level then (s.prbLevel p level).get (F.FBK_PRBCFG_EDGE p) % 2 == 1
      else (s.prbLevel p level).get (F.FBK_PRBCFG_EDGE p) / 2 == 1)) = false := by
    rw [ha, he]
    cases level <;> rfl
  unfold State.probeLatch
  rw [if_neg (by rintro (h | h) <;> contradiction)]
  exact if_neg (by rw [Bool.not_eq_true]; exact hsel)

/-- What a probe stores. -/
structure PrbStored (p : Fin 8) (stamp : Tick) (s u : State) : Prop where
  pos : u.rd (A.FBK_PRBPOS p) = posAt (s.port p).hist stamp (s.rd (A.FBK_POS0 p))
  stamp0 : u.rd (A.FBK_PRBSTAMP0 p) = BitVec.ofNat 32 (s.stampOf (256 * stamp))
  port : u.port p = { s.port p with prbAt := some stamp }
  flds : FldsBut (FbkFld [] [0xB4, 0xB8, 0xBC] p) s u

theorem State.prbStore_stored (stamp : Tick) (level : Bool) : PrbStored p stamp s (s.prbStore p stamp level) := by
  have hword (o : Nat) (ho : o ∈ [0xB4, 0xB8, 0xBC]) {b : Nat} (hb : b = fbkPage p + o) : FbkFld [] [0xB4, 0xB8, 0xBC] p (wordOf b) := fbkFld_word o ho hb
  unfold State.prbStore
  dsimp only
  generalize hw : posAt (s.port p).hist stamp (s.rd (A.FBK_POS0 p)) = w
  generalize hd : s.stampOf (256 * stamp) = d
  have f1 : FldsBut (FbkFld [] [0xB4, 0xB8, 0xBC] p) s (s.wr (A.FBK_PRBPOS p) w) :=
    FldsBut.refl.wr _ (hword 0xB4 (by decide) (by simp only [A.FBK_PRBPOS, fbkPage]; omega))
  have h1 : (s.wr (A.FBK_PRBPOS p) w).rd (A.FBK_PRBPOS p) = w := State.rd_wr_same ..
  have p1 : (s.wr (A.FBK_PRBPOS p) w).port p = s.port p := rfl
  generalize s.wr (A.FBK_PRBPOS p) w = x1 at *
  have h2 : (x1.modPort p (fun x => { x with prbAt := some stamp })).regs = x1.regs := rfl
  have p2 : (x1.modPort p (fun x => { x with prbAt := some stamp })).port p = { x1.port p with prbAt := some stamp } := State.port_modPort_same _
  generalize x1.modPort p (fun x => { x with prbAt := some stamp }) = x2 at *
  have r2 : x2.rd (A.FBK_PRBPOS p) = w := by rw [← h1]; unfold State.rd; rw [h2]
  have f2 := (f1.of_regs h2).wr (BitVec.ofNat 32 d) (hword 0xB8 (by decide) (show A.FBK_PRBSTAMP0 p = _ by simp only [A.FBK_PRBSTAMP0, fbkPage]; omega))
  have h3 : (x2.wr (A.FBK_PRBSTAMP0 p) (BitVec.ofNat 32 d)).rd (A.FBK_PRBSTAMP0 p) = BitVec.ofNat 32 d := State.rd_wr_same ..
  have r3 : (x2.wr (A.FBK_PRBSTAMP0 p) (BitVec.ofNat 32 d)).rd (A.FBK_PRBPOS p) = w :=
    (State.rd_wr_ne _ _ (by simp only [A.FBK_PRBPOS, A.FBK_PRBSTAMP0]; omega)).trans r2
  have p3 : (x2.wr (A.FBK_PRBSTAMP0 p) (BitVec.ofNat 32 d)).port p = x2.port p := rfl
  generalize x2.wr (A.FBK_PRBSTAMP0 p) (BitVec.ofNat 32 d) = x3 at *
  generalize BitVec.ofNat 32 (d / 2 ^ 32 % 256 + b2n level * 2 ^ 30 + b2n (x3.bit (F.FBK_STAT_POSVALID p)) * 2 ^ 31) = v
  refine ⟨?_, ?_, ?_, f2.wr v (hword 0xBC (by decide) (by simp only [A.FBK_PRBSTAMP1, fbkPage]; omega))⟩
  · rw [hw]
    exact (State.rd_wr_ne _ _ (by simp only [A.FBK_PRBPOS, A.FBK_PRBSTAMP1]; omega)).trans r3
  · rw [hd]
    exact (State.rd_wr_ne _ _ (by simp only [A.FBK_PRBSTAMP0, A.FBK_PRBSTAMP1]; omega)).trans h3
  · rw [State.port, State.wr_fbk, ← State.port, p3, p2, p1]

/-- What a probe shows. -/
structure PrbShown (p : Fin 8) (s u : State) : Prop where
  seen : u.get (F.FBK_STAT_PRB p) = 1
  arm : s.bit (F.FBK_PRBCFG_ARM p) = true → u.bit (F.FBK_PRBCFG_ARM p) = s.bit (F.FBK_PRBCFG_CONT p)
  port : u.fbk = s.fbk
  flds : FldsBut (FbkFld [(3, 1), (4, 1)] [0xB0] p) s u

theorem State.prbShow_shown : PrbShown p s (s.prbShow p) := by
  have hstat {lo w : Nat} (h : (lo, w) ∈ [(3, 1), (4, 1)]) : FbkFld [(3, 1), (4, 1)] [] p ⟨A.FBK_STAT p, lo, w⟩ :=
    fbkFld_stat (by simp only [A.FBK_STAT, fbkPage]; omega) h
  have hcfg : (F.FBK_PRBCFG_ARM p).addr = fbkPage p + 0xB0 := by simp only [F.FBK_PRBCFG_ARM, A.FBK_PRBCFG, fbkPage]; omega
  have hne : (F.FBK_STAT_PRB p).addr ≠ (F.FBK_PRBCFG_ARM p).addr := by
    simp only [F.FBK_PRBCFG_ARM, A.FBK_PRBCFG, F.FBK_STAT_PRB, A.FBK_STAT]
    omega
  unfold State.prbShow
  dsimp only
  have f1 : FldsBut (FbkFld [(3, 1), (4, 1)] [] p) s (if (s.bit (F.FBK_PRBCFG_CONT p) && s.bit (F.FBK_STAT_PRB p)) = true then s.raise (F.FBK_STAT_PRBOVR p) else s) :=
    (FldsBut.refl.raise (hstat (by decide)) (Nat.le_of_ble_eq_true rfl)).ite FldsBut.refl
  have p1 : (if (s.bit (F.FBK_PRBCFG_CONT p) && s.bit (F.FBK_STAT_PRB p)) = true then s.raise (F.FBK_STAT_PRBOVR p) else s).fbk = s.fbk := by
    split
    · exact State.raise_fbk ..
    · rfl
  generalize (if (s.bit (F.FBK_PRBCFG_CONT p) && s.bit (F.FBK_STAT_PRB p)) = true then s.raise (F.FBK_STAT_PRBOVR p) else s) = y at *
  have f2 := f1.raise (f := F.FBK_STAT_PRB p) (hstat (by decide)) (Nat.le_of_ble_eq_true rfl)
  have h2 : (y.raise (F.FBK_STAT_PRB p)).get (F.FBK_STAT_PRB p) = 1 := State.get_raise_same _ (Nat.le_of_ble_eq_true rfl) rfl
  have p2 : (y.raise (F.FBK_STAT_PRB p)).fbk = y.fbk := State.raise_fbk ..
  have a2 : (y.raise (F.FBK_STAT_PRB p)).get (F.FBK_PRBCFG_ARM p) = s.get (F.FBK_PRBCFG_ARM p) :=
    f2.get fun _ hk => FbkFld.apart hcfg (by decide) (by decide) (fun e => absurd e (by decide)) hk
  have f3 := f2.mono fun _ h => FbkFld.mono (ofs' := [0xB0]) (fun _ h => h) (fun _ h => absurd h List.not_mem_nil) h
  generalize y.raise (F.FBK_STAT_PRB p) = z at *
  split
  case isTrue hc => exact ⟨h2, fun ha => by rw [hc, State.bit_congr a2, ha], p2.trans p1, f3⟩
  case isFalse hc =>
    have hoff : (z.putB (F.FBK_PRBCFG_ARM p) false).get (F.FBK_PRBCFG_ARM p) = 0 := State.get_put_same _ _ (Nat.le_of_ble_eq_true rfl)
    refine ⟨(State.get_put_word _ _ hne).trans h2, fun _ => ?_, (State.put_fbk ..).trans (p2.trans p1),
      f3.putB _ (fbkFld_word 0xB0 (by decide) hcfg) (Nat.le_of_ble_eq_true rfl)⟩
    rw [State.bit, hoff, (Bool.not_eq_true _).mp hc]
    rfl

end Sets

section Probe
variable {s u : State} {p : Fin 8} {t : Tick} {level : Bool}

/-- What a probe that is armed leaves. -/
structure Probed (p : Fin 8) (stamp : Tick) (level : Bool) (s u : State) : Prop where
  level : (u.port p).prb = level
  seen : u.get (F.FBK_STAT_PRB p) = 1
  at_ : (u.port p).prbAt = some stamp
  pos : u.rd (A.FBK_PRBPOS p) = posAt (s.port p).hist stamp (s.rd (A.FBK_POS0 p))
  stamp0 : u.rd (A.FBK_PRBSTAMP0 p) = BitVec.ofNat 32 (s.stampOf (256 * stamp))
  arm : u.bit (F.FBK_PRBCFG_ARM p) = s.bit (F.FBK_PRBCFG_CONT p)

theorem farFld_apart {f g : Fld} {o : Nat} (hg : g.addr = fbkPage p + o) (ho : o < 0x800) (h : farFld f) : Apart g f :=
  FbkFld.apart (bits := []) (ofs := []) hg ho List.not_mem_nil (fun _ _ h => absurd h List.not_mem_nil) (h p _ _)

theorem State.probe_probed (ha : s.bit (F.FBK_PRBCFG_ARM p) = true) :
    Probed p (s.prbStamp p) level s ((((s.prbLevel p level).prbStore p ((s.prbLevel p level).prbStamp p) level).prbShow p).notify) := by
  obtain ⟨hport, hnow, htim, hregs⟩ := State.prbLevel_kept (s := s) (p := p) level
  have hget (f : Fld) : (s.prbLevel p level).get f = s.get f := by unfold State.get State.rd; rw [hregs]
  have hrd (b : Nat) : (s.prbLevel p level).rd b = s.rd b := by unfold State.rd; rw [hregs]
  have hstamp : (s.prbLevel p level).prbStamp p = s.prbStamp p := by unfold State.prbStamp; rw [hnow, hget]
  have hof (n : Tick) : (s.prbLevel p level).stampOf n = s.stampOf n := rfl
  rw [hstamp]
  generalize s.prbLevel p level = x at *
  have hst := State.prbStore_stored (s := x) (p := p) (s.prbStamp p) level
  generalize x.prbStore p (s.prbStamp p) level = y at *
  have hsh := State.prbShow_shown (s := y) (p := p)
  generalize y.prbShow p = z at *
  have hn : PortFar p z z.notify := (PortFrame.refl (g := id)).notify
  generalize z.notify = u at *
  have hcfg {g : Fld} (hg : g.addr = fbkPage p + 0xB0) : y.get g = x.get g :=
    hst.flds.get fun _ hk => FbkFld.apart hg (by decide) (by decide) (fun e => absurd e (by decide)) hk
  have hword {b : Nat} (o : Nat) (hb : b = fbkPage p + o) (ho : o ∈ [0xB4, 0xB8]) : u.rd b = y.rd b := by
    have hlt : ∀ o ∈ [0xB4, 0xB8], o < 0x800 ∧ o ∉ [0xB0] ∧ o ≠ 4 := by decide
    replace hlt := hlt o ho
    have h1 := hn.flds.get (g := wordOf b) fun _ hk => farFld_apart hb hlt.1 hk
    have h2 := hsh.flds.get (g := wordOf b) fun _ hk => FbkFld.apart hb hlt.1 hlt.2.1 (fun e => absurd e hlt.2.2) hk
    rw [State.rd_eq_get, State.rd_eq_get, h1, h2]
  have hzp : z.port p = { x.port p with prbAt := some (s.prbStamp p) } := by
    rw [State.port, hsh.port, ← State.port, hst.port]
  have hup : u.port p = z.port p := by
    have h := hn.port
    rwa [id_eq, id_eq] at h
  refine ⟨by rw [hup, hzp, hport], ?_, by rw [hup, hzp], ?_, ?_, ?_⟩
  · exact (hn.get fun _ hk => farFld_apart (p := p) (o := 4) (by simp only [F.FBK_STAT_PRB, A.FBK_STAT, fbkPage]; omega) (by decide) hk).trans hsh.seen
  · rw [hword 0xB4 (by simp only [A.FBK_PRBPOS, fbkPage]; omega) (by decide), hst.pos, hport, hrd]
  · rw [hword 0xB8 (by simp only [A.FBK_PRBSTAMP0, fbkPage]; omega) (by decide), hst.stamp0, hof]
  · have harm : u.bit (F.FBK_PRBCFG_ARM p) = z.bit (F.FBK_PRBCFG_ARM p) := State.bit_congr <|
      hn.get fun _ hk => farFld_apart (p := p) (o := 0xB0) (by simp only [F.FBK_PRBCFG_ARM, A.FBK_PRBCFG, fbkPage]; omega) (by decide) hk
    have hya : y.bit (F.FBK_PRBCFG_ARM p) = true :=
      (State.bit_congr ((hcfg (by simp only [F.FBK_PRBCFG_ARM, A.FBK_PRBCFG, fbkPage]; omega)).trans (hget _))).trans ha
    rw [harm, hsh.arm hya]
    exact State.bit_congr ((hcfg (by simp only [F.FBK_PRBCFG_CONT, A.FBK_PRBCFG, fbkPage]; omega)).trans (hget _))

theorem State.tagged_ports : s.tagged.fbk = s.fbk := by
  obtain ⟨_, _, h⟩ := s.tagSet_frame (s.tagsUse + 1)
  rw [State.tagged, h]

theorem State.put_regs_only (f : Fld) (n : Nat) : s.put f n = { s with regs := (s.put f n).regs, same := (s.put f n).same } := by
  obtain ⟨_, h⟩ := State.put_frame s f n
  rw [h]

theorem State.speedZero_shows (h : s.spdDecayed p = true) : (s.speedZero p).get (F.FBK_STAT_ZERO p) = 1
    ∧ RegsBut [A.FBK_STAT p] s (s.speedZero p) ∧ s.speedZero p = { s with regs := (s.speedZero p).regs, same := (s.speedZero p).same } := by
  have heq : s.speedZero p = s.put (F.FBK_STAT_ZERO p) (b2n true) := by rw [State.speedZero, if_pos h, State.putB_eq]
  rw [heq]
  exact ⟨State.get_put_same _ _ (f := F.FBK_STAT_ZERO p) (Nat.le_of_ble_eq_true rfl),
    (regsBut_put (f := F.FBK_STAT_ZERO p) List.mem_cons_self).mpr RegsBut.refl, State.put_regs_only ..⟩

end Probe

theorem positionsAndProbes : Part.PositionsAndProbes := by
  intro s t m p v level
  dsimp only
  refine ⟨fun htakes hturn => ⟨_, exec_any_of rfl (State.act.eq_def ..) hturn (State.masterWrite_posset htakes), ?_⟩, fun hclk =>
    ⟨fun hm hl harm hedge hturn => ⟨_, exec_at_of rfl (State.act.eq_def ..) hclk hturn (State.probeLatch_eq hm hl harm hedge), ?_⟩,
      fun hd hturn => ⟨_, exec_at rfl (State.act.eq_def ..) hclk hturn, ?_⟩⟩⟩
  all_goals generalize s.advance t = a at *
  case refine_1 =>
    have hset := State.positionSet_sets (s := a.tagged) (p := p) (v := v)
    have hport : a.tagged.port p = a.port p := by rw [State.port, State.tagged_ports, ← State.port]
    have hpos : a.tagged.rd (A.FBK_POS1 p) = a.rd (A.FBK_POS1 p) := by
      rw [State.rd_eq_get, State.rd_eq_get, State.tagged_sameSources.get _ (by simp only [wordOf, A.FBK_POS1]; omega)]
    exact ⟨hset.pos0, hset.pos1.trans hpos, hset.noRef, fun h => hset.valid (hport ▸ h)⟩
  case refine_2 =>
    have h := State.probe_probed (level := level) harm
    refine ⟨h.level, h.seen, h.at_, fun th before w rest hh hle => ?_, fun th before w hh hlt => ?_, fun hh => ?_, h.stamp0, h.arm⟩
    · rw [h.pos, hh, posAt]
      exact if_pos hle
    · rw [h.pos, hh, posAt]
      exact if_neg (Nat.not_le_of_lt hlt)
    · rw [h.pos, hh, posAt]
  case refine_3 => exact State.speedZero_shows hd

/-- Settles O26. A step of the count is followed through what it does after the count: the speed, the units, the ladder. -/
theorem edgesAndProbes : Obligations.EdgesAndProbes := ⟨edgeCounts, positionsAndProbes⟩

end Sys2Proof.Machine
end

section
/-!
PROOFS. Chapter 11: losses of a port and the end of its ladder.
-/
namespace Sys2Proof.Machine

section Losses
variable {s u : State} {p : Fin 8} {det : Nat} {tm : Fin 24} {f : Fld}

/-- What a loss shows. -/
def lossShown (p : Fin 8) (s u : State) : Prop :=
  u.get (F.FBK_STAT_LOST p) = 1 ∧ u.get (F.FBK_STAT_LOSS p) = 1 ∧ u.get (F.FBK_STAT_POSVALID p) = 0 ∧ u.get (F.FBK_STAT_SPDVALID p) = 0
  ∧ (s.get (F.FBK_STAT_LOST p) = 1 → s.ladderOn p = none → u.jrn = s.jrn)

theorem State.portLoss_shown (at_ : Tick) : lossShown p s (s.portLoss p det at_) :=
  have h := State.portLoss_lost (s := s) (p := p) det at_
  ⟨h.lost, h.loss, h.posInvalid, h.spdInvalid, h.jrn⟩

theorem PortSt.ins_hallBad (x : PortSt) : x.ins.hallBad = x.hallBad := rfl

/-- A loss whose kind FBK_STAT shows, too. -/
theorem State.portLoss_raised {lo : Nat} (hlo : lo ∈ [9, 11]) (at_ : Tick) :
    lossShown p s ((s.raise ⟨A.FBK_STAT p, lo, 1⟩).portLoss p det at_)
    ∧ ((s.raise ⟨A.FBK_STAT p, lo, 1⟩).portLoss p det at_).get ⟨A.FBK_STAT p, lo, 1⟩ = 1
    ∧ (((s.raise ⟨A.FBK_STAT p, lo, 1⟩).portLoss p det at_).port p).hallBad = (s.port p).hallBad := by
  have hbits : ∀ lo ∈ [9, 11], lo + 1 ≤ 27 ∧ ∀ x ∈ stepBits, lo + 1 ≤ x.1 ∨ x.1 + x.2 ≤ lo := by decide
  obtain ⟨h27, hstep⟩ := hbits lo hlo
  have hone : (s.raise ⟨A.FBK_STAT p, lo, 1⟩).get ⟨A.FBK_STAT p, lo, 1⟩ = 1 := State.get_raise_same _ (by simp only; omega) rfl
  have hlost : (s.raise ⟨A.FBK_STAT p, lo, 1⟩).get (F.FBK_STAT_LOST p) = s.get (F.FBK_STAT_LOST p) :=
    (State.raise_get ..).trans (State.get_put_bits (f := ⟨A.FBK_STAT p, lo, 1⟩) (g := F.FBK_STAT_LOST p) _ _ (by simp only; omega) (Or.inr h27))
  have hon : (s.raise ⟨A.FBK_STAT p, lo, 1⟩).ladderOn p = s.ladderOn p :=
    State.ladderOn_congr ((regsBut_raise (f := ⟨A.FBK_STAT p, lo, 1⟩) List.mem_cons_self).mpr RegsBut.refl)
  have hjrn : (s.raise ⟨A.FBK_STAT p, lo, 1⟩).jrn = s.jrn := State.raise_jrn ..
  have hport : (s.raise ⟨A.FBK_STAT p, lo, 1⟩).port p = s.port p := by rw [State.port, State.raise_fbk, ← State.port]
  generalize s.raise ⟨A.FBK_STAT p, lo, 1⟩ = y at *
  have h := State.portLoss_lost (s := y) (p := p) det at_
  generalize y.portLoss p det at_ = u at *
  refine ⟨⟨h.lost, h.loss, h.posInvalid, h.spdInvalid, fun hl ho => (h.jrn (hlost ▸ hl) (hon ▸ ho)).trans hjrn⟩, ?_, ?_⟩
  · exact (h.frame.get fun k hk => moveFld_apart_stat hstep k hk.move).trans hone
  · rw [← PortSt.ins_hallBad, h.frame.port, PortSt.ins_hallBad, hport]

/-- A wrong Hall code is noted no longer. -/
def State.hallNoted (s : State) (p : Fin 8) : State := s.modPort p (fun x => { x with hallBad := none })

theorem State.hallTimeout_lost {t0 : Tick} (hb : (s.port p).hallBad = some t0) (hm : s.fbkMode p = fmHALL) (ht : t0 + 32 ≤ s.now) :
    lossShown p s (s.hallTimeout p) ∧ (s.hallTimeout p).get (F.FBK_STAT_HALLBAD p) = 1 ∧ ((s.hallTimeout p).port p).hallBad = none := by
  have heq : s.hallTimeout p = (((s.hallNoted p)).raise (F.FBK_STAT_HALLBAD p)).portLoss p fdHALL_BAD t0 := by
    unfold State.hallTimeout
    rw [hb]
    exact if_pos ⟨hm, ht⟩
  rw [heq]
  have hport : ((s.hallNoted p).port p).hallBad = none := congrArg PortSt.hallBad (State.port_modPort_same _)
  have hregs : (s.hallNoted p).regs = s.regs := rfl
  have hjrn : (s.hallNoted p).jrn = s.jrn := rfl
  generalize s.hallNoted p = y at *
  have hget (f : Fld) : y.get f = s.get f := by unfold State.get State.rd; rw [hregs]
  have hon : y.ladderOn p = s.ladderOn p := State.ladderOn_congr (RegsBut.refl.of_regs hregs)
  obtain ⟨⟨h1, h2, h3, h4, h5⟩, hshown, hbad⟩ := State.portLoss_raised (s := y) (p := p) (det := fdHALL_BAD) (lo := 11) (by decide) t0
  exact ⟨⟨h1, h2, h3, h4, fun hl ho => (h5 ((hget _).trans hl) (hon.trans ho)).trans hjrn⟩, hshown, hbad.trans hport⟩

theorem State.edgeLate_iff {e : Tick} (hl : (s.port p).lastEv = some e) (hm : isEdgeMode (s.fbkMode p) = true)
    (hsh : s.get (F.FBK_LOSSCFG_LOSSSH p) ≠ 0) (hv : s.bit (F.FBK_STAT_SPDVALID p) = true) (hn : 0 < (s.port p).spanN)
    (hspd : s.get (F.FBK_LOSSCFG_LOSSSPD p) * 65536 ≤ (s.port p).spdEv.natAbs)
    (hlate : 2 ^ s.get (F.FBK_LOSSCFG_LOSSSH p) * (s.port p).delta < (s.now - e) * (s.port p).spanN) : s.edgeLate p s.now = true := by
  unfold State.edgeLate
  simp only [hl, hm, hv, bne_iff_ne.mpr hsh, decide_eq_true hn, decide_eq_true hspd, decide_eq_true hlate, Bool.and_self]

theorem State.stoodStill_of (hteam : s.fbkTeam p = some tm) (hm : s.fbkMode p ≠ fmOFF) (ht : s.get (F.FBK_FRZCFG_FRZT p) ≠ 0)
    (hen : s.bit (F.FBK_MOTWORD_EN p) = true) (hch : (s.port p).changeAt + s.get (F.FBK_FRZCFG_FRZT p) * 256 ≤ s.now)
    (hobs : s.bit (F.CE_OBS_VALID tm) = true) (hspd : s.get (F.FBK_FRZCFG_FRZSPD p) * 65536 ≤ s.motWord p)
    (hfrom : ∃ f, (s.port p).motFrom = some f ∧ f + s.get (F.FBK_FRZCFG_FRZT p) * 256 ≤ s.now) : s.stoodStill p s.now = true := by
  obtain ⟨f, hf, hlate⟩ := hfrom
  unfold State.stoodStill State.motShown
  simp only [hteam, bne_iff_ne.mpr hm, bne_iff_ne.mpr ht, hen, hobs, hf, decide_eq_true hch, decide_eq_true hspd, decide_eq_true hlate,
    Bool.and_self]

/-! ## The end of the ramp -/

/-- The ramp has ended. -/
def State.rampEnded (s : State) (p : Fin 8) : State := (s.put (F.FBK_STAT_LADDER p) 3).put (F.FBK_RAMPF_F p) 0

/-- A port at the end of its ladder. -/
def rampAtEnd (p : Fin 8) (s : State) : Prop := s.get (F.FBK_STAT_LADDER p) = 3 ∧ s.get (F.FBK_RAMPF_F p) = 0

theorem State.rampEnded_ends : rampAtEnd p (s.rampEnded p) ∧ ∀ t : Fin 24, (s.rampEnded p).tstate t = s.tstate t := by
  have hne : A.FBK_STAT p ≠ A.FBK_RAMPF p := by simp only [A.FBK_STAT, A.FBK_RAMPF]; omega
  unfold State.rampEnded
  refine ⟨⟨?_, State.get_put_same _ _ (Nat.le_of_ble_eq_true rfl)⟩, fun t => ?_⟩
  · exact (State.get_put_word (f := F.FBK_RAMPF_F p) _ _ hne).trans (State.get_put_same _ _ (f := F.FBK_STAT_LADDER p) (Nat.le_of_ble_eq_true rfl))
  · exact (State.get_put_word (f := F.FBK_RAMPF_F p) (g := F.TEAM_STAT_STATE t) _ _ (by simp only [F.TEAM_STAT_STATE, F.FBK_RAMPF_F, A.TEAM_STAT, A.FBK_RAMPF]; omega)).trans
      (State.get_put_word (f := F.FBK_STAT_LADDER p) (g := F.TEAM_STAT_STATE t) _ _ (by simp only [F.TEAM_STAT_STATE, F.FBK_STAT_LADDER, A.TEAM_STAT, A.FBK_STAT]; omega))

theorem State.record_below {code ctx : Nat} (hf : f.addr < 0x120000) : (s.record code ctx).get f = s.get f :=
  have habove : ∀ b ∈ evtWords, 0x120000 ≤ b := by decide
  State.get_record fun h => Nat.not_lt_of_le (habove _ h) hf

theorem State.ladderEnd_halts (hon : s.ladderOn p = some tm) (hl : s.get (F.FBK_STAT_LADDER p) = 2)
    (ht : s.rampTicks p ≤ s.now - (s.port p).rampAt) : rampAtEnd p (s.ladderEnd p) ∧ (s.ladderEnd p).tstate tm = stHALTED
    ∧ (s.ladderEnd p).get (F.TEAM_STAT_CAUSE tm) = caFAULT ∧ (s.ladderEnd p).get (F.TEAM_SAFEFLT_FLT tm) = 0x0809
    ∧ ∀ r, r ≠ tm → (s.ladderEnd p).tstate r = s.tstate r := by
  have heq : s.ladderEnd p = ((s.rampEnded p).record (fcode cFEEDBACK 9) (ladCtx p tm)).haltTeam tm caFAULT (fcode cFEEDBACK 9) := by
    unfold State.ladderEnd
    rw [hon]
    exact if_pos ⟨hl, ht⟩
  have hrun : s.tstate tm = stRUN := by
    unfold State.ladderOn at hon
    split at hon
    · split at hon
      case isTrue h => exact Option.some.inj hon ▸ h.1
      case isFalse => cases hon
    · cases hon
  rw [heq]
  obtain ⟨⟨h3, h0⟩, hteams⟩ := State.rampEnded_ends (s := s) (p := p)
  generalize s.rampEnded p = x at *
  have hrec {f : Fld} (hf : f.addr < 0x120000) : (x.record (fcode cFEEDBACK 9) (ladCtx p tm)).get f = x.get f := State.record_below hf
  generalize x.record (fcode cFEEDBACK 9) (ladCtx p tm) = y at *
  have hport := ladder_port p
  have hstate (t : Fin 24) : y.tstate t = s.tstate t :=
    (hrec (f := F.TEAM_STAT_STATE t) (by simp only [F.TEAM_STAT_STATE, A.TEAM_STAT]; omega)).trans (hteams t)
  have hhalt := State.haltTeam_halts (s := y) (t := tm) caFAULT (fcode cFEEDBACK 9)
  generalize y.haltTeam tm caFAULT (fcode cFEEDBACK 9) = u at *
  obtain ⟨hst, hca, hfl⟩ := hhalt.halted (Or.inr ((hstate tm).trans hrun))
  obtain ⟨hl', hr'⟩ := hhalt.ended p ((hrec (by omega)).trans h3)
  exact ⟨⟨hl', hr'.trans ((hrec (by omega)).trans h0)⟩, hst, hca, hfl rfl, fun r hr => (hhalt.others r hr).1.trans (hstate r)⟩

end Losses

theorem feedbackLosses : Part.FeedbackLosses := by
  intro s t p
  dsimp only
  intro hclk
  refine ⟨fun t0 hb hm ht hturn => ⟨_, exec_at rfl (State.act.eq_def ..) hclk hturn, ?_⟩,
    fun e hl hm hsh hv hn hspd hlate hturn => ⟨_, exec_at_of rfl (State.act.eq_def ..) hclk hturn (if_pos (State.edgeLate_iff hl hm hsh hv hn hspd hlate)), ?_⟩,
    fun tm hteam hm hft hen hch hobs hspd hfrom hturn =>
      ⟨_, exec_at_of rfl (State.act.eq_def ..) hclk hturn (if_pos (State.stoodStill_of hteam hm hft hen hch hobs hspd hfrom)), ?_⟩⟩
  all_goals generalize s.advance t = a at *
  case refine_1 => exact State.hallTimeout_lost hb hm ht
  case refine_2 => exact State.portLoss_shown a.now
  case refine_3 =>
    obtain ⟨hshown, hfrozen, -⟩ := State.portLoss_raised (s := a) (p := p) (det := fdFROZEN) (lo := 9) (by decide) a.now
    exact ⟨hshown, hfrozen⟩

theorem ladderEnds : Part.LadderEnds := by
  intro s t p tm
  dsimp only
  refine fun hclk hon hl ht hturn => ⟨_, exec_at rfl (State.act.eq_def ..) hclk hturn, ?_⟩
  generalize s.advance t = a at *
  obtain ⟨⟨h3, h0⟩, hrest⟩ := State.ladderEnd_halts hon hl ht
  exact ⟨h3, h0, hrest⟩

/-- Settles O27. -/
theorem feedbackConditions : Obligations.FeedbackConditions := ⟨feedbackLosses, ladderEnds⟩

end Sys2Proof.Machine
end

section
/-!
PROOFS. Chapter 11: SSI frames and their clock.
-/
namespace Sys2Proof.Machine

section Ssi
variable {s u : State} {p : Fin 8} {f : Fld} {v : Word} {m : Master}

/-! ## A frame begins -/

/-- Whether the device drives the line is settled. -/
def State.ssiDriven (s : State) (p : Fin 8) : State := s.modPort p (fun x => { x with ssiDrive := s.roleActive })

/-- A frame of the device's own begins. -/
def State.ssiBegun (s : State) (p : Fin 8) (partner : Bool) : State :=
  (s.modPort p (fun x => { x with ssiT0 := some s.now, ssiPartner := partner })).putB (F.FBK_STAT_SSIBUSY p) true

theorem State.ssiBegun_begins (partner : Bool) : (s.ssiBegun p partner).port p = { s.port p with ssiT0 := some s.now, ssiPartner := partner }
    ∧ (s.ssiBegun p partner).get (F.FBK_STAT_SSIBUSY p) = 1 ∧ RegsBut [A.FBK_STAT p] s (s.ssiBegun p partner) := by
  have hp : (s.modPort p (fun x => { x with ssiT0 := some s.now, ssiPartner := partner })).port p
    = { s.port p with ssiT0 := some s.now, ssiPartner := partner } := State.port_modPort_same _
  have hr : (s.modPort p (fun x => { x with ssiT0 := some s.now, ssiPartner := partner })).regs = s.regs := rfl
  unfold State.ssiBegun
  generalize s.modPort p (fun x => { x with ssiT0 := some s.now, ssiPartner := partner }) = y at *
  rw [State.putB_eq]
  refine ⟨?_, State.get_put_same _ _ (f := F.FBK_STAT_SSIBUSY p) (Nat.le_of_ble_eq_true rfl),
    (regsBut_put (f := F.FBK_STAT_SSIBUSY p) List.mem_cons_self).mpr (RegsBut.refl.of_regs hr)⟩
  rw [State.port, State.put_fbk, ← State.port, hp]

/-- The line is quiet, and the frame its own. -/
theorem State.ssiStart_free {dat : Bool} (hT : (s.port p).ssiT0 = none) (he : (s.port p).ssiEnd + 65536 ≤ s.now) (ha : s.roleActive = true) :
    s.ssiStart p dat = if (!dat) = true then (s.ssiDriven p).ssiBad p else (s.ssiDriven p).ssiBegun p false := by
  have hp : (s.ssiDriven p).port p = { s.port p with ssiDrive := true } := by rw [← ha]; exact State.port_modPort_same _
  have hn : (s.ssiDriven p).now = s.now := rfl
  have hrecov : (s.ssiDriven p).get (F.FBK_SSIREQ_RECOV p) < 65536 := Nat.mod_lt _ (Nat.two_pow_pos 16)
  have hbusy : (s.ssiDriven p).ssiBusy p = false := by
    unfold State.ssiBusy
    rw [hp, hn]
    simp only [hT, Option.isSome_none, Bool.false_or, decide_eq_false_iff_not]
    exact Nat.not_lt_of_le (Nat.le_trans (Nat.add_le_add_left (Nat.le_of_lt hrecov) _) he)
  have heq : s.ssiStart p dat = if ((s.ssiDriven p).bit (F.FBK_SSIREQ_YOKSHARE p) && !((s.ssiDriven p).port p).ssiDrive) = true then s.ssiDriven p
      else if (s.ssiDriven p).ssiBusy p = true then (s.ssiDriven p).bumpSat (F.FBK_SSICNT_SKIP p)
      else if (!dat) = true then (s.ssiDriven p).ssiBad p else (s.ssiDriven p).ssiBegun p false := by
    unfold State.ssiStart
    rw [hT]
    rfl
  rw [heq, hp, hbusy]
  simp only [Bool.not_true, Bool.and_false, Bool.false_eq_true, if_false]

/-- A frame that began on a quiet line. -/
theorem State.ssiStart_begins (hT : (s.port p).ssiT0 = none) (he : (s.port p).ssiEnd + 65536 ≤ s.now) (ha : s.roleActive = true) :
    (s.ssiStart p true).port p = { s.port p with ssiDrive := true, ssiT0 := some s.now, ssiPartner := false }
    ∧ (s.ssiStart p true).get (F.FBK_STAT_SSIBUSY p) = 1 ∧ RegsBut [A.FBK_STAT p] s (s.ssiStart p true) := by
  have hp : (s.ssiDriven p).port p = { s.port p with ssiDrive := true } := by rw [← ha]; exact State.port_modPort_same _
  have hn : (s.ssiDriven p).now = s.now := rfl
  have hr : (s.ssiDriven p).regs = s.regs := rfl
  rw [State.ssiStart_free hT he ha, if_neg (by decide)]
  generalize s.ssiDriven p = y at *
  obtain ⟨hport, hbusy, hregs⟩ := State.ssiBegun_begins (s := y) (p := p) false
  refine ⟨by rw [hport, hp, hn], hbusy, (RegsBut.refl.of_regs hr).trans hregs⟩

/-! ## A bad frame -/

/-- What a bad frame leaves. -/
structure SsiBad (p : Fin 8) (s u : State) : Prop where
  err : u.get (F.FBK_STAT_SSIERR p) = 1
  count : u.get (F.FBK_SSICNT_ERR p) = min (2 ^ (F.FBK_SSICNT_ERR p).width - 1) (s.get (F.FBK_SSICNT_ERR p) + 1)
  port : (u.port p).ins = ({ s.port p with crcBad := (s.port p).crcBad + 1 } : PortSt).ins
  same : SameCount p s u
  raw : u.rd (A.FBK_SSIRAW0 p) = s.rd (A.FBK_SSIRAW0 p)

/-- One more bad frame in a row. -/
def State.crcCount (s : State) (p : Fin 8) : State := s.modPort p (fun x => { x with crcBad := (s.port p).crcBad + 1 })

theorem State.crcCount_kept : (s.crcCount p).port p = { s.port p with crcBad := (s.port p).crcBad + 1 } ∧ (s.crcCount p).regs = s.regs :=
  ⟨State.port_modPort_same _, rfl⟩

theorem State.bumpSat_kept (f : Fld) : (s.bumpSat f).port p = s.port p ∧ ∀ g, g.addr ≠ f.addr → (s.bumpSat f).get g = s.get g :=
  ⟨rfl, fun _ h => State.get_put_word _ _ h⟩

/-- The frame is counted as bad. -/
def State.ssiCounted (s : State) (p : Fin 8) : State := ((s.raise (F.FBK_STAT_SSIERR p)).bumpSat (F.FBK_SSICNT_ERR p)).crcCount p

theorem State.ssiCounted_bad : SsiBad p s (s.ssiCounted p) := by
  have hne : A.FBK_STAT p ≠ A.FBK_SSICNT p := by simp only [A.FBK_STAT, A.FBK_SSICNT]; omega
  have h1 : (s.raise (F.FBK_STAT_SSIERR p)).get (F.FBK_STAT_SSIERR p) = 1 := State.get_raise_same _ (Nat.le_of_ble_eq_true rfl) rfl
  have p1 : (s.raise (F.FBK_STAT_SSIERR p)).port p = s.port p := by rw [State.port, State.raise_fbk, ← State.port]
  have r1 : RegsBut [A.FBK_STAT p, A.FBK_SSICNT p] s (s.raise (F.FBK_STAT_SSIERR p)) :=
    (regsBut_raise (f := F.FBK_STAT_SSIERR p) List.mem_cons_self).mpr RegsBut.refl
  have c1 : (s.raise (F.FBK_STAT_SSIERR p)).get (F.FBK_SSICNT_ERR p) = s.get (F.FBK_SSICNT_ERR p) :=
    (State.raise_get ..).trans (State.get_put_word (f := F.FBK_STAT_SSIERR p) (g := F.FBK_SSICNT_ERR p) _ _ hne.symm)
  unfold State.ssiCounted
  generalize s.raise (F.FBK_STAT_SSIERR p) = x at *
  obtain ⟨p2, k2⟩ := State.bumpSat_kept (s := x) (p := p) (F.FBK_SSICNT_ERR p)
  have h2 := (k2 (F.FBK_STAT_SSIERR p) hne).trans h1
  have c2 := State.get_bumpSat (s := x) (F.FBK_SSICNT_ERR p) (Nat.le_of_ble_eq_true rfl)
  have r2 : RegsBut [A.FBK_STAT p, A.FBK_SSICNT p] s (x.bumpSat (F.FBK_SSICNT_ERR p)) :=
    (regsBut_bumpSat (f := F.FBK_SSICNT_ERR p) (List.mem_cons_of_mem _ List.mem_cons_self)).mpr r1
  generalize x.bumpSat (F.FBK_SSICNT_ERR p) = y at *
  obtain ⟨hp, hr⟩ := State.crcCount_kept (s := y) (p := p)
  generalize y.crcCount p = u at *
  have hget (f : Fld) : u.get f = y.get f := by unfold State.get State.rd; rw [hr]
  have r3 : RegsBut [A.FBK_STAT p, A.FBK_SSICNT p] s u := r2.of_regs hr
  have hrd {b : Nat} (h1 : b ≠ A.FBK_STAT p) (h2 : b ≠ A.FBK_SSICNT p) : u.rd b = s.rd b := r3 b (by simp [h1, h2])
  refine ⟨(hget _).trans h2, by rw [hget, c2, c1], by rw [hp, p2, p1], ⟨hrd ?_ ?_, hrd ?_ ?_⟩, hrd ?_ ?_⟩
  all_goals
    simp only [A.FBK_STAT, A.FBK_SSICNT, A.FBK_POS0, A.FBK_POS1, A.FBK_SSIRAW0]
    omega

theorem State.ssiBad_bad : SsiBad p s (s.ssiBad p) := by
  have heq : s.ssiBad p = if (((s.raise (F.FBK_STAT_SSIERR p)).bumpSat (F.FBK_SSICNT_ERR p)).port p).crcBad + 1 = (s.ssiCounted p).get (F.FBK_LOSSCFG_CRCMAX p)
      then (s.ssiCounted p).portLoss p fdSSI_CRC (s.ssiCounted p).now else s.ssiCounted p := rfl
  rw [heq]
  have hc := State.ssiCounted_bad (s := s) (p := p)
  generalize s.ssiCounted p = y at *
  have h := State.portLoss_lost (s := y) (p := p) fdSSI_CRC y.now
  generalize y.portLoss p fdSSI_CRC y.now = u at *
  split
  case isFalse => exact hc
  case isTrue =>
    have hword (o : Nat) {g : Fld} (hg : g.addr = fbkPage p + o) (ho : o ∈ [0x94, 0x9C]) : u.get g = y.get g := by
      have hlt : ∀ o ∈ [0x94, 0x9C], o < 0x800 ∧ o ∉ 0x20 :: 0xB4 :: 0x48 :: cmpOfs ∧ o ≠ 4 := by decide
      obtain ⟨h1, h2, h3⟩ := hlt o ho
      exact h.frame.get (stepFld_apart o hg h1 h2 h3)
    refine ⟨?_, ?_, h.frame.port.trans hc.port, hc.same.trans h.frame.count, ?_⟩
    · exact (h.frame.get fun k hk => moveFld_apart_stat (by decide) k hk.move).trans hc.err
    · exact (hword 0x9C (by simp only [F.FBK_SSICNT_ERR, A.FBK_SSICNT, fbkPage]; omega) (by decide)).trans hc.count
    · rw [State.rd_eq_get, hword 0x94 (by simp only [wordOf, A.FBK_SSIRAW0, fbkPage]; omega) (by decide), ← State.rd_eq_get, hc.raw]

end Ssi
end Sys2Proof.Machine
end

section
/-!
PROOFS. Chapter 11: a frame begun by a register write, and the end of a frame.
-/
namespace Sys2Proof.Machine
section Go
variable {s u : State} {p : Fin 8} {f : Fld} {v : Word} {m : Master} {w : Writer}

/-! ## A frame by a register write -/

theorem fbkSsireq_mapped : ∀ n : Fin 8, (regAt (A.FBK_SSIREQ n)).map (fun e => (e.1.base, e.1.w1c, e.2)) = some (A.FBK_SSIREQ 0, 0, [n.val]) := by
  decide +kernel

theorem src_of_bits (w : Word) : bitsGet w 30 2 = 3 ↔ w.getLsbD 30 = true ∧ w.getLsbD 31 = true := by
  simp only [BitVec.getLsbD, bitsGet, Nat.shiftRight_eq_div_pow, Nat.testBit_eq_decide_div_mod_eq, decide_eq_true_eq]
  omega

theorem State.normNow_ssireq {i : Nat} {k : Nat} (hk : 28 ≤ k) : (s.normNow (A.FBK_SSIREQ 0) i v).getLsbD k = v.getLsbD k := by
  have heq : s.normNow (A.FBK_SSIREQ 0) i v = nf (F.FBK_SSIREQ_TRGSEL 0) (subst 0 1) v := by
    unfold State.normNow normWord
    simp +decide only [if_false, if_true]
  rw [heq, nf, BitVec.getLsbD, bitsSet_testBit _ _ _ (by decide), BitVec.getLsbD]
  rw [if_neg]
  simp only [F.FBK_SSIREQ_TRGSEL]
  omega

/-- A bit that is set and is written as set stays. -/
theorem State.plainWrite_ones {r : RegDef} {i a k : Nat} (hu : Unbound r.base) (hw : r.w1c = 0) (ha : a ∉ lockWords)
    (hold : (s.rd a).getLsbD k = true) (hnew : (s.normNow r.base i v).getLsbD k = true) :
    ((s.plainWrite w r i a v).rd a).getLsbD k = true := by
  have hmerge (y : Word) (mask c : Word) (hc : c.getLsbD k = false) (hy : y.getLsbD k = true) :
      ((y &&& ~~~mask &&& ~~~c) ||| (s.normNow r.base i v &&& mask)).getLsbD k = true := by
    have hk : k < 32 := BitVec.lt_of_getLsbD hy
    simp only [BitVec.getLsbD_or, BitVec.getLsbD_and, BitVec.getLsbD_not, hy, hnew, hc, hk]
    cases mask.getLsbD k <;> rfl
  have hc (x : Word) : (v &&& BitVec.ofNat 32 r.w1c &&& x).getLsbD k = false := by
    rw [hw]
    simp only [BitVec.getLsbD_and, BitVec.getLsbD_zero, Bool.and_false, Bool.false_and]
  have hpad : (s.paddock 9 a v w).rd a = s.rd a := (State.paddock_logged a).regs a ha
  unfold State.plainWrite
  rw [State.boundWord_free hu.bound]
  dsimp only
  rw [if_neg hu.ups, if_pos rfl]
  split
  · rw [State.rd_wr_same]
    exact hmerge _ _ _ (hc _) (hpad ▸ hold)
  · rw [State.rd_wr_same]
    exact hmerge _ _ _ (hc _) hold

theorem Logged.fbk {l : List Nat} (h : Logged l s u) : u.fbk = s.fbk := by rw [h.rest]

/-- What a GO begins its frame from. -/
structure GoReady (p : Fin 8) (s u : State) : Prop where
  port : u.port p = s.port p
  now : u.now = s.now
  mode : u.fbkMode p = s.fbkMode p
  role : u.roleActive = s.roleActive
  src : s.get (F.FBK_SSIREQ_SRC p) = 3 → u.get (F.FBK_SSIREQ_SRC p) = 3

theorem lockWords_above : ∀ b ∈ A.EVT_TAGHWM :: lockWords, b < 0x90000 ∨ 0x98000 ≤ b := by decide

theorem lockWords_yok : A.YOK_STAT ∉ A.EVT_TAGHWM :: lockWords := by decide

/-- A GO that takes effect begins a frame in a state that the write of the word leaves. -/
theorem State.ssiGoWrite_ready (h : s.takes m (A.FBK_SSIREQ p) = true) (hv : bitsGet v 30 2 = 3) (dat : Bool) :
    ∃ u, GoReady p s u ∧ s.ssiGoWrite m p v dat = u.ssiGo p dat := by
  obtain ⟨⟨r, i⟩, hreg, hr⟩ := Option.map_eq_some_iff.mp (fbkSsireq_mapped p)
  obtain ⟨hbase, hr⟩ := Prod.mk.inj hr
  obtain ⟨hw1c, -⟩ := Prod.mk.inj hr
  replace hbase : r.base = A.FBK_SSIREQ 0 := hbase
  replace hw1c : r.w1c = 0 := hw1c
  obtain ⟨hreach, htag, hstall, -⟩ := State.takes_iff.mp h
  have hissue (x : Stall) : s.mayIssue x = true := by
    unfold State.mayIssue
    rw [htag, hstall]
    rfl
  have hunbound : Unbound r.base := by rw [hbase]; exact ⟨by decide, by decide⟩
  have hrange : 0x90000 ≤ A.FBK_SSIREQ p ∧ A.FBK_SSIREQ p < 0x98000 := by simp only [A.FBK_SSIREQ]; omega
  have hfree (b : Nat) (hb : 0x90000 ≤ b) (hb' : b < 0x98000) : b ∉ A.EVT_TAGHWM :: lockWords := fun hmem => by
    have hne := lockWords_above b hmem
    omega
  refine ⟨s.tagged.plainWrite m.writer r p (A.FBK_SSIREQ p) v, ?_, ?_⟩
  · have hlog := State.plainWrite_logged (s := s.tagged) (w := m.writer) (v := v) hunbound p (A.FBK_SSIREQ p)
    have hsame := State.tagged_sameSources (s := s)
    have hports := State.tagged_ports (s := s)
    have hsrc (hs : s.get (F.FBK_SSIREQ_SRC p) = 3) : (s.tagged.plainWrite m.writer r p (A.FBK_SSIREQ p) v).get (F.FBK_SSIREQ_SRC p) = 3 := by
      have hs' : s.tagged.get (F.FBK_SSIREQ_SRC p) = 3 := (hsame.get _ (Nat.lt_trans hrange.2 (by decide))).trans hs
      obtain ⟨h30, h31⟩ := (src_of_bits _).mp hs'
      obtain ⟨v30, v31⟩ := (src_of_bits _).mp hv
      have hmem : A.FBK_SSIREQ p ∉ lockWords := fun hm => hfree _ hrange.1 hrange.2 (List.mem_cons_of_mem _ hm)
      exact (src_of_bits _).mpr ⟨State.plainWrite_ones hunbound hw1c hmem h30 (by rw [hbase, State.normNow_ssireq (by decide), v30]),
        State.plainWrite_ones hunbound hw1c hmem h31 (by rw [hbase, State.normNow_ssireq (by decide), v31])⟩
    generalize s.tagged.plainWrite m.writer r p (A.FBK_SSIREQ p) v = u at *
    have hrd (b : Nat) (hb : b ≠ A.FBK_SSIREQ p) (hb' : b ∉ A.EVT_TAGHWM :: lockWords) (hlt : b < 0x120000) : u.rd b = s.rd b := by
      have h1 : u.rd b = s.tagged.rd b := hlog.regs b fun hm => (List.mem_cons.mp hm).elim hb fun hm => hb' (List.mem_cons_of_mem _ hm)
      have h2 := hsame.get (wordOf b) hlt
      rw [h1, State.rd_eq_get, h2, ← State.rd_eq_get]
    have hpage (o : Nat) (ho : o ≠ 0x8C) (ho' : o < 0x1000) {b : Nat} (hb : b = fbkPage p + o) : u.rd b = s.rd b := by
      have hp := p.isLt
      subst hb
      refine hrd _ ?_ (hfree _ ?_ ?_) ?_ <;> simp only [fbkPage, A.FBK_SSIREQ] <;> omega
    have hfbk := hlog.fbk
    have hyok : u.rd A.YOK_STAT = s.rd A.YOK_STAT := hrd _ (by simp only [A.YOK_STAT, A.FBK_SSIREQ]; omega) lockWords_yok (by decide)
    refine ⟨by rw [State.port, hfbk, hports, ← State.port], hlog.now.trans hsame.now, ?_, ?_, hsrc⟩
    · have hmode : SameMode p s u := ⟨hpage 0 (by decide) (by decide) (by simp only [A.FBK_CFG, fbkPage]; omega), ?_,
        hpage 0x70 (by decide) (by decide) (by simp only [A.FBK_HALLMAP, fbkPage]; omega)⟩
      · exact hmode.mode
      · rw [State.get, State.get, hpage 4 (by decide) (by decide) (by simp only [F.FBK_STAT_CFGERR, A.FBK_STAT, fbkPage]; omega)]
    · rw [State.roleActive, State.roleActive, State.get, State.get]
      simp only [F.YOK_STAT_ROLE, hyok]
  · unfold State.ssiGoWrite
    dsimp only
    rw [hreach, hissue]
    simp only [Bool.not_true, Bool.false_eq_true, if_false]
    have hguard := State.tagged_lockGuard m.writer v (fun s => (match regAt (A.FBK_SSIREQ p) with
      | some (r, _) => s.plainWrite m.writer r p (A.FBK_SSIREQ p) v
      | none => s).ssiGo p dat) h
    refine Eq.trans hguard ?_
    rw [hreg]

end Go

section End
variable {s u : State} {p : Fin 8} {f : Fld} {v : Word} {m : Master} {bits : Nat}

/-! ## The end of a frame -/

/-- The frame has ended. -/
def State.ssiOver (s : State) (p : Fin 8) (t0 : Tick) : State :=
  s.modPort p (fun x => { x with ssiT0 := none, ssiEnd := t0 + (2 * s.ssiBits p + 1) * s.get (F.FBK_SSITIM_HALF p) })

/-- Its bits are shown. -/
def State.ssiShown (s : State) (p : Fin 8) (raw : Nat) (good : Bool) : State :=
  (s.wr (A.FBK_SSIRAW0 p) (BitVec.ofNat 32 raw)).wr (A.FBK_SSIRAW1 p) (BitVec.ofNat 32 ((raw / 2 ^ 32) % 4096 + b2n good * 2 ^ 31))

/-- A first value sets the count. -/
def State.ssiFirst (s : State) (p : Fin 8) (val : Nat) (stamp : Tick) : State :=
  let w : Word := BitVec.ofNat 32 val
  let s := s.modPort p (fun x => { x with frozen := x.frozen && s.rd (A.FBK_POS0 p) == w })
  ((s.portJump p w stamp).posValid p).portEvent p 0 stamp

/-- A next one moves it. -/
def State.ssiNextVal (s : State) (p : Fin 8) (d : Int) (stamp : Tick) : State :=
  let s := s.portStep p d stamp
  if s.bit (F.FBK_STAT_POSVALID p) then s else s.posValid p

/-- The value of a good frame. -/
def State.ssiValue (s : State) (p : Fin 8) (raw : Nat) : Nat :=
  let posw := s.get (F.FBK_SSIFMT_POSW p)
  let raw := raw / 2 ^ (s.get (F.FBK_SSIFMT_ERRW p) + s.get (F.FBK_SSIFMT_CRCW p))
  if s.bit (F.FBK_SSIFMT_GRAY p) then grayDecode posw raw else raw % 2 ^ posw

/-- A good frame is taken. -/
def State.ssiTake (s : State) (p : Fin 8) (raw : Nat) (stamp : Tick) : State :=
  let val := s.ssiValue p raw
  let posw := s.get (F.FBK_SSIFMT_POSW p)
  let prev := (s.port p).ssiPrev
  let s := s.modPort p (fun x => { x with crcBad := 0, ssiPrev := some val })
  (match prev with
    | none => s.ssiFirst p val stamp
    | some v0 => s.ssiNextVal p (s.signed p (toSigned posw (val + 2 ^ posw - v0))) stamp).outsRefresh

theorem State.ssiFrameEnd_eq {t0 : Tick} (ht : (s.port p).ssiT0 = some t0) (hp : (s.port p).ssiPartner = false) (hm : s.fbkMode p = fmSSI)
    (hn : t0 + 2 * s.ssiBits p * s.get (F.FBK_SSITIM_HALF p) + s.get (F.FBK_SSITIM_SMPDLY p) + 1 ≤ s.now) :
    ∃ busy : Bool, ∃ stamp : Tick, let y := (s.ssiOver p t0).putB (F.FBK_STAT_SSIBUSY p) busy
      s.ssiFrameEnd p bits false = if (!y.ssiGood p (bits % 2 ^ s.ssiBits p)) = true
        then (y.ssiShown p (bits % 2 ^ s.ssiBits p) (y.ssiGood p (bits % 2 ^ s.ssiBits p))).ssiBad p
        else (y.ssiShown p (bits % 2 ^ s.ssiBits p) (y.ssiGood p (bits % 2 ^ s.ssiBits p))).ssiTake p (bits % 2 ^ s.ssiBits p) stamp := by
  have hearly : ¬ (s.fbkMode p ≠ fmSSI ∨ ((!(s.port p).ssiPartner) = true ∧
      s.now < t0 + 2 * s.ssiBits p * s.get (F.FBK_SSITIM_HALF p) + s.get (F.FBK_SSITIM_SMPDLY p) + 1)) := by
    rintro (h | ⟨-, h⟩)
    · exact h hm
    · exact Nat.not_lt_of_le hn h
  refine ⟨(s.ssiOver p t0).ssiBusy p, t0 + (((s.ssiOver p t0).putB (F.FBK_STAT_SSIBUSY p) ((s.ssiOver p t0).ssiBusy p)).ssiShown p (bits % 2 ^ s.ssiBits p)
    (((s.ssiOver p t0).putB (F.FBK_STAT_SSIBUSY p) ((s.ssiOver p t0).ssiBusy p)).ssiGood p (bits % 2 ^ s.ssiBits p))).get (F.FBK_SSITIM_LATDLY p), ?_⟩
  dsimp only
  unfold State.ssiFrameEnd
  rw [ht]
  dsimp only
  rw [if_neg hearly, hp, Bool.false_and, if_neg Bool.false_ne_true]
  rfl


/-- The count, as a frame moves it. -/
structure SsiMoved (p : Fin 8) (w : Word) (s u : State) : Prop where
  frame : PortFrame (moveFld p) PortSt.still p s u
  pos0 : u.rd (A.FBK_POS0 p) = w

theorem SsiMoved.step {w : Word} {x : State} (h : SsiMoved p w s u) (k : PortFrame (stepFld p) PortSt.quiet p u x) : SsiMoved p w s x :=
  ⟨h.frame.trans ((k.mono fun _ hf => hf.move).loosen fun _ => rfl), k.count.pos0.trans h.pos0⟩

theorem State.portStep_any (d : Int) (stamp : Tick) : SsiMoved p (s.rd (A.FBK_POS0 p) + wOfInt d) s (s.portStep p d stamp) := by
  by_cases hd : d = 0
  · subst hd
    have heq : s.portStep p 0 stamp = (s.portMove p 0 stamp).portEvent p 0 stamp := rfl
    have hm : s.portMove p 0 stamp = s := if_pos rfl
    have h := State.portEvent_calm (s := s) (p := p) 0 stamp
    rw [heq, hm]
    refine ⟨(h.mono fun _ hf => hf.move).loosen fun _ => rfl, h.count.pos0.trans ?_⟩
    exact (BitVec.add_zero _).symm
  · have h := State.portStep_moved (s := s) (p := p) hd stamp
    refine ⟨h.frame, h.pos0.trans ?_⟩
    rw [wOfInt, wOfInt, BitVec.ofInt_add, BitVec.ofInt_natCast, BitVec.ofNat_toNat, BitVec.setWidth_eq]

theorem State.ssiNextVal_moved (d : Int) (stamp : Tick) : SsiMoved p (s.rd (A.FBK_POS0 p) + wOfInt d) s (s.ssiNextVal p d stamp) := by
  have h := State.portStep_any (s := s) (p := p) d stamp
  unfold State.ssiNextVal
  dsimp only
  split
  · exact h
  · exact h.step State.posValid_valid.1

/-- A value that differs ends a freeze. -/
def State.ssiThaw (s : State) (p : Fin 8) (w : Word) : State := s.modPort p (fun x => { x with frozen := x.frozen && s.rd (A.FBK_POS0 p) == w })

theorem State.ssiThaw_frame (w : Word) : PortFrame (moveFld p) PortSt.still p s (s.ssiThaw p w) := PortFrame.refl.modPort fun _ => rfl

theorem State.ssiFirst_moved (val : Nat) (stamp : Tick) : SsiMoved p (BitVec.ofNat 32 val) s (s.ssiFirst p val stamp) := by
  have heq : s.ssiFirst p val stamp = (((s.ssiThaw p (BitVec.ofNat 32 val)).portJump p (BitVec.ofNat 32 val) stamp).posValid p).portEvent p 0 stamp := rfl
  rw [heq]
  have h1 := State.ssiThaw_frame (s := s) (p := p) (BitVec.ofNat 32 val)
  generalize s.ssiThaw p (BitVec.ofNat 32 val) = x at *
  have h2 := State.portJump_jumps (s := x) (p := p) (BitVec.ofNat 32 val) stamp
  generalize x.portJump p (BitVec.ofNat 32 val) stamp = y at *
  have hy : SsiMoved p (BitVec.ofNat 32 val) s y := ⟨h1.trans (h2.frame.loosen fun _ => rfl), h2.pos0⟩
  have h3 := hy.step (State.posValid_valid (s := y)).1
  generalize y.posValid p = z at *
  have h4 := State.portEvent_calm (s := z) (p := p) 0 stamp
  exact ⟨h3.frame.trans ((h4.mono fun _ hf => hf.move).loosen fun _ => rfl), h4.count.pos0.trans h3.pos0⟩

/-- A good frame's value is kept for the next. -/
def State.ssiKept (s : State) (p : Fin 8) (val : Nat) : State := s.modPort p (fun x => { x with crcBad := 0, ssiPrev := some val })

theorem State.ssiKept_port (val : Nat) : (s.ssiKept p val).port p = { s.port p with crcBad := 0, ssiPrev := some val } ∧ (s.ssiKept p val).regs = s.regs :=
  ⟨State.port_modPort_same _, rfl⟩

/-- A good frame, taken. -/
structure SsiTaken (p : Fin 8) (raw : Nat) (s u : State) : Prop where
  crc : (u.port p).crcBad = 0
  idle : (u.port p).ssiT0 = (s.port p).ssiT0
  kept : u.rd (A.FBK_SSIRAW0 p) = s.rd (A.FBK_SSIRAW0 p)
  first : (s.port p).ssiPrev = none → u.rd (A.FBK_POS0 p) = BitVec.ofNat 32 (s.ssiValue p raw)
  next : ∀ v0, (s.port p).ssiPrev = some v0 → u.rd (A.FBK_POS0 p) = s.rd (A.FBK_POS0 p)
    + wOfInt (s.signed p (toSigned (s.get (F.FBK_SSIFMT_POSW p)) (s.ssiValue p raw + 2 ^ s.get (F.FBK_SSIFMT_POSW p) - v0)))

theorem PortSt.still_crc (x : PortSt) : x.still.crcBad = x.crcBad := rfl
theorem PortSt.still_ssi (x : PortSt) : x.still.ssiT0 = x.ssiT0 := rfl

theorem SsiMoved.taken {w : Word} {val : Nat} (h : SsiMoved p w (s.ssiKept p val) u) : (u.port p).crcBad = 0 ∧ (u.port p).ssiT0 = (s.port p).ssiT0
    ∧ u.rd (A.FBK_SSIRAW0 p) = s.rd (A.FBK_SSIRAW0 p) := by
  obtain ⟨hport, hregs⟩ := State.ssiKept_port (s := s) (p := p) val
  have hrd : (s.ssiKept p val).rd (A.FBK_SSIRAW0 p) = s.rd (A.FBK_SSIRAW0 p) := by unfold State.rd; rw [hregs]
  generalize s.ssiKept p val = y at *
  refine ⟨?_, ?_, ?_⟩
  · rw [← PortSt.still_crc, h.frame.port, PortSt.still_crc, hport]
  · rw [← PortSt.still_ssi, h.frame.port, PortSt.still_ssi, hport]
  · rw [State.rd_eq_get, h.frame.get (moveFld_apart 0x94 (by simp only [wordOf, A.FBK_SSIRAW0, fbkPage]; omega) (by decide) (by decide) (by decide)),
      ← State.rd_eq_get, hrd]

theorem SsiMoved.outs {w : Word} (h : SsiMoved p w s u) : SsiMoved p w s u.outsRefresh :=
  h.step (((PortFrame.refl (g := id)).outsRefresh).lad.mono fun _ hf => hf.step)

theorem State.ssiTake_taken (raw : Nat) (stamp : Tick) : SsiTaken p raw s (s.ssiTake p raw stamp) := by
  unfold State.ssiTake
  dsimp only
  have hkept := State.ssiKept_port (s := s) (p := p) (s.ssiValue p raw)
  have hpos : (s.ssiKept p (s.ssiValue p raw)).rd (A.FBK_POS0 p) = s.rd (A.FBK_POS0 p) := by unfold State.rd; rw [hkept.2]
  have hsign (d : Int) : (s.ssiKept p (s.ssiValue p raw)).signed p d = s.signed p d := (SameMode.of_regs hkept.2).signed d
  cases hprev : (s.port p).ssiPrev with
  | none =>
    have h := (State.ssiFirst_moved (s := s.ssiKept p (s.ssiValue p raw)) (p := p) (s.ssiValue p raw) stamp).outs
    obtain ⟨hcrc, hidle, hraw⟩ := h.taken
    exact ⟨hcrc, hidle, hraw, fun _ => h.pos0, fun v0 hv => by rw [hprev] at hv; cases hv⟩
  | some v0 =>
    have h := (State.ssiNextVal_moved (s := s.ssiKept p (s.ssiValue p raw)) (p := p) ((s.ssiKept p (s.ssiValue p raw)).signed p
      (toSigned (s.get (F.FBK_SSIFMT_POSW p)) (s.ssiValue p raw + 2 ^ s.get (F.FBK_SSIFMT_POSW p) - v0))) stamp).outs
    obtain ⟨hcrc, hidle, hraw⟩ := h.taken
    refine ⟨hcrc, hidle, hraw, fun hv => (by rw [hprev] at hv; cases hv), fun v hv => ?_⟩
    rw [hprev] at hv
    cases hv
    rw [← hpos, ← hsign]
    exact h.pos0


/-! ## The frame's end as a whole -/

/-- The fields that a frame's end shows first. -/
def ssiFld (p : Fin 8) (f : Fld) : Prop := FbkFld [(16, 1)] [0x94, 0x98] p f

/-- A frame that has ended, with its bits shown. -/
structure SsiEnded (p : Fin 8) (raw : Nat) (s u : State) : Prop where
  idle : (u.port p).ssiT0 = none
  crc : (u.port p).crcBad = (s.port p).crcBad
  prev : (u.port p).ssiPrev = (s.port p).ssiPrev
  flds : FldsBut (ssiFld p) s u
  raw0 : u.rd (A.FBK_SSIRAW0 p) = BitVec.ofNat 32 raw

theorem ssiFld_apart {g : Fld} (o : Nat) (hg : g.addr = fbkPage p + o) (h : o < 0x94 ∧ o ≠ 4 ∨ o = 0x9C) : ∀ k, ssiFld p k → Apart g k :=
  fun _ hk => FbkFld.apart hg (by omega) (by simp only [List.mem_cons, List.not_mem_nil, or_false]; omega) (fun e => by omega) hk

theorem State.ssiGood_congr (h : FldsBut (ssiFld p) s u) (raw : Nat) : u.ssiGood p raw = s.ssiGood p raw := by
  have hfmt {g : Fld} (hg : g.addr = A.FBK_SSIFMT p) : u.get g = s.get g :=
    h.get (ssiFld_apart 0x80 (by rw [hg]; simp only [A.FBK_SSIFMT, fbkPage]; omega) (by omega))
  have hcrc {g : Fld} (hg : g.addr = A.FBK_SSICRC p) : u.get g = s.get g :=
    h.get (ssiFld_apart 0x88 (by rw [hg]; simp only [A.FBK_SSICRC, fbkPage]; omega) (by omega))
  unfold State.ssiGood
  simp only [hfmt (g := F.FBK_SSIFMT_POSW p) rfl, hfmt (g := F.FBK_SSIFMT_ERRW p) rfl, hfmt (g := F.FBK_SSIFMT_CRCW p) rfl,
    State.bit_congr (hfmt (g := F.FBK_SSIFMT_CRCINV p) rfl), hfmt (g := F.FBK_SSIFMT_ERRPOL p) rfl, hcrc (g := F.FBK_SSICRC_POLY p) rfl,
    hcrc (g := F.FBK_SSICRC_INIT p) rfl]

theorem State.ssiOver_kept {t0 : Tick} : ((s.ssiOver p t0).port p).ssiT0 = none ∧ ((s.ssiOver p t0).port p).crcBad = (s.port p).crcBad
    ∧ ((s.ssiOver p t0).port p).ssiPrev = (s.port p).ssiPrev ∧ (s.ssiOver p t0).regs = s.regs := by
  have h : (s.ssiOver p t0).port p = { s.port p with ssiT0 := none, ssiEnd := t0 + (2 * s.ssiBits p + 1) * s.get (F.FBK_SSITIM_HALF p) } :=
    State.port_modPort_same _
  rw [h]
  exact ⟨rfl, rfl, rfl, rfl⟩

/-- The frame is over, and SSIBUSY follows. -/
theorem State.ssiBusyPut_kept {t0 : Tick} (busy : Bool) : FldsBut (ssiFld p) s ((s.ssiOver p t0).putB (F.FBK_STAT_SSIBUSY p) busy)
    ∧ ((s.ssiOver p t0).putB (F.FBK_STAT_SSIBUSY p) busy).port p = (s.ssiOver p t0).port p := by
  obtain ⟨-, -, -, hregs⟩ := State.ssiOver_kept (s := s) (p := p) (t0 := t0)
  generalize s.ssiOver p t0 = x at *
  have hstat : ssiFld p ⟨A.FBK_STAT p, 16, 1⟩ := fbkFld_stat (by simp only [A.FBK_STAT, fbkPage]; omega) List.mem_cons_self
  rw [State.putB_eq]
  refine ⟨(FldsBut.refl.of_regs hregs).put (f := F.FBK_STAT_SSIBUSY p) _ hstat (Nat.le_of_ble_eq_true rfl), ?_⟩
  rw [State.port, State.put_fbk, ← State.port]

theorem State.ssiShown_kept (raw : Nat) (good : Bool) : FldsBut (ssiFld p) s (s.ssiShown p raw good) ∧ (s.ssiShown p raw good).port p = s.port p
    ∧ (s.ssiShown p raw good).rd (A.FBK_SSIRAW0 p) = BitVec.ofNat 32 raw := by
  have h0 : ssiFld p (wordOf (A.FBK_SSIRAW0 p)) := fbkFld_word 0x94 (by decide) (by simp only [wordOf, A.FBK_SSIRAW0, fbkPage]; omega)
  have h1 : ssiFld p (wordOf (A.FBK_SSIRAW1 p)) := fbkFld_word 0x98 (by decide) (by simp only [wordOf, A.FBK_SSIRAW1, fbkPage]; omega)
  have hne : A.FBK_SSIRAW0 p ≠ A.FBK_SSIRAW1 p := by simp only [A.FBK_SSIRAW0, A.FBK_SSIRAW1]; omega
  unfold State.ssiShown
  generalize BitVec.ofNat 32 ((raw / 2 ^ 32) % 4096 + b2n good * 2 ^ 31) = w
  exact ⟨(FldsBut.refl.wr _ h0).wr _ h1, by rw [State.port, State.wr_fbk, State.wr_fbk, ← State.port], (State.rd_wr_ne _ _ hne).trans (State.rd_wr_same ..)⟩

theorem State.ssiEnd_ended {t0 : Tick} (busy good : Bool) (raw : Nat) :
    SsiEnded p raw s (((s.ssiOver p t0).putB (F.FBK_STAT_SSIBUSY p) busy).ssiShown p raw good) := by
  obtain ⟨h1, h2⟩ := State.ssiBusyPut_kept (s := s) (p := p) (t0 := t0) busy
  obtain ⟨k1, k2, k3, -⟩ := State.ssiOver_kept (s := s) (p := p) (t0 := t0)
  generalize (s.ssiOver p t0).putB (F.FBK_STAT_SSIBUSY p) busy = y at *
  obtain ⟨j1, j2, j3⟩ := State.ssiShown_kept (s := y) (p := p) raw good
  exact ⟨by rw [j2, h2, k1], by rw [j2, h2, k2], by rw [j2, h2, k3], h1.trans j1, j3⟩

theorem PortSt.ins_crc (x : PortSt) : x.ins.crcBad = x.crcBad := rfl
theorem PortSt.ins_ssi (x : PortSt) : x.ins.ssiT0 = x.ssiT0 := rfl

/-- What the end of a frame of the device's own leaves. -/
structure SsiFrameTaken (p : Fin 8) (raw : Nat) (s u : State) : Prop where
  idle : (u.port p).ssiT0 = none
  raw0 : u.rd (A.FBK_SSIRAW0 p) = BitVec.ofNat 32 raw
  bad : s.ssiGood p raw = false → u.get (F.FBK_STAT_SSIERR p) = 1 ∧ (u.port p).crcBad = (s.port p).crcBad + 1
    ∧ u.rd (A.FBK_POS0 p) = s.rd (A.FBK_POS0 p)
  good : s.ssiGood p raw = true → (u.port p).crcBad = 0
    ∧ ((s.port p).ssiPrev = none → u.rd (A.FBK_POS0 p) = BitVec.ofNat 32 (s.ssiValue p raw))
    ∧ ∀ v0, (s.port p).ssiPrev = some v0 → u.rd (A.FBK_POS0 p) = s.rd (A.FBK_POS0 p)
      + wOfInt (s.signed p (toSigned (s.get (F.FBK_SSIFMT_POSW p)) (s.ssiValue p raw + 2 ^ s.get (F.FBK_SSIFMT_POSW p) - v0)))

theorem SsiEnded.pos {raw : Nat} (h : SsiEnded p raw s u) : u.rd (A.FBK_POS0 p) = s.rd (A.FBK_POS0 p) := by
  rw [State.rd_eq_get, h.flds.get (ssiFld_apart 0x10 (by simp only [wordOf, A.FBK_POS0, fbkPage]; omega) (by omega)), ← State.rd_eq_get]

theorem SsiEnded.fmt {raw : Nat} (h : SsiEnded p raw s u) {g : Fld} (hg : g.addr = A.FBK_SSIFMT p) : u.get g = s.get g :=
  h.flds.get (ssiFld_apart 0x80 (by rw [hg]; simp only [A.FBK_SSIFMT, fbkPage]; omega) (by omega))

theorem SsiEnded.value {raw : Nat} (h : SsiEnded p raw s u) (n : Nat) : u.ssiValue p n = s.ssiValue p n := by
  unfold State.ssiValue
  simp only [h.fmt (g := F.FBK_SSIFMT_POSW p) rfl, h.fmt (g := F.FBK_SSIFMT_ERRW p) rfl, h.fmt (g := F.FBK_SSIFMT_CRCW p) rfl,
    State.bit_congr (h.fmt (g := F.FBK_SSIFMT_GRAY p) rfl)]

theorem SsiEnded.signed {raw : Nat} (h : SsiEnded p raw s u) (d : Int) : u.signed p d = s.signed p d :=
  (FldsBut.sameMode h.flds (by decide) (by decide) (by decide) (by decide)).signed d

theorem SsiEnded.isBad {raw : Nat} (h : SsiEnded p raw s u) (hg : s.ssiGood p raw = false) : SsiFrameTaken p raw s (u.ssiBad p) := by
  have hb := State.ssiBad_bad (s := u) (p := p)
  refine ⟨?_, hb.raw.trans h.raw0, fun _ => ⟨hb.err, ?_, hb.same.pos0.trans h.pos⟩, fun e => by rw [hg] at e; cases e⟩
  · rw [← PortSt.ins_ssi, hb.port, PortSt.ins_ssi]
    exact h.idle
  · rw [← PortSt.ins_crc, hb.port, PortSt.ins_crc, h.crc]

theorem SsiEnded.isGood {raw : Nat} (h : SsiEnded p raw s u) (hg : s.ssiGood p raw = true) (stamp : Tick) :
    SsiFrameTaken p raw s (u.ssiTake p raw stamp) := by
  have ht := State.ssiTake_taken (s := u) (p := p) raw stamp
  refine ⟨ht.idle.trans h.idle, ht.kept.trans h.raw0, fun e => (by rw [hg] at e; cases e), fun _ => ⟨ht.crc, fun hv => ?_, fun v0 hv => ?_⟩⟩
  · rw [ht.first (h.prev.trans hv), h.value]
  · rw [ht.next v0 (h.prev.trans hv), h.pos, h.signed, h.value, h.fmt (g := F.FBK_SSIFMT_POSW p) rfl]

theorem State.ssiFrameEnd_taken {t0 : Tick} (ht : (s.port p).ssiT0 = some t0) (hp : (s.port p).ssiPartner = false) (hm : s.fbkMode p = fmSSI)
    (hn : t0 + 2 * s.ssiBits p * s.get (F.FBK_SSITIM_HALF p) + s.get (F.FBK_SSITIM_SMPDLY p) + 1 ≤ s.now) :
    SsiFrameTaken p (bits % 2 ^ s.ssiBits p) s (s.ssiFrameEnd p bits false) := by
  obtain ⟨busy, stamp, heq⟩ := State.ssiFrameEnd_eq (bits := bits) ht hp hm hn
  have hgood (raw : Nat) := State.ssiGood_congr (State.ssiBusyPut_kept (s := s) (p := p) (t0 := t0) busy).1 raw
  have hend (good : Bool) := State.ssiEnd_ended (s := s) (p := p) (t0 := t0) busy good (bits % 2 ^ s.ssiBits p)
  dsimp only at heq
  rw [heq, hgood]
  split
  case isTrue h => exact (hend _).isBad (by simpa only [Bool.not_eq_true'] using h)
  case isFalse h => exact (hend _).isGood (by simpa only [Bool.not_eq_true', Bool.not_eq_false] using h) stamp

end End
section Request
variable {s : State} {p : Fin 8}

theorem State.ssiDriven_kept : ((s.ssiDriven p).port p).ssiT0 = (s.port p).ssiT0 ∧ ∀ f, (s.ssiDriven p).get f = s.get f := by
  have h : (s.ssiDriven p).port p = { s.port p with ssiDrive := s.roleActive } := State.port_modPort_same _
  exact ⟨by rw [h], fun _ => rfl⟩

/-- The next request is planned. -/
def State.ssiPlanned (s : State) (p : Fin 8) : State := s.modPort p (fun x => { x with ssiNext := some (s.now + s.get (F.FBK_SSIPER_PER p)) })

theorem State.ssiPlanned_kept : (s.ssiPlanned p).port p = { s.port p with ssiNext := some (s.now + s.get (F.FBK_SSIPER_PER p)) }
    ∧ (s.ssiPlanned p).now = s.now ∧ (s.ssiPlanned p).regs = s.regs := ⟨State.port_modPort_same _, rfl, rfl⟩

theorem State.ssiRequest_planned {dat : Bool} (hm : s.fbkMode p = fmSSI) (hsrc : s.get (F.FBK_SSIREQ_SRC p) = 2) (hper : s.get (F.FBK_SSIPER_PER p) ≠ 0)
    (hnext : (s.port p).ssiNext = some s.now) : s.ssiRequest p dat = (s.ssiPlanned p).ssiStart p dat := by
  unfold State.ssiRequest
  rw [hsrc]
  dsimp only
  rw [if_neg (fun h => h hm), if_neg (by decide), if_pos rfl, if_pos ⟨hper, hnext⟩]
  rfl

theorem State.ssiRequest_begins (hm : s.fbkMode p = fmSSI) (hsrc : s.get (F.FBK_SSIREQ_SRC p) = 2) (hper : s.get (F.FBK_SSIPER_PER p) ≠ 0)
    (hnext : (s.port p).ssiNext = some s.now) (hclear : (s.port p).ssiT0 = none ∧ (s.port p).ssiEnd + 65536 ≤ s.now) (hrole : s.roleActive = true) :
    (((s.ssiRequest p true).port p).ssiT0 = some s.now ∧ ((s.ssiRequest p true).port p).ssiPartner = false
      ∧ (s.ssiRequest p true).get (F.FBK_STAT_SSIBUSY p) = 1)
    ∧ ((s.ssiRequest p true).port p).ssiNext = some (s.now + s.get (F.FBK_SSIPER_PER p)) ∧ RegsBut [A.FBK_STAT p] s (s.ssiRequest p true) := by
  obtain ⟨hidle, hend⟩ := hclear
  rw [State.ssiRequest_planned hm hsrc hper hnext]
  obtain ⟨hport, hnow, hregs⟩ := State.ssiPlanned_kept (s := s) (p := p)
  have hrole' : (s.ssiPlanned p).roleActive = true := by unfold State.roleActive State.get State.rd; rw [hregs]; exact hrole
  generalize s.ssiPlanned p = x at *
  obtain ⟨k1, k2, k3⟩ := State.ssiStart_begins (s := x) (p := p) (by rw [hport]; exact hidle) (by rw [hport, hnow]; exact hend) hrole'
  rw [k1, hport, hnow]
  exact ⟨⟨rfl, rfl, k2⟩, rfl, (RegsBut.refl.of_regs hregs).trans k3⟩

theorem State.ssiRequest_noData (hm : s.fbkMode p = fmSSI) (hsrc : s.get (F.FBK_SSIREQ_SRC p) = 2) (hper : s.get (F.FBK_SSIPER_PER p) ≠ 0)
    (hnext : (s.port p).ssiNext = some s.now) (hclear : (s.port p).ssiT0 = none ∧ (s.port p).ssiEnd + 65536 ≤ s.now) (hrole : s.roleActive = true) :
    ((s.ssiRequest p false).port p).ssiT0 = none ∧ (s.ssiRequest p false).get (F.FBK_SSICNT_ERR p)
      = min (2 ^ (F.FBK_SSICNT_ERR p).width - 1) (s.get (F.FBK_SSICNT_ERR p) + 1) := by
  obtain ⟨hidle, hend⟩ := hclear
  rw [State.ssiRequest_planned hm hsrc hper hnext]
  obtain ⟨hport, hnow, hregs⟩ := State.ssiPlanned_kept (s := s) (p := p)
  have hrole' : (s.ssiPlanned p).roleActive = true := by unfold State.roleActive State.get State.rd; rw [hregs]; exact hrole
  have hget (f : Fld) : (s.ssiPlanned p).get f = s.get f := by unfold State.get State.rd; rw [hregs]
  generalize s.ssiPlanned p = x at *
  rw [State.ssiStart_free (by rw [hport]; exact hidle) (by rw [hport, hnow]; exact hend) hrole', if_pos (by decide)]
  obtain ⟨hdriven, hsame⟩ := State.ssiDriven_kept (s := x) (p := p)
  generalize x.ssiDriven p = y at *
  have hb := State.ssiBad_bad (s := y) (p := p)
  refine ⟨?_, ?_⟩
  · rw [← PortSt.ins_ssi, hb.port, PortSt.ins_ssi]
    exact hdriven.trans (by rw [hport]; exact hidle)
  · rw [hb.count, hsame, hget]

end Request

/-! ## The statements -/

theorem ssiFrameSteps : Part.SsiFrames := by
  intro s t m p v bits
  dsimp only
  intro hclk hm
  refine ⟨fun hsrc hper hnext hclear hrole => ⟨fun hturn => ⟨_, exec_at rfl (State.act.eq_def ..) hclk hturn, ?_⟩,
      fun hturn => ⟨_, exec_at rfl (State.act.eq_def ..) hclk hturn, ?_⟩⟩,
    fun htakes hsrc hv hclear hrole hturn => ⟨_, exec_any rfl (State.act.eq_def ..) hturn, ?_⟩,
    fun hshare hdrive hidle hturn => ⟨_, exec_at_of rfl (State.act.eq_def ..) hclk hturn (if_pos ⟨hm, hshare, by rw [hdrive]; rfl, hidle⟩), ?_⟩,
    fun t0 ht hp hn hturn => ⟨_, exec_at rfl (State.act.eq_def ..) hclk hturn, ?_⟩⟩
  all_goals generalize s.advance t = a at *
  case refine_1 => exact State.ssiRequest_begins hm hsrc hper hnext hclear hrole
  case refine_2 => exact State.ssiRequest_noData hm hsrc hper hnext hclear hrole
  case refine_3 =>
    obtain ⟨u, hu, heq⟩ := State.ssiGoWrite_ready htakes hv true
    have hgo : u.ssiGo p true = u.ssiStart p true := if_pos ⟨hu.mode.trans hm, hu.src hsrc⟩
    obtain ⟨hidle, hend⟩ := hclear
    obtain ⟨hport, hbusy, -⟩ := State.ssiStart_begins (s := u) (p := p) (by rw [hu.port, hidle]) (by rw [hu.port, hu.now]; exact hend) (hu.role.trans hrole)
    rw [heq, hgo, hport]
    exact ⟨congrArg some hu.now, rfl, hbusy⟩
  case refine_4 =>
    obtain ⟨hport, hbusy, hregs⟩ := State.ssiBegun_begins (s := a) (p := p) true
    unfold State.ssiBegun at *
    rw [hport]
    exact ⟨rfl, rfl, hbusy, hregs⟩
  case refine_5 =>
    have h := State.ssiFrameEnd_taken (bits := bits) ht hp hm hn
    refine ⟨h.idle, h.raw0, h.bad, fun hg hgray => ?_⟩
    obtain ⟨hcrc, hfirst, hnext⟩ := h.good hg
    have hval : a.ssiValue p (bits % 2 ^ a.ssiBits p) = bits % 2 ^ a.ssiBits p
        / 2 ^ (a.get (F.FBK_SSIFMT_ERRW p) + a.get (F.FBK_SSIFMT_CRCW p)) % 2 ^ a.get (F.FBK_SSIFMT_POSW p) := by
      rw [State.ssiValue, hgray]
      rfl
    rw [← hval]
    refine ⟨hcrc, hfirst, fun v0 hv _ hdir => ?_⟩
    have hsign (d : Int) : a.signed p d = d := by rw [State.signed, hdir, if_neg Bool.false_ne_true]
    rw [hnext v0 hv, hsign, wOfInt]

/-- A half period's level. -/
theorem ssiLevel_half {h nb d k : Nat} (hk : k ≤ 2 * nb) (h1 : k * h ≤ d) (h2 : d < (k + 1) * h) :
    ssiLevel h nb d = decide (k % 2 = 1) := by
  have hdiv : d / h = k := Nat.div_eq_of_lt_le h1 h2
  have hbefore : ¬ (2 * nb + 1) * h ≤ d := Nat.not_le_of_lt (Nat.lt_of_lt_of_le h2 (Nat.mul_le_mul_right h (Nat.succ_le_succ hk)))
  rw [ssiLevel, decide_eq_false hbefore, hdiv, Bool.false_or]
  rfl

theorem ssiClock : Part.SsiClock := by
  refine ⟨fun h nb d k _ hk h1 h2 => ssiLevel_half hk h1 h2, fun h nb d hd => ?_, fun s p hunder hphase hfail hm hshare hidle hend => ?_⟩
  · rw [ssiLevel, decide_eq_true hd, Bool.true_or]
  · have happ : s.applied = true := by simp only [State.applied, hphase, hfail, decide_true, Bool.not_false, Bool.and_self]
    unfold State.fbClkBall
    simp only [hunder, happ, hm, hshare, hidle, decide_eq_true hend, Bool.not_true, Bool.false_eq_true, false_and, ne_eq, not_true_eq_false,
      or_self, if_false, Bool.or_true]

/-- Settles O28. -/
theorem ssiFrames : Obligations.SsiFrames := ⟨ssiFrameSteps, ssiClock⟩

end Sys2Proof.Machine
end

section
/-!
PROOFS. Chapter 11: the compare units of a port.
-/
namespace Sys2Proof.Machine

section Units
variable {s u x : State} {p : Fin 8} {k : Fin 4} {f : Fld} {v : Word} {m : Master} {stamp : Tick}

/-! ## A unit fires -/

/-- The units' words are five. -/
theorem cmpWords (p : Fin 8) (k : Fin 4) : A.FBK_CMPCFG p k + 4 = A.FBK_CMPTGT p k ∧ A.FBK_CMPCFG p k + 8 = A.FBK_CMPINC p k
    ∧ A.FBK_CMPCFG p k + 12 = A.FBK_CMPSTAT p k ∧ A.FBK_CMPCFG p k < A.FBK_CMPSTAMP p k - 12 ∧ 0x90000 ≤ A.FBK_CMPCFG p k
    ∧ A.FBK_CMPSTAMP p k < 0x98000 := by
  simp only [A.FBK_CMPCFG, A.FBK_CMPTGT, A.FBK_CMPINC, A.FBK_CMPSTAT, A.FBK_CMPSTAMP]
  omega

/-- What a firing shows. -/
structure UnitShown (p : Fin 8) (k : Fin 4) (stamp : Tick) (s u : State) : Prop where
  fired : u.get (F.FBK_CMPSTAT_FIRED p k) = 1
  count : u.get (F.FBK_CMPSTAT_FIRECNT p k) = (s.get (F.FBK_CMPSTAT_FIRECNT p k) + 1) % 2 ^ 16
  stamped : u.rd (A.FBK_CMPSTAMP p k) = BitVec.ofNat 32 (s.stampOf (256 * stamp))

/-- FIRED and FIRECNT. -/
def State.unitCount (s : State) (p : Fin 8) (k : Fin 4) : State := (s.raise (F.FBK_CMPSTAT_FIRED p k)).bump (F.FBK_CMPSTAT_FIRECNT p k)

theorem State.unitCount_counts : (s.unitCount p k).get (F.FBK_CMPSTAT_FIRED p k) = 1
    ∧ (s.unitCount p k).get (F.FBK_CMPSTAT_FIRECNT p k) = (s.get (F.FBK_CMPSTAT_FIRECNT p k) + 1) % 2 ^ 16
    ∧ RegsBut [A.FBK_CMPSTAT p k] s (s.unitCount p k) ∧ (s.unitCount p k).tim = s.tim ∧ (s.unitCount p k).now = s.now := by
  have h1 : (s.raise (F.FBK_CMPSTAT_FIRED p k)).get (F.FBK_CMPSTAT_FIRED p k) = 1 := State.get_raise_same _ (Nat.le_of_ble_eq_true rfl) rfl
  have c1 : (s.raise (F.FBK_CMPSTAT_FIRED p k)).get (F.FBK_CMPSTAT_FIRECNT p k) = s.get (F.FBK_CMPSTAT_FIRECNT p k) :=
    (State.raise_get ..).trans (State.get_put_bits (f := F.FBK_CMPSTAT_FIRED p k) (g := F.FBK_CMPSTAT_FIRECNT p k) _ _ (Nat.le_of_ble_eq_true rfl)
      (Or.inl (Nat.le_of_ble_eq_true rfl)))
  have r1 : RegsBut [A.FBK_CMPSTAT p k] s (s.raise (F.FBK_CMPSTAT_FIRED p k)) :=
    (regsBut_raise (f := F.FBK_CMPSTAT_FIRED p k) List.mem_cons_self).mpr RegsBut.refl
  have t1 : (s.raise (F.FBK_CMPSTAT_FIRED p k)).tim = s.tim := State.raise_tim ..
  have n1 : (s.raise (F.FBK_CMPSTAT_FIRED p k)).now = s.now := State.raise_now ..
  unfold State.unitCount
  generalize s.raise (F.FBK_CMPSTAT_FIRED p k) = x at *
  rw [State.bump_eq, ← c1]
  generalize x.get (F.FBK_CMPSTAT_FIRECNT p k) + 1 = n
  refine ⟨?_, State.get_put_same _ _ (f := F.FBK_CMPSTAT_FIRECNT p k) (Nat.le_of_ble_eq_true rfl),
    (regsBut_put (f := F.FBK_CMPSTAT_FIRECNT p k) List.mem_cons_self).mpr r1, (State.put_tim ..).trans t1, (State.put_now ..).trans n1⟩
  exact (State.get_put_bits (f := F.FBK_CMPSTAT_FIRECNT p k) (g := F.FBK_CMPSTAT_FIRED p k) _ _ (Nat.le_of_ble_eq_true rfl)
    (Or.inr (Nat.le_of_ble_eq_true rfl))).trans h1

/-- And the stamp. -/
def State.unitStamp (s : State) (p : Fin 8) (k : Fin 4) (stamp : Tick) : State :=
  (s.unitCount p k).wr (A.FBK_CMPSTAMP p k) (BitVec.ofNat 32 ((s.unitCount p k).stampOf (256 * stamp)))

theorem State.stampOf_congr (ht : u.tim = s.tim) (hn : u.now = s.now) (n : Nat) : u.stampOf n = s.stampOf n := by
  unfold State.stampOf State.nowF
  rw [ht, hn]

theorem State.unitStamp_stamps (stamp : Tick) : UnitShown p k stamp s (s.unitStamp p k stamp)
    ∧ RegsBut [A.FBK_CMPSTAT p k, A.FBK_CMPSTAMP p k] s (s.unitStamp p k stamp) := by
  have hw := cmpWords p k
  unfold State.unitStamp
  obtain ⟨h1, h2, h3, ht, hn⟩ := State.unitCount_counts (s := s) (p := p) (k := k)
  generalize s.unitCount p k = y at *
  rw [State.stampOf_congr ht hn]
  generalize hn' : BitVec.ofNat 32 (s.stampOf (256 * stamp)) = w
  have hkeep {g : Fld} (hg : g.addr = A.FBK_CMPSTAT p k) : (y.wr (A.FBK_CMPSTAMP p k) w).get g = y.get g := by
    unfold State.get
    rw [State.rd_wr_ne _ _ (by rw [hg]; omega)]
  exact ⟨⟨(hkeep rfl).trans h1, (hkeep rfl).trans h2, by rw [State.rd_wr_same, hn']⟩, (h3.mono (by simp)).wr _ (by simp)⟩

/-- The event and the pulse of a firing. -/
def State.unitTell (s : State) (p : Fin 8) (k : Fin 4) : State :=
  let s := if s.bit (F.FBK_CMPCFG_EVT p k) then s.notify else s
  let out := s.get (F.FBK_CMPCFG_OUT p k)
  if out = 0 then s
  else s.modPort p (fun x => { x with
    pulses := x.pulses.set k (some (out, s.now + 1, s.now + max 1 (s.get (F.FBK_CMPCFG_WIDTH p k)))) })

theorem State.unitTell_regs : RegsBut [A.EVT_TAGHWM, A.EVT_BPCNT] s (s.unitTell p k) := by
  unfold State.unitTell
  dsimp only
  have h : RegsBut [A.EVT_TAGHWM, A.EVT_BPCNT] s (if s.bit (F.FBK_CMPCFG_EVT p k) = true then s.notify else s) := by
    split
    · exact State.notify_regsBut
    · exact RegsBut.refl
  generalize (if s.bit (F.FBK_CMPCFG_EVT p k) = true then s.notify else s) = y at *
  split
  · exact h
  · exact h.of_regs rfl

/-- The next target of a unit, or its end. -/
def State.unitRearm (s : State) (p : Fin 8) (k : Fin 4) : State :=
  if s.bit (F.FBK_CMPCFG_RELOAD p k) then s.wr (A.FBK_CMPTGT p k) (s.rd (A.FBK_CMPTGT p k) + s.rd (A.FBK_CMPINC p k))
  else s.putB (F.FBK_CMPCFG_EN p k) false

/-- What follows from RELOAD. -/
structure UnitRearmed (p : Fin 8) (k : Fin 4) (s u : State) : Prop where
  tgt : u.rd (A.FBK_CMPTGT p k) = if s.bit (F.FBK_CMPCFG_RELOAD p k) then s.rd (A.FBK_CMPTGT p k) + s.rd (A.FBK_CMPINC p k) else s.rd (A.FBK_CMPTGT p k)
  en : u.get (F.FBK_CMPCFG_EN p k) = if s.bit (F.FBK_CMPCFG_RELOAD p k) then s.get (F.FBK_CMPCFG_EN p k) else 0
  cfg : ∀ lo w, lo + w ≤ 31 → u.get ⟨A.FBK_CMPCFG p k, lo, w⟩ = s.get ⟨A.FBK_CMPCFG p k, lo, w⟩

theorem State.unitRearm_rearms : UnitRearmed p k s (s.unitRearm p k) ∧ RegsBut [A.FBK_CMPCFG p k, A.FBK_CMPTGT p k] s (s.unitRearm p k) := by
  have hw := cmpWords p k
  unfold State.unitRearm
  split
  case isTrue h =>
    generalize hn : s.rd (A.FBK_CMPTGT p k) + s.rd (A.FBK_CMPINC p k) = w
    have hkeep {g : Fld} (hg : g.addr = A.FBK_CMPCFG p k) : (s.wr (A.FBK_CMPTGT p k) w).get g = s.get g := by
      unfold State.get
      rw [State.rd_wr_ne _ _ (by rw [hg]; omega)]
    exact ⟨⟨by rw [h, if_pos rfl, State.rd_wr_same, hn], by rw [h, if_pos rfl]; exact hkeep rfl, fun lo w _ => hkeep rfl⟩, RegsBut.refl.wr _ (by simp)⟩
  case isFalse h =>
    rw [Bool.not_eq_true] at h
    rw [State.putB_eq]
    refine ⟨⟨?_, ?_, fun lo w hlo => ?_⟩, (regsBut_put (f := F.FBK_CMPCFG_EN p k) List.mem_cons_self).mpr RegsBut.refl⟩
    · rw [h, if_neg Bool.false_ne_true]
      exact State.rd_put_ne (f := F.FBK_CMPCFG_EN p k) _ _ (by show A.FBK_CMPTGT p k ≠ A.FBK_CMPCFG p k; omega)
    · rw [h, if_neg Bool.false_ne_true]
      exact State.get_put_same _ _ (f := F.FBK_CMPCFG_EN p k) (Nat.le_of_ble_eq_true rfl)
    · exact State.get_put_bits (f := F.FBK_CMPCFG_EN p k) (g := ⟨A.FBK_CMPCFG p k, lo, w⟩) _ _ (Nat.le_of_ble_eq_true rfl) (Or.inl hlo)

theorem State.unitFireBase_eq (stamp : Tick) : s.unitFireBase p k stamp = ((s.unitStamp p k stamp).unitTell p k).unitRearm p k := rfl

/-- A unit that fires. -/
structure UnitFired (p : Fin 8) (k : Fin 4) (stamp : Tick) (s u : State) : Prop where
  shown : UnitShown p k stamp s u
  armed : UnitRearmed p k s u

/-- A word of a unit is none of the log's. -/
theorem unit_evt {b : Nat} (h : b < 0x98000) : b ∉ [A.EVT_TAGHWM, A.EVT_BPCNT] := fun hm =>
  have hlow : ∀ b ∈ [A.EVT_TAGHWM, A.EVT_BPCNT], 0x98000 ≤ b := by decide
  Nat.not_lt_of_le (hlow b hm) h

theorem State.unitFireBase_fires (stamp : Tick) : UnitFired p k stamp s (s.unitFireBase p k stamp) := by
  obtain ⟨h1, h2, h3, h4, h5, h6⟩ := cmpWords p k
  rw [State.unitFireBase_eq]
  obtain ⟨hshown, r1⟩ := State.unitStamp_stamps (s := s) (p := p) (k := k) stamp
  generalize s.unitStamp p k stamp = x at *
  have r2 := State.unitTell_regs (s := x) (p := p) (k := k)
  generalize x.unitTell p k = y at *
  obtain ⟨harm, r3⟩ := State.unitRearm_rearms (s := y) (p := p) (k := k)
  generalize y.unitRearm p k = u at *
  have hlate {b : Nat} (hb : b = A.FBK_CMPSTAT p k ∨ b = A.FBK_CMPSTAMP p k) : u.rd b = x.rd b := by
    rw [r3 b (by simp only [List.mem_cons, List.not_mem_nil, or_false]; omega), r2 b (unit_evt (by omega))]
  have hearly {b : Nat} (hb : A.FBK_CMPCFG p k ≤ b) (hb' : b < A.FBK_CMPCFG p k + 12) : y.rd b = s.rd b := by
    rw [r2 b (unit_evt (by omega)), r1 b (by simp only [List.mem_cons, List.not_mem_nil, or_false]; omega)]
  have hcfg {g : Fld} (hg : g.addr = A.FBK_CMPCFG p k) : y.get g = s.get g := by
    unfold State.get
    rw [hearly (by omega) (by omega)]
  have hstat {g : Fld} (hg : g.addr = A.FBK_CMPSTAT p k) : u.get g = x.get g := by
    unfold State.get
    rw [hlate (Or.inl hg)]
  refine ⟨⟨(hstat rfl).trans hshown.fired, (hstat rfl).trans hshown.count, (hlate (Or.inr rfl)).trans hshown.stamped⟩, ⟨?_, ?_, fun lo w h => ?_⟩⟩
  · rw [harm.tgt, State.bit_congr (hcfg (g := F.FBK_CMPCFG_RELOAD p k) rfl), hearly (b := A.FBK_CMPTGT p k) (by omega) (by omega),
      hearly (b := A.FBK_CMPINC p k) (by omega) (by omega)]
  · rw [harm.en, State.bit_congr (hcfg (g := F.FBK_CMPCFG_RELOAD p k) rfl), hcfg (g := F.FBK_CMPCFG_EN p k) rfl]
  · rw [harm.cfg lo w h, hcfg (g := ⟨A.FBK_CMPCFG p k, lo, w⟩) rfl]

/-- BEHIND as it shows. -/
theorem State.behindShown (b : Bool) : (s.raiseIf (F.FBK_CMPSTAT_BEHIND p k) b).bit (F.FBK_CMPSTAT_BEHIND p k) = b
    ∧ (∀ lo w, lo + w ≤ 30 ∨ 31 ≤ lo → (s.raiseIf (F.FBK_CMPSTAT_BEHIND p k) b).get ⟨A.FBK_CMPSTAT p k, lo, w⟩ = s.get ⟨A.FBK_CMPSTAT p k, lo, w⟩)
    ∧ RegsBut [A.FBK_CMPSTAT p k] s (s.raiseIf (F.FBK_CMPSTAT_BEHIND p k) b) ∧ (s.raiseIf (F.FBK_CMPSTAT_BEHIND p k) b).tim = s.tim
    ∧ (s.raiseIf (F.FBK_CMPSTAT_BEHIND p k) b).now = s.now := by
  have hput (n lo w : Nat) (h : lo + w ≤ 30 ∨ 31 ≤ lo) : (s.put (F.FBK_CMPSTAT_BEHIND p k) n).get ⟨A.FBK_CMPSTAT p k, lo, w⟩ = s.get ⟨A.FBK_CMPSTAT p k, lo, w⟩ :=
    State.get_put_bits (f := F.FBK_CMPSTAT_BEHIND p k) (g := ⟨A.FBK_CMPSTAT p k, lo, w⟩) _ _ (Nat.le_of_ble_eq_true rfl) h
  unfold State.raiseIf
  cases b with
  | true =>
    rw [if_pos rfl]
    exact ⟨(State.bit_iff _).mpr (by rw [State.get_raise_same _ (Nat.le_of_ble_eq_true rfl) rfl]; decide), fun lo w h => (State.raise_get ..).trans (hput 1 lo w h),
      (regsBut_raise (f := F.FBK_CMPSTAT_BEHIND p k) List.mem_cons_self).mpr RegsBut.refl, State.raise_tim .., State.raise_now ..⟩
  | false =>
    rw [if_neg Bool.false_ne_true, State.putB_eq]
    refine ⟨?_, hput _, (regsBut_put (f := F.FBK_CMPSTAT_BEHIND p k) List.mem_cons_self).mpr RegsBut.refl, State.put_tim .., State.put_now ..⟩
    rw [State.bit, State.get_put_same _ _ (f := F.FBK_CMPSTAT_BEHIND p k) (Nat.le_of_ble_eq_true rfl)]
    rfl

theorem State.unitFire_fires (stamp : Tick) : UnitFired p k stamp s (s.unitFire p k stamp) := by
  have h := State.unitFireBase_fires (s := s) (p := p) (k := k) stamp
  obtain ⟨h1, h2, h3, h4, h5, h6⟩ := cmpWords p k
  unfold State.unitFire
  dsimp only
  generalize s.unitFireBase p k stamp = y at *
  split
  case isFalse => exact h
  case isTrue =>
    obtain ⟨-, hbits, hregs, -⟩ := State.behindShown (s := y) (p := p) (k := k) (y.unitBehind p k)
    unfold State.unitMark
    generalize y.raiseIf (F.FBK_CMPSTAT_BEHIND p k) (y.unitBehind p k) = u at *
    have hrd {b : Nat} (hb : b ≠ A.FBK_CMPSTAT p k) : u.rd b = y.rd b := hregs b (by simp [hb])
    have hget {g : Fld} (hb : g.addr ≠ A.FBK_CMPSTAT p k) : u.get g = y.get g := by unfold State.get; rw [hrd hb]
    refine ⟨⟨(hbits 31 1 (by decide)).trans h.shown.fired, (hbits 0 16 (by decide)).trans h.shown.count, (hrd (by omega)).trans h.shown.stamped⟩,
      ⟨(hrd (by omega)).trans h.armed.tgt, (hget (by show A.FBK_CMPCFG p k ≠ _; omega)).trans h.armed.en,
        fun lo w hlo => (hget (by show A.FBK_CMPCFG p k ≠ _; omega)).trans (h.armed.cfg lo w hlo)⟩⟩

/-! ## A unit evaluated -/

theorem State.unitEval_armed (hen : s.bit (F.FBK_CMPCFG_EN p k) = true) : s.unitEval p k
    = if (s.unitBehind p k && (s.raiseIf (F.FBK_CMPSTAT_BEHIND p k) (s.unitBehind p k)).bit (F.FBK_CMPCFG_POLICY p k)) = true
      then (s.raiseIf (F.FBK_CMPSTAT_BEHIND p k) (s.unitBehind p k)).unitFire p k (s.raiseIf (F.FBK_CMPSTAT_BEHIND p k) (s.unitBehind p k)).now
      else s.raiseIf (F.FBK_CMPSTAT_BEHIND p k) (s.unitBehind p k) := by
  unfold State.unitEval
  rw [hen]
  rfl

/-- An armed unit that does not fire shows whether it is behind. -/
structure UnitWaits (p : Fin 8) (k : Fin 4) (behind : Bool) (s u : State) : Prop where
  behind : u.bit (F.FBK_CMPSTAT_BEHIND p k) = behind
  count : u.get (F.FBK_CMPSTAT_FIRECNT p k) = s.get (F.FBK_CMPSTAT_FIRECNT p k)
  regs : RegsBut [A.FBK_CMPSTAT p k] s u

theorem UnitFired.of_behind {y : State} (hregs : RegsBut [A.FBK_CMPSTAT p k] s y) (ht : y.tim = s.tim) (hn : y.now = s.now)
    (hcount : y.get (F.FBK_CMPSTAT_FIRECNT p k) = s.get (F.FBK_CMPSTAT_FIRECNT p k)) (h : UnitFired p k stamp y u) : UnitFired p k stamp s u := by
  obtain ⟨h1, h2, h3, h4, h5, h6⟩ := cmpWords p k
  have hrd {b : Nat} (hb : b ≠ A.FBK_CMPSTAT p k) : y.rd b = s.rd b := hregs b (by simp [hb])
  have hcfg {g : Fld} (hg : g.addr = A.FBK_CMPCFG p k) : y.get g = s.get g := by unfold State.get; rw [hrd (by omega)]
  refine ⟨⟨h.shown.fired, by rw [h.shown.count, hcount], by rw [h.shown.stamped, State.stampOf_congr ht hn]⟩,
    ⟨?_, ?_, fun lo w hlo => (h.armed.cfg lo w hlo).trans (hcfg rfl)⟩⟩
  · rw [h.armed.tgt, State.bit_congr (hcfg (g := F.FBK_CMPCFG_RELOAD p k) rfl), hrd (b := A.FBK_CMPTGT p k) (by omega), hrd (b := A.FBK_CMPINC p k) (by omega)]
  · rw [h.armed.en, State.bit_congr (hcfg (g := F.FBK_CMPCFG_RELOAD p k) rfl), hcfg (g := F.FBK_CMPCFG_EN p k) rfl]

theorem State.unitEval_cases (hen : s.bit (F.FBK_CMPCFG_EN p k) = true) :
    ((s.unitBehind p k && s.bit (F.FBK_CMPCFG_POLICY p k)) = false → UnitWaits p k (s.unitBehind p k) s (s.unitEval p k))
    ∧ ((s.unitBehind p k && s.bit (F.FBK_CMPCFG_POLICY p k)) = true → UnitFired p k s.now s (s.unitEval p k)) := by
  obtain ⟨h1, h2, h3, h4, h5, h6⟩ := cmpWords p k
  rw [State.unitEval_armed hen]
  obtain ⟨hshown, hbits, hregs, ht, hn⟩ := State.behindShown (s := s) (p := p) (k := k) (s.unitBehind p k)
  generalize s.raiseIf (F.FBK_CMPSTAT_BEHIND p k) (s.unitBehind p k) = y at *
  have hpol : y.bit (F.FBK_CMPCFG_POLICY p k) = s.bit (F.FBK_CMPCFG_POLICY p k) :=
    State.bit_congr (by unfold State.get; rw [hregs _ (by simp only [List.mem_cons, List.not_mem_nil, or_false]; show A.FBK_CMPCFG p k ≠ _; omega)])
  have hcount := hbits 0 16 (by decide)
  rw [hpol]
  refine ⟨fun h => ?_, fun h => ?_⟩
  · rw [h, if_neg Bool.false_ne_true]
    exact ⟨hshown, hcount, hregs⟩
  · rw [h, if_pos rfl, hn]
    exact (State.unitFire_fires (s := y) s.now).of_behind hregs ht hn hcount

/-! ## Writes to a unit -/

theorem fbkCmptgt_mapped : ∀ (p : Fin 8) (k : Fin 4), (regAt (A.FBK_CMPTGT p k)).map (fun e => (e.1.base, e.2)) = some (A.FBK_CMPTGT 0 0, [p.val, k.val]) := by
  decide +kernel

theorem fbkCmpcfg_mapped : ∀ (p : Fin 8) (k : Fin 4), (regAt (A.FBK_CMPCFG p k)).map (fun e => (e.1.base, e.2)) = some (A.FBK_CMPCFG 0 0, [p.val, k.val]) := by
  decide +kernel

theorem State.masterWrite_cmptgt (h : s.takes m (A.FBK_CMPTGT p k) = true) :
    s.masterWrite m (A.FBK_CMPTGT p k) v = s.tagged.cmpTgtWrite p k v := by
  refine State.masterWrite_act h (fbkCmptgt_mapped p k) ?_ (by decide) fun r hr => ?_
  · unfold outsideWindows A.FBK_CMPTGT; omega
  · unfold State.actWrite
    simp +decide only [hr, if_true, if_false, List.headD, List.getD_cons_succ, List.getD_cons_zero]
    rw [finOf_val p rfl, finOf_val k rfl]

theorem State.masterWrite_cmpcfg (h : s.takes m (A.FBK_CMPCFG p k) = true) :
    s.masterWrite m (A.FBK_CMPCFG p k) v = s.tagged.cmpCfgWrite p k v := by
  refine State.masterWrite_act h (fbkCmpcfg_mapped p k) ?_ (by decide) fun r hr => ?_
  · unfold outsideWindows A.FBK_CMPCFG; omega
  · unfold State.actWrite
    simp +decide only [hr, if_true, if_false, List.headD, List.getD_cons_succ, List.getD_cons_zero]
    rw [finOf_val p rfl, finOf_val k rfl]

end Units

end Sys2Proof.Machine
end

section
/-!
PROOFS. Chapter 11: position compares written and ended, and the request of a port.
-/
namespace Sys2Proof.Machine

section Compares
variable {s u x : State} {p : Fin 8} {k : Fin 4} {f : Fld} {v : Word} {m : Master} {stamp : Tick}

/-- What a unit is read from, with its tag taken. -/
structure UnitTagged (p : Fin 8) (k : Fin 4) (l : List Nat) (s u : State) : Prop where
  rd : ∀ b, b < 0x120000 → b ∉ l → u.rd b = s.rd b
  tim : u.tim = s.tim
  now : u.now = s.now

theorem UnitTagged.get {l : List Nat} (h : UnitTagged p k l s u) (hf : f.addr < 0x120000) (hl : f.addr ∉ l) : u.get f = s.get f := by
  unfold State.get
  rw [h.rd _ hf hl]

theorem UnitTagged.bit {l : List Nat} (h : UnitTagged p k l s u) (hf : f.addr < 0x120000) (hl : f.addr ∉ l) : u.bit f = s.bit f :=
  State.bit_congr (h.get hf hl)

theorem State.tagged_unit : UnitTagged p k [] s s.tagged :=
  ⟨fun b hb _ => by rw [State.rd_eq_get, State.tagged_sameSources.get _ hb, ← State.rd_eq_get], State.tagged_tim _, State.tagged_sameSources.now⟩

theorem UnitTagged.wr {l : List Nat} {b : Nat} (h : UnitTagged p k [] s u) (w : Word) (hb : b ∈ l) : UnitTagged p k l s (u.wr b w) :=
  ⟨fun c hc hl => by rw [State.rd_wr_ne _ _ (fun e => hl (by rw [e]; exact hb)), h.rd c hc List.not_mem_nil], h.tim, h.now⟩

theorem UnitTagged.behind (h : UnitTagged p k [A.FBK_CMPCFG p k] s u) : u.unitBehind p k = s.unitBehind p k := by
  have hpage (b : Nat) (hb : b < 0x98000) (hc : b ≠ A.FBK_CMPCFG p k) : u.rd b = s.rd b := h.rd b (by omega) (by simp [hc])
  have hstat {g : Fld} (hg : g.addr = A.FBK_STAT p) : u.bit g = s.bit g :=
    h.bit (by rw [hg]; simp only [A.FBK_STAT]; omega) (by rw [hg]; simp only [A.FBK_STAT, A.FBK_CMPCFG, List.mem_cons, List.not_mem_nil, or_false]; omega)
  unfold State.unitBehind
  rw [hstat (g := F.FBK_STAT_ZERO p) rfl, hstat (g := F.FBK_STAT_SPDVALID p) rfl, hstat (g := F.FBK_STAT_DIR p) rfl,
    hpage (A.FBK_CMPTGT p k) (by simp only [A.FBK_CMPTGT]; omega) (by simp only [A.FBK_CMPTGT, A.FBK_CMPCFG]; omega),
    hpage (A.FBK_POS0 p) (by simp only [A.FBK_POS0]; omega) (by simp only [A.FBK_POS0, A.FBK_CMPCFG]; omega)]

/-! ## A target written -/

/-- A target, as its write leaves it before the unit is evaluated. -/
theorem State.targetWritten (v : Word) : UnitTagged p k [A.FBK_CMPTGT p k] s (s.tagged.wr (A.FBK_CMPTGT p k) v)
    ∧ (s.tagged.wr (A.FBK_CMPTGT p k) v).rd (A.FBK_CMPTGT p k) = v
    ∧ (s.tagged.wr (A.FBK_CMPTGT p k) v).unitBehind p k = (s.wr (A.FBK_CMPTGT p k) v).unitBehind p k := by
  refine ⟨State.tagged_unit.wr v List.mem_cons_self, State.rd_wr_same .., ?_⟩
  have hrd (b : Nat) (hb : b < 0x98000) : (s.tagged.wr (A.FBK_CMPTGT p k) v).rd b = (s.wr (A.FBK_CMPTGT p k) v).rd b := by
    by_cases e : b = A.FBK_CMPTGT p k
    · rw [e, State.rd_wr_same, State.rd_wr_same]
    · rw [State.rd_wr_ne _ _ e, State.rd_wr_ne _ _ e, (State.tagged_unit (p := p) (k := k)).rd b (by omega) List.not_mem_nil]
  have hbit {g : Fld} (hg : g.addr = A.FBK_STAT p) : (s.tagged.wr (A.FBK_CMPTGT p k) v).bit g = (s.wr (A.FBK_CMPTGT p k) v).bit g :=
    State.bit_congr (by unfold State.get; rw [hrd _ (by rw [hg]; simp only [A.FBK_STAT]; omega)])
  unfold State.unitBehind
  rw [hbit (g := F.FBK_STAT_ZERO p) rfl, hbit (g := F.FBK_STAT_SPDVALID p) rfl, hbit (g := F.FBK_STAT_DIR p) rfl,
    hrd (A.FBK_CMPTGT p k) (by simp only [A.FBK_CMPTGT]; omega), hrd (A.FBK_POS0 p) (by simp only [A.FBK_POS0]; omega)]

theorem State.cmpTgt_off (hen : s.bit (F.FBK_CMPCFG_EN p k) = false) : (s.tagged.cmpTgtWrite p k v).rd (A.FBK_CMPTGT p k) = v
    ∧ RegsBut [A.FBK_CMPTGT p k, A.EVT_TAGHWM] s (s.tagged.cmpTgtWrite p k v)
    ∧ s.tagged.cmpTgtWrite p k v = { s with regs := (s.tagged.cmpTgtWrite p k v).regs, same := (s.tagged.cmpTgtWrite p k v).same, tagsUse := s.tagsUse + 1 } := by
  have hw := cmpWords p k
  obtain ⟨htag, htgt, -⟩ := State.targetWritten (s := s) (p := p) (k := k) v
  have hoff : s.tagged.cmpTgtWrite p k v = s.tagged.wr (A.FBK_CMPTGT p k) v := by
    unfold State.cmpTgtWrite State.unitEval
    rw [htag.bit (f := F.FBK_CMPCFG_EN p k) (by show A.FBK_CMPCFG p k < _; omega)
      (by simp only [List.mem_cons, List.not_mem_nil, or_false]; show A.FBK_CMPCFG p k ≠ _; omega), hen]
    rfl
  rw [hoff]
  refine ⟨htgt, RegsBut.wr ((regsBut_tagged (by simp)).mpr RegsBut.refl) v (by simp), ?_⟩
  obtain ⟨_, _, h⟩ := s.tagSet_frame (s.tagsUse + 1)
  rw [State.tagged, h]
  rfl

theorem State.cmpTgt_on (hen : s.bit (F.FBK_CMPCFG_EN p k) = true) :
    (((s.wr (A.FBK_CMPTGT p k) v).unitBehind p k && s.bit (F.FBK_CMPCFG_POLICY p k)) = false →
      (s.tagged.cmpTgtWrite p k v).rd (A.FBK_CMPTGT p k) = v
      ∧ (s.tagged.cmpTgtWrite p k v).bit (F.FBK_CMPSTAT_BEHIND p k) = (s.wr (A.FBK_CMPTGT p k) v).unitBehind p k
      ∧ (s.tagged.cmpTgtWrite p k v).get (F.FBK_CMPSTAT_FIRECNT p k) = s.get (F.FBK_CMPSTAT_FIRECNT p k))
    ∧ (((s.wr (A.FBK_CMPTGT p k) v).unitBehind p k && s.bit (F.FBK_CMPCFG_POLICY p k)) = true →
      UnitShown p k s.now s (s.tagged.cmpTgtWrite p k v) ∧ (s.tagged.cmpTgtWrite p k v).rd (A.FBK_CMPTGT p k)
        = if s.bit (F.FBK_CMPCFG_RELOAD p k) then v + s.rd (A.FBK_CMPINC p k) else v) := by
  obtain ⟨h1, h2, h3, h4, h5, h6⟩ := cmpWords p k
  obtain ⟨htag, htgt, hbehind⟩ := State.targetWritten (s := s) (p := p) (k := k) v
  unfold State.cmpTgtWrite
  rw [← hbehind]
  generalize s.tagged.wr (A.FBK_CMPTGT p k) v = x at *
  have hrd {b : Nat} (hb : b ≠ A.FBK_CMPTGT p k) (hlt : b < 0x98000) : x.rd b = s.rd b :=
    htag.rd b (by omega) (by simp [hb])
  have hcfg {g : Fld} (hg : g.addr = A.FBK_CMPCFG p k) : x.bit g = s.bit g :=
    State.bit_congr (by unfold State.get; rw [hrd (by omega) (by omega)])
  have hcount : x.get (F.FBK_CMPSTAT_FIRECNT p k) = s.get (F.FBK_CMPSTAT_FIRECNT p k) := by
    unfold State.get
    simp only [F.FBK_CMPSTAT_FIRECNT, hrd (b := A.FBK_CMPSTAT p k) (by omega) (by omega)]
  obtain ⟨hwait, hfire⟩ := State.unitEval_cases (s := x) ((hcfg (g := F.FBK_CMPCFG_EN p k) rfl).trans hen)
  rw [hcfg (g := F.FBK_CMPCFG_POLICY p k) rfl] at hwait hfire
  refine ⟨fun h => ?_, fun h => ?_⟩
  · have hw := hwait h
    exact ⟨(hw.regs _ (by simp only [List.mem_cons, List.not_mem_nil, or_false]; omega)).trans htgt, hw.behind, hw.count.trans hcount⟩
  · obtain ⟨⟨hf1, hf2, hf3⟩, harm⟩ := hfire h
    refine ⟨⟨hf1, by rw [hf2, hcount], by rw [hf3, htag.now, State.stampOf_congr htag.tim htag.now]⟩, ?_⟩
    rw [harm.tgt, hcfg (g := F.FBK_CMPCFG_RELOAD p k) rfl, htgt, hrd (b := A.FBK_CMPINC p k) (by omega) (by omega)]

/-! ## A unit armed -/

/-- The word of a unit that is armed. -/
def armWord (p k : Nat) (v : Word) : Word := (v ||| bitOf (F.FBK_CMPCFG_EN p k)) &&& 0xFC00FF00

/-- The bits of the mask that a word of a unit holds. -/
theorem armWord_bit (p k : Nat) (v : Word) {i : Nat} (hi : (0xFC00FF00#32).getLsbD i = true) :
    (armWord p k v).getLsbD i = (v.getLsbD i || (0x80000000#32).getLsbD i) := by
  have hword : armWord p k v = (v ||| 0x80000000#32) &&& 0xFC00FF00#32 := rfl
  rw [hword, BitVec.getLsbD_and, hi, Bool.and_true, BitVec.getLsbD_or]

theorem armWord_get (p k : Nat) (v : Word) : bitsGet (armWord p k v) 31 1 = 1 ∧ bitsGet (armWord p k v) 30 1 = bitsGet v 30 1
    ∧ bitsGet (armWord p k v) 29 1 = bitsGet v 29 1 ∧ bitsGet (armWord p k v) 8 8 = bitsGet v 8 8 := by
  have hmask : ∀ i < 8, (0xFC00FF00#32).getLsbD (8 + i) = true ∧ (0x80000000#32).getLsbD (8 + i) = false := by decide
  have hsame {lo n : Nat} (h : ∀ i < n, (0xFC00FF00#32).getLsbD (lo + i) = true ∧ (0x80000000#32).getLsbD (lo + i) = false) :
      bitsGet (armWord p k v) lo n = bitsGet v lo n := by
    refine Nat.eq_of_testBit_eq fun i => ?_
    rw [bitsGet_testBit, bitsGet_testBit, BitVec.testBit_toNat, BitVec.testBit_toNat]
    by_cases hi : i < n
    · rw [armWord_bit p k v (h i hi).1, (h i hi).2, Bool.or_false]
    · rw [decide_eq_false hi, Bool.false_and, Bool.false_and]
  refine ⟨?_, hsame (by decide), hsame (by decide), hsame hmask⟩
  have hen : (bitsGet (armWord p k v) 31 1).testBit 0 = true := by
    rw [bitsGet_testBit, BitVec.testBit_toNat, armWord_bit p k v (by decide)]
    exact (Bool.true_and _).trans (Bool.or_true _)
  have hlt : bitsGet (armWord p k v) 31 1 < 2 := Nat.mod_lt _ (by decide)
  rw [Nat.testBit_zero, decide_eq_true_eq] at hen
  omega

/-- An armed unit before it is evaluated. -/
def State.unitArm (s : State) (p : Fin 8) (k : Fin 4) (v : Word) : State :=
  let s := s.wr (A.FBK_CMPCFG p k) (armWord p k v)
  if s.get (F.FBK_CMPCFG_WIDTH p k) = 0 then s.put (F.FBK_CMPCFG_WIDTH p k) 1 else s

/-- The unit's configuration, as armed. -/
structure UnitArmed (p : Fin 8) (k : Fin 4) (v : Word) (s u : State) : Prop where
  en : u.get (F.FBK_CMPCFG_EN p k) = 1
  policy : u.get (F.FBK_CMPCFG_POLICY p k) = bitsGet v 30 1
  reload : u.get (F.FBK_CMPCFG_RELOAD p k) = bitsGet v 29 1
  width : u.get (F.FBK_CMPCFG_WIDTH p k) = max 1 (bitsGet v 8 8)
  regs : RegsBut [A.FBK_CMPCFG p k] s u
  tim : u.tim = s.tim
  now : u.now = s.now

theorem State.unitArm_arms : UnitArmed p k v s (s.unitArm p k v) := by
  obtain ⟨h31, h30, h29, h8⟩ := armWord_get p k v
  unfold State.unitArm
  have hword : (s.wr (A.FBK_CMPCFG p k) (armWord p k v)).rd (A.FBK_CMPCFG p k) = armWord p k v := State.rd_wr_same ..
  have hregs : RegsBut [A.FBK_CMPCFG p k] s (s.wr (A.FBK_CMPCFG p k) (armWord p k v)) := RegsBut.refl.wr _ List.mem_cons_self
  have hnow : (s.wr (A.FBK_CMPCFG p k) (armWord p k v)).now = s.now := rfl
  have htim : (s.wr (A.FBK_CMPCFG p k) (armWord p k v)).tim = s.tim := rfl
  generalize armWord p k v = w at *
  dsimp only
  generalize s.wr (A.FBK_CMPCFG p k) w = x at *
  have hget (lo n : Nat) : x.get ⟨A.FBK_CMPCFG p k, lo, n⟩ = bitsGet w lo n := by unfold State.get; rw [hword]
  have hwid := (hget 8 8).trans h8
  split
  case isFalse h =>
    refine ⟨(hget 31 1).trans h31, (hget 30 1).trans h30, (hget 29 1).trans h29, hwid.trans ?_, hregs, htim, hnow⟩
    have hne : bitsGet v 8 8 ≠ 0 := hwid ▸ h
    omega
  case isTrue h =>
    have hput (lo n : Nat) (hlo : 16 ≤ lo) : (x.put (F.FBK_CMPCFG_WIDTH p k) 1).get ⟨A.FBK_CMPCFG p k, lo, n⟩ = x.get ⟨A.FBK_CMPCFG p k, lo, n⟩ :=
      State.get_put_bits (f := F.FBK_CMPCFG_WIDTH p k) (g := ⟨A.FBK_CMPCFG p k, lo, n⟩) _ _ (Nat.le_of_ble_eq_true rfl) (Or.inr hlo)
    have hzero : bitsGet v 8 8 = 0 := hwid ▸ h
    refine ⟨(hput 31 1 (by decide)).trans ((hget 31 1).trans h31), (hput 30 1 (by decide)).trans ((hget 30 1).trans h30),
      (hput 29 1 (by decide)).trans ((hget 29 1).trans h29), ?_,
      (regsBut_put (f := F.FBK_CMPCFG_WIDTH p k) List.mem_cons_self).mpr hregs, (State.put_tim ..).trans htim, (State.put_now ..).trans hnow⟩
    rw [hzero]
    exact State.get_put_same _ _ (f := F.FBK_CMPCFG_WIDTH p k) (Nat.le_of_ble_eq_true rfl)

theorem State.cmpCfg_eq (hen : s.bit (F.FBK_CMPCFG_EN p k) = false) :
    s.cmpCfgWrite p k (v ||| bitOf (F.FBK_CMPCFG_EN p k)) = (s.unitArm p k v).unitEval p k := by
  have harm : (s.unitArm p k v).bit (F.FBK_CMPCFG_EN p k) = true :=
    (State.bit_iff _).mpr (by rw [(State.unitArm_arms (s := s) (p := p) (k := k) (v := v)).en]; decide)
  have heq : s.cmpCfgWrite p k (v ||| bitOf (F.FBK_CMPCFG_EN p k)) = if (!s.bit (F.FBK_CMPCFG_EN p k) && (s.unitArm p k v).bit (F.FBK_CMPCFG_EN p k)) = true
      then (s.unitArm p k v).unitEval p k else s.unitArm p k v := rfl
  rw [heq, hen, harm]
  rfl

theorem State.cmpCfg_arms (hen : s.bit (F.FBK_CMPCFG_EN p k) = false) :
    (s.tagged.cmpCfgWrite p k (v ||| bitOf (F.FBK_CMPCFG_EN p k))).get (F.FBK_CMPCFG_WIDTH p k) = max 1 (bitsGet v 8 8)
    ∧ ((s.unitBehind p k && bitsGet v 30 1 == 1) = false →
      (s.tagged.cmpCfgWrite p k (v ||| bitOf (F.FBK_CMPCFG_EN p k))).get (F.FBK_CMPCFG_EN p k) = 1
      ∧ (s.tagged.cmpCfgWrite p k (v ||| bitOf (F.FBK_CMPCFG_EN p k))).bit (F.FBK_CMPSTAT_BEHIND p k) = s.unitBehind p k)
    ∧ (s.unitBehind p k = true → bitsGet v 30 1 = 1 →
      UnitShown p k s.now s (s.tagged.cmpCfgWrite p k (v ||| bitOf (F.FBK_CMPCFG_EN p k)))
      ∧ (s.tagged.cmpCfgWrite p k (v ||| bitOf (F.FBK_CMPCFG_EN p k))).get (F.FBK_CMPCFG_EN p k) = bitsGet v 29 1) := by
  obtain ⟨h1, h2, h3, h4, h5, h6⟩ := cmpWords p k
  have htag := State.tagged_unit (s := s) (p := p) (k := k)
  have hen' : s.tagged.bit (F.FBK_CMPCFG_EN p k) = false :=
    (htag.bit (f := F.FBK_CMPCFG_EN p k) (by show A.FBK_CMPCFG p k < _; omega) List.not_mem_nil).trans hen
  rw [State.cmpCfg_eq hen']
  have harm := State.unitArm_arms (s := s.tagged) (p := p) (k := k) (v := v)
  generalize s.tagged.unitArm p k v = x at *
  have hx : UnitTagged p k [A.FBK_CMPCFG p k] s x :=
    ⟨fun b hb hl => (harm.regs b hl).trans (htag.rd b hb List.not_mem_nil), harm.tim.trans htag.tim, harm.now.trans htag.now⟩
  have hon : x.bit (F.FBK_CMPCFG_EN p k) = true := (State.bit_iff _).mpr (by rw [harm.en]; decide)
  have hpol : x.bit (F.FBK_CMPCFG_POLICY p k) = (bitsGet v 30 1 == 1) := by
    have hlt : bitsGet v 30 1 < 2 := Nat.mod_lt _ (by decide)
    rw [State.bit, harm.policy]
    rcases (by omega : bitsGet v 30 1 = 0 ∨ bitsGet v 30 1 = 1) with h | h <;> rw [h] <;> rfl
  have hcount : x.get (F.FBK_CMPSTAT_FIRECNT p k) = s.get (F.FBK_CMPSTAT_FIRECNT p k) :=
    hx.get (f := F.FBK_CMPSTAT_FIRECNT p k) (by show A.FBK_CMPSTAT p k < _; omega)
      (by simp only [List.mem_cons, List.not_mem_nil, or_false]; show A.FBK_CMPSTAT p k ≠ _; omega)
  obtain ⟨hwait, hfire⟩ := State.unitEval_cases hon
  rw [hpol, hx.behind] at hwait hfire
  have hcases : (s.unitBehind p k && bitsGet v 30 1 == 1) = false ∨ (s.unitBehind p k && bitsGet v 30 1 == 1) = true := by
    cases (s.unitBehind p k && bitsGet v 30 1 == 1)
    · exact Or.inl rfl
    · exact Or.inr rfl
  refine ⟨?_, fun h => ?_, fun hb hp => ?_⟩
  · rcases hcases with h | h
    · refine Eq.trans ?_ harm.width
      unfold State.get
      rw [(hwait h).regs _ (by simp only [List.mem_cons, List.not_mem_nil, or_false]; show A.FBK_CMPCFG p k ≠ _; omega)]
    · exact ((hfire h).armed.cfg 8 8 (by decide)).trans harm.width
  · refine ⟨Eq.trans ?_ harm.en, (hwait h).behind⟩
    unfold State.get
    rw [(hwait h).regs _ (by simp only [List.mem_cons, List.not_mem_nil, or_false]; show A.FBK_CMPCFG p k ≠ _; omega)]
  · obtain ⟨⟨hf1, hf2, hf3⟩, hre⟩ := hfire (by rw [hb, hp]; rfl)
    refine ⟨⟨hf1, by rw [hf2, hcount], by rw [hf3, hx.now, State.stampOf_congr hx.tim hx.now]⟩, ?_⟩
    have hlt : bitsGet v 29 1 < 2 := Nat.mod_lt _ (by decide)
    rw [hre.en, harm.en, State.bit, harm.reload]
    rcases (by omega : bitsGet v 29 1 = 0 ∨ bitsGet v 29 1 = 1) with h | h <;> rw [h] <;> rfl

/-! ## The end of a pulse -/

/-- The pulse of a unit ends. -/
def State.pulseOff (s : State) (p : Fin 8) (k : Fin 4) : State := s.modPort p (fun x => { x with pulses := x.pulses.set k none })

theorem State.pulseEnd_ends {sel : Nat} {b e : Tick} (h : (s.port p).pulses[k] = some (sel, b, e)) (he : e < s.now) :
    ((s.pulseEnd p k).port p).pulses[k] = none ∧ ∀ j, j ≠ k → ((s.pulseEnd p k).port p).pulses[j] = (s.port p).pulses[j] := by
  have heq : s.pulseEnd p k = (s.pulseOff p k).outsRefresh := by
    unfold State.pulseEnd
    rw [h]
    exact if_pos he
  rw [heq]
  have hoff : (s.pulseOff p k).port p = { s.port p with pulses := (s.port p).pulses.set k none } := State.port_modPort_same _
  generalize s.pulseOff p k = x at *
  have hport : x.outsRefresh.port p = x.port p := by
    have h := ((PortFrame.refl (g := id) (s := x) (p := p)).outsRefresh).port
    rwa [id_eq, id_eq] at h
  rw [hport, hoff]
  exact ⟨Vector.getElem_set_self .., fun j hj => Vector.getElem_set_ne k.isLt j.isLt fun e => hj (Fin.ext e.symm)⟩

end Compares

theorem positionCompares : Part.PositionCompares := by
  intro s t m p k v
  dsimp only
  refine ⟨fun htakes hturn => ⟨_, exec_any_of rfl (State.act.eq_def ..) hturn (State.masterWrite_cmptgt htakes), ?_⟩,
    fun htakes hen hturn => ⟨_, exec_any_of rfl (State.act.eq_def ..) hturn (State.masterWrite_cmpcfg htakes), ?_⟩,
    fun sel b e hp he hclk hturn => ⟨_, exec_at rfl (State.act.eq_def ..) hclk hturn, ?_⟩⟩
  all_goals generalize s.advance t = a at *
  case refine_1 =>
    refine ⟨fun hen => State.cmpTgt_off hen, fun hen => (State.cmpTgt_on hen).1, fun hen hb hp => ?_⟩
    obtain ⟨⟨h1, h2, h3⟩, htgt⟩ := (State.cmpTgt_on (v := v) hen).2 (by rw [hb, hp]; rfl)
    exact ⟨⟨h1, h2, h3⟩, htgt⟩
  case refine_2 =>
    obtain ⟨hwidth, hwait, hfire⟩ := State.cmpCfg_arms (v := v) hen
    refine ⟨hwidth, hwait, fun hb hp => ?_⟩
    obtain ⟨⟨h1, h2, h3⟩, hen⟩ := hfire hb hp
    exact ⟨⟨h1, h2, h3⟩, hen⟩
  case refine_3 => exact State.pulseEnd_ends hp he

end Sys2Proof.Machine
end

section
/-!
PROOFS. Chapter 11: the emulation outputs, and the request of a port.
-/
namespace Sys2Proof.Machine

section Outputs
variable {s u x : State} {m : Fin 2} {f : Fld}

theorem State.out_modOut_same (g : OutSt → OutSt) : (s.modOut m g).fbo[m] = g s.fbo[m] := Vector.getElem_set_self ..

theorem State.out_modOut_other {r : Fin 2} (g : OutSt → OutSt) (hr : r ≠ m) : (s.modOut m g).fbo[r] = s.fbo[r] :=
  Vector.getElem_set_ne m.isLt r.isLt fun e => hr (Fin.ext e.symm)

/-- What the refresh of an output's source and its pins leave: the count itself with its last step, the other output, and
every register but the output's own. -/
structure OutKept (m : Fin 2) (s u : State) : Prop where
  out : (u.fbo[m]).out = (s.fbo[m]).out
  last : (u.fbo[m]).lastStep = (s.fbo[m]).lastStep
  others : ∀ r, r ≠ m → u.fbo[r] = s.fbo[r]
  now : u.now = s.now
  regs : RegsBut [A.FBO_STAT m, A.FBO_OUTCNT m] s u

namespace OutKept

theorem refl : OutKept m s s := ⟨rfl, rfl, fun _ _ => rfl, rfl, RegsBut.refl⟩

theorem trans (h : OutKept m s u) (k : OutKept m u x) : OutKept m s x :=
  ⟨k.out.trans h.out, k.last.trans h.last, fun r hr => (k.others r hr).trans (h.others r hr), k.now.trans h.now, h.regs.trans k.regs⟩

theorem modOut {g : OutSt → OutSt} (h : OutKept m s u) (hg : ∀ o, (g o).out = o.out ∧ (g o).lastStep = o.lastStep) : OutKept m s (u.modOut m g) := by
  refine h.trans ⟨?_, ?_, fun r hr => State.out_modOut_other g hr, rfl, RegsBut.refl.of_regs rfl⟩
  · rw [State.out_modOut_same, (hg _).1]
  · rw [State.out_modOut_same, (hg _).2]

theorem of_regs (h : OutKept m s u) (hf : x.fbo = u.fbo) (hn : x.now = u.now) (hr : RegsBut [A.FBO_STAT m, A.FBO_OUTCNT m] u x) : OutKept m s x := by
  have hout (r : Fin 2) : x.fbo[r] = u.fbo[r] := by rw [hf]
  exact h.trans ⟨by rw [hout], by rw [hout], fun r _ => hout r, hn, hr⟩

theorem statB {lo : Nat} (h : OutKept m s u) (b : Bool) : OutKept m s (u.putB ⟨A.FBO_STAT m, lo, 1⟩ b) :=
  h.of_regs (State.put_fbo ..) (State.put_now ..) ((regsBut_put (f := ⟨A.FBO_STAT m, lo, 1⟩) List.mem_cons_self).mpr RegsBut.refl)

theorem wr (h : OutKept m s u) (w : Word) : OutKept m s (u.wr (A.FBO_OUTCNT m) w) :=
  h.of_regs rfl rfl (RegsBut.refl.wr _ (by simp))

end OutKept

/-- The levels of an output's pins. -/
def State.pinLevels (s : State) (m : Fin 2) (a b z : Bool) : State := s.modOut m (fun o => { o with a := a, b := b, z := z })

/-- What the pins show: with the source and the offset of the output. -/
structure PinsShown (m : Fin 2) (s u : State) : Prop where
  kept : OutKept m s u
  cur : (u.fbo[m]).cur = (s.fbo[m]).cur
  off : (u.fbo[m]).off = (s.fbo[m]).off
  catch_ : u.bit (F.FBO_STAT_CATCH m) = s.bit (F.FBO_STAT_CATCH m)
  fbk : u.fbk = s.fbk

theorem PinsShown.trans (h : PinsShown m s u) (k : PinsShown m u x) : PinsShown m s x :=
  ⟨h.kept.trans k.kept, k.cur.trans h.cur, k.off.trans h.off, k.catch_.trans h.catch_, k.fbk.trans h.fbk⟩

theorem PinsShown.statB {lo : Nat} (h : PinsShown m s u) (b : Bool) (hlo : 29 ≤ lo ∧ lo < 32) : PinsShown m s (u.putB ⟨A.FBO_STAT m, lo, 1⟩ b) := by
  have hout (r : Fin 2) : (u.putB ⟨A.FBO_STAT m, lo, 1⟩ b).fbo[r] = u.fbo[r] := by simp only [State.putB_eq, State.put_fbo]
  refine h.trans ⟨OutKept.refl.statB b, by rw [hout], by rw [hout], State.bit_congr ?_, State.put_fbk ..⟩
  exact State.get_put_bits (f := ⟨A.FBO_STAT m, lo, 1⟩) (g := F.FBO_STAT_CATCH m) _ _ (by simp only; omega) (Or.inl hlo.1)

theorem State.pinLevels_shown (a b z : Bool) : PinsShown m s (s.pinLevels m a b z) := by
  unfold State.pinLevels
  exact ⟨OutKept.refl.modOut fun _ => ⟨rfl, rfl⟩, by rw [State.out_modOut_same], by rw [State.out_modOut_same], rfl, rfl⟩

theorem PinsShown.cnt (h : PinsShown m s u) (w : Word) : PinsShown m s (u.wr (A.FBO_OUTCNT m) w) := by
  refine h.trans ⟨OutKept.refl.wr w, rfl, rfl, State.bit_congr ?_, State.wr_fbk ..⟩
  unfold State.get
  rw [State.rd_wr_ne _ _ (by simp only [F.FBO_STAT_CATCH, A.FBO_STAT, A.FBO_OUTCNT]; omega)]

theorem State.outPins_shown : PinsShown m s (s.outPins m) ∧ (s.outPins m).rd (A.FBO_OUTCNT m) = wOfInt (s.fbo[m]).out := by
  unfold State.outPins
  dsimp only
  generalize ((s.fbo[m]).cur == OutSrc.div || (s.fbo[m]).cur == OutSrc.est || s.bit (F.FBO_STAT_CATCH m)) = synth
  generalize (if synth = true then _ else _ : Bool × Bool × Bool) = pins
  have h := ((State.pinLevels_shown (s := s) (m := m) pins.1 pins.2.1 pins.2.2).statB
    (!(s.pinLevels m pins.1 pins.2.1 pins.2.2).bit (F.FBO_CFG_ACTONLY m) || (s.pinLevels m pins.1 pins.2.1 pins.2.2).roleActive) (lo := 31) (by decide)).statB
      synth (lo := 30) (by decide) |>.statB ((s.fbo[m]).cur == OutSrc.est) (lo := 29) (by decide)
  exact ⟨h.cnt _, State.rd_wr_same ..⟩

theorem OutKept.pins (h : OutKept m s u) : OutKept m s (u.outPins m) := h.trans State.outPins_shown.1.kept

theorem State.outRefresh_kept : OutKept m s (s.outRefresh m) := by
  have hcatch {y : State} (h : OutKept m s y) (b : Bool) : OutKept m s (y.putB (F.FBO_STAT_CATCH m) b) := h.statB (lo := 28) b
  unfold State.outRefresh
  dsimp only
  split
  · exact OutKept.refl.pins
  split
  · refine (hcatch (OutKept.refl.modOut ?_) _).pins
    exact fun _ => ⟨rfl, rfl⟩
  · refine ((hcatch OutKept.refl _).modOut ?_).pins
    exact fun _ => ⟨rfl, rfl⟩

theorem State.outAngle_shown : PinsShown m s (s.outAngle m) := by
  unfold State.outAngle
  exact ⟨OutKept.refl.modOut fun _ => ⟨rfl, rfl⟩, by rw [State.out_modOut_same], by rw [State.out_modOut_same], rfl, rfl⟩

/-! ## A step towards the target -/

/-- One count towards the target. -/
def State.outMove (s : State) (m : Fin 2) (target : Int) : State :=
  s.modOut m (fun o => { o with out := if target < o.out then o.out - 1 else o.out + 1, lastStep := s.now })

/-- The step, where the spacing allows one. -/
def State.outTowards (s : State) (m : Fin 2) (target : Int) : State :=
  if s.get (F.FBO_CFG_SPACE m) ≤ s.now - (s.fbo[m]).lastStep ∧ (s.fbo[m]).out ≠ target then s.outMove m target else s

/-- An output that has been caught up with follows its port. -/
def State.outCaught (s : State) (m : Fin 2) (catching : Bool) (target : Int) : State :=
  if catching && (s.fbo[m]).out == target then (s.modOut m (fun o => { o with cur := .pass })).putB (F.FBO_STAT_CATCH m) false else s

/-- What a step leaves of the count. -/
structure OutStepped (m : Fin 2) (target : Int) (s u : State) : Prop where
  stays : ¬ (s.get (F.FBO_CFG_SPACE m) ≤ s.now - (s.fbo[m]).lastStep ∧ (s.fbo[m]).out ≠ target) → (u.fbo[m]).out = (s.fbo[m]).out
  moves : s.get (F.FBO_CFG_SPACE m) ≤ s.now - (s.fbo[m]).lastStep → (s.fbo[m]).out ≠ target →
    (u.fbo[m]).out = (if target < (s.fbo[m]).out then (s.fbo[m]).out - 1 else (s.fbo[m]).out + 1) ∧ (u.fbo[m]).lastStep = s.now
  others : ∀ r, r ≠ m → u.fbo[r] = s.fbo[r]

theorem State.outTowards_steps (target : Int) : OutStepped m target s (s.outTowards m target) := by
  have hmove : (s.outMove m target).fbo[m] = { s.fbo[m] with
      out := if target < (s.fbo[m]).out then (s.fbo[m]).out - 1 else (s.fbo[m]).out + 1, lastStep := s.now } := State.out_modOut_same _
  unfold State.outTowards
  split
  case isTrue h => exact ⟨fun hn => absurd h hn, fun _ _ => by rw [hmove]; exact ⟨rfl, rfl⟩, fun r hr => State.out_modOut_other _ hr⟩
  case isFalse h => exact ⟨fun _ => rfl, fun h1 h2 => absurd ⟨h1, h2⟩ h, fun _ _ => rfl⟩

theorem State.outCaught_kept (catching : Bool) (target : Int) : OutKept m s (s.outCaught m catching target) := by
  unfold State.outCaught
  split
  · refine (OutKept.refl.modOut ?_).statB (lo := 28) false
    exact fun _ => ⟨rfl, rfl⟩
  · exact OutKept.refl

/-- The target of a synthesised output. -/
def State.outTarget (s : State) (m : Fin 2) : Int :=
  s.outBase m (if s.bit (F.FBO_STAT_CATCH m) then .pass else (s.fbo[m]).cur) + (s.fbo[m]).off

theorem State.outStep_eq : s.outStep m = if (((s.outAngle m).outRefresh m).fbo[m]).cur = .div ∨ (((s.outAngle m).outRefresh m).fbo[m]).cur = .est
    then ((((s.outAngle m).outRefresh m).outTowards m (((s.outAngle m).outRefresh m).outTarget m)).outCaught m
      (((s.outAngle m).outRefresh m).bit (F.FBO_STAT_CATCH m)) (((s.outAngle m).outRefresh m).outTarget m)).outPins m
    else (s.outAngle m).outRefresh m := rfl

theorem OutStepped.later {target : Int} (h : OutStepped m target s u) (k : OutKept m u x) : OutStepped m target s x :=
  ⟨fun hn => k.out.trans (h.stays hn), fun h1 h2 => ⟨k.out.trans (h.moves h1 h2).1, k.last.trans (h.moves h1 h2).2⟩,
    fun r hr => (k.others r hr).trans (h.others r hr)⟩

theorem OutStepped.since {target : Int} (k : OutKept m s u) (h : OutStepped m target u x) : OutStepped m target s x := by
  have hspace : u.get (F.FBO_CFG_SPACE m) = s.get (F.FBO_CFG_SPACE m) := k.regs.get (g := F.FBO_CFG_SPACE m) (by
    simp only [F.FBO_CFG_SPACE, A.FBO_CFG, A.FBO_STAT, A.FBO_OUTCNT, List.mem_cons, List.not_mem_nil, or_false]
    omega)
  obtain ⟨hs, hm, ho⟩ := h
  rw [hspace, k.now, k.last, k.out] at hs hm
  exact ⟨hs, hm, fun r hr => (ho r hr).trans (k.others r hr)⟩

/-- A step of an output is one step towards some target, or none. -/
theorem State.outStep_steps : ∃ target, OutStepped m target s (s.outStep m) := by
  have hkept : OutKept m s ((s.outAngle m).outRefresh m) := State.outAngle_shown.kept.trans State.outRefresh_kept
  rw [State.outStep_eq]
  generalize (s.outAngle m).outRefresh m = y at *
  split
  · exact ⟨_, .since hkept (((State.outTowards_steps _).later (State.outCaught_kept ..)).later State.outPins_shown.1.kept)⟩
  · exact ⟨(s.fbo[m]).out, fun _ => hkept.out, fun _ h => absurd rfl h, hkept.others⟩

theorem OutStepped.bounds {target : Int} (h : OutStepped m target s u) : ((u.fbo[m]).out - (s.fbo[m]).out).natAbs ≤ 1
    ∧ ((u.fbo[m]).out ≠ (s.fbo[m]).out → s.get (F.FBO_CFG_SPACE m) ≤ s.now - (s.fbo[m]).lastStep ∧ (u.fbo[m]).lastStep = s.now) := by
  by_cases hc : s.get (F.FBO_CFG_SPACE m) ≤ s.now - (s.fbo[m]).lastStep ∧ (s.fbo[m]).out ≠ target
  · obtain ⟨hout, hlast⟩ := h.moves hc.1 hc.2
    refine ⟨?_, fun _ => ⟨hc.1, hlast⟩⟩
    rw [hout]
    split <;> omega
  · have hout := h.stays hc
    exact ⟨by rw [hout, Int.sub_self]; decide, fun hne => absurd hout hne⟩

/-! ## DIV mode -/

theorem OutKept.mode (h : OutKept m s u) (p : Fin 8) : u.fbkMode p = s.fbkMode p := by
  have hrd {b : Nat} (hb : b = A.FBK_CFG p ∨ b = A.FBK_STAT p ∨ b = A.FBK_HALLMAP p) : u.rd b = s.rd b := h.regs b (by
    simp only [A.FBO_STAT, A.FBO_OUTCNT, A.FBK_CFG, A.FBK_STAT, A.FBK_HALLMAP, List.mem_cons, List.not_mem_nil, or_false] at *
    omega)
  have hmode : SameMode p s u := ⟨hrd (Or.inl rfl), by unfold State.get; rw [hrd (b := (F.FBK_STAT_CFGERR p).addr) (Or.inr (Or.inl rfl))], hrd (Or.inr (Or.inr rfl))⟩
  exact hmode.mode

theorem OutKept.cfg (h : OutKept m s u) (hf : f.addr = A.FBO_CFG m ∨ f.addr = A.FBO_RATIO m) : u.get f = s.get f := h.regs.get (by
  simp only [A.FBO_STAT, A.FBO_OUTCNT, A.FBO_CFG, A.FBO_RATIO, List.mem_cons, List.not_mem_nil, or_false] at *
  omega)

theorem OutKept.src (h : OutKept m s u) : u.outSrcPort m = s.outSrcPort m := by
  unfold State.outSrcPort
  simp only [h.cfg (f := F.FBO_CFG_SRC m) (Or.inl rfl)]

theorem OutKept.want (h : OutKept m s u) : u.outWant m = s.outWant m := by
  have hlost (p : Fin 8) : u.bit (F.FBK_STAT_LOST p) = s.bit (F.FBK_STAT_LOST p) := State.bit_congr <| h.regs.get (by
    simp only [F.FBK_STAT_LOST, A.FBO_STAT, A.FBO_OUTCNT, A.FBK_STAT, List.mem_cons, List.not_mem_nil, or_false]
    omega)
  unfold State.outWant
  dsimp only
  rw [h.src, h.cfg (f := F.FBO_CFG_MODE m) (Or.inl rfl), State.bit_congr (h.cfg (f := F.FBO_CFG_FALLBK m) (Or.inl rfl)), hlost, h.mode]

theorem OutKept.base (h : OutKept m s u) : u.outBase m .div = s.outBase m .div := by
  have hpos (p : Fin 8) : u.extPos p = s.extPos p := by
    have hrd {b : Nat} (hb : b = A.FBK_POS0 p ∨ b = A.FBK_POS1 p) : u.rd b = s.rd b := h.regs b (by
      simp only [A.FBO_STAT, A.FBO_OUTCNT, A.FBK_POS0, A.FBK_POS1, List.mem_cons, List.not_mem_nil, or_false] at *
      omega)
    unfold State.extPos
    rw [hrd (Or.inl rfl), hrd (Or.inr rfl)]
  have hratio : u.outRatio m = s.outRatio m := by
    unfold State.outRatio
    rw [h.cfg (f := F.FBO_CFG_MODE m) (Or.inl rfl), h.cfg (f := F.FBO_RATIO_N m) (Or.inr rfl), h.cfg (f := F.FBO_RATIO_M m) (Or.inr rfl)]
  simp only [State.outBase, h.src, hpos, hratio]

/-- An output in DIV mode that is to stay in it steps towards the target of its count. -/
theorem State.outStep_div (hcur : (s.fbo[m]).cur = .div) (hwant : s.outWant m = .div) (hcatch : s.bit (F.FBO_STAT_CATCH m) = false) :
    OutStepped m (s.outBase m .div + (s.fbo[m]).off) s (s.outStep m)
    ∧ (s.outStep m).rd (A.FBO_OUTCNT m) = wOfInt ((s.outStep m).fbo[m]).out := by
  have hrefresh : (s.outAngle m).outRefresh m = (s.outAngle m).outPins m := by
    have h := State.outAngle_shown (s := s) (m := m)
    unfold State.outRefresh
    dsimp only
    rw [h.cur, hcur, h.kept.want, hwant]
    exact if_pos (Or.inl rfl)
  have hp : PinsShown m s ((s.outAngle m).outRefresh m) := by
    rw [hrefresh]
    exact State.outAngle_shown.trans State.outPins_shown.1
  have htarget : ((s.outAngle m).outRefresh m).outTarget m = s.outBase m .div + (s.fbo[m]).off := by
    unfold State.outTarget
    rw [hp.catch_, hcatch, if_neg Bool.false_ne_true, hp.cur, hcur, hp.kept.base, hp.off]
  rw [State.outStep_eq, htarget]
  generalize (s.outAngle m).outRefresh m = y at *
  rw [if_pos (Or.inl (hp.cur.trans hcur))]
  have hpins := State.outPins_shown (s := (y.outTowards m (s.outBase m .div + (s.fbo[m]).off)).outCaught m (y.bit (F.FBO_STAT_CATCH m))
    (s.outBase m .div + (s.fbo[m]).off)) (m := m)
  refine ⟨.since hp.kept (((State.outTowards_steps _).later (State.outCaught_kept ..)).later hpins.1.kept), ?_⟩
  rw [hpins.2, hpins.1.kept.out]

end Outputs

theorem emulationSteps : Part.EmulationSteps := by
  intro s t o
  dsimp only
  refine fun hclk hturn => ⟨_, exec_at rfl (State.act.eq_def ..) hclk hturn, ?_⟩
  generalize s.advance t = a at *
  obtain ⟨target, h⟩ := State.outStep_steps (s := a) (m := o)
  obtain ⟨hone, hlast⟩ := h.bounds
  refine ⟨hone, hlast, h.others, fun hcur hwant hcatch hspace => ?_⟩
  obtain ⟨hstep, hcnt⟩ := State.outStep_div hcur hwant hcatch
  generalize a.outBase o .div + (a.fbo[o]).off = target at *
  refine ⟨fun e => ?_, fun hlt => ?_, fun hlt => ?_, hcnt⟩
  · rw [e]
    exact hstep.stays fun hc => hc.2 e.symm
  · rw [(hstep.moves hspace (Int.ne_of_gt hlt)).1, if_pos hlt]
  · rw [(hstep.moves hspace (Int.ne_of_lt hlt)).1, if_neg (not_lt_of_gt hlt)]

/-! ## The request of a port -/

theorem requestMask : ∀ i : Fin 32, (0xFFFC#32).getLsbD i = decide (2 ≤ i.val ∧ i.val ≤ 15) := by decide

theorem masked_iff (x y : Word) : (x &&& y &&& 0xFFFC != 0) = true ↔
    ∃ i : Fin 32, 2 ≤ i.val ∧ i.val ≤ 15 ∧ x.getLsbD i = true ∧ y.getLsbD i = true := by
  have hbit (i : Fin 32) : (x &&& y &&& 0xFFFC#32).getLsbD i = true ↔ 2 ≤ i.val ∧ i.val ≤ 15 ∧ x.getLsbD i = true ∧ y.getLsbD i = true := by
    rw [BitVec.getLsbD_and, BitVec.getLsbD_and, requestMask, Bool.and_eq_true, Bool.and_eq_true, decide_eq_true_eq]
    tauto
  rw [bne_iff_ne]
  constructor
  · intro hne
    by_contra hnone
    refine hne (BitVec.eq_of_getLsbD_eq fun i hi => ?_)
    have hfalse : ¬ (x &&& y &&& 0xFFFC#32).getLsbD i = true := fun h => hnone ⟨⟨i, hi⟩, (hbit ⟨i, hi⟩).mp h⟩
    exact (Bool.not_eq_true _).mp hfalse |>.trans (BitVec.getLsbD_zero).symm
  · rintro ⟨i, hi⟩ hzero
    have h := (hbit i).mpr hi
    rw [show (x &&& y &&& 0xFFFC#32) = 0#32 from hzero, BitVec.getLsbD_zero] at h
    exact Bool.false_ne_true h

theorem feedbackRequest : Part.FeedbackRequest := by
  intro s p
  have hword : (s.rd (A.FBK_STAT p) &&& s.rd (A.FBK_IEN p) &&& 0xFFFC != 0) = true ↔
      ∃ i : Fin 32, 2 ≤ i.val ∧ i.val ≤ 15 ∧ (s.rd (A.FBK_STAT p)).getLsbD i = true ∧ (s.rd (A.FBK_IEN p)).getLsbD i = true :=
    masked_iff _ _
  unfold State.fbkIrq
  rw [Bool.or_eq_true, hword, List.any_eq_true]
  simp only [List.mem_finRange, true_and, Bool.and_eq_true, and_assoc]

/-- Settles O29. -/
theorem comparesAndEmulation : Obligations.ComparesAndEmulation := ⟨positionCompares, emulationSteps, feedbackRequest⟩

end Sys2Proof.Machine
end

section
/-!
PROOFS. Chapters 6 and 12: what the operations on a leg's gate leave of the legs.
-/
namespace Sys2Proof.Machine

/-- A leg without its balls and what follows them: the blanking window, the bootstrap count, the expectations. -/
def LegSt.ball (x : LegSt) : LegSt :=
  { x with gh := false, gl := false, blankEnd := 0, ghOffAt := 0, glOffAt := 0, glOnAt := 0, bsAt := 0, refresh := false, expH := [], expL := [] }

/-- Without its latch and its sequence, too. -/
def LegSt.gate (x : LegSt) : LegSt := { x.ball with latched := false, gm := false, seq := none }

/-- Of the legs only leg n differs, and there nothing that `g` shows; else the legs' registers alone. -/
structure LegStep (g : LegSt → LegSt) (n : Fin 72) (s u : State) : Prop where
  kept : LegKept s u
  self : g (u.leg n) = g (s.leg n)
  others : ∀ k, k ≠ n → u.leg k = s.leg k
  teams : u.teams = s.teams

section Steps
variable {g g' : LegSt → LegSt} {n : Fin 72} {a s u x : State} {sw : Sw} {f : Fld}

namespace LegStep

theorem refl : LegStep g n s s := ⟨HaltFrame.refl, rfl, fun _ _ => rfl, rfl⟩

theorem trans (h : LegStep g n s u) (k : LegStep g n u x) : LegStep g n s x :=
  ⟨h.kept.trans k.kept, k.self.trans h.self, fun j hj => (k.others j hj).trans (h.others j hj), k.teams.trans h.teams⟩

theorem ite {c : Prop} [Decidable c] (h : LegStep g n a s) (k : LegStep g n a u) : LegStep g n a (if c then s else u) := by
  split
  · exact h
  · exact k

theorem loosen (h : LegStep g n s u) (hg : ∀ y, g' (g y) = g' y) : LegStep g' n s u := ⟨h.kept, by rw [← hg, h.self, hg], h.others, h.teams⟩

/-- The legs are as they were. -/
theorem next (h : LegStep g n a s) (hk : LegKept s u) (hl : u.legs = s.legs) (ht : u.teams = s.teams) : LegStep g n a u := by
  have hleg (k : Fin 72) : u.leg k = s.leg k := by unfold State.leg; rw [hl]
  exact h.trans ⟨hk, by rw [hleg], fun k _ => hleg k, ht⟩

theorem modLeg {k : LegSt → LegSt} (h : LegStep g n a s) (hk : ∀ y, g (k y) = g y) : LegStep g n a (s.modLeg n k) :=
  h.trans ⟨HaltFrame.refl.modLeg .., by rw [State.leg_modLeg_same, hk], fun j hj => State.leg_modLeg_other _ hj, rfl⟩

theorem put (h : LegStep g n a s) (v : Nat) (hf : legFld f) (hb : f.lo + f.width ≤ 32) : LegStep g n a (s.put f v) :=
  h.next (HaltFrame.refl.put v hf hb) (State.put_legs ..) (State.put_teams ..)

theorem putB (h : LegStep g n a s) (b : Bool) (hf : legFld f) (hb : f.lo + f.width ≤ 32) : LegStep g n a (s.putB f b) := h.put _ hf hb

theorem raise (h : LegStep g n a s) (hf : legFld f) (hb : f.lo + f.width ≤ 32) : LegStep g n a (s.raise f) :=
  h.next (HaltFrame.refl.raise hf hb) (State.raise_legs ..) (State.raise_teams ..)

theorem wr {b : Nat} (h : LegStep g n a s) (w : Word) (hf : legFld (wordOf b)) : LegStep g n a (s.wr b w) :=
  h.next (HaltFrame.refl.wr w hf) rfl rfl

end LegStep

theorem State.bsStore_ball (k : Tick) (c : Nat) : LegStep LegSt.ball n s (s.bsStore n k c) := by
  unfold State.bsStore
  exact ((LegStep.refl.put _ (legFld_page n 0x12C _ _ (by decide)) (Nat.le_of_ble_eq_true rfl)).putB _ (legFld_page n 0x12C _ _ (by decide))
    (Nat.le_of_ble_eq_true rfl)).modLeg fun _ => rfl

/-- A turn-on or turn-off at the ball opens the blanking window. -/
def State.blankOpen (s : State) (n : Fin 72) (at_ : Fine) : State :=
  s.modLeg n (fun l => { l with blankEnd := if s.get (F.LEG_PROTCFG_BLANK n) = 0 then l.blankEnd else at_ + s.get (F.LEG_PROTCFG_BLANK n) * 256 })

/-- The level of a ball. -/
def State.ballSet (s : State) (n : Fin 72) (sw : Sw) (lvl : Bool) (at_ : Fine) : State :=
  match sw with
  | .high => s.modLeg n (fun l => { l with gh := lvl, ghOffAt := if lvl then l.ghOffAt else at_ })
  | .low => s.modLeg n (fun l => { l with gl := lvl, glOnAt := if lvl then at_ else l.glOnAt, glOffAt := if lvl then l.glOffAt else at_ })

/-- A full bootstrap refresh starts its count again. -/
def State.bsFilled (s : State) (n : Fin 72) (at_ : Fine) : State := (s.bsStore n (at_ / 256) 0).modLeg n (fun l => { l with refresh := l.refresh && l.refExt })

theorem State.setBall_eq (lvl : Bool) (at_ : Fine) : s.setBall n sw lvl at_
    = if s.deadLine n (match sw with | .high => 0 | .low => 1) then s
      else match sw with
        | .high => ((s.bsSync n (s.bsTick n sw lvl at_)).blankOpen n at_).ballSet n .high lvl at_
        | .low =>
          if (!lvl && decide (((s.bsSync n (s.bsTick n sw lvl at_)).blankOpen n at_).glFrom n + ((s.bsSync n (s.bsTick n sw lvl at_)).blankOpen n at_).bsWidth n ≤ at_)) = true
          then (((s.bsSync n (s.bsTick n sw lvl at_)).blankOpen n at_).ballSet n .low lvl at_).bsFilled n at_
          else ((s.bsSync n (s.bsTick n sw lvl at_)).blankOpen n at_).ballSet n .low lvl at_ := by
  cases sw <;> rfl

theorem State.blankOpen_ball (at_ : Fine) : LegStep LegSt.ball n s (s.blankOpen n at_) := LegStep.refl.modLeg fun _ => rfl

theorem State.ballSet_ball (lvl : Bool) (at_ : Fine) : LegStep LegSt.ball n s (s.ballSet n sw lvl at_) := by
  unfold State.ballSet
  cases sw
  · exact LegStep.refl.modLeg fun _ => rfl
  · exact LegStep.refl.modLeg fun _ => rfl

theorem State.bsFilled_ball (at_ : Fine) : LegStep LegSt.ball n s (s.bsFilled n at_) := (State.bsStore_ball ..).modLeg fun _ => rfl

theorem State.setBall_ball (lvl : Bool) (at_ : Fine) : LegStep LegSt.ball n s (s.setBall n sw lvl at_) := by
  rw [State.setBall_eq]
  refine LegStep.refl.ite ?_
  have hopen : LegStep LegSt.ball n s ((s.bsSync n (s.bsTick n sw lvl at_)).blankOpen n at_) := (State.bsStore_ball ..).trans (State.blankOpen_ball _)
  generalize (s.bsSync n (s.bsTick n sw lvl at_)).blankOpen n at_ = y at *
  cases sw with
  | high => exact hopen.trans (State.ballSet_ball ..)
  | low => exact ((hopen.trans (State.ballSet_ball ..)).trans (State.bsFilled_ball _)).ite (hopen.trans (State.ballSet_ball ..))

theorem State.openExp_ball (on : Bool) (at_ : Fine) (id : Option Nat) : LegStep LegSt.ball n s (s.openExp n sw on at_ id) := by
  have hset (l : List Expect) : LegStep LegSt.ball n s (s.setExps n sw l) := by
    unfold State.setExps
    cases sw
    · exact LegStep.refl.modLeg fun _ => rfl
    · exact LegStep.refl.modLeg fun _ => rfl
  unfold State.openExp
  exact (hset _).ite LegStep.refl

theorem State.emitRaw_ball (lvl : Bool) (at_ : Fine) (id : Option Nat) : LegStep LegSt.ball n s (s.emitRaw n sw lvl at_ id) := by
  unfold State.emitRaw
  have hraise : LegStep LegSt.ball n s (s.raiseBit (F.LEG_TRIPSRC_KINDS n) (kINTERLOCK - 1)) :=
    LegStep.refl.raise (legFld_page n 0x214 _ _ (by decide)) (Nat.le_of_ble_eq_true rfl)
  exact LegStep.refl.ite (((hraise.ite LegStep.refl).trans (State.setBall_ball ..)).trans (State.openExp_ball ..))

/-- The gate latch sets. -/
structure GateLatched (n : Fin 72) (s u : State) : Prop where
  step : LegStep LegSt.gate n s u
  latched : (u.leg n).latched = true

theorem LegSt.gate_ball (y : LegSt) : y.ball.gate = y.gate := rfl

theorem LegSt.ball_latched (y : LegSt) : y.ball.latched = y.latched := rfl

theorem State.latchGate_latches (stamp : Fine) : GateLatched n s (s.latchGate n stamp) := by
  unfold State.latchGate
  split
  case isTrue h => exact ⟨LegStep.refl, h⟩
  case isFalse h =>
    dsimp only
    have hstep : LegStep LegSt.gate n s (s.modLeg n (fun l => { l with latched := true })) := LegStep.refl.modLeg fun _ => rfl
    have hl : ((s.modLeg n (fun l => { l with latched := true })).leg n).latched = true := by rw [State.leg_modLeg_same]
    generalize s.modLeg n (fun l => { l with latched := true }) = y at *
    split
    · exact ⟨hstep, hl⟩
    · split
      · refine ⟨hstep.modLeg fun _ => rfl, ?_⟩
        rw [State.leg_modLeg_same]
        exact hl
      · have hraw := State.emitRaw_ball (s := y) (n := n) (sw := ‹Sw›) false stamp none
        refine ⟨hstep.trans (hraw.loosen LegSt.gate_ball), ?_⟩
        rw [← LegSt.ball_latched, hraw.self, LegSt.ball_latched, hl]

end Steps
end Sys2Proof.Machine
end

section
/-!
PROOFS. Chapter 12: the conditions of the comparators.
-/
namespace Sys2Proof.Machine

/-! ## What a condition is read from -/

/-- What a comparator's conditions and their scope are read from. -/
structure CmpRest (k : Fin 96) (s u : State) : Prop where
  get : ∀ f : Fld, f.addr < 0x40000 ∨ 0x52000 ≤ f.addr → u.get f = s.get f
  load : u.load = s.load
  teams : u.teams = s.teams
  now : u.now = s.now
  scopes : (u.cmps[k]).scope = (s.cmps[k]).scope

section Crossings
variable {k : Fin 96} {c c' : Cond} {lvl : Bool} {s u x : State} {n : Fin 72} {f : Fld}

namespace CmpRest

theorem refl : CmpRest k s s := ⟨fun _ _ => rfl, rfl, rfl, rfl, rfl⟩

theorem trans (h : CmpRest k s u) (j : CmpRest k u x) : CmpRest k s x :=
  ⟨fun f hf => (j.get f hf).trans (h.get f hf), j.load.trans h.load, j.teams.trans h.teams, j.now.trans h.now, j.scopes.trans h.scopes⟩

theorem of_step {g : LegSt → LegSt} (h : LegStep g n s u) : CmpRest k s u := by
  have hparts : u.load = s.load ∧ u.now = s.now ∧ u.cmps = s.cmps := by
    rw [h.kept.rest]
    exact ⟨rfl, rfl, rfl⟩
  obtain ⟨hload, hnow, hcmps⟩ := hparts
  exact ⟨fun f hf => h.kept.flds.get fun _ hg => Or.inl fun e => by have h := hg; unfold legFld at h; omega, hload, h.teams, hnow, by rw [hcmps]⟩

theorem page (h : CmpRest k s u) (hf : 0x80000 ≤ f.addr) : u.get f = s.get f := h.get f (Or.inr (by omega))

theorem mode (h : CmpRest k s u) : u.cmpMode k = s.cmpMode k := h.page (by simp only [F.CMP_CFG_MODE, A.CMP_CFG]; omega)

theorem held (h : CmpRest k s u) : u.cmpHeld k c = s.cmpHeld k c := by
  have hstat {g : Fld} (hg : g.addr = A.CMP_STAT k) : u.bit g = s.bit g := State.bit_congr (h.page (by rw [hg]; simp only [A.CMP_STAT]; omega))
  cases c with
  | h => simp only [State.cmpHeld, State.cmpBand, hstat (g := F.CMP_STAT_INBAND_H k) rfl, hstat (g := F.CMP_STAT_CFGERR k) rfl]
  | l => simp only [State.cmpHeld, State.cmpBand, hstat (g := F.CMP_STAT_INBAND_L k) rfl, hstat (g := F.CMP_STAT_CFGERR k) rfl]

theorem fast (h : CmpRest k s u) : u.isFast k c = s.isFast k c := by
  have hmap {g : Fld} (hg : g.addr = A.CMP_MAP k) : u.get g = s.get g := h.page (by rw [hg]; simp only [A.CMP_MAP]; omega)
  cases c with
  | h => simp only [State.isFast, State.cmpPath, h.mode, hmap (g := F.CMP_MAP_PATH_H k) rfl]
  | l => simp only [State.isFast, State.cmpPath, h.mode, hmap (g := F.CMP_MAP_PATH_L k) rfl]

theorem func (h : CmpRest k s u) : u.bit (F.CMP_CFG_FUNC k) = s.bit (F.CMP_CFG_FUNC k) :=
  State.bit_congr (h.page (by simp only [F.CMP_CFG_FUNC, A.CMP_CFG]; omega))

theorem blankable (h : CmpRest k s u) : u.isBlankable k c = s.isBlankable k c := by
  unfold State.isBlankable
  rw [h.func, h.fast]

theorem condAt (h : CmpRest k s u) (hraw : u.srcFilt (.cmp k) c = s.srcFilt (.cmp k) c) (v : Nat) : u.cmpCondAt k c v = s.cmpCondAt k c v := by
  unfold State.cmpCondAt
  rw [hraw, h.func, h.page (f := F.CMP_CFG_HYS k) (by simp only [F.CMP_CFG_HYS, A.CMP_CFG]; omega),
    h.page (f := F.CMP_THRHI_THR k) (by simp only [F.CMP_THRHI_THR, A.CMP_THRHI]; omega),
    h.page (f := F.CMP_THRLO_THR k) (by simp only [F.CMP_THRLO_THR, A.CMP_THRLO]; omega)]

theorem named (h : CmpRest k s u) (t : Fin 24) : u.namedLegs t = s.namedLegs t := by
  have hmap {g : Fld} (hg : 0x60000 ≤ g.addr) : u.get g = s.get g := h.get g (Or.inr (by omega))
  unfold State.namedLegs State.legSlots
  rw [hmap (g := F.TEAM_LEGMAP0_S0 t) (by simp only [F.TEAM_LEGMAP0_S0, A.TEAM_LEGMAP0]; omega),
    hmap (g := F.TEAM_LEGMAP0_S1 t) (by simp only [F.TEAM_LEGMAP0_S1, A.TEAM_LEGMAP0]; omega),
    hmap (g := F.TEAM_LEGMAP0_S2 t) (by simp only [F.TEAM_LEGMAP0_S2, A.TEAM_LEGMAP0]; omega),
    hmap (g := F.TEAM_LEGMAP0_S3 t) (by simp only [F.TEAM_LEGMAP0_S3, A.TEAM_LEGMAP0]; omega),
    hmap (g := F.TEAM_LEGMAP1_S0 t) (by simp only [F.TEAM_LEGMAP1_S0, A.TEAM_LEGMAP1]; omega),
    hmap (g := F.TEAM_LEGMAP1_S1 t) (by simp only [F.TEAM_LEGMAP1_S1, A.TEAM_LEGMAP1]; omega),
    hmap (g := F.TEAM_CFG_NLEG t) (by simp only [F.TEAM_CFG_NLEG, A.TEAM_CFG]; omega)]

theorem scope (h : CmpRest k s u) : u.scope (.cmp k) = s.scope (.cmp k) := by
  have hcalc (y leg mask : Nat) : u.scopeCalc y leg mask = s.scopeCalc y leg mask := by
    unfold State.scopeCalc State.team
    simp only [h.named, h.load, h.teams]
  have hnow : u.cmpScopeNow k = s.cmpScopeNow k := by
    unfold State.cmpScopeNow
    rw [hcalc, h.page (f := F.CMP_MAP_SCOPE k) (by simp only [F.CMP_MAP_SCOPE, A.CMP_MAP]; omega),
      h.page (f := F.CMP_MAP_LEG k) (by simp only [F.CMP_MAP_LEG, A.CMP_MAP]; omega),
      h.page (f := F.CMP_TEAMS_TEAMS k) (by simp only [F.CMP_TEAMS_TEAMS, A.CMP_TEAMS]; omega)]
  simp only [State.scope, h.load, h.scopes, hnow]

end CmpRest

/-! ## A FAST condition latches -/

/-- The latches that stand and the hits that are noted stay. -/
def LegsUp (s u : State) : Prop :=
  ∀ n, ((s.leg n).latched = true → (u.leg n).latched = true) ∧ ∀ y ∈ (s.leg n).fast, y ∈ (u.leg n).fast

theorem LegsUp.refl : LegsUp s s := fun _ => ⟨id, fun _ h => h⟩
theorem LegsUp.trans (h : LegsUp s u) (j : LegsUp u x) : LegsUp s x := fun n => ⟨fun hl => (j n).1 ((h n).1 hl), fun y hy => (j n).2 y ((h n).2 y hy)⟩
theorem LegsUp.of_legs (h : u.legs = s.legs) : LegsUp s u := by
  have hleg (n : Fin 72) : u.leg n = s.leg n := by unfold State.leg; rw [h]
  exact fun n => by rw [hleg]; exact ⟨id, fun _ h => h⟩

/-- A leg is latched, and the hit noted. -/
def FastNoted (k : Fin 96) (c : Cond) (stamp : Tick) (u : State) (n : Fin 72) : Prop :=
  (u.leg n).latched = true ∧ ∃ y ∈ (u.leg n).fast, y.k = k ∧ y.cond = c ∧ y.stamp = stamp

theorem FastNoted.up {stamp : Tick} (h : FastNoted k c stamp s n) (j : LegsUp s u) : FastNoted k c stamp u n := by
  obtain ⟨hl, y, hy, hk⟩ := h
  exact ⟨(j n).1 hl, y, (j n).2 y hy, hk⟩

/-- One leg notes a hit. -/
def State.fastNote (s : State) (k : Fin 96) (c : Cond) (at_ : Fine) (n : Fin 72) : State :=
  (s.latchGate n (at_ / 256 * 256)).modLeg n (fun l => { l with fast := l.fast ++ [{ k := k, cond := c, stamp := at_ / 256 }] })

/-- A leg without its hits, too. -/
def LegSt.trip (x : LegSt) : LegSt := { x.gate with fast := [] }

theorem LegSt.gate_fast (y : LegSt) : y.gate.fast = y.fast := rfl
theorem LegSt.gate_trip (y : LegSt) : y.gate.trip = y.trip := rfl

/-- What the noting of a hit at one leg does. -/
structure NotedAt (n : Fin 72) (s u : State) : Prop where
  step : LegStep LegSt.trip n s u
  up : LegsUp s u

theorem State.fastNote_notes (at_ : Fine) : NotedAt n s (s.fastNote k c at_ n) ∧ FastNoted k c (at_ / 256) (s.fastNote k c at_ n) n := by
  unfold State.fastNote
  have h := State.latchGate_latches (s := s) (n := n) (at_ / 256 * 256)
  generalize s.latchGate n (at_ / 256 * 256) = y at *
  have hleg : (y.modLeg n (fun l => { l with fast := l.fast ++ [{ k := k, cond := c, stamp := at_ / 256 }] })).leg n
      = { y.leg n with fast := (y.leg n).fast ++ [{ k := k, cond := c, stamp := at_ / 256 }] } := State.leg_modLeg_same _
  have hother (j : Fin 72) (hj : j ≠ n) : (y.modLeg n (fun l => { l with fast := l.fast ++ [{ k := k, cond := c, stamp := at_ / 256 }] })).leg j = s.leg j :=
    (State.leg_modLeg_other _ hj).trans (h.step.others j hj)
  have hstep : LegStep LegSt.trip n s (y.modLeg n (fun l => { l with fast := l.fast ++ [{ k := k, cond := c, stamp := at_ / 256 }] })) :=
    (h.step.loosen LegSt.gate_trip).modLeg fun _ => rfl
  have hfast : (y.leg n).fast = (s.leg n).fast := by rw [← LegSt.gate_fast, h.step.self, LegSt.gate_fast]
  generalize y.modLeg n _ = u at *
  refine ⟨⟨hstep, fun j => ?_⟩, ?_⟩
  · by_cases e : j = n
    · subst e
      rw [hleg]
      exact ⟨fun _ => h.latched, fun z hz => List.mem_append_left _ (hfast ▸ hz)⟩
    · rw [hother j e]
      exact ⟨id, fun _ hz => hz⟩
  · unfold FastNoted
    rw [hleg]
    exact ⟨h.latched, _, List.mem_append_right _ List.mem_cons_self, rfl, rfl, rfl⟩

/-- A FAST condition stands: the legs of its scope note it. -/
structure FastRaised (k : Fin 96) (s u : State) : Prop where
  rest : CmpRest k s u
  up : LegsUp s u
  filt : ∀ c', u.srcFilt (.cmp k) c' = s.srcFilt (.cmp k) c'
  due : u.due = s.due

theorem FastRaised.refl : FastRaised k s s := ⟨CmpRest.refl, LegsUp.refl, fun _ => rfl, rfl⟩

theorem FastRaised.trans (h : FastRaised k s u) (j : FastRaised k u x) : FastRaised k s x :=
  ⟨h.rest.trans j.rest, h.up.trans j.up, fun c' => (j.filt c').trans (h.filt c'), j.due.trans h.due⟩

theorem NotedAt.raised (h : NotedAt n s u) : FastRaised k s u := by
  have hparts : u.cmps = s.cmps ∧ u.due = s.due := by
    rw [h.step.kept.rest]
    exact ⟨rfl, rfl⟩
  refine ⟨.of_step h.step, h.up, fun c' => ?_, hparts.2⟩
  cases c' <;> simp only [State.srcFilt, hparts.1]

theorem State.fastAssert_raises (at_ : Fine) : FastRaised k s (s.fastAssert k c at_)
    ∧ (s.isBlankable k c = false → ∀ n ∈ s.scope (.cmp k), FastNoted k c (at_ / 256) (s.fastAssert k c at_) n) := by
  unfold State.fastAssert
  generalize s.scope (.cmp k) = l
  have hblank : s.isBlankable k c = s.isBlankable k c := rfl
  generalize hs : s.isBlankable k c = b at hblank
  clear hblank
  induction l generalizing s with
  | nil => exact ⟨FastRaised.refl, fun _ n hn => absurd hn List.not_mem_nil⟩
  | cons n r ih =>
    have hone : FastRaised k s (if (s.isBlankable k c && decide (at_ < (s.leg n).blankEnd)) = true then s else s.fastNote k c at_ n) := by
      split
      · exact FastRaised.refl
      · exact (State.fastNote_notes at_).1.raised
    have hnoted (hb : b = false) : FastNoted k c (at_ / 256) (if (s.isBlankable k c && decide (at_ < (s.leg n).blankEnd)) = true then s else s.fastNote k c at_ n) n := by
      rw [hs, hb, Bool.false_and, if_neg Bool.false_ne_true]
      exact (State.fastNote_notes at_).2
    obtain ⟨hrest, hall⟩ := ih (s := if (s.isBlankable k c && decide (at_ < (s.leg n).blankEnd)) = true then s else s.fastNote k c at_ n)
      (hone.rest.blankable.trans hs)
    refine ⟨hone.trans hrest, fun hb j hj => ?_⟩
    rcases List.mem_cons.mp hj with rfl | hj
    · exact (hnoted hb).up hrest.up
    · exact hall hb j hj

/-! ## One condition changes -/

/-- The condition's level, as the logic will know it. -/
structure CondSet (k : Fin 96) (c : Cond) (lvl : Bool) (s u : State) : Prop where
  rest : CmpRest k s u
  legs : u.legs = s.legs
  regs : u.regs = s.regs
  changed : u.srcFilt (.cmp k) c = (s.srcFilt (.cmp k) c).change lvl (s.now + 3)
  others : ∀ c', c' ≠ c → u.srcFilt (.cmp k) c' = s.srcFilt (.cmp k) c'
  known : (s.now + 3, Deferred.cmpKnown k c lvl s.now) ∈ u.due
  due : ∀ e ∈ s.due, e ∈ u.due

/-- Its change itself. -/
def State.condChanged (s : State) (k : Fin 96) (c : Cond) (lvl : Bool) : State :=
  s.modFilt (.cmp k) c (fun f => f.change lvl (s.now + 3))

theorem State.condChanged_changes : CmpRest k s (s.condChanged k c lvl) ∧ (s.condChanged k c lvl).legs = s.legs ∧ (s.condChanged k c lvl).regs = s.regs
    ∧ (s.condChanged k c lvl).srcFilt (.cmp k) c = (s.srcFilt (.cmp k) c).change lvl (s.now + 3)
    ∧ (∀ c', c' ≠ c → (s.condChanged k c lvl).srcFilt (.cmp k) c' = s.srcFilt (.cmp k) c') ∧ (s.condChanged k c lvl).due = s.due := by
  have hset (g : CmpSt → CmpSt) : (s.modCmp k g).cmps[k] = g s.cmps[k] := Vector.getElem_set_self ..
  unfold State.condChanged State.modFilt
  cases c with
  | h =>
    refine ⟨⟨fun _ _ => rfl, rfl, rfl, rfl, ?_⟩, rfl, rfl, ?_, fun c' hc => ?_, rfl⟩
    · rw [hset]
    · simp only [State.srcFilt, hset]
    · cases c' with
      | h => exact absurd rfl hc
      | l => simp only [State.srcFilt, hset]
  | l =>
    refine ⟨⟨fun _ _ => rfl, rfl, rfl, rfl, ?_⟩, rfl, rfl, ?_, fun c' hc => ?_, rfl⟩
    · rw [hset]
    · simp only [State.srcFilt, hset]
    · cases c' with
      | h => simp only [State.srcFilt, hset]
      | l => exact absurd rfl hc

theorem State.condSet_sets (hraw : (s.srcFilt (.cmp k) c).raw ≠ lvl) :
    CondSet k c lvl s ((s.setCond (.cmp k) c lvl (s.now + 3)).defer (s.now + 3) (.cmpKnown k c lvl s.now)) := by
  have heq : s.setCond (.cmp k) c lvl (s.now + 3) = if lvl = true then s.condChanged k c lvl
      else (s.condChanged k c lvl).defer (s.now + 3 + (s.condChanged k c lvl).filtN (.cmp k)) (.filtRel (.cmp k) c) := if_neg hraw
  obtain ⟨hrest, hlegs, hregs, hsame, hother, hdue⟩ := State.condChanged_changes (s := s) (k := k) (c := c) (lvl := lvl)
  rw [heq]
  generalize s.condChanged k c lvl = y at *
  have hdefer (z : State) (t : Tick) (d : Deferred) : (z.defer t d).due = z.due ++ [(t, d)] := rfl
  split
  · exact ⟨⟨hrest.get, hrest.load, hrest.teams, hrest.now, hrest.scopes⟩, hlegs, hregs, hsame, hother, by rw [hdefer]; exact List.mem_append_right _ List.mem_cons_self,
      fun e he => by rw [hdefer, hdue]; exact List.mem_append_left _ he⟩
  · exact ⟨⟨hrest.get, hrest.load, hrest.teams, hrest.now, hrest.scopes⟩, hlegs, hregs, hsame, hother, by rw [hdefer]; exact List.mem_append_right _ List.mem_cons_self,
      fun e he => by rw [hdefer, hdefer, hdue]; exact List.mem_append_left _ (List.mem_append_left _ he)⟩

theorem FiltSt.change_since {f : FiltSt} {t : Tick} (h : f.raw ≠ lvl) (ht : f.since ≠ t) : (f.change lvl t).since = t := by
  unfold FiltSt.change
  rw [if_neg h, if_neg ht]

/-- What a crossing leaves beside its own condition. -/
structure CondStep (k : Fin 96) (c : Cond) (s u : State) : Prop where
  rest : CmpRest k s u
  up : LegsUp s u
  others : ∀ c', c' ≠ c → u.srcFilt (.cmp k) c' = s.srcFilt (.cmp k) c'
  due : ∀ e ∈ s.due, e ∈ u.due

/-- A condition takes a level. -/
structure CondTakes (k : Fin 96) (c : Cond) (lvl : Bool) (s u : State) : Prop where
  raw : (u.srcFilt (.cmp k) c).raw = lvl
  known : (s.srcFilt (.cmp k) c).raw ≠ lvl → (s.now + 3, Deferred.cmpKnown k c lvl s.now) ∈ u.due
    ∧ ((s.srcFilt (.cmp k) c).since ≠ s.now + 3 → (u.srcFilt (.cmp k) c).since = s.now + 3)
    ∧ (lvl = true → s.isFast k c = true → s.isBlankable k c = false → ∀ n ∈ s.scope (.cmp k), FastNoted k c s.now u n)

theorem CondTakes.later (h : CondTakes k c lvl s u) (j : CondStep k c' u x) (hc : c ≠ c') : CondTakes k c lvl s x := by
  have hf := j.others c hc
  refine ⟨by rw [hf]; exact h.raw, fun hne => ?_⟩
  obtain ⟨h1, h2, h3⟩ := h.known hne
  exact ⟨j.due _ h1, fun hs => by rw [hf]; exact h2 hs, fun hl hfa hb n hn => (h3 hl hfa hb n hn).up j.up⟩

theorem CondTakes.since (j : CondStep k c' s u) (hc : c ≠ c') (h : CondTakes k c lvl u x) : CondTakes k c lvl s x := by
  have hf := j.others c hc
  obtain ⟨hraw, hknown⟩ := h
  rw [hf, j.rest.now, j.rest.fast, j.rest.blankable, j.rest.scope] at hknown
  exact ⟨hraw, hknown⟩

/-- What a crossing does to its own condition. -/
structure CondEdge (k : Fin 96) (c : Cond) (lvl : Bool) (s u : State) : Prop where
  step : CondStep k c s u
  takes : s.cmpMode k = 1 → s.cmpHeld k c = false → CondTakes k c lvl s u
  slow : s.isFast k c = false → u.legs = s.legs ∧ u.regs = s.regs

theorem State.inst_tick (fine : Nat) : s.inst fine / 256 = s.now := by
  rw [State.inst, State.nowF, Nat.mul_add_div (by decide), Nat.div_eq_of_lt (Nat.mod_lt _ (by decide)), Nat.add_zero]

theorem State.cmpCondEdge_edge (fine : Nat) : CondEdge k c lvl s (s.cmpCondEdge k c lvl fine) := by
  unfold State.cmpCondEdge
  split
  case isTrue h =>
    refine ⟨⟨CmpRest.refl, LegsUp.refl, fun _ _ => rfl, fun _ he => he⟩, fun hm hh => ?_, fun _ => ⟨rfl, rfl⟩⟩
    rcases h with h | h | h
    · exact absurd hm h
    · rw [hh] at h
      exact absurd h Bool.false_ne_true
    · exact ⟨h, fun hne => absurd h hne⟩
  case isFalse h =>
    rw [not_or, not_or] at h
    obtain ⟨-, -, hraw⟩ := h
    have hset := State.condSet_sets hraw
    have hnow : (s.setCond (.cmp k) c lvl (s.now + 3)).now = s.now := hset.rest.now
    dsimp only
    rw [hnow]
    generalize (s.setCond (.cmp k) c lvl (s.now + 3)).defer (s.now + 3) (.cmpKnown k c lvl s.now) = y at *
    obtain ⟨hraise, hnoted⟩ := State.fastAssert_raises (s := y) (k := k) (c := c) (y.inst fine)
    rw [State.inst_tick] at hnoted
    have hraw' : (y.srcFilt (.cmp k) c).raw = lvl := by rw [hset.changed, FiltSt.change_raw]
    have hsince (hs : (s.srcFilt (.cmp k) c).since ≠ s.now + 3) : (y.srcFilt (.cmp k) c).since = s.now + 3 := by
      rw [hset.changed, FiltSt.change_since hraw hs]
    have hup : LegsUp s y := LegsUp.of_legs hset.legs
    split
    case isTrue hf =>
      rw [Bool.and_eq_true, hset.rest.fast] at hf
      refine ⟨⟨hset.rest.trans hraise.rest, hup.trans hraise.up, fun c' hc => (hraise.filt c').trans (hset.others c' hc),
        fun e he => by rw [hraise.due]; exact hset.due e he⟩, fun _ _ => ⟨by rw [hraise.filt, hraw'], fun _ => ⟨by rw [hraise.due]; exact hset.known,
          fun hs => by rw [hraise.filt]; exact hsince hs, fun _ _ hb n hn => ?_⟩⟩, fun hslow => ?_⟩
      · have h := hnoted (hset.rest.blankable.trans hb) n (by rw [hset.rest.scope]; exact hn)
        rwa [hset.rest.now] at h
      · rw [hslow] at hf
        exact absurd hf.2 Bool.false_ne_true
    case isFalse hf =>
      rw [Bool.and_eq_true, hset.rest.fast] at hf
      exact ⟨⟨hset.rest, hup, hset.others, hset.due⟩, fun _ _ => ⟨hraw', fun _ => ⟨hset.known, hsince, fun hl hfa => absurd ⟨hl, hfa⟩ hf⟩⟩,
        fun _ => ⟨hset.legs, hset.regs⟩⟩

/-! ## A crossing -/

/-- Both conditions of a crossing. -/
structure Crossed (k : Fin 96) (v : Nat) (s u : State) : Prop where
  high : s.cmpMode k = 1 → s.cmpHeld k .h = false → CondTakes k .h (s.cmpCondAt k .h v) s u
  low : s.cmpMode k = 1 → s.cmpHeld k .l = false → CondTakes k .l (s.cmpCondAt k .l v) s u
  slow : s.isFast k .h = false → s.isFast k .l = false → u.legs = s.legs ∧ u.regs = s.regs

theorem State.cmpCrossing_crosses (v fine : Nat) : Crossed k v s (s.cmpCrossing k v fine) := by
  unfold State.cmpCrossing
  have h1 := State.cmpCondEdge_edge (s := s) (k := k) (c := .h) (lvl := s.cmpCondAt k .h v) fine
  dsimp only
  generalize s.cmpCondEdge k .h (s.cmpCondAt k .h v) fine = y at *
  have hlow : y.cmpCondAt k .l v = s.cmpCondAt k .l v := h1.step.rest.condAt (h1.step.others _ (by decide)) v
  rw [hlow]
  have h2 := State.cmpCondEdge_edge (s := y) (k := k) (c := .l) (lvl := s.cmpCondAt k .l v) fine
  generalize y.cmpCondEdge k .l (s.cmpCondAt k .l v) fine = u at *
  refine ⟨fun hm hh => (h1.takes hm hh).later h2.step (by decide),
    fun hm hh => .since h1.step (by decide) (h2.takes (h1.step.rest.mode.trans hm) (h1.step.rest.held.trans hh)), fun hh hl => ?_⟩
  obtain ⟨k1, k2⟩ := h1.slow hh
  obtain ⟨j1, j2⟩ := h2.slow (h1.step.rest.fast.trans hl)
  exact ⟨j1.trans k1, j2.trans k2⟩

/-! ## The levels -/

theorem condAt_above {thr hys v : Nat} {was : Bool} : (25 * thr < v → condAt false thr hys v was = true)
    ∧ (v + 25 * hys < 25 * thr → condAt false thr hys v was = false)
    ∧ (v ≤ 25 * thr → 25 * thr ≤ v + 25 * hys → condAt false thr hys v was = was) := by
  refine ⟨fun h => ?_, fun h => ?_, fun h h' => ?_⟩
  · rw [condAt, if_neg Bool.false_ne_true, if_pos h]
  · rw [condAt, if_neg Bool.false_ne_true, if_neg (by omega), if_pos h]
  · rw [condAt, if_neg Bool.false_ne_true, if_neg (by omega), if_neg (by omega)]

theorem condAt_below {thr hys v : Nat} {was : Bool} : (v < 25 * thr → condAt true thr hys v was = true)
    ∧ (25 * thr + 25 * hys < v → condAt true thr hys v was = false) := by
  refine ⟨fun h => ?_, fun h => ?_⟩
  · rw [condAt, if_pos rfl, if_pos h]
  · rw [condAt, if_pos rfl, if_neg (by omega), if_pos (by omega)]

/-! ## A sample -/

/-- The fields that a change of a condition shows. -/
def showFld (k : Fin 96) (f : Fld) : Prop :=
  f.addr = A.CMP_STAT k ∧ (f.lo + f.width ≤ 18 ∨ 30 ≤ f.lo) ∨ f.addr = A.CMP_STAMP0 k ∨ f.addr = A.CMP_STAMP1 k ∨ f.addr = A.CMP_CNT k

theorem showFld_stat {lo w : Nat} (h : lo + w ≤ 18 ∨ 30 ≤ lo) : showFld k ⟨A.CMP_STAT k, lo, w⟩ := Or.inl ⟨rfl, h⟩

/-- A bit of CMP_STAT that no condition shows, and the words that configure the comparator. -/
theorem showFld_apart {g : Fld} (hg : g.addr = A.CMP_STAT k ∧ 18 ≤ g.lo ∧ g.lo + g.width ≤ 30 ∨ g.addr = A.CMP_CFG k ∨ g.addr = A.CMP_MAP k
    ∨ g.addr = A.CMP_THRHI k ∨ g.addr = A.CMP_THRLO k) : ∀ f, showFld k f → Apart g f := by
  intro f hf
  unfold showFld at hf
  simp only [Apart, A.CMP_STAT, A.CMP_CFG, A.CMP_MAP, A.CMP_THRHI, A.CMP_THRLO, A.CMP_STAMP0, A.CMP_STAMP1, A.CMP_CNT] at *
  omega

/-- The flag of a condition, its event and its count. -/
def State.condFlag (s : State) (k : Fin 96) (c : Cond) (lvl : Bool) : State :=
  match c with
  | .h =>
    let s := s.putB (F.CMP_STAT_H k) lvl
    if lvl then (s.raise (F.CMP_STAT_H_SEEN k)).bump (F.CMP_CNT_HCNT k) else s
  | .l =>
    let s := s.putB (F.CMP_STAT_L k) lvl
    if lvl then (s.raise (F.CMP_STAT_L_SEEN k)).bump (F.CMP_CNT_LCNT k) else s

theorem showFld_cnt {lo w : Nat} : showFld k ⟨A.CMP_CNT k, lo, w⟩ := Or.inr (Or.inr (Or.inr rfl))

theorem State.condFlag_flds (c : Cond) (lvl : Bool) : FldsBut (showFld k) s (s.condFlag k c lvl) := by
  have hone (f g h : Fld) (b : Bool) (hf : showFld k f) (hg : showFld k g) (hh : showFld k h) (wf : f.lo + f.width ≤ 32) (wg : g.lo + g.width ≤ 32)
      (wh : h.lo + h.width ≤ 32) : FldsBut (showFld k) s (if b = true then ((s.putB f b).raise g).bump h else s.putB f b) :=
    (((FldsBut.refl.putB b hf wf).raise hg wg).bump hh wh).ite (FldsBut.refl.putB b hf wf)
  cases c with
  | h =>
    exact hone (F.CMP_STAT_H k) (F.CMP_STAT_H_SEEN k) (F.CMP_CNT_HCNT k) lvl (showFld_stat (by decide)) (showFld_stat (by decide)) showFld_cnt
      (Nat.le_of_ble_eq_true rfl) (Nat.le_of_ble_eq_true rfl) (Nat.le_of_ble_eq_true rfl)
  | l =>
    exact hone (F.CMP_STAT_L k) (F.CMP_STAT_L_SEEN k) (F.CMP_CNT_LCNT k) lvl (showFld_stat (by decide)) (showFld_stat (by decide)) showFld_cnt
      (Nat.le_of_ble_eq_true rfl) (Nat.le_of_ble_eq_true rfl) (Nat.le_of_ble_eq_true rfl)

/-- Nothing but registers and the states of the filters differs. -/
structure CondShown (k : Fin 96) (s u : State) : Prop where
  flds : FldsBut (showFld k) s u
  legs : u.legs = s.legs
  cmps : u.cmps = s.cmps

theorem State.condFlag_kept (c : Cond) (lvl : Bool) : (s.condFlag k c lvl).legs = s.legs ∧ (s.condFlag k c lvl).cmps = s.cmps := by
  have hone (f g h : Fld) (b : Bool) : (if b = true then ((s.putB f b).raise g).bump h else s.putB f b).legs = s.legs
      ∧ (if b = true then ((s.putB f b).raise g).bump h else s.putB f b).cmps = s.cmps := by
    split
    · exact ⟨rfl, rfl⟩
    · exact ⟨rfl, rfl⟩
  cases c with
  | h => exact hone (F.CMP_STAT_H k) (F.CMP_STAT_H_SEEN k) (F.CMP_CNT_HCNT k) lvl
  | l => exact hone (F.CMP_STAT_L k) (F.CMP_STAT_L_SEEN k) (F.CMP_CNT_LCNT k) lvl

/-- The bit of a stamp that says which condition it is of. -/
def condMark : Cond → Nat
  | .h => 0
  | .l => 2 ^ 31

theorem State.cmpShow_shown (stamp : Tick) : CondShown k s (s.cmpShow k c lvl stamp) := by
  obtain ⟨hlegs, hcmps⟩ := State.condFlag_kept (s := s) (k := k) c lvl
  have hflds := State.condFlag_flds (s := s) (k := k) c lvl
  have heq : s.cmpShow k c lvl stamp = ((s.condFlag k c lvl).wr (A.CMP_STAMP0 k) (BitVec.ofNat 32 ((s.condFlag k c lvl).stampOf (256 * stamp)))).wr (A.CMP_STAMP1 k)
      (BitVec.ofNat 32 ((s.condFlag k c lvl).stampOf (256 * stamp) / 2 ^ 32 % 256 + b2n lvl * 2 ^ 30 + condMark c)) := by
    cases c <;> rfl
  rw [heq]
  generalize s.condFlag k c lvl = y at *
  exact ⟨(hflds.wr _ (Or.inr (Or.inl rfl))).wr _ (Or.inr (Or.inr (Or.inl rfl))), by rw [State.wr_legs, State.wr_legs, hlegs],
    by rw [State.wr_cmps, State.wr_cmps, hcmps]⟩

/-- What the sample of one condition leaves. -/
structure CondSampled (k : Fin 96) (c : Cond) (lvl : Bool) (s u : State) : Prop where
  raw : (u.srcFilt (.cmp k) c).raw = lvl
  others : ∀ c', c' ≠ c → u.srcFilt (.cmp k) c' = s.srcFilt (.cmp k) c'
  flds : FldsBut (showFld k) s u
  legs : u.legs = s.legs

theorem State.modFilt_cmp (g : FiltSt → FiltSt) : (s.modFilt (.cmp k) c g).srcFilt (.cmp k) c = g (s.srcFilt (.cmp k) c)
    ∧ (∀ c', c' ≠ c → (s.modFilt (.cmp k) c g).srcFilt (.cmp k) c' = s.srcFilt (.cmp k) c') ∧ (s.modFilt (.cmp k) c g).regs = s.regs
    ∧ (s.modFilt (.cmp k) c g).legs = s.legs := by
  have hset (h : CmpSt → CmpSt) : (s.modCmp k h).cmps[k] = h s.cmps[k] := Vector.getElem_set_self ..
  unfold State.modFilt
  cases c with
  | h =>
    refine ⟨by simp only [State.srcFilt, hset], fun c' hc => ?_, rfl, rfl⟩
    cases c' with
    | h => exact absurd rfl hc
    | l => simp only [State.srcFilt, hset]
  | l =>
    refine ⟨by simp only [State.srcFilt, hset], fun c' hc => ?_, rfl, rfl⟩
    cases c' with
    | h => simp only [State.srcFilt, hset]
    | l => exact absurd rfl hc

theorem CondSampled.modFilt {g : FiltSt → FiltSt} (h : CondSampled k c lvl s u) (hg : ∀ f, (g f).raw = f.raw) :
    CondSampled k c lvl s (u.modFilt (.cmp k) c g) := by
  obtain ⟨h1, h2, h3, h4⟩ := State.modFilt_cmp (s := u) (k := k) (c := c) g
  exact ⟨by rw [h1, hg, h.raw], fun c' hc => (h2 c' hc).trans (h.others c' hc), h.flds.of_regs h3, h4.trans h.legs⟩

theorem CondSampled.show (h : CondSampled k c lvl s u) (b : Bool) (stamp : Tick) : CondSampled k c lvl s (u.cmpShow k c b stamp) := by
  have hs := State.cmpShow_shown (s := u) (k := k) (c := c) (lvl := b) stamp
  have hf (c' : Cond) : (u.cmpShow k c b stamp).srcFilt (.cmp k) c' = u.srcFilt (.cmp k) c' := by
    cases c' <;> simp only [State.srcFilt, hs.cmps]
  exact ⟨by rw [hf, h.raw], fun c' hc => (hf c').trans (h.others c' hc), h.flds.trans hs.flds, hs.legs.trans h.legs⟩

theorem CondSampled.ite {p : Prop} [Decidable p] (h : CondSampled k c lvl s u) (j : CondSampled k c lvl s x) : CondSampled k c lvl s (if p then u else x) := by
  split
  · exact h
  · exact j

/-- The level that a sample takes. -/
def State.sampleLvl (s : State) (k : Fin 96) (c : Cond) (lvl : Bool) : Bool := lvl || s.cmpHeld k c

/-- The sample enters the filter. -/
def State.sampleIn (s : State) (k : Fin 96) (c : Cond) (lvl : Bool) : State := s.modFilt (.cmp k) c (fun f =>
  if f.raw = lvl then { f with samples := f.samples + 1 } else { f with raw := lvl, prev := [], since := s.now, samples := 1 })

theorem State.sampleIn_sampled : CondSampled k c lvl s (s.sampleIn k c lvl) := by
  unfold State.sampleIn
  obtain ⟨h1, h2, h3, h4⟩ := State.modFilt_cmp (s := s) (k := k) (c := c) (fun f =>
    if f.raw = lvl then { f with samples := f.samples + 1 } else { f with raw := lvl, prev := [], since := s.now, samples := 1 })
  refine ⟨?_, h2, FldsBut.refl.of_regs h3, h4⟩
  rw [h1]
  split
  case isTrue h => exact h
  case isFalse => rfl

/-- What it shows, where the condition changes. -/
def State.sampleShow (s : State) (k : Fin 96) (c : Cond) (old lvl : Bool) : State := if old != lvl then s.cmpShow k c lvl s.now else s

/-- A release that has run its samples. -/
def State.sampleOut (s : State) (k : Fin 96) (c : Cond) (lvl : Bool) : State :=
  if !lvl && decide (s.filtN (.cmp k) + 1 ≤ (s.srcFilt (.cmp k) c).samples) then s.modFilt (.cmp k) c (fun f => { f with filt := false }) else s

theorem State.cmpSampleCond_samples (lvl : Bool) : CondSampled k c (s.sampleLvl k c lvl) s (s.cmpSampleCond k c lvl) := by
  have heq : s.cmpSampleCond k c lvl = ((s.sampleIn k c (s.sampleLvl k c lvl)).sampleShow k c (s.srcFilt (.cmp k) c).raw (s.sampleLvl k c lvl)).sampleOut k c
    (s.sampleLvl k c lvl) := rfl
  rw [heq]
  have h1 := State.sampleIn_sampled (s := s) (k := k) (c := c) (lvl := s.sampleLvl k c lvl)
  generalize s.sampleIn k c (s.sampleLvl k c lvl) = x at *
  have h2 : CondSampled k c (s.sampleLvl k c lvl) s (x.sampleShow k c (s.srcFilt (.cmp k) c).raw (s.sampleLvl k c lvl)) := by
    unfold State.sampleShow
    exact (h1.show ..).ite h1
  generalize x.sampleShow k c (s.srcFilt (.cmp k) c).raw (s.sampleLvl k c lvl) = y at *
  unfold State.sampleOut
  refine CondSampled.ite (h2.modFilt ?_) h2
  exact fun _ => rfl

theorem State.activeUpdate_legs (src : TripSrc) : FldsBut legFld s (s.activeUpdate src) ∧ (s.activeUpdate src).legs = s.legs ∧ (s.activeUpdate src).cmps = s.cmps := by
  have hf (n : Fin 72) : legFld (F.LEG_TRIPSTAT_ACTIVE n) := ⟨by simp only [F.LEG_TRIPSTAT_ACTIVE, A.LEG_TRIPSTAT]; omega, by simp only [F.LEG_TRIPSTAT_ACTIVE, A.LEG_TRIPSTAT]; omega⟩
  refine each_keeps (fun u => FldsBut legFld s u ∧ u.legs = s.legs ∧ u.cmps = s.cmps) _ _ (fun n _ u hu => ?_) s ⟨FldsBut.refl, rfl, rfl⟩
  exact ⟨hu.1.putB _ (hf n) (Nat.le_of_ble_eq_true rfl), (State.put_legs ..).trans hu.2.1, (State.put_cmps ..).trans hu.2.2⟩

/-- A sample, as it is taken. -/
structure Sampled (k : Fin 96) (v : Nat) (s u : State) : Prop where
  valid : u.get (F.CMP_STAT_SVALID k) = 1
  high : (u.srcFilt (.cmp k) .h).raw = (s.cmpCondAt k .h v || s.cmpHeld k .h)
  low : (u.srcFilt (.cmp k) .l).raw = (s.cmpCondAt k .l v || s.cmpHeld k .l)
  legs : u.legs = s.legs

/-- A sample is on. -/
def State.sampleOn (s : State) (k : Fin 96) : State := s.putB (F.CMP_STAT_SVALID k) true

/-- What a sample reads but for the filters. -/
structure SampleRead (k : Fin 96) (s u : State) : Prop where
  stat : ∀ g : Fld, g.addr = A.CMP_STAT k → (18 ≤ g.lo ∧ g.lo + g.width ≤ 27 ∨ 28 ≤ g.lo ∧ g.lo + g.width ≤ 30) → u.get g = s.get g
  cfg : ∀ g : Fld, (g.addr = A.CMP_CFG k ∨ g.addr = A.CMP_MAP k ∨ g.addr = A.CMP_THRHI k ∨ g.addr = A.CMP_THRLO k) → u.get g = s.get g

theorem SampleRead.trans (h : SampleRead k s u) (j : SampleRead k u x) : SampleRead k s x :=
  ⟨fun g hg hb => (j.stat g hg hb).trans (h.stat g hg hb), fun g hg => (j.cfg g hg).trans (h.cfg g hg)⟩

theorem SampleRead.held (h : SampleRead k s u) : u.cmpHeld k c = s.cmpHeld k c := by
  cases c with
  | h =>
    simp only [State.cmpHeld, State.cmpBand, State.bit_congr (h.stat (F.CMP_STAT_INBAND_H k) rfl (by simp only [F.CMP_STAT_INBAND_H]; omega)),
      State.bit_congr (h.stat (F.CMP_STAT_CFGERR k) rfl (by simp only [F.CMP_STAT_CFGERR]; omega))]
  | l =>
    simp only [State.cmpHeld, State.cmpBand, State.bit_congr (h.stat (F.CMP_STAT_INBAND_L k) rfl (by simp only [F.CMP_STAT_INBAND_L]; omega)),
      State.bit_congr (h.stat (F.CMP_STAT_CFGERR k) rfl (by simp only [F.CMP_STAT_CFGERR]; omega))]

theorem SampleRead.condAt (h : SampleRead k s u) (hraw : u.srcFilt (.cmp k) c = s.srcFilt (.cmp k) c) (v : Nat) : u.cmpCondAt k c v = s.cmpCondAt k c v := by
  unfold State.cmpCondAt
  rw [hraw, State.bit_congr (h.cfg (F.CMP_CFG_FUNC k) (Or.inl rfl)), h.cfg (F.CMP_CFG_HYS k) (Or.inl rfl),
    h.cfg (F.CMP_THRHI_THR k) (Or.inr (Or.inr (Or.inl rfl))), h.cfg (F.CMP_THRLO_THR k) (Or.inr (Or.inr (Or.inr rfl)))]

theorem CondSampled.read (h : CondSampled k c lvl s u) : SampleRead k s u :=
  ⟨fun g hg hb => h.flds.get (showFld_apart (Or.inl ⟨hg, by omega⟩)), fun g hg => h.flds.get (showFld_apart (Or.inr hg))⟩

theorem State.sampleOn_on : (s.sampleOn k).get (F.CMP_STAT_SVALID k) = 1 ∧ SampleRead k s (s.sampleOn k) ∧ (s.sampleOn k).legs = s.legs
    ∧ (s.sampleOn k).cmps = s.cmps := by
  unfold State.sampleOn
  rw [State.putB_eq]
  refine ⟨State.get_put_same _ _ (f := F.CMP_STAT_SVALID k) (Nat.le_of_ble_eq_true rfl), ⟨fun g hg hb => ?_, fun g hg => ?_⟩, State.put_legs .., State.put_cmps ..⟩
  · obtain ⟨ad, lo, w⟩ := g
    replace hg : ad = A.CMP_STAT k := hg
    subst hg
    exact State.get_put_bits (f := F.CMP_STAT_SVALID k) (g := ⟨A.CMP_STAT k, lo, w⟩) _ _ (Nat.le_of_ble_eq_true rfl) (by simp only [F.CMP_STAT_SVALID] at *; omega)
  · refine State.get_put_word (f := F.CMP_STAT_SVALID k) _ _ ?_
    simp only [F.CMP_STAT_SVALID, A.CMP_STAT, A.CMP_CFG, A.CMP_MAP, A.CMP_THRHI, A.CMP_THRLO] at *
    omega

theorem State.cmpSample_samples (hdue : s.cmpSampleDue k = true) (v : Nat) : Sampled k v s (s.cmpSample k v) := by
  have heq : s.cmpSample k v = (((s.sampleOn k).cmpSampleCond k .h ((s.sampleOn k).cmpCondAt k .h v)).cmpSampleCond k .l
      (((s.sampleOn k).cmpSampleCond k .h ((s.sampleOn k).cmpCondAt k .h v)).cmpCondAt k .l v)).activeUpdate (.cmp k) := by
    unfold State.cmpSample
    exact if_pos hdue
  rw [heq]
  obtain ⟨hon, hread, hlegs, hcmps⟩ := State.sampleOn_on (s := s) (k := k)
  have hfilt (c : Cond) : (s.sampleOn k).srcFilt (.cmp k) c = s.srcFilt (.cmp k) c := by cases c <;> simp only [State.srcFilt, hcmps]
  generalize s.sampleOn k = x at *
  rw [hread.condAt (hfilt .h)]
  have h1 := State.cmpSampleCond_samples (s := x) (k := k) (c := .h) (s.cmpCondAt k .h v)
  rw [State.sampleLvl, hread.held] at h1
  generalize x.cmpSampleCond k .h (s.cmpCondAt k .h v) = y at *
  have hread2 := hread.trans h1.read
  rw [hread2.condAt ((h1.others _ (by decide)).trans (hfilt .l))]
  have h2 := State.cmpSampleCond_samples (s := y) (k := k) (c := .l) (s.cmpCondAt k .l v)
  rw [State.sampleLvl, hread2.held] at h2
  generalize y.cmpSampleCond k .l (s.cmpCondAt k .l v) = z at *
  obtain ⟨hf3, hl3, hc3⟩ := State.activeUpdate_legs (s := z) (.cmp k)
  generalize z.activeUpdate (.cmp k) = u at *
  have hfu (c : Cond) : u.srcFilt (.cmp k) c = z.srcFilt (.cmp k) c := by cases c <;> simp only [State.srcFilt, hc3]
  have hsv {a b : State} {c : Cond} {l : Bool} (h : CondSampled k c l a b) : b.get (F.CMP_STAT_SVALID k) = a.get (F.CMP_STAT_SVALID k) :=
    h.flds.get (showFld_apart (Or.inl ⟨rfl, by simp only [F.CMP_STAT_SVALID]; omega⟩))
  refine ⟨?_, by rw [hfu, h2.others _ (by decide), h1.raw], by rw [hfu, h2.raw], by rw [hl3, h2.legs, h1.legs, hlegs]⟩
  have hleg : u.get (F.CMP_STAT_SVALID k) = z.get (F.CMP_STAT_SVALID k) := hf3.get fun f hf => Or.inl fun e => by
    unfold legFld at hf
    rw [← e] at hf
    simp only [F.CMP_STAT_SVALID, A.CMP_STAT] at hf
    omega
  rw [hleg, hsv h2, hsv h1, hon]

end Crossings

/-- Settles O30. A crossing is two edges, each of which leaves what the other reads; a sample is two samples in turn. -/
theorem comparators : Obligations.Comparators := by
  intro s t k mv fr fine
  dsimp only
  intro hclk hx
  refine ⟨fun hm hturn => ⟨_, exec_at rfl (State.act.eq_def ..) hclk hturn, ?_⟩, fun hdue hturn => ⟨_, exec_at rfl (State.act.eq_def ..) hclk hturn, ?_⟩⟩
  all_goals generalize s.advance t = a at *
  all_goals generalize 16 * mv.toNat + fr.val = v at *
  case refine_1 =>
    have h := State.cmpCrossing_crosses (s := a) (k := k) v fine
    have hhigh (hh : a.cmpHeld k .h = false) (lvl : Bool) (hl : a.cmpCondAt k .h v = lvl) : CondTakes k .h lvl a (a.cmpCrossing k v fine) := hl ▸ h.high hm hh
    have hlow (hh : a.cmpHeld k .l = false) (lvl : Bool) (hl : a.cmpCondAt k .l v = lvl) : CondTakes k .l lvl a (a.cmpCrossing k v fine) := hl ▸ h.low hm hh
    have hwin (hf : a.bit (F.CMP_CFG_FUNC k) = false) : a.cmpCondAt k .l v
        = condAt true (a.get (F.CMP_THRLO_THR k)) (hysCodes (a.get (F.CMP_CFG_HYS k))) v (a.srcFilt (.cmp k) .l).raw := by
      rw [State.cmpCondAt, hf]
      rfl
    have hdes (hf : a.bit (F.CMP_CFG_FUNC k) = true) : a.cmpCondAt k .l v
        = condAt false (a.get (F.CMP_THRLO_THR k)) (hysCodes (a.get (F.CMP_CFG_HYS k))) v (a.srcFilt (.cmp k) .l).raw := by
      rw [State.cmpCondAt, hf]
      rfl
    refine ⟨fun hh => ⟨fun hv => ?_, fun hv => ?_, fun hv hv' => ?_⟩, fun hh hf => ⟨fun hv => ?_, fun hv => ?_⟩, fun hh hf => ⟨fun hv => ?_, fun hv => ?_⟩, h.slow⟩
    · exact ⟨(hhigh hh true (condAt_above.1 hv)).raw, (hhigh hh true (condAt_above.1 hv)).known⟩
    · exact ⟨(hhigh hh false (condAt_above.2.1 hv)).raw, (hhigh hh false (condAt_above.2.1 hv)).known⟩
    · exact ⟨(hhigh hh _ (condAt_above.2.2 hv hv')).raw, (hhigh hh _ (condAt_above.2.2 hv hv')).known⟩
    · have hl := hlow hh true ((hwin hf).trans (condAt_below.1 hv))
      exact ⟨hl.raw, hl.known⟩
    · have hl := hlow hh false ((hwin hf).trans (condAt_below.2 hv))
      exact ⟨hl.raw, hl.known⟩
    · have hl := hlow hh true ((hdes hf).trans (condAt_above.1 hv))
      exact ⟨hl.raw, hl.known⟩
    · have hl := hlow hh false ((hdes hf).trans (condAt_above.2.1 hv))
      exact ⟨hl.raw, hl.known⟩
  case refine_2 =>
    have h := State.cmpSample_samples hdue v
    refine ⟨h.valid, h.high, h.low, fun hv => ?_, h.legs⟩
    have hup : a.cmpCondAt k .h v = true := condAt_above.1 hv
    rw [h.high, hup, Bool.true_or]

end Sys2Proof.Machine
end
